-- ==== Sys2Proof/Word.lean ====
section
/-! DEFINITION. The word types of the FNX-9600 and its unit indices (R7 to R9, R16, R29). -/

namespace Sys2Proof

/-- A byte (R8). -/
abbrev Byte := BitVec 8

/-- An unqualified word is 32 bits (R9). -/
abbrev Word := BitVec 32

/-- A time stamp: a 64-bit count of 1 ns (R5). -/
abbrev Stamp := BitVec 64

/-- A logical tile of the device: 256 for die B, plus 16 times the cluster, plus the tile (R16). -/
abbrev TileId := Fin 512

/-- A logical cluster of the device: A0 to A15 are 0 to 15, B0 to B15 are 16 to 31 (R195, R16). -/
abbrev ClusterId := Fin 32

/-- A logical macro of a tile (R16). -/
abbrev MacroId := Fin 16

/-- An accumulator slot (R74). -/
abbrev AccSlot := Fin 8

/-- A partition (R323). -/
abbrev PartId := Fin 8

/-- A host slot of a partition (R306). -/
abbrev HostSlot := Fin 16

/-- An optical engine, and the fabric engine that drives it (R275). -/
abbrev EngineId := Fin 8

/-- A port: bit 2e + p of the port masks, p = 0 for port A and 1 for port B (R195). -/
abbrev PortId := Fin 16

/-- A tile band, which is power domain D0 to D15 (R365). -/
abbrev BandId := Fin 16

/-- An HBM controller and its stack: 0 to 3 on die A, 4 to 7 on die B (R258). -/
abbrev CtrlId := Fin 8

/-- A gate group (R307). -/
abbrev GroupId := Fin 64

/-- A handle of a tile (R237). -/
abbrev HandleId := Fin 32

/-- A scratchpad bank of a tile (R227). -/
abbrev SpBank := Fin 4

/-- A heath die: 0 for A, 1 for B. -/
abbrev DieId := Fin 2

/-- An HBM device address (R258). -/
abbrev HbmAddr := BitVec 39

/-- Values by key in ascending key order. A key that is not listed has the default its reader names. -/
abbrev Store (α : Type) := List (Nat × α)

end Sys2Proof
end

