-- ==== Sys2Proof/Machine/Bits.lean ====
section
/-! DEFINITION. Stores by key, byte memories in canonical form, byte order, bit fields, saturating counts and
rounding, which every other file of the machine uses. -/

namespace Sys2Proof.Machine

/-- The value of key `k`, or `d` where the key is not listed. -/
def Store.get {α : Type} (d : α) : Store α → Nat → α
  | [], _ => d
  | (k', v) :: m, k => if k' = k then v else Store.get d m k

/-- The store with key `k` holding `v`. -/
def Store.set {α : Type} : Store α → Nat → α → Store α
  | [], k, v => [(k, v)]
  | (k', v') :: m, k, v =>
    if k' = k then (k, v) :: m
    else if k < k' then (k, v) :: (k', v') :: m
    else (k', v') :: Store.set m k v

/-- The store without key `k`. -/
def Store.erase {α : Type} (m : Store α) (k : Nat) : Store α := m.filter fun c => !decide (c.1 = k)

/-- The byte at an address of a byte memory; an address that is not listed reads as zero. DESIGN CHOICE: log 20. -/
def Mem.read (m : Store Byte) (a : Nat) : Byte := Store.get 0 m a

/-- A byte memory with one byte written. Zero is what an unlisted address reads as, so it is not listed.
DESIGN CHOICE: log 20. -/
def Mem.write (m : Store Byte) (a : Nat) (b : Byte) : Store Byte :=
  if b = 0 then Store.erase m a else Store.set m a b

/-- Write bytes at ascending addresses. -/
def Mem.writeBytes (m : Store Byte) (a : Nat) : List Byte → Store Byte
  | [] => m
  | b :: bs => Mem.writeBytes (Mem.write m a b) (a + 1) bs

/-- `n` bytes from address `a`. -/
def Mem.readBytes (m : Store Byte) (a : Nat) : Nat → List Byte
  | 0 => []
  | n + 1 => Mem.read m a :: Mem.readBytes m (a + 1) n

/-- Keys strictly rise. -/
def Store.sorted {α : Type} : Store α → Bool
  | [] => true
  | [_] => true
  | (k, _) :: (k', v') :: m => decide (k < k') && Store.sorted ((k', v') :: m)

/-- The canonical form of a byte memory: addresses strictly rise and no entry is zero. DESIGN CHOICE: log 20. -/
def Mem.wf (m : Store Byte) : Bool := Store.sorted m && m.all fun c => !decide (c.2 = 0)

/-- The bytes of a list, little-endian, as a number (R8). -/
def leNat : List Byte → Nat
  | [] => 0
  | b :: bs => b.toNat + 256 * leNat bs

/-- The low `n` bytes of a number, little-endian (R8). -/
def leBytes : Nat → Nat → List Byte
  | 0, _ => []
  | n + 1, v => BitVec.ofNat 8 v :: leBytes n (v / 256)

/-- Bits [hi:lo] of a number (R7). -/
def fieldN (v hi lo : Nat) : Nat := v / 2 ^ lo % 2 ^ (hi + 1 - lo)

/-- Bit `i` of a number. -/
def bitN (v i : Nat) : Bool := v.testBit i

/-- A Bool as a number. -/
def b2n (b : Bool) : Nat := if b then 1 else 0

/-- A Bool as one bit. -/
def b2v (b : Bool) : BitVec 1 := if b then 1 else 0

/-- `bytes` of a list from an offset. -/
def slice (l : List Byte) (ofs n : Nat) : List Byte := (l.drop ofs).take n

/-- The little-endian number in `n` bytes of a list from an offset. -/
def leAt (l : List Byte) (ofs n : Nat) : Nat := leNat (slice l ofs n)

/-- A count of `w` bits that stops at its largest value. -/
def satAdd {w : Nat} (v : BitVec w) (n : Nat) : BitVec w :=
  if v.toNat + n < 2 ^ w then BitVec.ofNat w (v.toNat + n) else BitVec.allOnes w

/-- A number cut to the largest value of `w` bits. -/
def satOf (w n : Nat) : BitVec w := if n < 2 ^ w then BitVec.ofNat w n else BitVec.allOnes w

/-- The positions of the ones of a mask, ascending. -/
def onesOf {w : Nat} (m : BitVec w) : List Nat := (List.range w).filter fun i => m.getLsbD i

/-- The number of ones of a mask. -/
def popcount {w : Nat} (m : BitVec w) : Nat := (onesOf m).length

/-- `ceil (a / b)`. -/
def ceilDiv (a b : Nat) : Nat := (a + b - 1) / b

/-- The integer nearest to a / b, ties to even (R85). -/
def rneDiv (a : Int) (b : Nat) : Int :=
  let q := a / (b : Int)
  let r := a % (b : Int)
  if 2 * r < (b : Int) then q else if 2 * r > (b : Int) then q + 1 else if q % 2 = 0 then q else q + 1

/-- rne (m × 2^e) (R85). -/
def rneScale (m : Int) (e : Int) : Int :=
  if 0 ≤ e then m * 2 ^ e.toNat else rneDiv m (2 ^ (-e).toNat)

/-- The least `p` with |m| < 2^p. -/
def bitLen (m : Nat) : Nat := if m = 0 then 0 else Nat.log2 m + 1

/-- `v` limited to [lo, hi]. -/
def clampI (lo hi v : Int) : Int := if v < lo then lo else if hi < v then hi else v

/-- Words set in a list at key `k` for a writer or other key with decidable equality; the default is `d`. -/
def assocGet {κ α : Type} [DecidableEq κ] (d : α) : List (κ × α) → κ → α
  | [], _ => d
  | (k', v) :: m, k => if k' = k then v else assocGet d m k

/-- The association list with `k` holding `v`. -/
def assocSet {κ α : Type} [DecidableEq κ] : List (κ × α) → κ → α → List (κ × α)
  | [], k, v => [(k, v)]
  | (k', v') :: m, k, v => if k' = k then (k, v) :: m else (k', v') :: assocSet m k v

/-- CRC-32C over bytes (R296, R305): the reflected Castagnoli polynomial, all ones first and at the end. -/
def crc32c (bytes : List Byte) : BitVec 32 :=
  let stepBit (c : BitVec 32) : BitVec 32 := if c.getLsbD 0 then (c >>> 1) ^^^ 0x82F63B78 else c >>> 1
  let stepByte (c : BitVec 32) (b : Byte) : BitVec 32 :=
    let c := c ^^^ b.setWidth 32
    stepBit (stepBit (stepBit (stepBit (stepBit (stepBit (stepBit (stepBit c)))))))
  ~~~ (bytes.foldl stepByte (BitVec.allOnes 32))

end Sys2Proof.Machine
end

