-- ==== Sys2Proof/Syntax.lean ====
section
/-! DEFINITION. The commands of the block: one constructor of `Instr` for each row of the opcode table, with
the operands the rules give it. The micro-op rows carry the fields of R140 to R159, the reserved ones included. -/

namespace Sys2Proof

/-- The tags every micro-op carries (R136, R138). -/
structure Ids where
  layer : BitVec 16
  opid  : BitVec 16
  deriving DecidableEq, Repr

/-- LOOP in setn mode (R158). -/
structure LoopSetnF where
  n : BitVec 2
  value : BitVec 20
  rsvd : BitVec 64
  deriving DecidableEq, Repr

/-- LOOP in setq mode (R158). -/
structure LoopSetqF where
  q : BitVec 3
  rsvd : BitVec 19
  value : BitVec 64
  deriving DecidableEq, Repr

/-- LOOP in branch mode (R158). -/
structure LoopBranchF where
  n : BitVec 2
  rsvd1 : BitVec 8
  target : BitVec 12
  rsvd0 : BitVec 64
  deriving DecidableEq, Repr

/-- LOOP in jump mode (R158). -/
structure LoopJumpF where
  rsvd1 : BitVec 10
  target : BitVec 12
  rsvd0 : BitVec 64
  deriving DecidableEq, Repr

/-- WAITC in count mode (R159). -/
structure WaitcCountF where
  count : BitVec 20
  rsvd : BitVec 66
  deriving DecidableEq, Repr

/-- WAITC in done mode (R159). -/
structure WaitcDoneF where
  cnt : BitVec 2
  k : BitVec 8
  rsvd : BitVec 76
  deriving DecidableEq, Repr

/-- MACP (R140). -/
structure MacpF where
  macros : BitVec 16
  half : BitVec 1
  rgmask : BitVec 4
  bm1 : BitVec 3
  asgn : BitVec 1
  mode : BitVec 1
  grp : BitVec 2
  sk : BitVec 2
  partner : BitVec 4
  rsvd : BitVec 54
  deriving DecidableEq, Repr

/-- LDW (R142). -/
structure LdwF where
  macros : BitVec 16
  src : BitVec 1
  rgmask : BitVec 4
  pm1 : BitVec 3
  wsgn : BitVec 1
  chkgen : BitVec 1
  fin : BitVec 1
  qsrc : BitVec 3
  inc : BitVec 1
  cnt : BitVec 2
  rsvd : BitVec 55
  deriving DecidableEq, Repr

/-- SWAP (R143). -/
structure SwapF where
  macros : BitVec 16
  rsvd : BitVec 72
  deriving DecidableEq, Repr

/-- ACLR, and the fields that APRE shares with it (R144). -/
structure AclrF where
  macros : BitVec 16
  slot : BitVec 3
  amode : BitVec 2
  obase : BitVec 3
  ostep : BitVec 2
  oper : BitVec 3
  rsvd : BitVec 59
  deriving DecidableEq, Repr

/-- APRE (R144). -/
structure ApreF where
  macros : BitVec 16
  slot : BitVec 3
  amode : BitVec 2
  obase : BitVec 3
  ostep : BitVec 2
  oper : BitVec 3
  fmt : BitVec 4
  psh : BitVec 6
  qsrc : BitVec 3
  inc : BitVec 1
  nm1 : BitVec 7
  rsvd : BitVec 38
  deriving DecidableEq, Repr

/-- ADRN (R146). -/
structure AdrnF where
  slot : BitVec 3
  pset : BitVec 2
  qdst : BitVec 3
  inc : BitVec 1
  nm1 : BitVec 7
  cbase : BitVec 12
  rsvd : BitVec 60
  deriving DecidableEq, Repr

/-- PRESCAN (R147). -/
structure PrescanF where
  slot : BitVec 3
  qsrc : BitVec 3
  inc : BitVec 1
  nbm1 : BitVec 16
  rsvd : BitVec 65
  deriving DecidableEq, Repr

/-- PPU (R148). -/
structure PpuF where
  fmt : BitVec 4
  func : BitVec 2
  pset : BitVec 2
  zp : BitVec 16
  qmin : BitVec 16
  qmax : BitVec 16
  qscale : BitVec 3
  qpar : BitVec 3
  rsvd : BitVec 26
  deriving DecidableEq, Repr

/-- STAT in open or close mode (R149). -/
structure StatF where
  q : BitVec 3
  inc : BitVec 1
  c0 : BitVec 12
  nm1 : BitVec 7
  rsvd : BitVec 64
  deriving DecidableEq, Repr

/-- OUTP in pass mode (R150). -/
structure OutpPassF where
  macros : BitVec 16
  half : BitVec 1
  rgmask : BitVec 4
  bm1 : BitVec 3
  asgn : BitVec 1
  rsvd : BitVec 62
  deriving DecidableEq, Repr

/-- OUTP in load mode (R150). -/
structure OutpLoadF where
  macros : BitVec 16
  qsrc : BitVec 3
  inc : BitVec 1
  rsvd : BitVec 67
  deriving DecidableEq, Repr

/-- MOVE, without DKIND, which the constructor gives (R151). -/
structure MoveF where
  qsrc : BitVec 3
  sinc : BitVec 1
  qdst : BitVec 3
  dinc : BitVec 1
  dsel : BitVec 1
  dmacros : BitVec 16
  cw : BitVec 3
  lm1 : BitVec 16
  rsvd : BitVec 42
  deriving DecidableEq, Repr

/-- RPUT (R152). -/
structure RputF where
  qsrc : BitVec 3
  sinc : BitVec 1
  cred : BitVec 5
  dofs : BitVec 20
  lm1 : BitVec 16
  urg : BitVec 1
  cnt : BitVec 2
  rsvd : BitVec 40
  deriving DecidableEq, Repr

/-- DMAH, without DIR, which the constructor gives (R153). -/
structure DmahF where
  qhbm : BitVec 3
  hinc : BitVec 1
  qsp : BitVec 3
  sinc : BitVec 1
  l32m1 : BitVec 15
  cnt : BitVec 2
  rsvd : BitVec 62
  deriving DecidableEq, Repr

/-- RDV, without ACT, which the constructor gives (R154). -/
structure RdvF where
  rid : BitVec 10
  grant : BitVec 1
  rsvd : BitVec 75
  deriving DecidableEq, Repr

/-- GATE (R155). -/
structure GateF where
  start : BitVec 12
  rsvd : BitVec 76
  deriving DecidableEq, Repr

/-- HINT (R156). -/
structure HintF where
  level : BitVec 4
  dist : BitVec 20
  plen : BitVec 12
  rsvd : BitVec 52
  deriving DecidableEq, Repr

/-- TWIN (R157). -/
structure TwinF where
  macros : BitVec 16
  spbanks : BitVec 4
  wlen : BitVec 20
  rsvd : BitVec 48
  deriving DecidableEq, Repr

/-- A physical fault that a pass meets: what it adds to one data partial of an output, to one slice partial
and to the checksum partial of a macro (R112, R113). A pass that meets none carries an empty list. -/
structure Upset where
  mac : MacroId
  out : Nat
  rowGroup : Fin 4
  data : Int
  slice : Int
  check : Int
  deriving DecidableEq, Repr

/-- Who sends a dictionary or window request (R330). -/
inductive Writer where
  | coe
  | pdo
  | host (p : PartId) (slot : HostSlot)
  | firmware
  deriving DecidableEq, Repr

/-- An area with its own staging sets and commit object (R330). -/
inductive AreaId where
  | device
  | view (p : PartId)
  deriving DecidableEq, Repr

/-- How a message reached the device: over the fabric from a device, in the urgent class or not, or over the transport
(R254, R297, R305). -/
inductive Via where
  | fabric (dev : BitVec 8) (urgent : Bool)
  | transport (p : PartId) (slot : HostSlot) (seq : BitVec 32)
  deriving DecidableEq, Repr

/-- A put segment header (R254). -/
structure PutHdr where
  window : BitVec 24
  epoch : BitVec 32
  wofs : BitVec 20
  wlm1 : BitVec 16
  grant : BitVec 16
  host : Bool
  writer : BitVec 24
  tag : BitVec 16
  sofs : BitVec 32
  slm1 : BitVec 16
  first : Bool
  last : Bool
  rsvd : BitVec 57
  deriving DecidableEq, Repr

/-- A grant (R254). -/
structure GrantMsg where
  window : BitVec 24
  epoch : BitVec 32
  frame : BitVec 32
  lo : BitVec 20
  hi : BitVec 20
  grant : BitVec 16
  entry : BitVec 5
  rsvd : BitVec 107
  deriving DecidableEq, Repr

/-- A read request (R254). -/
structure ReadReq where
  window : BitVec 24
  offset : BitVec 20
  lm1 : BitVec 16
  tag : BitVec 16
  rsvd : BitVec 52
  deriving DecidableEq, Repr

/-- The header of a read data segment (R254). -/
structure ReadSeg where
  window : BitVec 24
  frame : BitVec 32
  tag : BitVec 16
  sofs : BitVec 32
  slm1 : BitVec 8
  last : Bool
  rsvd : BitVec 15
  deriving DecidableEq, Repr

/-- A gate ready (R313). -/
structure ReadyMsg where
  frame : BitVec 32
  group : GroupId
  data : Bool
  withdraw : Bool
  deriving DecidableEq, Repr

/-- A gate fire (R313). -/
structure FireMsg where
  frame : BitVec 32
  group : GroupId
  source : BitVec 2
  missed : BitVec 16
  lead : BitVec 32
  corr : BitVec 32
  tf : Stamp
  deriving DecidableEq, Repr

/-- A device arrival or cancel arrival (R313). -/
structure ArrivalMsg where
  frame : BitVec 32
  rid : BitVec 10
  group : GroupId
  deriving DecidableEq, Repr

/-- An alert message (R453). -/
structure AlertMsg where
  frame : BitVec 32
  src : BitVec 24
  layer : BitVec 16
  opid : BitVec 16
  channel : BitVec 12
  kind : BitVec 3
  precommit : Bool
  part : BitVec 3
  ts : Stamp
  deriving DecidableEq, Repr

/-- A topology announcement (R302): sequence, device, groups, and for each port the partner and LENGTH. -/
structure Announcement where
  seq : BitVec 32
  dev : BitVec 8
  groups : BitVec 64
  partners : List (PortId × BitVec 8 × BitVec 16)
  deriving DecidableEq, Repr

/-- A Slack stop message (R315). -/
structure StopMsg where
  stopid : BitVec 32
  origin : BitVec 8
  target : Stamp
  deriving DecidableEq, Repr

/-- A time-stamp beacon (R316). -/
structure Beacon where
  echoTx : Stamp
  echoRx : Stamp
  portid : BitVec 8
  deriving DecidableEq, Repr

/-- A capability record (R288). -/
structure CapRec where
  fabver : BitVec 16
  portid : BitVec 4
  lanes : BitVec 4
  spareOk : Bool
  srcnum : BitVec 24
  groups : BitVec 64
  txpwr : BitVec 8
  rxloss : BitVec 8
  rsvd : BitVec 384
  deriving DecidableEq, Repr

/-- What reaches an optical engine from outside: whether its hold-up store is charged, whether each laser input is within
3 dB of the recorded power, and whether each input's module reports itself present and fault-free (R278, R279, R281). -/
structure EngineIn where
  holdup : Bool
  l0Ok : Bool
  l1Ok : Bool
  mod0 : Bool
  mod1 : Bool
  deriving DecidableEq, Repr

/-- What a port measures while it trains (R285 to R288): the stage that runs out of time (0 for none), whether
it is a fast retrain, the 9 lanes in ascending order of error ratio, the round-trip time, its own worst-lane launch power, its
received power, and the engine's inputs. -/
structure Training where
  failed : Fin 8
  fast : Bool
  lanesBest : List (Fin 9)
  rtt : BitVec 16
  txpwr : BitVec 8
  rxpwr : BitVec 8
  inputs : EngineIn
  deriving DecidableEq, Repr

/-- The data of a dictionary read-list item (R345). -/
structure ListItem where
  index : BitVec 16
  sub : BitVec 8
  rsvd : BitVec 8
  deriving DecidableEq, Repr

/-- The five EtherCAT states (R337). -/
inductive EcatState where
  | init | preop | safeop | op | boot
  deriving DecidableEq, Repr

/-- An event at which process data are handled (R338): SYNC0, SYNC1, sync manager 2, or 1 ms without one. -/
inductive SyncEvent where
  | sync0 | sync1 | sm2 | timer
  deriving DecidableEq, Repr

/-- An event of the process data and the RxPDO that is there (R338, R346). -/
structure PdoEvent where
  event : SyncEvent
  data : List Byte
  deriving DecidableEq, Repr

/-- An access of a guest: its address in the guest's translation, and whether it writes (R321). -/
structure GuestAccess where
  addr : HbmAddr
  write : Bool
  deriving DecidableEq, Repr

/-- A file of the FoE table (R339). -/
inductive FoeFile where
  | image (p : PartId)
  | admission (p : PartId)
  | firmware
  | unknown
  deriving DecidableEq, Repr

/-- Monitors and measurements that management core 1 has at a 1 ms tick (R373, R375, R390): per cluster the
energy of the two band supplies in mJ; the energy of queues 2 to 7 in mJ and, per queue, the measured use of
each partition and of no partition; per partition and die the 1 ms mean of the array and of the logic supply in
mW; the mean of every other rail in mW. -/
structure PowerIn where
  sram : List Nat
  logic : List Nat
  queue : List Nat
  use : List (List Nat)
  unowned : List Nat
  arrMw : List (Nat × Nat)
  logMw : List (Nat × Nat)
  otherMw : Nat
  deriving DecidableEq, Repr

/-- One finding of the memory self-test (R430). -/
inductive MemFinding where
  | columns (t : TileId) (mac : Fin 17) (bank : Fin 2) (cols : List (BitVec 8))
  | oneMacro (t : TileId) (mac : Fin 17)
  | tile (t : TileId)
  | cluster (c : ClusterId)
  | core (n : Fin 16)
  | replayBuffer (e : EngineId)
  | headland
  | hbm
  deriving DecidableEq, Repr

/-- What a start meets (R420): at step 1 whether REFCLK is OK, the tamper sources that report, and what every valid sensor
reads in 0.1 °C; the firmware slots that verify, the copies of the field repair map whose HMAC verifies, the signatures that a
power-on logic self-test compacts, whether the PLLs lock and the stacks identify, the memory self-test's findings, the laser
inputs that are OK, the modules that report themselves present and fault-free, the hold-up stores that are charged, the form each
Ethernet port is set to (R293: one link, two, eight), and the flashes that SFDP shows to have an 8D-8D-8D mode (R500). -/
structure StartIn where
  refOk : Bool
  tampers : BitVec 5
  temps : List Int
  slotAOk : Bool
  slotBOk : Bool
  mapOk : BitVec 2
  signatures : List (BitVec 64)
  plls : Bool
  stacksOk : Bool
  findings : List MemFinding
  lasersOk : BitVec 16
  modulesOk : BitVec 16
  holdup : BitVec 8
  forms : List (Fin 3)
  octal : BitVec 2
  deriving DecidableEq, Repr

/-- The factory layer of the repair map (R22 to R24, R27): retired macros by tile, retired tiles and unserved tiles by
cluster, steering words by 32 times the tile, twice the macro and the bank, and spare cores by logical core. -/
structure Factory where
  macros : Store (BitVec 5) := []
  tiles : Store (BitVec 5) := []
  unserved : Store (BitVec 16) := []
  steer : Store (BitVec 32) := []
  cores : Store Nat := []
  deriving DecidableEq, Repr

/-- A write of an OTP field, or the making of identity keys, in MANUFACTURE (R395, R396, R408, R409). -/
inductive OtpWrite where
  | rootSecret
  | vendorKeys (rsa slh : BitVec 384)
  | factory (f : Factory)
  | lockMap
  | serial (n : BitVec 32)
  | mac (p : PortId) (a : BitVec 48)
  | hwVersion (b : List Byte)
  | identityKeys
  | endorsement (b : List Byte)
  deriving DecidableEq, Repr

/-- What an access on the TAP pins reaches (R394, R408): boundary scan, an IEEE 1687 network, and through the networks in
MANUFACTURE a write of OTP or a hard post-package repair of a row of HBM. -/
inductive JtagNet where
  | boundary
  | network
  | otp (x : OtpWrite)
  | hardRepair (row : List HbmAddr)
  deriving DecidableEq, Repr

/-- An entry of a control core's trace: a taken branch, a trap entry or a trap return, the instructions retired since the
previous entry, and the target (R469). -/
structure TraceEntry where
  kind : Fin 3
  icount : Nat
  target : BitVec 40
  deriving DecidableEq, Repr

/-- What the control core of a cluster has retired since the last sample: where it stands, and its entries (R469). -/
structure CoreTrace where
  cluster : ClusterId
  pc : BitVec 40
  entries : List TraceEntry
  deriving DecidableEq, Repr

/-- What a counter sample meets: whether a frame's end takes it, the hub fabric bytes and the busy time of the partition, and the traces of
the control cores (R468, R469). -/
structure SampleIn where
  frameEnd : Bool
  hubBytes : BitVec 64
  busyNs : BitVec 64
  traces : List CoreTrace
  deriving DecidableEq, Repr

/-- Whose access an HBM controller replays, within the cluster or Headland that its REQ names: an asynchronous micro-op of a
tile, by its key, or another consumer (R274). -/
inductive HbmUser where
  | op (t : TileId) (key : Nat)
  | other (n : Nat)
  deriving DecidableEq, Repr

/-- Who asked for an HBM access: its REQ (R273) and its user. -/
structure HbmReq where
  req : BitVec 7
  user : HbmUser
  deriving DecidableEq, Repr

/-- Which reads of a replayed access the ECC could not correct: the one that the replay repeats, and the replay's own, which is
reported where it was the last (R272). -/
structure EccVerdict where
  first : Bool
  last : Bool
  deriving DecidableEq, Repr

/-- The end of a DMAH: the counter it was issued with, and whether the merge read of a write that covers only some bytes of a
word meets a parity error (R130, R231). -/
structure DmahEnd where
  cnt : Fin 4
  mergeParityErr : Bool
  deriving DecidableEq, Repr

/-- A tile's wait at a point, and how many ac it has lasted (R176). -/
structure PointWait where
  tile : TileId
  waited : Nat
  deriving DecidableEq, Repr

/-- A tile's word that fails its parity: the instruction word being fetched, or the scratchpad word named (R126). -/
structure ParityAt where
  tile : TileId
  word : Option Nat
  deriving DecidableEq, Repr

/-- An optical engine, and what reaches it from outside. -/
structure EngineAt where
  engine : EngineId
  inputs : EngineIn
  deriving DecidableEq, Repr

/-- The end of a droop stretch on a die, and the root periods by which it has lengthened the die's cycles (R359). -/
structure StretchEnd where
  die : DieId
  periods : Nat
  deriving DecidableEq, Repr

/-- How a UDP datagram was addressed, and what its network layer found: whether the UDP checksum is right, and whether it came
whole and without an extension header (R304). -/
structure UdpHead where
  dst : BitVec 128
  dstPort : BitVec 16
  sumOk : Bool
  plain : Bool
  deriving DecidableEq, Repr

/-- A register that firmware reads or writes over a control core or the Headland. -/
inductive Reg where
  | seqStatus (t : TileId)
  | idWord (t : TileId)
  | cycleWord (t : TileId)
  | deviationWord (t : TileId)
  | deviationCount (t : TileId)
  | addressReg (t : TileId) (i : Fin 8)
  | loopReg (t : TileId) (i : Fin 4)
  | counterReg (t : TileId) (i : Fin 4)
  | bankStatus (t : TileId) (m : MacroId)
  | bankLayer (t : TileId) (m : MacroId)
  | bankSteer (t : TileId) (m : MacroId) (phys : Fin 2)
  | mapWord (t : TileId) (i : Fin 4)
  | slotStatus (t : TileId) (a : AccSlot)
  | slotExponent (t : TileId) (a : AccSlot)
  | numericStatus (t : TileId)
  | checkStatus (t : TileId)
  | tileRepair (t : TileId)
  | clusterRepair (c : ClusterId)
  | handleEntry (t : TileId) (h : HandleId)
  | windowStatus (t : TileId) (h : HandleId)
  | creditEntry (t : TileId) (e : Fin 32) (next : Bool)
  | creditStatus (t : TileId)
  | verifyControl (t : TileId)
  | verifySource (t : TileId)
  | verifyResult (t : TileId)
  | verifyDiff (t : TileId) (i : Fin 5)
  | weightParity (t : TileId)
  | tidewalkStatus (t : TileId)
  | clusterCounter (c : ClusterId) (i : Fin 16)
  | hbmStatus (k : CtrlId)
  | hbmAddress (k : CtrlId)
  | portStatus (p : PortId)
  | portMeasure (p : PortId)
  | engineStatus (e : EngineId)
  | engineControl (e : EngineId)
  | fabricError (e : EngineId)
  | groupStatus (g : GroupId)
  | groupFrame (g : GroupId)
  | partStatus (p : PartId)
  | partFault (p : PartId)
  | partClock (p : PartId)
  | partPower (p : PartId)
  | energyQueue (p : PartId) (i : Fin 8)
  | energyResidual (i : Fin 8)
  | rootClock
  | dieClock (d : DieId)
  | domainMap
  | bandWord (b : BandId)
  | powerStatus
  | thermalStatus (i : Fin 3)
  | islandStatus
  | startStatus
  | alertStatus
  | strandPointer (p : PartId)
  | strandStatus (p : PartId)
  | slackStatus
  deriving DecidableEq, Repr

/-- The commands, in the order of the opcode table. -/
inductive Instr where
  | nop (t : TileId) (id : Ids) (rsvd : BitVec 88)
  | loopSetn (t : TileId) (id : Ids) (f : LoopSetnF)
  | loopSetq (t : TileId) (id : Ids) (f : LoopSetqF)
  | loopBranch (t : TileId) (id : Ids) (f : LoopBranchF)
  | loopJump (t : TileId) (id : Ids) (f : LoopJumpF)
  | waitcCount (t : TileId) (id : Ids) (f : WaitcCountF)
  | waitcDone (t : TileId) (id : Ids) (f : WaitcDoneF)
  | waitcDoneRelease (t : TileId) (waited : Nat)
  | macp (t : TileId) (id : Ids) (f : MacpF)
  | passPresentation (t : TileId) (upsets : List Upset)
  | replayPresentation (t : TileId) (upsets : List Upset)
  | groupSumLanding (t : TileId) (a : AccSlot)
  | ldw (t : TileId) (id : Ids) (f : LdwF)
  | ldwHbmDone (t : TileId) (cnt : Fin 4)
  | swap (t : TileId) (id : Ids) (f : SwapF)
  | aclr (t : TileId) (id : Ids) (f : AclrF)
  | apre (t : TileId) (id : Ids) (f : ApreF)
  | adrn (t : TileId) (id : Ids) (f : AdrnF)
  | prescan (t : TileId) (id : Ids) (f : PrescanF)
  | ppu (t : TileId) (id : Ids) (f : PpuF)
  | statOpen (t : TileId) (id : Ids) (f : StatF)
  | statClose (t : TileId) (id : Ids) (f : StatF)
  | outpPass (t : TileId) (id : Ids) (f : OutpPassF) (parityErr : List (MacroId × Nat))
  | enginePartialsPresent (t : TileId) (m : MacroId)
  | outpLoad (t : TileId) (id : Ids) (f : OutpLoadF)
  | moveToScratchpad (t : TileId) (id : Ids) (f : MoveF)
  | moveToStaging (t : TileId) (id : Ids) (f : MoveF)
  | moveToInstructionPage (t : TileId) (id : Ids) (f : MoveF)
  | rput (t : TileId) (id : Ids) (f : RputF)
  | rputCreditPresent (t : TileId) (waited : Nat)
  | dmahToScratchpad (t : TileId) (id : Ids) (f : DmahF)
  | dmahToHbm (t : TileId) (id : Ids) (f : DmahF)
  | dmahDone (t : TileId) (x : DmahEnd)
  | rdvArrive (t : TileId) (id : Ids) (f : RdvF)
  | rdvWait (t : TileId) (id : Ids) (f : RdvF)
  | rdvArriveWait (t : TileId) (id : Ids) (f : RdvF)
  | rdvWaitRelease (t : TileId) (waited : Nat)
  | rdvOverBudget (x : PointWait)
  | gate (t : TileId) (id : Ids) (f : GateF)
  | tileDoneReport (t : TileId) (waited : Nat)
  | hint (t : TileId) (id : Ids) (f : HintF)
  | twin (t : TileId) (id : Ids) (f : TwinF)
  | fetchParityReplay (x : ParityAt)
  | parityReplayEnd (t : TileId) (good : Bool)
  | frameStart (p : PartId)
  | tileFirstIssue (c : ClusterId)
  | softStartEnd (t : TileId)
  | putSegmentReceive (via : Via) (h : PutHdr) (data : List Byte) (mergeParityErr : Bool)
  | putWriteLanded (window : BitVec 24) (via : Via) (tag : BitVec 16)
  | ackReceive (window : BitVec 24) (epoch : BitVec 32) (tag : BitVec 16)
  | nackReceive (window : BitVec 24) (epoch : BitVec 32) (tag : BitVec 16) (reason : BitVec 8) (detail : BitVec 32)
  | grantReceive (t : TileId) (g : GrantMsg)
  | creditRequest (p : PartId) (slot : HostSlot) (seq : BitVec 32) (window : BitVec 24) (paySlot : BitVec 4)
  | readRequest (via : Via) (r : ReadReq) (parityErr : Bool) (toggledAfter : Option Nat)
  | readDataSegmentReceive (r : ReadSeg) (data : List Byte)
  | advanceComplete (window : BitVec 24)
  | advanceTimeout (window : BitVec 24)
  | fabricResponseTimeout (tag : BitVec 16)
  | dmaSubbankWait (t : TileId) (bank : SpBank)
  | dualPortBusyRetry (t : TileId)
  | dmaReadParityRetry (t : TileId) (good : Bool)
  | bankSleep (t : TileId) (b : SpBank)
  | bankWake (t : TileId) (b : SpBank) (sequencer : Bool)
  | bankWakeDone (t : TileId) (b : SpBank)
  | tidewalkStep (t : TileId) (parityErr : List Nat) (marchFail : Option Nat)
  | hbmReadReplay (a : HbmAddr) (r : HbmReq) (good : Bool) (ecc : EccVerdict)
  | hbmWriteReplay (a : HbmAddr) (r : HbmReq) (good : Bool)
  | hbmHardErrorRepair (a : HbmAddr) (rereads : List Bool) (spareRow : Bool) (rowBytes : List HbmAddr)
  | verifyStart (t : TileId) (w : Word)
  | verifyRun (t : TileId)
  | verifyEnd (t : TileId) (parityRows : List (Nat × Nat)) (diffCols : List (Nat × Nat))
  | periodicVerify (p : PartId)
  | weightRepair (t : TileId) (m : MacroId) (cols0 : List (BitVec 8)) (cols1 : List (BitVec 8)) (localised : Bool)
  | imageLoad (p : PartId)
  | admissionStage8Resume (p : PartId)
  | admissionLoad (p : PartId)
  | variantRefill (p : PartId) (cls : BitVec 2)
  | enrolment (p : PartId)
  | lifeCycleTransition (p : PartId)
  | debugUnlock (p : PartId)
  | attestationRequest (p : PartId)
  | frameOverrun (p : PartId)
  | cancelArrivalReceive (src : BitVec 8) (m : ArrivalMsg)
  | deviceArrivalReceive (src : BitVec 8) (m : ArrivalMsg)
  | frameAbortReport (p : PartId) (elapsed : BitVec 32)
  | frameCommit (p : PartId) (td : Stamp)
  | frameBoundary (p : PartId)
  | gateReadySend (g : GroupId)
  | gateReadyRepeat (g : GroupId)
  | gateReadyReceive (src : BitVec 8) (m : ReadyMsg)
  | gateSourceEvent (g : GroupId) (source : BitVec 2) (tf : Stamp)
  | gateFireReceive (src : BitVec 8) (m : FireMsg) (trx : Stamp)
  | topologyAnnounce
  | topologyAnnouncementReceive (e : EngineId) (a : Announcement)
  | fabricFrameReceive (p : PortId) (frame : List Byte) (trx : Stamp)
  | transportDatagramReceive (link : Nat) (addr : BitVec 128) (port : BitVec 16) (bytes : List Byte) (u : UdpHead)
  | laneSwap (p : PortId) (lane : Fin 8)
  | laserFailover (x : EngineAt)
  | linkTraining (p : PortId) (m : Training)
  | trainingStageTimeout (p : PortId)
  | capabilityRecordReceive (p : PortId) (r : CapRec)
  | bypassMove (x : EngineAt) (cause : BitVec 8)
  | throughMove (x : EngineAt)
  | switchMoveDone (e : EngineId)
  | beaconSend (p : PortId)
  | beaconReceive (p : PortId) (b : Beacon) (ts : Stamp) (trx : Stamp)
  | alertLeavesCluster (c : ClusterId)
  | alertMessageReceive (group : GroupId) (m : AlertMsg)
  | alertPulseEnd
  | partitionFatal (p : PartId) (detail : BitVec 8) (src : BitVec 24)
  | deviceFatal (detail : BitVec 8) (src : BitVec 24)
  | dumpRelease (p : PartId)
  | partitionReset (p : PartId)
  | guestUnanswered (p : PartId)
  | guestPageFault (p : PartId) (x : GuestAccess)
  | frameWatchdog (p : PartId)
  | sdoWrite (w : Writer) (index : BitVec 16) (sub : BitVec 8) (complete : Bool) (data : List Byte)
  | sdoRead (w : Writer) (index : BitVec 16) (sub : BitVec 8) (complete : Bool)
  | readList (p : PartId) (slot : HostSlot) (seq : BitVec 32) (items : List ListItem)
  | sdoInformation (index : BitVec 16) (sub : BitVec 8) (what : Fin 3)
  | commit (w : Writer) (a : AreaId)
  | rearm (w : Writer) (p : PartId)
  | deviceCommitApply
  | layoutChange (p : PartId)
  | rxpdoTake (x : PdoEvent)
  | txpdoFill
  | pdoMappingWrite (index : BitVec 16) (sub : BitVec 8) (value : BitVec 32)
  | smWatchdogExpiry
  | ecatStateTransition (target : EcatState) (dc : Option (BitVec 32))
  | foeWrite (file : FoeFile) (password : BitVec 32) (offset : Nat) (data : List Byte) (last : Bool)
  | foeRead (file : FoeFile) (password : BitVec 32) (offset : Nat) (len : Nat)
  | firmwareSlotCheck
  | firmwareTrialGood
  | powerControlTick (m : PowerIn)
  | pmbusSample (readings : List (Option Nat))
  | pmbAlert (status : List (BitVec 16))
  | stepAssert (d : DieId)
  | droopEvent (d : DieId) (lastResort : Bool)
  | droopEventEnd (x : StretchEnd)
  | thermalSample (sensors : List (List (Option Int)))
  | thermalTrip (i : Fin 3)
  | pllLockLoss (which : Fin 3)
  | refclkLoss (ppm : Int)
  | bandSwitchOff (b : BandId)
  | bandDrainTimeout (b : BandId)
  | bandRetEntry (b : BandId)
  | bandSwitchOn (b : BandId) (findings : List MemFinding)
  | bandRetExit (b : BandId)
  | tamper (source : Fin 5)
  | powerOnReset
  | warmReset
  | watchdogRestart
  | watchdogExpiry
  | startSequence (m : StartIn)
  | shutdown (ns : Nat) (signatures : List (BitVec 64))
  | operatingTimeWrite
  | counterSample (p : PartId) (m : SampleIn)
  | traceBatchClose (p : PartId)
  | traceBatchReceive (dev : BitVec 8) (group : GroupId) (batch : List Byte)
  | rdptrWrite (p : PartId) (value : BitVec 28)
  | capheldRelease (p : PartId)
  | slackTrigger (p : PartId) (trigger : Fin 7)
  | slackNInput
  | slackStopMessageReceive (m : StopMsg) (trx : Stamp)
  | slackStop (stopA : Stamp) (stopB : Stamp) (late : Bool)
  | slackScanOut (complete : Bool)
  | rcRegisterRead (r : Reg) (hwCounts : Nat)
  | registerWrite (r : Reg) (value : BitVec 64) (hwSets : BitVec 64)
  | tidewalkStepEnd (t : TileId) (frozenAc : Nat)
  | guestBootComplete (p : PartId) (good : Bool)
  | refclkRecovery (ppm : Int)
  | frameOutPulseEnd
  | slackNPulseEnd
  | slackStopMessageTimeout
  | icmpv6Receive (link : Nat) (src : BitVec 128) (mac : BitVec 48) (solicit : Option (BitVec 128)) (echo : Bool)
  | jtagAccess (net : JtagNet) (data : BitVec 64)
  deriving DecidableEq, Repr

end Sys2Proof
end

