-- ==== Sys2Proof/Decode.lean ====
section
/-! DEFINITION. The 128-bit encodings of the micro-ops (R136 to R159), the refusals that one micro-op meets on its
own fields (R511, R509, R11), and the command a table word spells: the opcode table gives no row any bits. -/

namespace Sys2Proof

open Machine (fieldN)

/-- LAYER, OPID, OPCODE and operands (R136). -/
def uopWord (id : Ids) (op : BitVec 8) (x : BitVec 88) : BitVec 128 := id.layer ++ id.opid ++ op ++ x

/-- LOOP setn (R158). -/
def loopSetnBits (f : LoopSetnF) : BitVec 88 := (0#2) ++ f.n ++ f.value ++ f.rsvd

/-- LOOP setq (R158). -/
def loopSetqBits (f : LoopSetqF) : BitVec 88 := (1#2) ++ f.q ++ f.rsvd ++ f.value

/-- LOOP branch (R158). -/
def loopBranchBits (f : LoopBranchF) : BitVec 88 := (2#2) ++ f.n ++ f.rsvd1 ++ f.target ++ f.rsvd0

/-- LOOP jump (R158). -/
def loopJumpBits (f : LoopJumpF) : BitVec 88 := (3#2) ++ f.rsvd1 ++ f.target ++ f.rsvd0

/-- WAITC count (R159). -/
def waitcCountBits (f : WaitcCountF) : BitVec 88 := (0#2) ++ f.count ++ f.rsvd

/-- WAITC done (R159). -/
def waitcDoneBits (f : WaitcDoneF) : BitVec 88 := (1#2) ++ f.cnt ++ f.k ++ f.rsvd

/-- MACP (R140). -/
def macpBits (f : MacpF) : BitVec 88 :=
  f.macros ++ f.half ++ f.rgmask ++ f.bm1 ++ f.asgn ++ f.mode ++ f.grp ++ f.sk ++ f.partner ++ f.rsvd

/-- LDW (R142). -/
def ldwBits (f : LdwF) : BitVec 88 :=
  f.macros ++ f.src ++ f.rgmask ++ f.pm1 ++ f.wsgn ++ f.chkgen ++ f.fin ++ f.qsrc ++ f.inc ++ f.cnt ++ f.rsvd

/-- SWAP (R143). -/
def swapBits (f : SwapF) : BitVec 88 := f.macros ++ f.rsvd

/-- ACLR (R144). -/
def aclrBits (f : AclrF) : BitVec 88 :=
  f.macros ++ f.slot ++ f.amode ++ f.obase ++ f.ostep ++ f.oper ++ f.rsvd

/-- APRE (R144). -/
def apreBits (f : ApreF) : BitVec 88 :=
  f.macros ++ f.slot ++ f.amode ++ f.obase ++ f.ostep ++ f.oper ++ f.fmt ++ f.psh ++ f.qsrc ++ f.inc ++ f.nm1 ++
    f.rsvd

/-- ADRN (R146). -/
def adrnBits (f : AdrnF) : BitVec 88 := f.slot ++ f.pset ++ f.qdst ++ f.inc ++ f.nm1 ++ f.cbase ++ f.rsvd

/-- PRESCAN (R147). -/
def prescanBits (f : PrescanF) : BitVec 88 := f.slot ++ f.qsrc ++ f.inc ++ f.nbm1 ++ f.rsvd

/-- PPU (R148). -/
def ppuBits (f : PpuF) : BitVec 88 :=
  f.fmt ++ f.func ++ f.pset ++ f.zp ++ f.qmin ++ f.qmax ++ f.qscale ++ f.qpar ++ f.rsvd

/-- STAT open and close (R149): SMODE leads. -/
def statBits (close : BitVec 1) (f : StatF) : BitVec 88 := close ++ f.q ++ f.inc ++ f.c0 ++ f.nm1 ++ f.rsvd

/-- OUTP pass (R150). -/
def outpPassBits (f : OutpPassF) : BitVec 88 :=
  f.macros ++ (0#1) ++ f.half ++ f.rgmask ++ f.bm1 ++ f.asgn ++ f.rsvd

/-- OUTP load (R150). -/
def outpLoadBits (f : OutpLoadF) : BitVec 88 := f.macros ++ (1#1) ++ f.qsrc ++ f.inc ++ f.rsvd

/-- MOVE (R151): DKIND is given by the row. -/
def moveBits (dkind : BitVec 2) (f : MoveF) : BitVec 88 :=
  f.qsrc ++ f.sinc ++ dkind ++ f.qdst ++ f.dinc ++ f.dsel ++ f.dmacros ++ f.cw ++ f.lm1 ++ f.rsvd

/-- RPUT (R152). -/
def rputBits (f : RputF) : BitVec 88 :=
  f.qsrc ++ f.sinc ++ f.cred ++ f.dofs ++ f.lm1 ++ f.urg ++ f.cnt ++ f.rsvd

/-- DMAH (R153): DIR is given by the row. -/
def dmahBits (dir : BitVec 1) (f : DmahF) : BitVec 88 :=
  dir ++ f.qhbm ++ f.hinc ++ f.qsp ++ f.sinc ++ f.l32m1 ++ f.cnt ++ f.rsvd

/-- RDV (R154): ACT is given by the row. -/
def rdvBits (act : BitVec 2) (f : RdvF) : BitVec 88 := act ++ f.rid ++ f.grant ++ f.rsvd

/-- GATE (R155). -/
def gateBits (f : GateF) : BitVec 88 := f.start ++ f.rsvd

/-- HINT (R156). -/
def hintBits (f : HintF) : BitVec 88 := f.level ++ f.dist ++ f.plen ++ f.rsvd

/-- TWIN (R157). -/
def twinBits (f : TwinF) : BitVec 88 := f.macros ++ f.spbanks ++ f.wlen ++ f.rsvd

/-- The stored word of a micro-op row; none for the rows that are no micro-ops. -/
def encode (i : Instr) : Option (BitVec 128) :=
  match i with
  | .nop _ id r => some (uopWord id 0x00 r)
  | .loopSetn _ id f => some (uopWord id 0x01 (loopSetnBits f))
  | .loopSetq _ id f => some (uopWord id 0x01 (loopSetqBits f))
  | .loopBranch _ id f => some (uopWord id 0x01 (loopBranchBits f))
  | .loopJump _ id f => some (uopWord id 0x01 (loopJumpBits f))
  | .waitcCount _ id f => some (uopWord id 0x02 (waitcCountBits f))
  | .waitcDone _ id f => some (uopWord id 0x02 (waitcDoneBits f))
  | .macp _ id f => some (uopWord id 0x08 (macpBits f))
  | .ldw _ id f => some (uopWord id 0x10 (ldwBits f))
  | .swap _ id f => some (uopWord id 0x11 (swapBits f))
  | .aclr _ id f => some (uopWord id 0x18 (aclrBits f))
  | .apre _ id f => some (uopWord id 0x19 (apreBits f))
  | .adrn _ id f => some (uopWord id 0x1A (adrnBits f))
  | .prescan _ id f => some (uopWord id 0x1B (prescanBits f))
  | .ppu _ id f => some (uopWord id 0x20 (ppuBits f))
  | .statOpen _ id f => some (uopWord id 0x21 (statBits 0 f))
  | .statClose _ id f => some (uopWord id 0x21 (statBits 1 f))
  | .outpPass _ id f _ => some (uopWord id 0x28 (outpPassBits f))
  | .outpLoad _ id f => some (uopWord id 0x28 (outpLoadBits f))
  | .moveToScratchpad _ id f => some (uopWord id 0x30 (moveBits 0 f))
  | .moveToStaging _ id f => some (uopWord id 0x30 (moveBits 1 f))
  | .moveToInstructionPage _ id f => some (uopWord id 0x30 (moveBits 2 f))
  | .rput _ id f => some (uopWord id 0x31 (rputBits f))
  | .dmahToScratchpad _ id f => some (uopWord id 0x32 (dmahBits 0 f))
  | .dmahToHbm _ id f => some (uopWord id 0x32 (dmahBits 1 f))
  | .rdvArrive _ id f => some (uopWord id 0x38 (rdvBits 1 f))
  | .rdvWait _ id f => some (uopWord id 0x38 (rdvBits 2 f))
  | .rdvArriveWait _ id f => some (uopWord id 0x38 (rdvBits 3 f))
  | .gate _ id f => some (uopWord id 0x39 (gateBits f))
  | .hint _ id f => some (uopWord id 0x40 (hintBits f))
  | .twin _ id f => some (uopWord id 0x48 (twinBits f))
  | _ => none

/-- The fields of LOOP setn (R158). -/
def loopSetnFields (x : BitVec 88) : LoopSetnF :=
  { n := x.extractLsb' 84 2, value := x.extractLsb' 64 20, rsvd := x.extractLsb' 0 64 }

/-- The fields of LOOP setq (R158). -/
def loopSetqFields (x : BitVec 88) : LoopSetqF :=
  { q := x.extractLsb' 83 3, rsvd := x.extractLsb' 64 19, value := x.extractLsb' 0 64 }

/-- The fields of LOOP branch (R158). -/
def loopBranchFields (x : BitVec 88) : LoopBranchF :=
  { n := x.extractLsb' 84 2, rsvd1 := x.extractLsb' 76 8, target := x.extractLsb' 64 12
    rsvd0 := x.extractLsb' 0 64 }

/-- The fields of LOOP jump (R158). -/
def loopJumpFields (x : BitVec 88) : LoopJumpF :=
  { rsvd1 := x.extractLsb' 76 10, target := x.extractLsb' 64 12, rsvd0 := x.extractLsb' 0 64 }

/-- The fields of WAITC count (R159). -/
def waitcCountFields (x : BitVec 88) : WaitcCountF :=
  { count := x.extractLsb' 66 20, rsvd := x.extractLsb' 0 66 }

/-- The fields of WAITC done (R159). -/
def waitcDoneFields (x : BitVec 88) : WaitcDoneF :=
  { cnt := x.extractLsb' 84 2, k := x.extractLsb' 76 8, rsvd := x.extractLsb' 0 76 }

/-- The fields of MACP (R140). -/
def macpFields (x : BitVec 88) : MacpF :=
  { macros := x.extractLsb' 72 16, half := x.extractLsb' 71 1, rgmask := x.extractLsb' 67 4
    bm1 := x.extractLsb' 64 3, asgn := x.extractLsb' 63 1, mode := x.extractLsb' 62 1
    grp := x.extractLsb' 60 2, sk := x.extractLsb' 58 2, partner := x.extractLsb' 54 4
    rsvd := x.extractLsb' 0 54 }

/-- The fields of LDW (R142). -/
def ldwFields (x : BitVec 88) : LdwF :=
  { macros := x.extractLsb' 72 16, src := x.extractLsb' 71 1, rgmask := x.extractLsb' 67 4
    pm1 := x.extractLsb' 64 3, wsgn := x.extractLsb' 63 1, chkgen := x.extractLsb' 62 1
    fin := x.extractLsb' 61 1, qsrc := x.extractLsb' 58 3, inc := x.extractLsb' 57 1
    cnt := x.extractLsb' 55 2, rsvd := x.extractLsb' 0 55 }

/-- The fields of SWAP (R143). -/
def swapFields (x : BitVec 88) : SwapF :=
  { macros := x.extractLsb' 72 16, rsvd := x.extractLsb' 0 72 }

/-- The fields of ACLR (R144). -/
def aclrFields (x : BitVec 88) : AclrF :=
  { macros := x.extractLsb' 72 16, slot := x.extractLsb' 69 3, amode := x.extractLsb' 67 2
    obase := x.extractLsb' 64 3, ostep := x.extractLsb' 62 2, oper := x.extractLsb' 59 3
    rsvd := x.extractLsb' 0 59 }

/-- The fields of APRE (R144). -/
def apreFields (x : BitVec 88) : ApreF :=
  { macros := x.extractLsb' 72 16, slot := x.extractLsb' 69 3, amode := x.extractLsb' 67 2
    obase := x.extractLsb' 64 3, ostep := x.extractLsb' 62 2, oper := x.extractLsb' 59 3
    fmt := x.extractLsb' 55 4, psh := x.extractLsb' 49 6, qsrc := x.extractLsb' 46 3
    inc := x.extractLsb' 45 1, nm1 := x.extractLsb' 38 7, rsvd := x.extractLsb' 0 38 }

/-- The fields of ADRN (R146). -/
def adrnFields (x : BitVec 88) : AdrnF :=
  { slot := x.extractLsb' 85 3, pset := x.extractLsb' 83 2, qdst := x.extractLsb' 80 3
    inc := x.extractLsb' 79 1, nm1 := x.extractLsb' 72 7, cbase := x.extractLsb' 60 12
    rsvd := x.extractLsb' 0 60 }

/-- The fields of PRESCAN (R147). -/
def prescanFields (x : BitVec 88) : PrescanF :=
  { slot := x.extractLsb' 85 3, qsrc := x.extractLsb' 82 3, inc := x.extractLsb' 81 1
    nbm1 := x.extractLsb' 65 16, rsvd := x.extractLsb' 0 65 }

/-- The fields of PPU (R148). -/
def ppuFields (x : BitVec 88) : PpuF :=
  { fmt := x.extractLsb' 84 4, func := x.extractLsb' 82 2, pset := x.extractLsb' 80 2
    zp := x.extractLsb' 64 16, qmin := x.extractLsb' 48 16, qmax := x.extractLsb' 32 16
    qscale := x.extractLsb' 29 3, qpar := x.extractLsb' 26 3, rsvd := x.extractLsb' 0 26 }

/-- The fields of STAT, below SMODE (R149). -/
def statFields (x : BitVec 88) : StatF :=
  { q := x.extractLsb' 84 3, inc := x.extractLsb' 83 1, c0 := x.extractLsb' 71 12, nm1 := x.extractLsb' 64 7
    rsvd := x.extractLsb' 0 64 }

/-- The fields of OUTP pass (R150). -/
def outpPassFields (x : BitVec 88) : OutpPassF :=
  { macros := x.extractLsb' 72 16, half := x.extractLsb' 70 1, rgmask := x.extractLsb' 66 4
    bm1 := x.extractLsb' 63 3, asgn := x.extractLsb' 62 1, rsvd := x.extractLsb' 0 62 }

/-- The fields of OUTP load (R150). -/
def outpLoadFields (x : BitVec 88) : OutpLoadF :=
  { macros := x.extractLsb' 72 16, qsrc := x.extractLsb' 68 3, inc := x.extractLsb' 67 1
    rsvd := x.extractLsb' 0 67 }

/-- The fields of MOVE (R151). -/
def moveFields (x : BitVec 88) : MoveF :=
  { qsrc := x.extractLsb' 85 3, sinc := x.extractLsb' 84 1, qdst := x.extractLsb' 79 3
    dinc := x.extractLsb' 78 1, dsel := x.extractLsb' 77 1, dmacros := x.extractLsb' 61 16
    cw := x.extractLsb' 58 3, lm1 := x.extractLsb' 42 16, rsvd := x.extractLsb' 0 42 }

/-- The fields of RPUT (R152). -/
def rputFields (x : BitVec 88) : RputF :=
  { qsrc := x.extractLsb' 85 3, sinc := x.extractLsb' 84 1, cred := x.extractLsb' 79 5
    dofs := x.extractLsb' 59 20, lm1 := x.extractLsb' 43 16, urg := x.extractLsb' 42 1
    cnt := x.extractLsb' 40 2, rsvd := x.extractLsb' 0 40 }

/-- The fields of DMAH, below DIR (R153). -/
def dmahFields (x : BitVec 88) : DmahF :=
  { qhbm := x.extractLsb' 84 3, hinc := x.extractLsb' 83 1, qsp := x.extractLsb' 80 3
    sinc := x.extractLsb' 79 1, l32m1 := x.extractLsb' 64 15, cnt := x.extractLsb' 62 2
    rsvd := x.extractLsb' 0 62 }

/-- The fields of RDV, below ACT (R154). -/
def rdvFields (x : BitVec 88) : RdvF :=
  { rid := x.extractLsb' 76 10, grant := x.extractLsb' 75 1, rsvd := x.extractLsb' 0 75 }

/-- The fields of GATE (R155). -/
def gateFields (x : BitVec 88) : GateF :=
  { start := x.extractLsb' 76 12, rsvd := x.extractLsb' 0 76 }

/-- The fields of HINT (R156). -/
def hintFields (x : BitVec 88) : HintF :=
  { level := x.extractLsb' 84 4, dist := x.extractLsb' 64 20, plen := x.extractLsb' 52 12
    rsvd := x.extractLsb' 0 52 }

/-- The fields of TWIN (R157). -/
def twinFields (x : BitVec 88) : TwinF :=
  { macros := x.extractLsb' 72 16, spbanks := x.extractLsb' 68 4, wlen := x.extractLsb' 48 20
    rsvd := x.extractLsb' 0 48 }

/-- The micro-op that a stored word spells on a tile, and none for a word that no row of the encoding tables has: an
opcode that R138 leaves free, a mode, a DKIND or an ACT that R154, R159 and R151 leave free. An OUTP pass is read as one
that met no parity error. -/
def decodeUop (t : TileId) (w : BitVec 128) : Option Instr :=
  let id : Ids := { layer := w.extractLsb' 112 16, opid := w.extractLsb' 96 16 }
  let x := w.extractLsb' 0 88
  let top := (x.extractLsb' 86 2).toNat
  match (w.extractLsb' 88 8).toNat with
  | 0x00 => some (.nop t id x)
  | 0x01 =>
    match top with
    | 0 => some (.loopSetn t id (loopSetnFields x))
    | 1 => some (.loopSetq t id (loopSetqFields x))
    | 2 => some (.loopBranch t id (loopBranchFields x))
    | _ => some (.loopJump t id (loopJumpFields x))
  | 0x02 =>
    match top with
    | 0 => some (.waitcCount t id (waitcCountFields x))
    | 1 => some (.waitcDone t id (waitcDoneFields x))
    | _ => none
  | 0x08 => some (.macp t id (macpFields x))
  | 0x10 => some (.ldw t id (ldwFields x))
  | 0x11 => some (.swap t id (swapFields x))
  | 0x18 => some (.aclr t id (aclrFields x))
  | 0x19 => some (.apre t id (apreFields x))
  | 0x1A => some (.adrn t id (adrnFields x))
  | 0x1B => some (.prescan t id (prescanFields x))
  | 0x20 => some (.ppu t id (ppuFields x))
  | 0x21 => some (if x.getLsbD 87 then .statClose t id (statFields x) else .statOpen t id (statFields x))
  | 0x28 => some (if x.getLsbD 71 then .outpLoad t id (outpLoadFields x) else .outpPass t id (outpPassFields x) [])
  | 0x30 =>
    match (x.extractLsb' 82 2).toNat with
    | 0 => some (.moveToScratchpad t id (moveFields x))
    | 1 => some (.moveToStaging t id (moveFields x))
    | 2 => some (.moveToInstructionPage t id (moveFields x))
    | _ => none
  | 0x31 => some (.rput t id (rputFields x))
  | 0x32 => some (if x.getLsbD 87 then .dmahToHbm t id (dmahFields x) else .dmahToScratchpad t id (dmahFields x))
  | 0x38 =>
    match top with
    | 1 => some (.rdvArrive t id (rdvFields x))
    | 2 => some (.rdvWait t id (rdvFields x))
    | 3 => some (.rdvArriveWait t id (rdvFields x))
    | _ => none
  | 0x39 => some (.gate t id (gateFields x))
  | 0x40 => some (.hint t id (hintFields x))
  | 0x48 => some (.twin t id (twinFields x))
  | _ => none

/-- A bound lies outside the range that QMIN's sign gives an INT format (R100). -/
def qOutside (fmt : Nat) (qmin q : Int) : Bool :=
  let bad (lo hi : Int) : Bool := q < lo || hi < q
  match fmt with
  | 0 => if qmin < 0 then bad (-128) 127 else bad 0 255
  | 8 => if qmin < 0 then bad (-8) 7 else bad 0 15
  | 9 => if qmin < 0 then bad (-2) 1 else bad 0 3
  | 10 => if qmin < 0 then bad (-1) 0 else bad 0 1
  | _ => false

/-- The step that OSTEP codes (R144). -/
def ofsStep (ostep : Nat) : Nat := match ostep with | 0 => 0 | 1 => 1 | 2 => 2 | _ => 4

/-- OFS of macro m (R145). -/
def ofsOf (obase ostep oper m : Nat) : Nat := obase + ofsStep ostep * (m % 2 ^ oper)

/-- The set bits of a reserved field, as bit positions of the micro-op (R11, R509). -/
def rsBits (x hi lo : Nat) : List Nat := ((List.range (hi + 1 - lo)).map fun i => lo + i).filter fun i => x.testBit i

/-- The lowest bit of a field that holds a refused value. -/
def badAt (lo : Nat) (c : Bool) : List Nat := if c then [lo] else []

/-- The refusals that ACLR and APRE share (R144, R145), on the operand number. -/
def openFaults (x : Nat) : List Nat :=
  let amode := fieldN x 68 67
  let oper := fieldN x 61 59
  badAt 67 (amode == 3 || (amode == 2 && fieldN x 69 69 == 1)) ++ badAt 59 (decide (5 ≤ oper)) ++
    badAt 64 ((List.range 16).any fun m =>
      fieldN x (72 + m) (72 + m) == 1 && decide (7 < ofsOf (fieldN x 66 64) (fieldN x 63 62) oper m))

/-- The refusals of one micro-op on its operand number `x`, by opcode, each at the lowest bit of its field or at the set
reserved bit (R137, R140 to R159, R509). A rendezvous point at or beyond `points` has no entry (R154).
DEDUCED: log 141. -/
def operandFaults (points op x : Nat) : List Nat :=
  let f := fieldN x
  let rs := rsBits x
  match op with
  | 0x00 => rs 87 0
  | 0x01 =>
    match f 87 86 with
    | 0 => rs 63 0
    | 1 => rs 82 64 ++ (if f 63 63 = 0 then rs 62 61 else [])
    | 2 => rs 83 76 ++ rs 63 0
    | _ => rs 85 76 ++ rs 63 0
  | 0x02 =>
    match f 87 86 with
    | 0 => badAt 66 (f 85 66 == 0) ++ rs 65 0
    | 1 => rs 75 0
    | _ => [86]
  | 0x08 =>
    let named := f 87 72
    let partner := f 57 54
    badAt 72 (named == 0) ++ badAt 67 (f 70 67 == 0) ++ badAt 62 (f 62 62 == 1 && !(f 66 64 == 7 && f 63 63 == 1)) ++
      badAt 60 (f 61 60 == 3) ++ (if f 59 58 = 0 then rs 57 54 else []) ++
      badAt 54 (f 59 58 != 0 && (!named.testBit partner || named % 2 ^ partner == 0)) ++ rs 53 0
  | 0x10 =>
    badAt 72 (f 87 72 == 0) ++ badAt 67 (f 70 67 == 0) ++ (if f 71 71 = 0 then rs 56 55 else []) ++ rs 54 0
  | 0x11 => badAt 72 (f 87 72 == 0) ++ rs 71 0
  | 0x18 => openFaults x ++ rs 58 0
  | 0x19 =>
    openFaults x ++ badAt 55 (decide (7 < f 58 55) || (f 58 55 == 7 && f 68 67 == 2)) ++
      badAt 49 (f 54 49 != 0 && f 68 67 != 0) ++ rs 37 0
  | 0x1A => rs 59 0
  | 0x1B => rs 64 0
  | 0x20 =>
    let qmin := (BitVec.ofNat 16 (f 63 48)).toInt
    let qmax := (BitVec.ofNat 16 (f 47 32)).toInt
    badAt 84 (f 87 84 == 2 || decide (0xA < f 87 84)) ++
      badAt 32 (decide (qmax < qmin) || qOutside (f 87 84) qmin qmax) ++ badAt 48 (qOutside (f 87 84) qmin qmin) ++
      (if f 83 82 < 2 then rs 28 26 else []) ++ rs 25 0 ++
      (if f 87 84 = 7 then rs 83 82 ++ rs 79 32 ++ rs 31 29 ++ rs 28 26 else [])
  | 0x21 => (if f 87 87 = 1 then rs 82 71 ++ rs 70 64 else []) ++ rs 63 0
  | 0x28 =>
    badAt 72 (f 87 72 == 0) ++ (if f 71 71 = 0 then badAt 66 (f 69 66 == 0) ++ rs 61 0 else rs 66 0)
  | 0x30 =>
    let k := f 83 82
    badAt 82 (k == 3) ++ badAt 58 (decide (4 < f 60 58)) ++ (if k ≠ 0 then rs 81 79 ++ rs 78 78 else []) ++
      (if k ≠ 1 then rs 76 61 else badAt 61 (f 76 61 == 0) ++ rs 57 42) ++
      badAt 42 (k == 2 && ((f 57 42 + 1) % 16 != 0 || decide (32768 < f 57 42 + 1))) ++ rs 41 0
  | 0x31 => rs 39 0
  | 0x32 => rs 61 0
  | 0x38 =>
    badAt 86 (f 87 86 == 0) ++ badAt 76 (decide (points ≤ f 85 76)) ++ (if f 87 86 = 2 then rs 75 75 else []) ++ rs 74 0
  | 0x39 => rs 75 0
  | 0x40 => rs 51 0
  | 0x48 => badAt 48 (f 67 48 == 0) ++ rs 47 0
  | _ => [88]

/-- Every refusal that a micro-op meets on its own fields, as bit positions (R511, R138). DEDUCED: log 39. -/
def uopFaults (points : Nat) (w : BitVec 128) : List Nat :=
  let x := w.toNat
  operandFaults points (fieldN x 95 88) (fieldN x 87 0) ++ badAt 96 (fieldN x 111 96 == 0xFFFF) ++
    badAt 112 (fieldN x 127 112 == 0xFFFF)

/-- A micro-op that some check on its own fields refuses (R511). DEDUCED: log 39. -/
def uopRefused (points : Nat) (w : BitVec 128) : Bool := !(uopFaults points w).isEmpty

/-- The command that a table word spells. No row of the opcode table gives bits, so no word spells one.
DEDUCED: log 8. -/
def decodeTableWord (_nbits _w : Nat) : Option Instr := none

end Sys2Proof
end

