-- ==== Sys2Proof/Machine/Numerics.lean ====
section
/-! DEFINITION. Floating-point numbers of the PPU and the statistics (R98 to R101, R120, R121) over exact
integers: a finite value is a sign, a magnitude and a power of two. -/

namespace Sys2Proof.Machine

/-- Round a magnitude m × 2^e to `p` significant bits, ties to even, with an unbounded exponent. -/
def roundMag (p m : Nat) (e : Int) : Nat × Int :=
  let l := bitLen m
  if l ≤ p then (m, e) else ((rneDiv (m : Int) (2 ^ (l - p))).toNat, e + ((l - p : Nat) : Int))

/-- binary32 bits of ± m × 2^e under R98: rounded once, flushed below 2^-126 keeping the sign, and limited to the
largest finite value; the flag tells that it was limited. -/
def toF32 (neg : Bool) (m : Nat) (e : Int) : BitVec 32 × Bool :=
  let s : Nat := b2n neg * 2 ^ 31
  let (m, e) := roundMag 24 m e
  let l := bitLen m
  let top : Int := e + (l : Int) - 1
  if m = 0 ∨ top < -126 then (BitVec.ofNat 32 s, false)
  else if 127 < top then (BitVec.ofNat 32 (s + 0x7F7FFFFF), true)
  else
    let frac := (if l ≤ 24 then m * 2 ^ (24 - l) else m / 2 ^ (l - 24)) - 2 ^ 23
    (BitVec.ofNat 32 (s + (top + 127).toNat * 2 ^ 23 + frac), false)

/-- What a binary32 word is: not a number, infinite, or a finite sign, magnitude and power of two. A subnormal
counts as zero of its sign (R98). -/
inductive F32 where
  | nan
  | inf (neg : Bool)
  | fin (neg : Bool) (m : Nat) (e : Int)
  deriving DecidableEq, Repr

/-- Read a binary32 word. -/
def ofF32 (w : BitVec 32) : F32 :=
  let neg := w.getLsbD 31
  let ex := fieldN w.toNat 30 23
  let fr := fieldN w.toNat 22 0
  if ex = 255 then (if fr = 0 then .inf neg else .nan)
  else if ex = 0 then .fin neg 0 0
  else .fin neg (2 ^ 23 + fr) ((ex : Int) - 150)

/-- A binary32 word that is subnormal (R99). -/
def isSubnormal (w : BitVec 32) : Bool := fieldN w.toNat 30 23 == 0 && fieldN w.toNat 22 0 != 0

/-- A scale that R99 refuses: zero, subnormal, infinite or NaN. DEDUCED: log 46. -/
def badScale (w : BitVec 32) : Bool := let ex := fieldN w.toNat 30 23; ex == 0 || ex == 255

/-- The canonical NaN (R98, R100). -/
def canonicalNan : BitVec 32 := 0x7FC00000

/-- A NaN word. -/
def isNan (w : BitVec 32) : Bool := ofF32 w == .nan

/-- The order key of a word that is no NaN: both zeros are 0. -/
def f32Key (w : BitVec 32) : Int :=
  let m : Nat := fieldN w.toNat 30 0
  if w.getLsbD 31 then -(m : Int) else m

/-- a < b on words that are no NaN. -/
def f32Lt (a b : BitVec 32) : Bool := f32Key a < f32Key b

/-- The product of R98, rounded once; the flag tells that it was limited. -/
def mulF32 (a b : BitVec 32) : BitVec 32 × Bool :=
  match ofF32 a, ofF32 b with
  | .fin na ma ea, .fin nb mb eb => toF32 (na != nb) (ma * mb) (ea + eb)
  | _, _ => (canonicalNan, false)

/-- binary64 bits of ± m × 2^e, ties to even, with subnormals; too large becomes infinite. -/
def toF64 (neg : Bool) (m : Nat) (e : Int) : BitVec 64 :=
  let s : Nat := b2n neg * 2 ^ 63
  let (m1, e1) := roundMag 53 m e
  let l := bitLen m1
  let top : Int := e1 + (l : Int) - 1
  if m1 = 0 then BitVec.ofNat 64 s
  else if top < -1022 then BitVec.ofNat 64 (s + (rneScale (m : Int) (e + 1074)).toNat)
  else if 1023 < top then BitVec.ofNat 64 (s + 0x7FF0000000000000)
  else
    let frac := (if l ≤ 53 then m1 * 2 ^ (53 - l) else m1 / 2 ^ (l - 53)) - 2 ^ 52
    BitVec.ofNat 64 (s + (top + 1023).toNat * 2 ^ 52 + frac)

/-- A finite binary64 word as an integer and a power of two. -/
def ofF64 (w : BitVec 64) : Int × Int :=
  let ex := fieldN w.toNat 62 52
  let fr := fieldN w.toNat 51 0
  let m : Nat := if ex = 0 then fr else 2 ^ 52 + fr
  let e : Int := if ex = 0 then -1074 else (ex : Int) - 1075
  (if w.getLsbD 63 then -(m : Int) else m, e)

/-- Signed value m × 2^e to binary64. -/
def intToF64 (m : Int) (e : Int) : BitVec 64 := toF64 (m < 0) m.natAbs e

/-- The exact sum of two dyadic numbers. -/
def dyAdd (a b : Int × Int) : Int × Int :=
  let e := min a.2 b.2
  (a.1 * 2 ^ (a.2 - e).toNat + b.1 * 2 ^ (b.2 - e).toNat, e)

/-- a < b on dyadic numbers. -/
def dyLt (a b : Int × Int) : Bool := (dyAdd a (-b.1, b.2)).1 < 0

/-- A binary64 word that is infinite. -/
def isInf64 (w : BitVec 64) : Bool := fieldN w.toNat 62 0 == 0x7FF0000000000000

/-- A binary64 word that is no number. -/
def isNan64 (w : BitVec 64) : Bool := decide (0x7FF0000000000000 < fieldN w.toNat 62 0)

/-- The NaN of an invalid binary64 operation. -/
def nan64 : BitVec 64 := 0x7FF8000000000000

/-- Sum in binary64. -/
def addF64 (a b : BitVec 64) : BitVec 64 :=
  if isNan64 a || isNan64 b || (isInf64 a && isInf64 b && a != b) then nan64
  else if isInf64 a then a
  else if isInf64 b then b
  else let r := dyAdd (ofF64 a) (ofF64 b); intToF64 r.1 r.2

/-- Difference in binary64. -/
def subF64 (a b : BitVec 64) : BitVec 64 := if isNan64 b then nan64 else addF64 a (b ^^^ 0x8000000000000000)

/-- Product in binary64. -/
def mulF64 (a b : BitVec 64) : BitVec 64 :=
  let x := ofF64 a; let y := ofF64 b
  if isNan64 a || isNan64 b || (isInf64 a && y.1 == 0) || (isInf64 b && x.1 == 0) then nan64
  else if isInf64 a || isInf64 b then (a ^^^ b) &&& 0x8000000000000000 ||| 0x7FF0000000000000
  else intToF64 (x.1 * y.1) (x.2 + y.2)

/-- Quotient by a count in binary64: two more bits than needed and a sticky bit decide the rounding. -/
def divF64 (a : BitVec 64) (n : Nat) : BitVec 64 :=
  if isNan64 a || isInf64 a then a
  else
    let x := ofF64 a
    let k := 64 + bitLen n
    let num := x.1.natAbs * 2 ^ k
    let q := num / n
    let sticky := if num % n = 0 then 0 else 1
    toF64 (x.1 < 0) (2 * q + sticky) (x.2 - k - 1)

/-- Integer square root by bits, from bit `k` down. -/
def isqrt (n : Nat) : Nat → Nat → Nat
  | 0, r => r
  | k + 1, r => let c := r + 2 ^ k; if c * c ≤ n then isqrt n k c else isqrt n k r

/-- Square root in binary64 of a value that is not negative. -/
def sqrtF64 (a : BitVec 64) : BitVec 64 :=
  let x := ofF64 a
  if isNan64 a || (isInf64 a && decide (0 < x.1)) then a
  else if x.1 ≤ 0 then 0
  else
    let e0 : Int := x.2 - 64
    let up : Nat := if e0 % 2 = 0 then 64 else 65
    let n := x.1.natAbs * 2 ^ up
    let e : Int := x.2 - up
    let r := isqrt n 64 0
    let sticky := if r * r = n then 0 else 1
    toF64 false (2 * r + sticky) (e / 2 - 1)

/-- The dyadic value of a finite binary32 word. -/
def f32Dy (w : BitVec 32) : Int × Int :=
  match ofF32 w with
  | .fin neg m e => (if neg then -(m : Int) else m, e)
  | _ => (0, 0)

/-- The exact value of a finite binary32 word, subnormals included. -/
def f32Exact (w : BitVec 32) : Int × Int :=
  let ex := fieldN w.toNat 30 23
  let m : Nat := if ex = 0 then fieldN w.toNat 22 0 else 2 ^ 23 + fieldN w.toNat 22 0
  (if w.getLsbD 31 then -(m : Int) else m, if ex = 0 then -149 else (ex : Int) - 150)

/-- A dyadic number lies below a bound that is no NaN: -∞ has nothing below it, +∞ everything (R119, R121). -/
def dyBelow (v : Int × Int) (w : BitVec 32) : Bool :=
  match ofF32 w with
  | .inf neg => !neg
  | .nan => false
  | .fin .. => dyLt v (f32Exact w)

/-- A dyadic number lies above a bound that is no NaN. -/
def dyAbove (v : Int × Int) (w : BitVec 32) : Bool :=
  match ofF32 w with
  | .inf neg => neg
  | .nan => false
  | .fin .. => dyLt (f32Exact w) v

/-- A binary64 word lies below a binary32 bound that is no NaN: a NaN does not (R121). -/
def f64Below (m : BitVec 64) (w : BitVec 32) : Bool :=
  if isNan64 m then false
  else if isInf64 m then m.getLsbD 63 && ofF32 w != .inf true
  else dyBelow (ofF64 m) w

/-- A binary64 word lies above a binary32 bound that is no NaN. -/
def f64Above (m : BitVec 64) (w : BitVec 32) : Bool :=
  if isNan64 m then false
  else if isInf64 m then !m.getLsbD 63 && ofF32 w != .inf false
  else dyAbove (ofF64 m) w

/-- A binary32 word that is no NaN, widened to binary64. -/
def f32To64 (w : BitVec 32) : BitVec 64 :=
  match ofF32 w with
  | .inf neg => if neg then 0xFFF0000000000000 else 0x7FF0000000000000
  | _ => let v := f32Dy w; toF64 (w.getLsbD 31) v.1.natAbs v.2

/-- binary16 of a binary32 word (R100): subnormals kept, limited to ±65,504. -/
def toF16 (w : BitVec 32) : BitVec 16 × Bool :=
  match ofF32 w with
  | .fin neg m e =>
    let s : Nat := b2n neg * 2 ^ 15
    let top : Int := e + (bitLen m : Int) - 1
    if m = 0 then (BitVec.ofNat 16 s, false)
    else if top < -14 then (BitVec.ofNat 16 (s + (rneScale (m : Int) (e + 24)).toNat), false)
    else
      let (m1, e1) := roundMag 11 m e
      let l := bitLen m1
      let top1 : Int := e1 + (l : Int) - 1
      if 15 < top1 then (BitVec.ofNat 16 (s + 0x7BFF), true)
      else
        let frac := (if l ≤ 11 then m1 * 2 ^ (11 - l) else m1 / 2 ^ (l - 11)) - 2 ^ 10
        (BitVec.ofNat 16 (s + (top1 + 15).toNat * 2 ^ 10 + frac), false)
  | .inf neg => (BitVec.ofNat 16 (b2n neg * 2 ^ 15 + 0x7BFF), true)
  | .nan => (0x7E00, false)

/-- bfloat16 of a binary32 word (R100): subnormals flushed, limited to ±0x7F7F. -/
def toBf16 (w : BitVec 32) : BitVec 16 × Bool :=
  match ofF32 w with
  | .fin neg m e =>
    let s : Nat := b2n neg * 2 ^ 15
    let (m1, e1) := roundMag 8 m e
    let l := bitLen m1
    let top1 : Int := e1 + (l : Int) - 1
    if m1 = 0 ∨ top1 < -126 then (BitVec.ofNat 16 s, false)
    else if 127 < top1 then (BitVec.ofNat 16 (s + 0x7F7F), true)
    else
      let frac := (if l ≤ 8 then m1 * 2 ^ (8 - l) else m1 / 2 ^ (l - 8)) - 2 ^ 7
      (BitVec.ofNat 16 (s + (top1 + 127).toNat * 2 ^ 7 + frac), false)
  | .inf neg => (BitVec.ofNat 16 (b2n neg * 2 ^ 15 + 0x7F7F), true)
  | .nan => (0x7FC0, false)

/-- An operand or result below the smallest normal magnitude becomes zero of its sign (R98). -/
def flush32 (w : BitVec 32) : BitVec 32 := if isSubnormal w then w &&& 0x80000000 else w

/-- The activation functions of R99 on a value; the flag tells that a product was limited. -/
def activation (func : BitVec 2) (p0 p1 y : BitVec 32) : BitVec 32 × Bool :=
  if isNan y then (canonicalNan, false)
  else match func.toNat with
    | 0 => (y, false)
    | 1 => (if 0 < f32Key y then y else 0, false)
    | 2 => if 0 < f32Key y then (y, false) else mulF32 y p0
    | _ =>
      let lo := flush32 p0
      let hi := flush32 p1
      (if f32Lt y lo then lo else if f32Lt hi y then hi else y, false)

/-- Conversion to an integer format (R100): the stored integer, whether it was limited, whether it was NaN. -/
def toIntFmt (zp qmin qmax : Int) (y : BitVec 32) : Int × Bool × Bool :=
  match ofF32 y with
  | .nan => (clampI qmin qmax zp, false, true)
  | .inf neg => (if neg then qmin else qmax, true, false)
  | .fin .. =>
    let v := f32Dy y
    let q := rneScale v.1 v.2 + zp
    (clampI qmin qmax q, q < qmin || qmax < q, false)

/-- The exponent and mantissas of a BFP8/64 block of outputs (R101), whether it holds a NaN, and which values were
limited. -/
def bfpBlock (ys : List (BitVec 32)) : BitVec 8 × List Byte × Bool × List Bool :=
  if ys.any isNan then (0xFF, ys.map fun _ => 0, true, ys.map fun _ => false)
  else
    let big := ys.foldl (fun (a : Int) y => max a (f32Key y).natAbs) 0
    if big = 0 then (0, ys.map fun _ => 0, false, ys.map fun _ => false)
    else
      let top : Int := (fieldN big.toNat 30 23 : Int) - 127
      let mant (e : Int) (y : BitVec 32) : Int :=
        match ofF32 y with
        | .inf _ => 2 ^ 24
        | _ => let v := f32Dy y; rneScale (v.1.natAbs : Int) (v.2 + 133 - e)
      let e0 : Int := top + 127
      let e1 := if ys.any fun y => mant e0 y == 128 then e0 + 1 else e0
      let e := if 254 < e1 then 254 else e1
      let byte (y : BitVec 32) : Byte :=
        let m := min (mant e y) 127
        BitVec.ofNat 8 (m.toNat + b2n (decide (f32Key y < 0) && decide (0 < m)) * 128)
      (BitVec.ofNat 8 e.toNat, ys.map byte, false, ys.map fun y => decide (127 < mant e y))

end Sys2Proof.Machine
end

