-- ==== Sys2Proof/Config.lean ====
section
/-! DEFINITION. What the spec leaves open or gives to outside standards: constants without a body, which no
proof can evaluate. -/

namespace Sys2Proof.Config

/-- EPOCH as the true random number generator loads it at a reset (R237, R241): a free value of the draw. -/
opaque freeEpoch : Nat → BitVec 32

/-- A byte that the stream reads of a word that port D writes in the same ac (R230): a free value of the draw. -/
opaque freeByte : Nat → Byte

/-- A value the spec states no result for, by the draw. -/
opaque freeWord : Nat → BitVec 64

/-- SEQ of the datagrams that answer no request of a host (R305; log entry 197). DESIGN CHOICE: log 197. -/
opaque freeSeq : Nat → BitVec 32

/-- Whether a Strandline record, by its ring and its SEQ, finds no unused HBM slot (R262, R459). DESIGN CHOICE: log 88. -/
opaque slotBusy : Nat → BitVec 32 → Bool

/-- Whether a record of a partition, by its SEQ, would exceed 3 % of a die's NoC capacity, which the spec gives no figure of (R459):
a free value. DESIGN CHOICE: log 192. -/
opaque nocFull : Nat → BitVec 32 → Bool

/-- What word `i` of a scale section holds: 0 a scale, 1 a leaky slope, 2 a lower clamp bound with the upper one after it,
anything else neither. The spec does not lay the section out (R148, R188). -/
opaque scaleRole : List Byte → Nat → Nat

/-- SHA-384 (FIPS 180-4), 48 bytes. -/
opaque sha384 : List Byte → List Byte

/-- RSASSA-PSS verification with the parameters of R189: modulus and exponent, message, signature. -/
opaque rsaVerify : List Byte → List Byte → List Byte → Bool

/-- SLH-DSA-SHA2-192s verification (FIPS 205): public key, message, signature. -/
opaque slhVerify : List Byte → List Byte → List Byte → Bool

/-- AES-256-GCM decryption: key, IV, additional data, ciphertext, tag; none when the tag fails (R203). -/
opaque gcmDecrypt : List Byte → List Byte → List Byte → List Byte → List Byte → Option (List Byte)

/-- VERSION of the running firmware, which R193 compares MINFW with. -/
opaque firmwareVersion : BitVec 1 → BitVec 32

/-- HKDF-SHA-384 of the root secret, with a label and the serial number as salt (R397). -/
opaque hkdf : BitVec 256 → List Byte → BitVec 32 → List Byte

/-- HMAC-SHA-384 under a key (R393, R422). -/
opaque hmac : List Byte → List Byte → BitVec 384

/-- The identity keys that the island makes of its random source: the RSA public key, modulus then exponent, the SLH-DSA public key,
and the private parts (R395). -/
opaque identityKeys : Nat → List Byte × List Byte × List Byte

/-- AES-256-GCM wrapping of the identity private keys under the wrap key (R395). -/
opaque wrapKeys : List Byte → List Byte → List Byte

/-- Their unwrapping, which can fail (R395). -/
opaque unwrapKeys : List Byte → List Byte → Option (List Byte)

/-- A signature block by the identity private keys over a message (R406). -/
opaque identitySign : List Byte → List Byte → List Byte

/-- RSAES-OAEP decryption of a wrapped model key with the identity private keys and the IMAGEID as the label (R405). -/
opaque oaepDecrypt : List Byte → BitVec 128 → List Byte → Option (List Byte)

/-- The MISR signature that delivered firmware, named by the SHA-384 of its header, carries for a domain (R427). -/
opaque misr : List Byte → Nat → BitVec 64

/-- The digests that the measurement log enters for entries 0x0001 to 0x0003 (R407). DEDUCED: log 53. -/
opaque measured : Nat → List Byte

/-- The name of an object or entry in an SDO information reply (R336). DESIGN CHOICE: log 170. -/
opaque sdoName : BitVec 16 → BitVec 8 → List Byte

/-- The name of the running firmware, by slot, which SoftwareVersion reads (R347). -/
opaque softwareVersion : BitVec 1 → BitVec 128

/-- The cycle times that OutputCycleTime and InputCycleTime measure (R347), by the time of the read. -/
opaque cycleTime : Nat → BitVec 64 → BitVec 32

/-- The levels of ECAT_RUN, ECAT_ERR, ECAT0_LA and ECAT1_LA once firmware drives them (R493), by the EtherCAT state, its error
flag and the time. DESIGN CHOICE: log 230. -/
opaque ecatPins : Nat → Bool → BitVec 64 → BitVec 4

end Sys2Proof.Config
end

