-- ==== Sys2Proof/Machine/State.lean ====
section
/-! DEFINITION. The state of the block: everything the spec names, as plain data, and its value after reset.
Stores hold only what differs from the unit's reset value or has been written; `Machine/Ops.lean` reads them. -/

namespace Sys2Proof.Machine

/-- Why a step stops with a fault. -/
inductive Fault where
  /-- Raised by the HBM replay and repair commands for a device address above 0x47_FFFF_FFFF, which the map of
  R258 does not have. Safe: the address names no memory. -/
  | noSuchHbmAddress (a : HbmAddr)
  deriving DecidableEq, Repr

/-- Why a command has no meaning. -/
inductive Refusal where
  /-- Raised by an arm of the dispatch whose command has no meaning yet; safe, nothing happens. -/
  | notModelled (mnemonic : String)
  deriving DecidableEq, Repr

/-! ### A tile -/

/-- A staging half (R47): 256 activations, four exponents, and the zero flag of plane b, group g in bit 4b + g. -/
structure Half where
  acts : Store Byte := []
  exps : Store Byte := []
  zero : BitVec 32 := 0
  deriving DecidableEq, Repr

/-- A staging fill on its way: it writes its half in cycle `due` (R160). -/
structure Fill where
  due : Nat
  half : Half
  ids : Ids
  deriving DecidableEq, Repr

/-- One outlier entry, with the parity bit that the store keeps beside it (R104, R105). -/
structure OutEntry where
  res : BitVec 16
  row : BitVec 8
  out : BitVec 7
  par : BitVec 1
  deriving DecidableEq, Repr

/-- An outlier set of a stream (R105). -/
structure OutSet where
  valid : Bool := false
  layer : BitVec 16 := 0xFFFF
  entries : List OutEntry := []
  deriving DecidableEq, Repr

/-- The state of a bank (R59). -/
inductive BankSt where
  | invalid | loading | valid
  deriving DecidableEq, Repr

/-- Where the records of a row group of a bank lie, for compares and repairs (R207, R225): the address of the record
of the group's first row, in the partition's address space or in its download area, the bytes from row to row,
whether records have 17 bytes, and what the load recorded with them. -/
structure RecSrc where
  addr : Nat
  stride : Nat
  rec17 : Bool
  down : Bool
  pm1 : BitVec 3
  wsgn : BitVec 1
  layer : BitVec 16
  deriving DecidableEq, Repr

/-- A physical bank of a macro (R36, R59): its cells by row, 144 columns each, what its load recorded, and the row groups
that the load has named so far, whose rows may be missing after a hard error (R210). `bare` tells that the load took some
group from scratchpad, so that the bank has no records to be written from again (R215, R225). -/
structure Bank where
  st : BankSt := .invalid
  groups : BitVec 4 := 0
  asked : BitVec 4 := 0
  written : List Nat := []
  wsgn : BitVec 1 := 0
  pm1 : BitVec 3 := 0
  layer : BitVec 16 := 0xFFFF
  failed : Bool := false
  cells : Store (BitVec 144) := []
  steer : BitVec 32 := 0xFFFFFFFF
  sealedSrc : Bool := false
  bare : Bool := false
  srcs : Store RecSrc := []
  deriving DecidableEq, Repr

/-- What a bank held when its frame started, for a reprogramming after a checksum event (R116). -/
structure BankRec where
  st : BankSt := .invalid
  groups : BitVec 4 := 0
  wsgn : BitVec 1 := 0
  pm1 : BitVec 3 := 0
  layer : BitVec 16 := 0xFFFF
  sealedSrc : Bool := false
  srcs : Store RecSrc := []
  deriving DecidableEq, Repr

/-- A macro in service (R35 to R63). Cycles are counted in the tile's own ac; `…Until` is the first free cycle.
`streamDead`: a store parity error has stopped the macro's outlier stream for the frame (R108). `portIds` are the tags of the LDW that holds the write port. `start0` and `start1` are
what its banks held at the frame's start (R116). -/
structure Macro where
  conflict : Bool := false
  activePhys : BitVec 1 := 0
  bank0 : Bank := {}
  bank1 : Bank := {}
  set0 : OutSet := {}
  set1 : OutSet := {}
  half0 : Half := {}
  half1 : Half := {}
  fill0 : Option Fill := none
  fill1 : Option Fill := none
  lastS : Option Nat := none
  arrayUntil : Nat := 0
  streamUntil : Nat := 0
  portUntil : Nat := 0
  portIds : Ids := { layer := 0xFFFF, opid := 0xFFFF }
  setUntil : Nat := 0
  half0Until : Nat := 0
  half1Until : Nat := 0
  bank0Until : Nat := 0
  bank1Until : Nat := 0
  ldwHbm : Bool := false
  streamDead : Bool := false
  start0 : BankRec := {}
  start1 : BankRec := {}
  deriving DecidableEq, Repr

/-- An accumulator entry (R74). In fixed alignment the partner's entry holds the low 64 bits. -/
structure Entry where
  a : BitVec 64 := 0
  x : BitVec 9 := 0
  ovf : Bool := false
  nonfin : Bool := false
  used : Bool := false
  count : Nat := 0
  deriving DecidableEq, Repr

/-- The state of a slot (R80). -/
inductive SlotSt where
  | free | opened | draining | paired
  deriving DecidableEq, Repr

/-- An accumulator slot (R74, R80 to R82). `landPres` is the latest cycle that presented to it, and `landBase` the cycle of
the last landing that earlier cycles brought (R79). -/
structure Slot where
  mode : BitVec 2 := 0
  st : SlotSt := .free
  conflict : Bool := false
  bound : Bool := false
  expmiss : Bool := false
  ovf : Bool := false
  nonfin : Bool := false
  groups : Nat := 0
  emaxValid : Bool := false
  emax : BitVec 8 := 0
  prescanned : Bool := false
  entries : Store Entry := []
  openAt : Nat := 0
  freeAt : Nat := 0
  busyUntil : Nat := 0
  lastPass : Option Nat := none
  lastLand : Nat := 0
  landPres : Option Nat := none
  landBase : Nat := 0
  deriving DecidableEq, Repr

/-- A byte of the accumulation map (R75). -/
structure MapByte where
  en : Bool := false
  slot : BitVec 3 := 0
  ofs : BitVec 3 := 0
  deriving DecidableEq, Repr

/-- A PPU parameter set (R148, R508): the scale buffer is a scratchpad address and the bytes left from there. -/
structure PSet where
  loaded : Bool := false
  fmt : BitVec 4 := 0
  func : BitVec 2 := 0
  zp : BitVec 16 := 0
  qmin : BitVec 16 := 0
  qmax : BitVec 16 := 0
  scaleAddr : Nat := 0
  scaleLen : Nat := 0
  par0 : BitVec 32 := 0
  par1 : BitVec 32 := 0
  readyAt : Nat := 0
  busyUntil : Nat := 0
  deriving DecidableEq, Repr

/-- A channel's envelope and statistics record (R119, R121). -/
structure StatRec where
  vlo : BitVec 32 := 0
  vhi : BitVec 32 := 0
  mlo : BitVec 32 := 0
  mhi : BitVec 32 := 0
  sdhi : BitVec 32 := 0
  outmax : BitVec 32 := 0
  policy : BitVec 2 := 0
  min : BitVec 32 := 0x7F800000
  max : BitVec 32 := 0xFF800000
  sum : BitVec 64 := 0
  sumsq : BitVec 64 := 0
  count : BitVec 32 := 0
  outside : BitVec 24 := 0
  vOut : Bool := false
  vMean : Bool := false
  vSd : Bool := false
  nan : Bool := false
  deriving DecidableEq, Repr

/-- The statistics table while it is bound (R118). -/
structure Stat where
  layer : BitVec 16
  c0 : Nat
  n : Nat
  visibleAt : Nat
  recs : Store StatRec
  deriving DecidableEq, Repr

/-- A pass in flight (R52, R140): the macros with the physical bank each reads. -/
structure Pass where
  issue : Nat
  due : Nat
  busy : Nat
  macros : List (Nat × BitVec 1)
  half : BitVec 1
  rgmask : BitVec 4
  bm1 : BitVec 3
  asgn : BitVec 1
  bfp : Bool
  s : Nat
  sk : BitVec 2
  partner : Nat
  ids : Ids
  deriving DecidableEq, Repr

/-- A PPU output on its way to step 4 of R97, which it reaches in cycle `cycle` (R118, R160). -/
structure Sample where
  cycle : Nat
  channel : Nat
  y : BitVec 32
  ids : Ids
  deriving DecidableEq, Repr

/-- The engine partials of one stream on their way (R106, R107); `nout` is N_out of the macro's bank (R76). -/
structure Stream where
  mac : Nat
  nout : Nat
  issue : Nat
  due : Nat
  s : Nat
  partials : List (Nat × Int)
  ids : Ids
  deriving DecidableEq, Repr

/-- An element of an output: its value and, in BFP mode, its exponent (R78). -/
structure Elem where
  out : Nat
  val : Int
  exp : Nat
  deriving DecidableEq, Repr

/-- What one pass or stream, issued in cycle `issue`, gives a group sum. -/
structure LandPart where
  issue : Nat
  elems : List Elem
  deriving DecidableEq, Repr

/-- A group sum on its way into a slot, presented in cycle `pres` by the group of `sz` macros from macro `base` (R77,
R79). -/
structure Landing where
  slot : Nat
  pres : Nat
  base : Nat
  sz : Nat
  due : Nat
  bfp : Bool
  parts : List LandPart
  deriving DecidableEq, Repr

/-- What an asynchronous micro-op moves (R130). An LDW names macros and writes those of `live`. -/
inductive Transfer where
  | ldw (macros live : BitVec 16) (rgmask : BitVec 4) (pm1 : BitVec 3) (wsgn chkgen fin : BitVec 1) (addr : Nat)
  | dmah (toHbm : Bool) (hbmAddr : Nat) (spAddr : Nat) (len : Nat) (data : List Byte)
  | rput (window : BitVec 24) (epoch : BitVec 32) (tag : BitVec 16) (sent : Stamp)
  deriving DecidableEq, Repr

/-- An asynchronous micro-op that is not complete (R130); one issued before the last gate counts in no counter, which
the gate has cleared (R131). `dropped`: a gate or a stop has ended the load it belongs to (R214). `landing`: its transfer
has ended and bytes of it still wait for their destination (R130). `key` tells the operations of a tile apart. -/
structure AsyncOp where
  key : Nat := 0
  cnt : Nat
  due : Nat
  ids : Ids
  frame : BitVec 32
  xfer : Transfer
  counted : Bool := true
  dropped : Bool := false
  landing : Bool := false
  deriving DecidableEq, Repr

/-- Use of the tile's read or write path by one micro-op (R160, R161, R228): from cycle `start`, one segment of
at most `step` bytes a cycle of the `len` bytes at scratchpad address `addr`. In form 1 each cycle reads one
BFP block of `len` blocks, in form 2 sixteen elements of one block in each of `len` cycles, in form 3 block number
`step` of the super-blocks at `addr` is written in one cycle (R512). `macs`, `slots` and `unit` are the units that a
conflict of the micro-op names, and `issue` is the micro-op's issue cycle, which tells it from every other (R162). -/
structure PathUse where
  form : Nat
  write : Bool
  start : Nat
  addr : Nat
  step : Nat
  len : Nat
  ids : Ids := { layer := 0xFFFF, opid := 0xFFFF }
  macs : List Nat := []
  slots : List Nat := []
  unit : Nat := 20
  issue : Nat := 0
  deriving DecidableEq, Repr

/-- The power state of a scratchpad bank (R233). -/
inductive BankPower where
  | on | sleep | waking | off
  deriving DecidableEq, Repr

/-- A scratchpad bank's power state, the cycle in which a wake ends, whether that wake freezes the tile, and the count of the
owner's ac clock at which an access or a Tidewalk step last touched the bank (R233, R234). -/
structure SpBankSt where
  power : BankPower := .on
  wakeEnd : Nat := 0
  freezes : Bool := false
  touched : Nat := 0
  deriving DecidableEq, Repr

/-- A window's status word, the counts of its epochs (R242 to R244), and whether the frame in progress has read a
closed epoch that is torn or short. -/
structure WinSt where
  stale : BitVec 16 := 0
  refused : BitVec 16 := 0
  torn : Bool := false
  short : Bool := false
  landed : BitVec 20 := 0
  openLanded : Nat := 0
  granted : List Nat := []
  closing : Bool := false
  closedLanded : Nat := 0
  readBad : Bool := false
  deriving DecidableEq, Repr

/-- An accepted write that has not landed whole (R250). -/
structure PutWrite where
  handle : Nat
  epoch : BitVec 32
  window : BitVec 24
  via : Via
  writer : Nat
  tag : BitVec 16
  base : Nat
  len : Nat
  got : Nat
  lastSeen : Bool
  deriving DecidableEq, Repr

/-- What a cluster DMA access waits for: the wake of its bank, a Tidewalk step, a BUSY retry, a parity retry, a sub-bank
that the stream uses (R229, R230, R232, R234, R236), the end of the ac in which it is made while the stream issues (R255), an
earlier write of its writer (R250). -/
inductive HoldWhy where
  | wake | step | busy | parity | subbank | cycle | order
  deriving DecidableEq, Repr

/-- The accepted write that the data of an access belong to. -/
structure LandKey where
  window : BitVec 24
  epoch : BitVec 32
  writer : Nat
  tag : BitVec 16
  deriving DecidableEq, Repr

/-- A read request that waits: who asked, the window's EPOCH when it was accepted, whether its read meets a parity error,
and after how many segments the window toggles (R232, R252). -/
structure HeldRead where
  via : Via
  r : ReadReq
  epoch : BitVec 32
  parityErr : Bool
  after : Option Nat
  deriving DecidableEq, Repr

/-- A cluster DMA access that waits: bytes to write, with the write or the DMAH they belong to, or a read request to
answer. `since` is the tile's cycle in which it last tried, and `first` the one in which it first waited. -/
structure HeldAccess where
  why : HoldWhy
  addr : Nat
  len : Nat
  data : List Byte
  tries : Nat
  land : Option LandKey
  req : Option HeldRead
  op : Option Nat := none
  since : Nat := 0
  first : Nat := 0
  deriving DecidableEq, Repr

/-- An open test window (R157). -/
structure Twin where
  macros : BitVec 16
  spbanks : BitVec 4
  stopAt : Nat
  deriving DecidableEq, Repr

/-- A Tidewalk step in progress: its region, the cycle in which it started and the saved contents (R431). -/
structure TwStep where
  region : Nat
  start : Nat
  saved : List (Nat × BitVec 144)
  failed : Bool
  freezes : Bool
  deriving DecidableEq, Repr

/-- What the sequencer is doing (R132). -/
inductive SeqSt where
  | idle | issuing | waiting | frozen | stopped
  deriving DecidableEq, Repr

/-- Why the sequencer waits (R132). -/
inductive WaitWhy where
  | none | rdv | credit | gate | bank
  deriving DecidableEq, Repr

/-- The sequencer (R124 to R133). `ac` counts unfrozen ac from the tile's first issue: it is the cycle of the
next issue; the cycle word is `ac` plus the frozen ac. `waitFrom` is the cycle in which a wait began. A parity replay keeps
the scratchpad word it reads again (none for a fetch), the tags of the reading micro-op, and what the sequencer did before
(R126). -/
structure Seq where
  st : SeqSt := .idle
  why : WaitWhy := .none
  waitArg : BitVec 11 := 0
  waitFrom : Nat := 0
  waitK : BitVec 8 := 0
  pc : BitVec 12 := 0
  start : BitVec 12 := 0
  layer : BitVec 16 := 0
  opid : BitVec 16 := 0
  ac : Nat := 0
  ahead : Nat := 0
  frozen : Nat := 0
  soft : Bool := true
  started : Bool := false
  done : Bool := false
  overBudget : Bool := false
  parTries : Nat := 0
  parWord : Option Nat := none
  parIds : Ids := { layer := 0xFFFF, opid := 0xFFFF }
  parBack : SeqSt := .issuing
  waitUop : Option (BitVec 128) := none
  parity : BitVec 8 := 0
  chkReplay : BitVec 8 := 0
  wake : BitVec 8 := 0
  twalk : BitVec 8 := 0
  deriving DecidableEq, Repr

/-- A completion counter (R130). -/
structure Counter where
  issued : BitVec 16 := 0
  done : BitVec 16 := 0
  deriving DecidableEq, Repr

/-- The numeric status word (R102). -/
structure NumSt where
  bound : Bool := false
  expmiss : Bool := false
  ovf : Bool := false
  nonfin : Bool := false
  sat : Bool := false
  satCount : BitVec 11 := 0
  firstLayer : BitVec 16 := 0xFFFF
  deriving DecidableEq, Repr

/-- The check status word (R117). -/
structure CheckSt where
  replayOk : BitVec 8 := 0
  replayFail : BitVec 8 := 0
  lastKind : Bool := false
  storePar : Bool := false
  lastMacro : BitVec 4 := 0
  deriving DecidableEq, Repr

/-- What a verify was started with (R218, R219). -/
structure VerifyRun where
  compare : Bool := false
  rec17 : Bool := false
  role : BitVec 1 := 0
  mac : BitVec 4 := 0
  rstride : BitVec 16 := 0
  addr : BitVec 39 := 0
  deriving DecidableEq, Repr

/-- The weight verify words (R218 to R221). `held` is a START not yet running, and `run` what the verify in hand was started
with. -/
structure Verify where
  busy : Bool := false
  held : Bool := false
  done : Bool := false
  compare : Bool := false
  rec17 : Bool := false
  role : BitVec 1 := 0
  mac : BitVec 4 := 0
  rstride : BitVec 16 := 0
  addr : BitVec 39 := 0
  diffRows : BitVec 9 := 0
  parRows : BitVec 9 := 0
  any : Bool := false
  err : Bool := false
  firstRow : BitVec 8 := 0
  diff : Store Word := []
  run : VerifyRun := {}
  deriving DecidableEq, Repr

/-- The weight parity status word (R222). -/
structure WpSt where
  twErr : BitVec 8 := 0
  ldErr : BitVec 8 := 0
  lastSrc : BitVec 1 := 0
  lastPhys : BitVec 1 := 0
  lastMacro : BitVec 4 := 0
  lastWord : BitVec 2 := 0
  lastRow : BitVec 8 := 0
  deriving DecidableEq, Repr

/-- The Tidewalk status word (R434). -/
structure TwSt where
  spFault : Bool := false
  bkFault : Bool := false
  parFound : BitVec 8 := 0
  next : Nat := 0
  deriving DecidableEq, Repr

/-- The tile repair word (R22). A logical tile's TILE_PHYS follows the cluster's map (R21). -/
structure RepairSt where
  field : Bool := false
  retired : BitVec 5 := 16
  chkEvents : BitVec 8 := 0
  deriving DecidableEq, Repr

/-- What a macro of a pass presents: its partials, in ascending row group in BFP mode, and N_out of its bank (R50, R55,
R76). -/
structure MacPres where
  mac : Nat
  nout : Nat
  elems : List Elem
  deriving DecidableEq, Repr

/-- A pass whose presentation waits for the replay of the macros named, what its other macros presented, and its mismatches:
macro, and true for a slice mismatch (R114, R116, R117). -/
structure Replay where
  pass : Pass
  again : List Nat
  miss : List (Nat × Bool)
  good : List MacPres
  deriving DecidableEq, Repr

/-- Bytes that a micro-op in flight writes into scratchpad in cycle `cycle`; they stand from the cycle after (R160). -/
structure LateWrite where
  cycle : Nat
  addr : Nat
  bytes : List (BitVec 8)
  deriving DecidableEq, Repr

/-- A logical tile. `ibufPar` holds the parity bits of the four words of each stored micro-op, `spPar` those parity bits of
scratchpad words that are 1 (R124, R227). `opSeq` numbers the asynchronous micro-ops. `bankSteps` are the Tidewalk steps on
shadow banks that have ended: the macro, the first cycle and the end (R64). -/
structure Tile where
  seq : Seq := {}
  hasImage : Bool := false
  q : Store (BitVec 64) := []
  n : Store (BitVec 20) := []
  ctr : Store Counter := []
  ibuf : Store (BitVec 128) := []
  ibufPar : Store (BitVec 4) := []
  qInit : Store (BitVec 64) := []
  nInit : Store (BitVec 20) := []
  macros : Store Macro := []
  map : Store MapByte := []
  slots : Store Slot := []
  psets : Store PSet := []
  num : NumSt := {}
  check : CheckSt := {}
  stat : Option Stat := none
  statUntil : Nat := 0
  samples : List Sample := []
  passes : List Pass := []
  streams : List Stream := []
  landings : List Landing := []
  replay : List Replay := []
  ops : List AsyncOp := []
  opSeq : Nat := 0
  paths : List PathUse := []
  unitsUntil : Nat := 0
  pageHold : Option (BitVec 1 × Nat × Ids) := none
  late : List LateWrite := []
  sp : List Host.Cell := []
  spPar : Store (BitVec 1) := []
  spBanks : Store SpBankSt := []
  handles : Store (BitVec 128) := []
  epochSeed : Nat := 0
  windows : Store WinSt := []
  writes : List PutWrite := []
  held : List HeldAccess := []
  cur : Store (BitVec 128) := []
  nxt : Store (BitVec 128) := []
  nacks : BitVec 8 := 0
  lastReason : BitVec 8 := 0
  discards : BitVec 16 := 0
  busyCount : Nat := 0
  twin : List Twin := []
  step : Option TwStep := none
  bankSteps : List (Nat × Nat × Nat) := []
  tw : TwSt := {}
  verify : Verify := {}
  wp : WpSt := {}
  repair : RepairSt := {}
  deriving DecidableEq, Repr

/-! ### Clusters, dies, controllers, bands -/

/-- A record of a cluster's trace buffer: its time stamp and its entries, the sync entry first (R469). -/
structure TraceRec where
  ts : Stamp
  entries : List (BitVec 64)
  deriving DecidableEq, Repr

/-- A cluster: its repair word (R23), UNSERVED as the map has it while its band is held OFF (R424), counter block (R465), the
block as it stood before the start cycle at `clearedAt` cleared it (R467), and the trace buffer: the records that the ring has
not accepted, the record being filled, and where the control core stands (R469). -/
structure Cluster where
  field : Bool := false
  retired : BitVec 5 := 16
  unserved : BitVec 16 := 0
  mapped : BitVec 16 := 0
  counters : Store (BitVec 64) := []
  before : Store (BitVec 64) := []
  clearedAt : Option Stamp := none
  trace : List TraceRec := []
  traceOpen : Option TraceRec := none
  tracePc : BitVec 40 := 0
  deriving DecidableEq, Repr

/-- A phase announced by HINT (R384): the partition that announced it, its first ac and its end by that partition's ac clock on
the die, and LEVEL. -/
structure Phase where
  part : Option PartId
  first : Nat
  last : Nat
  level : BitVec 4
  deriving DecidableEq, Repr

/-- A heath die: its clock word (R362), droop event, phases, and the root periods by which stretches have lengthened its
cycles (R359). -/
structure Die where
  stretching : Bool := false
  stretchedBy : Nat := 0
  lastResort : BitVec 8 := 0
  stretchEvents : BitVec 16 := 0
  phases : List Phase := []
  deriving DecidableEq, Repr

/-- An HBM controller (R272, R273), and the failed replays of accesses in hand, by address, requester, consumer and
direction (R274). -/
structure Ctrl where
  replayOk : BitVec 8 := 0
  hard : BitVec 8 := 0
  uncorr : BitVec 8 := 0
  wrFail : Bool := false
  logValid : Bool := false
  logWrite : Bool := false
  logReq : BitVec 7 := 0
  logAddr : HbmAddr := 0
  tries : List ((HbmAddr × BitVec 7 × HbmUser × Bool) × Nat) := []
  deriving DecidableEq, Repr

/-- The state of a power domain (R370). -/
inductive DomSt where
  | off | on | ret | switching
  deriving DecidableEq, Repr

/-- A tile band's word (R371), its switch-off order, its drain towards OFF or RET (R368), and the counts of every partition's
ac clock, and last of the clock of tiles without an owner, when it last came to ON (R233). -/
structure Band where
  offCount : BitVec 8 := 0
  retCount : BitVec 8 := 0
  discards : BitVec 16 := 0
  ordered : Bool := false
  orderedAt : Stamp := 0
  draining : Bool := false
  toRet : Bool := false
  onAt : List Nat := []
  deriving DecidableEq, Repr

/-! ### Optics and fabric -/

/-- The position of a bypass switch (R280, R292). -/
inductive SwitchSt where
  | bypass | through | toBypass | toThrough
  deriving DecidableEq, Repr

/-- A frame handed to a port for its line: its class, its virtual channel, the time it was handed over, and its bytes
(R296, R298). -/
structure WireFrame where
  port : PortId
  cls : Nat
  vc : Nat
  at_ : Stamp
  bytes : List Byte
  deriving DecidableEq, Repr

/-- An optical engine (R292), the error word of its fabric engine (R303), whether a replay buffer fault holds it in BYPASS
(R430), whether it holds THROUGH from Ethernet mode until the fabric starts again (R292), and whether the modules of its inputs
report themselves present and fault-free (R278). -/
structure Engine where
  switch : SwitchSt := .bypass
  holdupOk : Bool := false
  ethMode : Bool := false
  laser : BitVec 2 := 2
  l0Ok : Bool := false
  l1Ok : Bool := false
  failovers : BitVec 8 := 0
  bypReason : BitVec 8 := 0
  modeEth : Bool := false
  laserPref : BitVec 1 := 0
  stayBypass : Bool := false
  crcErr : BitVec 8 := 0
  misroute : BitVec 8 := 0
  unreach : BitVec 8 := 0
  linkLost : BitVec 8 := 0
  heldBypass : Bool := false
  ethHeld : Bool := false
  mod0 : Bool := false
  mod1 : Bool := false
  deriving DecidableEq, Repr

/-- A port (R290, R291), its lanes, its partner and its traffic counters (R465). `lastFail` is the stage that last failed;
`fast` tells that the port retrains fast (R285); `queue` holds the frames that wait for it to come up again (R299); `txpwr` is its own launch power and `rxLoss` its RXLOSS (R288); `form` is the
form of an Ethernet port (R293). -/
structure Port where
  st : BitVec 2 := 0
  stage : BitVec 3 := 0
  eth : Bool := false
  miswire : Bool := false
  dupnum : Bool := false
  spareFor : BitVec 4 := 0xF
  lanes : BitVec 4 := 0
  laneSwaps : BitVec 8 := 0
  retrains : BitVec 8 := 0
  rtt : BitVec 16 := 0
  length : BitVec 16 := 0
  spanLoss : BitVec 8 := 0
  margin : BitVec 8 := 0
  bypassMax : BitVec 4 := 0
  rxpwr : BitVec 8 := 0
  laneMap : List (Fin 9) := []
  failures : Nat := 0
  lastFail : BitVec 3 := 0
  fast : Bool := false
  txpwr : BitVec 8 := 0
  rxLoss : BitVec 8 := 0xFF
  form : Fin 3 := 0
  partner : Option CapRec := none
  lastBeaconTx : Stamp := 0
  lastBeaconRx : Stamp := 0
  queue : List WireFrame := []
  bytes : Store (BitVec 64) := []
  deriving DecidableEq, Repr

/-- A gate group (R309, R314). `eventAt` is the last source event that the device knows of, and `gap` the ns between the last
two (R377). -/
structure Group where
  role : BitVec 2 := 0
  waiting : Bool := false
  late : Bool := false
  leader : BitVec 8 := 0
  members : List (BitVec 8) := []
  ready : List (BitVec 8 × BitVec 32) := []
  frame : BitVec 32 := 0
  missed : Nat := 0
  fired : Bool := false
  firedAt : Stamp := 0
  t0 : Stamp := 0
  eventAt : Stamp := 0
  gap : Nat := 0
  deriving DecidableEq, Repr

/-- The route to a device: its segments (R301, R302). -/
abbrev Route := List (BitVec 16)

/-! ### Messages and events -/

/-- An entry of the neighbour cache: the link, the address and its MAC address, when it was last confirmed, and since when it is
being probed (R304). -/
structure Neighbour where
  link : Nat
  addr : BitVec 128
  mac : BitVec 48
  seen : Stamp
  probed : Option Stamp
  deriving DecidableEq, Repr

/-- Where a message goes. -/
inductive Dest where
  | device (d : BitVec 8)
  | group (g : GroupId)
  | ring (e : EngineId)
  | partner (p : PortId)
  | slot (p : PartId) (s : HostSlot)
  | ecat
  | link (n : Nat)
  | tile (t : TileId)
  | unit (src : BitVec 24)
  | via (v : Via)
  | firmware
  | tap
  deriving DecidableEq, Repr

/-- A message the device sends (R297, R336, R304). -/
inductive Msg where
  | put (h : PutHdr) (urgent : Bool) (data : List Byte)
  | ack (window : BitVec 24) (epoch : BitVec 32) (tag : BitVec 16)
  | nack (window : BitVec 24) (epoch : BitVec 32) (tag : BitVec 16) (reason : BitVec 8) (detail : BitVec 32)
  | grant (g : GrantMsg)
  | readSeg (r : ReadSeg) (data : List Byte)
  | ready (m : ReadyMsg)
  | fire (m : FireMsg)
  | arrival (m : ArrivalMsg)
  | cancel (m : ArrivalMsg)
  | announce (a : Announcement)
  | alert (m : AlertMsg)
  | stop (m : StopMsg)
  | beacon (b : Beacon)
  | trace (data : List Byte)
  | dict (reply : List Byte)
  | sdo (abort : BitVec 32) (data : List Byte)
  | foe (error : BitVec 16) (data : List Byte)
  | emergency (code : BitVec 16) (src : BitVec 24)
  | txpdo (data : List Byte)
  | forward (frame : List Byte)
  | deliver (ty : BitVec 8) (payload : List Byte)
  | neighbour (addr : BitVec 128)
  | solicit (addr : BitVec 128)
  | echoReply (addr : BitVec 128)
  | jtag (data : BitVec 64)
  | registerValue (value : BitVec 128)
  | capability (record : List Byte)
  | badAccesses (l : List HbmAddr)
  deriving DecidableEq, Repr

/-- An event (R462, R463). `part` is the partition whose ring records it. -/
structure EvRec where
  code : BitVec 16
  cls : BitVec 3
  src : BitVec 24
  ts : Stamp
  layer : BitVec 16
  opid : BitVec 16
  frame : BitVec 32
  part : Option PartId
  detail : List Byte
  deriving DecidableEq, Repr

/-! ### The dictionary -/

/-- The result record of a commit (R333). -/
structure CommitRes where
  seq : BitVec 32 := 0
  status : BitVec 16 := 0
  gen : BitVec 32 := 0
  frame : BitVec 32 := 0
  index : BitVec 32 := 0
  short : BitVec 64 := 0
  deriving DecidableEq, Repr

/-- An accepted commit that waits for its boundary (R331, R332): entries are keys and values. -/
structure PendCommit where
  seq : BitVec 32
  writer : Writer
  set : List (Nat × Nat)
  deriving DecidableEq, Repr

/-- The staging of an area (R330 to R334), the snapshot of the last frame boundary, and that of the last 1 ms tick. -/
structure Area where
  staged : List (Writer × List (Nat × Nat)) := []
  queue : List PendCommit := []
  seq : BitVec 32 := 0
  results : List (Writer × CommitRes) := []
  snap : Store Nat := []
  snapTag : BitVec 64 := 0
  tick : Store Nat := []
  tickTag : BitVec 64 := 0
  deriving DecidableEq, Repr

/-- LastAbort and LastReadSnapshot of a writer (R344, R348). -/
structure WriterSt where
  reason : BitVec 8 := 0
  index : BitVec 32 := 0
  bit : BitVec 16 := 0
  snap : BitVec 64 := 0
  kind : BitVec 8 := 0
  deriving DecidableEq, Repr

/-! ### Images -/

/-- A section entry of a manifest (R187). -/
structure Sect where
  ty : BitVec 16
  variant : BitVec 8
  sflags : BitVec 8
  target : BitVec 32
  offset : BitVec 64
  length : BitVec 64
  digest : List Byte
  iv : List Byte
  tag : List Byte
  deriving DecidableEq, Repr

/-- The manifest of an image and what admission derived from it (R186, R201). -/
structure Image where
  imageId : BitVec 128 := 0
  version : BitVec 32 := 0
  line : BitVec 8 := 0
  svn : BitVec 8 := 0
  commitSvn : Bool := false
  encrypted : Bool := false
  variants : BitVec 3 := 0
  entryBase : Nat := 0
  nominal : List (BitVec 32) := []
  deadline : BitVec 32 := 0
  reserve : BitVec 16 := 0
  overrun : BitVec 8 := 0
  digest : List Byte := []
  claims : Store Nat := []
  sections : List Sect := []
  points : List (BitVec 128) := []
  grants : List (BitVec 128) := []
  descs : List (BitVec 256) := []
  deriving DecidableEq, Repr

/-- A shortfall entry (R198). -/
structure Short where
  code : BitVec 16
  byte2 : BitVec 8
  claimed : BitVec 64
  available : BitVec 64
  short : BitVec 64
  deriving DecidableEq, Repr

/-- The admission result (R197). -/
structure AdmResult where
  status : BitVec 16 := 0
  stage : BitVec 8 := 0
  eligible : BitVec 3 := 0
  sect : BitVec 32 := 0
  offset : BitVec 64 := 0
  bit : BitVec 8 := 0
  locus : BitVec 8 := 0
  loadNs : BitVec 64 := 0
  shorts : List Short := []
  deriving DecidableEq, Repr

/-- A running admission (R193, R200): it waits at stage 8 for a band's self-test, or for its load. -/
structure Admission where
  atStage8 : Bool
  image : Image
  eligible : BitVec 3
  deriving DecidableEq, Repr

/-- An accepted enrolment that waits for the boundary of its partition, and the partition whose area held the record
(R404). -/
structure Enrolment where
  rsa : BitVec 384
  slh : BitVec 384
  seq : BitVec 32
  asker : PartId
  deriving DecidableEq, Repr

/-! ### Partitions -/

/-- Why a macro is to be repaired before ready: a checksum event on it (R116); a failed Tidewalk step (R433); an event on a slice pair, whose primary it is or not, with
the other macro's key, whether that one's read-back has found a difference, and whether another event names the macro by itself
(R116); findings of a verify, the columns of
both banks and whether a parity error was found without COMPARE (R224); the banks whose write failed once (R510). -/
inductive RepairWhy where
  | checksum
  | march
  | pair (primary : Bool) (other : Nat) (found : Option Bool) (alone : Bool)
  | verify (cols0 cols1 : List Nat) (blind : Bool)
  | rewrite (banks : List (BitVec 1))
  deriving DecidableEq, Repr

/-- A repair that waits: the macro's key, 16 times the tile's number and the macro, and its cause. -/
structure RepairDue where
  key : Nat
  why : RepairWhy
  deriving DecidableEq, Repr

/-- The state of a partition (R328). -/
inductive PartSt where
  | disabled | empty | loading | idle | running | halted | resetting
  deriving DecidableEq, Repr

/-- The frame in progress (R178, R182, R439, R444). `stretchA` and `stretchB` are the root periods by which the two dies
had been stretched at its start cycle. -/
structure FrameRun where
  active : Bool := false
  ts : Stamp := 0
  marked : Bool := false
  cause : BitVec 4 := 0
  causeLayer : BitVec 16 := 0xFFFF
  monitor : Bool := false
  raised : Bool := false
  replayed : Bool := false
  corrected : Bool := false
  stretched : Bool := false
  overrun : Bool := false
  cancelled : Bool := false
  action : BitVec 2 := 0
  overBudget : Nat := 0
  missed : Nat := 0
  tilesDone : List Nat := []
  lastDone : Stamp := 0
  stopped : Bool := false
  stretchA : Nat := 0
  stretchB : Nat := 0
  deriving DecidableEq, Repr

/-- The counts of a rendezvous point for the current frame (R175), the times on each die's stretched clock before which no wait
at it completes, in half root periods from T_s (R174), and the devices whose arrivals it counted. -/
structure Point where
  locals : Nat := 0
  remotes : Nat := 0
  doneA : Nat := 0
  doneB : Nat := 0
  reached : Bool := false
  cancelled : Bool := false
  arrived : List (BitVec 8) := []
  deriving DecidableEq, Repr

/-- The Strandline ring's words (R460, R461), when R459 last dropped a record, and the loss in hand (R464). -/
structure Strand where
  rdptr : BitVec 28 := 0
  wrptr : BitVec 28 := 0
  dropped : BitVec 16 := 0
  full : Bool := false
  capHeld : Bool := false
  rateAt : Option Stamp := none
  seq : BitVec 32 := 0
  lossCount : BitVec 32 := 0
  lossReasons : BitVec 8 := 0
  lossFirst : Stamp := 0
  lossLast : Stamp := 0
  deriving DecidableEq, Repr

/-- An ac clock (R3, R355): the ac counted until the divider last restarted or changed, and the die's clock then, in half root
periods. -/
structure AcClock where
  count : Nat := 0
  since : Nat := 0
  deriving DecidableEq, Repr

/-- The largest 1 ms means of a partition's band supplies in one frame, by die in mW, with the frame, its setting and the
compute rails then (R375). -/
structure BandMeas where
  frame : BitVec 32 := 0
  div2 : Nat := 16
  cls : Nat := 0
  mv : Nat × Nat := (750, 750)
  arr : Nat × Nat := (0, 0)
  log : Nat × Nat := (0, 0)
  deriving DecidableEq, Repr

/-- A partition. `clockA` and `clockB` are the ac clocks of its clusters on the two dies; `planDiv2` and `planCls` are the
setting that power control chose (R374), `passed` the source events since its last gate and `fireK` the divide factor of the
frame in force (R380), `meas` the last 16 frames measured at one setting, newest first (R375). `unacked`: a fault of class
frame-aborting or above has met no re-arm or reset since (R347). `guestFailed`: its guest failed to boot (R322). -/
structure Part where
  st : PartSt := .disabled
  ready : Bool := false
  readyFrame : BitVec 32 := 0
  cls : BitVec 2 := 0
  wantCls : BitVec 2 := 0
  ff : Bool := false
  div2 : BitVec 8 := 16
  nextDiv2 : BitVec 8 := 16
  armDiv2 : BitVec 8 := 16
  clockA : AcClock := {}
  clockB : AcClock := {}
  gen : BitVec 32 := 0
  frame : BitVec 32 := 0
  lastFrame : BitVec 32 := 0
  run : FrameRun := {}
  armed : Bool := false
  startAt : Stamp := 0
  pendingMissed : Nat := 0
  statusRec : BitVec 128 := 0xFFFFFFFF
  timingRec : BitVec 128 := 0
  lastClass : BitVec 3 := 0
  unacked : Bool := false
  lastCause : BitVec 4 := 0
  dumpHeld : Bool := false
  withheld : BitVec 8 := 0
  minor : BitVec 16 := 0
  lastAlert : Option AlertMsg := none
  kind4 : Option AlertMsg := none
  alertCount : BitVec 32 := 0
  overBudgetCount : BitVec 32 := 0
  ownerRsa : BitVec 384 := 0
  ownerSlh : BitVec 384 := 0
  ownerSeq : BitVec 32 := 0
  result : AdmResult := {}
  admission : Option Admission := none
  loadAsked : Bool := false
  readmit : Bool := false
  image : Option Image := none
  eligible : BitVec 3 := 0
  fromZero : Bool := false
  copyLost : Bool := false
  refillTries : Nat := 0
  points : Store Point := []
  area : Area := {}
  planDiv2 : BitVec 8 := 16
  planCls : BitVec 2 := 0
  meas : List BandMeas := []
  skipK : BitVec 4 := 0
  fireK : BitVec 4 := 0
  passed : Nat := 0
  skipFrom : Stamp := 0
  capHalt : Bool := false
  predictW : BitVec 16 := 0
  energy : Store (BitVec 64) := []
  strand : Strand := {}
  batch : List (List Byte) := []
  guestBooted : Bool := false
  guestFailed : Bool := false
  boundaryDue : Bool := false
  residents : List Nat := []
  repairs : List RepairDue := []
  retire : List Nat := []
  dlLen : Nat := 0
  pageReload : List Nat := []
  restoreDue : List Nat := []
  restoreFailed : List Nat := []
  verifyAt : Stamp := 0
  verifyTile : Nat := 0
  verifyFrame : Option (BitVec 32) := none
  layoutNew : Option Nat := none
  enrolDue : Option Enrolment := none
  rearmDue : Bool := false
  slackStopped : Bool := false
  channel : List Msg := []
  chanDropped : BitVec 16 := 0
  graphRec : List Byte := []
  deriving DecidableEq, Repr

/-! ### The device -/

/-- Where the device stands between power and service (R420, R421, R426, R447): in `ebb` an orderly shutdown waits for the last
frame and tests, in `ebbWrite` the record is being written. -/
inductive PhaseSt where
  | inReset | loader | service | ebb | ebbWrite | shutDown | fatal | startFatal
  deriving DecidableEq, Repr

/-- The start status word (R425). -/
structure StartWord where
  record : BitVec 4 := 0
  post : Bool := false
  resumed : Bool := false
  held : Bool := false
  cause : BitVec 3 := 0
  failmap : BitVec 30 := 0
  deriving DecidableEq, Repr

/-- A row of the life-cycle journal (R396), with the installation digests that its transition writes (R409, R411). -/
structure JournalRow where
  target : BitVec 3
  complete : Bool
  keys : BitVec 384 × BitVec 384 := (0, 0)
  deriving DecidableEq, Repr

/-- The OTP fields the island reads (R396), the MAC addresses of the ports (R304), and the factory layer, which is locked before
PROVISIONED (R409). `raise` is the write of an image SVN counter in hand. -/
structure Otp where
  rootSecret : BitVec 256 := 0
  kill : Bool := false
  vendorRsa : BitVec 384 := 0
  vendorSlh : BitVec 384 := 0
  inst : List (BitVec 384 × BitVec 384) := []
  journal : List JournalRow := []
  fwSvn : BitVec 6 := 0
  imgSvn : Store (BitVec 6) := []
  serial : BitVec 32 := 0
  macs : Store (BitVec 48) := []
  hwVersion : List Byte := []
  raise : Option (Nat × BitVec 6) := none
  factory : Factory := {}
  mapLocked : Bool := false
  deriving DecidableEq, Repr

/-- The state of a firmware slot (R400). -/
inductive SlotMark where
  | empty | written | trial | good | invalid
  deriving DecidableEq, Repr

/-- A firmware slot (R400): its mark, when it was marked good, whether its write has ended, its bytes, and the MISR signatures
that its firmware carries by domain (R427). -/
structure FwSlot where
  mark : SlotMark := .empty
  order : Nat := 0
  ended : Bool := false
  bytes : List Host.Cell := []
  len : Nat := 0
  misr : Store (BitVec 64) := []
  deriving DecidableEq, Repr

/-- The device identity keys in flash: the public parts, the wrapped private parts, and the vendor's endorsement (R395, R406). -/
structure IdKeys where
  rsaPub : List Byte
  slhPub : List Byte
  wrapped : List Byte
  endorsement : List Byte := []
  deriving DecidableEq, Repr

/-- How a NOR flash is read (R500). -/
inductive NorMode where
  | single | octal
  deriving DecidableEq, Repr

/-- A NOR flash on its bus: whether SFDP has been read, and the mode it is read in (R500). -/
structure Nor where
  found : Bool := false
  mode : NorMode := .single
  deriving DecidableEq, Repr

/-- What both flashes hold (R343, R395, R400, R448), the two copies of the Ebb record and of the operating-time counter (R422), and
how each flash is read (R500). -/
structure Flash where
  slotA : FwSlot := { mark := .good, order := 1 }
  slotB : FwSlot := {}
  ebb0 : List Byte := []
  ebb1 : List Byte := []
  opMin0 : Nat := 0
  opMin1 : Nat := 0
  dict : Store Nat := []
  faultRecord : List Byte := []
  identity : Option IdKeys := none
  nor0 : Nor := {}
  nor1 : Nor := {}
  deriving DecidableEq, Repr

/-- The island's secure SRAM (R393): the device HMAC key and the wrap key that the start derives, the unwrapped identity private
keys, the model keys of the partitions in stage 9 (R405), the measurement log as last entered (R407), and the partition whose
record asked for the transition in progress. -/
structure Sram where
  hmacKey : Option (List Byte) := none
  wrapKey : Option (List Byte) := none
  identity : Option (List Byte) := none
  modelKeys : Store (List Byte) := []
  log : List (List Byte) := []
  asker : Option PartId := none
  deriving DecidableEq, Repr

/-- The security island's status (R415), and its secure SRAM. -/
structure Island where
  tamper : Bool := false
  tsrc : BitVec 5 := 0
  debug : Bool := false
  slot : BitVec 1 := 0
  trial : Bool := false
  sram : Sram := {}
  deriving DecidableEq, Repr

/-- The EtherCAT controller (R337, R346): `dc` is the SYNC0 cycle in ns while Distributed Clocks are activated (R336), and
`txDue` tells that the event after which the TxPDO is filled has come (R338). -/
structure Ecat where
  st : EcatState := .init
  err : Bool := false
  al : BitVec 16 := 0
  dc : Option (BitVec 32) := none
  txDue : Bool := false
  rxSeq : Store Nat := []
  deriving DecidableEq, Repr

/-- The pins the device drives (R493, R500). A field that names a low pin is true while the device drives it low. -/
structure Pins where
  alertLow : Bool := false
  slackLow : Bool := false
  frameOut : Bool := false
  bypEn : Bool := false
  stepA : Bool := false
  stepB : Bool := false
  shdnDone : Bool := false
  flashRstLow : Bool := true
  deriving DecidableEq, Repr

/-- The alert status word (R456), the end of the pulse (R450), the alerts inside clusters (R451). -/
structure Alert where
  fatal : Bool := false
  suppressed : BitVec 8 := 0
  alerts : BitVec 16 := 0
  pulseEnd : Stamp := 0
  inCluster : List (Nat × AlertMsg) := []
  deriving DecidableEq, Repr

/-- The Slack status word (R478) and the stop in hand (R474, R476). -/
structure Slack where
  stopped : Bool := false
  origin : Bool := false
  trigger : BitVec 3 := 0
  scanning : Bool := false
  late : Bool := false
  parts : BitVec 8 := 0
  stops : BitVec 8 := 0
  pending : Bool := false
  stopid : BitVec 32 := 0
  originDev : BitVec 8 := 0
  originT : Stamp := 0
  ownT : Stamp := 0
  stopA : Stamp := 0
  stopB : Stamp := 0
  adopted : Bool := false
  awaitId : Bool := false
  noCapture : BitVec 8 := 0
  seq : BitVec 24 := 0
  seen : List (BitVec 32) := []
  after : Option (Option PartId × BitVec 8 × BitVec 24) := none
  deriving DecidableEq, Repr

/-- A supply rail's regulator (R501, R502): last power in mW, cycles without an answer, last status word. -/
structure Rail where
  power : Nat := 0
  missed : Nat := 0
  status : BitVec 16 := 0
  deriving DecidableEq, Repr

/-- Power control (R373 to R382), with what the last tick measured: per partition and die the array and the logic
supply, and every other rail. Powers in mW. -/
structure Power where
  capState : BitVec 2 := 0
  action : BitVec 2 := 0
  boostOk : Bool := false
  floorW : BitVec 16 := 0
  samples : List Nat := []
  overTicks : Nat := 0
  underSince : Option Stamp := none
  effCap : Option Nat := none
  effSince : Stamp := 0
  warnedAt : Option Stamp := none
  sram : List Nat := []
  logic : List Nat := []
  other : Nat := 0
  floorSince : Option Stamp := none
  deriving DecidableEq, Repr

/-- A thermal status word (R389), whether 16 or 4 sensors have failed, and since when it is cool. -/
structure Thermal where
  hot : BitVec 8 := 0
  throttle : Bool := false
  tripped : Bool := false
  failed : BitVec 6 := 0
  maxTemp : BitVec 16 := 0
  stuck : Bool := false
  coolSince : Option Stamp := none
  deriving DecidableEq, Repr

/-- The root clock status word (R361). -/
structure RootClk where
  rootLock : Bool := false
  refOk : Bool := false
  lockA : Bool := false
  lockB : Bool := false
  refPpm : BitVec 8 := 0
  deriving DecidableEq, Repr

/-- The device watchdog (R419). -/
structure Watchdog where
  running : Bool := false
  paused : Bool := false
  restartedAt : Stamp := 0
  deriving DecidableEq, Repr

/-- A fatal dump in the dump area (R448, R449). -/
structure Dump where
  cls : BitVec 8
  parts : BitVec 8
  source : BitVec 24
  detail : BitVec 8
  complete : Bool
  flashOnly : Bool
  dropped : BitVec 16
  ts : Stamp
  frames : List (BitVec 32)
  waiting : BitVec 8
  deriving DecidableEq, Repr

/-- The block. `wire` holds the frames handed to each port's line, in that order (R296, R298), and `datagrams` those of the transport
datagrams that left for each slot (R305); `transients` and `rowRepairs` are what
firmware recorded of HBM errors (R271), and `hardRepairs` the accesses that hard post-package repairs have mended (R408); `testing`
tells that the logic self-test of a shutdown runs (R427); `coreMap` names the spare that serves a retired core, or 31 for none, and `coreSpares`
counts the spares taken (R18, R318); `obsBytes` counts the observation bytes of millisecond `obsWindow` (R459). -/
structure State where
  pending : List Instr := []
  now : Stamp := 0
  devNum : BitVec 8 := 0
  freeCtr : Nat := 0
  epochBase : Nat := 0
  tagCtr : BitVec 16 := 0
  sent : List (Dest × Msg) := []
  wire : List WireFrame := []
  datagrams : List (PartId × HostSlot × List Byte) := []
  discarded : Nat := 0
  events : List EvRec := []
  phase : PhaseSt := .inReset
  startWord : StartWord := {}
  tiles : Store Tile := []
  clusters : Store Cluster := []
  dies : Store Die := []
  ctrls : Store Ctrl := []
  bands : Store Band := []
  domains : Store DomSt := []
  engines : Store Engine := []
  ports : Store Port := []
  groups : Store Group := []
  parts : Store Part := []
  hbm : List Host.Cell := []
  badAccess : List HbmAddr := []
  hardNow : List (HbmAddr × Bool) := []
  transients : List HbmAddr := []
  rowRepairs : List (List HbmAddr) := []
  hardRepairs : List HbmAddr := []
  testing : Bool := false
  rootClk : RootClk := {}
  watchdog : Watchdog := {}
  alert : Alert := {}
  slack : Slack := {}
  pins : Pins := {}
  power : Power := {}
  rails : Store Rail := []
  thermal : Store Thermal := []
  residual : Store (BitVec 64) := []
  dump : Option Dump := none
  otp : Otp := {}
  flash : Flash := {}
  island : Island := {}
  dict : Store Nat := []
  devArea : Area := {}
  writers : List (Writer × WriterSt) := []
  ecat : Ecat := {}
  mapping : Store Nat := []
  neighbours : List Neighbour := []
  unresolved : List (BitVec 128 × Nat) := []
  reads : List (BitVec 24 × BitVec 16) := []
  routes : Store Route := []
  pathNs : Store Nat := []
  topology : Store Announcement := []
  topoSeq : BitVec 32 := 0
  topoSeen : List (BitVec 8 × BitVec 32) := []
  fabricUp : Bool := false
  lasersOn : BitVec 16 := 0
  jtagOpen : Bool := false
  coreMap : Store Nat := []
  coreSpares : Nat := 0
  obsWindow : Nat := 0
  obsBytes : Nat := 0
  lastTick : Stamp := 0
  opSince : Stamp := 0
  deriving DecidableEq, Repr

/-- The machine right after a power-on reset, before the start sequence: every unit at its reset value, flash
and OTP as log entry 15 states, memory with nothing listed. FrameStatus reads the reset value of R444.
DEDUCED: log 198. -/
def State.reset : State := {}

end Sys2Proof.Machine
end

