-- ==== Sys2Proof/Machine/Entries.lean ====
section
/-! DEFINITION. The entries of the object dictionary (R347 to R349): size, access by role, bounds, PDO mapping and
default, and reading a value in force. A key is 256 times the index plus the sub-index. -/

namespace Sys2Proof.Machine

/-- An access character of R341; `full` is every access, which vendor firmware has. -/
inductive Acc where
  | w | r | x | c | no | full
  deriving DecidableEq, Repr

/-- An entry: bytes, access of E, O, H and V, whether it may be mapped, bounds, listed values (none when every value
in bounds is allowed), mask of reserved bits, default, and whether the default is the image's (R343). -/
structure Ent where
  size : Nat
  acc : Acc × Acc × Acc × Acc
  pdo : Bool := false
  lo : Nat := 0
  hi : Nat
  listed : List Nat := []
  rsvd : Nat := 0
  dflt : Nat := 0
  image : Bool := false
  deriving DecidableEq, Repr

/-- Every role reads. -/
def accRrrr : Acc × Acc × Acc × Acc := (.r, .r, .r, .r)

/-- E writes, every role reads. -/
def accWrrr : Acc × Acc × Acc × Acc := (.w, .r, .r, .r)

/-- E and O write. -/
def accWwrr : Acc × Acc × Acc × Acc := (.w, .w, .r, .r)

/-- E, O and H write. -/
def accWwwr : Acc × Acc × Acc × Acc := (.w, .w, .w, .r)

/-- E, O and H read; no access for V. -/
def accRrrn : Acc × Acc × Acc × Acc := (.r, .r, .r, .no)

/-- An unsigned entry of `n` bytes with its whole range. -/
def uns (n : Nat) (acc : Acc × Acc × Acc × Acc) (dflt : Nat := 0) (pdo : Bool := false) : Ent :=
  { size := n, acc, hi := 2 ^ (8 * n) - 1, dflt, pdo }

/-- An unsigned entry of `n` bytes limited to a range. -/
def rng (n : Nat) (acc : Acc × Acc × Acc × Acc) (lo hi dflt : Nat) (pdo : Bool := false) : Ent :=
  { size := n, acc, lo, hi, dflt, pdo }

/-- The reserved bits of a layout record (R323). -/
def layoutRsvd : Nat := 0xFFFFFFFE + 3 * 2 ^ 126 + (2 ^ 80 - 1) * 2 ^ 176

/-- The default of layout record 0 (R348). -/
def layout0 : Nat :=
  1 + 0xFFFFFFFF * 2 ^ 32 + (2 ^ 62 - 1) * 2 ^ 64 + 0xF * 2 ^ 128 + 0xFFFF * 2 ^ 144 + 0xFFFF * 2 ^ 160

/-- An entry of the communication area (R347). -/
def commEntry (index sub : Nat) : Option Ent :=
  match index, sub with
  | 0x1000, 0 => some (uns 4 accRrrr)
  | 0x1001, 0 => some (uns 1 accRrrr 0 true)
  | 0x1008, 0 => some (uns 8 accRrrr 0x303036392D584E46)
  | 0x1009, 0 => some (uns 8 accRrrr)
  | 0x100A, 0 => some (uns 16 accRrrr)
  | 0x1018, 1 => some (uns 4 accRrrr 0x00000E91)
  | 0x1018, 2 => some (uns 4 accRrrr 0x00009600)
  | 0x1018, 3 => some (uns 4 accRrrr 0x00010000)
  | 0x1018, 4 => some (uns 4 accRrrr)
  | 0x1C12, 0 => some (uns 2 accWrrr 1)
  | 0x1C12, 1 => some (uns 2 accWrrr 0x1600)
  | 0x1C13, 0 => some (uns 2 accWrrr 1)
  | 0x1C13, 1 => some (uns 2 accWrrr 0x1A00)
  | 0x1C32, 1 => some (rng 2 accWrrr 0 3 0)
  | 0x1C32, 2 => some (uns 4 accRrrr)
  | 0x1C33, 1 => some (rng 2 accWrrr 0 3 0)
  | 0x1C33, 2 => some (uns 4 accRrrr)
  | _, _ =>
    if index = 0x1600 ∨ index = 0x1A00 then
      if sub = 0 then some (rng 1 accWrrr 0 64 0) else if sub ≤ 64 then some (uns 4 accWrrr) else none
    else if index = 0x1C00 then (if 1 ≤ sub ∧ sub ≤ 4 then some (uns 1 accRrrr sub) else none)
    else none

/-- An entry of the device area (R348). -/
def deviceEntry (index sub : Nat) : Option Ent :=
  match index, sub with
  | 0x2000, 1 => some (uns 1 accWrrr)
  | 0x2000, 2 => some (uns 1 accRrrr)
  | 0x2000, 3 => some (uns 1 accRrrr)
  | 0x2010, 1 => some { uns 1 (.x, .no, .no, .no) with listed := [1] }
  | 0x2010, 2 => some (uns 32 (.r, .no, .no, .no))
  | 0x2010, 3 => some (uns 1 (.x, .no, .no, .no) 0 true)
  | 0x2010, 4 => some (uns 32 (.r, .no, .no, .no))
  | 0x2020, 1 => some (uns 1 accRrrr)
  | 0x2020, 2 => some (uns 4 accRrrr)
  | 0x2020, 3 => some (uns 2 accRrrr)
  | 0x2110, 0 => some (uns 1 accWrrr)
  | 0x2240, 1 => some (rng 1 accWrrr 0 1 0)
  | 0x2240, 2 => some (rng 1 accWrrr 0 63 0)
  | 0x2310, 0 => some (rng 1 accWrrr 0 100 15)
  | 0x2320, 0 => some (rng 2 accWrrr 1024 65535 40960)
  | 0x2400, 1 => some (rng 2 accWrrr 300 1200 1200 true)
  | 0x2400, 2 => some (rng 1 accWrrr 0 2 0)
  | 0x2400, 3 => some (uns 2 accRrrr 0 true)
  | 0x2400, 4 => some (uns 2 accRrrr 0 true)
  | 0x2400, 5 => some (uns 2 accRrrr 0 true)
  | 0x2500, 0 => some (uns 4 accWrrr 3600)
  | 0x2F00, 1 => some (uns 8 accRrrr 0 true)
  | 0x2F00, 2 => some (uns 8 accRrrr)
  | 0x2F00, 3 => some (uns 1 accRrrr)
  | _, _ =>
    if 0x2100 ≤ index ∧ index ≤ 0x2107 then
      if sub = 0 then some { uns 32 accWrrr (if index = 0x2100 then layout0 else 0) with rsvd := layoutRsvd } else none
    else if 0x2200 ≤ index ∧ index ≤ 0x223F then
      match sub with
      | 1 => some (rng 1 accWrrr 0 3 0)
      | 2 => some (rng 4 accWrrr 10000 0xFFFFFFFF 10000000)
      | 3 => some (rng 4 accWrrr 4000 1000000 5000)
      | _ => none
    else if 0x2300 ≤ index ∧ index ≤ 0x2307 then
      match sub with
      | 1 => some (rng 1 accWrrr 0 1 0)
      | 2 => some (rng 1 accWrrr 0 1 0)
      | 3 => some (rng 1 accWrrr 0 1 0)
      | _ => none
    else if 0x2330 ≤ index ∧ index ≤ 0x233F then
      if 1 ≤ sub ∧ sub ≤ 8 then some (uns 16 accWrrr) else none
    else none

/-- An entry of a partition view, by its offset in the view (R349). -/
def viewEntry (ofs sub : Nat) : Option Ent :=
  match ofs, sub with
  | 0x00, 1 => some (uns 4 accRrrr 0 true)
  | 0x00, 2 => some (uns 4 accRrrr 0 true)
  | 0x00, 3 => some { uns 1 (.x, .x, .x, .no) 0 true with listed := [1] }
  | 0x08, 1 => some { uns 1 (.x, .x, .x, .no) with listed := [1] }
  | 0x08, 2 => some (uns 32 accRrrn)
  | 0x08, 3 => some (uns 1 (.x, .no, .no, .no) 0 true)
  | 0x08, 4 => some (uns 32 accRrrn)
  | 0x10, 1 => some { rng 4 accWwwr 10000 0xFFFFFFFF 0 true with image := true }
  | 0x10, 2 => some { rng 2 accWwwr 0 5000 0 true with image := true }
  | 0x10, 3 => some { rng 1 accWwwr 0 2 0 true with image := true }
  | 0x10, 4 => some (uns 4 accWwrr 2048)
  | 0x10, 5 => some (rng 4 accWwrr 1 1000000 100)
  | 0x10, 6 => some (rng 1 accWwrr 0 1 0)
  | 0x10, 7 => some { rng 1 accWwrr 14 32 16 with listed := [14, 16, 17, 18, 20, 24, 28, 32] }
  | 0x10, 8 => some (rng 1 accWwrr 0 2 0)
  | 0x10, 9 => some (uns 4 (.c, .c, .c, .no) 0 true)
  | 0x18, 1 => some (rng 1 accWwrr 0 63 0)
  | 0x20, 1 => some { uns 1 (.x, .x, .no, .no) with listed := [1] }
  | 0x20, 2 => some (uns 1696 accRrrr)
  | 0x20, 3 => some (uns 16 accRrrr)
  | 0x20, 4 => some (uns 4 accRrrr)
  | 0x20, 5 => some (uns 1 accRrrr 0 true)
  | 0x40, 1 => some (uns 4 accRrrr 0 true)
  | 0x40, 2 => some (uns 16 accRrrr 0 true)
  | 0x40, 3 => some (uns 16 accRrrr 0 true)
  | 0x40, 4 => some (uns 24 accRrrr 0 true)
  | 0x40, 5 => some (uns 4 accRrrr 0 true)
  | 0x48, 1 => some (uns 8 accRrrr 0 true)
  | 0x50, 1 => some (rng 1 accWwrr 0 3 0)
  | 0x50, 2 => some (rng 4 accWwrr 10 1000000 1000)
  | 0x60, 1 => some (uns 48 accRrrr)
  | 0x60, 2 => some (uns 48 accRrrr)
  | _, _ =>
    if ofs = 0x18 ∧ 2 ≤ sub ∧ sub ≤ 9 then some { uns 4 accWwrr with rsvd := 0x7F000000 }
    else if 0x30 ≤ ofs ∧ ofs ≤ 0x3F then
      match sub with
      | 1 => some (uns 16 accWwrr)
      | 2 => some (uns 2 accWwrr)
      | 3 => some (rng 1 accWwrr 0 3 0)
      | _ => none
    else none

/-- The entry at an index and sub-index, if the tables list it (R340). -/
def entry? (index sub : Nat) : Option Ent :=
  if index < 0x1000 then none
  else if index < 0x2000 then commEntry index sub
  else if index < 0x3000 then deviceEntry index sub
  else if index < 0x3800 then viewEntry (index % 256) sub
  else none

/-- The key of an entry. -/
def dkey (index sub : Nat) : Nat := index * 256 + sub

/-- The key of an entry of partition `p`'s view. -/
def vkey (p : Nat) (ofs sub : Nat) : Nat := dkey (0x3000 + 256 * p + ofs) sub

/-- The default of a key. -/
def dfltOf (k : Nat) : Nat := match entry? (k / 256) (k % 256) with | some e => e.dflt | none => 0

/-- The value in force of a writable entry. -/
def State.dval (s : State) (index sub : Nat) : Nat := Store.get (dfltOf (dkey index sub)) s.dict (dkey index sub)

/-- The value in force of a writable entry of a partition's view. -/
def State.vval (s : State) (p : PartId) (ofs sub : Nat) : Nat := s.dval (0x3000 + 256 * p.val + ofs) sub

/-! ### Layout records (R323) -/

/-- The layout record of a partition. -/
def State.layout (s : State) (p : PartId) : Nat := s.dval (0x2100 + p.val) 0

/-- ENABLE. -/
def State.enabled (s : State) (p : PartId) : Bool := bitN (s.layout p) 0

/-- CLUSTERS. -/
def State.clusterMask (s : State) (p : PartId) : BitVec 32 :=
  if s.enabled p then BitVec.ofNat 32 (fieldN (s.layout p) 63 32) else 0

/-- SLICES, ascending. -/
def State.slices (s : State) (p : PartId) : List Nat :=
  if s.enabled p then onesOf (BitVec.ofNat 62 (fieldN (s.layout p) 125 64)) else []

/-- CORES. -/
def State.coreMask (s : State) (p : PartId) : BitVec 16 :=
  if s.enabled p then BitVec.ofNat 16 (fieldN (s.layout p) 143 128) else 0

/-- VCS. -/
def State.vcMask (s : State) (p : PartId) : BitVec 16 :=
  if s.enabled p then BitVec.ofNat 16 (fieldN (s.layout p) 159 144) else 0

/-- PORTS. -/
def State.portMask (s : State) (p : PartId) : BitVec 16 :=
  if s.enabled p then BitVec.ofNat 16 (fieldN (s.layout p) 175 160) else 0

/-- The eight partitions. -/
def allParts : List PartId := [0, 1, 2, 3, 4, 5, 6, 7]

/-- The cores that partitions have. -/
def State.coresTaken (s : State) : BitVec 16 := allParts.foldl (fun (m : BitVec 16) p => m ||| s.coreMask p) 0

/-- The application core that the hypervisor runs on: the lowest that no partition has, or core 0 (R320). -/
def State.hypervisorCore (s : State) : Nat := ((List.range 16).find? fun c => !s.coresTaken.getLsbD c).getD 0

/-- A core of D24, or with `i` = 1 of D25, is a partition's or the hypervisor's (R318). -/
def State.coreDomUsed (s : State) (i : Nat) : Bool :=
  s.hypervisorCore / 8 == i || (List.range 8).any fun c => s.coresTaken.getLsbD (8 * i + c)

/-- The partition that owns a cluster. -/
def State.owner? (s : State) (c : ClusterId) : Option PartId :=
  allParts.find? fun p => (s.clusterMask p).getLsbD c.val

/-- The cluster of a tile (R16). -/
def clusterOf (t : TileId) : ClusterId := ⟨t.val / 16, by omega⟩

/-- The die of a tile. -/
def dieOf (t : TileId) : DieId := ⟨t.val / 256, by omega⟩

/-- The partition that owns a tile. -/
def State.tileOwner? (s : State) (t : TileId) : Option PartId := s.owner? (clusterOf t)

/-- The tiles of a partition, ascending. -/
def State.tilesOf (s : State) (p : PartId) : List TileId :=
  (List.finRange 512).filter fun t => (s.clusterMask p).getLsbD (clusterOf t).val

/-- The device address of a partition address (R260). -/
def State.devAddr? (s : State) (p : PartId) (a : Nat) : Option Nat :=
  (s.slices p)[a / 2 ^ 32]?.map fun sl => sl * 2 ^ 32 + a % 2 ^ 32

end Sys2Proof.Machine
end

