-- ==== Sys2Proof/Machine/Packet.lean ====
section
/-! DEFINITION. The bytes of what the fabric engines send: the payloads of messages and the frame around them (R254, R288,
R296, R297, R313, R315, R316, R453). -/

namespace Sys2Proof.Machine

/-! ### Payloads -/

/-- A put segment header (R254). -/
def putBytes (h : PutHdr) : List Byte :=
  leBytes 4 h.window.toNat ++ leBytes 4 h.epoch.toNat ++ leBytes 4 h.wofs.toNat ++ leBytes 2 h.wlm1.toNat ++
    leBytes 2 h.grant.toNat ++ leBytes 4 (h.writer.toNat + 2 ^ 24 * b2n h.host) ++ leBytes 2 h.tag.toNat ++
    leBytes 4 h.sofs.toNat ++ leBytes 2 h.slm1.toNat ++ [BitVec.ofNat 8 (b2n h.first + 2 * b2n h.last)] ++ leBytes 3 0

/-- A grant (R254). -/
def grantBytes (g : GrantMsg) : List Byte :=
  leBytes 4 g.window.toNat ++ leBytes 4 g.epoch.toNat ++ leBytes 4 g.frame.toNat ++ leBytes 4 g.lo.toNat ++
    leBytes 4 g.hi.toNat ++ leBytes 2 g.grant.toNat ++ [g.entry.setWidth 8] ++ leBytes 9 0

/-- An ACK (R254). -/
def ackBytes (window : BitVec 24) (epoch : BitVec 32) (tag : BitVec 16) : List Byte :=
  leBytes 4 window.toNat ++ leBytes 4 epoch.toNat ++ leBytes 2 tag.toNat ++ leBytes 6 0

/-- A NACK (R254). -/
def nackBytes (window : BitVec 24) (epoch : BitVec 32) (tag : BitVec 16) (reason : BitVec 8) (detail : BitVec 32) :
    List Byte :=
  leBytes 4 window.toNat ++ leBytes 4 epoch.toNat ++ leBytes 2 tag.toNat ++ [reason, 0] ++ leBytes 4 detail.toNat

/-- The header of a read data segment (R254). -/
def segBytes (r : ReadSeg) : List Byte :=
  leBytes 4 r.window.toNat ++ leBytes 4 r.frame.toNat ++ leBytes 2 r.tag.toNat ++ leBytes 4 r.sofs.toNat ++
    [r.slm1, BitVec.ofNat 8 (b2n r.last)]

/-- A gate ready (R313). -/
def readyBytes (m : ReadyMsg) : List Byte :=
  leBytes 4 m.frame.toNat ++ [BitVec.ofNat 8 m.group.val, BitVec.ofNat 8 (b2n m.data + 2 * b2n m.withdraw)] ++ leBytes 10 0

/-- A gate fire (R313). -/
def fireBytes (m : FireMsg) : List Byte :=
  leBytes 4 m.frame.toNat ++ [BitVec.ofNat 8 m.group.val, m.source.setWidth 8] ++ leBytes 2 m.missed.toNat ++
    leBytes 4 m.lead.toNat ++ leBytes 4 m.corr.toNat ++ leBytes 8 m.tf.toNat ++ leBytes 8 0

/-- A device arrival or cancel arrival (R313). -/
def arrivalBytes (m : ArrivalMsg) : List Byte :=
  leBytes 4 m.frame.toNat ++ leBytes 2 m.rid.toNat ++ [BitVec.ofNat 8 m.group.val] ++ leBytes 9 0

/-- An alert (R453). -/
def alertBytes (m : AlertMsg) : List Byte :=
  leBytes 4 m.frame.toNat ++ leBytes 4 m.src.toNat ++ leBytes 2 m.layer.toNat ++ leBytes 2 m.opid.toNat ++
    leBytes 2 m.channel.toNat ++ [BitVec.ofNat 8 (m.kind.toNat + 8 * b2n m.precommit), m.part.setWidth 8] ++
    leBytes 8 m.ts.toNat

/-- A Slack stop (R315). -/
def stopBytes (m : StopMsg) : List Byte :=
  leBytes 4 m.stopid.toNat ++ [m.origin] ++ leBytes 3 0 ++ leBytes 8 m.target.toNat

/-- A beacon (R316). -/
def beaconBytes (b : Beacon) : List Byte := leBytes 8 b.echoTx.toNat ++ leBytes 8 b.echoRx.toNat ++ [b.portid] ++ leBytes 7 0

/-- A capability record (R288). -/
def capBytes (r : CapRec) : List Byte :=
  leBytes 2 r.fabver.toNat ++ [r.portid.setWidth 8, BitVec.ofNat 8 (r.lanes.toNat + 16 * b2n r.spareOk)] ++
    leBytes 4 r.srcnum.toNat ++ leBytes 8 r.groups.toNat ++ [r.txpwr, r.rxloss] ++ leBytes 46 0

/-- The class of a message on the fabric, 0 urgent to 3 trace, its type and its payload. ACK and NACK take the class of the
put they answer, which `urgent` gives. The spec does not lay out a topology announcement: its payload is `announced`
(R254, R297). -/
def msgPayload (m : Msg) (urgent : Bool) (announced : List Byte) : Option (Nat × Nat × List Byte) :=
  let cls : Nat := if urgent then 0 else 2
  match m with
  | .put h u data => some (if u then 0 else 2, 0x01, putBytes h ++ data)
  | .ack w e g => some (cls, 0x02, ackBytes w e g)
  | .nack w e g r d => some (cls, 0x03, nackBytes w e g r d)
  | .grant g => some (1, 0x04, grantBytes g)
  | .deliver ty l => if ty = 0x06 then some (2, 0x06, l) else none
  | .readSeg r data => some (2, 0x07, segBytes r ++ data)
  | .ready x => some (1, 0x10, readyBytes x)
  | .fire x => some (1, 0x11, fireBytes x)
  | .arrival x => some (1, 0x12, arrivalBytes x)
  | .cancel x => some (1, 0x13, arrivalBytes x)
  | .announce _ => some (1, 0x14, announced)
  | .alert x => some (0, 0x18, alertBytes x)
  | .stop x => some (0, 0x19, stopBytes x)
  | .beacon x => some (3, 0x1A, beaconBytes x)
  | .trace l => some (3, 0x1B, l)
  | _ => none

/-- The type and the payload of a message over the transport (R254, R297, R345, R453). -/
def transportPayload (m : Msg) : Option (Nat × List Byte) :=
  match m with
  | .ack w e g => some (0x02, ackBytes w e g)
  | .nack w e g r d => some (0x03, nackBytes w e g r d)
  | .grant g => some (0x04, grantBytes g)
  | .readSeg r data => some (0x07, segBytes r ++ data)
  | .alert x => some (0x18, alertBytes x)
  | .dict l => some (0x21, l)
  | _ => none

/-- A transport datagram (R305). -/
def datagramBytes (ty : Nat) (p : PartId) (slot : HostSlot) (seq : BitVec 32) (payload : List Byte) : List Byte :=
  let body := [1, BitVec.ofNat 8 ty] ++ leBytes 2 payload.length ++ [BitVec.ofNat 8 slot.val, BitVec.ofNat 8 p.val] ++
    leBytes 2 0 ++ leBytes 4 seq.toNat ++ leBytes 4 0 ++ payload
  body ++ leBytes 4 (crc32c body).toNat

/-- An entry of channel state: TYPE, a reserved byte, the payload's length, and the payload (R473). DESIGN CHOICE: log 66. -/
def channelBytes (m : Msg) : List Byte :=
  let entry (ty : BitVec 8) (l : List Byte) : List Byte := [ty, 0] ++ leBytes 2 l.length ++ l
  match m with
  | .deliver ty l => entry ty l
  | m => match msgPayload m false [] with
    | some (_, ty, l) => entry (BitVec.ofNat 8 ty) l
    | none => []

/-! ### The frame (R296) -/

/-- The bytes of a frame with a payload of `len` bytes. -/
def frameLen (len : Nat) : Nat := 36 + ceilDiv len 4 * 4

/-- The bytes of a frame that its CRC covers. -/
def frameCovered (l : List Byte) : List Byte := slice l 0 12 ++ slice l 21 (l.length - 25)

/-- The frame with its CRC made again. -/
def sealFrame (l : List Byte) : List Byte :=
  l.take (l.length - 4) ++ leBytes 4 (crc32c (frameCovered l)).toNat

/-- The route field of a route (R301). -/
def routeBytes (r : List (BitVec 16)) : List Byte := (List.range 4).flatMap fun i => leBytes 2 (r.getD i 0).toNat

/-- A frame as the source device sends it (R296). -/
def frameBytes (cls ty : Nat) (src : BitVec 24) (dst : BitVec 8) (bcast : Bool) (vc : Nat) (route : List (BitVec 16))
    (ts : Stamp) (payload : List Byte) : List Byte :=
  let head := [BitVec.ofNat 8 (1 + 16 * cls), BitVec.ofNat 8 ty] ++ leBytes 2 payload.length ++ leBytes 4 src.toNat ++
    [dst, BitVec.ofNat 8 (b2n bcast), BitVec.ofNat 8 (if cls = 2 then vc else 0), 0] ++ routeBytes route ++ leBytes 4 0 ++
    leBytes 8 ts.toNat
  sealFrame (head ++ payload ++ List.replicate (frameLen payload.length - 32 - payload.length) 0)

end Sys2Proof.Machine
end

