-- ==== Sys2Proof/Machine/Link.lean ====
section
/-! DEFINITION. The line of a port: the order in which the frames handed to it are sent, and when (R298, R317). -/

namespace Sys2Proof.Machine

/-- The units of line time in a nanosecond: a byte takes 5 ps at 1.6 Tb/s, so times count in units of a byte (R298). -/
def lineUnits : Nat := 200

/-- A stamp in units of line time. -/
def lineTime (t : Stamp) : Nat := lineUnits * t.toNat

/-- A frame on a line: when its first byte is sent and when its last byte has been, in units of line time. -/
structure LineSlot where
  frame : WireFrame
  begun : Nat
  ends : Nat
  deriving DecidableEq, Repr

/-- What a port's choice rests on: when the line is free, the bulk frames since the last trace frame, and the virtual channel of
the last bulk frame. -/
structure LineState where
  free : Nat := 0
  turn : Nat := 0
  vc : Nat := 15
  deriving DecidableEq, Repr

/-- The first frame of a list in a class. -/
def firstOf (l : List WireFrame) (cls : Nat) : Option WireFrame := l.find? fun f => decide (f.cls = cls)

/-- The bulk frame whose turn it is: the virtual channels are served round robin, each in order (R298). -/
def bulkOf (l : List WireFrame) (last : Nat) : Option WireFrame :=
  (List.range 16).findSome? fun i => l.find? fun f => decide (f.cls = 2) && decide (f.vc = (last + 1 + i) % 16)

/-- The port's choice among the frames that wait: urgent, then gate, then 7 bulk to 1 trace (R298). -/
def lineChoice (l : List WireFrame) (x : LineState) : Option WireFrame :=
  match firstOf l 0, firstOf l 1, bulkOf l x.vc, firstOf l 3 with
  | some f, _, _, _ => some f
  | none, some f, _, _ => some f
  | none, none, some f, none => some f
  | none, none, none, t => t
  | none, none, some f, some t => if x.turn < 7 then some f else some t

/-- The 64-byte boundary of a suspended frame's transmitted bytes at or after a time; `held` is what it was suspended before
(R298). -/
def lineBoundary (begun held t : Nat) : Nat := begun + held + (t - begun - held + 63) / 64 * 64

/-- Urgent frames that suspend a bulk or trace frame begun at `begun` and due to end at `ends`: each is sent whole at the frame's next
64-byte boundary, or after the urgent frame before it. The frame's end, and the urgent frames sent (R298). -/
def lineCut (begun : Nat) : List WireFrame → Nat → Nat → Nat → List LineSlot → Nat × List LineSlot
  | [], ends, _, _, done => (ends, done)
  | u :: us, ends, held, urgent, done =>
    let t := lineTime u.at_
    let b := if t ≤ urgent then urgent else lineBoundary begun held t
    if ends ≤ b then (ends, done)
    else
      let n := u.bytes.length
      lineCut begun us (ends + n) (held + n) (b + n) (done ++ [{ frame := u, begun := b, ends := b + n }])

/-- Send the frames of a port one after another, each when the line is free and it has been handed over (R298). -/
def lineSend : Nat → LineState → List WireFrame → List LineSlot → List LineSlot
  | 0, _, _, done => done
  | fuel + 1, x, l, done =>
    match l with
    | [] => done
    | f0 :: _ =>
      let free := max x.free (l.foldl (fun n f => min n (lineTime f.at_)) (lineTime f0.at_))
      match lineChoice (l.filter fun f => decide (lineTime f.at_ ≤ free)) x with
      | none => done
      | some f =>
        let rest := l.erase f
        let ends := free + f.bytes.length
        if f.cls < 2 then lineSend fuel { x with free := ends } rest (done ++ [{ frame := f, begun := free, ends }])
        else
          let cut := lineCut free (rest.filter fun u => decide (u.cls = 0)) ends 0 0 []
          let sent := cut.2.map fun y => y.frame
          lineSend fuel
            { free := cut.1, turn := if f.cls = 3 then 0 else x.turn + 1, vc := if f.cls = 2 then f.vc else x.vc }
            (rest.filter fun u => !sent.contains u) (done ++ { frame := f, begun := free, ends := cut.1 } :: cut.2)

/-- What a port sends of the frames handed to it, in order (R298). -/
def lineOf (wire : List WireFrame) (port : PortId) : List LineSlot :=
  let mine := wire.filter fun f => decide (f.port = port)
  lineSend mine.length {} (mine.insertionSort fun a b => a.at_.toNat ≤ b.at_.toNat) []

/-- When the last frame of a list begins on its line, as the frames handed over so far have it, in units of line time.
DEDUCED: log 220. -/
def lineBegun (wire : List WireFrame) (f : WireFrame) : Nat :=
  match (lineOf (wire ++ [f]) f.port).reverse.find? fun x => decide (x.frame = f) with
  | some x => x.begun
  | none => lineTime f.at_

end Sys2Proof.Machine
end

