-- ==== Sys2Proof/Machine/Ops.lean ====
section
/-! DEFINITION. The named operations of the machine: reading and changing a unit, source numbers, counters, events
and the Strandline ring, fault marks and schedule conflicts, messages, byte access to HBM and scratchpad. -/

namespace Sys2Proof.Machine

/-! ### Units -/

/-- A tile. A tile that nothing has changed holds its reset values, with EPOCHs of the last reset (R241). -/
def State.tile (s : State) (t : TileId) : Tile := Store.get { epochSeed := s.epochBase } s.tiles t.val

/-- Put a tile. -/
def State.setTile (s : State) (t : TileId) (v : Tile) : State := { s with tiles := Store.set s.tiles t.val v }

/-- Change a tile. -/
def State.modTile (s : State) (t : TileId) (f : Tile → Tile) : State := s.setTile t (f (s.tile t))

/-- A cluster. -/
def State.cluster (s : State) (c : ClusterId) : Cluster := Store.get {} s.clusters c.val

/-- Change a cluster. -/
def State.modCluster (s : State) (c : ClusterId) (f : Cluster → Cluster) : State :=
  { s with clusters := Store.set s.clusters c.val (f (s.cluster c)) }

/-- A heath die. -/
def State.die (s : State) (d : DieId) : Die := Store.get {} s.dies d.val

/-- Change a heath die. -/
def State.modDie (s : State) (d : DieId) (f : Die → Die) : State :=
  { s with dies := Store.set s.dies d.val (f (s.die d)) }

/-- An HBM controller. -/
def State.ctrl (s : State) (k : CtrlId) : Ctrl := Store.get {} s.ctrls k.val

/-- Change an HBM controller. -/
def State.modCtrl (s : State) (k : CtrlId) (f : Ctrl → Ctrl) : State :=
  { s with ctrls := Store.set s.ctrls k.val (f (s.ctrl k)) }

/-- A band's word. -/
def State.band (s : State) (b : BandId) : Band := Store.get {} s.bands b.val

/-- Change a band's word. -/
def State.modBand (s : State) (b : BandId) (f : Band → Band) : State :=
  { s with bands := Store.set s.bands b.val (f (s.band b)) }

/-- A power domain's state: only D28 is up before a start (R365, R370). -/
def State.dom (s : State) (n : Nat) : DomSt := Store.get (if n = 28 then .on else .off) s.domains n

/-- Set a power domain's state. -/
def State.setDom (s : State) (n : Nat) (v : DomSt) : State := { s with domains := Store.set s.domains n v }

/-- An engine. -/
def State.engine (s : State) (e : EngineId) : Engine := Store.get {} s.engines e.val

/-- Change an engine. -/
def State.modEngine (s : State) (e : EngineId) (f : Engine → Engine) : State :=
  { s with engines := Store.set s.engines e.val (f (s.engine e)) }

/-- A port. -/
def State.port (s : State) (p : PortId) : Port := Store.get {} s.ports p.val

/-- Change a port. -/
def State.modPort (s : State) (p : PortId) (f : Port → Port) : State :=
  { s with ports := Store.set s.ports p.val (f (s.port p)) }

/-- A gate group. -/
def State.group (s : State) (g : GroupId) : Group := Store.get {} s.groups g.val

/-- Change a gate group. -/
def State.modGroup (s : State) (g : GroupId) (f : Group → Group) : State :=
  { s with groups := Store.set s.groups g.val (f (s.group g)) }

/-- A partition. -/
def State.part (s : State) (p : PartId) : Part := Store.get {} s.parts p.val

/-- Change a partition. -/
def State.modPart (s : State) (p : PartId) (f : Part → Part) : State :=
  { s with parts := Store.set s.parts p.val (f (s.part p)) }

/-- Apply a change for each element of a list. -/
def State.each {α : Type} (s : State) (l : List α) (f : State → α → State) : State := l.foldl f s

/-! ### Parts of a tile -/

/-- A macro in service, by logical index. -/
def Tile.mac (tl : Tile) (m : Nat) : Macro := Store.get {} tl.macros m

/-- Change a macro. -/
def Tile.modMac (tl : Tile) (m : Nat) (f : Macro → Macro) : Tile :=
  { tl with macros := Store.set tl.macros m (f (tl.mac m)) }

/-- Change the macros of a mask. -/
def Tile.modMacs (tl : Tile) (ms : List Nat) (f : Nat → Macro → Macro) : Tile :=
  ms.foldl (fun tl m => tl.modMac m (f m)) tl

/-- A physical bank. -/
def Macro.bank (mc : Macro) (phys : BitVec 1) : Bank := if phys = 0 then mc.bank0 else mc.bank1

/-- Change a physical bank. -/
def Macro.modBank (mc : Macro) (phys : BitVec 1) (f : Bank → Bank) : Macro :=
  if phys = 0 then { mc with bank0 := f mc.bank0 } else { mc with bank1 := f mc.bank1 }

/-- The active bank (R37). -/
def Macro.active (mc : Macro) : Bank := mc.bank mc.activePhys

/-- The physical index of the shadow bank (R37). -/
def Macro.shadowPhys (mc : Macro) : BitVec 1 := ~~~ mc.activePhys

/-- The shadow bank (R37). -/
def Macro.shadow (mc : Macro) : Bank := mc.bank mc.shadowPhys

/-- Change the shadow bank. -/
def Macro.modShadow (mc : Macro) (f : Bank → Bank) : Macro := mc.modBank mc.shadowPhys f

/-- The first cycle in which a physical bank is free of passes (R115). -/
def Macro.bankUntil (mc : Macro) (phys : BitVec 1) : Nat := if phys = 0 then mc.bank0Until else mc.bank1Until

/-- A staging half. -/
def Macro.half (mc : Macro) (h : BitVec 1) : Half := if h = 0 then mc.half0 else mc.half1

/-- The first cycle in which a staging half may be written (R115, R108). -/
def Macro.halfUntil (mc : Macro) (h : BitVec 1) : Nat := if h = 0 then mc.half0Until else mc.half1Until

/-- The outlier set of a physical bank (R105). -/
def Macro.outSet (mc : Macro) (phys : BitVec 1) : OutSet := if phys = 0 then mc.set0 else mc.set1

/-- Put the outlier set of a physical bank. -/
def Macro.putSet (mc : Macro) (phys : BitVec 1) (v : OutSet) : Macro :=
  if phys = 0 then { mc with set0 := v } else { mc with set1 := v }

/-- The outputs of a bank of P planes (R41). -/
def outsOf (pm1 : BitVec 3) : Nat := 128 / (pm1.toNat + 1)

/-- A slot. -/
def Tile.slot (tl : Tile) (a : Nat) : Slot := Store.get {} tl.slots a

/-- Change a slot. -/
def Tile.modSlot (tl : Tile) (a : Nat) (f : Slot → Slot) : Tile :=
  { tl with slots := Store.set tl.slots a (f (tl.slot a)) }

/-- A map byte. -/
def Tile.mapOf (tl : Tile) (m : Nat) : MapByte := Store.get {} tl.map m

/-- A parameter set. -/
def Tile.pset (tl : Tile) (i : Nat) : PSet := Store.get {} tl.psets i

/-- A completion counter. -/
def Tile.counter (tl : Tile) (i : Nat) : Counter := Store.get {} tl.ctr i

/-- Change a completion counter. -/
def Tile.modCounter (tl : Tile) (i : Nat) (f : Counter → Counter) : Tile :=
  { tl with ctr := Store.set tl.ctr i (f (tl.counter i)) }

/-- The incomplete operations on a counter (R130). -/
def Counter.open_ (c : Counter) : Nat := (c.issued - c.done).toNat

/-- An asynchronous micro-op starts: ISSUED rises, and the operation is outstanding (R130). -/
def Tile.startOp (tl : Tile) (o : AsyncOp) : Tile :=
  let tl := tl.modCounter o.cnt fun c => { c with issued := c.issued + 1 }
  { tl with ops := tl.ops ++ [{ o with key := tl.opSeq }], opSeq := tl.opSeq + 1 }

/-- An asynchronous micro-op is complete: DONE rises, unless a gate has cleared the counter since (R130, R131). -/
def Tile.countDone (tl : Tile) (o : AsyncOp) : Tile :=
  if o.counted then tl.modCounter o.cnt fun c => { c with done := c.done + 1 } else tl

/-- A handle entry; an entry that was never written holds only its EPOCH (R237, R241). DESIGN CHOICE: log 5. -/
def State.handle (s : State) (t : TileId) (h : Nat) : BitVec 128 :=
  let tl := s.tile t
  Store.get (BitVec.setWidth 128 (Config.freeEpoch (tl.epochSeed * 16384 + t.val * 32 + h)) <<< 32) tl.handles h

/-- A field of a handle or of a credit. -/
def hf (w : BitVec 128) (hi lo : Nat) : Nat := fieldN w.toNat hi lo

/-- A window's status and counts. -/
def Tile.win (tl : Tile) (h : Nat) : WinSt := Store.get {} tl.windows h

/-- Change a window's status and counts. -/
def Tile.modWin (tl : Tile) (h : Nat) (f : WinSt → WinSt) : Tile :=
  { tl with windows := Store.set tl.windows h (f (tl.win h)) }

/-- A scratchpad bank's state. -/
def Tile.spBank (tl : Tile) (b : Nat) : SpBankSt := Store.get {} tl.spBanks b

/-- Change a scratchpad bank's state. -/
def Tile.modSpBank (tl : Tile) (b : Nat) (f : SpBankSt → SpBankSt) : Tile :=
  { tl with spBanks := Store.set tl.spBanks b (f (tl.spBank b)) }

/-- The sequencer, changed. -/
def Tile.modSeq (tl : Tile) (f : Seq → Seq) : Tile := { tl with seq := f tl.seq }

/-- The cycle word of R133: unfrozen and frozen ac. DEDUCED: log 166. -/
def Seq.cycle (q : Seq) : Nat := q.ac + q.frozen

/-- A freeze of `n` ac (R135). -/
def Seq.freeze (q : Seq) (n : Nat) : Seq := { q with frozen := q.frozen + n }

/-- The event of cycle `due` has come: the tile stands at it or later. -/
def Seq.reach (q : Seq) (due : Nat) : Seq := { q with ac := max q.ac due }

/-- Two causes of the repair of one macro as one, where they are of one kind. -/
def RepairWhy.join? (x y : RepairWhy) : Option RepairWhy :=
  match x, y with
  | .verify a b c, .verify a' b' c' => some (.verify (a ++ a').eraseDups (b ++ b').eraseDups (c || c'))
  | .rewrite a, .rewrite a' => some (.rewrite (a ++ a').eraseDups)
  | .pair q o f _, .checksum => some (.pair q o f true)
  | .checksum, .pair q o f _ => some (.pair q o f true)
  | .pair q o f a, .pair q' o' _ a' => if q = q' ∧ o = o' then some (.pair q o f (a || a')) else none
  | _, _ => if x = y then some x else none

/-- A repair joins those of its partition that wait: the findings of several verifies of a macro are counted together, and so
are the banks that are to be written again (R116, R224, R510). -/
def RepairDue.into : List RepairDue → RepairDue → List RepairDue
  | [], x => [x]
  | y :: rest, x =>
    match if y.key = x.key then y.why.join? x.why else none with
    | some w => { y with why := w } :: rest
    | none => y :: RepairDue.into rest x

/-! ### Scratchpad addresses (R227) -/

/-- The size of a bank. -/
def bankSize (b : Nat) : Nat := if b = 3 then 65536 else 327680

/-- The scratchpad address of a bank's first byte. -/
def bankBase (b : Nat) : Nat := b * 327680

/-- The bank of a scratchpad address. -/
def bankOf (a : Nat) : Nat := min 3 (a / 327680)

/-- Scratchpad bytes. -/
def Tile.spRead (tl : Tile) (a n : Nat) : List Byte := Mem.readBytes tl.sp a n

/-- The even-parity bit of a 32-bit word (R124, R227). -/
def parityBit (w : Nat) : BitVec 1 :=
  let x := w ^^^ w / 65536
  let x := x ^^^ x / 256
  let x := x ^^^ x / 16
  let x := x ^^^ x / 4
  BitVec.ofNat 1 ((x ^^^ x / 2) % 2)

/-- The parity bits of `n` words from word `w`, as writes to the memory `sp` generate them; only ones are listed (R227). -/
def parityOf (sp : List Host.Cell) (par : Store (BitVec 1)) (w n : Nat) : Store (BitVec 1) :=
  (List.range n).foldl (fun par i =>
    let b := parityBit (leNat (Mem.readBytes sp (4 * (w + i)) 4))
    if b = 0 then Store.erase par (w + i) else Store.set par (w + i) b) par

/-- Write scratchpad bytes: the words touched take new parity (R227, R231). DESIGN CHOICE: log 21. -/
def Tile.spWrite (tl : Tile) (a : Nat) (l : List Byte) : Tile :=
  let sp := Mem.writeBytes tl.sp a l
  { tl with sp, spPar := if l = [] then tl.spPar else parityOf sp tl.spPar (a / 4) ((a + l.length - 1) / 4 + 1 - a / 4) }

/-- A micro-op in flight writes bytes in a later cycle: its place is after the writes of that cycle and before (R160).
DEDUCED: log 9. -/
def Tile.writeLate (tl : Tile) (cycle a : Nat) (l : List Byte) : Tile :=
  { tl with late := (tl.late.filter fun w => decide (w.cycle ≤ cycle)) ++ [{ cycle, addr := a, bytes := l }] ++
      tl.late.filter fun w => decide (cycle < w.cycle) }

/-- A micro-op in flight writes bytes from address `a` on, `step` of them in each cycle from `first` on (R160). -/
def Tile.writeRows (tl : Tile) (first step a : Nat) (l : List Byte) : Tile :=
  (List.range (ceilDiv l.length step)).foldl (fun tl i =>
    tl.writeLate (first + i) (a + i * step) ((l.drop (i * step)).take step)) tl

/-- Late writes are made, in order. -/
def Tile.putLate (tl : Tile) (l : List LateWrite) : Tile := l.foldl (fun tl w => tl.spWrite w.addr w.bytes) tl

/-- The late writes of the cycles before `c` stand (R160). -/
def Tile.landLate (tl : Tile) (c : Nat) : Tile :=
  if tl.late = [] then tl
  else { tl.putLate (tl.late.filter fun w => decide (w.cycle < c)) with late := tl.late.filter fun w => decide (c ≤ w.cycle) }

/-- Every late write stands: no micro-op is in flight any longer. DEDUCED: log 9. -/
def Tile.landAll (tl : Tile) : Tile := if tl.late = [] then tl else { tl.putLate tl.late with late := [] }

/-- Zero `n` scratchpad bytes from address `a`. -/
def Tile.spZero (tl : Tile) (a n : Nat) : Tile :=
  let sp := tl.sp.filter fun c => !(decide (a ≤ c.1) && decide (c.1 < a + n))
  let inner := tl.spPar.filter fun c => !(decide (a ≤ 4 * c.1) && decide (4 * c.1 + 4 ≤ a + n))
  { tl with sp, spPar := parityOf sp (parityOf sp inner (a / 4) 1) ((a + n) / 4) 1 }

/-- The parity bits of the four 32-bit words of a micro-op, the lowest word's in bit 0 (R124). -/
def uopParity (w : BitVec 128) : BitVec 4 :=
  parityBit (w.extractLsb' 96 32).toNat ++ parityBit (w.extractLsb' 64 32).toNat ++
    parityBit (w.extractLsb' 32 32).toNat ++ parityBit (w.extractLsb' 0 32).toNat

/-- A word is written into the instruction buffer, with its parity bits (R124). -/
def Tile.putUop (tl : Tile) (i : Nat) (w : BitVec 128) : Tile :=
  { tl with ibuf := Store.set tl.ibuf i w, ibufPar := Store.set tl.ibufPar i (uopParity w) }

/-! ### HBM (R258 to R260) -/

/-- The top of the device address space (R258). -/
def hbmTop : Nat := 288 * 2 ^ 30

/-- A device address that exists. -/
def hbmExists (a : HbmAddr) : Bool := decide (a.toNat < hbmTop)

/-- Bytes at a device address. -/
def State.hbmRead (s : State) (a n : Nat) : List Byte := Mem.readBytes s.hbm a n

/-- Write bytes at a device address. -/
def State.hbmWrite (s : State) (a : Nat) (l : List Byte) : State := { s with hbm := Mem.writeBytes s.hbm a l }

/-- An access of a device address is in hard error, or on the bad-access list (R270, R271). -/
def State.hardAt (s : State) (a : Nat) (write : Bool) : Bool :=
  (s.hardNow.any fun x => decide (x.1.toNat / 32 = a / 32) && x.2 == write) ||
    s.badAccess.any fun x => decide (x.toNat / 32 = a / 32)

/-- Some access of a device range is in hard error. -/
def State.rangeHard (s : State) (a n : Nat) (write : Bool) : Bool :=
  (s.hardNow.any fun x => decide (a / 32 ≤ x.1.toNat / 32) && decide (x.1.toNat / 32 ≤ (a + n - 1) / 32) && x.2 == write) ||
    s.badAccess.any fun x => decide (a / 32 ≤ x.toNat / 32) && decide (x.toNat / 32 ≤ (a + n - 1) / 32)

/-- The accesses of a device range that are in hard error, by their addresses. -/
def State.hardIn (s : State) (a n : Nat) (write : Bool) : List Nat :=
  let within (x : Nat) : Bool := decide (a < x + 32) && decide (x < a + n)
  let now := (s.hardNow.filter fun (x : HbmAddr × Bool) => x.2 == write).map fun (x : HbmAddr × Bool) => x.1.toNat / 32 * 32
  let bad := s.badAccess.map fun (x : HbmAddr) => x.toNat / 32 * 32
  (now ++ bad).filter within

/-- What firmware or the Headland wrote to a device range, but for the accesses in hard error, which keep what stood there
(R268, R270). -/
def State.keepHard (s old : State) (a n : Nat) : State :=
  (s.hardIn a n true).foldl (fun s x => s.hbmWrite x (old.hbmRead x 32)) s

/-- Bytes at a partition address; addresses of no slice read as zero. -/
def State.partRead (s : State) (p : PartId) (a n : Nat) : List Byte :=
  (List.range n).map fun i => match s.devAddr? p (a + i) with | some d => Mem.read s.hbm d | none => 0

/-- Write bytes at a partition address. -/
def State.partWrite (s : State) (p : PartId) (a : Nat) (l : List Byte) : State :=
  { s with hbm := (l.zipIdx).foldl (fun m x =>
      match s.devAddr? p (a + x.2) with | some d => Mem.write m d x.1 | none => m) s.hbm }

/-- The device address of partition `p`'s download area (R259). -/
def downloadBase (p : PartId) : Nat := (62 + p.val) * 2 ^ 32

/-- The device address of partition `p`'s Strandline ring (R259). -/
def ringBase (p : PartId) : Nat := 0x4780000000 + p.val * 0x10000000

/-- The device address of the fatal dump area (R259). -/
def dumpBase : Nat := 0x4700000000

/-! ### Source numbers (R29 to R31) -/

/-- A source number. -/
def srcNum (dev : BitVec 8) (die cls tile unit : Nat) : BitVec 24 :=
  BitVec.ofNat 24 (dev.toNat * 65536 + die * 16384 + cls * 1024 + tile * 32 + unit)

/-- A unit of a tile (R30). DEDUCED: log 29. -/
def State.srcTile (s : State) (t : TileId) (unit : Nat) : BitVec 24 :=
  srcNum s.devNum (t.val / 256) (t.val / 16 % 16) (t.val % 16) unit

/-- A unit of a cluster (R30). -/
def State.srcCluster (s : State) (c : ClusterId) (unit : Nat) : BitVec 24 :=
  srcNum s.devNum (c.val / 16) (c.val % 16) 16 unit

/-- A source of a heath die, by class and instance (R31). -/
def State.srcDie (s : State) (d : DieId) (cls unit : Nat) : BitVec 24 := srcNum s.devNum d.val cls 31 unit

/-- A source of die H, by class and instance (R31). DESIGN CHOICE: log 64. -/
def State.srcH (s : State) (cls unit : Nat) : BitVec 24 := srcNum s.devNum 2 cls 31 unit

/-- The source number bits [15:0] of a tile, with UNIT 0 (R207, R240). -/
def tileBits (t : TileId) : Nat := t.val / 256 * 16384 + t.val / 16 % 16 * 1024 + t.val % 16 * 32

/-- The tile that bits [15:5] of a source number name, if it is a heath-die tile. -/
def tileOfBits? (w : Nat) : Option TileId :=
  let die := w / 16384 % 4
  let cl := w / 1024 % 16
  let ti := w / 32 % 32
  if h : die < 2 ∧ ti < 16 then some ⟨die * 256 + cl * 16 + ti, by omega⟩ else none

/-- LAYER and OPID of what no micro-op causes (R139). -/
def noIds : Ids := { layer := 0xFFFF, opid := 0xFFFF }

/-! ### Counters (R465) -/

/-- Add to a word of a cluster's counter block. -/
def State.count (s : State) (c : ClusterId) (word n : Nat) : State :=
  if n = 0 then s
  else s.modCluster c fun cl =>
    { cl with counters := Store.set cl.counters word (Store.get 0 cl.counters word + BitVec.ofNat 64 n) }

/-! ### The Strandline ring (R459 to R464) -/

/-- The record area of a ring (R460). -/
def recArea : Nat := 0xE000000

/-- The record header (R462). -/
def recHeader (kind len64 : Nat) (src : BitVec 24) (ts : Stamp) (ids : Ids) (frame seq : BitVec 32)
    (flags : BitVec 8) : List Byte :=
  leBytes 2 kind ++ leBytes 2 len64 ++ leBytes 4 src.toNat ++ leBytes 8 ts.toNat ++ leBytes 2 ids.layer.toNat ++
    leBytes 2 ids.opid.toNat ++ leBytes 4 frame.toNat ++ leBytes 4 seq.toNat ++ [flags, 0, 0, 0]

/-- The bytes of a record, filled to a multiple of 64 B. -/
def recBytes (kind : Nat) (src : BitVec 24) (ts : Stamp) (ids : Ids) (frame seq : BitVec 32) (flags : BitVec 8)
    (payload : List Byte) : List Byte :=
  let len64 := ceilDiv (32 + payload.length) 64
  let body := recHeader kind len64 src ts ids frame seq flags ++ payload
  body ++ List.replicate (len64 * 64 - body.length) 0

/-- The bytes to write at a ring offset for a record: itself, or a pad to the end and then itself (R460).
DEDUCED: log 31. -/
def placeRec (wr : Nat) (pad : Nat → List Byte) (rec : List Byte) : List (Nat × List Byte) × Nat :=
  if wr + rec.length ≤ recArea then ([(wr, rec)], (wr + rec.length) % recArea)
  else ([(wr, pad (recArea - wr)), (0, rec)], rec.length)

/-- What a record offered to a ring writes, by ring offset, and the write pointer after it: the loss in hand first (R460,
R462, R464). -/
def State.offerWrites (s : State) (p : PartId) (kind : Nat) (src : BitVec 24) (ts : Stamp) (ids : Ids) (flags : BitVec 8)
    (payload : List Byte) : List (Nat × List Byte) × Nat :=
  let pt := s.part p
  let st := pt.strand
  let rec1 := recBytes kind src ts ids pt.frame st.seq flags payload
  let lossRec := recBytes 4 src ts noIds pt.frame st.seq 0
    (leBytes 4 st.lossCount.toNat ++ leBytes 4 st.lossReasons.toNat ++ leBytes 8 st.lossFirst.toNat ++
      leBytes 8 st.lossLast.toNat)
  let pad (n : Nat) : List Byte :=
    recHeader 0 (n / 64) src ts noIds pt.frame st.seq 0 ++ List.replicate (n - 32) 0
  let loss := if st.lossCount = 0 then ([], st.wrptr.toNat) else placeRec st.wrptr.toNat pad lossRec
  let own := placeRec loss.2 pad rec1
  (loss.1 ++ own.1, own.2)

/-- Writes leave at least 64 B of a ring free (R460). -/
def Strand.fits (st : Strand) (w : List (Nat × List Byte)) : Bool :=
  decide ((st.wrptr.toNat + (recArea - st.rdptr.toNat)) % recArea + w.foldl (fun n x => n + x.2.length) 0 + 64 ≤ recArea)

/-- Some write of a ring meets a hard error. DEDUCED: log 36. -/
def State.ringHard (s : State) (p : PartId) (w : List (Nat × List Byte)) : Bool :=
  w.any fun x => s.rangeHard (ringBase p + x.1) x.2.length true

/-- Put a ring's words. -/
def State.setStrand (s : State) (p : PartId) (st : Strand) : State := s.modPart p fun pt => { pt with strand := st }

/-- The reasons of R463 for which a record is lost: the ring is full, no HBM slot is unused or the write meets a hard error,
the rate limit, the trace buffer is full. -/
def lostFull : BitVec 8 := 1
/-- No unused HBM slot. -/
def lostSlot : BitVec 8 := 2
/-- The rate limit. -/
def lostRate : BitVec 8 := 4
/-- The trace buffer is full. -/
def lostTrace : BitVec 8 := 8

/-- A ring's words when a record is lost (R460, R461, R464). DEDUCED: log 31, 36. -/
def Strand.lose (st : Strand) (ts : Stamp) (reason : BitVec 8) : Strand :=
  { st with
    dropped := satAdd st.dropped 1, full := reason == lostFull, seq := st.seq + 1
    rateAt := if reason = lostRate then some ts else st.rateAt
    lossCount := st.lossCount + 1, lossReasons := st.lossReasons ||| reason
    lossFirst := if st.lossCount = 0 then ts else st.lossFirst,
    lossLast := ts }

/-- A record is lost before it reaches the ring. -/
def State.loseRecord (s : State) (p : PartId) (ts : Stamp) (reason : BitVec 8) : State :=
  s.setStrand p ((s.part p).strand.lose ts reason)

/-- 3 % of HBM bandwidth in bytes of one millisecond (R459). DESIGN CHOICE: log 192. -/
def obsLimit : Nat := 393000000

/-- The millisecond of the time-stamp counter. -/
def State.obsNow (s : State) : Nat := s.now.toNat / 1000000

/-- The observation bytes written in the millisecond in progress. -/
def State.obsUsed (s : State) : Nat := if s.obsWindow = s.obsNow then s.obsBytes else 0

/-- Count observation bytes (R459). DESIGN CHOICE: log 192. -/
def State.observe (s : State) (n : Nat) : State := { s with obsWindow := s.obsNow, obsBytes := s.obsUsed + n }

/-- Why a ring does not take a record whose writes are `w`; none when it does (R459, R460, R270).
DEDUCED: log 31, 36; DESIGN CHOICE: log 192. -/
def State.ringRefuses (s : State) (p : PartId) (w : List (Nat × List Byte)) : Option (BitVec 8) :=
  if (s.part p).strand.fits w = false then some lostFull
  else if s.ringHard p w then some lostSlot
  else if obsLimit < s.obsUsed + w.foldl (fun n x => n + x.2.length) 0 then some lostRate
  else none

/-- Offer a record to a partition's ring (R459, R460, R462, R464). DEDUCED: log 31; DESIGN CHOICE: log 127, 192. -/
def State.offer (s : State) (p : PartId) (kind : Nat) (src : BitVec 24) (ts : Stamp) (ids : Ids) (flags : BitVec 8)
    (payload : List Byte) : State :=
  let st := (s.part p).strand
  let w := s.offerWrites p kind src ts ids flags payload
  match s.ringRefuses p w.1 with
  | some why => s.loseRecord p ts why
  | none =>
    let busy := Config.slotBusy p.val st.seq
    if busy = true ∨ Config.nocFull p.val st.seq = true then s.loseRecord p ts (if busy then lostSlot else lostRate) else
    let s := s.observe (w.1.foldl (fun n x => n + x.2.length) 0)
    (w.1.foldl (fun s x => s.hbmWrite (ringBase p + x.1) x.2) s).setStrand p
      { st with wrptr := BitVec.ofNat 28 w.2, full := false, seq := st.seq + 1, lossCount := 0, lossReasons := 0 }

/-- The observation level in force (R458). -/
def State.level (s : State) (p : PartId) : Nat := s.vval p 0x50 1

/-- A commit that has been accepted for a partition raises its observation level to 2 or 3 (R365). -/
def State.raisesLevel (s : State) (p : PartId) : Bool :=
  (s.part p).area.queue.any fun c => c.set.any fun x => x.1 == vkey p.val 0x50 1 && decide (2 ≤ x.2)

/-- D29 is on while a partition observes at level 2 or 3 or has a commit to it accepted, or a scan-out, a dump, the Ebb test or
the TAP needs it, and never when it failed its self-test (R365, R424, R458). DEDUCED: log 111. -/
def State.setD29 (s : State) : State :=
  let want := (allParts.any fun p => s.enabled p && (decide (2 ≤ s.level p) || s.raisesLevel p)) || s.slack.scanning ||
    s.phase == .ebb || s.jtagOpen
  s.setDom 29 (if want && !s.startWord.failmap.getLsbD 29 then .on else .off)

/-! ### Events and fault marks (R437 to R439, R445, R463) -/

/-- The classes of R445. -/
def clsNone : BitVec 3 := 0
/-- corrected -/
def clsCorrected : BitVec 3 := 1
/-- replayed -/
def clsReplayed : BitVec 3 := 2
/-- frame-aborting -/
def clsAborting : BitVec 3 := 3
/-- partition-fatal -/
def clsPartFatal : BitVec 3 := 4
/-- device-fatal -/
def clsDevFatal : BitVec 3 := 5

/-- Count a fault of a class in the partition fault word and in the frame in progress (R444, R445). -/
def State.noteClass (s : State) (p : PartId) (cls : BitVec 3) : State :=
  if cls = 0 then s
  else s.modPart p fun pt =>
    let minor : Bool := cls == clsCorrected || cls == clsReplayed
    { pt with
      lastClass := cls, unacked := pt.unacked || decide (3 ≤ cls.toNat)
      minor := if minor then satAdd pt.minor 1 else pt.minor
      run := { pt.run with
        corrected := pt.run.corrected || (pt.run.active && cls == clsCorrected)
        replayed := pt.run.replayed || (pt.run.active && cls == clsReplayed) } }

/-- Raise an event: it is recorded, counted by its class, and at level 1 and above written to the ring (R458, R463).
DESIGN CHOICE: log 13, 27, 167. -/
def State.raise (s : State) (code : BitVec 16) (cls : BitVec 3) (src : BitVec 24) (ids : Ids) (part : Option PartId)
    (detail : List Byte) : State :=
  let frame := match part with | some p => (s.part p).frame | none => 0
  let s := { s with events := s.events ++
    [{ code, cls, src, ts := s.now, layer := ids.layer, opid := ids.opid, frame, part, detail }] }
  match part with
  | none => s
  | some p =>
    let s := s.noteClass p cls
    if 1 ≤ s.level p then
      s.offer p 1 src s.now ids 0 (leBytes 2 code.toNat ++ [BitVec.ofNat 8 cls.toNat, 0] ++ (detail ++
        List.replicate 28 0).take 28)
    else s

/-- Mark the frame in progress with its first cause (R438, R439). -/
def State.markFrame (s : State) (p : PartId) (cause : BitVec 4) (layer : BitVec 16) : State :=
  s.modPart p fun pt =>
    if pt.run.active && !pt.run.marked then
      { pt with run := { pt.run with marked := true, cause, causeLayer := layer } }
    else pt

/-- A frame-aborting fault of a tile: an event, and the mark on the owner's frame (R437, R439). -/
def State.abortTile (s : State) (t : TileId) (code : BitVec 16) (cause : BitVec 4) (unit : Nat) (ids : Ids)
    (detail : List Byte) : State :=
  let owner := s.tileOwner? t
  let s := s.raise code clsAborting (s.srcTile t unit) ids owner detail
  match owner with | some p => s.markFrame p cause ids.layer | none => s

/-- A schedule conflict on macros, slots, or another unit of a tile (R64, R83, R162): CONFLICT of the unit, an event
for each, and the mark with cause 0x1. DEDUCED: log 22, 25. -/
def State.conflict (s : State) (t : TileId) (ids : Ids) (macs slots : List Nat) (unit : Nat) : State :=
  let s := s.modTile t fun tl =>
    slots.foldl (fun tl a => tl.modSlot a fun sl => { sl with conflict := true })
      (tl.modMacs macs fun _ mc => { mc with conflict := true })
  let units := macs ++ slots.map fun _ => 17
  (if units = [] then [unit] else units).foldl (fun s u => s.abortTile t 0x0001 1 u ids []) s

/-! ### Messages -/

/-- Hand a message to its exit. DESIGN CHOICE: log 12. -/
def State.emit (s : State) (d : Dest) (m : Msg) : State := { s with sent := s.sent ++ [(d, m)] }

/-- The leader of a partition's gate group (R307). -/
def State.leaderOfPart (s : State) (p : PartId) : BitVec 8 := (s.group (BitVec.ofNat 6 (s.vval p 0x18 1)).toFin).leader

/-- The types of message that the fabric engines time-stamp (R470); 0 for the others. -/
def msgType (m : Msg) : Nat :=
  match m with
  | .put h _ _ => if h.first then 0x01 else 0
  | .grant _ => 0x04
  | .ready _ => 0x10
  | .fire _ => 0x11
  | .arrival _ => 0x12
  | .cancel _ => 0x13
  | .alert _ => 0x18
  | .stop _ => 0x19
  | _ => 0

/-- The partitions of this device in a gate group (R307). DESIGN CHOICE: log 125. -/
def State.groupParts (s : State) (g : GroupId) : List PartId :=
  allParts.filter fun p => s.enabled p && decide (s.vval p 0x18 1 = g.val)

/-- The partitions that a sent message belongs to (R470). DESIGN CHOICE: log 125. -/
def State.msgParts (s : State) (m : Msg) : List PartId :=
  let owner (w : Nat) : List PartId := match tileOfBits? w with | some t => (s.tileOwner? t).toList | none => []
  match m with
  | .put h _ _ => owner (h.writer.toNat % 65536)
  | .grant g => owner (g.window.toNat % 65536)
  | .ready x => s.groupParts x.group
  | .fire x => s.groupParts x.group
  | .arrival x => s.groupParts x.group
  | .cancel x => s.groupParts x.group
  | .alert x => [x.part.toFin]
  | .stop _ => allParts.filter fun p => s.enabled p
  | _ => []

/-- The route to a device: none when it is unreachable (R302). -/
def State.route? (s : State) (d : BitVec 8) : Option Route := (s.routes.find? fun x => decide (x.1 = d.toNat)).map fun x => x.2

/-- The port by which a route leaves (R301): bit 12 of a segment is 0 for port B. -/
def exitPort (seg : BitVec 16) : PortId := ⟨2 * (seg.toNat / 8192 % 8) + (if seg.getLsbD 12 then 0 else 1), by split <;> omega⟩

/-- Add to a port's traffic counter (R465): words 0 to 3 count what is sent, 4 to 7 what is received, by class. -/
def Port.traffic (x : Port) (word n : Nat) : Port :=
  { x with bytes := Store.set x.bytes word (Store.get 0 x.bytes word + BitVec.ofNat 64 n) }

/-- The unit that sends a message by a port (R29 to R31, R296). DESIGN CHOICE: log 193. -/
def State.msgSource (s : State) (port : PortId) (m : Msg) : BitVec 24 :=
  let unit (w : BitVec 24) (f : TileId → BitVec 24) : BitVec 24 :=
    match tileOfBits? (w.toNat % 65536) with | some t => f t | none => s.srcH 7 (port.val / 2)
  let dma (w : BitVec 24) : BitVec 24 := unit w fun t => s.srcCluster (clusterOf t) 1
  match m with
  | .put h _ _ => h.writer
  | .ack w _ _ => dma w
  | .nack w _ _ _ _ => dma w
  | .readSeg r _ => dma r.window
  | .grant g => unit g.window fun t => s.srcTile t 21
  | .alert _ => s.srcH 10 0
  | _ => s.srcH 7 (port.val / 2)

/-- The virtual channel of a bulk frame: the lowest of its partition's (R298). DESIGN CHOICE: log 193. -/
def State.msgChannel (s : State) (m : Msg) : Option Nat :=
  let owner (w : BitVec 24) : Option Nat :=
    match (tileOfBits? (w.toNat % 65536)).bind s.tileOwner? with
    | some p => (onesOf (s.vcMask p)).head?
    | none => some 0
  match m with
  | .put h _ _ => owner h.writer
  | .ack w _ _ => owner w
  | .nack w _ _ _ _ => owner w
  | .readSeg r _ => owner r.window
  | _ => some 0

/-- A topology announcement's payload, which the spec does not lay out: free bytes, drawn from `c` on.
DESIGN CHOICE: log 128. -/
def announceBytes (c : Nat) : List Byte :=
  (List.range ((Config.freeWord c).toNat % 4097)).map fun i => Config.freeByte (c + i)

/-- Hand a frame to a port that is up; one that retrains keeps it until it is up again (R298, R299). -/
def State.handOver (s : State) (f : WireFrame) : State :=
  if (s.port f.port).st = 2 then { s with wire := s.wire ++ [f] }
  else s.modPort f.port fun x => { x with queue := x.queue ++ [f] }

/-- A message's frame by a port: handed over now, with the stamp at which its transmission begins; its bytes are counted (R296,
R297, R298, R465). `urgent` is the class of the put that an ACK or NACK answers. DEDUCED: log 220. -/
def State.putFrame (s : State) (port : PortId) (peer : BitVec 8) (route : Route) (bcast urgent : Bool) (m : Msg) :
    State × Stamp :=
  match msgPayload m urgent (announceBytes s.freeCtr) with
  | none => (s, s.now)
  | some (cls, ty, l) =>
    let vc := if cls = 2 then (s.msgChannel m).getD 0 else 0
    let make (ts : Stamp) : WireFrame :=
      { port, cls, vc, at_ := s.now, bytes := frameBytes cls ty (s.msgSource port m) peer bcast vc route ts l }
    let ts : Stamp := BitVec.ofNat 64 (lineBegun s.wire (make s.now) / lineUnits)
    let s := match m with | .announce _ => { s with freeCtr := s.freeCtr + 1 } | _ => s
    ((s.modPort port fun x => x.traffic cls (frameLen l.length)).handOver (make ts), ts)

/-- The port by which a route leaves can carry frames, now or once it has trained again (R299). -/
def State.routeUp? (s : State) (d : BitVec 8) : Option (PortId × Route) :=
  match s.route? d with
  | some (seg :: rest) => if (s.port (exitPort seg)).st = 0 then none else some (exitPort seg, seg :: rest)
  | _ => none

/-- The batch of message time stamps in hand closes: a record of kind 5, and a trace message to the leader of the
partition's gate group when that is another device (R470). DESIGN CHOICE: log 88. -/
def State.closeBatch (s : State) (p : PartId) : State :=
  let l := (s.part p).batch
  if l = [] then s
  else
    let payload := [s.devNum, BitVec.ofNat 8 p.val] ++ leBytes 2 l.length ++ List.replicate 12 0 ++ l.flatten
    let s := s.modPart p fun pt => { pt with batch := [] }
    let s := s.offer p 5 (s.srcH 7 0) s.now noIds 0 payload
    let leader := s.leaderOfPart p
    if leader = s.devNum then s
    else
      match s.routeUp? leader with
      | some (port, route) => (s.putFrame port leader route false false (.trace payload)).1.emit (.device leader) (.trace payload)
      | none => s.modEngine 0 fun x => { x with unreach := satAdd x.unreach 1 }

/-- Add an entry to a partition's batch, which closes at 255 entries (R470). -/
def State.noteFrame (s : State) (p : PartId) (sent : Bool) (ty : Nat) (peer : BitVec 8) (port : Nat) (ts key : Stamp) :
    State :=
  if 2 ≤ s.level p then
    let entry := leBytes 8 ts.toNat ++ [if sent then 0 else 1, BitVec.ofNat 8 ty, peer, BitVec.ofNat 8 port] ++
      leBytes 4 key.toNat
    let s := s.modPart p fun pt => { pt with batch := pt.batch ++ [entry] }
    if 255 ≤ (s.part p).batch.length then s.closeBatch p else s
  else s

/-- A message leaves by a port: its frame is handed over, and it is time-stamped where R470 covers it (R296, R297, R465,
R470). -/
def State.stampSent (s : State) (port : PortId) (peer : BitVec 8) (route : Route) (bcast urgent : Bool) (m : Msg) : State :=
  let (s, ts) := s.putFrame port peer route bcast urgent m
  if msgType m = 0 then s
  else s.each (s.msgParts m) fun s p => s.noteFrame p true (msgType m) peer port.val ts ts

/-- A message would be a bulk frame of a partition that owns no channel: it does not leave the device (R298, R326).
DESIGN CHOICE: log 193. -/
def State.barred (s : State) (m : Msg) (urgent : Bool) : Bool :=
  match msgPayload m urgent (announceBytes s.freeCtr) with
  | some (cls, _, _) => cls == 2 && (s.msgChannel m).isNone
  | none => false

/-- Send a message to a device: over its route, or counted in UNREACH without one, or where its port is down (R299, R302, R303).
DESIGN CHOICE: log 12, 81. -/
def State.sendDevice (s : State) (d : BitVec 8) (dest : Dest) (urgent : Bool) (m : Msg) : State :=
  if d = s.devNum then s.emit dest m
  else
    match s.routeUp? d with
    | some (port, route) => if s.barred m urgent then s else (s.stampSent port d route false urgent m).emit dest m
    | none => s.modEngine 0 fun x => { x with unreach := satAdd x.unreach 1 }

/-- The route of a message that passes every device of an engine's ring: out of port B, for as many hops as a segment can
hold (R301, R302, R315). DESIGN CHOICE: log 193. -/
def ringRoute (e : EngineId) : Route := [BitVec.ofNat 16 (e.val * 8192 + 255)]

/-- The route to the partner of a port: one hop (R301). DESIGN CHOICE: log 193. -/
def portRoute (p : PortId) : Route := [BitVec.ofNat 16 (p.val / 2 * 8192 + (if p.val % 2 = 0 then 4096 else 0) + 1)]

/-- The device that a port's partner names (R288, R289). -/
def Port.peer (x : Port) : BitVec 8 := match x.partner with | some r => r.srcnum.extractLsb' 16 8 | none => 0

/-- The lanes on which the links of an Ethernet port begin: one link, two, or eight (R293). -/
def formLanes (form : Fin 3) : List Nat := match form with | 0 => [0] | 1 => [0, 4] | 2 => List.range 8

/-- The engine of a port. -/
def engineOfPort (p : PortId) : EngineId := ⟨p.val / 2, by omega⟩

/-- A link of a port whose engine is in Ethernet mode and which is up: link 8 × port + its first lane (R293, R304). -/
def State.linkUp (s : State) (link : Nat) : Bool :=
  match (List.finRange 16)[link / 8]? with
  | some p => (s.port p).st == 2 && (s.port p).eth && (s.engine (engineOfPort p)).ethMode &&
      (formLanes (s.port p).form).contains (link % 8)
  | none => false

/-- Solicit an address on every link: datagram `n` waits for it to be resolved (R304). -/
def State.solicit (s : State) (a : BitVec 128) (n : Nat) : State :=
  let s := { s with unresolved := s.unresolved ++ [(a, n)] }
  s.each ((List.range 128).filter s.linkUp) fun s link => s.emit (.link link) (.solicit a)

/-- The neighbour that datagram `n` is for: it leaves at once where the cache holds a confirmed entry; an entry not confirmed for 30 s is
probed, and after 8 s without an answer it is unreachable and resolved anew (R304). PRESUMED: log 221. -/
def State.resolve (s : State) (a : BitVec 128) (n : Nat) : State :=
  match s.neighbours.find? fun x => decide (x.addr = a) with
  | none => s.solicit a n
  | some x =>
    if (s.now - x.seen).toNat < 30000000000 then s
    else
      let rest := s.neighbours.filter fun y => decide (y ≠ x)
      match x.probed with
      | none => ({ s with neighbours := rest ++ [{ x with probed := some s.now }] }).emit (.link x.link) (.solicit a)
      | some t => if (s.now - t).toNat < 8000000000 then s else ({ s with neighbours := rest }).solicit a n

/-- A message leaves for a host slot as a transport datagram (R254, R305). -/
def State.stampDatagram (s : State) (p : PartId) (slot : HostSlot) (seq : BitVec 32) (m : Msg) : State :=
  match transportPayload m with
  | none => s
  | some (ty, l) =>
    ({ s with datagrams := s.datagrams ++ [(p, slot, datagramBytes ty p slot seq l)] }).resolve
      (BitVec.ofNat 128 (s.vval p (0x30 + slot.val) 1)) s.datagrams.length

/-- Send a message; one for a gate group goes to every other member; one for a host slot returns the
SEQ of the request that it answers (R305, R313). DESIGN CHOICE: log 3, 12, 197. -/
def State.send (s : State) (d : Dest) (m : Msg) : State :=
  match d with
  | .device x => s.sendDevice x d false m
  | .unit src => s.sendDevice (src.extractLsb' 16 8) d false m
  | .via (.fabric x urgent) => s.sendDevice x d urgent m
  | .via (.transport p slot seq) => (s.stampDatagram p slot seq m).emit d m
  | .slot p slot => (s.stampDatagram p slot (Config.freeSeq s.datagrams.length) m).emit d m
  | .group g =>
    s.each ((s.group g).members.filter fun x => x != s.devNum) fun s x => s.sendDevice x (.device x) false m
  | .ring e =>
    let port : PortId := ⟨2 * e.val + 1, by omega⟩
    (s.stampSent port (s.port port).peer (ringRoute e) true false m).emit d m
  | .partner port => (s.stampSent port (s.port port).peer (portRoute port) false false m).emit d m
  | _ => s.emit d m

/-- SlotRole (R349). -/
def State.slotRole (s : State) (p : PartId) (n : Nat) : Nat := s.vval p (0x30 + n) 3

/-- A slot with a role and a non-zero address and port is registered (R306). DESIGN CHOICE: log 109. -/
def State.slotRegistered (s : State) (p : PartId) (n : Nat) : Bool :=
  s.slotRole p n != 0 && s.vval p (0x30 + n) 1 != 0 && s.vval p (0x30 + n) 2 != 0

/-! ### Time, free values -/

/-- Time reaches a stamp. DESIGN CHOICE: log 2. -/
def State.reach (s : State) (ts : Stamp) : State := { s with now := if s.now < ts then ts else s.now }

/-- The nanoseconds from one stamp to a later one. -/
def nsSince (a b : Stamp) : Nat := (b - a).toNat

/-- The length of `n` ac at divider D = div2 / 2, in half root periods: at D = 8.5 the periods alternate between 8 and 9 root
periods, 8 first (R3, R355). -/
def acLen (div2 n : Nat) : Nat := if div2 = 17 then 34 * (n / 2) + 16 * (n % 2) else div2 * n

/-- The whole ac in a time (R3, R355). -/
def acIn (div2 time : Nat) : Nat :=
  if div2 = 17 then 2 * (time / 34) + (if 16 ≤ time % 34 then 1 else 0) else time / max 1 div2

/-- The least number of ac that last a time (R3, R355). -/
def acUp (div2 time : Nat) : Nat := if acLen div2 (acIn div2 time) < time then acIn div2 time + 1 else acIn div2 time

/-- The clock of a die after its stretch unit, in half root periods: the stretches lengthen it (R359).
DEDUCED: log 174. -/
def State.dieClock (s : State) (d : DieId) : Nat := 24 * s.now.toNat - 2 * (s.die d).stretchedBy

/-- A partition's ac clock on a die. -/
def Part.clock (pt : Part) (d : DieId) : AcClock := if d = 0 then pt.clockA else pt.clockB

/-- The ac that a partition's clock on a die has counted, at the dividers in force (R3, R355, R357). -/
def State.acNow (s : State) (p : PartId) (d : DieId) : Nat :=
  ((s.part p).clock d).count + acIn (s.part p).div2.toNat (s.dieClock d - ((s.part p).clock d).since)

/-- Both ac clocks of a partition restart, for a start cycle or another divider (R355, R357). -/
def State.restartClocks (s : State) (p : PartId) : State :=
  s.modPart p fun pt => { pt with
    clockA := { count := s.acNow p 0, since := s.dieClock 0 }, clockB := { count := s.acNow p 1, since := s.dieClock 1 } }

/-- The die of a band. -/
def dieOfBand (b : BandId) : DieId := ⟨b.val / 8, by omega⟩

/-- The ac clock that counts for a tile: that of its owner, or at the reset divider where no partition owns it. -/
def State.tileAc (s : State) (t : TileId) : Nat :=
  match s.tileOwner? t with | some p => s.acNow p (dieOf t) | none => acIn 16 (s.dieClock (dieOf t))

/-- The counts of every ac clock of a band's die: of the partitions in order, and of tiles without an owner (R233). -/
def State.bandClocks (s : State) (b : BandId) : List Nat :=
  (allParts.map fun p => s.acNow p (dieOfBand b)) ++ [acIn 16 (s.dieClock (dieOfBand b))]

/-- Count one draw of a free value. DESIGN CHOICE: log 4. -/
def State.drawn (s : State) : State := { s with freeCtr := s.freeCtr + 1 }

/-- What a step does on an empty queue: one nanosecond of the time-stamp counter passes (R5, log entry 1).
DESIGN CHOICE: log 1. -/
def State.idle (s : State) : State := { s with now := s.now + 1 }

/-! ### Service -/

/-- A logical tile that a physical tile serves (R23). -/
def State.served (s : State) (t : TileId) : Bool :=
  !(s.cluster (clusterOf t)).unserved.getLsbD (t.val % 16)

/-- The band of a cluster: clusters 2b and 2b + 1 of the device (R365). -/
def bandOf (c : ClusterId) : BandId := ⟨c.val / 2, by omega⟩

/-- A tile whose band is on, that is served, and whose partition is not stopped by Slack. -/
def State.tileUp (s : State) (t : TileId) : Bool :=
  s.phase != .fatal && s.dom (bandOf (clusterOf t)).val == .on && s.served t &&
    (match s.tileOwner? t with | some p => !(s.part p).slackStopped | none => true)

end Sys2Proof.Machine
end

