-- ==== Sys2Proof/Machine/Operands.lean ====
section
/-! DEFINITION. Every operand form of a micro-op: address registers, scratchpad and HBM operands (R127, R128, R239,
R263), the segments an access takes and their conflicts (R161, R228, R512), containers and record formats (R69 to
R73). -/

namespace Sys2Proof.Machine

/-- An address register. -/
def Tile.qreg (tl : Tile) (q : Nat) : BitVec 64 := Store.get 0 tl.q q

/-- OFFSET + STRIDE, the stride taken as signed (R127, R128). -/
def bumpQ (v : BitVec 64) : BitVec 64 :=
  v.extractLsb' 32 32 ++ (v.extractLsb' 0 32 + (v.extractLsb' 32 24).signExtend 32)

/-- Post-increment the registers whose INC is set, each once (R128). DEDUCED: log 25. -/
def Tile.incQ (tl : Tile) (l : List (BitVec 3 × BitVec 1)) : Tile :=
  let regs := ((l.filter fun x => x.2 = 1).map fun x => x.1.toNat).eraseDups
  { tl with q := regs.foldl (fun q r => Store.set q r (bumpQ (Store.get 0 q r))) tl.q }

/-- A buffer as an operand sees it: its first scratchpad address, its length, the operand's offset, SEALED. -/
structure Buf where
  base : Nat
  len : Nat
  ofs : Nat
  isSealed : Bool
  deriving DecidableEq, Repr

/-- The scratchpad address of a handle's first byte (R237). -/
def handleBase (h : BitVec 128) : Nat := bankBase (hf h 109 108) + hf h 107 89

/-- The length of a handle's buffer (R237). -/
def handleLen (h : BitVec 128) : Nat := hf h 88 70 + 1

/-- A valid handle. -/
def handleValid (h : BitVec 128) : Bool := bitN h.toNat 127

/-- The entry of the buffer that the tile's stream addresses through handle `h`, or, with `outside`, that remote accesses
address: the window's own or its ALT's (R239). -/
def State.bufEntry (s : State) (t : TileId) (h : BitVec 128) (outside : Bool) : BitVec 128 :=
  let pub := bitN h.toNat 113
  let other := bitN h.toNat 119 && hf h 126 125 != 0 && (if outside then pub else !pub)
  if other then s.handle t (hf h 118 114) else h

/-- The first address of the buffer that an access addresses. -/
def State.bufBase (s : State) (t : TileId) (h : BitVec 128) (outside : Bool) : Nat :=
  handleBase (s.bufEntry t h outside)

/-- A sealed region: the handle is SEALED, or the buffer that it resolves to is (R204). -/
def State.bufSealed (s : State) (t : TileId) (h : BitVec 128) (outside : Bool) : Bool :=
  bitN h.toNat 124 || bitN (s.bufEntry t h outside).toNat 124

/-- The buffer of a scratchpad operand; none where R128 makes it a conflict whatever the length. -/
def State.spBuf? (s : State) (t : TileId) (q : Nat) (write : Bool) : Option Buf :=
  let v := ((s.tile t).qreg q).toNat
  if bitN v 63 || decide (32 ≤ fieldN v 62 56) then none
  else
    let h := s.handle t (fieldN v 62 56)
    if handleValid h && bitN h.toNat (if write then 121 else 120) then
      some { base := s.bufBase t h false, len := handleLen h, ofs := fieldN v 31 0, isSealed := s.bufSealed t h false }
    else none

/-- The scratchpad address of an operand of `n` bytes (R128). -/
def State.spOp? (s : State) (t : TileId) (q : Nat) (n : Nat) (write : Bool) : Option Nat :=
  match s.spBuf? t q write with
  | some b => if b.ofs + n ≤ b.len then some (b.base + b.ofs) else none
  | none => none

/-- The scratchpad address of an operand of `n` bytes that no sealed region holds (R204). -/
def State.spOpOpen? (s : State) (t : TileId) (q : Nat) (n : Nat) (write : Bool) : Option Nat :=
  match s.spBuf? t q write with
  | some b => if b.ofs + n ≤ b.len ∧ b.isSealed = false then some (b.base + b.ofs) else none
  | none => none

/-- The partition address of an HBM operand of `n` bytes (R128, R263). -/
def State.hbmOp? (s : State) (t : TileId) (q : Nat) (n : Nat) (write : Bool) : Option Nat :=
  let v := ((s.tile t).qreg q).toNat
  match s.tileOwner? t with
  | none => none
  | some p =>
    match (s.part p).image with
    | none => none
    | some im =>
      match im.descs[fieldN v 62 56]? with
      | none => none
      | some d =>
        if bitN v 63 && bitN d.toNat (if write then 129 else 128) && decide (fieldN v 31 0 + n ≤ fieldN d.toNat 101 64)
        then some (fieldN d.toNat 38 0 + fieldN v 31 0) else none

/-! ### Segments (R161, R228, R512) -/

/-- The cycles a use takes. -/
def PathUse.cycles (u : PathUse) : Nat :=
  match u.form with
  | 0 => ceilDiv u.len u.step
  | 3 => 1
  | _ => u.len

/-- The segments of a use in cycle `c`: addresses and lengths. -/
def PathUse.segs (u : PathUse) (c : Nat) : List (Nat × Nat) :=
  let i := c - u.start
  if c < u.start ∨ u.cycles ≤ i then []
  else match u.form with
    | 0 => [(u.addr + i * u.step, min u.step (u.len - i * u.step))]
    | 1 => [(u.addr + 260 * (i / 4) + 64 * (i % 4), 64), (u.addr + 260 * (i / 4) + 256 + i % 4, 1)]
    | 2 =>
      let b := i / 4
      [(u.addr + 260 * (b / 4) + 64 * (b % 4) + 16 * (i % 4), 16), (u.addr + 260 * (b / 4) + 256 + b % 4, 1)]
    | _ => [(u.addr + 260 * (u.step / 4) + 64 * (u.step % 4), 64), (u.addr + 260 * (u.step / 4) + 256 + u.step % 4, 1)]

/-- The part of a late write that lies in a segment. -/
def LateWrite.within (w : LateWrite) (x : Nat × Nat) : LateWrite :=
  let lo := max x.1 w.addr
  { w with addr := lo, bytes := (w.bytes.drop (lo - w.addr)).take (x.1 + x.2 - lo) }

/-- A tile as the reads among some uses see it: each segment with the late writes of the cycles before its own (R160). -/
def Tile.readView (tl : Tile) (us : List PathUse) : Tile :=
  if tl.late = [] then tl
  else us.foldl (fun tl u => if u.write then tl
    else (List.range u.cycles).foldl (fun tl i =>
      (u.segs (u.start + i)).foldl (fun tl x =>
        tl.putLate ((tl.late.filter fun w => decide (w.cycle < u.start + i)).map fun w => w.within x)) tl) tl) tl

/-- The sub-banks a segment touches, with the lines. -/
def segSubs (x : Nat × Nat) : List Nat :=
  (List.range ((x.1 + x.2 - 1) / 64 + 1 - x.1 / 64)).map fun i =>
    let line := x.1 / 64 + i
    bankOf (line * 64) * 8 + line % 8

/-- A segment that touches one sub-bank at two lines. -/
def segSelf (x : Nat × Nat) : Bool := decide (8 ≤ (x.1 + x.2 - 1) / 64 - x.1 / 64)

/-- Two uses that touch one sub-bank in cycle `c`. -/
def useMeet (u v : PathUse) (c : Nat) : Bool :=
  let a := (u.segs c).flatMap segSubs
  (v.segs c).any fun x => (segSubs x).any fun k => a.contains k

/-- The bytes that uses of one direction carry in cycle `c`. -/
def pathSum (l : List PathUse) (write : Bool) (c : Nat) : Nat :=
  l.foldl (fun n u => if u.write = write then n + (u.segs c).foldl (fun n x => n + x.2) 0 else n) 0

/-- New uses `news` beside those in flight `old` break R161 or R228 in some cycle. -/
def pathConflict (old news : List PathUse) : Bool :=
  match news with
  | [] => false
  | u :: rest =>
    (List.range u.cycles).any (fun i =>
      let c := u.start + i
      (u.segs c).any segSelf || decide (512 < pathSum (old ++ news) u.write c) ||
        (old ++ rest).any fun v => useMeet u v c) || pathConflict (old ++ [u]) rest

/-- The banks that uses touch. -/
def useBanks (l : List PathUse) : List Nat :=
  (List.range 4).filter fun b => l.any fun u =>
    let last := match u.form with
      | 0 => u.addr + u.len - 1
      | 1 => u.addr + 260 * ((u.len + 3) / 4) - 1
      | 2 => u.addr + 260 * ((u.len + 15) / 16) - 1
      | _ => u.addr + 260 * (u.step / 4 + 1) - 1
    decide (bankOf u.addr ≤ b) && decide (b ≤ bankOf last)

/-- The windows of TWIN that are open (R157). -/
def Tile.twinsOpen (tl : Tile) : List Twin := tl.twin.filter fun w => decide (tl.seq.ac < w.stopAt)

/-- A use touches, in some cycle before an open window ends, a single-port bank that the window names (R432). -/
def Tile.twinHits (tl : Tile) (l : List PathUse) : Bool :=
  tl.twinsOpen.any fun w => l.any fun u => (List.range u.cycles).any fun i =>
    let c := u.start + i
    decide (c < w.stopAt) && (u.segs c).any fun x =>
      (List.range 3).any fun b => w.spbanks.getLsbD b && decide (bankOf x.1 ≤ b) && decide (b ≤ bankOf (x.1 + x.2 - 1))

/-- The first address of a Tidewalk region of the scratchpad: region 64 + k is kibibyte k (R432). DEDUCED: log 48. -/
def regionBase (r : Nat) : Nat := (r - 64) * 1024

/-- A segment lies in part in a Tidewalk region of the scratchpad. -/
def segIn (r : Nat) (x : Nat × Nat) : Bool :=
  decide (x.1 < regionBase r + 1024) && decide (regionBase r < x.1 + x.2)

/-- A segment of a use meets the Tidewalk step in progress on bank 3, in one of the 64 ac that the step takes at most
(R236). -/
def Tile.stepHits (tl : Tile) (l : List PathUse) : Bool :=
  match tl.step with
  | some st =>
    decide (1024 ≤ st.region) && l.any fun u => (List.range u.cycles).any fun i =>
      let c := u.start + i
      decide (tl.seq.ac ≤ c) && decide (c < st.start + 64) && (u.segs c).any (segIn st.region)
  | none => false

/-- An access of the stream is free of the conflicts of R161, R228 and R432. -/
def Tile.accessOk (tl : Tile) (l : List PathUse) : Bool := !pathConflict tl.paths l && !tl.twinHits l

/-- The uses that still matter, with new ones. -/
def Tile.addPaths (tl : Tile) (l : List PathUse) : Tile :=
  { tl with paths := (tl.paths.filter fun u => decide (tl.seq.ac < u.start + u.cycles)) ++ l }

/-- Banks are touched at a count of the owner's ac clock (R233). -/
def Tile.touch (tl : Tile) (banks : List Nat) (now : Nat) : Tile :=
  banks.foldl (fun tl b => tl.modSpBank b fun k => { k with touched := now }) tl

/-- The last cycle in which uses touch a bank: the accesses go on until then (R160, R233). -/
def lastTouch (l : List PathUse) (b : Nat) : Nat :=
  l.foldl (fun n u => if (useBanks [u]).contains b then max n (u.start + u.cycles - 1) else n) 0

/-- The accesses of a micro-op touch their banks, each until its last segment; `now` counts the owner's ac clock (R233). -/
def Tile.touchUses (tl : Tile) (l : List PathUse) (now : Nat) : Tile :=
  (useBanks l).foldl (fun tl b => tl.touch [b] (now + (lastTouch l b - tl.seq.ac))) tl

/-- The wake of the sleeping banks that an access of the stream touches: the tile freezes for 40 ac, or for the
remainder of a wake in progress (R135, R234). -/
def Tile.wakeFor (tl : Tile) (l : List PathUse) : Tile :=
  (useBanks l).foldl (fun tl b =>
    let wake (n : Nat) : Tile :=
      (tl.modSeq fun q => { q.freeze n with wake := satAdd q.wake 1 }).modSpBank b fun k =>
        { k with power := .on, freezes := false }
    match (tl.spBank b).power with
    | .sleep => wake 40
    | .waking => wake ((tl.spBank b).wakeEnd - tl.seq.cycle)
    | _ => tl) tl

/-! ### Containers and formats (R69 to R73, R84) -/

/-- Element `i` of a tensor in containers of `c` bits (R69). -/
def container (c : Nat) (l : List Byte) (i : Nat) : Nat :=
  let per := 8 / c
  ((l.getD (i / per) 0).toNat / 2 ^ (c * (i % per))) % 2 ^ c

/-- Pack values of `c` bits into bytes (R69). -/
def packBits (c : Nat) (l : List Nat) : List Byte :=
  let per := 8 / c
  (List.range (ceilDiv l.length per)).map fun b =>
    BitVec.ofNat 8 ((List.range per).foldl (fun n j => n + (l.getD (b * per + j) 0 % 2 ^ c) * 2 ^ (c * j)) 0)

/-- A two's-complement or unsigned value of `n` bits. -/
def signedOf (n v : Nat) (sgn : Bool) : Int :=
  if sgn && decide (2 ^ (n - 1) ≤ v % 2 ^ n) then (v % 2 ^ n : Nat) - (2 ^ n : Nat) else (v % 2 ^ n : Nat)

/-- The bytes of one element of a format of whole bytes. -/
def fmtBytes (fmt : Nat) : Nat :=
  match fmt with
  | 0 => 1 | 1 => 2 | 2 => 4 | 3 => 2 | 4 => 2 | 5 => 4 | 7 => 16 | _ => 1

/-- The bytes that `n` outputs take in a format (R84, R73). -/
def fmtSpan (fmt n : Nat) : Nat :=
  match fmt with
  | 6 => 260 * ceilDiv (ceilDiv n 64) 4
  | 8 => ceilDiv n 2
  | 9 => ceilDiv n 4
  | 10 => ceilDiv n 8
  | f => n * fmtBytes f

/-- An element of a preload: a finite value m × 2^e, or not finite. -/
inductive PreVal where
  | fin (m : Int) (e : Int)
  | bad
  deriving DecidableEq, Repr

/-- Element `i` of a preload tensor at address `a` (R84, R71 to R73). -/
def preElem (tl : Tile) (fmt a i : Nat) : PreVal :=
  let raw (n : Nat) : Nat := leNat (tl.spRead (a + n * i) n)
  match fmt with
  | 0 => .fin (signedOf 8 (raw 1) true) 0
  | 1 => .fin (signedOf 16 (raw 2) true) 0
  | 2 => .fin (signedOf 32 (raw 4) true) 0
  | 3 =>
    let v := raw 2
    let ex := fieldN v 14 10
    let m : Int := if ex = 0 then fieldN v 9 0 else 1024 + fieldN v 9 0
    if ex = 31 then .bad else .fin (if bitN v 15 then -m else m) ((max ex 1 : Nat) - 25)
  | 4 =>
    let v := raw 2
    let ex := fieldN v 14 7
    let m : Int := if ex = 0 then 0 else 128 + fieldN v 6 0
    if ex = 255 then .bad else .fin (if bitN v 15 then -m else m) ((ex : Int) - 134)
  | 5 =>
    let v := raw 4
    let ex := fieldN v 30 23
    let m : Int := if ex = 0 then 0 else 2 ^ 23 + fieldN v 22 0
    if ex = 255 then .bad else .fin (if bitN v 31 then -m else m) ((ex : Int) - 150)
  | 6 =>
    let b := i / 64
    let v := (Mem.read tl.sp (a + 260 * (b / 4) + 64 * (b % 4) + i % 64)).toNat
    let e := (Mem.read tl.sp (a + 260 * (b / 4) + 256 + b % 4)).toNat
    let m : Int := v % 128
    if e = 255 then .bad else .fin (if bitN v 7 then -m else m) ((e : Int) - 133)
  | _ => .bad

end Sys2Proof.Machine
end

