-- ==== Sys2Proof/Machine/Flags.lean ====
section
/-! DEFINITION. Every flag computation: the numeric status word (R102), slot flags (R81), and the status words that
firmware reads, packed from their fields. -/

namespace Sys2Proof.Machine

/-- Gather flags of a drain or a conversion into the numeric status word; `n` values were limited (R102).
DEDUCED: log 139. -/
def NumSt.note (w : NumSt) (layer : BitVec 16) (bound expmiss ovf nonfin sat : Bool) (n : Nat) : NumSt :=
  let any := bound || expmiss || ovf || nonfin || sat
  let had := w.bound || w.expmiss || w.ovf || w.nonfin || w.sat
  { bound := w.bound || bound, expmiss := w.expmiss || expmiss, ovf := w.ovf || ovf, nonfin := w.nonfin || nonfin,
    sat := w.sat || sat, satCount := satAdd w.satCount n,
    firstLayer := if any && !had then layer else w.firstLayer }

/-- The numeric status word (R102). -/
def NumSt.word (w : NumSt) : BitVec 32 :=
  b2v w.bound ++ b2v w.expmiss ++ b2v w.ovf ++ b2v w.nonfin ++ b2v w.sat ++ w.satCount ++ w.firstLayer

/-- The slot status word (R81). -/
def Slot.word (sl : Slot) : BitVec 32 :=
  let st : BitVec 2 := match sl.st with | .free => 0 | .opened => 1 | .draining => 2 | .paired => 3
  sl.mode ++ st ++ b2v sl.conflict ++ b2v sl.bound ++ b2v sl.expmiss ++ b2v sl.ovf ++ b2v sl.nonfin ++ (0#6) ++
    satOf 17 sl.groups

/-- The slot exponent word (R82). -/
def Slot.expWord (sl : Slot) : BitVec 32 := (0#23) ++ b2v sl.emaxValid ++ sl.emax

/-- The bank status word (R62). -/
def Macro.word (mc : Macro) : BitVec 32 :=
  let code (b : Bank) : BitVec 2 := match b.st with | .invalid => 0 | .loading => 1 | .valid => 2
  b2v mc.conflict ++ mc.activePhys ++ code mc.active ++ code mc.shadow ++ mc.active.groups ++ mc.shadow.groups ++
    mc.active.wsgn ++ mc.active.pm1 ++ mc.shadow.wsgn ++ mc.shadow.pm1 ++ (0#1) ++
    BitVec.ofNat 9 mc.shadow.written.length

/-- The bank layer word (R63): a bank that a load is still filling holds no loaded layer. -/
def Macro.layerWord (mc : Macro) : BitVec 32 :=
  (if mc.shadow.st = .valid then mc.shadow.layer else 0xFFFF) ++
    (if mc.active.st = .valid then mc.active.layer else 0xFFFF)

/-- The accumulation map word `i` (R75). -/
def Tile.mapWord (tl : Tile) (i : Nat) : BitVec 32 :=
  let byte (m : Nat) : BitVec 8 := let b := tl.mapOf m; b2v b.en ++ b.slot ++ (0#1) ++ b.ofs
  byte (4 * i + 3) ++ byte (4 * i + 2) ++ byte (4 * i + 1) ++ byte (4 * i)

/-- The tile is frozen by a checksum replay, by the wake of a bank or by a Tidewalk step (R135). -/
def Tile.frozenNow (tl : Tile) : Bool :=
  !tl.replay.isEmpty || (tl.spBanks.any fun x => x.2.power == .waking && x.2.freezes) ||
    (match tl.step with | some st => st.freezes | none => false)

/-- The sequencer status word (R132): a tile in any freeze of R135 reads frozen, and one that has stopped issuing for the
rest of its frame, for which no code of STATE stands, reads issuing. DESIGN CHOICE: log 178. -/
def Tile.seqWord (tl : Tile) : BitVec 32 :=
  let q := tl.seq
  let st : BitVec 2 := if tl.frozenNow then 3
    else match q.st with | .idle => 0 | .issuing => 1 | .waiting => 2 | .frozen => 3 | .stopped => 1
  let why : BitVec 3 := if st = 2 then
    (match q.why with | .none => 0 | .rdv => 1 | .credit => 2 | .gate => 3 | .bank => 4) else 0
  st ++ why ++ (if st = 2 then q.waitArg else 0) ++ (0#4) ++ q.pc

/-- The ID word (R133). -/
def Seq.idWord (q : Seq) : BitVec 32 := q.layer ++ q.opid

/-- The deviation count word (R172). -/
def Seq.devWord (q : Seq) : BitVec 32 := q.parity ++ q.chkReplay ++ q.wake ++ q.twalk

/-- A completion counter word (R130). -/
def Counter.word (c : Counter) : BitVec 32 := c.issued ++ c.done

/-- The check status word (R117). -/
def CheckSt.word (w : CheckSt) : BitVec 32 :=
  w.replayOk ++ w.replayFail ++ b2v w.lastKind ++ b2v w.storePar ++ (0#2) ++ w.lastMacro ++ (0#8)

/-- The weight parity status word (R222). -/
def WpSt.word (w : WpSt) : BitVec 32 :=
  w.twErr ++ w.ldErr ++ w.lastSrc ++ w.lastPhys ++ w.lastMacro ++ w.lastWord ++ w.lastRow

/-- The weight verify control word (R218). -/
def Verify.control (v : Verify) : BitVec 32 :=
  (0#1) ++ b2v v.busy ++ b2v v.done ++ b2v v.compare ++ b2v v.rec17 ++ v.role ++ (0#6) ++ v.mac ++ (0#16)

/-- The verify source word (R219). -/
def Verify.source (v : Verify) : BitVec 64 := v.rstride ++ (0#9) ++ v.addr

/-- The verify result word (R220). -/
def Verify.result (v : Verify) : BitVec 32 :=
  v.diffRows ++ v.parRows ++ b2v v.any ++ b2v v.err ++ (0#4) ++ v.firstRow

/-- The Tidewalk status word (R434): SP_FAULT, BK_FAULT, PAR_FOUND, NEXT_REGION. -/
def TwSt.word (w : TwSt) : BitVec 32 :=
  b2v w.spFault ++ b2v w.bkFault ++ (0#6) ++ w.parFound ++ (0#5) ++ BitVec.ofNat 11 w.next

/-- A window status word (R244). -/
def WinSt.word (w : WinSt) : BitVec 64 :=
  w.stale ++ w.refused ++ b2v w.torn ++ b2v w.short ++ (0#10) ++ w.landed

end Sys2Proof.Machine
end

