-- ==== Sys2Proof/Machine/Points.lean ====
section
/-! DEFINITION. Rendezvous points (R173 to R175, R180), grants (R245, R246), the clock of a tile, and the states of slots
between commands. -/

namespace Sys2Proof.Machine

/-! ### Grants (R245, R246) -/

/-- The grant list of a partition's image. DEDUCED: log 34. -/
def State.grantList (s : State) (p : PartId) : List (BitVec 128) :=
  match (s.part p).image with | some im => im.grants | none => []

/-- Send the grant of record `i` with the window's current epoch, and note it as issued in that epoch (R246). A host
slot that is not registered gets none. -/
def State.sendGrant (s : State) (p : PartId) (i : Nat) : State :=
  match (s.grantList p)[i]? with
  | none => s
  | some g =>
    let win := hf g 91 76
    match tileOfBits? win with
    | none => s
    | some t =>
      let h := win % 32
      let recip := hf g 115 92
      let host := hf g 125 124 == 1
      let m : GrantMsg :=
        { window := BitVec.ofNat 24 (s.devNum.toNat * 65536 + win)
          epoch := BitVec.ofNat 32 (hf (s.handle t h) 63 32), frame := (s.part p).frame
          lo := BitVec.ofNat 20 (hf g 75 56), hi := BitVec.ofNat 20 (hf g 55 36), grant := BitVec.ofNat 16 i
          entry := BitVec.ofNat 5 (if host then recip % 16 else recip % 32), rsvd := 0 }
      if host && !s.slotRegistered p (recip % 16) then s
      else
        let s := s.modTile t fun tl => tl.modWin h fun w =>
          { w with granted := if w.granted.contains i then w.granted else w.granted ++ [i] }
        s.send (if host then .slot p ⟨recip % 16, by omega⟩ else .unit (BitVec.ofNat 24 (recip / 32 * 32))) (.grant m)

/-- Advance a window: EPOCH rises, the counts of the closed epoch wait for its completion, PUB may toggle, and the
grants of TRIG 0b00 are sent for a write window (R241, R243, R246). -/
def State.advance (s : State) (t : TileId) (h : Nat) (toggle : Bool) : State :=
  let w := (s.handle t h).toNat
  let epoch := (fieldN w 63 32 + 1) % 2 ^ 32
  let pub := if toggle then (bitN w 119 != bitN w 113) else bitN w 113
  let w' := w - fieldN w 63 32 * 2 ^ 32 + epoch * 2 ^ 32 - b2n (bitN w 113) * 2 ^ 113 + b2n pub * 2 ^ 113
  let isWrite := fieldN w 126 125 == 1
  let s := s.modTile t fun tl =>
    let tl := { tl with handles := Store.set tl.handles h (BitVec.ofNat 128 w') }
    tl.modWin h fun x =>
      if isWrite then { x with closing := true, closedLanded := x.openLanded, openLanded := 0, granted := [] } else x
  match s.tileOwner? t with
  | some p =>
    if isWrite then
      let idx := (List.range (s.grantList p).length).filter fun i =>
        match (s.grantList p)[i]? with
        | some g => hf g 127 126 == 0 && hf g 91 76 == tileBits t + h
        | none => false
      s.each idx fun s i => s.sendGrant p i
    else s
  | none => s

/-- The windows of a tile of a kind: 1 write, 2 read (R237). -/
def State.windowsOf (s : State) (t : TileId) (kind : Nat) : List Nat :=
  (List.range 32).filter fun h => handleValid (s.handle t h) && hf (s.handle t h) 126 125 == kind

/-! ### Rendezvous points (R173 to R175) -/

/-- The rendezvous table of a partition's image. -/
def State.pointTable (s : State) (p : PartId) : List (BitVec 128) :=
  match (s.part p).image with | some im => im.points | none => []

/-- A point's counts. -/
def Part.point (pt : Part) (rid : Nat) : Point := Store.get {} pt.points rid

/-- Change a point's counts. -/
def Part.modPoint (pt : Part) (rid : Nat) (f : Point → Point) : Part :=
  { pt with points := Store.set pt.points rid (f (pt.point rid)) }

/-- A wait at the point completes: both counts are complete, or a cancel arrived (R174, R180). -/
def State.pointDone (s : State) (p : PartId) (rid : Nat) : Bool :=
  match (s.pointTable p)[rid]? with
  | none => false
  | some e =>
    let x := (s.part p).point rid
    x.cancelled || (decide (hf e 113 104 ≤ x.locals) && decide (hf e 103 96 ≤ x.remotes))

/-- The root periods by which a die has been stretched since the start cycle of a partition's frame (R359). -/
def State.stretchOf (s : State) (p : PartId) (d : DieId) : Nat :=
  (s.die d).stretchedBy - (if d = 0 then (s.part p).run.stretchA else (s.part p).run.stretchB)

/-- The half root periods from T_s to a time. -/
def Part.rootTime (pt : Part) (now : Stamp) : Nat := if now < pt.run.ts then 0 else 24 * (now - pt.run.ts).toNat

/-- The time that has passed since T_s on a die's stretched clock, in half root periods (R3, R359). -/
def State.dieTime (s : State) (p : PartId) (d : DieId) (now : Stamp) : Nat := (s.part p).rootTime now - 2 * s.stretchOf p d

/-- The die cycle in progress on a die at a time, for a partition's frame: a stretch lengthens the cycles that it meets (R3,
R166, R355, R359). DEDUCED: log 140. -/
def State.cycleAt (s : State) (p : PartId) (d : DieId) (now : Stamp) : Nat :=
  acIn (s.part p).div2.toNat (s.dieTime p d now)

/-- The die cycle that a tile stands at: its stream starts in die cycle 16c (R167). -/
def State.dieCycle (s : State) (t : TileId) : Nat := 16 * (t.val / 16 % 16) + (s.tile t).seq.cycle

/-- The time at which a tile stands, on its die's stretched clock, in half root periods from T_s (R3, R355). -/
def State.tileTime (s : State) (p : PartId) (t : TileId) : Nat := acLen (s.part p).div2.toNat (s.dieCycle t)

/-- The same time on the other die's clock, whose stretches may differ (R359). -/
def State.timeOn (s : State) (p : PartId) (t : TileId) (d : DieId) : Nat :=
  s.tileTime p t + 2 * s.stretchOf p (dieOf t) - 2 * s.stretchOf p d

/-- The part of a release that the Headland takes: 20 ac and `ns` nanoseconds, in half root periods (R174).
DEDUCED: log 142. -/
def Part.headlandTime (pt : Part) (ns : Nat) : Nat := acLen pt.div2.toNat 20 + 24 * ns

/-- The time from the arrival that completes LOCAL to the earliest release on this device, in half root periods (R174).
DEDUCED: log 142. -/
def Part.scopeTime (pt : Part) (scope : Nat) : Nat :=
  match scope with | 0 => acLen pt.div2.toNat 4 | 1 => acLen pt.div2.toNat 20 | _ => pt.headlandTime 60

/-- The nanoseconds from this device to the farthest other member of a gate group, with 60 ns at its Headland (R174, R302).
DEDUCED: log 176. -/
def State.farthestNs (s : State) (g : GroupId) : Nat :=
  (((s.group g).members.filter fun d => d != s.devNum).map fun d => Store.get 0 s.pathNs d.toNat + 60).foldl max 0

/-- The nominal release latency of a point, in ac (R174). DEDUCED: log 176. -/
def State.nominalAc (s : State) (p : PartId) (e : BitVec 128) : Nat :=
  let pt := s.part p
  let far := if hf e 127 126 = 3 then 24 * s.farthestNs (BitVec.ofNat 6 (hf e 95 88)).toFin else 0
  acUp pt.div2.toNat (pt.scopeTime (hf e 127 126) + far)

/-- The time on a die's stretched clock before which no wait at a point completes. -/
def Point.doneOn (x : Point) (d : DieId) : Nat := if d = 0 then x.doneA else x.doneB

/-- A release latency ends at a time on each die's stretched clock, so that a stretch takes no ac of it (R3, R174).
DEDUCED: log 142. -/
def Point.until_ (x : Point) (f : DieId → Nat) : Point := { x with doneA := max x.doneA (f 0), doneB := max x.doneB (f 1) }

/-- The ac that the release latency of a point adds to a wait of a tile, from the cycle in which the wait began (R174).
DEDUCED: log 142. -/
def State.latencyLeft (s : State) (p : PartId) (t : TileId) (rid : Nat) : Nat :=
  let q := (s.tile t).seq
  acUp (s.part p).div2.toNat (((s.part p).point rid).doneOn (dieOf t)) - 16 * (t.val / 16 % 16) - q.frozen - q.waitFrom

/-- Count an arrival of a tile at a point: grants where asked, a device arrival when LOCAL is complete at fabric
scope, a schedule conflict beyond LOCAL (R154, R174, R175, R246). DEDUCED: log 142. -/
def State.arrive (s : State) (t : TileId) (ids : Ids) (rid : Nat) (grant : Bool) : State :=
  match s.tileOwner? t with
  | none => s
  | some p =>
    match (s.pointTable p)[rid]? with
    | none => s
    | some e =>
      let need := hf e 113 104
      let have_ := (s.part p).point rid
      if need ≤ have_.locals then s.conflict t ids [] [] 16
      else
        let s := s.modPart p fun pt => pt.modPoint rid fun x =>
          { x.until_ (fun d => s.timeOn p t d + pt.scopeTime (hf e 127 126)) with
            locals := x.locals + 1, reached := x.reached || decide (need ≤ x.locals + 1) }
        let s := if grant then
            s.each (List.range (hf e 87 80)) fun s i => s.sendGrant p (hf e 79 64 + i)
          else s
        if have_.locals + 1 = need ∧ hf e 127 126 = 3 then
          s.send (.group (BitVec.ofNat 6 (hf e 95 88)).toFin)
            (.arrival { frame := (s.part p).frame, rid := BitVec.ofNat 10 rid, group := (BitVec.ofNat 6 (hf e 95 88)).toFin })
        else s

/-! ### Slots and the sequencer between commands -/

/-- A staging fill whose cycle is past is in its half (R160). -/
def Macro.settle (mc : Macro) (ac : Nat) : Macro :=
  let mc := match mc.fill0 with
    | some f => if f.due < ac then { mc with half0 := f.half, fill0 := none } else mc
    | none => mc
  match mc.fill1 with
  | some f => if f.due < ac then { mc with half1 := f.half, fill1 := none } else mc
  | none => mc

/-- Staging fills that are due are made. -/
def Tile.settleFills (tl : Tile) : Tile :=
  { tl with macros := tl.macros.map fun x => (x.1, x.2.settle tl.seq.ac) }

/-- Slots whose drain has delivered its last entry become FREE, with their exponent words cleared and their partners
FREE (R80, R82). -/
def Tile.settleSlots (tl : Tile) : Tile :=
  (List.range 8).foldl (fun tl a =>
    let sl := tl.slot a
    if sl.st = .draining ∧ sl.freeAt ≤ tl.seq.ac then
      let tl := tl.modSlot a fun sl =>
        { sl with st := .free, emaxValid := false, emax := 0, prescanned := false, entries := [] }
      if sl.mode = 2 then tl.modSlot (a + 1) fun x => if x.st = .paired then { x with st := .free } else x else tl
    else tl) tl

/-- The tile as it stands at its current cycle. -/
def Tile.settle (tl : Tile) : Tile := tl.settleFills.settleSlots

/-- The unfrozen cycle that a tile's clock has reached by the time stamp, at least where its own work stands (R133).
DEDUCED: log 140. -/
def State.liveAc (s : State) (t : TileId) : Nat :=
  let q := (s.tile t).seq
  match s.tileOwner? t with
  | some p =>
    if q.started = true then max q.ac (s.cycleAt p (dieOf t) s.now - 16 * (t.val / 16 % 16) - q.frozen) else q.ac
  | none => q.ac

/-- The tile as firmware sees it: what has ended by the cycle its clock has reached has ended (R80, R82). -/
def State.seenTile (s : State) (t : TileId) : Tile := ((s.tile t).modSeq fun q => q.reach (s.liveAc t)).settle

end Sys2Proof.Machine
end

