-- ==== Sys2Proof/Machine/Monitor.lean ====
section
/-! DEFINITION. The output-range monitor at the samples: violations, records, and the samples that wait for their cycle
(R118, R120, R122, R160, R450). -/

namespace Sys2Proof.Machine

/-- Why a violation is raised: V_OUT, V_MEAN or V_SD, as KIND of R453 codes it. -/
abbrev Kind := BitVec 3

/-- An output-range violation acts on its channel's POLICY; it sets the monitor flag (R122, R450). -/
def State.violation (s : State) (t : TileId) (ids : Ids) (channel : Nat) (kind : Kind) (policy : BitVec 2) : State :=
  match s.tileOwner? t with
  | none => s
  | some p =>
    let s := s.modPart p fun pt => if pt.run.active then { pt with run := { pt.run with monitor := true } } else pt
    match policy.toNat with
    | 1 => s.raise 0x000C clsNone (s.srcTile t 18) ids (some p) (leBytes 2 channel ++ [kind.setWidth 8])
    | 2 =>
      let m : AlertMsg :=
        { frame := (s.part p).frame, src := s.srcTile t 18, layer := ids.layer, opid := ids.opid
          channel := BitVec.ofNat 12 channel, kind, precommit := true, part := BitVec.ofNat 3 p.val, ts := s.now }
      let s := { s with alert := { s.alert with inCluster := s.alert.inCluster ++ [((clusterOf t).val, m)] } }
      s.modPart p fun pt => { pt with run := { pt.run with raised := true } }
    | _ => s

/-- A record after one sample, and whether V_OUT acts now (R120). DESIGN CHOICE: log 191. -/
def StatRec.sample (r : StatRec) (y : BitVec 32) : StatRec × Bool :=
  let out (r : StatRec) : StatRec := { r with outside := satAdd r.outside 1 }
  let r1 : StatRec :=
    if isNan y then { out r with nan := true }
    else
      let y64 := f32To64 y
      let r := { r with
        min := if f32Lt y r.min then y else r.min, max := if f32Lt r.max y then y else r.max
        sum := addF64 r.sum y64, sumsq := addF64 r.sumsq (mulF64 y64 y64), count := r.count + 1 }
      if f32Lt y r.vlo || f32Lt r.vhi y then out r else r
  let hit := decide (r1.outside.toNat = r1.outmax.toNat + 1) && !r1.vOut
  ({ r1 with vOut := r1.vOut || hit }, hit)

/-- Sample a PPU output of a channel when the table is bound to its layer and visible in the cycle in which the output
reaches step 4 (R118, R120, R160). PRESUMED: log 24; DEDUCED: log 177. -/
def State.sampleOut (s : State) (t : TileId) (x : Sample) : State :=
  match (s.tile t).stat with
  | none => s
  | some st =>
    if st.layer = x.ids.layer ∧ st.c0 ≤ x.channel ∧ x.channel < st.c0 + st.n ∧ st.visibleAt ≤ x.cycle then
      let i := x.channel - st.c0
      let (r, hit) := (Store.get {} st.recs i).sample x.y
      let s := s.modTile t fun tl => { tl with stat := some { st with recs := Store.set st.recs i r } }
      if hit then s.violation t x.ids x.channel 1 r.policy else s
    else s

/-- The outputs that have reached step 4 before the tile's current cycle are sampled, in the order of their cycles (R118,
R160). DEDUCED: log 177. -/
def State.flushSamples (s : State) (t : TileId) : State :=
  let tl := s.tile t
  let due := tl.samples.filter fun x => decide (x.cycle < tl.seq.ac)
  if due = [] then s
  else
    (s.modTile t fun tl => { tl with samples := tl.samples.filter fun x => decide (tl.seq.ac ≤ x.cycle) }).each
      (due.insertionSort fun a b => a.cycle ≤ b.cycle) fun s x => s.sampleOut t x

end Sys2Proof.Machine
end

