-- ==== Sys2Proof/Machine/Dma.lean ====
section
/-! DEFINITION. The cluster DMA at a tile's scratchpad: sub-banks that the stream uses, sleeping banks, Tidewalk regions,
BUSY on bank 3, parity (R229 to R236), and what the owning router does with an access it is allowed (R249 to R252). -/

namespace Sys2Proof.Machine

/-! ### What an access meets in an ac (R229, R230) -/

/-- The words of a segment. -/
def segWords (x : Nat × Nat) : List Nat := (List.range ((x.1 + x.2 - 1) / 4 + 1 - x.1 / 4)).map fun i => x.1 / 4 + i

/-- The words of bank 3 that uses of one direction touch in cycle `c`. -/
def useWords (l : List PathUse) (write : Bool) (c : Nat) : List Nat :=
  l.flatMap fun u =>
    if u.write = write then ((u.segs c).flatMap segWords).filter fun w => bankOf (4 * w) == 3 else []

/-- The part of a byte run that lies in word `w`: its address and its bytes. -/
def wordPart (addr : Nat) (l : List Byte) (w : Nat) : Nat × List Byte :=
  let lo := max addr (4 * w)
  (lo, (l.drop (lo - addr)).take (4 * w + 4 - lo))

/-- The sub-banks of banks 0 to 2 that uses touch in cycle `c`. -/
def useSubs (l : List PathUse) (c : Nat) : List Nat := ((l.flatMap fun u => u.segs c).flatMap segSubs).filter fun k => decide (k < 24)

/-- An access of banks 0 to 2 touches a sub-bank that uses take in cycle `c` (R229). -/
def subsMeet (l : List PathUse) (c addr n : Nat) : Bool := (segSubs (addr, n)).any fun k => (useSubs l c).contains k

/-- The stream reads a word in the ac in which port D writes it: an event with the reader's IDs, and the mark (R230).
DEDUCED: log 18. -/
def State.undefinedRead (s : State) (t : TileId) (id : Ids) (w : Nat) : State :=
  s.abortTile t 0x0013 9 20 id (leBytes 4 (4 * w))

/-- A wake of a bank starts, 40 ac long (R234). -/
def Tile.startWake (tl : Tile) (b : Nat) (freezes : Bool) : Tile :=
  if (tl.spBank b).power = .sleep then
    tl.modSpBank b fun k => { k with power := .waking, wakeEnd := tl.seq.cycle + 40, freezes }
  else tl

/-- An access waits, at its place among those that wait: a BUSY is counted, and a sleeping bank begins to wake (R230, R234,
R250). DEDUCED: log 17. -/
def Tile.holdAt (tl : Tile) (place cycle : Nat) (a : HeldAccess) : Tile :=
  let tl := match a.why with
    | .wake => tl.startWake (bankOf a.addr) false
    | .busy => { tl with busyCount := tl.busyCount + 1 }
    | _ => tl
  { tl with held := tl.held.take place ++ [{ a with since := cycle }] ++ tl.held.drop place }

/-- An access touches the region of the Tidewalk step in progress (R236). -/
def Tile.inStep (tl : Tile) (addr n : Nat) : Bool :=
  match tl.step with
  | some st => decide (64 ≤ st.region) && segIn st.region (addr, n)
  | none => false

/-- The cycle in which a cluster DMA access at a tile is made: that of the stream while it issues, else the one that the
clock has reached (R133, R229). DEDUCED: log 210. -/
def State.dmaCycle (s : State) (t : TileId) : Nat :=
  if (s.tile t).seq.st = .issuing then (s.tile t).seq.ac else s.liveAc t

/-- What holds a DMA access in a cycle: a sleeping bank, a Tidewalk step, a sub-bank of banks 0 to 2 that the stream uses, or,
for a read on bank 3, a word that the stream writes (R229, R230, R234, R236). DEDUCED: log 17. -/
def Tile.dmaHold (tl : Tile) (cycle addr n : Nat) (read : Bool) : Option HoldWhy :=
  match (tl.spBank (bankOf addr)).power with
  | .sleep | .waking => some .wake
  | _ =>
    if tl.inStep addr n then some .step
    else if bankOf addr < 3 then (if subsMeet tl.paths cycle addr n then some .subbank else none)
    else if read && (segWords (addr, n)).any fun w => (useWords tl.paths true cycle).contains w then some .busy
    else none

/-! ### Writes -/

/-- Bytes of a write land: in the accepted write and in the count of its epoch (R242, R243). DEDUCED: log 17. -/
def State.landed (s : State) (t : TileId) (k : LandKey) (n : Nat) : State :=
  let s := s.modTile t fun tl =>
    let h := k.window.toNat % 32
    let cur := BitVec.ofNat 32 (hf (s.handle t h) 63 32)
    let upd (w : PutWrite) : PutWrite :=
      if w.window = k.window ∧ w.epoch = k.epoch ∧ w.writer = k.writer ∧ w.tag = k.tag then { w with got := w.got + n }
      else w
    let tl := { tl with writes := tl.writes.map upd }
    tl.modWin h fun w =>
      if k.epoch = cur then { w with openLanded := w.openLanded + n } else { w with closedLanded := w.closedLanded + n }
  s.count (clusterOf t) 10 n

/-- A piece of a cluster DMA write is made (R230, R243). -/
def State.dmaKeep (s : State) (t : TileId) (a : HeldAccess) (addr : Nat) (data : List Byte) : State :=
  let s := s.modTile t fun tl => tl.spWrite addr data
  match a.land with | some k => s.landed t k data.length | none => s

/-- A DMAH is complete once no byte of it waits (R130). -/
def State.dmahLanded (s : State) (t : TileId) (key : Nat) : State :=
  s.modTile t fun tl =>
    if tl.held.any fun a => decide (a.op = some key) then tl
    else match tl.ops.find? fun o => decide (o.key = key) && o.landing with
      | some o => { tl.countDone o with ops := tl.ops.erase o }
      | none => tl

/-- A cluster DMA write is made in a cycle: on bank 3, a word that a segment in flight touches gets BUSY, and waits at the
place of its write (R230, R250). A reader in flight has an undefined value, but what its micro-op has made of the word
stands. DEDUCED: log 17, 18; UNVERIFIED: log 171. -/
def State.dmaPut (s : State) (t : TileId) (place cycle : Nat) (a : HeldAccess) : State :=
  let tl := s.tile t
  let rd := useWords tl.paths false cycle
  let wr := useWords tl.paths true cycle
  let s := (s.count (clusterOf t) 5 a.len).modTile t fun tl => tl.touch [bankOf a.addr] (s.tileAc t)
  let met := if bankOf a.addr = 3 then
    (segWords (a.addr, a.len)).filter fun w => rd.contains w || wr.contains w else []
  let s := if met = [] then s.dmaKeep t a a.addr a.data
    else
      ((segWords (a.addr, a.len)).foldl (fun (y : State × Nat) w =>
        let s := y.1
        let x := wordPart a.addr a.data w
        if met.contains w then
          let s := s.modTile t fun tl => tl.holdAt y.2 cycle
            { a with why := .busy, addr := x.1, len := x.2.length, data := x.2, tries := a.tries + 1 }
          let s := if rd.contains w then
              match tl.paths.find? fun u => (useWords [u] false cycle).contains w with
              | some u => s.undefinedRead t u.ids w
              | none => s
            else s
          (s, y.2 + 1)
        else (s.dmaKeep t a x.1 x.2, y.2)) (s, place)).1
  match a.op with | some key => s.dmahLanded t key | none => s

/-! ### Refusals (R249) -/

/-- NO_WINDOW -/
def rNoWindow : BitVec 8 := 0x01
/-- PERM -/
def rPerm : BitVec 8 := 0x02
/-- STALE_EPOCH -/
def rStale : BitVec 8 := 0x03
/-- NO_CREDIT -/
def rNoCredit : BitVec 8 := 0x04
/-- BAND_OFF -/
def rBandOff : BitVec 8 := 0x05
/-- TORN -/
def rTorn : BitVec 8 := 0x06
/-- PARITY -/
def rParity : BitVec 8 := 0x07
/-- RECOMMITTED -/
def rRecommitted : BitVec 8 := 0x08
/-- RANGE -/
def rRange : BitVec 8 := 0x09

/-- The tile and the handle that a window ID names on this device, when the handle is a write or read window (R240, R249). -/
def State.window? (s : State) (w : BitVec 24) : Option (TileId × Nat) :=
  if w.toNat / 65536 = s.devNum.toNat then
    match tileOfBits? (w.toNat % 65536) with
    | some t =>
      let h := s.handle t (w.toNat % 32)
      if handleValid h && (hf h 126 125 == 1 || hf h 126 125 == 2) then some (t, w.toNat % 32) else none
    | none => none
  else none

/-- A refusal: counted in the window's status word, an event, and a NACK (R244, R249). DESIGN CHOICE: log 32, 202. -/
def State.refuse (s : State) (w : BitVec 24) (via : Via) (epoch : BitVec 32) (tag : BitVec 16) (reason : BitVec 8)
    (detail : BitVec 32) : State :=
  let det := leBytes 3 w.toNat ++ [reason]
  let s := match s.window? w with
    | some (t, h) =>
      let s := s.modTile t fun tl => tl.modWin h fun x =>
        if reason = rStale then { x with stale := satAdd x.stale 1 } else { x with refused := satAdd x.refused 1 }
      s.raise 0x0009 clsNone (s.srcTile t 21) noIds (s.tileOwner? t) det
    | none =>
      match tileOfBits? (w.toNat % 65536) with
      | some t => s.raise 0x0009 clsNone (s.srcTile t 21) noIds (s.tileOwner? t) det
      | none => s.raise 0x0009 clsNone (s.srcH 8 0) noIds none det
  s.send (.via via) (.nack w epoch tag reason detail)

/-! ### Reads (R252) -/

/-- The data of a read segment that the device sends (log entry 23). DEDUCED: log 23. -/
def readSegMax : Nat := 4032

/-- Answer an accepted read: data segments of the public buffer with the frame of the commit they read; after `after`
segments the window has toggled, and the read ends with RECOMMITTED, as does a read that waited while its window toggled
(R252, R441). DEDUCED: log 23. -/
def State.answerRead (s : State) (q : HeldRead) : State :=
  let r := q.r
  let gone : State := s.send (.via q.via) (.nack r.window 0 r.tag rRecommitted 0)
  match s.window? r.window with
  | none => gone
  | some (t, h) =>
    let n := r.lm1.toNat + 1
    let addr := s.bufBase t (s.handle t h) true + r.offset.toNat
    if hf (s.handle t h) 63 32 ≠ q.epoch.toNat then gone
    else
      let data := (s.tile t).spRead addr n
      let k := ceilDiv n readSegMax
      let frame := match s.tileOwner? t with | some p => (s.part p).lastFrame | none => 0
      let sent := match q.after with | some j => min j k | none => k
      let s := (s.count (clusterOf t) 5 n).modTile t fun tl => tl.touch [bankOf addr] (s.tileAc t)
      let s := (List.range sent).foldl (fun s i =>
        let seg := (data.drop (readSegMax * i)).take readSegMax
        s.send (.via q.via) (.readSeg
          { window := r.window, frame, tag := r.tag, sofs := BitVec.ofNat 32 (readSegMax * i)
            slm1 := BitVec.ofNat 8 (ceilDiv seg.length 64 - 1), last := i + 1 = k, rsvd := 0 } seg)) s
      if sent < k then s.send (.via q.via) (.nack r.window 0 r.tag rRecommitted 0) else s

/-! ### Every access -/

/-- Two waiting accesses are writes of one writer to one window (R250). -/
def sameWriter (a b : HeldAccess) : Bool :=
  match a.land, b.land with
  | some x, some y => decide (x.window = y.window) && decide (x.writer = y.writer)
  | _, _ => false

/-- The writes of the stream in the cycles before one in which the DMA accesses a tile stand; an idle sequencer has none in
flight (R160). DEDUCED: log 9. -/
def Tile.landFor (tl : Tile) (cycle : Nat) : Tile := if tl.seq.st = .idle then tl.landAll else tl.landLate cycle

/-- A cluster DMA access is made in a cycle whose stream accesses are known: it waits at its place, or it is made, or its read
meets a parity error (R160, R229 to R236). -/
def State.dmaAt (s : State) (t : TileId) (place cycle : Nat) (a : HeldAccess) : State :=
  let s := s.modTile t (·.landFor cycle)
  let wait (a : HeldAccess) : State := s.modTile t fun tl => tl.holdAt place cycle a
  match (s.tile t).dmaHold cycle a.addr a.len a.req.isSome with
  | some why => wait { a with why }
  | none =>
    match a.req with
    | none => s.dmaPut t place cycle a
    | some q =>
      if q.parityErr then wait { a with why := .parity, tries := 1, req := some { q with parityErr := false } }
      else s.answerRead q

/-- A cluster DMA access is tried: it waits behind an earlier write of the same writer, or, while the stream issues, to the end
of the ac, for the micro-op of the ac comes first, or it is made (R228 to R230, R250, R255). DEDUCED: log 210. -/
def State.dmaTry (s : State) (t : TileId) (place : Nat) (a : HeldAccess) : State :=
  let cycle := s.dmaCycle t
  let wait (why : HoldWhy) : State := s.modTile t fun tl => tl.holdAt place cycle { a with why }
  if ((s.tile t).held.take place).any fun b => sameWriter a b then wait .order
  else if (s.tile t).seq.st = .issuing then wait .cycle
  else s.dmaAt t place cycle a

/-- A held access whose wait is over is tried again at its place. -/
def State.serveHeld (s : State) (t : TileId) (a : HeldAccess) : State :=
  let place := (s.tile t).held.idxOf a
  (s.modTile t fun tl => { tl with held := tl.held.erase a }).dmaTry t place a

/-- Serve the held accesses that a condition names, oldest first. -/
def State.serveSome (s : State) (t : TileId) (f : HeldAccess → Bool) : State :=
  s.each ((s.tile t).held.filter f) fun s a => s.serveHeld t a

/-- Serve the held accesses that a condition names, and the later writes of their writers, which waited for them. -/
def State.serveAll (s : State) (t : TileId) (f : HeldAccess → Bool) : State :=
  (s.serveSome t f).serveSome t fun a => decide (a.why = .order)

/-- The accesses made in an ac that is over are served with what its micro-op used, and those that waited for a sub-bank in an
earlier ac are tried again (R229, R230, R255). DEDUCED: log 210. -/
def State.settleDma (s : State) (t : TileId) : State :=
  let over_ (s : State) (a : HeldAccess) : Bool :=
    decide ((s.tile t).seq.st ≠ .issuing) || decide (a.since < (s.tile t).seq.ac)
  let s := s.each ((s.tile t).held.filter fun a => decide (a.why = .cycle) && over_ s a) fun s a =>
    let place := (s.tile t).held.idxOf a
    (s.modTile t fun tl => { tl with held := tl.held.erase a }).dmaAt t place a.since a
  s.serveAll t fun a => decide (a.why = .subbank) && decide (a.since < s.dmaCycle t)

/-- Every access that waits for the stream or for a Tidewalk step is served: the tile has no work in hand any longer. -/
def State.freeDma (s : State) (t : TileId) : State :=
  s.serveAll t fun a => decide (a.why = .cycle ∨ a.why = .subbank ∨ a.why = .step)

/-- A new cluster DMA access, after those that wait (R250). -/
def State.dmaNew (s : State) (t : TileId) (a : HeldAccess) : State :=
  let s := s.settleDma t
  s.dmaTry t (s.tile t).held.length { a with first := s.dmaCycle t }

/-- A cluster DMA write (R234, R236). -/
def State.dmaWrite (s : State) (t : TileId) (addr : Nat) (data : List Byte) (land : Option LandKey) (op : Option Nat) : State :=
  s.dmaNew t { why := .busy, addr, len := data.length, data, tries := 0, land, req := none, op }

/-- The words of bank 3 that a micro-op reads in its issue cycle and a DMA write of the same ac is to change (R230). -/
def State.underWrite (s : State) (t : TileId) (us : List PathUse) : List Nat :=
  let ac := (s.tile t).seq.ac
  let writes := (s.tile t).held.filter fun a => decide (a.why = .cycle) && a.req.isNone && decide (a.since = ac)
  (useWords us false ac).eraseDups.filter fun w => writes.any fun a => (segWords (a.addr, a.len)).contains w

/-- Such a word holds free bytes for the micro-op (R230). DEDUCED: log 18. -/
def State.freeWords (s : State) (t : TileId) (us : List PathUse) : State :=
  (s.underWrite t us).foldl (fun s w =>
    let free := (List.range 4).map fun i => Config.freeByte (4 * s.freeCtr + i)
    (s.modTile t fun tl => tl.spWrite (4 * w) free).drawn) s

end Sys2Proof.Machine
end

