-- ==== Sys2Proof/Machine/Issue.lean ====
section
/-! DEFINITION. Issuing a micro-op: the verdict, its begin and end, its accesses of the scratchpad, and waits (R124, R128,
R133, R134, R161, R162, R228, R236, R243, R511). -/

namespace Sys2Proof.Machine

/-- The rendezvous points that a micro-op of a tile may name (R154). -/
def State.pointCount (s : State) (t : TileId) : Nat :=
  match s.tileOwner? t with | some p => (s.pointTable p).length | none => 0

/-- What the sequencer does with a micro-op offered to it. -/
inductive Verdict where
  /-- It is not what the sequencer issues now: it waits, is frozen or stopped, its band is down, or the instruction
  buffer holds another micro-op. -/
  | absent
  /-- The decoder refuses the stored micro-op (R511). -/
  | refused (w : BitVec 128)
  /-- It issues. -/
  | accepted
  deriving DecidableEq, Repr

/-- The verdict on a micro-op with stored word `w`: a sequencer with an image issues what its buffer holds at PC;
one without takes the micro-op as given. DEDUCED: log 7. -/
def State.verdict (s : State) (t : TileId) (w : BitVec 128) : Verdict :=
  let tl := s.tile t
  if s.tileUp t = false ∨ tl.frozenNow = true then .absent
  else if tl.hasImage then
    if tl.seq.st = .issuing then
      let stored := Store.get 0 tl.ibuf tl.seq.pc.toNat
      if uopRefused (s.pointCount t) stored then .refused stored
      else if stored = w then .accepted else .absent
    else .absent
  else if tl.seq.st = .idle then
    if uopRefused (s.pointCount t) w then .refused w else .accepted
  else .absent

/-- The sequencer refuses a decoded micro-op: a schedule conflict with the IDs as stored, and a tile with an image
issues nothing further in the frame (R511). DEDUCED: log 7. -/
def State.refuseUop (s : State) (t : TileId) (w : BitVec 128) : State :=
  let s := s.conflict t { layer := w.extractLsb' 112 16, opid := w.extractLsb' 96 16 } [] [] 16
  s.modTile t fun tl => if tl.hasImage then tl.modSeq fun q => { q with st := .stopped } else tl

/-- What is due at a tile before its next micro-op issues: outputs of the PPU reach the monitor, the DMA accesses of earlier
cycles are served, and the writes of earlier cycles stand (R118, R160, R229, R255). -/
def State.due (s : State) (t : TileId) : State :=
  let s := (s.flushSamples t).settleDma t
  if (s.tile t).late = [] then s else s.modTile t fun tl => tl.landLate tl.seq.ac

/-- A micro-op begins: drained slots are FREE, the ID word holds its tags, the counter counts it, and a page that a
MOVE is writing and that it issues from puts that MOVE in conflict (R133, R161, R465). DEDUCED: log 7. -/
def State.begin_ (s : State) (t : TileId) (id : Ids) : State :=
  let hold := (s.tile t).pageHold
  let s := s.modTile t fun tl => tl.settle.modSeq fun q =>
    { q with layer := id.layer, opid := id.opid, ahead := 0 }
  let s := s.count (clusterOf t) 14 1
  match hold with
  | some (page, stop, ids) =>
    if (s.tile t).hasImage && (s.tile t).seq.pc.getLsbD 11 == page.getLsbD 0 && decide ((s.tile t).seq.ac < stop) then
      (s.modTile t fun tl => { tl with pageHold := none }).conflict t ids [] [] 16
    else s
  | none => s

/-- The next micro-op: the following index, one ac later (R124, R125). -/
def State.retire (s : State) (t : TileId) : State :=
  s.modTile t fun tl => tl.modSeq fun q => { q with pc := q.pc + 1, ac := q.ac + 1 }

/-- Offer a micro-op to the sequencer; `eff` is what it does when it issues. DEDUCED: log 7. -/
def State.issue (s : State) (t : TileId) (w : BitVec 128) (eff : State → State) : State :=
  match s.verdict t w with
  | .absent => s
  | .refused w' => s.refuseUop t w'
  | .accepted => eff (s.due t)

/-- The tile's units are busy to a cycle (R155, R160). -/
def Tile.busyTo (tl : Tile) (n : Nat) : Tile := { tl with unitsUntil := max tl.unitsUntil n }

/-- An access of the stream meets the Tidewalk step on bank 3: the tile freezes until the step ends, and the micro-op
issues then (R236). -/
def State.meetStep (s : State) (t : TileId) : State :=
  s.modTile t fun tl => { tl.modSeq (fun q => { q with twalk := satAdd q.twalk 1 }) with
    step := tl.step.map fun st => { st with freezes := true } }

/-! ### Closed epochs (R243) -/

/-- The write windows whose closed epoch is torn or short and whose buffer some read of a micro-op starts in. -/
def State.badWindows (s : State) (t : TileId) (us : List PathUse) : List Nat :=
  (s.windowsOf t 1).filter fun h =>
    let w := (s.tile t).win h
    let base := s.bufBase t (s.handle t h) false
    (w.torn || w.short) && !w.readBad && us.any fun u =>
      !u.write && decide (base ≤ u.addr) && decide (u.addr < base + handleLen (s.handle t h))

/-- A frame reads a closed epoch that is torn or short: an event names the window, and the frame is marked (R243).
DESIGN CHOICE: log 32. -/
def State.readClosed (s : State) (t : TileId) (id : Ids) (us : List PathUse) : State :=
  s.each (s.badWindows t us) fun s h =>
    (s.modTile t fun tl => tl.modWin h fun w => { w with readBad := true }).abortTile t 0x0009 7 21 id
      (leBytes 3 (s.devNum.toNat * 65536 + tileBits t + h))

/-- The uses in flight, one for each micro-op, whose segments meet those of new uses: on one sub-bank, or in a cycle that
exceeds 512 B in one direction (R161, R162, R228). DEDUCED: log 9, 19. -/
def Tile.meets (tl : Tile) (news : List PathUse) : List PathUse :=
  (tl.paths.filter fun u => news.any fun v => (List.range v.cycles).any fun i =>
    let c := v.start + i
    !(u.segs c).isEmpty && (useMeet u v c || decide (512 < pathSum (tl.paths ++ news) v.write c))).foldl
      (fun l u => if l.any fun x => decide (x.issue = u.issue) then l else l ++ [u]) []

/-- The units that a micro-op's conflict names (R162). -/
structure Units where
  macs : List Nat := []
  slots : List Nat := []
  unit : Nat := 20
  deriving DecidableEq, Repr

/-- The schedule conflict of a micro-op on its units (R162). -/
def State.conflictOn (s : State) (t : TileId) (id : Ids) (u : Units) : State := s.conflict t id u.macs u.slots u.unit

/-- A micro-op that accesses scratchpad: it begins, and either meets a conflict on its units, which the
micro-ops in flight that it meets share on theirs, or wakes sleeping
banks, takes its paths and does `ok` on scratchpad as its reads see it; what it writes is a late write; its address registers
are incremented (R128, R134, R160 to R162, R228, R230, R234, R243). DEDUCED: log 9, 19, 22; UNVERIFIED: log 172. -/
def State.access (s : State) (t : TileId) (id : Ids) (us : Option (List PathUse)) (incs : List (BitVec 3 × BitVec 1))
    (units : Units) (ok : State → State) : State :=
  let fails : Bool := match us with | some us => !(s.tile t).accessOk us | none => true
  if fails then
    let also : List PathUse := match us with | some us => (s.tile t).meets us | none => []
    let s := ((s.begin_ t id).conflictOn t id units).each also fun s u => s.conflict t u.ids u.macs u.slots u.unit
    (s.modTile t fun tl => tl.incQ incs).retire t
  else
    let us := (us.getD []).map fun u => { u with
      ids := id, macs := units.macs, slots := units.slots, unit := units.unit, issue := (s.tile t).seq.ac }
    if (s.tile t).stepHits us then s.meetStep t
    else
      let s := (s.begin_ t id).modTile t fun tl => ((tl.wakeFor us).addPaths us).touchUses us (s.tileAc t)
      let kept := s.tile t
      let s := ok (((s.readClosed t id us).modTile t (·.readView us)).freeWords t us)
      (s.modTile t fun tl => { tl.incQ incs with sp := kept.sp, spPar := kept.spPar }).retire t

/-- The sequencer starts to wait (R132, R134). -/
def State.wait_ (s : State) (t : TileId) (why : WaitWhy) (arg : BitVec 11) : State :=
  s.modTile t fun tl => tl.modSeq fun q => 
    { q with st := .waiting, why := why, waitArg := arg, waitFrom := q.ac, overBudget := false }

/-- The cycle `waited` ac after a wait began, or a later one that an event of the tile has reached. -/
def Seq.waitedTo (q : Seq) (waited : Nat) : Nat := max q.ac (q.waitFrom + waited)

/-- A waiting micro-op completes `waited` ac after its issue, and the next issues in the cycle after (R134).
DESIGN CHOICE: log 2. -/
def State.release (s : State) (t : TileId) (waited : Nat) : State :=
  let s := s.modTile t fun tl => tl.modSeq fun q =>
    { q with st := (if tl.hasImage then .issuing else .idle), why := .none, waitArg := 0, overBudget := false,
             waitUop := none, ac := q.waitedTo waited + 1, pc := q.pc + 1 }
  s.count (clusterOf t) 12 waited

end Sys2Proof.Machine
end

