-- ==== Sys2Proof/Machine/Sequencer.lean ====
section
/-! DEFINITION. The meanings of the control, synchronisation, power and test micro-ops and of the sequencer's events
(R125 to R135, R154 to R159, R175, R176). -/

namespace Sys2Proof.Machine

open Host (Outcome)

/-- A control micro-op: begin, change the tile, next micro-op. -/
def State.control (s : State) (t : TileId) (id : Ids) (f : Tile → Tile) : State :=
  ((s.begin_ t id).modTile t f).retire t

/-- NOP occupies its issue cycle and nothing else (R159). -/
def execNop (t : TileId) (id : Ids) (r : BitVec 88) (s : State) : Outcome State Fault Refusal :=
  .next (s.issue t (uopWord id 0x00 r) fun s => s.control t id fun tl => tl)

/-- LOOP setn writes a loop register (R129, R158). -/
def execLoopSetn (t : TileId) (id : Ids) (f : LoopSetnF) (s : State) : Outcome State Fault Refusal :=
  .next (s.issue t (uopWord id 0x01 (loopSetnBits f)) fun s =>
    s.control t id fun tl => { tl with n := Store.set tl.n f.n.toNat f.value })

/-- LOOP setq writes an address register (R127, R158). -/
def execLoopSetq (t : TileId) (id : Ids) (f : LoopSetqF) (s : State) : Outcome State Fault Refusal :=
  .next (s.issue t (uopWord id 0x01 (loopSetqBits f)) fun s =>
    s.control t id fun tl => { tl with q := Store.set tl.q f.q.toNat f.value })

/-- LOOP branch: while n is not zero it is decremented and the next index is TARGET (R158). -/
def execLoopBranch (t : TileId) (id : Ids) (f : LoopBranchF) (s : State) : Outcome State Fault Refusal :=
  .next (s.issue t (uopWord id 0x01 (loopBranchBits f)) fun s =>
    s.control t id fun tl =>
      let v := Store.get 0 tl.n f.n.toNat
      if v = 0 then tl
      else { tl with n := Store.set tl.n f.n.toNat (v - 1), seq := { tl.seq with pc := f.target - 1 } })

/-- LOOP jump: the next index is TARGET (R158). -/
def execLoopJump (t : TileId) (id : Ids) (f : LoopJumpF) (s : State) : Outcome State Fault Refusal :=
  .next (s.issue t (uopWord id 0x01 (loopJumpBits f)) fun s =>
    s.control t id fun tl => { tl with seq := { tl.seq with pc := f.target - 1 } })

/-- WAITC count: the next micro-op issues COUNT ac later (R159). -/
def execWaitcCount (t : TileId) (id : Ids) (f : WaitcCountF) (s : State) : Outcome State Fault Refusal :=
  .next (s.issue t (uopWord id 0x02 (waitcCountBits f)) fun s =>
    s.control t id fun tl => { tl with
      seq := { tl.seq with ac := tl.seq.ac + (f.count.toNat - 1), ahead := f.count.toNat - 1 } })

/-- WAITC done: wait with reason bank until the counter has at most K incomplete operations (R159). -/
def execWaitcDone (t : TileId) (id : Ids) (f : WaitcDoneF) (s : State) : Outcome State Fault Refusal :=
  .next (s.issue t (uopWord id 0x02 (waitcDoneBits f)) fun s =>
    let s := s.begin_ t id
    if ((s.tile t).counter f.cnt.toNat).open_ ≤ f.k.toNat then s.retire t
    else
      (s.wait_ t .bank (f.cnt.setWidth 11)).modTile t fun tl => tl.modSeq fun q => { q with waitK := f.k })

/-- A WAITC in done mode finds its counter low enough (R134, R159). -/
def execWaitcDoneRelease (t : TileId) (waited : Nat) (s : State) : Outcome State Fault Refusal :=
  let q := (s.tile t).seq
  .next (if s.tileUp t = true ∧ q.st = .waiting ∧ q.why = .bank ∧
      ((s.tile t).counter q.waitArg.toNat).open_ ≤ q.waitK.toNat then s.release t waited else s)

/-- RDV arrive: count an arrival (R154, R174, R175). -/
def execRdvArrive (t : TileId) (id : Ids) (f : RdvF) (s : State) : Outcome State Fault Refusal :=
  .next (s.issue t (uopWord id 0x38 (rdvBits 1 f)) fun s =>
    ((s.begin_ t id).arrive t id f.rid.toNat (f.grant = 1)).retire t)

/-- A wait at a point that a cancel has completed marks the frame with cause 0xC and CANCELLED. Where the wait issues only
after the cancel, which R180 does not settle, the wait completes at once and the tile issues on until the frame's stop is
reported. DESIGN CHOICE: log 179. -/
def State.cancelAt (s : State) (p : PartId) (rid : Nat) : State :=
  if ((s.part p).point rid).cancelled && (s.part p).run.active then
    (s.markFrame p 0xC 0xFFFF).modPart p fun pt => { pt with run := { pt.run with cancelled := true } }
  else s

/-- Wait at a point, or complete in the issue cycle when its counts are complete and the release latency is over (R154,
R174, R175). DESIGN CHOICE: log 179. -/
def State.rdvWaitAt (s : State) (t : TileId) (rid : BitVec 10) : State :=
  match s.tileOwner? t with
  | some p =>
    let x := (s.part p).point rid.toNat
    if s.pointDone p rid.toNat && (x.cancelled || decide (x.doneOn (dieOf t) ≤ s.tileTime p t)) then
      (s.cancelAt p rid.toNat).retire t
    else s.wait_ t .rdv (rid.setWidth 11)
  | none => s.retire t

/-- RDV wait (R154). -/
def execRdvWait (t : TileId) (id : Ids) (f : RdvF) (s : State) : Outcome State Fault Refusal :=
  .next (s.issue t (uopWord id 0x38 (rdvBits 2 f)) fun s => (s.begin_ t id).rdvWaitAt t f.rid)

/-- RDV arrive, then wait (R154). -/
def execRdvArriveWait (t : TileId) (id : Ids) (f : RdvF) (s : State) : Outcome State Fault Refusal :=
  .next (s.issue t (uopWord id 0x38 (rdvBits 3 f)) fun s =>
    ((s.begin_ t id).arrive t id f.rid.toNat (f.grant = 1)).rdvWaitAt t f.rid)

/-- The ac after which a wait at a point is over its budget: the point's nominal release latency and BUDGET (R176).
DEDUCED: log 176. -/
def State.budgetAc (s : State) (p : PartId) (rid : Nat) : Nat :=
  let e := (s.pointTable p).getD rid 0
  s.nominalAc p e + hf e 63 32

/-- A wait of `waited` ac outlasts its nominal release latency by more than BUDGET: an event with the tags of the RDV and
the RID, and the partition's over-budget count, once for each wait (R176). -/
def State.overBudget (s : State) (p : PartId) (t : TileId) (waited : Nat) : State :=
  let q := (s.tile t).seq
  if q.overBudget = false ∧ s.budgetAc p q.waitArg.toNat < waited then
    let s := s.modTile t fun tl => tl.modSeq fun q => { q with overBudget := true }
    let s := s.raise 0x000B clsNone (s.srcTile t 16) { layer := q.layer, opid := q.opid } (some p) (leBytes 2 q.waitArg.toNat)
    s.modPart p fun pt =>
      { pt with overBudgetCount := pt.overBudgetCount + 1, run := { pt.run with overBudget := pt.run.overBudget + 1 } }
  else s

/-- A wait at a point completes, not before the point's release latency is over; one that has outlasted its budget is
reported first (R134, R174, R176). -/
def execRdvWaitRelease (t : TileId) (waited : Nat) (s : State) : Outcome State Fault Refusal :=
  let q := (s.tile t).seq
  .next (match s.tileOwner? t with
    | some p =>
      if s.tileUp t = true ∧ q.st = .waiting ∧ q.why = .rdv ∧ s.pointDone p q.waitArg.toNat then
        let n := max waited (s.latencyLeft p t q.waitArg.toNat)
        (s.overBudget p t n).release t n
      else s
    | none => s)

/-- A wait at a point has lasted `waited` ac and goes on: past its budget it is reported (R176). -/
def execRdvOverBudget (x : PointWait) (s : State) : Outcome State Fault Refusal :=
  let q := (s.tile x.tile).seq
  .next (match s.tileOwner? x.tile with
    | some p => if q.st = .waiting ∧ q.why = .rdv then s.overBudget p x.tile x.waited else s
    | none => s)

/-- GATE ends the tile's frame: the sequencer waits with reason gate, and the next frame starts at START (R155). -/
def execGate (t : TileId) (id : Ids) (f : GateF) (s : State) : Outcome State Fault Refusal :=
  .next (s.issue t (uopWord id 0x39 (gateBits f)) fun s =>
    ((s.begin_ t id).wait_ t .gate 0).modTile t fun tl => tl.modSeq fun q => { q with start := f.start, done := false })

/-- Everything of the tile is complete: counters, passes, landings, drains, loads, streams (R155). -/
def Tile.quiet (tl : Tile) : Bool :=
  (List.range 4).all (fun i => (tl.counter i).open_ == 0) && tl.passes.isEmpty && tl.landings.isEmpty &&
    tl.streams.isEmpty && tl.replay.isEmpty && decide (tl.unitsUntil ≤ tl.seq.ac) &&
    (List.range 8).all fun a => (tl.slot a).st != .draining

/-- The tile reports done, `waited` ac after GATE: a slot that is not FREE is a schedule conflict (R155). -/
def execTileDoneReport (t : TileId) (waited : Nat) (s : State) : Outcome State Fault Refusal :=
  let q := (s.tile t).seq
  .next (if s.tileUp t = true ∧ q.st = .waiting ∧ q.why = .gate ∧ q.done = false then
    let s1 := ((s.modTile t fun tl => tl.modSeq fun q => { q with ac := q.waitedTo waited }).due t).modTile t Tile.settle
    if (s1.tile t).quiet then
      let busy := (List.range 8).filter fun a => ((s1.tile t).slot a).st != .free
      let s1 := s1.modTile t Tile.landAll
      let s2 := if busy = [] then s1 else s1.conflict t { layer := q.layer, opid := q.opid } [] busy 17
      let s3 := (s2.modTile t fun tl => tl.modSeq fun q => { q with done := true }).count (clusterOf t) 12 waited
      match s.tileOwner? t with
      | some p => s3.modPart p fun pt =>
          if pt.run.active then
            { pt with run := { pt.run with
                tilesDone := if pt.run.tilesDone.contains t.val then pt.run.tilesDone else pt.run.tilesDone ++ [t.val],
                lastDone := s.now } }
          else pt
      | none => s3
    else s
  else s)

/-- The ac clock that a phase is counted by, as it stands (R3, R384). DEDUCED: log 174. -/
def State.phaseClock (s : State) (d : DieId) (x : Phase) : Nat :=
  match x.part with | some p => s.acNow p d | none => acIn 16 (s.dieClock d)

/-- The divider in force for a phase. -/
def State.phaseDiv (s : State) (x : Phase) : Nat := match x.part with | some p => (s.part p).div2.toNat | none => 16

/-- A phase of LEVEL 8 or more that has not ended starts within 2 µs at the divider in force, or runs: STEP is asserted
(R384). -/
def State.stepDue (s : State) (d : DieId) (x : Phase) : Bool :=
  decide (8 ≤ x.level.toNat) && decide (s.phaseClock d x < x.last) &&
    decide (acLen (s.phaseDiv x) (x.first - s.phaseClock d x) ≤ 48000)

/-- The STEP output of a die. -/
def Pins.setStep (x : Pins) (d : DieId) (on : Bool) : Pins := if d = 0 then { x with stepA := on } else { x with stepB := on }

/-- HINT announces a phase to the die's power control: DIST and PLEN count ac of the partition, whatever its divider. A phase
that starts within 2 µs asserts STEP at once (R3, R156, R384). DEDUCED: log 174. -/
def execHint (t : TileId) (id : Ids) (f : HintF) (s : State) : Outcome State Fault Refusal :=
  .next (s.issue t (uopWord id 0x40 (hintBits f)) fun s =>
    let s := s.begin_ t id
    let d := dieOf t
    let first := s.tileAc t + f.dist.toNat
    let ph : Phase := { part := s.tileOwner? t, first, last := first + f.plen.toNat * 64, level := f.level }
    let s := s.modDie d fun x => { x with phases := (x.phases.filter fun y => decide (s.phaseClock d y < y.last)) ++ [ph] }
    let s := if s.stepDue d ph then { s with pins := s.pins.setStep d true } else s
    s.retire t)

/-- The accesses in flight to a bank 0 to 2 that a window opening now names, in the window's course (R432). -/
def Tile.twinMeets (tl : Tile) (spbanks : BitVec 4) : List PathUse :=
  tl.paths.filter fun u => decide (tl.seq.ac < u.start + u.cycles) &&
    (useBanks [u]).any fun b => decide (b < 3) && spbanks.getLsbD b

/-- TWIN opens a test window of WLEN ac from its issue, beside those that are open (R157); an access in flight to a bank that it names is a schedule
conflict (R432). -/
def execTwin (t : TileId) (id : Ids) (f : TwinF) (s : State) : Outcome State Fault Refusal :=
  .next (s.issue t (uopWord id 0x48 (twinBits f)) fun s =>
    let met := (s.tile t).twinMeets f.spbanks
    (s.control t id fun tl => { tl with
      twin := tl.twinsOpen ++ [{ macros := f.macros, spbanks := f.spbanks, stopAt := tl.seq.ac + f.wlen.toNat }] }).each met
      fun s u => s.conflict t u.ids u.macs u.slots u.unit)

/-- LAYER and OPID of the micro-op that the sequencer is to issue (R124). DEDUCED: log 137. -/
def Tile.nextIds (tl : Tile) : Ids :=
  let w := Store.get 0 tl.ibuf tl.seq.pc.toNat
  { layer := w.extractLsb' 112 16, opid := w.extractLsb' 96 16 }

/-- The micro-op in flight whose segment of this ac or of the one before touches a scratchpad word (R126, R231). -/
def Tile.reader? (tl : Tile) (w : Nat) : Option Ids :=
  (tl.paths.find? fun u => (List.range u.cycles).any fun i =>
    decide (tl.seq.ac ≤ u.start + i + 1) && (u.segs (u.start + i)).any fun x => (segWords x).contains w).map fun u => u.ids

/-- One parity replay: a freeze of 12 ac, counted, with an event (R126, R135, R172). DEDUCED: log 137. -/
def State.parityReplay (s : State) (t : TileId) (tries : Nat) : State :=
  let s := s.modTile t fun tl => tl.modSeq fun q =>
    { q.freeze 12 with st := .frozen, parTries := tries, parity := satAdd q.parity 1 }
  (s.raise 0x0004 clsNone (s.srcTile t 16) (s.tile t).seq.parIds (s.tileOwner? t) []).count (clusterOf t) 11 12

/-- The first replay of a word: `ids` are the tags of the micro-op that reads it (R126, R138). -/
def State.firstReplay (s : State) (t : TileId) (word : Option Nat) (ids : Ids) : State :=
  (s.modTile t fun tl => tl.modSeq fun q => { q with parWord := word, parIds := ids, parBack := q.st }).parityReplay t 1

/-- A fetched word, or a scratchpad word that a micro-op in flight reads, fails its parity check: the tile freezes for a
replay (R126). DESIGN CHOICE: log 21. -/
def execFetchParityReplay (x : ParityAt) (s : State) : Outcome State Fault Refusal :=
  let tl := s.tile x.tile
  .next (if s.tileUp x.tile = false ∨ tl.seq.st = .frozen then s
    else match x.word with
      | none =>
        if tl.seq.st = .issuing ∨ (tl.seq.st = .idle ∧ tl.hasImage = false) then s.firstReplay x.tile none tl.nextIds else s
      | some w => match tl.reader? w with
        | some ids => s.firstReplay x.tile (some w) ids
        | none => s)

/-- A parity replay ends: the word is good, or it is replayed once more, or the frame aborts and the tile stops; the page
of a fetched word is reloaded before ready (R126). DEDUCED: log 137, 165. -/
def execParityReplayEnd (t : TileId) (good : Bool) (s : State) : Outcome State Fault Refusal :=
  let q := (s.tile t).seq
  .next (if q.st = .frozen ∧ q.parTries ≠ 0 then
    if good then
      let s := s.modTile t fun tl => tl.modSeq fun q => { q with st := q.parBack, parTries := 0 }
      s.raise 0x0004 clsReplayed (s.srcTile t 16) q.parIds (s.tileOwner? t) []
    else if q.parTries = 1 then s.parityReplay t 2
    else
      let s := s.modTile t fun tl => tl.modSeq fun q => { q with st := .stopped, parTries := 0 }
      let s := s.abortTile t 0x0004 3 16 q.parIds []
      match q.parWord, s.tileOwner? t with
      | none, some p => s.modPart p fun pt =>
          { pt with pageReload := if pt.pageReload.contains t.val then pt.pageReload else pt.pageReload ++ [t.val] }
      | _, _ => s
  else s)

/-- The tiles of a cluster issue their first micro-op, at the cluster's stagger (R131, R167). -/
def execTileFirstIssue (c : ClusterId) (s : State) : Outcome State Fault Refusal :=
  .next (match s.owner? c with
    | none => s
    | some p =>
      if (s.part p).run.active && !(s.part p).run.stopped then
        s.each ((List.finRange 512).filter fun t => decide (clusterOf t = c)) fun s t =>
          let tl := s.tile t
          if tl.hasImage && s.tileUp t && tl.seq.st == .waiting && tl.seq.why == .gate && !tl.seq.started then
            s.modTile t fun tl => tl.modSeq fun q => { q with st := .issuing, why := .none, started := true }
          else s
      else s)

/-- The first 64 ac of a tile's stream are over: passes run at the partition's class (R45, R168).
DEDUCED: log 166. -/
def execSoftStartEnd (t : TileId) (s : State) : Outcome State Fault Refusal :=
  .next (if s.tileUp t = true ∧ (s.tile t).seq.soft = true then
    s.modTile t fun tl => tl.modSeq fun q => { q.reach (64 - q.frozen) with soft := false }
  else s)

end Sys2Proof.Machine
end

