-- ==== Sys2Proof/Machine/Array.lean ====
section
/-! DEFINITION. The compute macro: passes and their checks (R35 to R58, R109 to R117, R140, R141), landings (R76 to R79,
R89 to R96), loads and swaps of banks (R59 to R64, R142, R143, R205 to R212). -/

namespace Sys2Proof.Machine

open Host (Outcome)

/-! ### Cells of a bank (R36 to R42) -/

/-- The physical column that serves column `p`: a spare whose steering field names it, or itself (R24, R40). -/
def physCol (steer : BitVec 32) (p : Nat) : Nat :=
  match (List.range 4).find? fun n => fieldN steer.toNat (8 * n + 7) (8 * n) == p with
  | some n => 140 + n
  | none => p

/-- The 140 columns of a row as reads see them through the steering word (R40). -/
def steeredRow (steer : BitVec 32) (c : BitVec 144) : Nat :=
  if steer = BitVec.allOnes 32 then c.toNat % 2 ^ 140
  else (List.range 140).foldl (fun n p => n + b2n (c.getLsbD (physCol steer p)) * 2 ^ p) 0

/-- The data columns of a row (R38). -/
def rowData (r : Nat) : Nat :=
  (List.range 4).foldl (fun n w => n + fieldN r (35 * w + 31) (35 * w) * 2 ^ (32 * w)) 0

/-- The checksum byte of a row (R38, R42). -/
def rowCheck (r : Nat) : Nat :=
  (List.range 4).foldl (fun n w => n + fieldN r (35 * w + 33) (35 * w + 32) * 2 ^ (2 * w)) 0

/-- The parity words of a row that hold an odd number of ones (R39). DESIGN CHOICE: log 21. -/
def rowParityBad (r : Nat) : List Nat :=
  (List.range 4).filter fun w => popcount (BitVec.ofNat 35 (fieldN r (35 * w + 34) (35 * w))) % 2 == 1

/-- The parity words of a bank's row that hold an odd number of ones (R39). -/
def Bank.parityBad (b : Bank) (r : Nat) : List Nat := rowParityBad (steeredRow b.steer (Store.get 0 b.cells r))

/-- Weight `k` of a row of P planes (R41, R68). -/
def weightOf (data p : Nat) (wsgn : Bool) (k : Nat) : Int := signedOf p (data / 2 ^ (k * p)) wsgn

/-- The checksum of a row's weights (R42). -/
def rowSum (data p : Nat) (wsgn : Bool) : Nat :=
  (((List.range (128 / p)).foldl (fun (n : Int) k => n + weightOf data p wsgn k) 0) % 255).toNat

/-- The columns of a row written with data and checksum byte: parity, then steering (R38 to R40). -/
def rowCells (steer : BitVec 32) (data chk : Nat) : BitVec 144 :=
  let r := (List.range 4).foldl (fun n w =>
    let v := fieldN data (32 * w + 31) (32 * w) + fieldN chk (2 * w + 1) (2 * w) * 2 ^ 32
    n + (v + popcount (BitVec.ofNat 34 v) % 2 * 2 ^ 34) * 2 ^ (35 * w)) 0
  (List.range 4).foldl (fun c n =>
    let f := fieldN steer.toNat (8 * n + 7) (8 * n)
    if f < 140 then c + BitVec.ofNat 144 (b2n (bitN r f) * 2 ^ (140 + n)) else c) (BitVec.ofNat 144 r)

/-- What the write port stores for a record, and whether its carried checksum byte is wrong (R208). -/
def portRow (steer : BitVec 32) (pm1 : BitVec 3) (wsgn : BitVec 1) (chkgen : Bool) (bytes : List Byte) :
    BitVec 144 × Bool :=
  let p := pm1.toNat + 1
  let data := leNat (bytes.take 16) % 2 ^ (128 / p * p)
  let sum := rowSum data p (wsgn = 1)
  let chk := if chkgen then sum else (bytes.getD 16 0).toNat
  (rowCells steer data chk, !decide (chk = sum))

/-- The row groups whose 64 rows are all written (R59). -/
def fullGroups (written : List Nat) : BitVec 4 :=
  (List.range 4).foldl (fun m g =>
    if (written.filter fun r => decide (r / 64 = g)).length = 64 then m + BitVec.ofNat 4 (2 ^ g) else m) 0

/-- The row groups with some row written. -/
def someGroups (written : List Nat) : BitVec 4 :=
  (List.range 4).foldl (fun m g => if written.any fun r => decide (r / 64 = g) then m + BitVec.ofNat 4 (2 ^ g) else m) 0

/-- A bank that becomes INVALID holds no loaded layer; the groups and rows of its load still read as they were, for
only a reset and R214 clear them (R59, R63). DEDUCED: log 133. -/
def Bank.invalidate (b : Bank) : Bank := { b with st := .invalid, layer := 0xFFFF, failed := false }

/-- A bank whose load is dropped: its rows and groups are cleared too (R214). DEDUCED: log 133. -/
def Bank.clearLoad (b : Bank) : Bank := { b.invalidate with groups := 0, asked := 0, written := [] }

/-- A bank whose contents are lost or wiped; its steering stays (R226). DEDUCED: log 133. -/
def Bank.wipe (b : Bank) : Bank := { steer := b.steer }

/-- The rows of a row-group mask, ascending (R142, R206). -/
def rowsOf (rgmask : BitVec 4) : List Nat := (onesOf rgmask).flatMap fun g => (List.range 64).map fun i => 64 * g + i

/-- A load names row groups of a bank: a new load records P and WSGN and has no groups yet (R59, R60). The groups named are
kept, for the end mark to find those of them whose rows a hard error has left unwritten (R210). -/
def Bank.startLoad (b : Bank) (rgmask : BitVec 4) (pm1 : BitVec 3) (wsgn : BitVec 1) (layer : BitVec 16) : Bank :=
  let b := if b.st = .loading then b
    else { b with
      st := .loading, groups := 0, asked := 0, written := [], failed := false, pm1, wsgn, srcs := [], sealedSrc := false, bare := false }
  { b with asked := b.asked ||| rgmask, layer }

/-- One row of a load in progress (R59, R208, R209). The Bool tells a wrong checksum byte. -/
def Bank.loadRow (b : Bank) (row : Nat) (chkgen : Bool) (bytes : List Byte) : Bank × Bool :=
  let (c, bad) := portRow b.steer b.pm1 b.wsgn chkgen bytes
  let written := if b.written.contains row then b.written else b.written ++ [row]
  ({ b with cells := Store.set b.cells row c, written, groups := fullGroups written, failed := b.failed || bad }, bad)

/-- The end mark finds every group of the load complete (R59, R210). -/
def Bank.complete (b : Bank) : Bool := b.asked == fullGroups b.written && someGroups b.written == fullGroups b.written

/-- The end mark: VALID when every group of the load is complete and the load has not failed (R59, R209, R210). -/
def Bank.endLoad (b : Bank) : Bank :=
  if b.complete = true ∧ b.failed = false then { b with st := .valid } else b.invalidate

/-! ### Passes -/

/-- g, the ac per bit-plane of n row groups in a class (R43). -/
def gOf (cls : Nat) (n : Nat) : Nat := ceilDiv n (match cls with | 0 => 4 | 1 => 2 | _ => 1)

/-- The class a pass runs at: class C in the first 64 ac of the stream, then the partition's (R44, R45). -/
def State.passClass (s : State) (t : TileId) : Nat :=
  let q := (s.tile t).seq
  if q.soft = true ∧ q.cycle < 64 then 2
  else match s.tileOwner? t with | some p => (s.part p).cls.toNat | none => 0

/-- S of GRP (R140). -/
def sizeOf (grp : BitVec 2) : Nat := match grp.toNat with | 0 => 4 | 1 => 8 | _ => 16

/-- L, the depth of the tree, for a group size (R79). -/
def depthOf (sz : Nat) : Nat := match sz with | 4 => 2 | 8 => 3 | _ => 4

/-- The primaries and partners of a pass with slices, J, and the partner index of primary i (R109, R141). -/
def sliceJ (k nout : Nat) : Nat := (128 / k) / nout

/-- The slice conditions of R141 on the banks that the named macros hold. -/
def sliceOk (tl : Tile) (macs : List Nat) (k partner : Nat) : Bool :=
  let prim := macs.filter fun m => decide (m < partner)
  let part := macs.filter fun m => decide (partner ≤ m)
  match prim with
  | [] => false
  | m0 :: _ =>
    let b0 := (tl.mac m0).active
    let j := sliceJ k (outsOf b0.pm1)
    decide (k ≤ b0.pm1.toNat + 1) &&
      (prim.all fun m => (tl.mac m).active.pm1 == b0.pm1 && (tl.mac m).active.wsgn == b0.wsgn) &&
      (part.all fun m => decide ((tl.mac m).active.pm1.toNat + 1 = k) && (tl.mac m).active.wsgn == b0.wsgn) &&
      decide (0 < j) && (List.range prim.length).all fun i => part.contains (partner + i / j)

/-- A macro of a MACP meets no conflict of R64. -/
def passOk (tl : Tile) (rgmask : BitVec 4) (m : Nat) : Bool :=
  let mc := tl.mac m
  mc.active.st == .valid && rgmask &&& mc.active.groups == rgmask && decide (mc.arrayUntil ≤ tl.seq.ac)

/-- A fill of a half that a pass starts to read before the fill's cycle: the write is not made (R64). -/
def Macro.dropFill (mc : Macro) (h : BitVec 1) : Macro := if h = 0 then { mc with fill0 := none } else { mc with fill1 := none }

/-- The fill on its way into a half. -/
def Macro.fill (mc : Macro) (h : BitVec 1) : Option Fill := if h = 0 then mc.fill0 else mc.fill1

/-- A reader that holds a staging half of macro `m` before cycle `stop` meets a fill on its way into it: the fill is a schedule
conflict (R64, R108, R115, R160). -/
def State.meetFill (s : State) (t : TileId) (h : BitVec 1) (m stop : Nat) : State :=
  match ((s.tile t).mac m).fill h with
  | some f =>
    if f.due < stop then (s.modTile t fun tl => tl.modMac m fun mc => mc.dropFill h).conflict t f.ids [m] [] m else s
  | none => s

/-- A macro holds its array, half and bank for a pass (R52, R115). -/
def Macro.holdPass (mc : Macro) (ac busy : Nat) (h : BitVec 1) : Macro :=
  let mc := { mc with arrayUntil := ac + busy }
  let mc := if h = 0 then { mc with half0Until := max mc.half0Until (ac + busy + 4) }
    else { mc with half1Until := max mc.half1Until (ac + busy + 4) }
  if mc.activePhys = 0 then { mc with bank0Until := max mc.bank0Until (ac + busy + 4) }
  else { mc with bank1Until := max mc.bank1Until (ac + busy + 4) }

/-- MACP starts a pass on every named macro that meets no conflict (R140, R141, R64). With slices, one named macro that meets
one keeps every named macro from running, for a check needs both of its macros. DEDUCED: log 25; DESIGN CHOICE: log 180. -/
def execMacp (t : TileId) (id : Ids) (f : MacpF) (s : State) : Outcome State Fault Refusal :=
  .next (s.issue t (uopWord id 0x08 (macpBits f)) fun s =>
    let s := s.begin_ t id
    let tl := s.tile t
    let macs := onesOf f.macros
    let k := f.sk.toNat
    let sz := sizeOf f.grp
    let runs := if k = 0 ∨ (macs.all (passOk tl f.rgmask) ∧ sliceOk tl macs k f.partner.toNat = true) then
      macs.filter (passOk tl f.rgmask) else []
    let fails := macs.filter fun m => !runs.contains m
    let busy := (f.bm1.toNat + 1) * gOf (s.passClass t) (popcount f.rgmask)
    let pass : Pass :=
      { issue := tl.seq.ac, due := tl.seq.ac + busy + 3, busy, macros := runs.map fun m => (m, (tl.mac m).activePhys)
        half := f.half, rgmask := f.rgmask, bm1 := f.bm1, asgn := f.asgn, bfp := f.mode = 1, s := sz, sk := f.sk
        partner := f.partner.toNat, ids := id }
    let s := s.each runs fun s m => s.meetFill t f.half m (tl.seq.ac + busy + 4)
    let s := s.modTile t fun tl =>
      let tl := tl.modMacs macs fun _ mc => { mc with lastS := some sz }
      let tl := tl.modMacs runs fun _ mc => mc.holdPass tl.seq.ac busy f.half
      if runs = [] then tl else { tl with passes := tl.passes ++ [pass] }
    let s := (s.count (clusterOf t) 0 macs.length).count (clusterOf t) 1 (runs.length * busy)
    let s := if fails = [] then s else s.conflict t id fails [] 16
    s.retire t)

/-- The activation that a row applies (R47, R55, R70). -/
def activationOf (bfp : Bool) (bm1 : BitVec 3) (asgn : BitVec 1) (b : Byte) : Int :=
  if bfp then (if b.getLsbD 7 then -((b.toNat % 128 : Nat) : Int) else (b.toNat % 128 : Nat))
  else signedOf (bm1.toNat + 1) b.toNat (asgn = 1)

/-- The rows of a bank that a mask enables, with activation and steered columns; rows of activation zero add
nothing (R53). -/
def drivenRows (b : Bank) (hf_ : Half) (p : Pass) (groups : List Nat) : List (Int × Nat) :=
  (b.cells.filter fun c => groups.contains (c.1 / 64)).filterMap fun c =>
    let a := activationOf p.bfp p.bm1 p.asgn (Store.get 0 hf_.acts c.1)
    if a = 0 then none else some (a, steeredRow b.steer c.2)

/-- The exact sums over driven rows, one for each output, with each weight seen through `w` (R49). -/
def outSums (b : Bank) (rows : List (Int × Nat)) (w : Int → Int) : List Int :=
  (List.range (outsOf b.pm1)).map fun k =>
    rows.foldl (fun n r => n + r.1 * w (weightOf (rowData r.2) (b.pm1.toNat + 1) (b.wsgn = 1) k)) 0

/-- The checksum partial (R51). -/
def checkSum (rows : List (Int × Nat)) : Int := rows.foldl (fun n r => n + r.1 * (rowCheck r.2 : Nat)) 0

/-- What an upset adds to one sum. DESIGN CHOICE: log 173. -/
def upsetAt (l : List Upset) (m out : Nat) (g : Option Nat) (f : Upset → Int) : Int :=
  l.foldl (fun n u => if u.mac.val = m ∧ u.out = out ∧ (g = none ∨ g = some u.rowGroup.val) then n + f u else n) 0

/-- The row groups whose sums a pass keeps apart: each enabled group in BFP mode, all of them together in INT mode. -/
def Pass.parts (p : Pass) : List (Option Nat × List Nat) :=
  if p.bfp then (onesOf p.rgmask).map fun g => (some g, [g]) else [(none, onesOf p.rgmask)]

/-- What macro `m` presents for a pass (R49, R50, R55). -/
def presentMac (tl : Tile) (p : Pass) (ups : List Upset) (m : Nat) (phys : BitVec 1) : MacPres :=
  let mc := tl.mac m
  let b := mc.bank phys
  { mac := m, nout := outsOf b.pm1
    elems := p.parts.flatMap fun part =>
      let sums := outSums b (drivenRows b (mc.half p.half) p part.2) id
      (List.range sums.length).map fun k =>
        { out := k, val := sums.getD k 0 + upsetAt ups m k part.1 (·.data)
          exp := match part.1 with | some g => (Store.get 0 (mc.half p.half).exps g).toNat | none => 0 } }

/-- What macro `m` presents, among the presentations of a pass. -/
def elemsOf (l : List MacPres) (m : Nat) : List Elem :=
  match l.find? fun x => decide (x.mac = m) with | some x => x.elems | none => []

/-- The residues of a macro's partials and of its checksum partial differ (R111). -/
def residueBad (tl : Tile) (p : Pass) (ups : List Upset) (m : Nat) (phys : BitVec 1) (el : List Elem) : Bool :=
  let mc := tl.mac m
  let b := mc.bank phys
  let chk := checkSum (drivenRows b (mc.half p.half) p (onesOf p.rgmask)) +
    ups.foldl (fun n u => if u.mac.val = m then n + u.check else n) 0
  (el.foldl (fun n e => n + e.val) 0) % 255 != chk % 255

/-- The primaries of a pass, ascending. -/
def Pass.primaries (p : Pass) : List Nat :=
  (p.macros.map fun x => x.1).filter fun m => p.sk = 0 || decide (m < p.partner)

/-- The partner of a primary (R141). -/
def Pass.partnerOf (p : Pass) (nout m : Nat) : Nat := p.partner + (p.primaries.idxOf m) / sliceJ p.sk.toNat nout

/-- A primary's slice partials differ from its partner's partials (R110). DESIGN CHOICE: log 207. -/
def sliceBad (tl : Tile) (p : Pass) (ups : List Upset) (m : Nat) (phys : BitVec 1)
    (el : List MacPres) : Bool :=
  let k := p.sk.toNat
  let mc := tl.mac m
  let b := mc.bank phys
  let nout := outsOf b.pm1
  let i := p.primaries.idxOf m
  let j := sliceJ k nout
  let low : Int := 2 ^ (b.pm1.toNat + 1 - k)
  let theirs := elemsOf el (p.partnerOf nout m)
  let theirN := 128 / k
  p.parts.zipIdx.any fun part =>
    let sums := outSums b (drivenRows b (mc.half p.half) p part.1.2) fun w => low * (w / low)
    (List.range nout).any fun o =>
      let mine := sums.getD o 0 + upsetAt ups m o part.1.1 (·.slice)
      let other := match theirs[part.2 * theirN + (i % j) * nout + o]? with | some e => e.val | none => 0
      mine != low * other

/-- The checks of a presentation: what each macro presents, and its mismatches, macro by macro, true for a slice mismatch:
residues first, then slices (R110, R111). -/
def evalPass (tl : Tile) (p : Pass) (ups : List Upset) : List MacPres × List (Nat × Bool) :=
  let el := p.macros.map fun x => presentMac tl p ups x.1 x.2
  let res := p.macros.filter fun x => residueBad tl p ups x.1 x.2 (elemsOf el x.1)
  let sl := if p.sk = 0 then []
    else p.macros.filter fun x => p.primaries.contains x.1 && sliceBad tl p ups x.1 x.2 el
  (el, (res.map fun x => (x.1, false)) ++ sl.map fun x => (x.1, true))

/-- The macros a mismatch drops: the mismatching ones, the partner of a mismatching primary, the primaries of a
mismatching partner (R114). -/
def dropSet (tl : Tile) (p : Pass) (bad : List Nat) : List Nat :=
  if p.sk = 0 then bad
  else
    let nout (m : Nat) : Nat := outsOf ((tl.mac m).bank (assocGet 0 p.macros m)).pm1
    (p.macros.map fun x => x.1).filter fun m =>
      bad.contains m || (p.primaries.contains m && bad.contains (p.partnerOf (nout m) m)) ||
        (!p.primaries.contains m && p.primaries.any fun q => bad.contains q && decide (p.partnerOf (nout q) q = m))

/-! ### Landings (R76 to R79, R83) -/

/-- A macro's map byte lets its partials into a slot; none when it is ignored, and a conflict on the slot otherwise. -/
inductive Route1 where
  | ignored
  | conflict (slot : Nat)
  | into (slot ofs : Nat)
  deriving DecidableEq, Repr

/-- Where the partials of macro `x.mac` go, by R76 and R83: every output below N_out counts, whether it presents or not. -/
def Tile.routeOf (tl : Tile) (x : MacPres) (bfp : Bool) (issue due : Nat) : Route1 :=
  let b := tl.mapOf x.mac
  if b.en = false then .ignored
  else
    let a := b.slot.toNat
    let sl := tl.slot a
    if sl.st ≠ .opened ∨ bfp ≠ (sl.mode != 0) ∨ 128 < 16 * b.ofs.toNat + x.nout ∨ due < sl.openAt ∨
        (sl.mode = 1 ∧ (match sl.lastPass with | some i => decide (issue < i) | none => false) = true) then .conflict a
    else .into a (16 * b.ofs.toNat)

/-- A part joins the group sum of its group, or is a new one. -/
def addPart (l : List Landing) (a pres base sz : Nat) (bfp : Bool) (part : LandPart) : List Landing :=
  if l.any fun x => decide (x.base = base) && decide (x.sz = sz) then
    l.map fun x => if x.base = base ∧ x.sz = sz then { x with parts := x.parts ++ [part] } else x
  else l ++ [{ slot := a, pres, base, sz, due := 0, bfp, parts := [part] }]

/-- Number the group sums of one cycle for a slot: each lands one ac after the one before, the first not before its tree and
the sums of earlier cycles allow (R79). DEDUCED: log 181. -/
def numberLands (prev : Nat) : List Landing → List Landing
  | [] => []
  | l :: rest =>
    let due := max (prev + 1) (l.pres + depthOf l.sz + (if l.bfp then 2 else 0) + 1)
    { l with due } :: numberLands due rest

/-- In BFP mode the elements of a cycle that brings passes of several issue cycles enter with its last group sum, ordered by
issue cycle and then by group (R78). DEDUCED: log 181. -/
def orderParts (l : List Landing) : List Landing :=
  let parts := l.flatMap fun x => x.parts
  if (l.any fun x => x.bfp) && parts.any fun x => parts.any fun y => decide (x.issue < y.issue) then
    l.zipIdx.map fun x => { x.1 with
      parts := if x.2 + 1 = l.length then parts.insertionSort fun a b => a.issue ≤ b.issue else [] }
  else l

/-- Group sums presented for slot `a` in cycle `pres`: they join those that the same cycle has already brought, and all of
them are numbered together in ascending group order behind the sums of earlier cycles (R77, R79). DEDUCED: log 181. -/
def Tile.landIn (tl : Tile) (a pres : Nat) (bfp : Bool) (new : List (Nat × Nat × LandPart)) : Tile :=
  let sl := tl.slot a
  let base := if sl.landPres = some pres then sl.landBase else sl.lastLand
  let mine (l : Landing) : Bool := decide (l.slot = a) && decide (l.pres = pres)
  let all := (new.foldl (fun l x => addPart l a pres x.1 x.2.1 bfp x.2.2) (tl.landings.filter mine)).insertionSort fun x y =>
    x.base ≤ y.base
  let lands := numberLands base (orderParts all)
  let tl := tl.modSlot a fun sl => { sl with
    landPres := some pres, landBase := base, lastLand := lands.foldl (fun n l => max n l.due) base
    lastPass := new.foldl (fun i x => some (max (i.getD 0) x.2.2.issue)) sl.lastPass }
  { tl with landings := (tl.landings.filter fun l => !mine l) ++ lands }

/-- Bring what one pass or stream presents in cycle `pres` to the slots: conflicts are raised, and each contributing
group of a slot becomes part of one group sum (R76 to R79). The map byte alone decides: a slice partner whose EN is 1
lands like any macro. DESIGN CHOICE: log 182; DEDUCED: log 181. -/
def State.present (s : State) (t : TileId) (ids : Ids) (pres issue sz : Nat) (bfp : Bool) (macs : List MacPres) : State :=
  let tl := s.tile t
  let due := pres + depthOf sz + (if bfp then 2 else 0) + 1
  let routed := macs.map fun x => (x, tl.routeOf x bfp issue due)
  let bad := routed.filterMap fun x => match x.2 with | .conflict a => some a | _ => none
  let ins := routed.filterMap fun x => match x.2 with | .into a o => some (x.1, a, o) | _ => none
  let s := bad.foldl (fun s a => s.conflict t ids [] [a] 17) s
  s.each (ins.map fun x => x.2.1).eraseDups fun s a =>
    let here := ins.filter fun x => decide (x.2.1 = a)
    let parts := (here.map fun x => x.1.mac / sz).eraseDups.map fun g =>
      (g * sz, sz, ({ issue, elems := (here.filter fun x => decide (x.1.mac / sz = g)).flatMap fun x =>
          x.1.elems.map fun e => { e with out := x.2.2 + e.out } } : LandPart))
    s.modTile t fun tl => tl.landIn a pres bfp parts

/-- Absorptions are outstanding for a slot (R79). -/
def Tile.absorbing (tl : Tile) (a : Nat) : Bool := tl.landings.any fun l => decide (l.slot = a)

/-- The passes of one presentation cycle, and the others. DESIGN CHOICE: log 2. -/
def dueNow (l : List Pass) : List Pass × List Pass :=
  match l with
  | [] => ([], [])
  | p :: _ =>
    let d := l.foldl (fun d q => min d q.due) p.due
    (l.filter fun q => decide (q.due = d), l.filter fun q => !decide (q.due = d))

/-- A mismatch sets LAST_KIND and LAST_MACRO and raises an event with the macro and the kind (R117). -/
def State.mismatch (s : State) (t : TileId) (ids : Ids) (x : Nat × Bool) : State :=
  let s := s.modTile t fun tl => { tl with check := { tl.check with lastKind := x.2, lastMacro := BitVec.ofNat 4 x.1 } }
  s.raise 0x0002 clsNone (s.srcTile t x.1) ids (s.tileOwner? t) [BitVec.ofNat 8 x.1, BitVec.ofNat 8 (b2n x.2)]

/-- The passes whose cycle comes next present their partials; the checks are made, and a mismatch starts a replay
(R52, R110, R111, R114, R117). DESIGN CHOICE: log 2, 27, 204. -/
def execPassPresentation (t : TileId) (upsets : List Upset) (s : State) : Outcome State Fault Refusal :=
  .next (
    let tl0 := s.tile t
    let (now_, later) := dueNow tl0.passes
    match now_ with
    | [] => s
    | p0 :: _ =>
      if s.tileUp t = false ∨ tl0.frozenNow = true ∨ tl0.seq.st = .frozen then s
      else
        let s := s.modTile t fun tl => { tl.modSeq (·.reach p0.due) with passes := later }
        let s := s.modTile t Tile.settle
        let tl := s.tile t
        let reps := now_.map fun p =>
          let ev := evalPass tl p upsets
          let again := dropSet tl p (ev.2.map fun x => x.1)
          ({ pass := p, again, miss := ev.2, good := ev.1.filter fun m => !again.contains m.mac } : Replay)
        let bad := reps.filter fun r => !r.miss.isEmpty
        if bad.isEmpty then
          s.each reps fun s r => s.present t r.pass.ids p0.due r.pass.issue r.pass.s r.pass.bfp r.good
        else
          let freeze := bad.foldl (fun n r => max n (r.pass.busy + 4)) 0
          let s := s.modTile t fun tl => { tl.modSeq (fun q => { q.freeze freeze with
            chkReplay := satAdd q.chkReplay 1 }) with replay := reps }
          let s := s.count (clusterOf t) 11 freeze
          s.each bad fun s r => s.each r.miss fun s x => s.mismatch t r.pass.ids x)

/-- The macros that the repair after a checksum event reads back: a slice mismatch involves the primary and its partner
(R116). -/
def repairsOf (tl : Tile) (t : TileId) (p : Pass) (x : Nat × Bool) : List RepairDue :=
  let key (m : Nat) : Nat := 16 * t.val + m
  if x.2 then
    let q := p.partnerOf (outsOf ((tl.mac x.1).bank (assocGet 0 p.macros x.1)).pm1) x.1
    [{ key := key x.1, why := .pair true (key q) none false }, { key := key q, why := .pair false (key x.1) none false }]
  else [{ key := key x.1, why := .checksum }]

/-- A second mismatch of a macro is a checksum event: it is counted, the frame is marked, and the macro is to be repaired
before ready (R22, R116, R117). -/
def State.checksumEvent (s : State) (t : TileId) (p : Pass) (x : Nat × Bool) : State :=
  let s := (s.mismatch t p.ids x).modTile t fun tl => { tl with
    check := { tl.check with replayFail := satAdd tl.check.replayFail 1 }
    repair := { tl.repair with chkEvents := satAdd tl.repair.chkEvents 1 } }
  let s := s.abortTile t 0x0003 2 x.1 p.ids [BitVec.ofNat 8 x.1]
  match s.tileOwner? t with
  | some o => s.modPart o fun pt => { pt with repairs := (repairsOf (s.tile t) t p x).foldl RepairDue.into pt.repairs }
  | none => s

/-- A mismatch that its replay clears is counted and is a fault of class replayed (R116, R117). -/
def State.clearedMismatch (s : State) (t : TileId) (p : Pass) (x : Nat × Bool) : State :=
  let s := s.modTile t fun tl => { tl with check := { tl.check with replayOk := satAdd tl.check.replayOk 1 } }
  s.raise 0x0002 clsReplayed (s.srcTile t x.1) p.ids (s.tileOwner? t) [BitVec.ofNat 8 x.1, BitVec.ofNat 8 (b2n x.2)]

/-- The replayed partials are presented and checked again: a mismatch that clears is class replayed, one that stays is a
checksum event; the partials land in the place of the dropped ones (R114, R116, R117). DESIGN CHOICE: log 206. -/
def execReplayPresentation (t : TileId) (upsets : List Upset) (s : State) : Outcome State Fault Refusal :=
  .next (
    let reps := (s.tile t).replay
    if reps.isEmpty then s
    else
      let s := s.modTile t fun tl => { tl with replay := [] }
      let tl := s.tile t
      s.each reps fun s r =>
        let ev := evalPass tl r.pass (upsets.filter fun u => r.again.contains u.mac.val)
        let still := ev.2.filter fun x => r.again.contains x.1
        let again := ev.1.filter fun x => r.again.contains x.mac
        let all := r.pass.macros.filterMap fun x => (r.good ++ again).find? fun y => decide (y.mac = x.1)
        let s := s.each (r.miss.filter fun x => !still.contains x) fun s x => s.clearedMismatch t r.pass x
        let s := s.each still fun s x => s.checksumEvent t r.pass x
        s.present t r.pass.ids r.pass.due r.pass.issue r.pass.s r.pass.bfp all)

/-! ### Accumulation (R81, R89 to R96) -/

/-- The 128-bit container of a fixed-alignment entry: its own 64 bits above its partner's (R95). -/
def wideOf (hi lo : Entry) : Int := (hi.a ++ lo.a).toInt

/-- An element in INT mode (R89). -/
def Entry.addInt (en : Entry) (v : Int) : Entry := { en with a := en.a + BitVec.ofInt 64 v, used := true }

/-- An element in running alignment (R90). -/
def Entry.addRunning (en : Entry) (v e : Int) : Entry :=
  if e = 255 then { en with nonfin := true }
  else if v = 0 then en
  else if en.used = false then { en with used := true, x := BitVec.ofInt 9 e, a := BitVec.ofInt 64 (v * 2 ^ 24) }
  else
    let x := en.x.toInt
    let a := if x < e then rneDiv en.a.toInt (2 ^ (e - x).toNat) else en.a.toInt
    let x := max x e
    let r := a + rneDiv (v * 2 ^ 24) (2 ^ (x - e).toNat)
    let lim := clampI (-(2 ^ 63)) (2 ^ 63 - 1) r
    { en with a := BitVec.ofInt 64 lim, x := BitVec.ofInt 9 x, ovf := en.ovf || decide (r ≠ lim) }

/-- An element in fixed alignment: the entry, its partner's half, and whether the exponent exceeded X (R95).
DEDUCED: log 203. -/
def addFixed (en lo : Entry) (emax : Option Nat) (v e : Int) : Entry × Entry × Bool :=
  if e = 255 then ({ en with nonfin := true }, lo, false)
  else if v = 0 then (en, lo, false)
  else
    let x0 : Int := if en.used then en.x.toInt else (match emax with | some m => max (m : Int) e | none => e)
    let a0 : Int := if en.used then wideOf en lo else 0
    let miss : Bool := x0 < e
    let a1 := if miss then rneDiv a0 (2 ^ (e - x0).toNat) else a0
    let x := max x0 e
    let w := BitVec.ofInt 128 (a1 + rneDiv (v * 2 ^ 64) (2 ^ (x - e).toNat))
    ({ en with used := true, x := BitVec.ofInt 9 x, a := w.extractLsb' 64 64 }, { lo with a := w.extractLsb' 0 64 }, miss)

/-- An element enters output `o` of slot `a`; `counted` for every element but the preload (R81, R86). -/
def Tile.addElem (tl : Tile) (a o : Nat) (v e : Int) (counted : Bool) : Tile :=
  let sl := tl.slot a
  let en0 := Store.get {} sl.entries o
  let en0 := if counted then { en0 with count := en0.count + 1 } else en0
  let limit := if sl.mode = 1 then 257 else 65537
  let past := counted && sl.mode != 0 && decide (limit ≤ en0.count)
  let lo := Store.get {} (tl.slot (a + 1)).entries o
  let (en, lo', miss) := match sl.mode.toNat with
    | 0 => (en0.addInt v, lo, false)
    | 1 => (en0.addRunning v e, lo, false)
    | _ => addFixed en0 lo (if sl.emaxValid then some sl.emax.toNat else none) v e
  let tl := tl.modSlot a fun sl => { sl with
    entries := Store.set sl.entries o en, groups := max sl.groups en.count, bound := sl.bound || past || miss
    expmiss := sl.expmiss || miss, ovf := sl.ovf || en.ovf, nonfin := sl.nonfin || en.nonfin }
  if sl.mode = 2 then tl.modSlot (a + 1) fun x => { x with entries := Store.set x.entries o lo' } else tl

/-- The next group sum of a slot lands (R79). -/
def execGroupSumLanding (t : TileId) (a : AccSlot) (s : State) : Outcome State Fault Refusal :=
  .next (
    let tl := s.tile t
    match tl.landings.find? fun l => decide (l.slot = a.val) with
    | none => s
    | some l =>
      if s.tileUp t = false ∨ tl.frozenNow = true ∨ tl.seq.st = .frozen then s
      else s.modTile t fun tl =>
        let tl := { tl.modSeq (·.reach (l.due + 1)) with landings := tl.landings.erase l }
        (l.parts.flatMap fun x => x.elems).foldl (fun tl e => tl.addElem a.val e.out e.val e.exp true) tl)

/-! ### Loads and swaps -/

/-- Some byte of a partition range is in a hard error. -/
def State.partHard (s : State) (p : PartId) (a n : Nat) (write : Bool) : Bool :=
  !s.hardNow.isEmpty && (List.range n).any fun i =>
    match s.devAddr? p (a + i) with | some d => s.hardAt d write | none => false

/-- Write the rows of a load into the shadow bank: `src` gives each row's record, none for a row that is not written. The
macro, the rows whose checksum byte is wrong, and the rows written (R208 to R210). -/
def Macro.loadRows (mc : Macro) (rgmask : BitVec 4) (pm1 : BitVec 3) (wsgn : BitVec 1) (layer : BitVec 16) (chkgen : Bool)
    (src : Nat → Option (List Byte)) : Macro × List Nat × Nat :=
  (rowsOf rgmask).foldl (fun x r =>
    match src r with
    | none => x
    | some bytes =>
      let (b, bad) := x.1.shadow.loadRow r chkgen bytes
      (x.1.modShadow fun _ => b, if bad then x.2.1 ++ [r] else x.2.1, x.2.2 + 1))
    (mc.modShadow fun b => b.startLoad rgmask pm1 wsgn layer, [], 0)

/-- Finish a load on macro `m`: load checksum errors, the end mark, and its conflict with a group partly written
(R59, R209, R210, R222). -/
def State.finishLoad (s : State) (t : TileId) (id : Ids) (m : Nat) (badRows : List Nat) (fin : Bool) : State :=
  let s := s.each badRows fun s r =>
    let s := s.modTile t fun tl => { tl with wp := { tl.wp with ldErr := satAdd tl.wp.ldErr 1 } }
    s.abortTile t 0x0005 5 m id [BitVec.ofNat 8 m, BitVec.ofNat 8 r]
  if fin then
    let b := ((s.tile t).mac m).shadow
    let part := b.st == .loading && !b.complete
    let s := s.modTile t fun tl => tl.modMac m fun mc =>
      mc.modShadow fun b => if b.st = .loading then b.endLoad else b
    if part then s.conflict t id [m] [] m else s
  else s

/-- The region of a Tidewalk step in progress lies in macro `m`'s shadow bank (R64). -/
def Tile.stepOn (tl : Tile) (m : Nat) : Bool :=
  match tl.step with | some st => decide (st.region < 64) && decide (st.region / 4 = m) | none => false

/-- Rows written to macro `m` from cycle `first` on meet a conflict that leaves them unwritten and the load INVALID (R64,
R115). -/
def rowsInvalidate (tl : Tile) (pm1 : BitVec 3) (wsgn : BitVec 1) (first m : Nat) : Bool :=
  let mc := tl.mac m
  decide (first < mc.bankUntil mc.shadowPhys) || tl.stepOn m ||
    (tl.bankSteps.any fun x => decide (x.1 = m) && decide (first < x.2.2)) ||
    (mc.shadow.st == .loading && (mc.shadow.pm1 != pm1 || mc.shadow.wsgn != wsgn))

/-- The record size (R142). -/
def recSize (chkgen : Bool) : Nat := if chkgen then 16 else 17

/-- The rows of a load on macros that no conflict keeps from it: macros with `block` are left as they are, those with
`inval` become INVALID, and both are schedule conflicts (R64, R115, R212). The macros that take part. -/
def State.loadConflicts (s : State) (t : TileId) (id : Ids) (macs : List Nat) (block inval : Nat → Bool) : State × List Nat :=
  let bad := macs.filter fun m => block m || inval m
  let s := s.modTile t fun tl => tl.modMacs (macs.filter fun m => inval m && !block m) fun _ mc => mc.modShadow Bank.invalidate
  (if bad = [] then s else s.conflict t id bad [] 16, macs.filter fun m => !bad.contains m)

/-- LDW from scratchpad writes the rows of its macros (R142, R206, R211). DEDUCED: log 9. -/
def State.ldwScratch (s : State) (t : TileId) (id : Ids) (f : LdwF) (a : Nat) : State :=
  let macs := onesOf f.macros
  let rows := rowsOf f.rgmask
  let sz := recSize (f.chkgen = 1)
  let isSealed := match s.spBuf? t f.qsrc.toNat false with | some b => b.isSealed | none => false
  let tl0 := s.tile t
  let (s, go) := s.loadConflicts t id macs
    (fun m => (tl0.mac m).ldwHbm || decide (tl0.seq.ac + 1 < (tl0.mac m).portUntil))
    (rowsInvalidate tl0 f.pm1 f.wsgn (tl0.seq.ac + 1))
  let s := s.count (clusterOf t) 3 (rows.length * macs.length * sz)
  s.each (macs.zipIdx.filter fun x => go.contains x.1) fun s x =>
    let tl := s.tile t
    let (mc, bads, n) := (tl.mac x.1).loadRows f.rgmask f.pm1 f.wsgn id.layer (f.chkgen = 1) fun r =>
      some (tl.spRead (a + (rows.idxOf r * macs.length + x.2) * sz) sz)
    let mc := { mc.modShadow (fun b => { b with sealedSrc := b.sealedSrc || isSealed, bare := true, srcs := [] }) with
      portUntil := tl.seq.ac + rows.length + 1, portIds := id }
    let s := (s.modTile t fun tl => (tl.modMac x.1 fun _ => mc).busyTo (tl.seq.ac + rows.length)).count (clusterOf t) 8 n
    s.finishLoad t id x.1 bads (f.fin = 1)

/-- LDW from HBM starts: ISSUED rises and the transfer is outstanding; the shadow banks change with their first rows. A macro
whose earlier LDW from HBM is outstanding is a schedule conflict and gets nothing (R130, R142, R212). -/
def State.ldwHbm (s : State) (t : TileId) (id : Ids) (f : LdwF) (a : Nat) : State :=
  let tl0 := s.tile t
  let (s, go) := s.loadConflicts t id (onesOf f.macros) (fun m => (tl0.mac m).ldwHbm) fun _ => false
  s.modTile t fun tl =>
    (tl.modMacs go fun _ mc => { mc with ldwHbm := true }).startOp {
      cnt := f.cnt.toNat, due := tl.seq.ac + (rowsOf f.rgmask).length, ids := id, frame := 0
      xfer := .ldw f.macros (go.foldl (fun w m => w ||| BitVec.ofNat 16 (2 ^ m)) 0) f.rgmask f.pm1 f.wsgn f.chkgen f.fin a }

/-- LDW writes rows into the shadow banks of the macros it names, from scratchpad at once or from HBM when the
transfer ends (R142, R206, R211). -/
def execLdw (t : TileId) (id : Ids) (f : LdwF) (s : State) : Outcome State Fault Refusal :=
  .next (s.issue t (uopWord id 0x10 (ldwBits f)) fun s =>
    let macs := onesOf f.macros
    let sz := recSize (f.chkgen = 1)
    let total := (rowsOf f.rgmask).length * macs.length * sz
    let units : Units := { macs, unit := 16 }
    if f.src = 0 then
      let src := s.spOp? t f.qsrc.toNat total false
      let us := src.map fun a =>
        [{ form := 0, write := false, start := (s.tile t).seq.ac, addr := a, step := macs.length * sz, len := total : PathUse }]
      s.access t id us [(f.qsrc, f.inc)] units fun s => s.ldwScratch t id f (src.getD 0)
    else
      let src := s.hbmOp? t f.qsrc.toNat total false
      s.access t id (src.map fun _ => []) [(f.qsrc, f.inc)] units fun s => s.ldwHbm t id f (src.getD 0))

/-- The rows of an LDW from HBM as they arrive, in the last cycles of the transfer, on the macro at place `x.2` of the LDW
(R142, R208 to R210). DESIGN CHOICE: log 183. -/
def State.ldwArrive (s : State) (t : TileId) (p : PartId) (ids : Ids) (n : Nat) (rgmask : BitVec 4) (pm1 : BitVec 3)
    (wsgn chkgen fin : BitVec 1) (a : Nat) (x : Nat × Nat) : State :=
  let rows := rowsOf rgmask
  let sz := recSize (chkgen = 1)
  let at_ (r : Nat) : Nat := a + (rows.idxOf r * n + x.2) * sz
  let (mc, bads, k) := ((s.tile t).mac x.1).loadRows rgmask pm1 wsgn ids.layer (chkgen = 1) fun r =>
    if s.partHard p (at_ r) sz false then none else some (s.partRead p (at_ r) sz)
  let mc := mc.modShadow fun b => if b.bare then b else { b with
    srcs := (onesOf rgmask).zipIdx.foldl (fun m g => Store.set m g.1
      { addr := a + (64 * g.2 * n + x.2) * sz, stride := n * sz, rec17 := chkgen = 0
        down := false, pm1, wsgn, layer := ids.layer }) b.srcs }
  ((s.modTile t fun tl => tl.modMac x.1 fun _ => mc).count (clusterOf t) 8 k).finishLoad t ids x.1 bads (fin = 1)

/-- An LDW from HBM ends: its rows are written as their records arrive, and DONE rises even after a hard error. A load that
a gate or a stop has ended writes nothing (R115, R130, R142, R209 to R212, R214). DESIGN CHOICE: log 2, 3, 183. -/
def execLdwHbmDone (t : TileId) (cnt : Fin 4) (s : State) : Outcome State Fault Refusal :=
  .next (
    let isLdw (o : AsyncOp) : Bool := decide (o.cnt = cnt.val) && (match o.xfer with | .ldw .. => true | _ => false)
    match (s.tile t).ops.find? isLdw, s.tileOwner? t with
    | some o, some p =>
      match o.xfer with
      | .ldw macros live rgmask pm1 wsgn chkgen fin a =>
        let macs := onesOf macros
        let n := (rowsOf rgmask).length
        let first := max o.due (s.liveAc t) + 1 - n
        let s := s.modTile t fun tl =>
          let tl := { tl.modSeq (·.reach o.due) with ops := tl.ops.erase o }
          (tl.countDone o).modMacs (onesOf live) fun _ mc => { mc with ldwHbm := false }
        let s := s.count (clusterOf t) 6 (n * macs.length * recSize (chkgen = 1))
        if o.dropped then s
        else
          let tl := s.tile t
          let (s, go) := s.loadConflicts t o.ids (onesOf live) (fun m => decide (first < (tl.mac m).portUntil))
            (rowsInvalidate tl pm1 wsgn first)
          s.each (macs.zipIdx.filter fun x => go.contains x.1) fun s x =>
            s.ldwArrive t p o.ids macs.length rgmask pm1 wsgn chkgen fin a x
      | _ => s
    | _, _ => s)

/-- A macro of a SWAP meets a conflict (R64, R108, R212). -/
def swapBlocked (tl : Tile) (m : Nat) : Bool :=
  let mc := tl.mac m
  decide (tl.seq.ac < mc.arrayUntil) || mc.shadow.st != .valid || decide (tl.seq.ac < mc.portUntil) || mc.ldwHbm ||
    decide (tl.seq.ac < mc.streamUntil) || decide (tl.seq.ac < mc.setUntil)

/-- SWAP exchanges the banks of the macros it names, with their outlier sets; a set whose LAYER is not the bank's is
not valid (R61, R105, R143). -/
def execSwap (t : TileId) (id : Ids) (f : SwapF) (s : State) : Outcome State Fault Refusal :=
  .next (s.issue t (uopWord id 0x11 (swapBits f)) fun s =>
    let s := s.begin_ t id
    let tl := s.tile t
    let macs := onesOf f.macros
    let bad := macs.filter (swapBlocked tl)
    let go := macs.filter fun m => !bad.contains m
    let s := s.modTile t fun tl => tl.modMacs go fun _ mc =>
      let set := mc.outSet mc.shadowPhys
      let mc := mc.putSet mc.shadowPhys { set with valid := set.valid && set.layer == mc.shadow.layer }
      { mc with activePhys := mc.shadowPhys }
    let s := if bad = [] then s else s.conflict t id bad [] 16
    s.retire t)

end Sys2Proof.Machine
end

