-- ==== Sys2Proof/Machine/Accum.lean ====
section
/-! DEFINITION. Opening, preloading and draining slots, the PPU, PRESCAN and the output-range monitor (R80 to R88, R94,
R97 to R102, R118 to R122, R144 to R149, R508). -/

namespace Sys2Proof.Machine

open Host (Outcome)

/-! ### Opening a slot -/

/-- An ACLR or APRE may open a slot in a mode (R80, R83, R95, R160). -/
def Tile.mayOpen (tl : Tile) (a : Nat) (mode : BitVec 2) : Bool :=
  let sl := tl.slot a
  let mine := sl.st == .opened && sl.mode == 2
  !tl.absorbing a && (sl.st == .free || sl.st == .opened) && decide (sl.busyUntil ≤ tl.seq.ac) &&
    (mode != 2 || (a % 2 == 0 && sl.prescanned &&
      ((tl.slot (a + 1)).st == .free || ((tl.slot (a + 1)).st == .paired && mine))))

/-- Open a slot: contents, flags and counts go, a partner is paired or freed (R80, R81, R95). -/
def Tile.openSlot (tl : Tile) (a : Nat) (mode : BitVec 2) (openAt : Nat) : Tile :=
  let was := (tl.slot a).st == .opened && (tl.slot a).mode == 2
  let tl := tl.modSlot a fun sl => { sl with
    mode, st := .opened, bound := false, expmiss := false, ovf := false, nonfin := false, groups := 0, entries := []
    openAt, lastPass := none, lastLand := 0, landPres := none, landBase := 0 }
  if mode = 2 then tl.modSlot (a + 1) fun x => { x with st := .paired, entries := [] }
  else if was then tl.modSlot (a + 1) fun x => { x with st := .free, entries := [] }
  else tl

/-- The map bytes of named macros take the slot and their offsets (R144, R145). -/
def Tile.mapMacros (tl : Tile) (macros : BitVec 16) (slot obase : BitVec 3) (ostep : BitVec 2) (oper : BitVec 3) : Tile :=
  { tl with map := (onesOf macros).foldl (fun mp m =>
      Store.set mp m { en := true, slot, ofs := BitVec.ofNat 3 (ofsOf obase.toNat ostep.toNat oper.toNat m) }) tl.map }

/-- ACLR opens a slot with empty entries (R80, R81, R144). -/
def execAclr (t : TileId) (id : Ids) (f : AclrF) (s : State) : Outcome State Fault Refusal :=
  .next (s.issue t (uopWord id 0x18 (aclrBits f)) fun s =>
    let s := s.begin_ t id
    let s := if (s.tile t).mayOpen f.slot.toNat f.amode then
        s.modTile t fun tl =>
          (tl.openSlot f.slot.toNat f.amode (tl.seq.ac + 1)).mapMacros f.macros f.slot f.obase f.ostep f.oper
      else s.conflict t id [] [f.slot.toNat] 17
    s.retire t)

/-- The preload element q and e_p of a value m × 2^e (R86): an integer of 2^24 or more is rounded to 24 bits. -/
def preElement (m e : Int) : Int × Int :=
  match (List.range 9).find? fun d => decide ((rneDiv m (2 ^ d)).natAbs < 2 ^ 24) with
  | some d => (rneDiv m (2 ^ d), e + 133 + d)
  | none => (m, e + 133)

/-- Preload one output (R85, R86). -/
def Tile.preload (tl : Tile) (a o fmt : Nat) (psh : Int) (src : Nat) : Tile :=
  let v := preElem tl fmt src o
  if (tl.slot a).mode = 0 then
    let put (en : Entry) : Tile := tl.modSlot a fun sl => { sl with
      entries := Store.set sl.entries o en, ovf := sl.ovf || en.ovf, nonfin := sl.nonfin || en.nonfin }
    match v with
    | .fin m e =>
      let r := rneScale m (e + psh)
      let lim := clampI (-(2 ^ 63)) (2 ^ 63 - 1) r
      put { a := BitVec.ofInt 64 lim, used := true, ovf := decide (r ≠ lim) }
    | .bad => put { used := true, nonfin := true }
  else
    match v with
    | .fin m e => let x := preElement m e; if m = 0 then tl else tl.addElem a o x.1 x.2 false
    | .bad => tl.addElem a o 0 255 false

/-- A RAW record restored into an entry (R87). A record of A and X zero is an empty entry. -/
def rawEntry (r : Nat) : Entry :=
  { a := BitVec.ofNat 64 (fieldN r 63 0), x := BitVec.ofNat 9 (fieldN r 72 64), ovf := bitN r 78, nonfin := bitN r 77
    used := fieldN r 72 0 != 0, count := fieldN r 111 96 }

/-- The RAW record of an entry (R87). DEDUCED: log 26. -/
def rawRecord (mode : BitVec 2) (bound : Bool) (en : Entry) : List Byte :=
  leBytes 16 (en.a.toNat + (if mode = 0 then 0 else en.x.toNat) * 2 ^ 64 + b2n (mode != 0) * 2 ^ 76 +
    b2n en.nonfin * 2 ^ 77 + b2n en.ovf * 2 ^ 78 + b2n bound * 2 ^ 79 + min en.count 65535 * 2 ^ 96)

/-- The path use of a preload of `n` outputs (R160, R512). -/
def preloadUse (ac fmt n addr : Nat) : PathUse :=
  if fmt = 6 then { form := 2, write := false, start := ac, addr, step := 16, len := ceilDiv n 16 }
  else { form := 0, write := false, start := ac, addr, step := 16 * fmtBytes fmt, len := n * fmtBytes fmt }

/-- Load the entries of an opened slot from a preload tensor (R84 to R87). -/
def Tile.preloadAll (tl : Tile) (f : ApreF) (addr n : Nat) : Tile :=
  let a := f.slot.toNat
  if f.fmt = 7 then
    let recs := (List.range n).map fun o => leNat (tl.spRead (addr + 16 * o) 16)
    let ents := recs.map rawEntry
    tl.modSlot a fun sl => { sl with
      entries := ents.zipIdx.foldl (fun m x => Store.set m x.2 x.1) sl.entries
      groups := ents.foldl (fun g e => max g e.count) 0, bound := recs.any fun r => bitN r 79
      ovf := ents.any (·.ovf), nonfin := ents.any (·.nonfin) }
  else (List.range n).foldl (fun tl o => tl.preload a o f.fmt.toNat f.psh.toInt addr) tl

/-- The records of a RAW preload all have the slot mode's MODE (R83). -/
def Tile.rawModes (tl : Tile) (f : ApreF) (addr n : Nat) : Bool :=
  f.fmt != 7 || (List.range n).all fun o => bitN (leNat (tl.spRead (addr + 16 * o) 16)) 76 == (f.amode != 0)

/-- APRE opens a slot and loads its entries from scratchpad (R85 to R87, R144). -/
def execApre (t : TileId) (id : Ids) (f : ApreF) (s : State) : Outcome State Fault Refusal :=
  .next (s.issue t (uopWord id 0x19 (apreBits f)) fun s =>
    let n := f.nm1.toNat + 1
    let a := f.slot.toNat
    let src := s.spOp? t f.qsrc.toNat (fmtSpan f.fmt.toNat n) false
    let tl := (s.tile t).settle
    let us := match src with
      | some addr =>
        let use := preloadUse tl.seq.ac f.fmt.toNat n addr
        if tl.mayOpen a f.amode && (tl.readView [use]).rawModes f addr n then some [use] else none
      | none => none
    s.access t id us [(f.qsrc, f.inc)] { slots := [a], unit := 17 } fun s =>
      let s := s.modTile t fun tl =>
        let tl := (tl.openSlot a f.amode (tl.seq.ac + ceilDiv n 16 + 1)).mapMacros f.macros f.slot f.obase f.ostep f.oper
        (tl.preloadAll f (src.getD 0) n).busyTo (tl.seq.ac + ceilDiv n 16)
      s.count (clusterOf t) 3 (fmtSpan f.fmt.toNat n))

/-! ### PRESCAN -/

/-- The largest exponent of the blocks that hold a non-zero mantissa and are finite (R94). -/
def prescanMax (tl : Tile) (addr nb : Nat) : Option Nat :=
  (List.range nb).foldl (fun m b =>
    let base := addr + 260 * (b / 4)
    let e := (Mem.read tl.sp (base + 256 + b % 4)).toNat
    let some_ := (tl.spRead (base + 64 * (b % 4)) 64).any fun x => x.toNat % 128 != 0
    if e ≠ 255 ∧ some_ = true then (match m with | some x => some (max x e) | none => some e) else m) none

/-- PRESCAN reads blocks and writes the slot exponent word (R82, R94, R147). -/
def execPrescan (t : TileId) (id : Ids) (f : PrescanF) (s : State) : Outcome State Fault Refusal :=
  .next (s.issue t (uopWord id 0x1B (prescanBits f)) fun s =>
    let nb := f.nbm1.toNat + 1
    let a := f.slot.toNat
    let src := s.spOp? t f.qsrc.toNat (260 * ceilDiv nb 4) false
    let tl := (s.tile t).settle
    let us := match src with
      | some addr =>
        if (tl.slot a).st == .free && decide ((tl.slot a).busyUntil ≤ tl.seq.ac) && !tl.absorbing a then
          some [({ form := 1, write := false, start := tl.seq.ac, addr, step := 64, len := nb } : PathUse)] else none
      | none => none
    s.access t id us [(f.qsrc, f.inc)] { slots := [a], unit := 17 } fun s =>
      let s := s.modTile t fun tl =>
        let e := prescanMax tl (src.getD 0) nb
        (tl.modSlot a fun sl => { sl with
          emaxValid := e.isSome, emax := BitVec.ofNat 8 (e.getD 0), prescanned := true
          busyUntil := tl.seq.ac + nb + 2 }).busyTo (tl.seq.ac + nb + 1)
      s.count (clusterOf t) 3 (65 * nb))

/-! ### The PPU -/

/-- A function-parameter record that R508 refuses. -/
def paramsBad (func : BitVec 2) (p0 p1 : BitVec 32) : Bool :=
  let inf (w : BitVec 32) : Bool := match ofF32 w with | .inf _ => true | _ => false
  match func.toNat with
  | 2 => isNan p0 || inf p0
  | 3 => isNan p0 || isNan p1 || f32Lt p1 p0
  | _ => false

/-- PPU loads a parameter set (R148, R508). -/
def execPpu (t : TileId) (id : Ids) (f : PpuF) (s : State) : Outcome State Fault Refusal :=
  .next (s.issue t (uopWord id 0x20 (ppuBits f)) fun s =>
    let i := f.pset.toNat
    let tl := s.tile t
    let reads := decide (2 ≤ f.func.toNat)
    let par := if reads then s.spOp? t f.qpar.toNat 8 false else some 0
    let sc := if f.fmt = 7 then some { base := 0, len := 0, ofs := 0, isSealed := false : Buf }
      else s.spBuf? t f.qscale.toNat false
    let us := match par, sc with
      | some a, some b =>
        if b.ofs ≤ b.len ∧ (tl.pset i).busyUntil ≤ tl.seq.ac then
          some (if reads then [({ form := 0, write := false, start := tl.seq.ac, addr := a, step := 8, len := 8 } : PathUse)]
            else [])
        else none
      | _, _ => none
    s.access t id us [] { unit := 18 } fun s =>
      let a := par.getD 0
      let b := sc.getD { base := 0, len := 0, ofs := 0, isSealed := false }
      let rd (o : Nat) : BitVec 32 := BitVec.ofNat 32 (leNat ((s.tile t).spRead (a + o) 4))
      let p0 := if reads then rd 0 else 0
      let p1 := if reads then rd 4 else 0
      let s := s.count (clusterOf t) 3 (if reads then 8 else 0)
      if paramsBad f.func p0 p1 then
        (s.modTile t fun tl => { tl with psets := Store.set tl.psets i {} }).conflict t id [] [] 18
      else s.modTile t fun tl =>
        { tl with psets := Store.set tl.psets i {
            loaded := true, fmt := f.fmt, func := f.func, zp := f.zp, qmin := f.qmin, qmax := f.qmax
            scaleAddr := b.base + b.ofs, scaleLen := b.len - b.ofs, par0 := p0, par1 := p1
            readyAt := tl.seq.ac + 2, busyUntil := tl.seq.ac + 2 } })

/-! ### The output-range monitor (R118 to R122) -/

/-- An envelope that R119 refuses, from its 32 bytes. -/
def envelopeBad (l : List Byte) : Bool :=
  let w (o : Nat) : BitVec 32 := BitVec.ofNat 32 (leAt l o 4)
  isNan (w 0) || isNan (w 4) || isNan (w 8) || isNan (w 12) || isNan (w 16) || f32Lt (w 4) (w 0) ||
    f32Lt (w 12) (w 8) || f32Lt (w 16) 0 || leAt l 24 1 % 4 == 3 || decide (4 ≤ leAt l 24 1) || leAt l 25 7 != 0

/-- The record that an envelope opens (R118, R119). -/
def envelopeRec (l : List Byte) : StatRec :=
  let w (o : Nat) : BitVec 32 := BitVec.ofNat 32 (leAt l o 4)
  { vlo := w 0, vhi := w 4, mlo := w 8, mhi := w 12, sdhi := w 16, outmax := w 20
    policy := BitVec.ofNat 2 (leAt l 24 1) }

/-- STAT open binds the statistics table; a table that is bound, or still held by a close, is a schedule conflict (R118, R119,
R149, R160). -/
def execStatOpen (t : TileId) (id : Ids) (f : StatF) (s : State) : Outcome State Fault Refusal :=
  .next (s.issue t (uopWord id 0x21 (statBits 0 f)) fun s =>
    let n := f.nm1.toNat + 1
    let tl := s.tile t
    let src := s.spOp? t f.q.toNat (32 * n) false
    let us := match src with
      | some a =>
        let use : PathUse := { form := 0, write := false, start := tl.seq.ac, addr := a, step := 512, len := 32 * n }
        let view := tl.readView [use]
        if tl.stat.isNone && decide (tl.statUntil ≤ tl.seq.ac) &&
            (List.range n).all fun i => !envelopeBad (view.spRead (a + 32 * i) 32) then some [use]
        else none
      | none => none
    s.access t id us [(f.q, f.inc)] { unit := 18 } fun s =>
      let s := s.modTile t fun tl =>
        let st : Stat :=
          { layer := id.layer, c0 := f.c0.toNat, n, visibleAt := tl.seq.ac + ceilDiv n 16 + 1
            recs := (List.range n).map fun i => (i, envelopeRec (tl.spRead (src.getD 0 + 32 * i) 32)) }
        { tl with stat := some st }.busyTo (tl.seq.ac + ceilDiv n 16)
      s.count (clusterOf t) 3 (32 * n))

/-- A record closed: V_MEAN and V_SD are judged from binary64 mean and deviation (R121). -/
def StatRec.close (r : StatRec) : StatRec :=
  if r.count = 0 then r
  else
    let m := divF64 r.sum r.count.toNat
    let v := subF64 (divF64 r.sumsq r.count.toNat) (mulF64 m m)
    let sd := sqrtF64 (if v.getLsbD 63 && !isNan64 v then 0 else v)
    { r with
      vMean := f64Below m r.mlo || f64Above m r.mhi
      vSd := f64Above sd r.sdhi }

/-- The 32 bytes of a record (R121). -/
def StatRec.bytes (r : StatRec) : List Byte :=
  leBytes 4 r.min.toNat ++ leBytes 4 r.max.toNat ++ leBytes 8 r.sum.toNat ++ leBytes 8 r.sumsq.toNat ++
    leBytes 4 r.count.toNat ++ leBytes 3 r.outside.toNat ++
    [BitVec.ofNat 8 (b2n r.vOut + 2 * b2n r.vMean + 4 * b2n r.vSd + 8 * b2n r.nan)]

/-- STAT close evaluates the end-of-frame checks and writes the records; the table is held until they are written (R118, R121,
R122, R149, R160). -/
def execStatClose (t : TileId) (id : Ids) (f : StatF) (s : State) : Outcome State Fault Refusal :=
  .next (s.issue t (uopWord id 0x21 (statBits 1 f)) fun s =>
    let tl := s.tile t
    let n := match tl.stat with | some st => st.n | none => 0
    let dst := if tl.stat.isNone then none else s.spOp? t f.q.toNat (32 * n) true
    let us := dst.map fun a =>
      [({ form := 0, write := true, start := tl.seq.ac + 7, addr := a, step := 512, len := 32 * n } : PathUse)]
    s.access t id us [(f.q, f.inc)] { unit := 18 } fun s =>
      match (s.tile t).stat with
      | none => s
      | some st =>
        let recs := (List.range n).map fun i => (Store.get {} st.recs i).close
        let s := s.modTile t fun tl =>
          (tl.writeRows (tl.seq.ac + 7) 512 (dst.getD 0) (recs.flatMap StatRec.bytes)).busyTo (tl.seq.ac + ceilDiv n 16 + 6)
        let s := s.modTile t fun tl => { tl with stat := none, statUntil := tl.seq.ac + ceilDiv n 16 + 7 }
        let s := s.count (clusterOf t) 4 (32 * n)
        let ids : Ids := { layer := st.layer, opid := id.opid }
        s.each recs.zipIdx fun s x =>
          let s := if x.1.vMean then s.violation t ids (st.c0 + x.2) 2 x.1.policy else s
          if x.1.vSd then s.violation t ids (st.c0 + x.2) 3 x.1.policy else s)

/-! ### Draining (R88, R97 to R102, R146) -/

/-- V of an entry as an integer and a power of two (R88). DEDUCED: log 26. -/
def entryValue (mode : BitVec 2) (en lo : Entry) : Int × Int :=
  match mode.toNat with
  | 0 => (en.a.toInt, 0)
  | 1 => (if en.used then en.a.toInt else 0, en.x.toInt - 157)
  | _ => (if en.used then wideOf en lo else 0, en.x.toInt - 197)

/-- Steps 1 to 3 of R97 on an entry: the value and whether a step limited it. -/
def ppuValue (ps : PSet) (mode : BitVec 2) (en lo : Entry) (scale : BitVec 32) : BitVec 32 × Bool :=
  if en.nonfin then (canonicalNan, false)
  else
    let v := entryValue mode en lo
    let (y0, s0) := toF32 (v.1 < 0) v.1.natAbs v.2
    let (y1, s1) := mulF32 y0 scale
    let (y2, s2) := activation ps.func ps.par0 ps.par1 y1
    (y2, s0 || s1 || s2)

/-- Step 5 of R97 for the formats but BFP8/64: the stored number, whether it was limited, whether it is NaN (R100). -/
def ppuConvert (ps : PSet) (y : BitVec 32) : Nat × Bool × Bool :=
  match ps.fmt.toNat with
  | 3 => let r := toF16 y; (r.1.toNat, r.2, isNan y)
  | 4 => let r := toBf16 y; (r.1.toNat, r.2, isNan y)
  | 5 => (if isNan y then canonicalNan.toNat else y.toNat, false, isNan y)
  | _ =>
    let r := toIntFmt ps.zp.toInt ps.qmin.toInt ps.qmax.toInt y
    ((BitVec.ofInt 16 r.1).toNat, r.2.1, r.2.2)

/-- The bytes of converted outputs, by format (R69, R100). -/
def packOut (fmt : Nat) (l : List Nat) : List Byte :=
  match fmt with
  | 8 => packBits 4 l
  | 9 => packBits 2 l
  | 10 => packBits 1 l
  | f => l.flatMap fun v => leBytes (fmtBytes f) v

/-- The bits of one stored output. -/
def outBits (fmt : Nat) : Nat := match fmt with | 8 => 4 | 9 => 2 | 10 => 1 | f => 8 * fmtBytes f

/-- The write uses of a drain of `n` outputs in a format (R101, R160, R512). -/
def drainUses (ac fmt n addr : Nat) : List PathUse :=
  if fmt = 7 then [{ form := 0, write := true, start := ac + 2, addr, step := 256, len := 16 * n }]
  else if fmt = 6 then
    let r := ceilDiv n 16
    (List.range (ceilDiv n 64)).map fun k =>
      { form := 3, write := true, start := min (ac + 4 * k + 9) (ac + r + 5), addr, step := k, len := 1 }
  else [{ form := 0, write := true, start := ac + 6, addr, step := 2 * outBits fmt, len := fmtSpan fmt n }]

/-- The values a drain delivers: steps 1 to 3, in order, up to the first row whose scale is refused (R508).
PRESUMED: log 24. -/
def drainValues (tl : Tile) (ps : PSet) (a cbase n : Nat) : List (BitVec 32 × Bool) × Bool :=
  let sl := tl.slot a
  let scale (o : Nat) : BitVec 32 := BitVec.ofNat 32 (leNat (tl.spRead (ps.scaleAddr + 4 * (cbase + o)) 4))
  let rowBad (i : Nat) : Bool := (List.range 16).any fun j => decide (16 * i + j < n) && badScale (scale (16 * i + j))
  let stop := (List.range (ceilDiv n 16)).find? rowBad
  let m := match stop with | some i => 16 * i | none => n
  ((List.range m).map fun o =>
    ppuValue ps sl.mode (Store.get {} sl.entries o) (Store.get {} (tl.slot (a + 1)).entries o) (scale o), stop.isSome)

/-- The slot of a drain is DRAINING and FREE after its last entry leaves; the map bytes of the slot are cleared
(R80, R146, R160). -/
def Tile.startDrain (tl : Tile) (a n : Nat) : Tile :=
  let tl := tl.modSlot a fun sl => { sl with st := .draining, freeAt := tl.seq.ac + ceilDiv n 16 }
  { tl with map := tl.map.map fun x => if x.2.slot.toNat = a then (x.1, { x.2 with en := false }) else x }

/-- Gather a drain's flags (R102). DEDUCED: log 139. -/
def Tile.noteDrain (tl : Tile) (layer : BitVec 16) (a n : Nat) (nan : Bool) (sat : Nat) : Tile :=
  let sl := tl.slot a
  let ents := (List.range n).map fun o => Store.get {} sl.entries o
  let num := tl.num.note layer sl.bound sl.expmiss (ents.any (·.ovf)) (ents.any (·.nonfin) || nan) (decide (0 < sat)) sat
  { tl with num }

/-- The BFP8/64 blocks of a drain: bytes to write by block, whether a block is not finite, which values were
limited (R101). -/
def drainBlocks (ys : List (BitVec 32)) : List (BitVec 8 × List Byte) × Bool × List Bool :=
  let blocks := (List.range (ceilDiv ys.length 64)).map fun k =>
    let l := (ys.drop (64 * k)).take 64
    bfpBlock (l ++ List.replicate (64 - l.length) 0)
  (blocks.map fun b => (b.1, b.2.1), blocks.any fun b => b.2.2.1, blocks.flatMap fun b => b.2.2.2)

/-- Drain a slot through a parameter set that is not RAW (R88, R97 to R102). DEDUCED: log 177. -/
def State.drainPpu (s : State) (t : TileId) (id : Ids) (f : AdrnF) (ps : PSet) (dst : Nat) : State :=
  let n := f.nm1.toNat + 1
  let a := f.slot.toNat
  let tl := s.tile t
  let (vals, badRow) := drainValues tl ps a f.cbase.toNat n
  let ac := tl.seq.ac
  let samples := vals.zipIdx.map fun x =>
    ({ cycle := ac + x.2 / 16 + 5, channel := f.cbase.toNat + x.2, y := x.1.1, ids := id } : Sample)
  let s := s.modTile t fun tl => { tl with samples := tl.samples ++ samples }
  let s :=
    if ps.fmt = 6 then
      let blocks := if badRow then drainBlocks ((vals.map fun v => v.1).take (vals.length / 64 * 64))
        else drainBlocks (vals.map fun v => v.1)
      let sat := (vals.zipIdx.filter fun v => v.1.2 || blocks.2.2.getD v.2 false).length
      s.modTile t fun tl =>
        let tl := blocks.1.zipIdx.foldl (fun tl b =>
          let cycle := min (ac + 4 * b.2 + 9) (ac + ceilDiv n 16 + 5)
          (tl.writeLate cycle (dst + 260 * (b.2 / 4) + 64 * (b.2 % 4)) b.1.2).writeLate cycle
            (dst + 260 * (b.2 / 4) + 256 + b.2 % 4) [b.1.1]) tl
        tl.noteDrain id.layer a n blocks.2.1 sat
    else
      let conv := vals.map fun v => (ppuConvert ps v.1, v.2)
      s.modTile t fun tl =>
        (tl.writeRows (ac + 6) (2 * outBits ps.fmt.toNat) dst
          (packOut ps.fmt.toNat (conv.map fun c => c.1.1))).noteDrain id.layer a n (conv.any fun c => c.1.2.2) (conv.filter fun c => c.1.2.1 || c.2).length
  let s := s.modTile t fun tl => (tl.startDrain a n).busyTo (ac + ceilDiv n 16 + 5)
  let s := s.modTile t fun tl =>
    { tl with psets := Store.set tl.psets f.pset.toNat { ps with busyUntil := max ps.busyUntil (ac + ceilDiv n 16 + 6) } }
  let s := ((s.count (clusterOf t) 13 n).count (clusterOf t) 4 (fmtSpan ps.fmt.toNat n)).count (clusterOf t) 3 (4 * n)
  if badRow then s.conflict t id [] [a] 17 else s

/-- Drain a slot as RAW records (R87). -/
def State.drainRaw (s : State) (t : TileId) (id : Ids) (f : AdrnF) (ps : PSet) (dst : Nat) : State :=
  let n := f.nm1.toNat + 1
  let a := f.slot.toNat
  let s := s.modTile t fun tl =>
    let sl := tl.slot a
    let recs := (List.range n).flatMap fun o => rawRecord sl.mode sl.bound (Store.get {} sl.entries o)
    let tl := (tl.writeRows (tl.seq.ac + 2) 256 dst recs).noteDrain id.layer a n false 0
    let tl := (tl.startDrain a n).busyTo (tl.seq.ac + ceilDiv n 16 + 1)
    { tl with psets := Store.set tl.psets f.pset.toNat { ps with busyUntil := max ps.busyUntil (tl.seq.ac + ceilDiv n 16 + 2) } }
  s.count (clusterOf t) 4 (16 * n)

/-- ADRN drains a slot through a parameter set or as RAW records and frees the slot (R80, R88, R146, R508). A set that
no PPU has loaded since the gate delivers nothing and the slot still becomes FREE. DEDUCED: log 22, 25; DESIGN CHOICE:
log 208. -/
def execAdrn (t : TileId) (id : Ids) (f : AdrnF) (s : State) : Outcome State Fault Refusal :=
  .next (s.issue t (uopWord id 0x1A (adrnBits f)) fun s =>
    let n := f.nm1.toNat + 1
    let a := f.slot.toNat
    let tl := (s.tile t).settle
    let ps := tl.pset f.pset.toNat
    let sl := tl.slot a
    let runs := sl.st == .opened && !tl.absorbing a
    if runs && !ps.loaded then
      let s := ((s.begin_ t id).modTile t fun tl => (tl.startDrain a n).incQ [(f.qdst, f.inc)])
      (s.conflict t id [] [a] 17).retire t
    else
      let dst := s.spOp? t f.qdst.toNat (fmtSpan ps.fmt.toNat n) true
      let us := match dst with
        | some d =>
          if runs && decide (ps.readyAt ≤ tl.seq.ac) && (ps.fmt != 7 || sl.mode != 2) &&
              (ps.fmt == 7 || decide (4 * (f.cbase.toNat + n) ≤ ps.scaleLen)) then
            some (drainUses tl.seq.ac ps.fmt.toNat n d ++
              (if ps.fmt = 7 then [] else [({ form := 0, write := false, start := tl.seq.ac
                                              addr := ps.scaleAddr + 4 * f.cbase.toNat, step := 64, len := 4 * n } : PathUse)]))
          else none
        | none => none
      s.access t id us [(f.qdst, f.inc)] { slots := [a], unit := 17 } fun s =>
        if ps.fmt = 7 then s.drainRaw t id f ps (dst.getD 0) else s.drainPpu t id f ps (dst.getD 0))

end Sys2Proof.Machine
end

