-- ==== Sys2Proof/Machine/Windows.lean ====
section
/-! DEFINITION. Writes, reads, credits and advances at the windows (R237 to R255), and the answers to the device's own
puts (R130, R251, R300). -/

namespace Sys2Proof.Machine

open Host (Outcome)

/-- The device takes traffic from outside: it is in service (R420, R426, R447). -/
def State.live (s : State) : Bool := s.phase == .service || s.phase == .ebb

/-- What an engine captures of a stopped partition: 256 KiB (R473). -/
def captureMax : Nat := 0x40000

/-- Traffic for a stopped partition enters its channel state; a transport datagram that finds the capture full is discarded and
counted (R473, R476). DESIGN CHOICE: log 66. -/
def Part.enter (pt : Part) (host : Bool) (m : Msg) : Part :=
  let held := pt.channel.foldl (fun n x => n + (channelBytes x).length) 0
  if host && decide (captureMax < held + (channelBytes m).length) then { pt with chanDropped := satAdd pt.chanDropped 1 }
  else { pt with channel := pt.channel ++ [m] }

/-- Traffic addressed to a partition that Slack has stopped enters its channel state; other traffic is served (R473). `host`
tells a transport datagram. -/
def State.capture (s : State) (p : Option PartId) (host : Bool) (m : Msg) (serve : State → State) : State :=
  match p with
  | some q => if (s.part q).slackStopped then s.modPart q fun pt => pt.enter host m else serve s
  | none => serve s

/-- The partition whose tile a window ID names. -/
def State.windowOwner? (s : State) (w : BitVec 24) : Option PartId :=
  match tileOfBits? (w.toNat % 65536) with | some t => s.tileOwner? t | none => none

/-- Discard a message, and count it (R11, R248, R254, R306). DESIGN CHOICE: log 130. -/
def State.discard (s : State) : State := { s with discarded := s.discarded + 1 }

/-- The writer of a put: a tile, or a slot that the transport header authenticates (R249, R306). -/
def writerKey (via : Via) (h : PutHdr) : Nat :=
  match via with
  | .fabric _ _ => h.writer.toNat
  | .transport p slot _ => 2 ^ 24 + 16 * p.val + slot.val

/-- A put segment is malformed (R254). -/
def malformed (h : PutHdr) (data : List Byte) : Bool :=
  data.length != h.slm1.toNat + 1 || decide (h.wlm1.toNat < h.sofs.toNat + h.slm1.toNat)

/-- The band of a tile takes no new DMA access (R235, R366). -/
def State.bandShut (s : State) (t : TileId) : Bool :=
  s.dom (bandOf (clusterOf t)).val != .on

/-- A band whose handle tables are lost: OFF, or in its switch-on (R366, R369). -/
def State.bandDark (s : State) (b : BandId) : Bool :=
  s.dom b.val == .off || (s.dom b.val == .switching && !(s.band b).draining)

/-- A window ID names a tile of this device whose band is off (R235, R366). -/
def State.windowDark (s : State) (id : BitVec 24) : Bool :=
  match tileOfBits? (id.toNat % 65536) with
  | some t => decide (id.toNat / 65536 = s.devNum.toNat) && s.bandDark (bandOf (clusterOf t))
  | none => false

/-- The cluster DMA still works on a tile: its band is on, or drains (R235). -/
def State.dmaUp (s : State) (t : TileId) : Bool :=
  let b := bandOf (clusterOf t)
  s.dom b.val == .on || (s.dom b.val == .switching && (s.band b).draining)

/-- A host reader or writer belongs to the partition that owns the window (R249). -/
def State.belongs (s : State) (via : Via) (t : TileId) : Bool :=
  match via with
  | .fabric _ _ => true
  | .transport p _ _ => s.tileOwner? t == some p

/-- The grant record is for this window and writer, was issued in the open epoch, and holds the range (R249). -/
def State.grantFits (s : State) (t : TileId) (h : Nat) (via : Via) (m : PutHdr) : Bool :=
  match s.tileOwner? t with
  | none => false
  | some p =>
    match (s.grantList p)[m.grant.toNat]? with
    | none => false
    | some g =>
      let forWriter := match via with
        | .fabric _ _ => hf g 125 124 == 0 && !m.host && decide (hf g 115 97 = m.writer.toNat / 32)
        | .transport q slot _ => hf g 125 124 == 1 && hf g 95 92 == slot.val && decide (q = p)
      hf g 91 76 == tileBits t + h && forWriter && ((s.tile t).win h).granted.contains m.grant.toNat &&
        decide (hf g 75 56 ≤ m.wofs.toNat) && decide (m.wofs.toNat + m.wlm1.toNat ≤ hf g 55 36)

/-- The checks of R249 on a first segment, in order: the reason of the first that fails. A window is sealed when its own
handle or the one of its public buffer is (R204). -/
def State.putCheck (s : State) (via : Via) (m : PutHdr) : Option (BitVec 8) :=
  match s.window? m.window with
  | none => some rNoWindow
  | some (t, h) =>
    let w := s.handle t h
    if !bitN w.toNat 122 || s.bufSealed t w true || !s.belongs via t then some rPerm
    else if hf w 63 32 != m.epoch.toNat then some rStale
    else if !s.grantFits t h via m then some rNoCredit
    else if s.bandShut t then some rBandOff
    else none

/-- The key of an accepted write. -/
def PutWrite.key (w : PutWrite) : LandKey := { window := w.window, epoch := w.epoch, writer := w.writer, tag := w.tag }

/-- The data of a segment of an accepted write land in the buffer of its acceptance (R249, R250). -/
def State.putData (s : State) (t : TileId) (w : PutWrite) (m : PutHdr) (data : List Byte) : State :=
  let s := s.modTile t fun tl =>
    let upd (x : PutWrite) : PutWrite := if x = w then { x with lastSeen := x.lastSeen || m.last } else x
    { tl with writes := tl.writes.map upd }
  s.dmaWrite t (w.base + m.sofs.toNat) data (some w.key) none

/-- The accepted write that a segment belongs to. -/
def State.putWrite? (s : State) (via : Via) (m : PutHdr) : Option (TileId × PutWrite) :=
  match tileOfBits? (m.window.toNat % 65536) with
  | none => none
  | some t =>
    let here (w : PutWrite) : Bool :=
      decide (w.window = m.window) && decide (w.epoch = m.epoch) && decide (w.writer = writerKey via m) &&
        decide (w.tag = m.tag)
    ((s.tile t).writes.find? here).map fun w => (t, w)

/-- An accepted write is given up, with the bytes of it that wait. -/
def Tile.dropPut (tl : Tile) (w : PutWrite) : Tile :=
  { tl with writes := tl.writes.erase w, held := tl.held.filter fun a => a.land != some w.key }

/-- A segment of `n` bytes at an address covers only some bytes of a word (R231). -/
def merges (addr n : Nat) : Bool := addr % 4 != 0 || (addr + n) % 4 != 0

/-- A segment of an accepted write: its data land, or a parity error on a merge refuses the whole write (R231, R250). -/
def State.putLand (s : State) (t : TileId) (w : PutWrite) (m : PutHdr) (data : List Byte) (parityErr : Bool) : State :=
  if parityErr && merges (w.base + m.sofs.toNat) data.length then
    (s.modTile t fun tl => tl.dropPut w).refuse w.window w.via w.epoch w.tag rParity 0
  else s.putData t w m data

/-- A put segment at its owning router (R249). -/
def State.putSegment (s : State) (via : Via) (m : PutHdr) (data : List Byte) (parityErr : Bool) : State :=
  if m.rsvd ≠ 0 then s.discard
  else if malformed m data then
    match s.window? m.window with
    | some (t, h) => s.modTile t fun tl => tl.modWin h fun x => { x with refused := satAdd x.refused 1 }
    | none => s
  else if m.first then
    match (bif s.windowDark m.window then some rBandOff else s.putCheck via m) with
    | some reason => s.refuse m.window via m.epoch m.tag reason 0
    | none =>
      match s.window? m.window with
      | none => s
      | some (t, h) =>
        let w : PutWrite :=
          { handle := h, epoch := m.epoch, window := m.window, via, writer := writerKey via m, tag := m.tag
            base := s.bufBase t (s.handle t h) true + m.wofs.toNat, len := m.wlm1.toNat + 1, got := 0, lastSeen := false }
        let s := s.modTile t fun tl => { tl with writes := tl.writes ++ [w] }
        s.putLand t w m data parityErr
  else
    match s.putWrite? via m with
    | none => s
    | some (t, w) => s.putLand t w m data parityErr

/-- The class in which a put came (R297). -/
def Via.isUrgent (via : Via) : Bool := match via with | .fabric _ urgent => urgent | .transport .. => false

/-- A put or a read that came as a transport datagram (R305). -/
def Via.isHost (via : Via) : Bool := match via with | .fabric .. => false | .transport .. => true

/-- A put segment reaches the owning router (R249, R473). -/
def execPutSegmentReceive (via : Via) (h : PutHdr) (data : List Byte) (mergeParityErr : Bool) (s : State) :
    Outcome State Fault Refusal :=
  .next (if s.live then
    s.capture (s.windowOwner? h.window) (Via.isHost via) (.put h (Via.isUrgent via) data) fun s => s.putSegment via h data mergeParityErr
  else s)

/-- Every byte of a write is in place. -/
def Tile.writeWhole (tl : Tile) (w : PutWrite) : Bool :=
  w.lastSeen && decide (w.len ≤ w.got) && !(tl.held.any fun a => a.land == some w.key)

/-- The last segment of an accepted write has landed: an ACK (R250). -/
def execPutWriteLanded (window : BitVec 24) (via : Via) (tag : BitVec 16) (s : State) : Outcome State Fault Refusal :=
  .next (
    match tileOfBits? (window.toNat % 65536) with
    | none => s
    | some t =>
      let s := s.settleDma t
      let here (w : PutWrite) : Bool :=
        decide (w.window = window) && decide (w.via = via) && decide (w.tag = tag) && (s.tile t).writeWhole w
      match (s.tile t).writes.find? here with
      | none => s
      | some w =>
        (s.modTile t fun tl => { tl with writes := tl.writes.erase w }).send (.via w.via) (.ack window w.epoch tag))

/-! ### Answers to the device's own puts -/

/-- The tile and the RPUT that a window and a TAG name. -/
def State.rput? (s : State) (f : BitVec 24 → BitVec 32 → BitVec 16 → Bool) : Option (TileId × AsyncOp) :=
  let isIt (o : AsyncOp) : Bool := match o.xfer with | .rput w e tag _ => f w e tag | _ => false
  (List.finRange 512).findSome? fun t => ((s.tile t).ops.find? isIt).map fun o => (t, o)

/-- An RPUT is complete: DONE rises (R130). -/
def State.opDone (s : State) (t : TileId) (o : AsyncOp) : State :=
  s.modTile t fun tl => { tl.countDone o with ops := tl.ops.erase o }

/-- A NACK or LOST aborts the writer's frame when that frame is still in progress (R251, R300). -/
def State.opFailed (s : State) (t : TileId) (o : AsyncOp) (reason : BitVec 8) : State :=
  let owner := s.tileOwner? t
  let s := s.raise 0x000A clsAborting (s.srcTile t 16) o.ids owner [reason]
  match owner with
  | some p => if (s.part p).frame = o.frame then s.markFrame p 8 o.ids.layer else s
  | none => s

/-- An ACK for an RPUT (R130). -/
def execAckReceive (window : BitVec 24) (epoch : BitVec 32) (tag : BitVec 16) (s : State) : Outcome State Fault Refusal :=
  .next (if s.live then
    match s.rput? fun w e g => decide (w = window) && decide (e = epoch) && decide (g = tag) with
    | some (t, o) => s.capture (s.tileOwner? t) false (.ack window epoch tag) fun s => s.opDone t o
    | none => s
  else s)

/-- A NACK for an RPUT counts as done, is kept in the credit status word, and aborts the frame (R251, R253). -/
def execNackReceive (window : BitVec 24) (epoch : BitVec 32) (tag : BitVec 16) (reason : BitVec 8) (detail : BitVec 32)
    (s : State) : Outcome State Fault Refusal :=
  .next (if s.live then
    match s.rput? fun w e g => decide (w = window) && decide (e = epoch) && decide (g = tag) with
    | some (t, o) => s.capture (s.tileOwner? t) false (.nack window epoch tag reason detail) fun s =>
        let s := (s.opDone t o).modTile t fun tl => { tl with nacks := satAdd tl.nacks 1, lastReason := reason }
        s.opFailed t o reason
    | none => s
  else s)

/-- A credit slot's word (R247). -/
def creditWord (g : GrantMsg) : BitVec 128 :=
  (1#1) ++ (0#7) ++ g.window ++ g.epoch ++ g.lo ++ g.hi ++ (0#8) ++ g.grant

/-- A grant replaces CUR or NEXT of its entry by frame number, or is discarded (R247). -/
def execGrantReceive (t : TileId) (g : GrantMsg) (s : State) : Outcome State Fault Refusal :=
  .next (if s.live then
    s.capture (s.tileOwner? t) false (.grant g) fun s =>
      if g.rsvd ≠ 0 then s.discard
      else
        match s.tileOwner? t with
        | none => s.discard
        | some p =>
          let frame := (s.part p).frame
          s.modTile t fun tl =>
            if g.frame = frame then { tl with cur := Store.set tl.cur g.entry.toNat (creditWord g) }
            else if g.frame = frame + 1 then { tl with nxt := Store.set tl.nxt g.entry.toNat (creditWord g) }
            else { tl with discards := satAdd tl.discards 1 }
  else s)

/-- A grant as record `i` of a list states it for its window's open epoch (R246, R254). -/
def State.grantMsg (s : State) (p : PartId) (t : TileId) (i : Nat) (g : BitVec 128) : GrantMsg :=
  { window := BitVec.ofNat 24 (s.devNum.toNat * 65536 + hf g 91 76)
    epoch := BitVec.ofNat 32 (hf (s.handle t (hf g 91 76 % 32)) 63 32), frame := (s.part p).frame
    lo := BitVec.ofNat 20 (hf g 75 56), hi := BitVec.ofNat 20 (hf g 55 36), grant := BitVec.ofNat 16 i
    entry := BitVec.ofNat 5 (hf g 115 92 % 16), rsvd := 0 }

/-- A credit request of a host: a grant for every record of its slot and window that is active in the open epoch, or
NO_CREDIT. A record of TRIG 0b00 is active in every epoch (R246, R248). DEDUCED: log 33, 34. -/
def State.creditAnswer (s : State) (p : PartId) (slot : HostSlot) (seq : BitVec 32) (window : BitVec 24) : State :=
  let via : Via := .transport p slot seq
  match s.window? window with
  | none => s.send (.via via) (.nack window 0 0 rNoCredit 0)
  | some (t, h) =>
    let active (x : BitVec 128 × Nat) : Bool :=
      hf x.1 125 124 == 1 && hf x.1 95 92 == slot.val && hf x.1 91 76 == tileBits t + h &&
        (hf x.1 127 126 == 0 || ((s.tile t).win h).granted.contains x.2)
    let found := (s.grantList p).zipIdx.filter active
    if found = [] then s.send (.via via) (.nack window 0 0 rNoCredit 0)
    else
      let note (w : WinSt) (i : Nat) : WinSt := { w with granted := if w.granted.contains i then w.granted else w.granted ++ [i] }
      let s := s.modTile t fun tl => tl.modWin h fun w => found.foldl (fun w x => note w x.2) w
      s.each found fun s x => s.send (.via via) (.grant (s.grantMsg p t x.2 x.1))

/-- A host's credit request (R248). DEDUCED: log 33. -/
def execCreditRequest (p : PartId) (slot : HostSlot) (seq : BitVec 32) (window : BitVec 24) (paySlot : BitVec 4)
    (s : State) : Outcome State Fault Refusal :=
  .next (if s.live then
    s.capture (some p) true (.deliver 0x05 (leBytes 4 window.toNat ++ [paySlot.setWidth 8] ++ List.replicate 11 0)) fun s =>
      if paySlot.toNat ≠ slot.val then s.discard else s.creditAnswer p slot seq window
  else s)

/-- The checks of R252 on a read request; a sealed buffer is not read from outside (R204). -/
def State.readCheck (s : State) (via : Via) (r : ReadReq) : Option (BitVec 8) :=
  match s.window? r.window with
  | none => some (if s.windowDark r.window then rBandOff else rNoWindow)
  | some (t, h) =>
    let w := s.handle t h
    if !bitN w.toNat 123 || s.bufSealed t w true || !s.belongs via t then some rPerm
    else if handleLen w < r.offset.toNat + r.lm1.toNat + 1 then some rRange
    else if s.bandShut t then some rBandOff
    else none

/-- A cluster DMA read that the seal of its buffer turns away is a schedule conflict of the tile too (R64, R204).
DESIGN CHOICE: log 213. -/
def State.sealedRead (s : State) (via : Via) (r : ReadReq) : State :=
  match s.window? r.window with
  | some (t, h) =>
    let w := s.handle t h
    if bitN w.toNat 123 && s.belongs via t && s.bufSealed t w true then s.conflict t noIds [] [] 21 else s
  | none => s

/-- A read request of a window: refused, held, or answered (R230, R232, R234, R236, R252). -/
def State.readRequest (s : State) (via : Via) (r : ReadReq) (parityErr : Bool) (after : Option Nat) : State :=
  if r.rsvd ≠ 0 then s.discard
  else
    match s.readCheck via r with
    | some reason => (s.sealedRead via r).refuse r.window via 0 r.tag reason 0
    | none =>
      match s.window? r.window with
      | none => s
      | some (t, h) =>
        let w := s.handle t h
        s.dmaNew t {
          why := .busy, addr := s.bufBase t w true + r.offset.toNat, len := r.lm1.toNat + 1, data := [], tries := 0
          land := none, req := some { via, r, epoch := BitVec.ofNat 32 (hf w 63 32), parityErr, after } }

/-- A read request (R252). -/
def execReadRequest (via : Via) (r : ReadReq) (parityErr : Bool) (toggledAfter : Option Nat) (s : State) :
    Outcome State Fault Refusal :=
  .next (if s.live then
    s.capture (s.windowOwner? r.window) (Via.isHost via) (.deliver 0x06 (leBytes 4 r.window.toNat ++ leBytes 4 r.offset.toNat ++
      leBytes 2 r.lm1.toNat ++ leBytes 2 r.tag.toNat ++ leBytes 4 0)) fun s => s.readRequest via r parityErr toggledAfter
  else s)

/-- A read data segment reaches the requester, an application core of the device (R252). DESIGN CHOICE: log 219. -/
def execReadDataSegmentReceive (r : ReadSeg) (data : List Byte) (s : State) : Outcome State Fault Refusal :=
  .next (if s.live then
    if r.rsvd ≠ 0 then s.discard
    else
      let others := s.reads.filter fun x => decide (x ≠ (r.window, r.tag))
      ({ s with reads := if r.last then others else others ++ [(r.window, r.tag)] }).send (.device s.devNum) (.readSeg r data)
  else s)

/-! ### Advances (R242, R243) -/

/-- Close the epoch that an advance ended: LANDED, torn mark and SHORT go into the status word (R243, R244). -/
def State.closeEpoch (s : State) (t : TileId) (h : Nat) (torn : Bool) : State :=
  let w := s.handle t h
  s.modTile t fun tl => tl.modWin h fun x =>
    { x with closing := false, closedLanded := 0, torn, landed := satOf 20 x.closedLanded
             short := bitN w.toNat 112 && decide (x.closedLanded < handleLen w) }

/-- The writes of a window accepted before its last advance and not landed. -/
def State.oldWrites (s : State) (t : TileId) (h : Nat) : List PutWrite :=
  let cur := BitVec.ofNat 32 (hf (s.handle t h) 63 32)
  (s.tile t).writes.filter fun w => decide (w.handle = h) && !decide (w.epoch = cur)

/-- The window that a closing advance names: its handle entry may have been cleared since (R241). -/
def State.closing? (s : State) (window : BitVec 24) : Option (TileId × Nat) :=
  if window.toNat / 65536 = s.devNum.toNat then
    match tileOfBits? (window.toNat % 65536) with
    | some t => if ((s.tile t).win (window.toNat % 32)).closing then some (t, window.toNat % 32) else none
    | none => none
  else none

/-- Every write accepted before the advance has landed (R242, R243). -/
def execAdvanceComplete (window : BitVec 24) (s : State) : Outcome State Fault Refusal :=
  .next (
    match s.closing? window with
    | none => s
    | some (t, h) =>
      let s := s.settleDma t
      if s.oldWrites t h = [] then s.closeEpoch t h false else s)

/-- Discard an accepted write that is not whole, with a reason; DETAIL is the bytes landed for TORN (R242, R254). -/
def State.dropWrite (s : State) (t : TileId) (w : PutWrite) (reason : BitVec 8) : State :=
  (s.modTile t fun tl => tl.dropPut w).refuse w.window w.via w.epoch w.tag reason
    (if reason = rTorn then BitVec.ofNat 32 w.got else 0)

/-- 4 µs after an advance: writes not landed are discarded with TORN, and the closed epoch is torn (R242). -/
def execAdvanceTimeout (window : BitVec 24) (s : State) : Outcome State Fault Refusal :=
  .next (
    match s.closing? window with
    | none => s
    | some (t, h) =>
      let s := s.settleDma t
      let old := s.oldWrites t h
      (s.each old fun s w => s.dropWrite t w rTorn).closeEpoch t h (!old.isEmpty))

/-- A put of the device has no answer in time: it is complete with reason LOST, and its frame aborts (R300).
DESIGN CHOICE: log 219. -/
def execFabricResponseTimeout (tag : BitVec 16) (s : State) : Outcome State Fault Refusal :=
  .next (
    match s.rput? fun _ _ g => decide (g = tag) with
    | some (t, o) => (s.opDone t o).opFailed t o 0
    | none =>
      match s.reads.find? fun x => decide (x.2 = tag) with
      | some x => ({ s with reads := s.reads.erase x }).raise 0x000A clsNone (s.srcH 8 0) noIds none [0]
      | none => s)

end Sys2Proof.Machine
end

