-- ==== Sys2Proof/Machine/FrameOps.lean ====
section
/-! DEFINITION. What happens to a partition's tiles at a gate, at a stop and at an unload; the frame records; cancels,
withdrawals and alerts of a withheld frame; readiness (R178 to R182, R201, R241, R308, R439 to R444, R454). -/

namespace Sys2Proof.Machine

/-! ### Tiles at a gate and at a stop -/

/-- A slot that holds no accumulation; CONFLICT stays (R80 to R82). -/
def Slot.clear (sl : Slot) : Slot :=
  { sl with st := .free, emaxValid := false, emax := 0, prescanned := false, entries := [], openAt := 0, freeAt := 0
            busyUntil := 0, lastPass := none, lastLand := 0, landPres := none, landBase := 0 }

/-- A macro with no work in hand and its staging halves cleared: a load in progress, one whose rows are still being written in
cycle `cycle` among them, is INVALID (R59, R160, R179, R214). An LDW from HBM stays outstanding until its DONE (R179, R212). -/
def Macro.clear (mc : Macro) (cycle : Nat) : Macro :=
  let writing : Bool := cycle < mc.portUntil
  let mc := { mc with half0 := {}, half1 := {}, fill0 := none, fill1 := none, lastS := none, arrayUntil := 0
                      streamUntil := 0, portUntil := 0, setUntil := 0, half0Until := 0, half1Until := 0
                      bank0Until := 0, bank1Until := 0, streamDead := false }
  mc.modShadow fun b => if b.st = .loading ∨ (b.st = .valid ∧ writing = true) then b.clearLoad else b

/-- An operation across a gate or a stop: a load that it has ended writes no rows (R214). -/
def AsyncOp.cut (o : AsyncOp) : AsyncOp := match o.xfer with | .ldw .. => { o with dropped := true } | _ => o

/-- A tile with no work in hand (R80, R108, R118, R160, R179, R214, R508). A map byte is cleared whole. DESIGN CHOICE: log 188. -/
def Tile.clear (tl : Tile) : Tile :=
  let tl := tl.landAll
  { tl with macros := tl.macros.map fun x => (x.1, x.2.clear tl.seq.ac)
            slots := tl.slots.map fun x => (x.1, x.2.clear)
            map := [], psets := [], stat := none, statUntil := 0, samples := [], passes := [], streams := [], landings := []
            replay := [], paths := [], unitsUntil := 0, pageHold := none, twin := [], bankSteps := []
            ops := tl.ops.map AsyncOp.cut }

/-- What a bank holds at a frame's start (R116). -/
def Bank.atStart (b : Bank) : BankRec :=
  { st := b.st, groups := b.groups, wsgn := b.wsgn, pm1 := b.pm1, layer := b.layer, sealedSrc := b.sealedSrc, srcs := b.srcs }

/-- A scratchpad bank at a gate, which does not touch it: its wake goes on (R233, R234). -/
def SpBankSt.atGate (k : SpBankSt) (cycle : Nat) : SpBankSt := { k with wakeEnd := k.wakeEnd - cycle }

/-- A tile with an image at a frame gate: registers loaded, counters, slots and status words cleared (R102, R116, R131, R133,
R172); it starts at index 0 when `zero`. -/
def Tile.atGate (tl : Tile) (zero : Bool) : Tile :=
  let tl := tl.clear
  let start := if zero then 0 else tl.seq.start
  let open_ (x : WinSt) : WinSt := { x with readBad := false }
  let old (o : AsyncOp) : AsyncOp := { o with counted := false }
  let begun (mc : Macro) : Macro := { mc with start0 := mc.bank0.atStart, start1 := mc.bank1.atStart }
  let cycle := tl.seq.cycle
  { tl with seq := { st := .waiting, why := .gate, pc := start, start }
            q := tl.qInit, n := tl.nInit, ctr := [], num := {}
            macros := tl.macros.map fun x => (x.1, begun x.2)
            spBanks := tl.spBanks.map fun x => (x.1, x.2.atGate cycle)
            held := tl.held.map fun a => { a with since := 0, first := 0 }
            step := tl.step.map fun st => { st with start := 0 }
            windows := tl.windows.map fun x => (x.1, open_ x.2)
            ops := tl.ops.map old }

/-- A tile whose frame is stopped in cycle `cycle`: its sequencer is back at START (R179). -/
def Tile.atStop (tl : Tile) (cycle : Nat) : Tile :=
  let tl := (tl.modSeq (·.reach cycle)).clear
  if tl.hasImage then tl.modSeq fun q =>
    { q with st := .waiting, why := .gate, waitArg := 0, waitUop := none, parTries := 0, pc := q.start, done := true }
  else tl

/-! ### Epochs -/

/-- The gate group of a partition (R307). -/
def State.gateGroup (s : State) (p : PartId) : GroupId := (BitVec.ofNat 6 (s.vval p 0x18 1)).toFin

/-- Advance the windows of a partition's tiles that a condition on the handle names (R241). -/
def State.advanceAll (s : State) (p : PartId) (kind : Nat) (f : BitVec 128 → Bool) (toggle : Bool) : State :=
  s.each (s.tilesOf p) fun s t =>
    s.each ((s.windowsOf t kind).filter fun h => f (s.handle t h)) fun s h => s.advance t h toggle

/-- Every window of a tile advances, and its handle table is cleared: EPOCH alone stays. Writes accepted before go on landing
until the advance is complete (R241, R242, R246). DEDUCED: log 35. -/
def State.clearHandles (s : State) (t : TileId) : State :=
  let s := s.each (s.windowsOf t 1 ++ s.windowsOf t 2) fun s h => s.advance t h false
  let table := (List.range 32).map fun h => (h, (BitVec.ofNat 128 (hf (s.handle t h) 63 32 * 2 ^ 32) : BitVec 128))
  let shut (x : WinSt) : WinSt := { x with openLanded := 0, granted := [], readBad := false }
  s.modTile t fun tl => { tl with handles := table, windows := tl.windows.map fun x => (x.1, shut x.2) }

/-! ### Records (R182, R444) -/

/-- The tiles of a partition that its image names. -/
def State.imageTiles (s : State) (p : PartId) : List TileId := (s.tilesOf p).filter fun t => (s.tile t).hasImage

/-- The nominal length of the variant in force. -/
def Part.nominal (pt : Part) : BitVec 32 :=
  match pt.image with | some im => im.nominal.getD pt.cls.toNat 0 | none => 0

/-- The frame timing record (R182). DEDUCED: log 118, 119. -/
def State.timing (s : State) (p : PartId) (elapsed : Nat) : BitVec 128 :=
  let pt := s.part p
  let frozen := (s.tilesOf p).foldl (fun n t => max n (s.tile t).seq.frozen) 0
  satOf 32 elapsed ++ pt.nominal ++ satOf 16 frozen ++ satOf 16 pt.run.overBudget ++ pt.div2.setWidth 6 ++ pt.cls ++
    b2v pt.run.overrun ++ b2v pt.run.cancelled ++ b2v pt.run.stretched ++ pt.run.action ++ (0#3) ++
    satOf 16 pt.run.missed

/-- The frame status record (R444). -/
def State.status (s : State) (p : PartId) (committed : Bool) : BitVec 128 :=
  let pt := s.part p
  let nums := (s.tilesOf p).map fun t => (s.tile t).num
  let any (f : NumSt → Bool) : BitVec 1 := b2v (nums.any f)
  let sat := nums.foldl (fun n w => n + w.satCount.toNat) 0
  let layer := match nums.find? fun w => w.firstLayer != 0xFFFF with | some w => w.firstLayer | none => 0xFFFF
  let cause : BitVec 4 := if committed then 0 else pt.run.cause
  pt.frame ++ pt.gen ++ b2v committed ++ cause ++ b2v pt.run.monitor ++ b2v pt.run.raised ++ b2v pt.run.replayed ++
    b2v pt.run.corrected ++ (0#2) ++ any (·.bound) ++ any (·.expmiss) ++ any (·.ovf) ++ any (·.nonfin) ++ any (·.sat) ++
    satOf 11 sat ++ (0#5) ++ layer ++ (if committed then 0xFFFF else pt.run.causeLayer)

/-! ### Alerts that leave the device (R453, R454) -/

/-- Send an alert message to the other members of the partition's group and to its registered slots (R453).
DESIGN CHOICE: log 124. -/
def State.sendAlert (s : State) (p : PartId) (m : AlertMsg) : State :=
  let s := s.send (.group (s.gateGroup p)) (.alert m)
  s.each ((List.finRange 16).filter fun (n : HostSlot) => s.slotRegistered p n.val) fun s n =>
    s.send (.slot p n) (.alert m)

/-- The message with KIND 4 that a partition owes leaves once every captured alert of the partition has left its cluster;
it updates LastAlert (R454). DEDUCED: log 136. -/
def State.sendKind4 (s : State) (p : PartId) : State :=
  match (s.part p).kind4 with
  | none => s
  | some m =>
    if s.alert.inCluster.any fun x => x.2.part.toFin == p then s
    else (s.sendAlert p m).modPart p fun pt => { pt with lastAlert := some m, kind4 := none }

/-- A frame that raised alerts ends withheld: a message with KIND 4 follows them (R454). -/
def State.withheldAlert (s : State) (p : PartId) : State :=
  if (s.part p).run.raised then
    let m : AlertMsg :=
      { frame := (s.part p).frame, src := s.srcH 10 0, layer := 0xFFFF, opid := 0xFFFF, channel := 0, kind := 4
        precommit := false, part := BitVec.ofNat 3 p.val, ts := s.now }
    (s.modPart p fun pt => { pt with kind4 := some m }).sendKind4 p
  else s

/-! ### Stop, cancel, withhold (R179, R180, R439, R442) -/

/-- Issue halts on every tile of a partition, DMA accesses that waited for its stream are served, and the write windows without
ALTV advance (R179, R229, R241). -/
def State.stopTiles (s : State) (p : PartId) : State :=
  let s := s.each (s.tilesOf p) fun s t => (s.modTile t fun tl => tl.atStop (s.liveAc t)).freeDma t
  let s := s.advanceAll p 1 (fun w => !bitN w.toNat 119) false
  s.modPart p fun pt => { pt with run := { pt.run with stopped := true } }

/-- Cancel arrivals for frame `frame` go to every fabric-scope point that the partition has not reached; points of
device scope complete their waits here (R180). DEDUCED: log 37. -/
def State.sendCancels (s : State) (p : PartId) (frame : BitVec 32) (fresh : Bool) : State :=
  let tbl := s.pointTable p
  s.each (List.range tbl.length) fun s rid =>
    let e := tbl.getD rid 0
    let x := (s.part p).point rid
    if x.reached && !fresh then s
    else if hf e 127 126 = 3 then
      let g : GroupId := (BitVec.ofNat 6 (hf e 95 88)).toFin
      s.send (.group g) (.cancel { frame, rid := BitVec.ofNat 10 rid, group := g })
    else if hf e 127 126 = 2 then s.modPart p fun pt => pt.modPoint rid fun x => { x with cancelled := true }
    else s

/-- The frame ends with its commit withheld: records, WITHHELD, the KIND 4 alert; its boundary is due (R442, R445).
DEDUCED: log 119. -/
def State.withhold (s : State) (p : PartId) (elapsed : Nat) : State :=
  let status := s.status p false
  let timing := s.timing p elapsed
  let s := s.withheldAlert p
  s.modPart p fun pt => { pt with
    statusRec := status, timingRec := timing, withheld := satAdd pt.withheld 1, lastCause := pt.run.cause
    run := { pt.run with active := false }, boundaryDue := true
    st := if pt.st = .running then .idle else pt.st }

/-- Stop the frame in progress with a cause, unless an earlier fault marked it, and withhold its commit (R179, R439). -/
def State.stopFrame (s : State) (p : PartId) (cause : BitVec 4) (layer : BitVec 16) (elapsed : Nat) : State :=
  if (s.part p).run.active then
    let s := (s.markFrame p cause layer).modPart p fun pt =>
      let fault : Bool := decide (1 ≤ pt.run.cause.toNat) && decide (pt.run.cause.toNat ≤ 10)
      { pt with run := if fault then { pt.run with overrun := false, action := 0 } else pt.run }
    ((s.stopTiles p).sendCancels p (s.part p).frame false).withhold p elapsed
  else s

/-- The ns from T_s to now. -/
def State.elapsed (s : State) (p : PartId) : Nat :=
  if s.now < (s.part p).run.ts then 0 else nsSince (s.part p).run.ts s.now

/-- The leader of a partition's gate group. -/
def State.leaderOf (s : State) (g : GroupId) : BitVec 8 := (s.group g).leader

/-- GateSource of a group (R309). DEDUCED: log 38. -/
def State.gateSource (s : State) (g : GroupId) : BitVec 2 := BitVec.ofNat 2 (s.dval (0x2200 + g.val) 1)

/-- A later frame number, modulo 2^32. -/
def later (a b : BitVec 32) : Bool := decide (0 < (a - b).toInt)

/-- The ready of a member counts for the next frame; before a leader's first fire, whatever frame it reports (R307).
DEDUCED: log 84. -/
def Group.counts (x : Group) (m : BitVec 8) : Bool :=
  x.ready.any fun r => decide (r.1 = m) && (!x.fired || decide (r.2 = x.frame + 1))

/-- Every member of a group is ready (R309). -/
def Group.allReady (x : Group) : Bool := !x.members.isEmpty && x.members.all fun m => x.counts m

/-- The WAITING bit of a leader (R314). DEDUCED: log 84. -/
def Group.settle (x : Group) : Group := { x with waiting := x.role == 2 && x.allReady }

/-- A gate ready at a device: its group's leader counts it, or takes it back on WITHDRAW, and before its first fire takes
over the highest FRAME reported; any other device discards it. A member that still repeats its ready 100 µs after the fire did
not get it, and takes the next (R307, R308, R311, R317). DEDUCED: log 84, 222. -/
def State.takeReady (s : State) (src : BitVec 8) (m : ReadyMsg) : State :=
  let x := s.group m.group
  if x.role ≠ 2 then { s with discarded := s.discarded + 1 }
  else
    let others := x.ready.filter fun r => r.1 != src
    let x' : Group :=
      if m.withdraw then { x with ready := others }
      else if !x.fired && later m.frame (x.frame + 1) then { x with ready := others ++ [(src, m.frame)], frame := m.frame - 1 }
      else if !x.fired || m.frame == x.frame + 1 then { x with ready := others ++ [(src, m.frame)] }
      else if m.frame == x.frame && decide (100000 ≤ nsSince x.firedAt s.now) then
        { x with ready := others ++ [(src, x.frame + 1)] }
      else x
    s.modGroup m.group fun _ => x'.settle

/-- Send a gate ready to the group's leader, which may be this device (R308). DEDUCED: log 38. -/
def State.sendReady (s : State) (m : ReadyMsg) : State :=
  if s.leaderOf m.group = s.devNum then s.takeReady s.devNum m else s.send (.device (s.leaderOf m.group)) (.ready m)

/-- A ready partition, or one whose gate has fired, sends WITHDRAW (R308). -/
def State.sendWithdraw (s : State) (p : PartId) : State :=
  let pt := s.part p
  if pt.ready || pt.armed then
    s.sendReady { frame := if pt.armed then pt.frame else pt.readyFrame, group := s.gateGroup p
                  data := s.gateSource (s.gateGroup p) = 0, withdraw := true }
  else s

/-- A partition withdraws from its gate group, with cancel arrivals for the frame it was ready for (R308). -/
def State.withdraw (s : State) (p : PartId) : State :=
  let pt := s.part p
  let s1 := if pt.ready || pt.armed then
      (s.sendWithdraw p).sendCancels p (if pt.armed then pt.frame else pt.readyFrame) true
    else s
  s1.modPart p fun pt => { pt with ready := false, armed := false }

/-! ### Unload (R201, R204) -/

/-- Zero the sealed regions of a tile (R204). -/
def State.wipeSealed (s : State) (t : TileId) : State :=
  (s.modTile t Tile.landAll).each ((List.range 32).filter fun h => handleValid (s.handle t h) && bitN (s.handle t h).toNat 124) fun s h =>
    let w := s.handle t h
    s.modTile t fun tl => tl.spZero (handleBase w) (handleLen w)

/-- A macro whose banks are wiped and whose outlier sets are invalid (R201, R204, R226). -/
def Macro.bare (mc : Macro) : Macro :=
  { mc with bank0 := mc.bank0.wipe, bank1 := mc.bank1.wipe, set0 := {}, set1 := {}, ldwHbm := false, start0 := {}, start1 := {} }

/-- A tile that holds no image: banks wiped, outlier sets, sealed regions, windows, credits and the numeric status cleared; a
verify in hand leaves no result, a Tidewalk step ends, and the DMA accesses that it or the stream held are served (R102, R201,
R204, R226, R236, R242, R247). DEDUCED: log 35. -/
def State.unloadTile (s : State) (t : TileId) : State :=
  let s := (s.wipeSealed t).clearHandles t
  let s := s.modTile t fun tl =>
    let tl := tl.clear
    { tl with macros := tl.macros.map fun x => (x.1, x.2.bare)
              seq := {}, hasImage := false, q := [], n := [], ctr := [], ibuf := [], ibufPar := [], qInit := [], nInit := []
              ops := [], held := tl.held.filter fun a => a.op.isNone
              cur := [], nxt := [], step := none, num := {}, verify := { tl.verify with busy := false, held := false } }
  s.freeDma t

/-- The macros of a tile with nothing but their steering words. -/
def Tile.steering (tl : Tile) : Store Macro :=
  let steered (mc : Macro) : Macro := { bank0 := { steer := mc.bank0.steer }, bank1 := { steer := mc.bank1.steer } }
  tl.macros.map fun x => (x.1, steered x.2)

/-- A tile as the band reset leaves it: banks INVALID, EPOCHs from the random source, the repair word and the steering
words from the map; CHK_EVENTS counts anew (R22, R241, R366, R369). DESIGN CHOICE: log 5, 189. -/
def Tile.fresh (tl : Tile) (seed : Nat) : Tile :=
  { epochSeed := seed, repair := { tl.repair with chkEvents := 0 }, macros := tl.steering }

/-- The scratchpad banks of a tile from now on, a count of the owner's ac clock: ON, with their idle time at zero (R233). -/
def freshBanks (now : Nat) : Store SpBankSt := (List.range 4).map fun b => (b, { touched := now })

/-- A tile after a partition reset: as any reset leaves it, but for its scratchpad, which no reset clears, the writes
that are still landing and CHK_EVENTS (R22, R241, R242, R329, R418). DEDUCED: log 190, 35; DESIGN CHOICE: log 5. -/
def Tile.partFresh (tl : Tile) (seed : Nat) (now : Nat) : Tile :=
  let closing (x : WinSt) : WinSt := { closing := x.closing, closedLanded := x.closedLanded }
  let tl := tl.landAll
  { tl.fresh seed with
    repair := tl.repair, sp := tl.sp, spPar := tl.spPar, spBanks := freshBanks now, writes := tl.writes, held := tl.held
    windows := tl.windows.map fun x => (x.1, closing x.2) }

/-- An HBM address that the Headland reads or writes for a partition alone: in its slices, its download area or its ring
(R259, R274). DEDUCED: log 218. -/
def State.hbmServes (s : State) (p : PartId) (a : Nat) : Bool :=
  (s.slices p).contains (a / 2 ^ 32) || decide (a / 2 ^ 32 = downloadBase p / 2 ^ 32) ||
    (decide (ringBase p ≤ a) && decide (a < ringBase p + 0x10000000))

/-- A partition without an image; the replays of its accesses end without a result (R201, step 1; R274). -/
def State.unload (s : State) (p : PartId) : State :=
  let s := s.each (s.tilesOf p) State.unloadTile
  let own (x : (HbmAddr × BitVec 7 × HbmUser × Bool) × Nat) : Bool := (s.clusterMask p).getLsbD x.1.2.1.toNat
  let served (x : (HbmAddr × BitVec 7 × HbmUser × Bool) × Nat) : Bool := x.1.2.1 == 32 && s.hbmServes p x.1.1.toNat
  let idle (x : Nat × Ctrl) : Nat × Ctrl := (x.1, { x.2 with tries := x.2.tries.filter fun k => !own k && !served k })
  let s := { s with ctrls := s.ctrls.map idle }
  s.modPart p fun pt => { pt with
    image := none, copyLost := false, eligible := 0, residents := [], points := [], fromZero := false, ready := false, armed := false
    repairs := [], pageReload := [], restoreDue := [], restoreFailed := [], refillTries := 0, readmit := false
    area := { pt.area with snap := [] }
    st := if pt.st = .idle ∨ pt.st = .running ∨ pt.st = .loading then .empty else pt.st }

/-- A partition's model key leaves the secure SRAM: it is held during stage 9 only (R405, R414). -/
def State.dropModelKey (s : State) (p : PartId) : State :=
  { s with island := { s.island with sram := { s.island.sram with modelKeys := Store.erase s.island.sram.modelKeys p.val } } }

/-- End a running admission with ABANDONED (R200, R192). DEDUCED: log 115. -/
def State.abandon (s : State) (p : PartId) : State :=
  (s.dropModelKey p).modPart p fun pt =>
    if pt.admission.isSome || pt.loadAsked then
      { pt with admission := none, loadAsked := false, st := if pt.st = .loading then .empty else pt.st
                result := match pt.admission with
                  | some a => { status := 0x000C, stage := pt.result.stage, eligible := a.eligible, sect := 0xFFFFFFFF }
                  | none => { status := 0x000C, stage := 1, sect := 0xFFFFFFFF } }
    else pt

/-! ### Enrolments that wait for a boundary (R403, R404) -/

/-- A result of a control record: it ended in stage `stage` (R403). -/
def recordResult (status : BitVec 16) (stage : BitVec 8) : AdmResult := { status, stage, sect := 0xFFFFFFFF }

/-- An accepted enrolment takes effect: the image is unloaded, the digests and the sequence are stored, and its record
has its result (R403, R404). DEDUCED: log 145; DESIGN CHOICE: log 146. -/
def State.enrolNow (s : State) (p : PartId) : State :=
  match (s.part p).enrolDue with
  | none => s
  | some x =>
    let ns := Config.freeWord s.freeCtr
    let s := (((s.withdraw p).unload p).drawn).modPart p fun pt =>
      { pt with ownerRsa := x.rsa, ownerSlh := x.slh, ownerSeq := x.seq, enrolDue := none }
    s.modPart x.asker fun pt => { pt with result := { recordResult 0 9 with loadNs := ns } }

/-- End a running admission and an accepted enrolment with ABANDONED (R200, R403, R416). DESIGN CHOICE: log 146. -/
def State.abandonAll (s : State) (p : PartId) : State :=
  let s := s.abandon p
  match (s.part p).enrolDue with
  | none => s
  | some x =>
    (s.modPart p fun pt => { pt with enrolDue := none }).modPart x.asker fun pt =>
      { pt with result := recordResult 0x000C 5 }

/-- The bytes at the start of a partition's download area are those of an image (R402). -/
def State.imageIn (s : State) (p : PartId) : Bool := leNat (s.hbmRead (downloadBase p) 4) == 0x314A544A

/-! ### Readiness (R217, R271, R308, R332, R367, R437, R510) -/

/-- The bands that hold clusters of a partition. -/
def State.bandsOf (s : State) (p : PartId) : List BandId :=
  (List.finRange 16).filter fun b =>
    (s.clusterMask p).getLsbD (2 * b.val) || (s.clusterMask p).getLsbD (2 * b.val + 1)

/-! ### Settings that pass (R177, R196, R379) -/

/-- A setting: twice the divider, and the class. -/
abbrev Setting := Nat × Nat

/-- The dividers, fastest first (R182). -/
def dividers : List Nat := [14, 16, 17, 18, 20, 24, 28, 32]

/-- ns of a nominal length at divider D = div2 / 2, in units of 1 / 24 ns (R177). -/
def nominal24 (nominal : BitVec 32) (div2 : Nat) : Nat := nominal.toNat * div2

/-- A pair of a nominal length and a divider passes (R177). DEDUCED: log 78. -/
def pairPasses (nominal : BitVec 32) (div2 deadline reserve : Nat) : Bool :=
  decide (nominal24 nominal div2 * 10000 ≤ (10000 - reserve) * deadline * 24)

/-- FixedFrequency, PinnedDivider × 2 and PinnedClass in force. DEDUCED: log 78. -/
def State.pinned (s : State) (p : PartId) : Option (Nat × Nat) :=
  if s.vval p 0x10 6 = 1 then some (s.vval p 0x10 7, s.vval p 0x10 8) else none

/-- The state with a partition's accepted commits in force, as power control takes them (R331). -/
def State.soon (s : State) (p : PartId) : State :=
  { s with dict := (s.part p).area.queue.foldl (fun d c => c.set.foldl (fun d x => Store.set d x.1 x.2) d) s.dict }

/-- A setting is an eligible variant of the image and passes R177 against k × FrameDeadline; without a copy of the image only
the loaded variant is one (R177, R196, R265, R380). -/
def State.fits (s : State) (p : PartId) (k : Nat) (x : Setting) : Bool :=
  match (s.part p).image with
  | none => false
  | some im =>
    let at_ (d : Nat) : Bool := pairPasses (im.nominal.getD x.2 0) d (max 1 k * s.vval p 0x10 1) (s.vval p 0x10 2)
    im.variants.getLsbD x.2 && at_ x.1 && at_ 16 && (!(s.part p).copyLost || x.2 == (s.part p).cls.toNat)

/-- A setting passes once the partition's accepted commits are in force (R177, R374). -/
def State.passes (s : State) (p : PartId) (k : Nat) (x : Setting) : Bool := (s.soon p).fits p k x

/-- The lowest-power setting that passes: the largest D, and within it the lowest class; a pinned pair is its own (R379). -/
def State.floor? (s : State) (p : PartId) (k : Nat) : Option Setting :=
  match s.pinned p with
  | some x => some x
  | none => ((dividers.reverse.flatMap fun d => ([(d, 2), (d, 1), (d, 0)] : List Setting)).find? fun x =>
      decide (16 ≤ x.1) && s.passes p k x)

/-- The least divide factor under which some setting of a partition passes: 0 when one passes against FrameDeadline itself
(R177, R380, R392). DEDUCED: log 214. -/
def State.leastK (s : State) (p : PartId) : Nat :=
  if (s.part p).image.isNone || (s.floor? p 1).isSome then 0
  else (((List.range 14).map (· + 2)).find? fun k => (s.floor? p k).isSome).getD 0

/-- The setting in force is the partition's floor (R383). -/
def State.atFloor (s : State) (p : PartId) : Bool :=
  let pt := s.part p
  pt.image.isSome && s.floor? p pt.skipK.toNat == some (pt.div2.toNat, pt.cls.toNat)

/-- The pair that the next gate would run may run: the pinned one, or one that passes (R177, R196). -/
def State.pairOk (s : State) (p : PartId) : Bool :=
  let pt := s.part p
  (s.pinned p).isSome || s.fits p pt.skipK.toNat (pt.nextDiv2.toNat, pt.wantCls.toNat)

/-! ### Source events to come (R377, R380) -/

/-- The ns from one event of a group's periodic source to the next: PERIOD, or as the last two showed; 0 when unknown.
DEDUCED: log 215. -/
def State.eventGap (s : State) (g : GroupId) : Nat :=
  if s.gateSource g = 2 then s.dval (0x2200 + g.val) 2 else (s.group g).gap

/-- The events that have passed since the last that a device knows of, by its clock. DEDUCED: log 215. -/
def State.eventsSince (s : State) (g : GroupId) : Nat :=
  if s.now < (s.group g).eventAt then 0 else nsSince (s.group g).eventAt s.now / s.eventGap g

/-- The next source event that a partition expects; none for data arrival, or while nothing tells. DEDUCED: log 215. -/
def State.nextEvent (s : State) (p : PartId) : Option Stamp :=
  let g := s.gateGroup p
  if s.gateSource g = 0 ∨ s.eventGap g = 0 then none
  else some ((s.group g).eventAt + BitVec.ofNat 64 ((s.eventsSince g + 1) * s.eventGap g))

/-- A refill that starts now ends before the next source event that the partition expects; it takes 3,847 ac (R202, R377). -/
def State.refillFits (s : State) (p : PartId) : Bool :=
  match s.nextEvent p with
  | none => true
  | some e => decide (s.now.toNat * 24 + 3847 * (s.part p).div2.toNat < e.toNat * 24)

/-- The class that power control chose is ordered at a boundary, once its refill fits; the divider chosen with it follows
(R374, R377). -/
def State.orderClass (s : State) (p : PartId) : State :=
  let pt := s.part p
  if pt.image.isSome && pt.planCls != pt.wantCls && !pt.run.active && !pt.armed && !pt.ready && s.refillFits p then
    s.modPart p fun pt => { pt with wantCls := pt.planCls, nextDiv2 := pt.planDiv2 }
  else s

/-! ### Ready -/

/-- A partition that skips frames withholds its ready: from a periodic source until k − 1 source events have passed since
its last gate, from data arrival until (k − 1) × FrameDeadline has passed since its last T_s (R380). A device that does not
lead the group counts events by its clock. DESIGN CHOICE: log 95; DEDUCED: log 215. -/
def State.skipping (s : State) (p : PartId) : Bool :=
  let pt := s.part p
  decide (2 ≤ pt.skipK.toNat) &&
    (if s.gateSource (s.gateGroup p) = 0 then
      s.now < pt.skipFrom || decide (nsSince pt.skipFrom s.now < (pt.skipK.toNat - 1) * s.vval p 0x10 1)
    else
      let g := s.gateGroup p
      if (s.group g).role = 2 then decide (pt.passed < pt.skipK.toNat - 1)
      else if s.eventGap g = 0 then decide (nsSince pt.skipFrom s.now < (pt.skipK.toNat - 1) * s.vval p 0x10 1)
      else decide (s.eventsSince g < pt.skipK.toNat - 1))

/-- Nothing that a rule requires before ready is outstanding for a partition: a repeated admission of R26 and R490 among it.
DESIGN CHOICE: log 93. -/
def State.mayReady (s : State) (p : PartId) : Bool :=
  let pt := s.part p
  s.phase == .service && pt.image.isSome && pt.st == .idle && !s.skipping p && !pt.run.active && !pt.boundaryDue &&
    !pt.armed && pt.repairs.isEmpty && pt.retire.isEmpty && pt.pageReload.isEmpty && !pt.readmit &&
    !(s.hardNow.any fun x => (s.slices p).contains (x.1.toNat / 2 ^ 32)) && !pt.capHalt && !pt.slackStopped && pt.cls == pt.wantCls &&
    s.pairOk p &&
    (match pt.admission with | some a => a.atStage8 | none => true) &&
    (s.bandsOf p).all (fun b => s.dom b.val == .on && !(s.band b).ordered) &&
    (s.tilesOf p).all (fun t => !(s.tile t).verify.busy) &&
    pt.residents.all fun k =>
      match (List.finRange 512)[k / 16]? with
      | some t => ((s.tile t).mac (k % 16)).active.st == .valid
      | none => true

/-- The raise of an anti-rollback counter that is journaled is written (R191). DEDUCED: log 194, 175. -/
def State.finishRaise (s : State) : State :=
  match s.otp.raise with
  | some (line, v) => { s with otp := { s.otp with imgSvn := Store.set s.otp.imgSvn line v, raise := none } }
  | none => s

/-- The partition reports ready for the next frame, when it may; a raise in hand is complete before its gate (R191, R332).
DEDUCED: log 194. -/
def State.tryReady (s : State) (p : PartId) : State :=
  if s.mayReady p && !(s.part p).ready then
    s.finishRaise.modPart p fun pt => { pt with ready := true, readyFrame := (s.group (s.gateGroup p)).frame + 1 }
  else s

end Sys2Proof.Machine
end

