-- ==== Sys2Proof/Machine/Drain.lean ====
section
/-! DEFINITION. Tile bands that leave ON: the order, the drain, and what OFF and RET keep (R226, R235, R365 to R369, R371,
R372). -/

namespace Sys2Proof.Machine

/-- The tiles of a list in the clusters that an image claims under code 0x01 (R195). -/
def Image.claimed (im : Image) (l : List TileId) : List TileId :=
  l.filter fun t => (Store.get 0 im.claims 1).testBit (clusterOf t).val

/-- The tiles of a list that the image of a partition claims. -/
def Part.claims (pt : Part) (l : List TileId) : List TileId :=
  match pt.image with | some im => im.claimed l | none => []

/-- The clusters of a band. -/
def bandClusters (b : BandId) : List ClusterId := [⟨2 * b.val, by omega⟩, ⟨2 * b.val + 1, by omega⟩]

/-- The tiles of a band. -/
def bandTiles (b : BandId) : List TileId := (List.finRange 512).filter fun t => bandOf (clusterOf t) == b

/-- The partitions with clusters in a band. -/
def State.bandOwners (s : State) (b : BandId) : List PartId :=
  allParts.filter fun p => (bandClusters b).any fun c => (s.clusterMask p).getLsbD c.val

/-- A band may leave ON: no owner runs a frame, is ready, or is in stage 9, and no verify runs (R367). -/
def State.bandFree (s : State) (b : BandId) : Bool :=
  ((s.bandOwners b).all fun p =>
    let pt := s.part p
    !pt.run.active && !pt.armed && !pt.ready &&
      (match pt.admission with | some a => a.atStage8 | none => true)) &&
    (bandTiles b).all fun t => !((s.tile t).verify.busy && !(s.tile t).verify.held)

/-- Accepted writes of a band have not all landed (R235). -/
def State.bandWrites (s : State) (b : BandId) : List (TileId × PutWrite) :=
  (bandTiles b).flatMap fun t => (s.tile t).writes.map fun w => (t, w)

/-- Tiles wait for their pages, and for what else was lost (R126, R366). -/
def Part.owePages (pt : Part) (l : List TileId) : Part :=
  { pt with pageReload := (pt.pageReload ++ l.map fun t => t.val).eraseDups }

/-- Of a band that leaves ON, the tiles that running images claim, or only those with streams in retention, wait (R235, R366). -/
def State.owePages (s : State) (b : BandId) (all : Bool) : State :=
  s.each (s.bandOwners b) fun s p =>
    let own := (bandTiles b).filter fun t => s.tileOwner? t == some p
    s.modPart p fun pt => pt.owePages ((pt.claims own).filter fun t => all || (s.tile t).hasImage)

/-- A tile whose power is off: nothing is kept but its repair words, which the map gives back at switch-on (R366).
DEDUCED: log 97. -/
def Tile.dark (tl : Tile) : Tile :=
  { repair := tl.repair, epochSeed := tl.epochSeed, macros := tl.steering, spBanks := (List.range 4).map fun b => (b, { power := .off }) }

/-- A band is OFF (R226, R366, R371). DEDUCED: log 97. -/
def State.bandOff (s : State) (b : BandId) : State :=
  let s := s.owePages b true
  let s := s.each (bandTiles b) fun s t => s.modTile t Tile.dark
  let s := s.each (bandClusters b) fun s c => s.modCluster c fun x =>
    { x with counters := [], before := [], clearedAt := none, trace := [], traceOpen := none }
  (s.setDom b.val .off).modBand b fun x =>
    { x with offCount := satAdd x.offCount 1, ordered := false, draining := false, toRet := false }

/-- A tile in retention: slots, staging halves, sequencer registers and instruction pages are lost (R366). -/
def Tile.retained (tl : Tile) : Tile :=
  let tl := tl.clear
  let seq : Seq := if tl.hasImage then { st := .waiting, why := .gate } else {}
  let free (mc : Macro) : Macro := { mc with ldwHbm := false }
  { tl with slots := [], seq, q := [], n := [], ctr := [], ibuf := [], ibufPar := [], ops := []
            macros := tl.macros.map fun x => (x.1, free x.2) }

/-- A band is in RET (R366, R371). -/
def State.bandRet (s : State) (b : BandId) : State :=
  let s := s.owePages b false
  let s := s.each (bandTiles b) fun s t => s.modTile t Tile.retained
  let s := s.each (bandClusters b) fun s c => s.modCluster c fun x => { x with trace := [], traceOpen := none }
  (s.setDom b.val .ret).modBand b fun x =>
    { x with retCount := satAdd x.retCount 1, ordered := false, draining := false, toRet := false }

/-- An owner's encrypted image has no copy in the download area: its bands go to RET, never OFF (R265, R369). -/
def State.mustRet (s : State) (b : BandId) : Bool :=
  (s.bandOwners b).any fun p => (s.part p).copyLost && (match (s.part p).image with | some im => im.encrypted | none => false)

/-- The drain has ended: the band goes where it was ordered. DESIGN CHOICE: log 96. -/
def State.bandDown (s : State) (b : BandId) : State :=
  if (s.band b).toRet || s.mustRet b then s.bandRet b else s.bandOff b

/-- An order to leave ON: it waits for its owners, then drains, and ends once every accepted write has landed (R235, R367,
R368). DESIGN CHOICE: log 96. -/
def State.bandOrder (s : State) (b : BandId) (toRet : Bool) : State :=
  if s.dom b.val = .on then
    let s := s.modBand b fun x => { x with ordered := true, toRet }
    if s.bandFree b then
      let s := (s.setDom b.val .switching).modBand b fun x => { x with draining := true, orderedAt := s.now }
      if s.bandWrites b = [] then s.bandDown b else s
    else s
  else if s.dom b.val = .switching ∧ (s.band b).draining = true ∧ s.bandWrites b = [] then s.bandDown b
  else s

/-- The orders that waited for a partition: each begins once every owner of the band is free (R367, R372).
DESIGN CHOICE: log 201. -/
def State.startOrders (s : State) (p : PartId) : State :=
  s.each (s.bandsOf p) fun s b =>
    if s.dom b.val = .on ∧ (s.band b).ordered = true then s.bandOrder b (s.band b).toRet else s

end Sys2Proof.Machine
end

