-- ==== Sys2Proof/Machine/Optics.lean ====
section
/-! DEFINITION. Optical engines: lanes, lasers, the bypass switch, link training, capability records, beacons (R275 to
R295, R316). -/

namespace Sys2Proof.Machine

open Host (Outcome)

/-- The engine of a port. -/
def engineOf (p : PortId) : EngineId := ⟨p.val / 2, by omega⟩

/-- The ports of an engine: A, then B. -/
def portsOf (e : EngineId) : List PortId := [⟨2 * e.val, by omega⟩, ⟨2 * e.val + 1, by omega⟩]

/-- The partition that owns a port (R276). -/
def State.portOwner? (s : State) (p : PortId) : Option PartId := allParts.find? fun q => (s.portMask q).getLsbD p.val

/-- The partition that an engine's events count for: the owner of port A, or else of port B.
DESIGN CHOICE: log 54. -/
def State.engineOwner? (s : State) (e : EngineId) : Option PartId := (portsOf e).findSome? fun p => s.portOwner? p

/-- The source number of a Ronor fabric engine (R31). -/
def State.srcEngine (s : State) (e : EngineId) : BitVec 24 := s.srcH 7 e.val

/-- Power domain D20 + k of engines 2k and 2k + 1 is on (R275). -/
def State.engineOn (s : State) (e : EngineId) : Bool := s.dom (20 + e.val / 2) == .on

/-- An optics event (R463). DESIGN CHOICE: log 32, 54. -/
def State.opticsEvent (s : State) (e : EngineId) (cls : BitVec 3) : State :=
  s.raise 0x000F cls (s.srcEngine e) noIds (s.engineOwner? e) []

/-- A port of the engine faces a partner with this device's own number (R289). DEDUCED: log 82. -/
def State.dupOn (s : State) (e : EngineId) : Bool := (portsOf e).any fun p => (s.port p).dupnum

/-- The groups of this device (R307). -/
def State.ownGroups (s : State) : BitVec 64 :=
  (List.finRange 64).foldl (fun m (g : GroupId) => if s.groupParts g = [] then m else m ||| ((1#64) <<< g.val)) 0

/-- A port that carries nothing; training is abandoned, and the partner's record is no longer held. STAGE shows the stage
that last failed (R280, R290, R295). -/
def Port.down (x : Port) : Port :=
  { x with st := 0, stage := x.lastFail, lanes := 0, spareFor := 0xF, laneMap := [], fast := false, rxLoss := 0xFF
           partner := none }

/-- A training stage has failed (R285, R290). -/
def Port.fail (x : Port) (stage : BitVec 3) : Port :=
  { x with st := 0, stage, lastFail := stage, failures := x.failures + 1, lanes := 0, spareFor := 0xF, laneMap := []
           fast := false, rxLoss := 0xFF }

/-- The engine's inputs as they stand (R278, R279, R281). -/
def Engine.take (x : Engine) (i : EngineIn) : Engine :=
  { x with holdupOk := i.holdup, l0Ok := i.l0Ok, l1Ok := i.l1Ok, mod0 := i.mod0, mod1 := i.mod1 }

/-- An input is OK. -/
def Engine.inputOk (x : Engine) (i : BitVec 2) : Bool := if i = 0 then x.l0Ok else if i = 1 then x.l1Ok else false

/-- An input is OK, and its module reports itself present and fault-free (R278, R279). -/
def Engine.usable (x : Engine) (i : BitVec 2) : Bool :=
  x.inputOk i && (if i = 0 then x.mod0 else x.mod1)

/-- Frames of a port that are not sent yet when it stops carrying traffic. DEDUCED: log 220. -/
def State.unsent (s : State) (p : PortId) : List WireFrame :=
  ((lineOf s.wire p).filter fun x => decide (lineTime s.now < x.begun)).map fun x => x.frame

/-- A port goes down: each frame queued for it takes the route that remains to its destination, by a port that is up, or is
discarded and counted in UNREACH (R299). -/
def State.portDown (s : State) (p : PortId) : State :=
  let left := (s.port p).queue ++ s.unsent p
  let s := ({ s with wire := s.wire.filter fun f => !left.contains f }).modPort p fun x => { x.down with queue := [] }
  s.each left fun s f =>
    match s.route? (BitVec.ofNat 8 (leAt f.bytes 8 1)) with
    | some (seg :: r) =>
      let q := exitPort seg
      let way := routeBytes (seg :: r)
      if (s.port q).st = 2 ∧ (s.port q).eth = false then
        s.handOver { f with port := q, at_ := s.now, bytes := f.bytes.take 12 ++ way ++ 0 :: f.bytes.drop 21 }
      else s.modEngine (engineOf p) fun x => { x with unreach := satAdd x.unreach 1 }
    | _ => s.modEngine (engineOf p) fun x => { x with unreach := satAdd x.unreach 1 }

/-- A cause of R282 moves the switch of an engine in Ronor mode to BYPASS; its transceivers are disconnected. An engine
in Ethernet mode ignores every cause. -/
def State.toBypass (s : State) (e : EngineId) (cause : BitVec 8) : State :=
  if (s.engine e).ethMode || (s.engine e).ethHeld then s
  else
    let s := s.modEngine e fun x =>
      { x with switch := if x.switch = .bypass then .bypass else .toBypass, bypReason := cause }
    s.each (portsOf e) State.portDown

/-- Before an engine loses power its switch has reached BYPASS, in Ronor mode; its ports carry nothing (R282, R295, R365,
R447). -/
def State.engineDark (s : State) (e : EngineId) : State :=
  let s := (s.toBypass e 4).modEngine e fun x => if x.switch = .toBypass then { x with switch := .bypass } else x
  s.each (portsOf e) State.portDown

/-- A port starts to train at a stage (R285). DEDUCED: log 59. -/
def Port.train (x : Port) (stage : BitVec 3) : Port := { x with st := 1, stage, lanes := 0, spareFor := 0xF, fast := false }

/-- The frames of a port whose acknowledgment, a round trip after the last byte, has not come (R299). DEDUCED: log 220. -/
def State.unacked (s : State) (p : PortId) : List WireFrame :=
  ((lineOf s.wire p).filter fun x => decide (x.begun ≤ lineTime s.now) &&
    decide (lineTime s.now < x.ends + 20 * (s.port p).rtt.toNat)).map fun x => x.frame

/-- The frames that the replay buffer of 32 KiB still holds, of a list from the oldest (R299). -/
def replayKept (l : List WireFrame) : List WireFrame :=
  (l.reverse.foldl (fun (acc : List WireFrame × Nat) f =>
    if acc.2 + f.bytes.length ≤ 32768 then (f :: acc.1, acc.2 + f.bytes.length) else (acc.1, 32769)) ([], 0)).1

/-- A port that carried traffic retrains: it is counted; gate and urgent frames that were not acknowledged wait to be sent again,
before the frames not sent yet; bulk and trace frames are lost and counted in LINKLOST (R290, R299). DEDUCED: log 59, 220. -/
def State.retrain (s : State) (p : PortId) (stage : BitVec 3) : State :=
  let open_ := s.unacked p
  let lost := (open_.filter fun f => decide (2 ≤ f.cls)).length
  let again := replayKept (open_.filter fun f => decide (f.cls < 2))
  let left := s.unsent p
  let s := { s with wire := s.wire.filter fun f => !left.contains f }
  let s := s.modPort p fun x => { x.train stage with
    retrains := satAdd x.retrains 1, queue := again ++ left ++ x.queue }
  s.modEngine (engineOf p) fun x => { x with linkLost := satAdd x.linkLost lost }

/-- A lane is replaced by the spare, or a second failed lane makes the port train again in full (R277, R293). -/
def execLaneSwap (p : PortId) (lane : Fin 8) (s : State) : Outcome State Fault Refusal :=
  .next (
    let x := s.port p
    if x.st = 2 ∧ x.eth = false then
      if x.spareFor = 0xF ∧ x.laneMap.length = 9 then
        let spare := x.laneMap.getD 8 0
        let old := x.laneMap.getD lane.val 0
        (s.modPort p fun x => { x with
          spareFor := BitVec.ofNat 4 lane.val, laneSwaps := satAdd x.laneSwaps 1
          laneMap := (x.laneMap.set lane.val spare).set 8 old }).opticsEvent (engineOf p) clsCorrected
      else s.retrain p 1
    else s)

/-- The module of an input is enabled when it reports itself present and fault-free: module 2e + i feeds input i of engine e
(R278; log entry 30). DEDUCED: log 30. -/
def State.enableLaser (s : State) (e : EngineId) (i : BitVec 2) : State :=
  if (s.engine e).usable i then { s with lasersOn := s.lasersOn ||| ((1#16) <<< (2 * e.val + i.toNat)) } else s

/-- The active laser input is low: the other input takes over and both ports train fast, or the engine's bypass closes
with cause 5 (R278, R279, R295). -/
def execLaserFailover (v : EngineAt) (s : State) : Outcome State Fault Refusal :=
  let e := v.engine
  .next (
    let x := s.engine e
    if x.laser = 0 ∨ x.laser = 1 then
      let other : BitVec 2 := 1 - x.laser
      let s := s.modEngine e fun x =>
        let y := x.take v.inputs
        if x.laser = 0 then { y with l0Ok := false } else { y with l1Ok := false }
      if (s.engine e).inputOk other then
        let s := s.modEngine e fun x => { x with laser := other, failovers := satAdd x.failovers 1 }
        let s := (s.enableLaser e other).opticsEvent e clsCorrected
        s.each (portsOf e) fun s p =>
          if (s.port p).st = 2 then (s.retrain p 2).modPort p fun x => { x with fast := true }
          else if (s.port p).st = 1 then s.modPort p fun x => x.train 1
          else s
      else (s.modEngine e fun x => { x with laser := 2 }).toBypass e 5
    else s)

/-- A measured value in a field of a word; a value outside the field is one for which the spec states none.
DEDUCED: log 53. -/
def measured (w : Nat) (lo hi v : Int) (draw : Nat) : BitVec w :=
  if lo ≤ v ∧ v ≤ hi then BitVec.ofInt w v else (Config.freeWord draw).setWidth w

/-- The margin of a port in 0.1 dB (R287). DEDUCED: log 53. -/
def marginOf (rxpwr : BitVec 8) : Int := rxpwr.toInt + 90 - 15

/-- BYPASS_MAX (R287). DEDUCED: log 53. -/
def bypassMaxOf (margin : Int) (lref : Nat) : Int := if margin < 0 then 0 else margin / ((12 : Int) + lref)

/-- SPANLOSS: the launch power that the partner reported, less the received power (R287). -/
def Port.spanLossOf (x : Port) (rxpwr : BitVec 8) : Int :=
  (match x.partner with | some r => r.txpwr.toInt | none => 0) - rxpwr.toInt

/-- The measurements of stages 5 and 7 (R286, R287, R288, R291). DEDUCED: log 53. -/
def State.measure (s : State) (p : PortId) (m : Training) : State :=
  let margin := marginOf m.rxpwr
  let c := s.freeCtr
  let spanLoss : BitVec 8 := measured 8 0 255 ((s.port p).spanLossOf m.rxpwr) (c + 1)
  let s := s.modPort p fun x => { x with
    rtt := m.rtt, rxpwr := m.rxpwr, length := measured 16 0 65535 ((m.rtt.toNat : Int) - 640) c
    spanLoss, rxLoss := spanLoss, margin := measured 8 (-128) 127 margin (c + 2)
    bypassMax := measured 4 0 15 (bypassMaxOf margin (s.dval 0x2310 0)) (c + 3) }
  { s with freeCtr := c + 4 }

/-- The laser input that training uses: the preferred one when it is usable, or else the other (R278, R279, R292). -/
def Engine.pickLaser (x : Engine) : BitVec 2 :=
  let pref : BitVec 2 := x.laserPref.setWidth 2
  if x.usable pref then pref else if x.usable (1 - pref) then 1 - pref else 2

/-- The port on the other side of an engine. -/
def oppositePort (p : PortId) : PortId := ⟨2 * (p.val / 2) + (1 - p.val % 2), by omega⟩

/-- The input that a port's training finds: the engine's own while it works for the other port or in a fast retrain, or else
the one to pick (R285, R292). -/
def State.trainLaser (s : State) (p : PortId) (fast : Bool) : BitVec 2 :=
  let x := s.engine (engineOf p)
  if fast || ((s.port (oppositePort p)).st == 2 && x.inputOk x.laser) then x.laser else x.pickLaser

/-- The capability record that a port sends in stage 6; a ring on which the device's number is duplicated gets no groups
(R288, R289). -/
def State.ownRecord (s : State) (p : PortId) (spareOk : Bool) : CapRec :=
  { fabver := 1, portid := BitVec.ofNat 4 p.val, lanes := 8, spareOk, srcnum := s.srcEngine (engineOf p)
    groups := if s.dupOn (engineOf p) then 0 else s.ownGroups, txpwr := (s.port p).txpwr, rxloss := (s.port p).rxLoss, rsvd := 0 }

/-- A port is up on the 8 lanes with the lowest error ratio (R285). -/
def Port.up (x : Port) (lanes : List (Fin 9)) (eth : Bool) : Port :=
  { x with st := 2, stage := 0, eth, lanes := 8, spareFor := 0xF, failures := 0, fast := false
           laneMap := if eth then lanes.take 8 else lanes.take 9 }

/-- A port is up: the frames that waited for it are handed over, and the power of the active input is recorded: the input is OK (R279,
R285, R299). -/
def State.portUp (s : State) (p : PortId) (lanes : List (Fin 9)) (eth : Bool) : State :=
  let l := (s.port p).queue.map fun f => { f with at_ := s.now }
  let s := (s.modPort p fun x => { x.up lanes eth with queue := [] }).each l State.handOver
  s.modEngine (engineOf p) fun x =>
    if x.laser = 0 then { x with l0Ok := true } else if x.laser = 1 then { x with l1Ok := true } else x

/-- The stages of a full training before stage 6 that a port fails, 0 for none (R285). -/
def earlyFailure (m : Training) (laser : BitVec 2) : Nat :=
  if laser = 2 then 1
  else if m.failed.val ≠ 0 ∧ m.failed.val < 4 then m.failed.val
  else if m.failed.val = 4 ∨ m.lanesBest.eraseDups.length < 8 then 4
  else if m.failed.val = 5 then 5
  else 0

/-- Stages 6 and 7: the port sends its record, and with the partner's it measures; a negative margin leaves it at stage 7
(R285 to R289, R291). -/
def State.lateStages (s : State) (p : PortId) (m : Training) : State :=
  let s := s.modPort p fun x => { x with txpwr := m.txpwr }
  let s := s.send (.partner p) (.capability (capBytes (s.ownRecord p (m.lanesBest.eraseDups.length == 9))))
  if (s.port p).partner = none ∨ m.failed.val = 6 then s.modPort p fun x => x.fail 6
  else if m.failed.val = 7 then s.modPort p fun x => x.fail 7
  else
    let s := s.measure p m
    if marginOf m.rxpwr < 0 then s.modPort p fun x => x.train 7 else s.portUp p m.lanesBest.eraseDups false

/-- A port trains through its stages: it comes up, or the stage that ran out of time leaves it down; a port of an Ethernet
engine and one that retrains fast leave out stages 5 to 7 (R279, R285 to R288, R290, R291, R293, R294). DEDUCED: log 59. -/
def execLinkTraining (p : PortId) (m : Training) (s : State) : Outcome State Fault Refusal :=
  .next (
    let e := engineOf p
    if (s.engine e).switch = .through ∧ s.engineOn e = true then
      let s := s.modEngine e fun x => x.take m.inputs
      let s := if (s.port p).st = 2 then s.retrain p 1 else s
      let fast := m.fast && (s.port p).st == 1 && (s.port p).fast
      let eth := (s.engine e).ethMode
      let laser := s.trainLaser p fast
      let s := (s.modEngine e fun x => { x with laser }).enableLaser e laser
      let early := earlyFailure m laser
      if early ≠ 0 ∧ (early ≠ 5 ∨ (fast = false ∧ eth = false)) then s.modPort p fun x => x.fail (BitVec.ofNat 3 early)
      else if fast = true ∨ eth = true then s.portUp p m.lanesBest.eraseDups eth
      else s.lateStages p m
    else s)

/-- 100 ms after a stage ran out of time the port is in stage 2 again, or in stage 1 after every tenth failure in a row
(R285). -/
def execTrainingStageTimeout (p : PortId) (s : State) : Outcome State Fault Refusal :=
  .next (
    let x := s.port p
    if x.st = 0 ∧ x.stage ≠ 0 ∧ (s.engine (engineOf p)).switch = .through ∧ s.engineOn (engineOf p) = true then
      s.modPort p fun x => x.train (if x.failures % 10 = 0 then 1 else 2)
    else s)

/-- A cause of R282 that the engine's own words show is present. DEDUCED: log 56, 58. -/
def State.causePresent (s : State) (e : EngineId) (cause : Nat) : Bool :=
  let x := s.engine e
  match cause with
  | 1 | 2 => true
  | 3 => x.stayBypass
  | 4 => true
  | 5 => !x.l0Ok && !x.l1Ok
  | 6 => s.island.tamper
  | 7 => !x.holdupOk || !s.fabricUp
  | 8 => (portsOf e).any fun p => (s.port p).miswire
  | _ => false

/-- A cause of R282 reaches an engine; with cause 7 a switch in BYPASS stays there (R281, R282, R295).
DEDUCED: log 56, 58. -/
def execBypassMove (v : EngineAt) (cause : BitVec 8) (s : State) : Outcome State Fault Refusal :=
  let e := v.engine
  .next (
    let s := s.modEngine e fun x => x.take v.inputs
    if s.causePresent e cause.toNat = true ∧ (cause ≠ 7 ∨ (s.engine e).switch = .bypass) then s.toBypass e cause else s)

/-- Every condition of R283 holds; a replay buffer fault is cause 4 (R430). -/
def State.mayThrough (s : State) (e : EngineId) : Bool :=
  let x := s.engine e
  !x.ethMode && s.fabricUp && !x.stayBypass && x.holdupOk && (x.l0Ok || x.l1Ok) && s.engineOn e && !s.island.tamper &&
    !x.heldBypass && !(portsOf e).any fun p => (s.port p).miswire

/-- The switch of an engine in Ronor mode moves to THROUGH (R281, R283). -/
def execThroughMove (v : EngineAt) (s : State) : Outcome State Fault Refusal :=
  let e := v.engine
  .next (
    let s := s.modEngine e fun x => x.take v.inputs
    if (s.engine e).switch = .bypass ∧ s.mayThrough e = true then
      s.modEngine e fun x => { x with switch := .toThrough }
    else s)

/-- The domain of an engine's pair goes OFF once both engines, in Ronor mode with STAY_BYPASS 1, are in BYPASS, and is on
otherwise, unless its self-test failed; nothing goes OFF while an engine moves (R365, R372, R424). DESIGN CHOICE: log 224. -/
def State.pairPower (s : State) (e : EngineId) : State :=
  let k := e.val / 2
  let pair : List EngineId := [⟨2 * k, by omega⟩, ⟨2 * k + 1, by omega⟩]
  let idle (x : Engine) : Bool := !x.ethMode && !x.ethHeld && x.stayBypass && x.switch == .bypass
  if s.phase ≠ .service then s
  else if (pair.all fun q => idle (s.engine q)) = true then (s.each pair State.engineDark).setDom (20 + k) .off
  else if s.startWord.failmap.getLsbD (20 + k) = false then s.setDom (20 + k) .on
  else s

/-- A switch move ends; in THROUGH both ports start to train (R280, R284, R285). -/
def execSwitchMoveDone (e : EngineId) (s : State) : Outcome State Fault Refusal :=
  .next (
    match (s.engine e).switch with
    | .toBypass => (s.modEngine e fun x => { x with switch := .bypass }).pairPower e
    | .toThrough =>
      let s := s.modEngine e fun x => { x with switch := .through }
      if s.engineOn e then s.each (portsOf e) fun s p => s.modPort p fun x => x.train 1 else s
    | .bypass => s
    | .through => s)

/-! ### Beacons (R316) -/

/-- The partitions at observation level 2 or 3. DESIGN CHOICE: log 55. -/
def State.tracing (s : State) : List PartId := allParts.filter fun p => s.enabled p && decide (2 ≤ s.level p)

/-- A port sends its time-stamp beacon: the stamps of the last beacon received, and its PORTID (R316).
DESIGN CHOICE: log 55. -/
def execBeaconSend (p : PortId) (s : State) : Outcome State Fault Refusal :=
  .next (if (s.port p).st = 2 ∧ (s.port p).eth = false ∧ s.tracing ≠ [] then
    s.send (.partner p) (.beacon
      { echoTx := (s.port p).lastBeaconTx, echoRx := (s.port p).lastBeaconRx, portid := BitVec.ofNat 8 p.val })
  else s)

/-- A beacon is recorded with its receive time stamp in the ring of every partition at level 2 or 3, and its stamps go
into the next beacon sent (R316, R463). DESIGN CHOICE: log 55. -/
def execBeaconReceive (p : PortId) (b : Beacon) (ts trx : Stamp) (s : State) : Outcome State Fault Refusal :=
  .next (if (s.port p).st = 2 ∧ (s.port p).eth = false ∧ s.tracing ≠ [] then
    let s := (s.reach trx).modPort p fun x => { x with lastBeaconTx := ts, lastBeaconRx := trx }
    let payload := leBytes 8 b.echoTx.toNat ++ leBytes 8 b.echoRx.toNat ++ [b.portid] ++ List.replicate 7 0 ++
      leBytes 8 trx.toNat
    s.each s.tracing fun s q => s.offer q 6 (s.srcEngine (engineOf p)) trx noIds 0 payload
  else s)

end Sys2Proof.Machine
end

