-- ==== Sys2Proof/Machine/Words.lean ====
section
/-! DEFINITION. The words of every register that firmware reads, packed from the state (R22 to R24, R81, R130 to R133,
R222, R237, R244, R253, R272, R273, R290 to R292, R303, R314, R328, R361 to R363, R370, R371, R382, R383, R389, R391,
R415, R425, R434, R445, R456, R460, R461, R478). -/

namespace Sys2Proof.Machine

/-- The tile repair word (R22); TILE_PHYS follows the cluster's map (R21). -/
def State.tileRepairWord (s : State) (t : TileId) : BitVec 32 :=
  let r := (s.tile t).repair
  let cl := s.cluster (clusterOf t)
  let i := t.val % 16
  let phys := if cl.unserved.getLsbD i then 31 else if i < cl.retired.toNat then i else i + 1
  b2v r.field ++ (0#10) ++ r.retired ++ r.chkEvents ++ (0#3) ++ BitVec.ofNat 5 phys

/-- The cluster repair word (R23). -/
def Cluster.word (c : Cluster) : BitVec 32 :=
  b2v c.field ++ b2v (c.unserved != 0) ++ (0#9) ++ c.retired ++ c.unserved

/-- The credit status word (R253). -/
def Tile.creditWord (tl : Tile) : BitVec 32 := tl.nacks ++ tl.lastReason ++ tl.discards

/-- The HBM status word (R272). -/
def Ctrl.word (c : Ctrl) : BitVec 32 := c.replayOk ++ c.hard ++ c.uncorr ++ (0#6) ++ b2v c.wrFail ++ b2v c.logValid

/-- The hard-error address word (R273). -/
def Ctrl.addrWord (c : Ctrl) : BitVec 64 := b2v c.logWrite ++ (0#8) ++ c.logReq ++ (0#9) ++ c.logAddr

/-- The port status word (R290). -/
def Port.word (x : Port) : BitVec 32 :=
  x.st ++ x.stage ++ b2v x.eth ++ b2v x.miswire ++ b2v x.dupnum ++ x.spareFor ++ x.lanes ++ x.laneSwaps ++ x.retrains

/-- The port measurement word (R291). -/
def Port.measureWord (x : Port) : BitVec 64 :=
  x.rtt ++ x.length ++ x.spanLoss ++ x.margin ++ x.bypassMax ++ (0#4) ++ x.rxpwr

/-- The engine status word (R292). -/
def Engine.word (x : Engine) : BitVec 32 :=
  let sw : BitVec 2 := match x.switch with | .bypass => 0 | .through => 1 | .toBypass => 2 | .toThrough => 2
  sw ++ b2v x.holdupOk ++ b2v x.ethMode ++ x.laser ++ b2v x.l1Ok ++ b2v x.l0Ok ++ x.failovers ++ x.bypReason ++ (0#8)

/-- The engine control word (R292). -/
def Engine.controlWord (x : Engine) : BitVec 32 := b2v x.modeEth ++ x.laserPref ++ b2v x.stayBypass ++ (0#29)

/-- The fabric error word (R303). -/
def Engine.errorWord (x : Engine) : BitVec 32 := x.crcErr ++ x.misroute ++ x.unreach ++ x.linkLost

/-- The members of a group that are ready for its next frame (R314). -/
def Group.readyCount (x : Group) : Nat := (x.members.filter fun m => x.counts m).length

/-- The gate group status word (R314). -/
def State.groupWord (s : State) (g : GroupId) : BitVec 32 :=
  let x := s.group g
  x.role ++ s.gateSource g ++ b2v x.waiting ++ b2v x.late ++ BitVec.ofNat 9 x.members.length ++
    BitVec.ofNat 9 (if x.role = 2 then x.readyCount else 0) ++ x.leader

/-- The state code of a partition (R328). -/
def PartSt.code (x : PartSt) : BitVec 3 :=
  match x with
  | .disabled => 0 | .empty => 1 | .loading => 2 | .idle => 3 | .running => 4 | .halted => 5 | .resetting => 6

/-- The partition status word (R328). -/
def State.partWord (s : State) (p : PartId) : BitVec 32 :=
  let pt := s.part p
  pt.st.code ++ b2v pt.ready ++ pt.cls ++ BitVec.ofNat 6 (s.vval p 0x18 1) ++ BitVec.ofNat 4 pt.area.queue.length ++
    pt.gen.setWidth 16

/-- The partition fault word (R445). -/
def Part.faultWord (x : Part) : BitVec 32 :=
  x.lastClass ++ x.lastCause ++ b2v x.dumpHeld ++ x.withheld ++ x.minor

/-- The partition clock word (R363). -/
def Part.clockWord (x : Part) : BitVec 32 :=
  b2v x.ff ++ b2v (x.div2 == 14) ++ (0#6) ++ x.div2 ++ x.nextDiv2 ++ x.cls ++ (0#6)

/-- The partition power word (R383). -/
def State.partPowerWord (s : State) (p : PartId) : BitVec 32 :=
  let pt := s.part p
  pt.skipK ++ b2v (pt.capHalt && pt.st == .halted) ++ b2v (s.atFloor p) ++ (0#10) ++ pt.predictW

/-- The root clock status word (R361). -/
def RootClk.word (x : RootClk) : BitVec 32 :=
  b2v x.rootLock ++ b2v x.refOk ++ b2v x.lockA ++ b2v x.lockB ++ (0#4) ++ x.refPpm ++ (0#16)

/-- The die clock word (R362). -/
def Die.word (x : Die) : BitVec 32 := b2v x.stretching ++ (0#7) ++ x.lastResort ++ x.stretchEvents

/-- The domain map word (R370). -/
def State.domainWord (s : State) : BitVec 64 :=
  (List.range 30).foldl (fun (w : BitVec 64) d =>
    let code : BitVec 64 := match s.dom d with | .off => 0 | .on => 1 | .ret => 2 | .switching => 3
    w ||| code <<< (2 * d)) 0

/-- The band word (R371). -/
def Band.word (x : Band) : BitVec 32 := x.offCount ++ x.retCount ++ x.discards

/-- A heath die or the Headland is throttled (R387, R389). -/
def State.throttled (s : State) : Bool :=
  (List.range 3).any fun i => let t := Store.get {} s.thermal i; t.throttle || t.stuck

/-- The power control status word (R382). -/
def State.powerWord (s : State) : BitVec 32 :=
  s.power.capState ++ s.power.action ++ b2v s.throttled ++ b2v s.power.boostOk ++ b2v s.pins.stepB ++ b2v s.pins.stepA ++
    (0#8) ++ s.power.floorW

/-- The thermal status word (R389). -/
def Thermal.word (x : Thermal) : BitVec 32 :=
  x.hot ++ b2v (x.throttle || x.stuck) ++ b2v x.tripped ++ x.failed ++ x.maxTemp

/-- The life-cycle state: the target of the last journal row that is complete, or MANUFACTURE (R408). -/
def State.lcState (s : State) : BitVec 3 :=
  match (s.otp.journal.filter fun (r : JournalRow) => r.complete).getLast? with
  | some r => r.target
  | none => 0

/-- A journal row has INTENT without COMPLETE (R411, R415). -/
def State.transition (s : State) : Bool := s.otp.journal.any fun (r : JournalRow) => !r.complete

/-- The security island status word (R415). -/
def State.islandWord (s : State) : BitVec 32 :=
  let x := s.island
  s.lcState ++ b2v s.transition ++ b2v x.tamper ++ x.tsrc ++ b2v s.otp.kill ++ b2v x.debug ++
    BitVec.ofNat 3 s.otp.inst.length ++ (0#1) ++ s.otp.fwSvn ++ x.slot ++ b2v x.trial ++ (0#8)

/-- The start status word (R425). -/
def StartWord.word (x : StartWord) : BitVec 64 :=
  x.record ++ b2v x.post ++ b2v x.resumed ++ b2v x.held ++ x.cause ++ (0#24) ++ x.failmap

/-- The alert status word (R456). -/
def State.alertWord (s : State) : BitVec 32 :=
  b2v s.pins.alertLow ++ b2v s.alert.fatal ++ (0#6) ++ s.alert.suppressed ++ s.alert.alerts

/-- The Strandline pointer word (R460). -/
def Strand.pointerWord (x : Strand) : BitVec 64 := (0#4) ++ x.rdptr ++ (0#4) ++ x.wrptr

/-- The Strandline status word: RATELIM shows a drop of the last millisecond (R461). DEDUCED: log 175. -/
def Strand.statusWord (x : Strand) (now : Stamp) : BitVec 32 :=
  let limited : Bool := match x.rateAt with | some t => decide (nsSince t now < 1000000) | none => false
  x.dropped ++ b2v x.full ++ b2v x.capHeld ++ b2v limited ++ (0#13)

/-- The Slack status word (R478). -/
def Slack.word (x : Slack) : BitVec 32 :=
  b2v x.stopped ++ b2v x.origin ++ x.trigger ++ b2v x.scanning ++ b2v x.late ++ (0#1) ++ x.parts ++ x.stops ++ (0#8)

/-- The five column difference words (R221). -/
def Verify.diffWord (v : Verify) (i : Nat) : BitVec 32 := Store.get 0 v.diff i

/-- The deviation word: frozen ac, saturating (R133). -/
def Seq.deviation (q : Seq) : BitVec 32 := satOf 32 q.frozen

/-- The cycle word: the ac since the tile's first issue after the gate, by the die's clock with its stretches, and at least
up to where the tile's own work stands; a WAITC that counts has not passed its ac (R133, R166, R167). DEDUCED: log 140. -/
def State.cycleWord (s : State) (t : TileId) : BitVec 32 :=
  let q := (s.tile t).seq
  let live : Nat := match s.tileOwner? t with
    | some p =>
      if q.started = true ∧ (s.part p).run.ts ≤ s.now then s.cycleAt p (dieOf t) s.now - 16 * (t.val / 16 % 16) else 0
    | none => 0
  satOf 32 (max (q.cycle - q.ahead) live)

/-- The word of a register, in its low bits. -/
def State.regWord (s : State) (r : Reg) : BitVec 128 :=
  match r with
  | .seqStatus t => (s.tile t).seqWord.setWidth 128
  | .idWord t => (s.tile t).seq.idWord.setWidth 128
  | .cycleWord t => (s.cycleWord t).setWidth 128
  | .deviationWord t => (s.tile t).seq.deviation.setWidth 128
  | .deviationCount t => (s.tile t).seq.devWord.setWidth 128
  | .addressReg t i => ((s.tile t).qreg i.val).setWidth 128
  | .loopReg t i => (Store.get 0 (s.tile t).n i.val).setWidth 128
  | .counterReg t i => ((s.tile t).counter i.val).word.setWidth 128
  | .bankStatus t m => ((s.tile t).mac m.val).word.setWidth 128
  | .bankLayer t m => ((s.tile t).mac m.val).layerWord.setWidth 128
  | .bankSteer t m phys => (((s.tile t).mac m.val).bank (BitVec.ofNat 1 phys.val)).steer.setWidth 128
  | .mapWord t i => ((s.tile t).mapWord i.val).setWidth 128
  | .slotStatus t a => ((s.seenTile t).slot a.val).word.setWidth 128
  | .slotExponent t a => ((s.seenTile t).slot a.val).expWord.setWidth 128
  | .numericStatus t => (s.tile t).num.word.setWidth 128
  | .checkStatus t => (s.tile t).check.word.setWidth 128
  | .tileRepair t => (s.tileRepairWord t).setWidth 128
  | .clusterRepair c => (s.cluster c).word.setWidth 128
  | .handleEntry t h => s.handle t h.val
  | .windowStatus t h => ((s.tile t).win h.val).word.setWidth 128
  | .creditEntry t e next => Store.get 0 (if next then (s.tile t).nxt else (s.tile t).cur) e.val
  | .creditStatus t => (s.tile t).creditWord.setWidth 128
  | .verifyControl t => (s.tile t).verify.control.setWidth 128
  | .verifySource t => (s.tile t).verify.source.setWidth 128
  | .verifyResult t => (s.tile t).verify.result.setWidth 128
  | .verifyDiff t i => ((s.tile t).verify.diffWord i.val).setWidth 128
  | .weightParity t => (s.tile t).wp.word.setWidth 128
  | .tidewalkStatus t => (s.tile t).tw.word.setWidth 128
  | .clusterCounter c i => (Store.get 0 (s.cluster c).counters i.val).setWidth 128
  | .hbmStatus k => (s.ctrl k).word.setWidth 128
  | .hbmAddress k => (s.ctrl k).addrWord.setWidth 128
  | .portStatus p => (s.port p).word.setWidth 128
  | .portMeasure p => (s.port p).measureWord.setWidth 128
  | .engineStatus e => (s.engine e).word.setWidth 128
  | .engineControl e => (s.engine e).controlWord.setWidth 128
  | .fabricError e => (s.engine e).errorWord.setWidth 128
  | .groupStatus g => (s.groupWord g).setWidth 128
  | .groupFrame g => (s.group g).frame.setWidth 128
  | .partStatus p => (s.partWord p).setWidth 128
  | .partFault p => (s.part p).faultWord.setWidth 128
  | .partClock p => (s.part p).clockWord.setWidth 128
  | .partPower p => (s.partPowerWord p).setWidth 128
  | .energyQueue p i => (Store.get 0 (s.part p).energy i.val).setWidth 128
  | .energyResidual i => (Store.get 0 s.residual i.val).setWidth 128
  | .rootClock => s.rootClk.word.setWidth 128
  | .dieClock d => (s.die d).word.setWidth 128
  | .domainMap => s.domainWord.setWidth 128
  | .bandWord b => (s.band b).word.setWidth 128
  | .powerStatus => s.powerWord.setWidth 128
  | .thermalStatus i => (Store.get {} s.thermal i.val : Thermal).word.setWidth 128
  | .islandStatus => s.islandWord.setWidth 128
  | .startStatus => s.startWord.word.setWidth 128
  | .alertStatus => s.alertWord.setWidth 128
  | .strandPointer p => (s.part p).strand.pointerWord.setWidth 128
  | .strandStatus p => ((s.part p).strand.statusWord s.now).setWidth 128
  | .slackStatus => s.slack.word.setWidth 128

/-- The bytes of a register's word. -/
def regSize (r : Reg) : Nat :=
  match r with
  | .handleEntry _ _ | .creditEntry _ _ _ => 16
  | .addressReg _ _ | .windowStatus _ _ | .verifySource _ | .clusterCounter _ _ | .hbmAddress _ | .portMeasure _
  | .energyQueue _ _ | .energyResidual _ | .domainMap | .startStatus | .strandPointer _ => 8
  | _ => 4

/-- The words of registers, one after another, little-endian. DESIGN CHOICE: log 40. -/
def State.regBytes (s : State) (l : List Reg) : List Byte := l.flatMap fun r => leBytes (regSize r) (s.regWord r).toNat

/-- The registers of a tile, in the order of the dump and of the capture (log entry 40). DESIGN CHOICE: log 40. -/
def tileRegs (t : TileId) : List Reg :=
  [.seqStatus t, .idWord t, .cycleWord t, .deviationWord t, .deviationCount t, .numericStatus t, .checkStatus t,
    .tileRepair t, .creditStatus t, .verifyControl t, .verifySource t, .verifyResult t, .weightParity t,
    .tidewalkStatus t] ++
    (List.finRange 5).map (Reg.verifyDiff t) ++ (List.finRange 4).map (Reg.mapWord t) ++
    (List.finRange 8).map (Reg.slotStatus t) ++ (List.finRange 8).map (Reg.slotExponent t) ++
    (List.finRange 16).map (Reg.bankStatus t) ++ (List.finRange 16).map (Reg.bankLayer t) ++
    (List.finRange 16).map (fun m => Reg.bankSteer t m 0) ++ (List.finRange 16).map (fun m => Reg.bankSteer t m 1) ++
    (List.finRange 32).map (Reg.handleEntry t) ++ (List.finRange 32).map (Reg.windowStatus t) ++
    (List.finRange 32).map (fun e => Reg.creditEntry t e false) ++ (List.finRange 32).map (fun e => Reg.creditEntry t e true)

/-- The registers of a cluster. -/
def clusterRegs (c : ClusterId) : List Reg := Reg.clusterRepair c :: (List.finRange 16).map (Reg.clusterCounter c)

/-- The registers of a partition. -/
def partRegs (p : PartId) : List Reg :=
  [.partStatus p, .partFault p, .partClock p, .partPower p, .strandPointer p, .strandStatus p] ++
    (List.finRange 8).map (Reg.energyQueue p)

/-- The registers of the device. -/
def deviceRegs : List Reg :=
  [.rootClock, .domainMap, .powerStatus, .islandStatus, .startStatus, .alertStatus, .slackStatus] ++
    (List.finRange 2).map Reg.dieClock ++ (List.finRange 3).map Reg.thermalStatus ++ (List.finRange 8).map Reg.hbmStatus ++
    (List.finRange 8).map Reg.hbmAddress ++ (List.finRange 16).map Reg.bandWord ++
    (List.finRange 16).map Reg.portStatus ++ (List.finRange 16).map Reg.portMeasure ++
    (List.finRange 8).map Reg.engineStatus ++ (List.finRange 8).map Reg.engineControl ++
    (List.finRange 8).map Reg.fabricError ++ (List.finRange 64).map Reg.groupStatus ++
    (List.finRange 64).map Reg.groupFrame ++ (List.finRange 8).map Reg.energyResidual

/-- The registers of a tile's sequencer: q, n, c and PC (R448, R475). -/
def seqRegs (t : TileId) : List Reg :=
  (List.finRange 8).map (Reg.addressReg t) ++ (List.finRange 4).map (Reg.loopReg t) ++
    (List.finRange 4).map (Reg.counterReg t) ++ [.seqStatus t]

end Sys2Proof.Machine
end

