-- ==== Sys2Proof/Machine/Graph.lean ====
section
/-! DEFINITION. The wait-for graph (R480, R481), as firmware builds it from the sequencer status words, the
rendezvous table and grant list, the credit tables, the completion counters and the gate groups. -/

namespace Sys2Proof.Machine

/-- An edge: a node with its PC or arrival count, what it waits on, and the REASON. -/
structure Edge where
  node : Nat
  info : Nat
  waitsOn : Nat
  reason : Nat
  deriving DecidableEq, Repr

/-- A node word: the kind in [31:28] (R481). DESIGN CHOICE: log 60. -/
def nodeOf (kind v : Nat) : Nat := kind * 2 ^ 28 + v % 2 ^ 24

/-- A stored micro-op arrives at a point (R154). -/
def arrivesAt (rid : Nat) (w : BitVec 128) : Bool :=
  fieldN w.toNat 95 88 == 0x38 && (fieldN w.toNat 87 86 == 1 || fieldN w.toNat 87 86 == 3) && fieldN w.toNat 85 76 == rid

/-- A tile's stream holds an arrival at a point that its PC has not passed (R480). -/
def Tile.stillArrives (tl : Tile) (rid : Nat) : Bool :=
  tl.ibuf.any fun x => decide (tl.seq.pc.toNat ≤ x.1) && arrivesAt rid x.2

/-- The onward edges of a point: the tiles that have not passed their arrival, and the devices whose arrival is missing. -/
def State.pointEdges (s : State) (p : PartId) (rid : Nat) : List Edge :=
  let e := (s.pointTable p).getD rid 0
  let x := (s.part p).point rid
  let from_ := nodeOf 2 rid
  let tiles := (s.imageTiles p).filter fun t => (s.tile t).stillArrives rid
  let members := (s.group (BitVec.ofNat 6 (hf e 95 88)).toFin).members
  let missing := if hf e 127 126 = 3 ∧ x.remotes < hf e 103 96 then
      members.filter fun d => d != s.devNum && !x.arrived.contains d
    else []
  tiles.map (fun t => { node := from_, info := x.locals, waitsOn := nodeOf 1 (s.srcTile t 0).toNat, reason := 1 }) ++
    missing.map fun d => { node := from_, info := x.locals, waitsOn := nodeOf 5 d.toNat, reason := 1 }

/-- The grant record for a credit entry of a tile, with its index (R245, R480). -/
def State.grantFor? (s : State) (p : PartId) (t : TileId) (entry : Nat) : Option (Nat × BitVec 128) :=
  ((s.grantList p).zipIdx.find? fun x =>
    hf x.1 125 124 == 0 && hf x.1 115 97 == (s.srcTile t 0).toNat / 32 && hf x.1 96 92 == entry).map fun x => (x.2, x.1)

/-- The edges of a tile that waits for a credit. -/
def State.creditEdges (s : State) (p : PartId) (t : TileId) (entry : Nat) : List Edge :=
  let pc := (s.tile t).seq.pc.toNat
  match s.grantFor? p t entry with
  | none =>
    let cur := Store.get 0 (s.tile t).cur entry
    if bitN cur.toNat 127 then
      [{ node := nodeOf 1 (s.srcTile t 0).toNat, info := pc, waitsOn := nodeOf 3 (hf cur 119 96), reason := 2 }]
    else []
  | some (i, g) =>
    let win := nodeOf 3 (s.devNum.toNat * 65536 + hf g 91 76)
    let listed := (List.range (s.pointTable p).length).filter fun r =>
      let e := (s.pointTable p).getD r 0
      decide (hf e 79 64 ≤ i) && decide (i < hf e 79 64 + hf e 87 80)
    { node := nodeOf 1 (s.srcTile t 0).toNat, info := pc, waitsOn := win, reason := 2 } ::
      (if hf g 127 126 = 0 then [{ node := win, info := 0, waitsOn := nodeOf 6 (s.gateGroup p).val, reason := 2 }]
      else listed.map fun r => { node := win, info := 0, waitsOn := nodeOf 2 r, reason := 2 })

/-- The edges of a tile that waits for a completion counter: the remote devices with incomplete writes. HBM controllers
have no kind of node. -/
def State.counterEdges (s : State) (t : TileId) (cnt : Nat) : List Edge :=
  let devs := ((s.tile t).ops.filterMap fun (o : AsyncOp) =>
    match o.xfer with
    | .rput w _ _ _ => if o.cnt = cnt then some (w.toNat / 65536) else none
    | _ => none).eraseDups
  { node := nodeOf 1 (s.srcTile t 0).toNat, info := (s.tile t).seq.pc.toNat, waitsOn := nodeOf 4 cnt, reason := 4 } ::
    devs.map fun d => { node := nodeOf 4 cnt, info := 0, waitsOn := nodeOf 5 d, reason := 4 }

/-- The onward edges of a gate group: its members that are not ready. -/
def State.gateEdges (s : State) (g : GroupId) : List Edge :=
  let x := s.group g
  (x.members.filter fun m => !x.counts m).map fun m =>
    { node := nodeOf 6 g.val, info := 0, waitsOn := nodeOf 5 m.toNat, reason := 3 }

/-- The edges from a waiting tile, with their onward edges (R480). -/
def State.tileEdges (s : State) (p : PartId) (t : TileId) : List Edge :=
  let q := (s.tile t).seq
  let me := nodeOf 1 (s.srcTile t 0).toNat
  if q.st = .waiting then
    match q.why with
    | .rdv => { node := me, info := q.pc.toNat, waitsOn := nodeOf 2 q.waitArg.toNat, reason := 1 } ::
        s.pointEdges p q.waitArg.toNat
    | .credit => s.creditEdges p t q.waitArg.toNat
    | .bank => s.counterEdges t q.waitArg.toNat
    | .gate => { node := me, info := q.pc.toNat, waitsOn := nodeOf 6 (s.gateGroup p).val, reason := 3 } ::
        s.gateEdges (s.gateGroup p)
    | .none => []
  else []

/-- The graph of a partition, each edge once. DESIGN CHOICE: log 60. -/
def State.graph (s : State) (p : PartId) : List Edge := ((s.imageTiles p).flatMap fun t => s.tileEdges p t).eraseDups

/-- The nodes reached from a set of nodes in at most `fuel` edges. -/
def reachable (es : List Edge) : Nat → List Nat → List Nat
  | 0, l => l
  | fuel + 1, l =>
    let next := ((es.filter fun e => l.contains e.node && !l.contains e.waitsOn).map fun e => e.waitsOn).eraseDups
    if next.isEmpty then l else reachable es fuel (l ++ next)

/-- An edge lies in a cycle: a deadlock (R480). -/
def inCycle (es : List Edge) (e : Edge) : Bool := (reachable es es.length [e.waitsOn]).contains e.node

/-- The bytes of an entry (R481). -/
def edgeBytes (es : List Edge) (e : Edge) : List Byte :=
  leBytes 4 e.node ++ leBytes 4 e.info ++ leBytes 4 e.waitsOn ++
    [BitVec.ofNat 8 e.reason, if inCycle es e then 1 else 0, 0, 0]

/-- Build the graph of a partition and record it in its ring and for a dump; a larger graph is truncated (R480, R481).
DESIGN CHOICE: log 60. -/
def State.recordGraph (s : State) (p : PartId) : State :=
  let es := s.graph p
  let cut := es.take 4094
  let payload := cut.flatMap (edgeBytes es)
  (s.offer p 8 (s.srcH 1 0) s.now noIds (if 4094 < es.length then 2 else 0) payload).modPart p fun pt =>
    { pt with graphRec := payload }

end Sys2Proof.Machine
end

