-- ==== Sys2Proof/Machine/Fatal.lean ====
section
/-! DEFINITION. Fatal faults, dumps and partition resets (R328, R329, R417, R436, R437, R445 to R449, R479). -/

namespace Sys2Proof.Machine

open Host (Outcome)

/-! ### Dictionary state that ends with an event (R335) -/

/-- Discard pending commits: their writers read `status` (R333, R335). DESIGN CHOICE: log 63. -/
def Area.dropPending (a : Area) (status : BitVec 16) : Area :=
  { a with
    queue := []
    results := a.queue.foldl (fun (m : List (Writer × CommitRes)) c => assocSet m c.writer { seq := c.seq, status }) a.results }

/-- Discard staged sets and pending commits (R335). DESIGN CHOICE: log 63. -/
def Area.drop (a : Area) (status : BitVec 16) : Area :=
  let staged := (a.staged.filter fun x => !x.2.isEmpty).foldl (fun (m : List (Writer × CommitRes)) x =>
    assocSet m x.1 { seq := 0, status }) a.results
  { a with staged := [], results := staged }.dropPending status

/-- STATUS LAYOUT, RESET and SHUTTING_DOWN (R333). -/
def stLayout : BitVec 16 := 4
/-- RESET. -/
def stReset : BitVec 16 := 5
/-- SHUTTING_DOWN. -/
def stShutdown : BitVec 16 := 6

/-- Discard what is pending in a partition's view. -/
def State.dropView (s : State) (p : PartId) (status : BitVec 16) : State :=
  s.modPart p fun pt => { pt with area := pt.area.dropPending status }

/-! ### Emergencies (R336) -/

/-- The EtherCAT mailbox serves CoE (R337). DEDUCED: log 62. -/
def State.coeOpen (s : State) : Bool := s.ecat.st == .preop || s.ecat.st == .safeop || s.ecat.st == .op

/-- A CoE emergency with error code 0xFF00 and a source number (R336). DEDUCED: log 62. -/
def State.emergency (s : State) (src : BitVec 24) : State := if s.coeOpen then s.send .ecat (.emergency 0xFF00 src) else s

/-! ### Dumps (R448, R449) -/

/-- Copy the bytes [a, a + n) of one memory to address `b` of another; nothing of what stood there remains. -/
def Mem.copy (src : Store Byte) (a n : Nat) (dst : Store Byte) (b : Nat) : Store Byte :=
  let here (c : Nat × Byte) : Bool := decide (a ≤ c.1) && decide (c.1 < a + n)
  let old (c : Nat × Byte) : Bool := decide (b ≤ c.1) && decide (c.1 < b + n)
  (src.filter here).foldl (fun d c => Mem.write d (b + (c.1 - a)) c.2) (dst.filter fun c => !old c)

/-- A range of a memory cleared. -/
def Mem.clear (m : Store Byte) (a n : Nat) : Store Byte :=
  let here (c : Nat × Byte) : Bool := decide (a ≤ c.1) && decide (c.1 < a + n)
  m.filter fun c => !here c

/-- Units of 4 KiB. -/
def pages (n : Nat) : Nat := ceilDiv n 4096

/-- A section entry of a dump or a capture: KIND, OFFSET and LENGTH in units of 4 KiB (R449, R476). -/
def sectEntry (kind ofs len : Nat) : List Byte := leBytes 2 kind ++ List.replicate 6 0 ++ leBytes 4 ofs ++ leBytes 4 len

/-- The tiles that a mask of partitions owns. -/
def State.maskTiles (s : State) (parts : BitVec 8) : List TileId :=
  (allParts.filter fun p => parts.getLsbD p.val).flatMap fun p => s.tilesOf p

/-- The clusters that a mask of partitions owns. -/
def State.maskClusters (s : State) (parts : BitVec 8) : List ClusterId :=
  (List.finRange 32).filter fun c => match s.owner? c with | some p => parts.getLsbD p.val | none => false

/-- The unit words of a dump (KIND 1): tiles, clusters, partitions, and the device's own for a device-fatal fault; the
wait-for graphs follow them (R448, R481, R482). DESIGN CHOICE: log 40. -/
def State.dumpWords (s : State) (cls : BitVec 8) (parts : BitVec 8) : List Byte :=
  s.regBytes ((s.maskTiles parts).flatMap tileRegs ++ (s.maskClusters parts).flatMap clusterRegs ++
    (allParts.filter fun p => parts.getLsbD p.val).flatMap partRegs ++ (if cls = 5 then deviceRegs else [])) ++
    (allParts.filter fun p => parts.getLsbD p.val).flatMap fun p => (s.part p).graphRec

/-- Scratchpad without its sealed regions (R204, R448). -/
def State.openScratch (s : State) (t : TileId) : Store Byte :=
  let sealed := (List.range 32).filter fun h => handleValid (s.handle t h) && bitN (s.handle t h).toNat 124
  (s.tile t).landAll.sp.filter fun c => !sealed.any fun h =>
    decide (handleBase (s.handle t h) ≤ c.1) && decide (c.1 < handleBase (s.handle t h) + handleLen (s.handle t h))

/-- The bytes of a ring that a dump holds: the unread ones, and of these the last 64 MiB. -/
def Strand.lastBytes (x : Strand) : Nat := min 0x4000000 ((x.wrptr.toNat + recArea - x.rdptr.toNat) % recArea)

/-- Copy the last `n` bytes of partition `p`'s ring to a device address; no word in hard error is copied (R270). -/
def State.copyRing (s : State) (p : PartId) (n dst : Nat) : State :=
  let wr := (s.part p).strand.wrptr.toNat
  let tail := n - min n wr
  let src := (s.hardIn (ringBase p) recArea false).foldl (fun m x => Mem.clear m x 32) s.hbm
  let m := Mem.copy src (ringBase p + (recArea - tail)) tail s.hbm dst
  { s with hbm := Mem.copy src (ringBase p + (wr - (n - tail))) (n - tail) m (dst + tail) }

/-- The header of a dump (R449). -/
def Dump.header (d : Dump) (length : Nat) (sects : List Byte) : List Byte :=
  leBytes 4 0x31504446 ++ leBytes 2 1 ++ [d.cls, d.parts] ++ leBytes 4 d.source.toNat ++ [d.detail] ++
    [BitVec.ofNat 8 (b2n d.complete + 2 * b2n d.flashOnly)] ++ leBytes 2 d.dropped.toNat ++ leBytes 8 d.ts.toNat ++
    d.frames.flatMap (fun f => leBytes 4 f.toNat) ++ leBytes 8 length ++ sects

/-- Write a dump whose area is free: its sections into HBM, its header into HBM and both flashes (R448).
DESIGN CHOICE: log 40; DEDUCED: log 61. -/
def State.putDump (s : State) (cls parts : BitVec 8) (src : BitVec 24) (detail : BitVec 8) (flashOnly : Bool) : State :=
  let words := s.dumpWords cls parts
  let regs := s.regBytes ((s.maskTiles parts).flatMap seqRegs)
  let tiles := s.maskTiles parts
  let rings := allParts.filter fun p => parts.getLsbD p.val
  let n1 := pages words.length
  let n2 := pages regs.length
  let n3 := 256 * tiles.length
  let sizes := rings.map fun p => pages (s.part p).strand.lastBytes
  let n4 := sizes.foldl (· + ·) 0
  let total := if flashOnly then 4096 else 4096 * (1 + n1 + n2 + n3 + n4)
  let sects := if flashOnly then [] else sectEntry 1 1 n1 ++ sectEntry 2 (1 + n1) n2 ++ sectEntry 3 (1 + n1 + n2) n3 ++
    sectEntry 4 (1 + n1 + n2 + n3) n4
  let d : Dump := {
    cls := cls, parts := parts, source := src, detail := detail,
    complete := flashOnly || !(s.rangeHard dumpBase total true || rings.any fun p => s.rangeHard (ringBase p) recArea false)
    flashOnly := flashOnly, dropped := 0, ts := s.now,
    frames := allParts.map fun p => (s.part p).frame, waiting := parts }
  let head := d.header total sects
  let old := s
  let s := if flashOnly then s else
    let s := { s with hbm := Mem.clear s.hbm dumpBase total }
    let s := ((s.hbmWrite dumpBase head).hbmWrite (dumpBase + 4096) words).hbmWrite (dumpBase + 4096 * (1 + n1)) regs
    let s := s.each tiles.zipIdx fun s x =>
      { s with hbm := Mem.copy (s.openScratch x.1) 0 1048576 s.hbm (dumpBase + 4096 * (1 + n1 + n2) + 1048576 * x.2) }
    (s.each rings.zipIdx fun s x =>
      s.copyRing x.1 (s.part x.1).strand.lastBytes
        (dumpBase + 4096 * (1 + n1 + n2 + n3 + (sizes.take x.2).foldl (· + ·) 0))).keepHard old dumpBase total
  let s := { s with dump := some d, flash := { s.flash with faultRecord := head } }
  s.each allParts fun s p => s.modPart p fun pt => { pt with dumpHeld := parts.getLsbD p.val }

/-- Dump a fatal fault, or count it in the dump that is held (R448). -/
def State.writeDump (s : State) (cls parts : BitVec 8) (src : BitVec 24) (detail : BitVec 8) (flashOnly : Bool) : State :=
  match s.dump with
  | none => s.putDump cls parts src detail flashOnly
  | some d =>
    if cls = 5 ∧ d.cls = 4 then s.putDump cls parts src detail flashOnly
    else
      let d := { d with dropped := satAdd d.dropped 1 }
      let d := { d with complete := d.complete && (d.flashOnly || !s.rangeHard dumpBase 16 true) }
      let flags : Byte := BitVec.ofNat 8 (b2n d.complete + 2 * b2n d.flashOnly)
      let old := s.flash.faultRecord
      let fields := flags :: leBytes 2 d.dropped.toNat
      let head := old.take 13 ++ fields ++ old.drop 16
      let s' := { s with dump := some d, flash := { s.flash with faultRecord := head } }
      if d.flashOnly then s' else (s'.hbmWrite (dumpBase + 13) fields).keepHard s (dumpBase + 13) 3

/-! ### Partition reset (R329) -/

/-- A partition is no longer stopped by Slack: what its frozen queues held is dropped, and the stop ends with the last
stopped partition (R473, R477, R478). DEDUCED: log 69. -/
def State.leaveStop (s : State) (p : PartId) : State :=
  let s := s.modPart p fun pt => { pt with slackStopped := false, channel := [], chanDropped := 0 }
  let parts := s.slack.parts &&& ~~~ (BitVec.ofNat 8 (2 ^ p.val))
  if s.slack.stopped = true ∧ parts = 0 then
    { s with slack := { s.slack with stopped := false, origin := false, trigger := 0, late := false, parts := 0 } }
  else { s with slack := { s.slack with parts } }

/-- A band of the partition that was being switched on returns to OFF, and its switch-on begins anew (R372).
DESIGN CHOICE: log 98. -/
def State.restartBands (s : State) (p : PartId) : State :=
  s.each (s.bandsOf p) fun s b =>
    if s.dom b.val = .switching ∧ (s.band b).draining = false then
      s.drawn.each (bandTiles b) fun s t => s.modTile t fun tl => tl.fresh s.freeCtr
    else s

/-- A partition reset: withdraw, stop, clear, discard, reboot, and repeat admission once the guest has booted; the
tiles are left as a reset leaves them (R241, R418). DEDUCED: log 190, 35. -/
def State.partReset (s : State) (p : PartId) : State :=
  let s := ((s.withdraw p).stopFrame p 0xD 0xFFFF (s.elapsed p)).abandonAll p
  let s := (((s.unload p).modPart p fun pt => { pt with area := pt.area.drop stReset }).leaveStop p).drawn
  let s := s.each (s.tilesOf p) fun s t => (s.modTile t fun tl => tl.partFresh s.freeCtr (s.tileAc t)).freeDma t
  let s := (s.restartBands p).startOrders p
  s.modPart p fun pt => { pt with
    st := if s.enabled p then .resetting else .disabled
    guestBooted := false, guestFailed := false, unacked := false, loadAsked := s.imageIn p, capHalt := false, boundaryDue := false
    rearmDue := false, retire := [], graphRec := [], run := {} }

/-! ### Partition-fatal and device-fatal faults (R446, R447) -/

/-- A dump that is still being written, which takes at most 100 ms, ends incomplete (R392, R448, R457). DESIGN CHOICE: log 226. -/
def State.cutDump (s : State) : State :=
  match s.dump with
  | some d =>
    if d.complete = true ∧ d.flashOnly = false ∧ nsSince d.ts s.now < 100000000 then
      let s' := { s with dump := some { d with complete := false } }
      (s'.hbmWrite (dumpBase + 13) [BitVec.ofNat 8 (2 * b2n d.flashOnly)]).keepHard s (dumpBase + 13) 1
    else s
  | none => s

/-- A partition at level 3 is armed (R471). DEDUCED: log 123. -/
def State.armed (s : State) (p : PartId) : Bool := s.enabled p && decide (s.level p = 3)

/-- A partition-fatal fault, once no Slack stop precedes it (R446). -/
def State.partFatalNow (s : State) (p : PartId) (detail : BitVec 8) (src : BitVec 24) : State :=
  let s := s.stopFrame p 0xD 0xFFFF (s.elapsed p)
  let s := (s.withdraw p).modPart p fun pt => { pt with st := .halted }
  let s := s.raise 0x0012 clsPartFatal src noIds (some p) [detail]
  let s := (s.writeDump 4 (BitVec.ofNat 8 (2 ^ p.val)) src detail false).emergency src
  s.partReset p

/-- A partition-fatal fault: in an armed partition that a Slack stop has not stopped, its handling waits for the end of
scan-out (R446, R477, R487). DEDUCED: log 69. -/
def State.partFatal (s : State) (p : PartId) (detail : BitVec 8) (src : BitVec 24) : State :=
  if s.armed p && !(s.part p).slackStopped then
    let s := s.markFrame p 0xD 0xFFFF
    { s with slack := { s.slack with after := some (some p, detail, src) } }
  else s.partFatalNow p detail src

/-- Power domains D20 to D23 go off: engines in Ronor mode move to BYPASS with cause 4 first, and the links of engines
in Ethernet mode go dark (R447). DEDUCED: log 30. -/
def State.opticsOff (s : State) : State :=
  let s := s.each (List.finRange 8) State.engineDark
  (((s.setDom 20 .off).setDom 21 .off).setDom 22 .off).setDom 23 .off

/-- Every partition stops, withdraws and is HALTED (R447). -/
def State.haltAll (s : State) (cause : BitVec 4) : State :=
  s.each (allParts.filter fun p => (s.part p).st != .disabled) fun s p =>
    ((s.stopFrame p cause 0xFFFF (s.elapsed p)).withdraw p).modPart p fun pt =>
      { pt with st := .halted, lastClass := clsDevFatal, unacked := true }

/-- A device-fatal fault, once no Slack stop precedes it (R447). -/
def State.devFatalNow (s : State) (detail : BitVec 8) (src : BitVec 24) : State :=
  let s := (s.haltAll 0xE).raise 0x0012 clsDevFatal src noIds none [detail]
  let s := { s with alert := { s.alert with fatal := true }, pins := { s.pins with alertLow := true, bypEn := false } }
  let parts := BitVec.ofNat 8 ((allParts.filter fun p => s.enabled p).foldl (fun n p => n + 2 ^ p.val) 0)
  let s := (s.writeDump 5 parts src detail (decide (detail = 1 ∨ detail = 2))).emergency src
  { s.opticsOff with phase := .fatal }

/-- A device-fatal fault: a hard error, a memory, a stack or a logic fault waits for the scan-out of an armed device;
lost clocks, a trip and tamper do not (R447, R477, R487, R491). -/
def State.devFatal (s : State) (detail : BitVec 8) (src : BitVec 24) : State :=
  if decide (4 ≤ detail.toNat) && (allParts.any fun p => s.armed p && !(s.part p).slackStopped) then
    { s with slack := { s.slack with after := some (none, detail, src) } }
  else s.devFatalNow detail src

/-- The device runs on far enough to report a fatal fault. -/
def State.running (s : State) : Bool := s.phase == .service || s.phase == .ebb || s.phase == .loader

/-- A partition-fatal fault (R446). -/
def execPartitionFatal (p : PartId) (detail : BitVec 8) (src : BitVec 24) (s : State) : Outcome State Fault Refusal :=
  .next (if s.live = true ∧ (s.part p).st ≠ .disabled ∧ 16 ≤ detail.toNat ∧ detail.toNat ≤ 20 then
    s.partFatal p detail src
  else s)

/-- A device-fatal fault (R447); a later one only counts in the dump that is held (R448). -/
def execDeviceFatal (detail : BitVec 8) (src : BitVec 24) (s : State) : Outcome State Fault Refusal :=
  .next (if 1 ≤ detail.toNat ∧ detail.toNat ≤ 7 then
      if s.running then s.devFatal detail src
      else if s.phase = .fatal ∧ s.dump.isSome = true then s.writeDump 5 0 src detail false
      else s
    else s)

/-- A guest's dump readout service releases the dump for its partition (R448). -/
def execDumpRelease (p : PartId) (s : State) : Outcome State Fault Refusal :=
  .next (
    match s.dump with
    | some d =>
      if d.waiting.getLsbD p.val then
        let waiting := d.waiting &&& ~~~ (BitVec.ofNat 8 (2 ^ p.val))
        let s := s.modPart p fun pt => { pt with dumpHeld := false }
        { s with dump := if waiting = 0 then none else some { d with waiting } }
      else s
    | none => s)

/-- A partition reset (R329). -/
def execPartitionReset (p : PartId) (s : State) : Outcome State Fault Refusal :=
  .next (if s.live = true ∧ s.enabled p = true ∧ (s.part p).st ≠ .disabled then s.partReset p else s)

/-- A guest leaves the hypervisor unanswered for 2 s: a partition-fatal fault (R417, R438). -/
def execGuestUnanswered (p : PartId) (s : State) : Outcome State Fault Refusal :=
  .next (if s.live = true ∧ (s.part p).guestBooted = true then s.partFatal p 19 (s.srcH 0 p.val) else s)

/-- What guest `p`'s translation maps: its slices stand at their partition addresses, the rest at its device addresses, and
the dump can only be read (R260, R321). DEDUCED: log 229. -/
def State.guestMaps (s : State) (p : PartId) (a : GuestAccess) : Bool :=
  let x := a.addr.toNat
  let own := 70 * 2 ^ 32 + 2 ^ 30 + p.val * 384 * 2 ^ 20
  (decide (own ≤ x) && decide (x < own + 384 * 2 ^ 20)) || decide (x / 2 ^ 32 < (s.slices p).length) ||
    decide (x / 2 ^ 32 = 62 + p.val) || (decide (ringBase p ≤ x) && decide (x < ringBase p + 0x10000000)) ||
    (!a.write && (s.part p).dumpHeld && decide (dumpBase ≤ x) && decide (x < dumpBase + 2 ^ 31))

/-- A guest access outside its mapped ranges: a page fault, reported as an event and not forwarded (R321).
DESIGN CHOICE: log 64. -/
def execGuestPageFault (p : PartId) (x : GuestAccess) (s : State) : Outcome State Fault Refusal :=
  .next (if s.live = true ∧ (s.part p).guestBooted = true ∧ s.guestMaps p x = false then
    s.raise 0x0011 clsNone (s.srcH 0 p.val) noIds (some p) (leBytes 8 x.addr.toNat)
  else s)

/-- Every core of the partition is there: none lies in a domain that failed its logic self-test, and a retired one is served by
a spare (R18, R318, R424). DEDUCED: log 100. -/
def State.coresUp (s : State) (p : PartId) : Bool :=
  !((onesOf (s.coreMask p)).any fun n => Store.get n s.coreMap n == 31) &&
  !(s.startWord.failmap.getLsbD 24 && fieldN (s.coreMask p).toNat 7 0 != 0) &&
    !(s.startWord.failmap.getLsbD 25 && fieldN (s.coreMask p).toNat 15 8 != 0)

/-- The deadline in force for the overrun rule (R380, R479). -/
def State.deadline (s : State) (p : PartId) : Nat := max 1 (s.part p).fireK.toNat * s.vval p 0x10 1

/-- The frame watchdog fires: the wait-for graph is recorded, and the fault is partition-fatal (R479). -/
def execFrameWatchdog (p : PartId) (s : State) : Outcome State Fault Refusal :=
  .next (if s.live = true ∧ (s.part p).run.active = true ∧ (s.part p).slackStopped = false then
    ((s.reach ((s.part p).run.ts + BitVec.ofNat 64 (4 * s.deadline p))).recordGraph p).partFatal p 20 (s.srcH 1 0)
  else s)

end Sys2Proof.Machine
end

