-- ==== Sys2Proof/Machine/Hbm.lean ====
section
/-! DEFINITION. Word-parity replays of HBM accesses and hard errors (R266 to R274). -/

namespace Sys2Proof.Machine

open Host (Outcome)

/-- The controller of a device address: its STACK field (R258). -/
def ctrlOf (a : HbmAddr) : CtrlId := (a.extractLsb' 11 3).toFin

/-- The address of the 32 B access that holds a byte. -/
def accessOf (a : HbmAddr) : HbmAddr := a &&& ~~~ 0x1F

/-- The source number of a controller (R31). DEDUCED: log 143. -/
def State.srcCtrl (s : State) (k : CtrlId) : BitVec 24 := s.srcDie ⟨k.val / 4, by omega⟩ 0 (k.val % 4)

/-- The cluster that a REQ value names; 32 is the Headland (R273). DEDUCED: log 49. -/
def reqCluster? (req : BitVec 7) : Option ClusterId := if h : req.toNat < 32 then some ⟨req.toNat, h⟩ else none

/-- The bytes of HBM that an asynchronous micro-op moves: their partition address, and how many. DEDUCED: log 50. -/
def AsyncOp.hbmRange (o : AsyncOp) : Nat × Nat :=
  match o.xfer with
  | .ldw macros _ rgmask _ _ chkgen _ a => (a, (rowsOf rgmask).length * popcount macros * recSize (chkgen = 1))
  | .dmah _ a _ n _ => (a, n)
  | .rput .. => (0, 0)

/-- The tile and the micro-op in flight that an HBM consumer names, if its transfer covers a device address and its cluster is
the requester (R273, R274). DEDUCED: log 50. -/
def State.accessor? (s : State) (req : BitVec 7) (user : HbmUser) (a : HbmAddr) : Option (TileId × AsyncOp) :=
  match user with
  | .other _ => none
  | .op t key =>
    match s.tileOwner? t with
    | none => none
    | some p =>
      let sl := s.slices p
      let j := sl.idxOf (a.toNat / 2 ^ 32)
      let addr := j * 2 ^ 32 + a.toNat % 2 ^ 32
      let hits (o : AsyncOp) : Bool :=
        decide (o.key = key) && decide (j < sl.length) && decide (o.hbmRange.1 < addr + 32) &&
          decide (addr < o.hbmRange.1 + o.hbmRange.2)
      if req.toNat = (clusterOf t).val then ((s.tile t).ops.find? hits).map fun o => (t, o) else none

/-- The access that a replay belongs to is in hand: a micro-op that a reset or an unload has dropped has none (R274).
DEDUCED: log 49. -/
def State.inHand (s : State) (req : BitVec 7) (user : HbmUser) (a : HbmAddr) : Bool :=
  match user with
  | .other _ => decide (req.toNat ≤ 32)
  | .op _ _ => (s.accessor? req user a).isSome

/-- A hard error: counted, logged when no entry stands, an event, and the mark on the frame that issued the access
(R270, R272, R273). DEDUCED: log 50. -/
def State.hardError (s : State) (a : HbmAddr) (req : BitVec 7) (user : HbmUser) (write : Bool) : State :=
  let k := ctrlOf a
  let s := s.modCtrl k fun c =>
    { c with
      hard := satAdd c.hard 1, wrFail := c.wrFail || write, logValid := true
      logWrite := if c.logValid then c.logWrite else write
      logReq := if c.logValid then c.logReq else req
      logAddr := if c.logValid then c.logAddr else accessOf a }
  let s := { s with hardNow :=
    if s.hardNow.contains (accessOf a, write) then s.hardNow else s.hardNow ++ [(accessOf a, write)] }
  let by_ := s.accessor? req user a
  let owner := (reqCluster? req).bind fun c => s.owner? c
  let ids := (by_.map fun (x : TileId × AsyncOp) => x.2.ids).getD noIds
  let serves : Bool := (by_.map fun (x : TileId × AsyncOp) => x.2.counted).getD false
  let s := s.raise 0x0008 (bif serves then clsAborting else clsNone) (s.srcCtrl k) ids owner (leBytes 8 (accessOf a).toNat)
  match owner with | some p => bif serves then s.markFrame p 4 ids.layer else s | none => s

/-- The failed replays of a consumer's access, and those of every other. -/
def Ctrl.triesOf (c : Ctrl) (key : HbmAddr × BitVec 7 × HbmUser × Bool) :
    Nat × List ((HbmAddr × BitVec 7 × HbmUser × Bool) × Nat) :=
  (assocGet 0 c.tries key, c.tries.filter fun x => !decide (x.1 = key))

/-- One replay of a 32 B access: it recovers the access, or fails; the third failure is a hard error (R267, R268, R274).
DEDUCED: log 49, 143. -/
def State.hbmReplay (s : State) (a : HbmAddr) (req : BitVec 7) (user : HbmUser) (write good : Bool) : State :=
  let k := ctrlOf a
  let key := (accessOf a, req, user, write)
  let owner := (reqCluster? req).bind fun c => s.owner? c
  let x := (s.ctrl k).triesOf key
  if good then
    (s.modCtrl k fun c => { c with replayOk := satAdd c.replayOk 1, tries := x.2 }).raise 0x0008 clsReplayed
      (s.srcCtrl k) noIds owner (leBytes 8 (accessOf a).toNat)
  else if x.1 = 0 then s.modCtrl k fun c => { c with tries := x.2 ++ [(key, 1)] }
  else (s.modCtrl k fun c => { c with tries := x.2 }).hardError a req user write

/-- A read check fails and the controller reads the access again (R267). UNCORR counts the failing read if the stack reported
it as uncorrectable, and the last read too when it ends in a hard error (R272). -/
def execHbmReadReplay (a : HbmAddr) (r : HbmReq) (good : Bool) (ecc : EccVerdict) (s : State) :
    Outcome State Fault Refusal :=
  if hbmExists a then
    .next (if s.inHand r.req r.user a then
      let ends := !good && ((s.ctrl (ctrlOf a)).triesOf (accessOf a, r.req, r.user, false)).1 != 0
      let n := b2n ecc.first + b2n (ecc.last && ends)
      let s := if n = 0 then s else s.modCtrl (ctrlOf a) fun c => { c with uncorr := satAdd c.uncorr n }
      s.hbmReplay a r.req r.user false good
    else s)
  else .fault (.noSuchHbmAddress a)

/-- A write check fails and the source sends the access again (R268). -/
def execHbmWriteReplay (a : HbmAddr) (r : HbmReq) (good : Bool) (s : State) : Outcome State Fault Refusal :=
  if hbmExists a then .next (if s.inHand r.req r.user a then s.hbmReplay a r.req r.user true good else s)
  else .fault (.noSuchHbmAddress a)

end Sys2Proof.Machine
end

