-- ==== Sys2Proof/Machine/Images.lean ====
section
/-! DEFINITION. Jetujo images: the parts of an image in a download area and the checks of admission stages 1, 2 and 7
(R11, R84, R119, R138, R173, R185 to R195, R207, R237, R238, R245, R263, R264, R405, R513). -/

namespace Sys2Proof.Machine

/-- A place of a refusal (R197): LOCUS, SECTION, OFFSET, BIT. -/
structure Loc where
  locus : Nat
  sect : Nat
  ofs : Nat
  bit : Nat
  deriving DecidableEq, Repr

/-- No section. -/
def noSect : Nat := 0xFFFFFFFF

/-- The number in `n` bytes at offset `ofs` of the download area of a partition. -/
def State.img (s : State) (p : PartId) (ofs n : Nat) : Nat := leNat (s.hbmRead (downloadBase p + ofs) n)

/-- The bytes of a download area. -/
def State.imgBytes (s : State) (p : PartId) (ofs n : Nat) : List Byte := s.hbmRead (downloadBase p + ofs) n

/-- A digest as 384 bits. DESIGN CHOICE: log 6. -/
def digest384 (l : List Byte) : BitVec 384 := BitVec.ofNat 384 (leNat l)

/-! ### Faults of bytes -/

/-- A fault at a byte and a bit. -/
abbrev At := Nat × Nat

/-- A fault when a condition holds. -/
def faultIf (c : Bool) (ofs bit : Nat) : List At := if c then [(ofs, bit)] else []

/-- The set bits of a reserved run of bits [hi:lo] of the number `v` whose byte 0 is at `ofs` (R11). -/
def faultBits (v ofs hi lo : Nat) : List At := (rsBits v hi lo).map fun i => (ofs + i / 8, i % 8)

/-- The set bits of `n` reserved bytes. -/
def faultBytes (l : List Byte) (ofs n : Nat) : List At := faultBits (leAt l ofs n) ofs (8 * n - 1) 0

/-! ### The fixed parts (R185, R186) -/

/-- Round up to a multiple of 64. -/
def up64 (n : Nat) : Nat := ceilDiv n 64 * 64

/-- The length of a signature block (R185). -/
def sigLen : Nat := 17044

/-- Claim and section entries of the image in a download area. -/
def State.nClaim (s : State) (p : PartId) : Nat := min 64 (s.img p 116 4)

/-- Section entries. -/
def State.nSect (s : State) (p : PartId) : Nat := min 16384 (s.img p 120 4)

/-- The offset of claim entry `i`. -/
def claimAt (i : Nat) : Nat := 320 + 16 * i

/-- The offset of the section entries. -/
def State.entryBase (s : State) (p : PartId) : Nat := 320 + 16 * s.nClaim p

/-- The section entries (R187). -/
def State.sects (s : State) (p : PartId) : List Sect :=
  (List.range (s.nSect p)).map fun i =>
    let o := s.entryBase p + 112 * i
    { ty := BitVec.ofNat 16 (s.img p o 2), variant := BitVec.ofNat 8 (s.img p (o + 2) 1)
      sflags := BitVec.ofNat 8 (s.img p (o + 3) 1), target := BitVec.ofNat 32 (s.img p (o + 4) 4)
      offset := BitVec.ofNat 64 (s.img p (o + 8) 8), length := BitVec.ofNat 64 (s.img p (o + 16) 8)
      digest := s.imgBytes p (o + 24) 48, iv := s.imgBytes p (o + 72) 12, tag := s.imgBytes p (o + 84) 16 }

/-- ENC of a section. -/
def Sect.enc (x : Sect) : Bool := x.sflags.getLsbD 0

/-- The claims by code; an absent code claims 0 (R195). -/
def State.claimsOf (s : State) (p : PartId) : Store Nat :=
  (List.range (s.nClaim p)).foldl (fun m i => Store.set m (s.img p (claimAt i) 2) (s.img p (claimAt i + 8) 8)) []

/-- The forms of TARGET (R187). -/
inductive TargetForm where
  | partition
  | cluster (c : Nat)
  | tile (t : Nat)
  | bad
  deriving DecidableEq, Repr

/-- The form of a TARGET: clusters and tiles of the device by index (R187). -/
def targetForm (w : BitVec 32) : TargetForm :=
  let x := w.toNat % 65536
  let die := x / 16384
  let cl := x / 1024 % 16
  let ti := x / 32 % 32
  if die = 3 then (if x % 16384 = 0 then .partition else .bad)
  else if die = 2 ∨ x % 32 ≠ 0 then .bad
  else if ti = 31 then .cluster (die * 16 + cl)
  else if ti < 16 then .tile (die * 256 + cl * 16 + ti)
  else .bad

/-- The forms of TARGET that a type admits (R188). -/
def formAdmitted (ty : Nat) (f : TargetForm) : Bool :=
  match f with
  | .bad => false
  | .partition => decide (ty = 3 ∨ ty = 4 ∨ ty = 5 ∨ ty = 7 ∨ ty = 0xB ∨ ty = 0xC)
  | .cluster _ => decide (ty = 5 ∨ ty = 7)
  | .tile _ => decide (ty = 1 ∨ ty = 2 ∨ ty = 5 ∨ ty = 6 ∨ ty = 7 ∨ ty = 8 ∨ ty = 9 ∨ ty = 0xA)

/-- The tiles that a target serves. -/
def TargetForm.tiles (f : TargetForm) (l : List TileId) : List TileId :=
  match f with
  | .partition => l
  | .cluster c => l.filter fun t => decide (t.val / 16 = c)
  | .tile t => l.filter fun x => decide (x.val = t)
  | .bad => []

/-- A target lies in the clusters of a mask (R194). -/
def TargetForm.inClaim (f : TargetForm) (mask : Nat) : Bool :=
  match f with
  | .partition => true
  | .cluster c => mask.testBit c
  | .tile t => mask.testBit (t / 16)
  | .bad => false

/-! ### Stage 1 (R513) -/

/-- A power class is present in VARIANTS. -/
def hasClass (variants c : Nat) : Bool := variants.testBit c

/-- The faults of the header and the manifest's fixed part, in ascending order. -/
def State.headFaults (s : State) (p : PartId) : List At :=
  let l := s.imgBytes p 0 320
  let nc := leAt l 116 4
  let ns := leAt l 120 4
  let man := leAt l 24 4
  let variants := leAt l 87 1
  faultIf (leAt l 0 4 != 0x314A544A) 0 0 ++ faultIf (leAt l 4 2 != 1) 4 0 ++ faultBytes l 6 2 ++
    faultIf (leAt l 8 8 != (s.part p).dlLen || decide (2 ^ 32 < leAt l 8 8)) 8 0 ++ faultIf (leAt l 16 8 != 64) 16 0 ++
    faultIf (man != 256 + 16 * nc + 112 * ns) 24 0 ++ faultIf (leAt l 28 4 != sigLen) 28 0 ++
    faultIf (leAt l 32 8 != up64 (64 + man) || decide (leAt l 8 8 < leAt l 32 8 + sigLen)) 32 0 ++ faultBytes l 40 24 ++
    faultIf (decide (15 < leAt l 84 1)) 84 0 ++ faultIf (decide (63 < leAt l 85 1)) 85 0 ++
    faultBits (leAt l 86 1) 86 7 2 ++ faultIf (variants % 8 == 0) 87 0 ++ faultBits variants 87 7 3 ++
    ((List.range 3).flatMap fun c =>
      faultIf (hasClass variants c != (leAt l (96 + 4 * c) 4 != 0)) (96 + 4 * c) 0) ++
    faultIf (decide (2 < leAt l 114 1)) 114 0 ++ faultBytes l 115 1 ++
    faultIf (nc == 0 || decide (64 < nc)) 116 0 ++
    faultIf (ns == 0 || decide (16384 < ns)) 120 0 ++ faultBytes l 124 4 ++ faultBytes l 224 96

/-- The faults of the claim entries; that no entry has code 0x01 is a fault of the first. DEDUCED: log 44. -/
def State.claimFaults (s : State) (p : PartId) : List At :=
  let none1 : Bool := !(List.range (s.nClaim p)).any fun i => s.img p (claimAt i) 2 == 1
  (List.range (s.nClaim p)).flatMap fun i =>
    let o := claimAt i
    let code := s.img p o 2
    faultIf ((i == 0 && none1) || code == 0 || decide (9 < code) || (List.range i).any fun j => s.img p (claimAt j) 2 == code) o 0 ++
      faultBits (s.img p (o + 2) 6) (o + 2) 47 0 ++ faultIf (code == 1 && s.img p (o + 8) 8 == 0) (o + 8) 0

/-- Two sections overlap. -/
def Sect.overlaps (x y : Sect) : Bool :=
  decide (x.offset.toNat < y.offset.toNat + y.length.toNat) && decide (y.offset.toNat < x.offset.toNat + x.length.toNat)

/-- The faults of section entry `i` on its own fields. DESIGN CHOICE: log 209. -/
def State.entryFaults (s : State) (p : PartId) (all : List Sect) (i : Nat) (x : Sect) : List At :=
  let o := s.entryBase p + 112 * i
  let ty := x.ty.toNat
  let v := x.variant.toNat
  let per : Bool := decide (ty = 1 ∨ ty = 2)
  let encOk : Bool := decide (ty = 5 ∨ ty = 6 ∨ ty = 7 ∨ ty = 0xA)
  let first := up64 (up64 (64 + s.img p 24 4) + sigLen)
  let bits (l : List Byte) (ofs : Nat) : List At := faultBytes l 0 l.length |>.map fun x => (ofs + x.1, x.2)
  faultIf (ty == 0 || decide (0xC < ty)) o 0 ++
    faultIf (decide (3 < v) || per != (v != 0) || (v != 0 && !hasClass (s.img p 87 1) (v - 1))) (o + 2) 0 ++
    faultIf (x.enc && !encOk) (o + 3) 0 ++ faultBits x.sflags.toNat (o + 3) 7 1 ++
    faultIf (!formAdmitted ty (targetForm x.target)) (o + 4) 0 ++ faultBits x.target.toNat (o + 4) 31 16 ++
    faultIf (x.offset.toNat % 64 != 0 || decide (x.offset.toNat < first) ||
      decide (s.img p 8 8 < x.offset.toNat + x.length.toNat) || (all.take i).any fun y => x.overlaps y) (o + 8) 0 ++
    (if x.enc then [] else bits x.iv (o + 72) ++ bits x.tag (o + 84)) ++ bits (s.imgBytes p (o + 100) 12) (o + 100)

/-- The first fault of stage 1 (R513). DEDUCED: log 39. -/
def State.stage1 (s : State) (p : PartId) : Option Loc :=
  match s.headFaults p ++ s.claimFaults p with
  | f :: _ => some { locus := 1, sect := noSect, ofs := f.1, bit := f.2 }
  | [] =>
    let all := s.sects p
    all.zipIdx.findSome? fun x =>
      (s.entryFaults p all x.2 x.1).head?.map fun f => { locus := 1, sect := x.2, ofs := f.1, bit := f.2 }

/-- VERSION of the running firmware: of its slot's header, or of the factory's firmware (R193, R399). -/
def State.fwVersion (s : State) : Nat :=
  let slot := if s.island.slot = 0 then s.flash.slotA else s.flash.slotB
  if slot.len = 0 then (Config.firmwareVersion s.island.slot).toNat else leNat (Mem.readBytes slot.bytes 8 4)

/-! ### Stage 7: sections (R194) -/

/-- The bytes of a section as stored. -/
def State.sectBytes (s : State) (p : PartId) (x : Sect) : List Byte := s.imgBytes p x.offset.toNat x.length.toNat

/-- The 16-byte records of a section, as numbers. -/
def recs16 (l : List Byte) : List Nat := (List.range (l.length / 16)).map fun i => leAt l (16 * i) 16

/-- The section of a type that targets tile `t`. -/
def tileSect? (all : List Sect) (ty : Nat) (t : Nat) : Option Sect :=
  all.find? fun x => decide (x.ty.toNat = ty) && targetForm x.target == .tile t

/-- The section of a type for the whole partition. -/
def partSect? (all : List Sect) (ty : Nat) : Option Sect := all.find? fun x => decide (x.ty.toNat = ty)

/-- The handle entry that an image defines. -/
def State.defHandle (s : State) (p : PartId) (all : List Sect) (t h : Nat) : BitVec 128 :=
  match tileSect? all 9 t with | some x => BitVec.ofNat 128 (leAt (s.sectBytes p x) (16 * h) 16) | none => 0

/-- A local window ID names a write window of an image (R245). -/
def State.defWindow (s : State) (p : PartId) (all : List Sect) (win : Nat) : Option (BitVec 128) :=
  match tileOfBits? win with
  | none => none
  | some t =>
    let h := s.defHandle p all t.val (win % 32)
    if handleValid h && hf h 126 125 == 1 then some h else none

/-- The stored micro-ops of a tile stream. -/
def uopsOf (l : List Byte) : List (BitVec 128) := (recs16 l).map (BitVec.ofNat 128)

/-- The macros that LDWs and SWAPs of an image name on a tile (R213). -/
def State.streamed (s : State) (p : PartId) (all : List Sect) (t : Nat) : BitVec 16 :=
  (all.filter fun x => decide (x.ty = 1) && targetForm x.target == .tile t).foldl (fun m x =>
    (uopsOf (s.sectBytes p x)).foldl (fun m w =>
      if fieldN w.toNat 95 88 = 0x10 ∨ fieldN w.toNat 95 88 = 0x11 then m ||| BitVec.ofNat 16 (fieldN w.toNat 87 72) else m)
      m) 0

/-- A load block of a weight-row section (R207). -/
structure Block where
  ofs : Nat
  tile : Nat
  macros : BitVec 16
  rgmask : BitVec 4
  pm1 : BitVec 3
  wsgn : BitVec 1
  rec17 : Bool
  resident : Bool
  layer : BitVec 16
  deriving DecidableEq, Repr

/-- The bytes of one record of a block. -/
def Block.recLen (b : Block) : Nat := if b.rec17 then 17 else 16

/-- The bytes of a block's records. -/
def Block.dataLen (b : Block) : Nat := (rowsOf b.rgmask).length * popcount b.macros * b.recLen

/-- The bytes of a block with its header and padding. -/
def Block.span (b : Block) : Nat := 16 + ceilDiv b.dataLen 16 * 16

/-- The block at an offset of a section. DEDUCED: log 141. -/
def blockAt (l : List Byte) (o : Nat) : Block :=
  let fmt := leAt l (o + 7) 1
  { ofs := o, tile := leAt l o 2, macros := BitVec.ofNat 16 (leAt l (o + 4) 2), rgmask := BitVec.ofNat 4 (leAt l (o + 6) 1)
    pm1 := BitVec.ofNat 3 fmt, wsgn := b2v (bitN fmt 3), rec17 := bitN fmt 4, resident := bitN fmt 5
    layer := BitVec.ofNat 16 (leAt l (o + 8) 2) }

/-- `n` blocks from an offset, and where they end. -/
def blocksFrom (l : List Byte) : Nat → Nat → List Block × Nat
  | 0, o => ([], o)
  | n + 1, o =>
    let b := blockAt l o
    let r := blocksFrom l n (o + b.span)
    (b :: r.1, r.2)

/-- The blocks of a weight-row section. -/
def blocksOf (l : List Byte) : List Block := (blocksFrom l (min 65536 (leAt l 0 4)) 16).1

/-- The tile of a block, by index in the device. -/
def Block.tileIdx (b : Block) : TargetForm := targetForm (BitVec.ofNat 32 b.tile)

/-- The RESIDENT macros that blocks name, as keys 16 × tile + macro. -/
def residentKeys (bs : List Block) : List Nat :=
  bs.flatMap fun b =>
    match b.tileIdx with
    | .tile t => if b.resident then (onesOf b.macros).map fun m => 16 * t + m else []
    | _ => []

/-- The faults of a weight-row section (R207). `before` are the resident macros of earlier sections. -/
def State.weightFaults (s : State) (p : PartId) (all : List Sect) (x : Sect) (mask : Nat) (before : List Nat)
    (l : List Byte) : List At :=
  let n := leAt l 0 4
  let r := blocksFrom l (min 65536 n) 16
  faultIf (n == 0 || decide (65536 < n) || r.2 != l.length) 0 0 ++ faultBytes l 4 12 ++
    r.1.zipIdx.flatMap fun bx =>
      let b := bx.1
      let o := b.ofs
      let inTarget : Bool := match targetForm x.target, b.tileIdx with
        | .partition, .tile _ => true
        | .cluster c, .tile t => t / 16 == c
        | .tile u, .tile t => u == t
        | _, _ => false
      let keys := residentKeys [b]
      let used := before ++ residentKeys (r.1.take bx.2)
      let strm : BitVec 16 := match b.tileIdx with | .tile t => s.streamed p all t | _ => 0
      let clash := keys.filter fun k => used.contains k || strm.getLsbD (k % 16)
      faultIf (!inTarget || !b.tileIdx.inClaim mask) o 0 ++ faultBytes l (o + 2) 2 ++
        faultIf (b.macros == 0) (o + 4) 0 ++
        ((clash.take 1).map fun k => (o + 4 + k % 16 / 8, k % 8)) ++
        faultIf (b.rgmask == 0) (o + 6) 0 ++ faultBits (leAt l (o + 6) 1) (o + 6) 7 4 ++
        faultBits (leAt l (o + 7) 1) (o + 7) 7 6 ++ faultIf (b.layer == 0xFFFF) (o + 8) 0 ++ faultBytes l (o + 10) 6 ++
        faultBytes l (o + 16 + b.dataLen) (b.span - 16 - b.dataLen)

/-- The faults of a rendezvous table (R173): `grants` is the length of the grant list. DEDUCED: log 45. -/
def pointFaults (grants : Nat) (l : List Byte) : List At :=
  (recs16 l).zipIdx.flatMap fun x =>
    let e := x.1
    let o := 16 * x.2
    let f := fieldN e
    let fabric : Bool := f 127 126 == 3
    faultBits e o 31 0 ++ faultIf (decide (32 < f 87 80) || decide (grants < f 79 64 + f 87 80)) (o + 8) 0 ++
      (if fabric then faultIf (decide (63 < f 95 88)) (o + 11) 0 else faultBits e o 95 88) ++
      faultIf (!fabric && f 103 96 != 0) (o + 12) 0 ++ faultIf (f 113 104 == 0 || decide (512 < f 113 104)) (o + 13) 0 ++
      faultBits e o 125 114

/-- The faults of a grant list (R245). -/
def State.grantFaults (s : State) (p : PartId) (all : List Sect) (mask : Nat) (points : List Nat) (l : List Byte) :
    List At :=
  (recs16 l).zipIdx.flatMap fun x =>
    let g := x.1
    let o := 16 * x.2
    let f := fieldN g
    let win := s.defWindow p all (f 91 76)
    let known : Bool := win.isSome && (targetForm (BitVec.ofNat 32 (f 91 81 * 32))).inClaim mask
    let len := match win with | some h => handleLen h | none => 0
    let listed := points.any fun e => decide (fieldN e 79 64 ≤ x.2) && decide (x.2 < fieldN e 79 64 + fieldN e 87 80)
    faultBits g o 35 0 ++
      faultIf (decide (f 55 36 < f 75 56) || (known && decide (len ≤ f 55 36))) (o + 4) 4 ++
      faultIf (!known) (o + 9) 4 ++
      (if f 125 124 = 1 then faultBits g o 115 96 else []) ++ faultBits g o 123 116 ++
      faultIf (decide (1 < f 125 124)) (o + 15) 4 ++
      faultIf (decide (1 < f 127 126) || (f 127 126 == 1 && !listed)) (o + 15) 6

/-- A handle's buffer as bank, offset and length. -/
def bufOf (h : BitVec 128) : Nat × Nat × Nat := (hf h 109 108, hf h 107 89, handleLen h)

/-- Two buffers overlap. -/
def bufMeet (a b : Nat × Nat × Nat) : Bool :=
  a.1 == b.1 && decide (a.2.1 < b.2.1 + b.2.2) && decide (b.2.1 < a.2.1 + a.2.2)

/-- The faults of a handle-definition section (R237, R238). -/
def handleFaults (l : List Byte) : List At :=
  let hs := (recs16 l).map (BitVec.ofNat 128)
  let at_ (i : Nat) : BitVec 128 := hs.getD i 0
  hs.zipIdx.flatMap fun x =>
    let w := x.1
    let v := w.toNat
    let o := 16 * x.2
    let kind := fieldN v 126 125
    let alt := at_ (fieldN v 118 114)
    let isWin : Bool := kind == 1 || kind == 2
    let window (y : BitVec 128) : Bool := handleValid y && (hf y 126 125 == 1 || hf y 126 125 == 2)
    let twice := (List.range 32).any fun j => j != x.2 && window (at_ j) && bitN (at_ j).toNat 119 &&
      hf (at_ j) 118 114 == fieldN v 118 114
    let altBad : Bool := !(handleValid alt && hf alt 126 125 == 0) || handleLen alt != handleLen w || hf alt 123 120 != 0 ||
      twice
    if !bitN v 127 then faultBits v o 31 0 ++ faultBits v o 63 32 ++ faultBits v o 69 64 ++
      faultIf (decide (bankSize (fieldN v 109 108) < fieldN v 107 89 + handleLen w)) (o + 8) 6 ++ faultBits v o 111 110 ++
      faultIf (bitN v 112 && kind != 1) (o + 14) 0 ++ faultBits v o 113 113
    else
      faultBits v o 31 0 ++ faultBits v o 63 32 ++ faultBits v o 69 64 ++
        faultIf (decide (bankSize (fieldN v 109 108) < fieldN v 107 89 + handleLen w)) (o + 8) 6 ++
        faultIf ((List.range x.2).any fun j => handleValid (at_ j) && bufMeet (bufOf w) (bufOf (at_ j))) (o + 11) 1 ++
        faultBits v o 111 110 ++ faultIf (bitN v 112 && kind != 1) (o + 14) 0 ++ faultBits v o 113 113 ++
        faultIf (isWin && bitN v 119 && altBad) (o + 14) 2 ++ faultIf (kind == 2 && !bitN v 119) (o + 14) 7 ++
        faultIf (bitN v 122 && (kind == 0 || kind == 2 || bitN v 124)) (o + 15) 2 ++
        faultIf (bitN v 123 && (kind == 0 || kind == 1 || bitN v 124)) (o + 15) 3 ++ faultIf (kind == 3) (o + 15) 5

/-- The faults of an HBM descriptor table (R263, R264). -/
def descFaults (all : List Sect) (slices : Nat) (l : List Byte) : List At :=
  let n := l.length / 32
  let d (i : Nat) : Nat := leAt l (32 * i) 32
  let meet (a b : Nat) : Bool :=
    decide (fieldN a 38 0 < fieldN b 38 0 + fieldN b 101 64) && decide (fieldN b 38 0 < fieldN a 38 0 + fieldN a 101 64)
  (List.range n).flatMap fun i =>
    let v := d i
    let o := 32 * i
    let base := fieldN v 38 0
    let len := fieldN v 101 64
    let isImg := bitN v 130
    let clash := (List.range i).any fun j => meet v (d j) &&
      ((isImg && bitN (d j) 130) || (isImg && bitN (d j) 129) || (bitN v 129 && bitN (d j) 130))
    let sectBad : Bool := match all[fieldN v 175 144]? with
      | none => true
      | some x => x.variant != 0 || x.enc || decide (len < x.length.toNat) ||
          !(decide (x.ty = 5 ∨ x.ty = 6 ∨ x.ty = 7 ∨ x.ty = 0xA))
    faultIf (base % 32 != 0 || decide (slices * 2 ^ 32 < base + len) || clash) o 0 ++ faultBits v o 63 39 ++
      faultIf (len % 32 != 0 || len == 0) (o + 8) 0 ++ faultBits v o 127 102 ++ faultIf (fieldN v 129 128 == 0) (o + 16) 0 ++
      faultBits v o 135 131 ++ faultBits v o 143 136 ++
      (if isImg then faultIf sectBad (o + 18) 0 else faultBits v o 175 144) ++ faultBits v o 255 176

/-- The faults of an outlier residual list: reserved bits and the layer 0xFFFF (R11, R63, R104), by words from offset
`o`; `fuel` bounds the words, `left` are the entries left of the section in hand. DEDUCED: log 47. -/
def outlierFaults (l : List Byte) : Nat → Nat → Nat → List At
  | 0, _, _ => []
  | fuel + 1, o, left =>
    let w := leAt l o 4
    if left = 0 then
      faultBits w o 15 10 ++ faultIf (fieldN w 31 16 == 0xFFFF) (o + 2) 0 ++ outlierFaults l fuel (o + 4) (fieldN w 9 0)
    else faultBits w o 7 7 ++ outlierFaults l fuel (o + 4) (left - 1)

/-- The faults of a scale section (R99, R148): no word is a NaN, a scale is a normal number, a leaky slope is finite,
and clamp bounds are in order. Which words are which is free. DESIGN CHOICE: log 195; DEDUCED: log 46. -/
def scaleFaults (l : List Byte) : List At :=
  let w (i : Nat) : BitVec 32 := BitVec.ofNat 32 (leAt l (4 * i) 4)
  let infinite (x : BitVec 32) : Bool := fieldN x.toNat 30 0 == 0x7F800000
  (List.range (l.length / 4)).flatMap fun i =>
    faultIf (isNan (w i) || (Config.scaleRole l i == 0 && badScale (w i)) || (Config.scaleRole l i == 1 && infinite (w i)) ||
      (Config.scaleRole l i == 2 && !isNan (w (i + 1)) && f32Lt (w (i + 1)) (w i))) (4 * i) 0

/-- The faults of an envelope at offset `o` (R11, R119). DEDUCED: log 43. -/
def envelopeFaults (e : List Byte) (o : Nat) : List At :=
  let w (k : Nat) : BitVec 32 := BitVec.ofNat 32 (leAt e k 4)
  faultIf (isNan (w 0)) o 0 ++ faultIf (isNan (w 4) || f32Lt (w 4) (w 0)) (o + 4) 0 ++ faultIf (isNan (w 8)) (o + 8) 0 ++
    faultIf (isNan (w 12) || f32Lt (w 12) (w 8)) (o + 12) 0 ++ faultIf (isNan (w 16) || f32Lt (w 16) 0) (o + 16) 0 ++
    faultIf (leAt e 24 1 % 4 == 3) (o + 24) 0 ++ faultBits (leAt e 24 1) (o + 24) 7 2 ++
    faultBits (leAt e 25 7) (o + 25) 55 0

/-- The handles of a tile that hold the bytes of its ENC sections: its SEALED handles, in order (R203, R237). -/
def State.encHandles (s : State) (p : PartId) (all : List Sect) (t : Nat) : List Nat :=
  let n := (all.filter fun y => y.enc && (match targetForm y.target with
    | .partition => true | .cluster c => decide (t / 16 = c) | .tile u => decide (u = t) | .bad => false)).length
  ((List.range 32).filter fun h =>
    let w := s.defHandle p all t h
    handleValid w && bitN w.toNat 124).take n

/-- The micro-ops of a stream that are DMAH with a scratchpad operand in decrypted bytes, by the value that the
register-initialisation block or the last LOOP before it in the stream gives its register (R131, R194).
DEDUCED: log 212. -/
def State.sealedDmah (s : State) (p : PartId) (all : List Sect) (x : Sect) (l : List Byte) : List Nat :=
  match targetForm x.target with
  | .tile t =>
    let enc := s.encHandles p all t
    if enc.isEmpty then []
    else
      let reg := match all.find? fun y => decide (y.ty = 2) && decide (y.variant = x.variant) && decide (y.target = x.target) with
        | some y => s.sectBytes p y
        | none => []
      let q0 : Store Nat := (List.range 8).map fun i => (i, leAt reg (8 * i) 8)
      ((uopsOf l).zipIdx.foldl (fun (acc : Store Nat × List Nat) u =>
        let w := u.1.toNat
        let op := fieldN w 95 88
        if op = 1 ∧ fieldN w 87 86 = 1 then (Store.set acc.1 (fieldN w 85 83) (fieldN w 63 0), acc.2)
        else if op = 0x32 then
          let v := Store.get 0 acc.1 (fieldN w 82 80)
          if bitN v 63 = false ∧ enc.contains (fieldN v 62 56) = true then (acc.1, acc.2 ++ [u.2]) else acc
        else acc) (q0, [])).2
  | _ => []

/-- The first fault in the bytes of a section (R194). `before` are the resident macros of earlier sections.
DEDUCED: log 43, 46. -/
def State.sectFaults (s : State) (p : PartId) (all : List Sect) (x : Sect) (before : List Nat) (l : List Byte) : List At :=
  let claims := s.claimsOf p
  let mask := Store.get 0 claims 1
  let points := match partSect? all 3 with | some y => recs16 (s.sectBytes p y) | none => []
  let grants := match partSect? all 4 with | some y => (s.sectBytes p y).length / 16 | none => 0
  match x.ty.toNat with
  | 1 =>
    let open_ := s.sealedDmah p all x l
    (uopsOf l).zipIdx.flatMap fun u =>
      ((uopFaults points.length u.1 ++ badAt 80 (open_.contains u.2)).insertionSort (· ≤ ·)).map fun b => (16 * u.2 + b / 8, b % 8)
  | 2 =>
    ((List.range 8).flatMap fun i =>
      let v := leAt l (8 * i) 8
      if bitN v 63 then [] else faultBits v (8 * i) 62 61) ++
    (List.range 4).flatMap fun i => faultBits (leAt l (64 + 4 * i) 4) (64 + 4 * i) 31 20
  | 3 => pointFaults grants l
  | 4 => s.grantFaults p all mask points l
  | 5 => s.weightFaults p all x mask before l
  | 6 => outlierFaults l (l.length / 4) 0 0
  | 7 => scaleFaults l
  | 8 => (List.range (l.length / 32)).flatMap fun i => envelopeFaults (slice l (32 * i) 32) (32 * i)
  | 9 => handleFaults l
  | 0xB => descFaults all (Store.get 0 claims 2) l
  | 0xC => faultBytes l 4 12
  | _ => []

/-- The length of a section is one its type allows. DEDUCED: log 43. -/
def State.lengthOk (s : State) (p : PartId) (x : Sect) : Bool :=
  let n := x.length.toNat
  match x.ty.toNat with
  | 1 => n % 16 == 0 && decide (n ≤ 65536)
  | 2 => n == 80
  | 3 => n % 16 == 0 && decide (n ≤ 16384)
  | 4 => n % 16 == 0
  | 6 => n % 4 == 0
  | 7 => n % 4 == 0
  | 8 => n % 32 == 0
  | 9 => n == 512
  | 0xA => decide (n ≤ 1048576)
  | 0xB => n % 32 == 0 && decide (n ≤ 4096)
  | 0xC =>
    let k := s.img p x.offset.toNat 4
    decide (1 ≤ k) && decide (k ≤ 64) && n == 16 + 432 * k
  | _ => true

/-- Two sections are duplicates of each other (R188). -/
def Sect.same (x y : Sect) : Bool :=
  decide (x.ty = y.ty) &&
    (decide (x.ty = 3 ∨ x.ty = 4 ∨ x.ty = 0xB ∨ x.ty = 0xC) ||
      (decide (x.ty = 1 ∨ x.ty = 2) && decide (x.variant = y.variant) && decide (x.target = y.target)) ||
      (decide (x.ty = 8 ∨ x.ty = 9 ∨ x.ty = 0xA) && decide (x.target = y.target)))

/-- The faults that lie in section entry `i` (R194, R203). DEDUCED: log 43. -/
def State.entryFaults7 (s : State) (p : PartId) (all : List Sect) (i : Nat) (x : Sect) : List At :=
  let o := s.entryBase p + 112 * i
  let encrypted := bitN (s.img p 86 1) 1
  faultIf ((all.take i).any x.same || (!encrypted && decide (x.ty = 0xC))) o 0 ++
    faultIf (x.enc && !encrypted) (o + 3) 0 ++
    faultIf (!(targetForm x.target).inClaim (Store.get 0 (s.claimsOf p) 1)) (o + 4) 0 ++
    faultIf (!s.lengthOk p x) (o + 16) 0 ++
    faultIf (x.enc && (all.take i).any fun y => y.enc && y.iv == x.iv) (o + 72) 0

/-- The image of a partition names a tile: a section targets it, or a RESIDENT block lies on it (R25, R26, R188). -/
def Part.names (pt : Part) (t : TileId) : Bool :=
  match pt.image with
  | none => false
  | some im =>
    (im.sections.any fun x => targetForm x.target == .tile t.val) || pt.residents.any fun k => decide (k / 16 = t.val)

/-- The tiles that tile streams and register-initialisation blocks name (R188). -/
def streamTiles (all : List Sect) : List Nat :=
  let isStream (x : Sect) : Bool := x.ty == 1 || x.ty == 2
  let tileOf (x : Sect) : Option Nat := match targetForm x.target with | .tile t => some t | _ => none
  ((all.filter isStream).filterMap tileOf).eraseDups

/-- TARGET bits [15:0] of a tile. -/
def targetBits (t : Nat) : Nat := t / 256 * 16384 + t / 16 % 16 * 1024 + t % 16 * 32

/-- The required sections that are absent: the streams and blocks of every variant, and the model key record (R188). -/
def State.absent (s : State) (p : PartId) (all : List Sect) : List Loc :=
  let variants := s.img p 87 1
  let miss (ty v t : Nat) : List Loc :=
    if all.any fun x => decide (x.ty.toNat = ty) && decide (x.variant.toNat = v) && targetForm x.target == .tile t then []
    else [{ locus := 2, sect := noSect, ofs := ty + v * 65536 + targetBits t * 2 ^ 24, bit := 0 }]
  ([1, 2].flatMap fun ty => ([1, 2, 3].filter fun v => hasClass variants (v - 1)).flatMap fun v =>
    ((streamTiles all).insertionSort (· ≤ ·)).flatMap fun t => miss ty v t) ++
    (if bitN (s.img p 86 1) 1 && (partSect? all 0xC).isNone then
      [{ locus := 2, sect := noSect, ofs := 0xC + 0xC000 * 2 ^ 24, bit := 0 }] else [])

/-- The first fault of stage 7: entries and bytes of the sections in ascending order, then absences (R194). -/
def State.stage7 (s : State) (p : PartId) : Option Loc :=
  let all := s.sects p
  let keys (i : Nat) : List Nat := (all.take i).flatMap fun y =>
    if y.ty = 5 ∧ y.enc = false then residentKeys (blocksOf (s.sectBytes p y)) else []
  let first := all.zipIdx.findSome? fun x =>
    match s.entryFaults7 p all x.2 x.1 with
    | f :: _ => some ({ locus := 1, sect := x.2, ofs := f.1, bit := f.2 } : Loc)
    | [] =>
      if x.1.enc then none
      else (s.sectFaults p all x.1 (keys x.2) (s.sectBytes p x.1)).head?.map fun f =>
        { locus := 0, sect := x.2, ofs := f.1, bit := f.2 }
  match first with | some f => some f | none => (s.absent p all).head?

end Sys2Proof.Machine
end

