-- ==== Sys2Proof/Machine/Moves.lean ====
section
/-! DEFINITION. The outlier engine, moves within the tile, RPUT and DMAH (R103 to R108, R150 to R153, R204, R266,
R270). -/

namespace Sys2Proof.Machine

open Host (Outcome)

/-! ### The outlier engine -/

/-- The entries a stream reads: those whose row lies in an enabled row group (R106). -/
def streamEntries (mc : Macro) (rgmask : BitVec 4) : List OutEntry :=
  (mc.outSet mc.activePhys).entries.filter fun e => rgmask.getLsbD (e.row.toNat / 64)

/-- The engine partials of a macro: products summed per output. An output that no entry read reaches has no partial, and no
element enters for it (R81, R106). DESIGN CHOICE: log 184. -/
def enginePartials (mc : Macro) (h : BitVec 1) (bm1 : BitVec 3) (asgn : BitVec 1) (l : List OutEntry) : List (Nat × Int) :=
  let outs := (l.map fun e => e.out.toNat).eraseDups
  outs.map fun o => (o, l.foldl (fun (n : Int) e =>
    if e.out.toNat = o then
      n + e.res.toInt * activationOf false bm1 asgn (Store.get 0 (mc.half h).acts e.row.toNat)
    else n) 0)

/-- A macro of an OUTP pass meets a conflict (R107, R108). -/
def outpBlocked (tl : Tile) (m : Nat) : Bool :=
  let mc := tl.mac m
  !(mc.outSet mc.activePhys).valid || decide (tl.seq.ac < mc.streamUntil) || mc.lastS.isNone

/-- Stream `m` of an OUTP reads its entries: the stream and its staging half are held, and its partials are on their way,
unless a parity error stops the stream in this frame (R106 to R108). DESIGN CHOICE: log 205. -/
def State.streamStart (s : State) (t : TileId) (id : Ids) (f : OutpPassF) (failed : Bool) (m : Nat) : State :=
  let mc := (s.tile t).mac m
  let l := streamEntries mc f.rgmask
  let e := ceilDiv l.length 32
  let s := (s.count (clusterOf t) 2 l.length).meetFill t f.half m ((s.tile t).seq.ac + e)
  s.modTile t fun tl =>
    let tl := tl.modMac m fun mc =>
      let mc := { mc with streamUntil := tl.seq.ac + e }
      if f.half = 0 then { mc with half0Until := max mc.half0Until (tl.seq.ac + e) }
      else { mc with half1Until := max mc.half1Until (tl.seq.ac + e) }
    if l = [] ∨ failed = true ∨ mc.streamDead = true then tl
    else
      let st : Stream :=
        { mac := m, nout := outsOf mc.active.pm1, issue := tl.seq.ac, due := tl.seq.ac + e + 3, s := mc.lastS.getD 4
          partials := enginePartials mc f.half f.bm1 f.asgn l, ids := id }
      { tl with streams := tl.streams ++ [st] }

/-- The entry word of R104. -/
def OutEntry.word (e : OutEntry) : Nat := e.res.toNat * 65536 + e.row.toNat * 256 + e.out.toNat

/-- The kept parity bit of an entry is wrong (R105). -/
def OutEntry.bad (e : OutEntry) : Bool := parityBit e.word != e.par

/-- The first entry of a stream's reads whose parity fails: a kept bit that is wrong, or an upset named by index (R105, R108).
DESIGN CHOICE: log 28. -/
def firstBad (l : List OutEntry) (ups : List Nat) : Option Nat :=
  (l.zipIdx.find? fun x => x.1.bad || ups.contains x.2).map fun x => x.2

/-- A store read of stream `m` meets a parity error in cycle `cycle`: the set is invalid, the stream presents nothing further in
the frame, and the frame is marked. Partials that present by that cycle still do (R108, R117). DESIGN CHOICE: log 28;
DEDUCED: log 211. -/
def State.storeParity (s : State) (t : TileId) (id : Ids) (m cycle : Nat) : State :=
  let s := s.modTile t fun tl =>
    let tl := tl.modMac m fun mc =>
      { mc.putSet mc.activePhys { mc.outSet mc.activePhys with valid := false } with streamDead := true }
    { tl with check := { tl.check with storePar := true }, streams := tl.streams.filter fun x => x.mac != m || decide (x.due ≤ cycle) }
  s.abortTile t 0x0006 6 19 id [BitVec.ofNat 8 m]

/-- OUTP in pass mode streams the outlier entries of the named macros, 32 in each ac. `parityErr` names macros, and the
entries that their streams read, at which the store's parity fails besides those that it keeps wrong (R105 to R108, R150).
DESIGN CHOICE: log 28. -/
def execOutpPass (t : TileId) (id : Ids) (f : OutpPassF) (parityErr : List (MacroId × Nat)) (s : State) :
    Outcome State Fault Refusal :=
  .next (s.issue t (uopWord id 0x28 (outpPassBits f)) fun s =>
    let s := s.begin_ t id
    let tl := s.tile t
    let macs := onesOf f.macros
    let bad := macs.filter (outpBlocked tl)
    let go := macs.filter fun m => !bad.contains m
    let fails (m : Nat) : Option Nat :=
      firstBad (streamEntries (tl.mac m) f.rgmask) ((parityErr.filter fun x => decide (x.1.val = m)).map fun x => x.2)
    let s := s.each go fun s m => s.streamStart t id f (fails m).isSome m
    let s := s.each go fun s m => match fails m with
      | some i => s.storeParity t id m (tl.seq.ac + i / 32)
      | none => s
    let s := if bad = [] then s else s.conflict t id bad [] 19
    s.retire t)

/-- The engine partials of a macro are presented (R107). -/
def execEnginePartialsPresent (t : TileId) (m : MacroId) (s : State) : Outcome State Fault Refusal :=
  .next (
    match (s.tile t).streams.find? fun x => decide (x.mac = m.val) with
    | none => s
    | some st =>
      if s.tileUp t = false ∨ (s.tile t).frozenNow = true ∨ (s.tile t).seq.st = .frozen then s
      else
        let s := s.modTile t fun tl => ({ tl.modSeq (·.reach st.due) with streams := tl.streams.erase st }).settle
        s.present t st.ids st.due st.issue st.s false
          [{ mac := m.val, nout := st.nout, elems := st.partials.map fun x => { out := x.1, val := x.2, exp := 0 } }])

/-- An outlier section read from scratchpad bytes: the words it takes, and the set when it passes the checks of R105
against the bank it is for (R104). -/
def readSection (b : Bank) (l : List Byte) : Nat × Option OutSet :=
  let head := leAt l 0 4
  let count := fieldN head 9 0
  let entries := (List.range count).map fun i =>
    let w := leAt l (4 + 4 * i) 4
    (w, ({ res := BitVec.ofNat 16 (fieldN w 31 16), row := BitVec.ofNat 8 (fieldN w 15 8)
           out := BitVec.ofNat 7 (fieldN w 6 0), par := parityBit w } : OutEntry))
  let key (e : OutEntry) : Nat := e.row.toNat * 128 + e.out.toNat
  let sorted := (entries.zip (entries.drop 1)).all fun x => decide (key x.1.2 < key x.2.2)
  let ok := decide (count ≤ 512) && fieldN head 15 10 == 0 && sorted && entries.all fun x =>
    !bitN x.1 7 && b.groups.getLsbD (x.2.row.toNat / 64) && decide (x.2.out.toNat < outsOf b.pm1)
  (count + 1, if ok then
    some { valid := true, layer := BitVec.ofNat 16 (fieldN head 31 16), entries := entries.map fun x => x.2 } else none)

/-- The sections of an OUTP load, in ascending macro order, from a buffer's bytes: words taken and sets; none when they
run past the bytes. They are checked against the shadow bank as it stands when the OUTP issues (R105). DEDUCED: log 42;
DESIGN CHOICE: log 185. -/
def readSections (tl : Tile) (macs : List Nat) (l : List Byte) : Option (Nat × List (Nat × Option OutSet)) :=
  macs.foldl (fun acc m => match acc with
    | none => none
    | some (w, sets) =>
      if l.length < 4 * w + 4 then none
      else
        let (n, set) := readSection (tl.mac m).shadow (l.drop (4 * w))
        if l.length < 4 * (w + n) then none else some (w + n, sets ++ [(m, set)])) (some (0, []))

/-- OUTP in load mode copies sections into the shadow sets (R104, R105, R150). -/
def execOutpLoad (t : TileId) (id : Ids) (f : OutpLoadF) (s : State) : Outcome State Fault Refusal :=
  .next (s.issue t (uopWord id 0x28 (outpLoadBits f)) fun s =>
    let tl := s.tile t
    let macs := onesOf f.macros
    let src := s.spBuf? t f.qsrc.toNat false
    let read := match src with
      | some b => if b.ofs ≤ b.len then
          let a := b.base + b.ofs
          let n := min (b.len - b.ofs) 65600
          let view := tl.readView [{ form := 0, write := false, start := tl.seq.ac, addr := a, step := 512, len := n }]
          (readSections tl macs (view.spRead a n)).map fun x => (a, x)
        else none
      | none => none
    let free := macs.all fun m => decide ((tl.mac m).setUntil ≤ tl.seq.ac + 1)
    let us := match read with
      | some x =>
        if free then
          some [({ form := 0, write := false, start := tl.seq.ac, addr := x.1, step := 512, len := 4 * x.2.1 } : PathUse)]
        else none
      | none => none
    s.access t id us [(f.qsrc, f.inc)] { macs, unit := 19 } fun s =>
      match read with
      | none => s
      | some x =>
        let w := ceilDiv x.2.1 128
        let s := s.modTile t fun tl =>
          (tl.modMacs macs fun m mc =>
            let set : OutSet := match assocGet none x.2.2 m with | some y => y | none => {}
            { mc.putSet mc.shadowPhys set with setUntil := tl.seq.ac + w + 1 }).busyTo (tl.seq.ac + w)
        s.count (clusterOf t) 3 (4 * x.2.1))

/-! ### Moves -/

/-- The bytes that a copy of `n` bytes reads, in segments of 512 B: the segment read in one cycle is written two cycles later
and read again in the cycle after that at the earliest (R160). -/
def moveBytes (a d n : Nat) : Nat → Tile → List (List Byte) → List Byte
  | 0, _, segs => segs.flatten
  | k + 1, tl, segs =>
    let j := ceilDiv n 512 - (k + 1)
    let tl := if 3 ≤ j then tl.spWrite (d + 512 * (j - 3)) (segs.getD (j - 3) []) else tl
    moveBytes a d n k tl (segs ++ [tl.spRead (a + 512 * j) (min 512 (n - 512 * j))])

/-- MOVE within the scratchpad (R151, R160). -/
def execMoveToScratchpad (t : TileId) (id : Ids) (f : MoveF) (s : State) : Outcome State Fault Refusal :=
  .next (s.issue t (uopWord id 0x30 (moveBits 0 f)) fun s =>
    let n := f.lm1.toNat + 1
    let ac := (s.tile t).seq.ac
    let src := s.spOp? t f.qsrc.toNat n false
    let dst := s.spOp? t f.qdst.toNat n true
    let us := match src, dst with
      | some a, some d => some [({ form := 0, write := false, start := ac, addr := a, step := 512, len := n } : PathUse),
          ({ form := 0, write := true, start := ac + 2, addr := d, step := 512, len := n } : PathUse)]
      | _, _ => none
    s.access t id us [(f.qsrc, f.sinc), (f.qdst, f.dinc)] {} fun s =>
      let s := s.modTile t fun tl =>
        (tl.writeRows (ac + 2) 512 (dst.getD 0) (moveBytes (src.getD 0) (dst.getD 0) n (ceilDiv n 512) tl [])).busyTo
          (ac + ceilDiv n 512 + 1)
      (s.count (clusterOf t) 3 n).count (clusterOf t) 4 n)

/-- The bits of a staging container (R151). -/
def cwBits (cw : Nat) : Nat := match cw with | 0 => 8 | 1 => 4 | 2 => 2 | 3 => 1 | _ => 8

/-- A staging half filled from source bytes: activations, exponents and zero flags. A fill from integer containers clears
the four exponents (R47, R71, R73, R151). DESIGN CHOICE: log 186. -/
def fillHalf (cw : Nat) (l : List Byte) : Half :=
  let acts := (List.range 256).map fun i => (i, (BitVec.ofNat 8 (container (cwBits cw) l i) : Byte))
  let zero := (List.range 32).foldl (fun (z : BitVec 32) i =>
    if (acts.drop (64 * (i % 4))).take 64 |>.all fun x => !x.2.getLsbD (i / 4) then z ||| BitVec.ofNat 32 (2 ^ i) else z) 0
  { acts := acts.filter fun x => !decide (x.2 = 0)
    exps := if cw = 4 then (List.range 4).map fun g => (g, l.getD (256 + g) 0) else []
    zero }

/-- MOVE to staging fills a half of every macro named; a half that a pass reads in the write's cycle is not written
(R47, R64, R115, R151). -/
def execMoveToStaging (t : TileId) (id : Ids) (f : MoveF) (s : State) : Outcome State Fault Refusal :=
  .next (s.issue t (uopWord id 0x30 (moveBits 1 f)) fun s =>
    let cw := f.cw.toNat
    let n := if cw = 4 then 260 else 32 * cwBits cw
    let ac := (s.tile t).seq.ac
    let src := s.spOp? t f.qsrc.toNat n false
    let us := src.map fun a => [({ form := 0, write := false, start := ac, addr := a, step := 512, len := n } : PathUse)]
    let macs := onesOf f.dmacros
    s.access t id us [(f.qsrc, f.sinc)] { macs } fun s =>
      let tl := s.tile t
      let bad := macs.filter fun m => decide (ac + 2 < (tl.mac m).halfUntil f.dsel)
      let go := macs.filter fun m => !bad.contains m
      let half := fillHalf cw (tl.spRead (src.getD 0) n)
      let s := s.modTile t fun tl => (tl.modMacs go fun _ mc =>
        let fl : Option Fill := some { due := ac + 2, half, ids := id }
        if f.dsel = 0 then { mc with fill0 := fl } else { mc with fill1 := fl }).busyTo (ac + 2)
      let s := s.count (clusterOf t) 3 n
      if bad = [] then s else s.conflict t id bad [] 20)

/-- MOVE to an instruction page rewrites micro-ops from the page's first index; a micro-op that issues from that page
before the page may issue puts the MOVE in conflict (R151, R160, R161). -/
def execMoveToInstructionPage (t : TileId) (id : Ids) (f : MoveF) (s : State) : Outcome State Fault Refusal :=
  .next (s.issue t (uopWord id 0x30 (moveBits 2 f)) fun s =>
    let n := f.lm1.toNat + 1
    let tl := s.tile t
    let ac := tl.seq.ac
    let src := s.spOp? t f.qsrc.toNat n false
    let us := src.map fun a => [({ form := 0, write := false, start := ac, addr := a, step := 512, len := n } : PathUse)]
    let own := tl.hasImage && tl.seq.pc.getLsbD 11 == f.dsel.getLsbD 0
    s.access t id us [(f.qsrc, f.sinc)] {} fun s =>
      let s := s.modTile t fun tl =>
        let new := (List.range (n / 16)).foldl (fun (tl : Tile) i =>
          tl.putUop (2048 * f.dsel.toNat + i) (BitVec.ofNat 128 (leNat (tl.spRead (src.getD 0 + 16 * i) 16)))) tl
        { new with pageHold := if own then none else some (f.dsel, ac + ceilDiv n 512 + 4, id) }.busyTo
          (ac + ceilDiv n 512)
      let s := s.count (clusterOf t) 3 n
      if own then s.conflict t id [] [] 16 else s)

/-! ### RPUT -/

/-- The largest segment of a put on the fabric (R297). -/
def segMax : Nat := 4064

/-- The credit of an entry's CUR slot that covers a range (R152, R247). -/
def creditCovers (c : BitVec 128) (ofs n : Nat) : Bool :=
  bitN c.toNat 127 && decide (hf c 63 44 ≤ ofs) && decide (ofs + n ≤ hf c 43 24 + 1)

/-- The put segments of a write. -/
def putSegments (h : PutHdr) (urgent : Bool) (data : List Byte) : List Msg :=
  let k := ceilDiv data.length segMax
  (List.range k).map fun i =>
    let seg := (data.drop (segMax * i)).take segMax
    .put { h with sofs := BitVec.ofNat 32 (segMax * i), slm1 := BitVec.ofNat 16 (seg.length - 1), first := i = 0
                  last := i + 1 = k } urgent seg

/-- An RPUT whose credit is present in this cycle: the source is read and the put sent (R130, R152, R249).
DEDUCED: log 11, 29. -/
def State.rputGo (s : State) (t : TileId) (id : Ids) (f : RputF) : State :=
  let n := f.lm1.toNat + 1
  let ac := (s.tile t).seq.ac
  let src := s.spOpOpen? t f.qsrc.toNat n false
  let us := src.map fun a => [({ form := 0, write := false, start := ac, addr := a, step := 512, len := n } : PathUse)]
  s.access t id us [(f.qsrc, f.sinc)] {} fun s =>
    let tl := s.tile t
    let c := Store.get 0 tl.cur f.cred.toNat
    let h : PutHdr :=
      { window := BitVec.ofNat 24 (hf c 119 96), epoch := BitVec.ofNat 32 (hf c 95 64), wofs := f.dofs, wlm1 := f.lm1
        grant := BitVec.ofNat 16 (hf c 15 0), host := false, writer := s.srcTile t 16, tag := s.tagCtr, sofs := 0
        slm1 := 0, first := true, last := true, rsvd := 0 }
    let dest : Dest := .device (BitVec.ofNat 8 (hf c 119 112))
    let frame := match s.tileOwner? t with | some p => (s.part p).frame | none => 0
    let s := (putSegments h (f.urg = 1) (tl.spRead (src.getD 0) n)).foldl (fun s m => s.send dest m) s
    let s := { s with tagCtr := s.tagCtr + 1 }
    let now := s.now
    let s := s.modTile t fun tl => tl.startOp {
      cnt := f.cnt.toNat, due := ac + ceilDiv n 512, ids := id, frame, xfer := .rput h.window h.epoch h.tag now }
    (s.count (clusterOf t) 3 n).count (clusterOf t) 9 n

/-- RPUT writes scratchpad bytes into a remote window. Without a credit that covers them it waits, and issues in the cycle in
which the wait completes (R134, R152). -/
def execRput (t : TileId) (id : Ids) (f : RputF) (s : State) : Outcome State Fault Refusal :=
  .next (s.issue t (uopWord id 0x31 (rputBits f)) fun s =>
    if creditCovers (Store.get 0 (s.tile t).cur f.cred.toNat) f.dofs.toNat (f.lm1.toNat + 1) then s.rputGo t id f
    else
      (s.wait_ t .credit (f.cred.setWidth 11)).modTile t fun tl =>
        tl.modSeq fun q => { q with waitUop := some (uopWord id 0x31 (rputBits f)) })

/-- The fields of a waiting RPUT. -/
def rputOf (w : BitVec 128) : RputF :=
  { qsrc := w.extractLsb' 85 3, sinc := w.extractLsb' 84 1, cred := w.extractLsb' 79 5, dofs := w.extractLsb' 59 20
    lm1 := w.extractLsb' 43 16, urg := w.extractLsb' 42 1, cnt := w.extractLsb' 40 2, rsvd := w.extractLsb' 0 40 }

/-- A waiting RPUT finds its credit `waited` ac after it began to wait: that cycle is its issue cycle (R134, R152). -/
def execRputCreditPresent (t : TileId) (waited : Nat) (s : State) : Outcome State Fault Refusal :=
  let tl := s.tile t
  .next (
    match tl.seq.waitUop with
    | some w =>
      let f := rputOf w
      if s.tileUp t = true ∧ tl.frozenNow = false ∧ tl.seq.st = .waiting ∧ tl.seq.why = .credit ∧
          creditCovers (Store.get 0 tl.cur f.cred.toNat) f.dofs.toNat (f.lm1.toNat + 1) = true then
        let s := s.modTile t fun tl => tl.modSeq fun q =>
          { q with st := (if tl.hasImage then .issuing else .idle), why := .none, waitArg := 0, waitUop := none
                   ac := q.waitedTo waited }
        (s.count (clusterOf t) 12 waited).rputGo t { layer := w.extractLsb' 112 16, opid := w.extractLsb' 96 16 } f
      else s
    | none => s)

/-! ### DMAH -/

/-- The OFFSETs of both operands are multiples of 32 (R153). -/
def dmahAligned (tl : Tile) (f : DmahF) : Bool :=
  fieldN (tl.qreg f.qhbm.toNat).toNat 4 0 == 0 && fieldN (tl.qreg f.qsp.toNat).toNat 4 0 == 0

/-- The transfer of a DMAH is outstanding (R130, R153). -/
def Tile.dmahStart (tl : Tile) (f : DmahF) (id : Ids) (due : Nat) (x : Transfer) : Tile :=
  tl.startOp { cnt := f.cnt.toNat, due, ids := id, frame := 0, xfer := x }

/-- DMAH from HBM to scratchpad (R153). -/
def execDmahToScratchpad (t : TileId) (id : Ids) (f : DmahF) (s : State) : Outcome State Fault Refusal :=
  .next (s.issue t (uopWord id 0x32 (dmahBits 0 f)) fun s =>
    let n := 32 * (f.l32m1.toNat + 1)
    let src := s.hbmOp? t f.qhbm.toNat n false
    let dst := s.spOp? t f.qsp.toNat n true
    let us : Option (List PathUse) := match src, dst with
      | some _, some _ => if dmahAligned (s.tile t) f then some [] else none
      | _, _ => none
    s.access t id us [(f.qhbm, f.hinc), (f.qsp, f.sinc)] {} fun s =>
      s.modTile t fun tl => tl.dmahStart f id tl.seq.ac (.dmah false (src.getD 0) (dst.getD 0) n []))

/-- DMAH from scratchpad to HBM: the source is read through the tile's read path (R153, R204, R232). -/
def execDmahToHbm (t : TileId) (id : Ids) (f : DmahF) (s : State) : Outcome State Fault Refusal :=
  .next (s.issue t (uopWord id 0x32 (dmahBits 1 f)) fun s =>
    let n := 32 * (f.l32m1.toNat + 1)
    let ac := (s.tile t).seq.ac
    let src := s.spOpOpen? t f.qsp.toNat n false
    let dst := s.hbmOp? t f.qhbm.toNat n true
    let us := match src, dst with
      | some a, some _ => if dmahAligned (s.tile t) f then
          some [({ form := 0, write := false, start := ac, addr := a, step := 512, len := n } : PathUse)] else none
      | _, _ => none
    s.access t id us [(f.qhbm, f.hinc), (f.qsp, f.sinc)] {} fun s =>
      let s := s.modTile t fun tl => tl.dmahStart f id (ac + ceilDiv n 512)
        (.dmah true (dst.getD 0) (src.getD 0) n (tl.spRead (src.getD 0) n))
      s.count (clusterOf t) 3 n)

/-- The 32 B units of a transfer, by offset. -/
def unitOffsets (n : Nat) : List Nat := (List.range (ceilDiv n 32)).map fun i => 32 * i

/-- The merge read of a DMAH write that covers only some bytes of a word meets a parity error: the whole write is refused,
with an event that names reason PARITY (R231). DESIGN CHOICE: log 187. -/
def State.dmahRefused (s : State) (t : TileId) (ids : Ids) : State :=
  s.raise 0x0009 clsNone (s.srcTile t 21) ids (s.tileOwner? t) (leBytes 3 0 ++ [rParity])

/-- A DMAH ends: every unit but those in hard error is written, and DONE rises when the last byte is in its destination
(R130, R153, R231, R234, R236, R270). DESIGN CHOICE: log 3, 187. -/
def execDmahDone (t : TileId) (x : DmahEnd) (s : State) : Outcome State Fault Refusal :=
  .next (
    let isDmah (o : AsyncOp) : Bool :=
      decide (o.cnt = x.cnt.val) && !o.landing && (match o.xfer with | .dmah .. => true | _ => false)
    match (s.tile t).ops.find? isDmah, s.tileOwner? t with
    | some o, some p =>
      match o.xfer with
      | .dmah toHbm ha sa n data =>
        let s := s.modTile t fun tl => tl.modSeq (·.reach o.due)
        let good := (unitOffsets n).filter fun i => !s.partHard p (ha + i) 32 toHbm
        let s :=
          if toHbm then
            (s.each good fun s i => s.partWrite p (ha + i) ((data.drop i).take 32)).count (clusterOf t) 7 n
          else if x.mergeParityErr && sa % 4 != 0 then s.dmahRefused t o.ids
          else (s.each good fun s i => s.dmaWrite t (sa + i) (s.partRead p (ha + i) 32) none (some o.key)).count (clusterOf t) 6 n
        (s.modTile t fun tl => { tl with
          ops := tl.ops.map fun y => if y.key = o.key then { y with landing := true } else y }).dmahLanded t o.key
      | _ => s
    | _, _ => s)

end Sys2Proof.Machine
end

