-- ==== Sys2Proof/Machine/Fill.lean ====
section
/-! DEFINITION. What admission and repair write into tiles: banks from the image's records, streams and
register-initialisation blocks, scratchpad, handles, outlier sets, sealed regions (R26, R105, R131, R201 to R204, R207,
R208, R225, R237, R510). -/

namespace Sys2Proof.Machine

/-! ### Banks from records (R207, R208, R225, R510) -/

/-- Row `r`'s record as a bank's sources name it, with its form; none for a hard error (R270). -/
def State.srcRow? (s : State) (p : PartId) (srcs : Store RecSrc) (r : Nat) : Option (List Byte × Bool) :=
  match srcs.find? fun x => decide (x.1 = r / 64) with
  | none => none
  | some (_, c) =>
    let n := if c.rec17 then 17 else 16
    let a := c.addr + r % 64 * c.stride
    if c.down then
      if (s.part p).copyLost || s.rangeHard (downloadBase p + a) n false then none else some (s.imgBytes p a n, c.rec17)
    else if s.partHard p a n false then none
    else some (s.partRead p a n, c.rec17)

/-- A bank written in place by the write port: VALID with P, WSGN and layer, or INVALID; the rows whose checksum byte is
wrong. Rows of other groups keep what they hold (R207, R208, R225, R510). `rec17` of a row says that its record carries the
checksum byte. -/
def Bank.program (b : Bank) (groups : BitVec 4) (pm1 : BitVec 3) (wsgn : BitVec 1) (layer : BitVec 16)
    (row : Nat → Option (List Byte × Bool)) : Bank × List Nat :=
  let start := ({ b with st := .invalid } : Bank).startLoad groups pm1 wsgn layer
  let (b, bads) := (rowsOf groups).foldl (fun (x : Bank × List Nat) r =>
    match row r with
    | none => x
    | some (bytes, rec17) =>
      let (c, bad) := x.1.loadRow r (!rec17) bytes
      (c, if bad then x.2 ++ [r] else x.2)) (start, [])
  (b.endLoad, bads)

/-- Program a physical bank of macro `m`: load checksum errors are counted and raise events that no micro-op causes (R139,
R209, R510). -/
def State.programBank (s : State) (t : TileId) (m : Nat) (phys : BitVec 1) (groups : BitVec 4) (pm1 : BitVec 3) (wsgn : BitVec 1)
    (layer : BitVec 16) (row : Nat → Option (List Byte × Bool)) (upd : Bank → Bank) : State :=
  let mc := (s.tile t).mac m
  let (b, bads) := (mc.bank phys).program groups pm1 wsgn layer row
  let s := s.modTile t fun tl => tl.modMac m fun mc => mc.modBank phys fun _ => upd b
  s.each bads fun s r =>
    let s := s.modTile t fun tl => { tl with wp := { tl.wp with ldErr := satAdd tl.wp.ldErr 1 } }
    s.raise 0x0005 clsNone (s.srcTile t m) noIds (s.tileOwner? t) [BitVec.ofNat 8 m, BitVec.ofNat 8 r]

/-- Write a physical bank of macro `m` from the records that sources name; without sources it stays as it is (R225). -/
def State.programFrom (s : State) (p : PartId) (t : TileId) (m : Nat) (phys : BitVec 1) (srcs : Store RecSrc) : State :=
  match srcs with
  | [] => s
  | (_, first) :: _ =>
    let groups : BitVec 4 := srcs.foldl (fun g x => g ||| BitVec.ofNat 4 (2 ^ x.1)) 0
    s.programBank t m phys groups first.pm1 first.wsgn first.layer (s.srcRow? p srcs) fun b => { b with srcs }

/-- Write a physical bank of macro `m` again from the records that filled it (R225). -/
def State.rewriteBank (s : State) (p : PartId) (t : TileId) (m : Nat) (phys : BitVec 1) : State :=
  s.programFrom p t m phys (((s.tile t).mac m).bank phys).srcs

/-! ### Resident blocks -/

/-- The address of a section's byte 0 for repairs: where an IMG descriptor copied it, or in the download area. -/
def sectionHome (descs : List (BitVec 256)) (i : Nat) (x : Sect) : Nat × Bool :=
  match descs.find? fun d => fieldN d.toNat 130 130 == 1 && fieldN d.toNat 175 144 == i with
  | some d => (fieldN d.toNat 38 0, false)
  | none => (x.offset.toNat, true)

/-- The records of macro number `j` of a block, by row group. -/
def Block.sources (b : Block) (home : Nat × Bool) (j : Nat) : Store RecSrc :=
  let macs := popcount b.macros
  (onesOf b.rgmask).zipIdx.map fun g => (g.1,
    { addr := home.1 + b.ofs + 16 + (64 * g.2 * macs + j) * b.recLen, stride := macs * b.recLen, rec17 := b.rec17
      down := home.2, pm1 := b.pm1, wsgn := b.wsgn, layer := b.layer })

/-- Fill the active banks that the RESIDENT blocks of a section name on a tile, of the macros in `only`. `plain` holds the
section's bytes when it is sealed. -/
def State.fillBlocks (s : State) (p : PartId) (t : TileId) (home : Nat × Bool) (bs : List Block)
    (plain : Option (List Byte)) (only : Nat → Bool) : State :=
  s.each (bs.filter fun b => b.resident && b.tileIdx == .tile t.val) fun s b =>
    s.each ((onesOf b.macros).zipIdx.filter fun x => only x.1) fun s x =>
      let srcs := b.sources home x.2
      let phys := ((s.tile t).mac x.1).activePhys
      match plain with
      | none => s.programFrom p t x.1 phys srcs
      | some l =>
        let row (r : Nat) : Option (List Byte × Bool) :=
          let a := b.ofs + 16 + ((rowsOf b.rgmask).idxOf r * popcount b.macros + x.2) * b.recLen
          some (slice l a b.recLen, b.rec17)
        s.programBank t x.1 phys b.rgmask b.pm1 b.wsgn b.layer row fun k => { k with srcs := [], sealedSrc := true }

/-! ### Streams, scratchpad, handles, outlier sets -/

/-- The plaintext of the ENC sections, by section index. -/
abbrev Plain := List (Nat × List Byte)

/-- The bytes of a section: the plaintext of an ENC section, the stored bytes of any other. -/
def State.bytesOf (s : State) (p : PartId) (plain : Plain) (i : Nat) (x : Sect) : List Byte :=
  if x.enc then assocGet [] plain i else s.sectBytes p x

/-- A tile's section of a per-variant type for power class `cls`. -/
def variantSect? (all : List Sect) (ty cls t : Nat) : Option Sect :=
  all.find? fun x => decide (x.ty.toNat = ty) && decide (x.variant.toNat = cls + 1) && targetForm x.target == .tile t

/-- Instruction pages and register-initialisation block of a class, with the parity bits of the micro-ops (R124, R201). -/
def State.fillPages (s : State) (p : PartId) (t : TileId) (all : List Sect) (cls : Nat) : State :=
  match variantSect? all 1 cls t.val, variantSect? all 2 cls t.val with
  | some x, some y =>
    let uops := ((uopsOf (s.sectBytes p x)).zipIdx.map fun u => (u.2, u.1)).filter fun u => u.2 != 0
    let reg := s.sectBytes p y
    s.modTile t fun tl => { tl with
      hasImage := true, ibuf := uops, ibufPar := uops.map fun u => (u.1, uopParity u.2)
      qInit := (List.range 8).map fun i => (i, BitVec.ofNat 64 (leAt reg (8 * i) 8))
      nInit := (List.range 4).map fun i => (i, BitVec.ofNat 20 (leAt reg (64 + 4 * i) 4)) }
  | _, _ => s

/-- A tile with an image waits for its gate, to start at index 0 (R131). -/
def Tile.fromIndexZero (tl : Tile) : Tile :=
  if tl.hasImage then
    tl.modSeq fun q => { q with st := .waiting, why := .gate, waitArg := 0, waitUop := none, pc := 0, start := 0 }
  else tl

/-- Pages and initialisation of a class at an admission or a variant refill: the tile starts at index 0 (R131, R202). -/
def State.fillStream (s : State) (p : PartId) (t : TileId) (all : List Sect) (cls : Nat) : State :=
  (s.fillPages p t all cls).modTile t Tile.fromIndexZero

/-- The scratchpad contents and the handle table of a tile; EPOCH keeps its value, PUB is 0 (R237, R241). -/
def State.fillTables (s : State) (p : PartId) (t : TileId) (all : List Sect) (plain : Plain) : State :=
  let open_ (x : Sect × Nat) : Bool := x.1.ty == 0x000A && !x.1.enc && targetForm x.1.target == .tile t.val
  let s := s.each (all.zipIdx.filter open_) fun s x =>
    let l := s.bytesOf p plain x.2 x.1
    s.modTile t fun tl => tl.spWrite 0 l
  match tileSect? all 9 t.val with
  | none => s
  | some x =>
    let l := s.sectBytes p x
    let table := (List.range 32).map fun h =>
      (h, BitVec.ofNat 128 (leAt l (16 * h) 16 + hf (s.handle t h) 63 32 * 2 ^ 32))
    s.modTile t fun tl => { tl with handles := table }

/-- The bases of the sealed regions that an image defines on a tile, by ascending handle. DEDUCED: log 41. -/
def State.sealedBases (s : State) (p : PartId) (all : List Sect) (t : TileId) : List Nat :=
  ((List.range 32).map fun h => s.defHandle p all t.val h).filterMap fun w =>
    if handleValid w && bitN w.toNat 124 then some (handleBase w) else none

/-- The ENC sections whose target serves a tile, in section order. DEDUCED: log 41. -/
def encSects (all : List Sect) (t : TileId) : List (Sect × Nat) :=
  all.zipIdx.filter fun x => x.1.enc && (targetForm x.1.target).tiles [t] == [t]

/-- Each ENC section of a tile goes into the tile's sealed region of the same rank (R203; log entry 41).
DEDUCED: log 41. -/
def State.fillSealed (s : State) (p : PartId) (t : TileId) (all : List Sect) (plain : Plain) : State :=
  s.each ((encSects all t).zip (s.sealedBases p all t)) fun s x =>
    let l := assocGet [] plain x.1.2
    s.modTile t fun tl => tl.spWrite x.2 l

/-- The sections of an outlier list go to macros 0, 1, … in order; a section enters the active set of a VALID bank whose
layer it names (R104, R105; log entry 42). DEDUCED: log 42. -/
def fillSets : Nat → Nat → List Byte → Tile → Tile
  | 0, _, _, tl => tl
  | fuel + 1, m, l, tl =>
    if l.length < 4 then tl
    else
      let b := (tl.mac m).active
      let (n, set) := readSection b l
      let tl := match set with
        | some x => if b.st = .valid ∧ x.layer = b.layer ∧ 4 * n ≤ l.length then
            tl.modMac m fun mc => mc.putSet mc.activePhys x else tl
        | none => tl
      fillSets fuel (m + 1) (l.drop (4 * n)) tl

/-- Fill the active banks of a tile that RESIDENT blocks name, of the macros in `only` (R201, step 4; R207). -/
def State.fillResident (s : State) (p : PartId) (im : Image) (plain : Plain) (t : TileId) (only : Nat → Bool) : State :=
  let all := im.sections
  let weights (x : Sect × Nat) : Bool := x.1.ty == 5 && (targetForm x.1.target).tiles [t] == [t]
  s.each (all.zipIdx.filter weights) fun s x =>
    let l := s.bytesOf p plain x.2 x.1
    s.fillBlocks p t (sectionHome im.descs x.2 x.1) (blocksOf l) (if x.1.enc then some l else none) only

/-- The outlier sets of a tile. -/
def State.fillLists (s : State) (p : PartId) (im : Image) (plain : Plain) (t : TileId) : State :=
  let lists (x : Sect × Nat) : Bool := x.1.ty == 6 && targetForm x.1.target == .tile t.val
  s.each (im.sections.zipIdx.filter lists) fun s x =>
    let l := s.bytesOf p plain x.2 x.1
    s.modTile t fun tl => fillSets 16 0 l tl

/-- What admission gives one tile, in its order: the decrypted sections, then the pages, scratchpad contents and handle table,
the resident banks and the outlier sets. Its scratchpad banks are ON from now (R26, R201, R233). -/
def State.fillTile (s : State) (p : PartId) (im : Image) (plain : Plain) (cls : Nat) (t : TileId) : State :=
  let all := im.sections
  let s := ((s.fillSealed p t all plain).fillStream p t all cls).fillTables p t all plain
  let s := (s.fillResident p im plain t fun _ => true).fillLists p im plain t
  s.modTile t fun tl => { tl with spBanks := freshBanks (s.tileAc t) }

/-- The macros of a tile whose resident bank is not VALID, with the physical bank. -/
def State.unfilled (s : State) (residents : List Nat) (t : TileId) : List (Nat × BitVec 1) :=
  (residents.filter fun k => decide (k / 16 = t.val)).filterMap fun k =>
    let mc := (s.tile t).mac (k % 16)
    if mc.active.st = .valid then none else some (k % 16, mc.activePhys)

/-- The RESIDENT macros of an image (R213). -/
def State.residentsOf (s : State) (p : PartId) (im : Image) (plain : Plain) : List Nat :=
  im.sections.zipIdx.flatMap fun x => if x.1.ty = 5 then residentKeys (blocksOf (s.bytesOf p plain x.2 x.1)) else []

end Sys2Proof.Machine
end

