-- ==== Sys2Proof/Machine/Repair.lean ====
section
/-! DEFINITION. Repairs in service: column steering, retirement of macros and tiles, reprogramming, and hard errors of
HBM (R20 to R26, R116, R224, R225, R270, R271, R490, R510). -/

namespace Sys2Proof.Machine

open Host (Outcome)

/-- The key of a macro in the lists of a partition. -/
def macKey (t : TileId) (m : Nat) : Nat := 16 * t.val + m

/-- A physical bank of a macro is VALID. -/
def Macro.whole (mc : Macro) (phys : BitVec 1) : Bool := (mc.bank phys).st == .valid

/-- A repair waits until before ready (R116, R224, R433, R510). -/
def State.addRepair (s : State) (p : PartId) (x : RepairDue) : State :=
  s.modPart p fun pt => { pt with repairs := RepairDue.into pt.repairs x }

/-- A bank whose records a repair load cannot read: they lie in the download area, where a new delivery stands (R225, R265). -/
def State.copyGone (s : State) (p : PartId) (b : Bank) : Bool :=
  (s.part p).copyLost && b.srcs.any fun x => x.2.down

/-- The admission of the image is repeated before ready (R26, R490). DEDUCED: log 75. -/
def State.askReadmit (s : State) (p : PartId) : State := s.modPart p fun pt => { pt with loadAsked := true, readmit := true }

/-- Write a bank of a macro again; one whose records are gone holds nothing until the admission is repeated (R225, R265,
R490). DEDUCED: log 75. -/
def State.writeBank (s : State) (p : PartId) (t : TileId) (m : Nat) (phys : BitVec 1) : State :=
  if s.copyGone p (((s.tile t).mac m).bank phys) then
    (s.modTile t fun tl => tl.modMac m fun mc => mc.modBank phys Bank.wipe).askReadmit p
  else s.rewriteBank p t m phys

/-- Reprogram the VALID banks of a macro that records filled; a failed write is tried again before ready (R116, R225,
R510). DEDUCED: log 75. -/
def State.reprogram (s : State) (p : PartId) (t : TileId) (m : Nat) (banks : List (BitVec 1)) : State :=
  s.each banks fun s phys =>
    let s := s.writeBank p t m phys
    if ((s.tile t).mac m).whole phys || (s.part p).readmit then s
    else s.addRepair p { key := macKey t m, why := .rewrite [phys] }

/-- The physical banks of a macro that are VALID and have records. -/
def Macro.sourced (mc : Macro) : List (BitVec 1) :=
  [(0 : BitVec 1), 1].filter fun b => (mc.bank b).st == .valid && !(mc.bank b).srcs.isEmpty

/-- A bank that is to hold what it held at the frame's start: the records to write it from, or what stands in it if it was
filled without records, or nothing (R116, step 4). -/
def Bank.toStart (b : Bank) (r : BankRec) : Bank :=
  if r.st = .valid then
    if r.srcs.isEmpty then (if b.st == .valid && b.srcs.isEmpty then b else b.clearLoad)
    else { b with st := .valid, srcs := r.srcs, sealedSrc := r.sealedSrc }
  else b.clearLoad

/-- The banks of a macro as they are to be after a checksum event (R116, step 4). -/
def Macro.toStart (mc : Macro) : Macro := { mc with bank0 := mc.bank0.toStart mc.start0, bank1 := mc.bank1.toStart mc.start1 }

/-- The entries of a list of repairs under the keys that a new mapping gives them; those of a retired unit end, and the other
macro of a slice pair counts one that was retired as a difference found (R21, R116). -/
def moveRepairs (f : Nat → Option Nat) (l : List RepairDue) : List RepairDue :=
  l.filterMap fun x => (f x.key).map fun key =>
    let why : RepairWhy := match x.why with
      | .pair primary other found alone =>
        match f other with | some o => .pair primary o found alone | none => .pair primary key (some true) alone
      | w => w
    { key, why }

/-- Logical macros from `m` on move up by one physical macro: their steering words follow, and their banks hold nothing
(R21). -/
def Tile.shiftMacros (tl : Tile) (m : Nat) : Tile :=
  let old := tl
  (List.range 16).foldl (fun tl k =>
    if k < m then tl
    else
      let next : Macro := if k < 15 then old.mac (k + 1) else {}
      tl.modMac k fun mc => { mc with
        bank0 := { mc.bank0 with steer := next.bank0.steer }, bank1 := { mc.bank1 with steer := next.bank1.steer } }) tl

/-- On a new physical macro, a bank that no records filled, or that is not VALID, holds nothing; `keep` names banks whose
last write failed. -/
def Macro.dropUnsourced (mc : Macro) (keep : List (BitVec 1)) : Macro :=
  let drop (phys : BitVec 1) (b : Bank) : Bank :=
    if b.srcs.isEmpty || (b.st != .valid && !keep.contains phys) then b.wipe else b
  { mc with bank0 := drop 0 mc.bank0, bank1 := drop 1 mc.bank1 }

/-- A bank of a macro is VALID and was filled from a sealed region (R204, R490). -/
def Macro.sealedBank (mc : Macro) : Bool := [mc.bank0, mc.bank1].any fun b => b.st == .valid && b.sealedSrc

/-- Whether the download area still holds the image of a partition (R265). DEDUCED: log 136. -/
def Part.copied (pt : Part) : Bool := pt.image.isSome && !pt.copyLost

/-- A section of the image that a tile is restored from, or only its pages, has a word in hard error (R270). -/
def State.tileHard (s : State) (p : PartId) (im : Image) (t : TileId) (pages : Bool) : Bool :=
  im.sections.any fun x =>
    let ty := x.ty.toNat
    let mine := (targetForm x.target).tiles [t] == [t]
    mine && (((ty == 1 || ty == 2) && decide (x.variant.toNat = (s.part p).cls.toNat + 1)) ||
        (!pages && (ty == 6 || ty == 9 || ty == 0xA))) &&
      s.rangeHard (downloadBase p + x.offset.toNat) x.length.toNat false

/-- A tile whose restore met a hard error waits for R271, and is restored once more; then the fault is partition-fatal. `all`
tells that more than its pages is owed (R270). DEDUCED: log 217. -/
def State.restoreFails (s : State) (p : PartId) (t : TileId) (all : Bool) : State :=
  let again : Bool := (s.part p).restoreFailed.contains t.val
  let s := s.modPart p fun pt => { pt with
    pageReload := (pt.pageReload ++ [t.val]).eraseDups, restoreFailed := (pt.restoreFailed ++ [t.val]).eraseDups
    restoreDue := if all then (pt.restoreDue ++ [t.val]).eraseDups else pt.restoreDue }
  if again then s.partFatal p 17 (s.srcH 0 p.val) else s

/-- A tile that has all it is owed. -/
def State.restored (s : State) (p : PartId) (t : TileId) : State :=
  s.modPart p fun pt => { pt with
    pageReload := pt.pageReload.erase t.val, restoreDue := pt.restoreDue.erase t.val
    restoreFailed := pt.restoreFailed.erase t.val }

/-- What a tile of the partition lacks after its band was off: filled as at admission, every window advancing, and a bank that
could not be written is written again before ready; an encrypted image is admitted again (R235, R369, R490, R510).
DESIGN CHOICE: log 98. -/
def State.restoreTile (s : State) (p : PartId) (t : TileId) : State :=
  match (s.part p).image with
  | none => s
  | some im =>
    if im.encrypted then s.askReadmit p
    else if s.tileHard p im t false then s.restoreFails p t true
    else
      let s := s.fillTile p im [] (s.part p).cls.toNat t
      let s := s.each (s.windowsOf t 1 ++ s.windowsOf t 2) fun s h => s.advance t h false
      let s := s.each (s.unfilled (s.part p).residents t) fun s x =>
        s.addRepair p { key := macKey t x.1, why := .rewrite [x.2] }
      s.restored p t

/-- The pages of a tile are filled again from the image; START stays (R126, R131, R202, R270, R366). DEDUCED: log 165. -/
def State.reloadPages (s : State) (p : PartId) (t : TileId) : State :=
  match (s.part p).image with
  | none => s
  | some im =>
    if s.tileHard p im t true then s.restoreFails p t false
    else (s.fillPages p t im.sections (s.part p).cls.toNat).restored p t

/-- Restores that a hard error held up are made again after R271, where no frame runs (R270). DEDUCED: log 217. -/
def State.retryRestores (s : State) : State :=
  s.each allParts fun s p =>
    let pt := s.part p
    if pt.restoreFailed.isEmpty || pt.run.active || !pt.copied then s
    else
      let ts := (List.finRange 512).filter fun t => pt.restoreFailed.contains t.val && s.tileUp t
      (s.each ts fun s t => if (s.part p).restoreDue.contains t.val then s.restoreTile p t else s.reloadPages p t).tryReady p

/-- A tile whose unit was replaced holds what admission gives it: its accepted writes are lost with its scratchpad. A bank that
could not be written is written again before ready. With no copy of the image, or for an encrypted one, the admission is
repeated instead (R26, R265, R490, R510). DESIGN CHOICE: log 74; DEDUCED: log 75. -/
def State.refillTile (s : State) (p : PartId) (t : TileId) : State :=
  match (s.part p).image with
  | none => s
  | some im =>
    let s := s.each (s.tile t).writes fun s w => s.dropWrite t w rTorn
    let s := (s.unloadTile t).modTile t fun tl => { tl with sp := [], spPar := [] }
    if (s.part p).copyLost || im.encrypted then s.askReadmit p
    else if s.tileHard p im t false then s.restoreFails p t true
    else
      let s := s.fillTile p im [] (s.part p).cls.toNat t
      s.each (s.unfilled (s.part p).residents t) fun s x => s.addRepair p { key := macKey t x.1, why := .rewrite [x.2] }

/-- A repair is journaled: an event (R224, R463). DEDUCED: log 72; DESIGN CHOICE: log 202. -/
def State.repairEvent (s : State) (t : TileId) (unit : Nat) : State :=
  s.raise 0x0010 clsNone (s.srcTile t unit) noIds (s.tileOwner? t) [BitVec.ofNat 8 unit]

/-- The tiles of a cluster from index `i` on. -/
def clusterFrom (c : ClusterId) (i : Nat) : List TileId :=
  (List.finRange 512).filter fun t => decide (clusterOf t = c) && decide (i ≤ t.val % 16)

/-- A tile's banks take the steering words of the physical tile that serves it from now on (R21, R24). -/
def Tile.takeSteering (tl : Tile) (from_ : Tile) : Tile :=
  if tl.macros.isEmpty && from_.macros.isEmpty then tl
  else
    (List.range 16).foldl (fun tl m => tl.modMac m fun mc => { mc with
      bank0 := { mc.bank0 with steer := (from_.mac m).bank0.steer }
      bank1 := { mc.bank1 with steer := (from_.mac m).bank1.steer } }) tl

/-- The new number of a tile when tile `t` of its cluster is retired: none for `t` itself, whose unit is gone, and the units of
the later tiles serve the tiles before them (R21). -/
def retiredTile (t u : Nat) : Option Nat :=
  if u / 16 = t / 16 ∧ t ≤ u then (if u = t then none else some (u - 1)) else some u

/-- Retire a tile to its cluster's spare, or leave it unserved; an image that names an unserved tile is unloaded, and the
partition takes the partition-fatal path (R21, R24 to R26). DESIGN CHOICE: log 74. -/
def State.retireTile (s : State) (t : TileId) : State :=
  let c := clusterOf t
  let i := t.val % 16
  if (s.cluster c).retired = 16 ∧ (s.cluster c).unserved.getLsbD i = false then
    let ts := clusterFrom c i
    let old := s
    let s := s.modCluster c fun x => { x with retired := BitVec.ofNat 5 i, field := true }
    let s := s.each ts fun s u =>
      let next : Tile := match (List.finRange 512).find? fun v => decide (v.val = u.val + 1) && decide (clusterOf v = c) with
        | some v => old.tile v
        | none => {}
      s.modTile u fun tl =>
        { tl.takeSteering next with repair := { next.repair with chkEvents := tl.repair.chkEvents } }
    let s := s.repairEvent t 16
    match s.tileOwner? t with
    | some p =>
      let key (k : Nat) : Option Nat := (retiredTile t.val (k / 16)).map fun u => 16 * u + k % 16
      let s := s.modPart p fun pt => { pt with
        repairs := moveRepairs key pt.repairs, retire := pt.retire.filterMap (retiredTile t.val) }
      s.each ((s.part p).claims ts) fun s u => s.refillTile p u
    | none => s
  else
    let s := s.modCluster c fun x => { x with unserved := x.unserved ||| BitVec.ofNat 16 (2 ^ i), field := true }
    let s := s.repairEvent t 16
    match s.tileOwner? t with
    | some p => if (s.part p).names t then (s.unload p).partFatal p 16 (s.srcTile t 16) else s
    | none => s

/-- Retire a macro to its tile's spare, or the tile when the spare is in use; the banks of the macros that moved are
reprogrammed. `failed` names the banks of the macro whose second write failed. Lost sealed banks come back with a repeated
admission (R21, R25, R26, R490, R510). DESIGN CHOICE: log 74. -/
def State.retireMacro (s : State) (t : TileId) (m : Nat) (failed : List (BitVec 1)) : State :=
  if (s.tile t).repair.retired = 16 then
    let moved := (List.range 16).filter fun k => decide (m ≤ k)
    let lost := moved.any fun k => ((s.tile t).mac k).sealedBank
    let s := s.modTile t fun tl =>
      let tl := (tl.shiftMacros m).modMacs moved fun k mc => mc.dropUnsourced (if k = m then failed else [])
      { tl with repair := { tl.repair with retired := BitVec.ofNat 5 m, field := true } }
    let s := s.repairEvent t m
    match s.tileOwner? t with
    | some p =>
      let key (k : Nat) : Option Nat :=
        if k / 16 = t.val ∧ m ≤ k % 16 then (if k % 16 = m then none else some (k - 1)) else some k
      let s := s.modPart p fun pt => { pt with repairs := moveRepairs key pt.repairs }
      let s := s.each moved fun s k =>
        s.reprogram p t k (((s.tile t).mac k).sourced ++ (if k = m then failed else [])).eraseDups
      if lost && (s.part p).image.isSome then s.askReadmit p else s
    | none => s
  else s.retireTile t

/-- The free spare columns of a bank (R24). DEDUCED: log 73. -/
def freeSpares (steer : BitVec 32) : List Nat :=
  (List.range 4).filter fun n => fieldN steer.toNat (8 * n + 7) (8 * n) == 255

/-- The steering field of spare `n` set to a column, or to 0xFF (R24). -/
def steerField (steer : BitVec 32) (n col : Nat) : BitVec 32 :=
  steer &&& ~~~ (BitVec.ofNat 32 (255 * 2 ^ (8 * n))) ||| BitVec.ofNat 32 (col * 2 ^ (8 * n))

/-- The steering word that repairs faulty physical columns of a bank, or none when they need more than its free spares. A column
that a spare serves already needs none; of the faulty spares one that serves a column is replaced, and none is taken (R24, R25,
R40). DEDUCED: log 73, 99. -/
def steerFor (steer : BitVec 32) (cols : List Nat) : Option (BitVec 32) :=
  let serves (n : Nat) : Nat := fieldN steer.toNat (8 * n + 7) (8 * n)
  let bad := (List.range 4).filter fun n => cols.contains (140 + n)
  let worn := bad.filter fun n => decide (serves n < 140)
  let need := (cols.filter fun c => decide (c < 140) && physCol steer c == c) ++ worn.map serves
  let free := (freeSpares steer).filter fun n => !bad.contains n
  if free.length < need.length then none
  else some ((need.zip free).foldl (fun w x => steerField w x.2 x.1) (worn.foldl (fun w n => steerField w n 255) steer))

/-- The repair of a condemned macro: steering when its columns fit the free spares of the banks they lie in, or else retirement,
and retirement for such a bank without records (R116, R224, R225, R433, R490). `localised` tells that the fault is confined to
those columns. DEDUCED: log 73. -/
def State.repairMacro (s : State) (p : PartId) (t : TileId) (m : Nat) (cols0 cols1 : List Nat) (localised : Bool) :
    State :=
  let mc := (s.tile t).mac m
  let both := (cols0 ++ cols1).eraseDups
  let fits (b : Bank) (cols : List Nat) : Bool :=
    cols.isEmpty || ((steerFor b.steer both).isSome && !(b.st == .valid && b.srcs.isEmpty))
  let steered (b : Bank) (cols : List Nat) : Bank := { b with steer := (steerFor b.steer cols.eraseDups).getD b.steer }
  if localised && !both.isEmpty && fits mc.bank0 cols0 && fits mc.bank1 cols1 then
    let s := s.modTile t fun tl => tl.modMac m fun mc => { mc with
      bank0 := steered mc.bank0 cols0, bank1 := steered mc.bank1 cols1 }
    (s.repairEvent t m).reprogram p t m ((s.tile t).mac m).sourced
  else s.retireMacro t m []

/-- The repair after a checksum event: the banks come back to what they held at the frame's start (R116, steps 3 and 4). -/
def State.repairChecked (s : State) (p : PartId) (t : TileId) (m : Nat) (cols0 cols1 : List Nat) (localised : Bool) : State :=
  (s.modTile t fun tl => tl.modMac m Macro.toStart).repairMacro p t m cols0 cols1 localised

/-- The physical columns that read otherwise than a record would be stored (R217, R221). -/
def Bank.diffCols (b : Bank) (r : Nat) (bytes : List Byte) (rec17 : Bool) : List Nat :=
  let want := (portRow b.steer b.pm1 b.wsgn (!rec17) bytes).1
  let have_ := Store.get 0 b.cells r
  ((List.range 140).map fun p => physCol b.steer p).filter fun c => have_.getLsbD c != want.getLsbD c

/-- The columns in which the rows of a bank differ from their HBM source; none for a bank without records (R116, step 2). -/
def State.readDiffs (s : State) (p : PartId) (b : Bank) : List Nat :=
  if b.st = .valid ∧ b.srcs.isEmpty = false ∧ s.copyGone p b = false then
    ((List.range 256).flatMap fun r =>
      match s.srcRow? p b.srcs r with | some (l, f) => b.diffCols r l f | none => []).eraseDups
  else []

/-- The read-back of one macro of a slice pair: a difference condemns it; without one in either macro the primary is retired,
once both have been read back, and a macro that an event of its own names is retired too (R116, step 3). The other macro's
entry learns what was found. -/
def State.repairPair (s : State) (p : PartId) (t : TileId) (m : Nat) (primary : Bool) (other : Nat) (found : Option Bool)
    (alone : Bool) (cols0 cols1 : List Nat) (localised : Bool) : State :=
  let own : Bool := !(cols0 ++ cols1).isEmpty || !localised
  let tell (x : RepairDue) : RepairDue :=
    match x.why with
    | .pair q o none a => if x.key = other then { x with why := .pair q o (some own) a } else x
    | _ => x
  let s := s.modPart p fun pt => { pt with repairs := pt.repairs.map tell }
  let clear : Bool := !own && found == some false
  if own || (clear && primary) then s.repairChecked p t m cols0 cols1 localised
  else if alone then
    (if clear then s.addRepair p { key := other, why := .checksum } else s).repairChecked p t m [] [] true
  else if clear then s.repairChecked p t (other % 16) [] [] true
  else s

/-- R271 has yet to run on an access that the records of a bank lie in. -/
def State.sourceHard (s : State) (p : PartId) (srcs : Store RecSrc) : Bool :=
  !s.hardNow.isEmpty && srcs.any fun x =>
    let len := 63 * x.2.stride + (if x.2.rec17 then 17 else 16)
    let bad (d : Nat) : Bool := s.hardNow.any fun h => decide (h.1.toNat / 32 = d / 32) && !h.2
    (List.range len).any fun i =>
      if x.2.down then bad (downloadBase p + x.2.addr + i)
      else match s.devAddr? p (x.2.addr + i) with | some d => bad d | none => false

/-- Write the named banks of a macro once more; a bank that fails again retires the macro (R510). -/
def State.writeAgain (s : State) (p : PartId) (t : TileId) (m : Nat) (banks : List (BitVec 1)) : State :=
  let s := s.each banks fun s phys => s.writeBank p t m phys
  let failed := banks.filter fun b => !((s.tile t).mac m).whole b
  if failed.isEmpty || (s.part p).readmit then s else s.retireMacro t m failed

/-- A repair that waits until R271 has run for a hard error in its source (R510). -/
def State.repairWaits (s : State) (p : PartId) (mc : Macro) (x : RepairDue) : Bool :=
  match x.why with
  | .rewrite banks => banks.any fun b => s.sourceHard p (mc.bank b).srcs
  | _ => false

/-- Before ready, firmware repairs a macro that a check condemned, and writes again a bank whose write failed; a second
failure retires the macro. After a checksum event both banks are read back and compared with their HBM source, whatever
VerifyInterval holds; `cols0` and `cols1` are columns in which cells read otherwise than they were written. After a verify its
findings decide (R116, R223, R224, R433, R510). -/
def execWeightRepair (t : TileId) (m : MacroId) (cols0 cols1 : List (BitVec 8)) (localised : Bool) (s : State) :
    Outcome State Fault Refusal :=
  .next (
    match s.tileOwner? t with
    | none => s
    | some p =>
      match (s.part p).repairs.find? fun x => decide (x.key = macKey t m.val) with
      | none => s
      | some x =>
        let mc := (s.tile t).mac m.val
        if s.live = true ∧ (s.part p).run.active = false ∧ s.repairWaits p mc x = false then
          let s := s.modPart p fun pt => { pt with repairs := pt.repairs.erase x }
          let c0 := cols0.map BitVec.toNat
          let c1 := cols1.map BitVec.toNat
          let r0 := (s.readDiffs p mc.bank0 ++ c0).eraseDups
          let r1 := (s.readDiffs p mc.bank1 ++ c1).eraseDups
          let s := match x.why with
            | .checksum => s.repairChecked p t m.val r0 r1 localised
            | .march => s.repairMacro p t m.val c0 c1 localised
            | .pair primary other found alone => s.repairPair p t m.val primary other found alone r0 r1 localised
            | .verify v0 v1 blind =>
              if v0.isEmpty && v1.isEmpty && !blind then s.reprogram p t m.val ((s.tile t).mac m.val).sourced
              else s.repairMacro p t m.val v0 v1 (!blind)
            | .rewrite banks => s.writeAgain p t m.val banks
          s.tryReady p
        else s)

/-! ### Hard errors of HBM (R271) -/

/-- The partition that owns a slice. -/
def State.sliceOwner? (s : State) (sl : Nat) : Option PartId := allParts.find? fun p => (s.slices p).contains sl

/-- The IMG descriptor that holds a partition address. -/
def State.imgDesc? (s : State) (p : PartId) (a : Nat) : Option (BitVec 256) :=
  match (s.part p).image with
  | none => none
  | some im => im.descs.find? fun d => fieldN d.toNat 130 130 == 1 && decide (fieldN d.toNat 38 0 ≤ a) &&
      decide (a < fieldN d.toNat 38 0 + fieldN d.toNat 101 64)

/-- Restore a 32 B access after its row was repaired: from the image inside an IMG descriptor, else zero. The Bool tells
that R265 leaves no copy, or that the section's digest fails. -/
def State.restoreAccess (s : State) (a : Nat) : State × Bool :=
  let zero := { s with hbm := Mem.clear s.hbm a 32 }
  match s.sliceOwner? (a / 2 ^ 32) with
  | none => (zero, false)
  | some p =>
    let addr := (s.slices p).idxOf (a / 2 ^ 32) * 2 ^ 32 + a % 2 ^ 32
    match s.imgDesc? p addr, (s.part p).image with
    | some d, some im =>
      match im.sections[fieldN d.toNat 175 144]? with
      | none => (zero, false)
      | some x =>
        if (s.part p).copyLost || s.rangeHard (downloadBase p + x.offset.toNat) x.length.toNat false || Config.sha384 (s.sectBytes p x) != x.digest then (s, true)
        else
          let ofs := addr - fieldN d.toNat 38 0
          let l := s.imgBytes p (x.offset.toNat + ofs) (min 32 (x.length.toNat - ofs))
          (zero.hbmWrite a l, false)
    | _, _ => (zero, false)

/-- The row is repaired and its repair recorded in the field layer: every access of it is restored, and none of them fails any
longer. -/
def State.repairRow (s : State) (accs : List Nat) (src : BitVec 24) : State :=
  let s := { s with
    hardNow := s.hardNow.filter fun x => !accs.contains x.1.toNat
    rowRepairs := s.rowRepairs ++ [accs.map (BitVec.ofNat 39)] }
  let s := s.raise 0x0010 clsNone src noIds none (leBytes 8 (accs.headD 0))
  accs.foldl (fun s a =>
    let (s, bad) := s.restoreAccess a
    if bad then
      match s.sliceOwner? (a / 2 ^ 32) with
      | some p => if (s.part p).image.isSome then s.partFatal p 18 src else s
      | none => s
    else s) s

/-- Before ready, firmware reads a failing access three more times; it is transient, or its row is repaired and restored,
or the fault is fatal, or the access is kept as bad (R271). DEDUCED: log 76. -/
def execHbmHardErrorRepair (a : HbmAddr) (rereads : List Bool) (spareRow : Bool) (rowBytes : List HbmAddr) (s : State) :
    Outcome State Fault Refusal :=
  if hbmExists a then
    .next (
      let acc := accessOf a
      let sl := acc.toNat / 2 ^ 32
      let src := s.srcCtrl (ctrlOf a)
      if (s.hardNow.any fun x => decide (x.1 = acc)) = false then s
      else
        let good : Bool := decide (3 ≤ rereads.length) && (rereads.take 3).all id
        let s :=
          if good then
            { s with hardNow := s.hardNow.filter (fun x => !decide (x.1 = acc)), transients := s.transients ++ [acc] }
          else if sl = 70 then s.devFatal 4 src
          else if spareRow then
            s.repairRow ((acc :: (rowBytes.filter hbmExists).map accessOf).map BitVec.toNat).eraseDups src
          else if sl < 62 then
            match s.sliceOwner? sl with
            | some p => s.partFatal p 18 src
            | none => s
          else { s with hardNow := s.hardNow.filter (fun x => !decide (x.1 = acc)), badAccess := s.badAccess ++ [acc] }
        let s := s.retryRestores
        match s.sliceOwner? sl with
        | some p => s.tryReady p
        | none => s)
  else .fault (.noSuchHbmAddress a)

end Sys2Proof.Machine
end

