-- ==== Sys2Proof/Machine/Admission.lean ====
section
/-! DEFINITION. Admission of images: stages 1 to 9, refills of variants (R190 to R204, R265, R270, R402, R408, R510). -/

namespace Sys2Proof.Machine

open Host (Outcome)

/-! ### Results (R197) -/

/-- STATUS codes (R197). -/
def stAdmitted : BitVec 16 := 0x0000
/-- FORMAT -/
def stFormat : BitVec 16 := 0x0001
/-- PART -/
def stPart : BitVec 16 := 0x0002
/-- KEY -/
def stKey : BitVec 16 := 0x0003
/-- SIG_RSA -/
def stSigRsa : BitVec 16 := 0x0004
/-- SIG_SLH -/
def stSigSlh : BitVec 16 := 0x0005
/-- ROLLBACK -/
def stRollback : BitVec 16 := 0x0006
/-- DIGEST -/
def stDigest : BitVec 16 := 0x0007
/-- STRUCTURE -/
def stStructure : BitVec 16 := 0x0008
/-- RESOURCES -/
def stResources : BitVec 16 := 0x0009
/-- TIMING -/
def stTiming : BitVec 16 := 0x000A
/-- DECRYPT -/
def stDecrypt : BitVec 16 := 0x000B
/-- BUSY -/
def stBusy : BitVec 16 := 0x000D

/-- The record after a BUSY: that of the admission in hand, which has no LOADNS, or of none (R197, R200). -/
def Part.busyResult (pt : Part) : AdmResult :=
  match pt.admission with
  | some a => { status := stBusy, stage := pt.result.stage, eligible := a.eligible, sect := 0xFFFFFFFF }
  | none => { status := stBusy, stage := 1, sect := 0xFFFFFFFF }

/-- A result without a place. -/
def plainResult (status : BitVec 16) (stage : BitVec 8) : AdmResult := { status, stage, sect := 0xFFFFFFFF }

/-- A result that names a section. -/
def sectResult (status : BitVec 16) (stage : BitVec 8) (sect : Nat) : AdmResult :=
  { status, stage, sect := BitVec.ofNat 32 sect }

/-- A result that names a place. -/
def locResult (status : BitVec 16) (stage : BitVec 8) (l : Loc) : AdmResult :=
  { status, stage, sect := BitVec.ofNat 32 l.sect, offset := BitVec.ofNat 64 l.ofs, bit := BitVec.ofNat 8 l.bit
    locus := BitVec.ofNat 8 l.locus }

/-! ### Keys and signatures (R189, R190, R193, R398) -/

/-- The bytes of a signature block at an offset of a download area. -/
def State.sigBlock (s : State) (p : PartId) (ofs : Nat) : List Byte := s.imgBytes p ofs sigLen

/-- The digests of the two keys that a signature block carries. -/
def blockKeys (l : List Byte) : BitVec 384 × BitVec 384 :=
  (digest384 (Config.sha384 (slice l 0 388)), digest384 (Config.sha384 (slice l 772 48)))

/-- The first signature of a block that does not verify over a message: RSA before SLH-DSA. DESIGN CHOICE: log 6. -/
def sigFault (l msg : List Byte) : Option (BitVec 16) :=
  if !Config.rsaVerify (slice l 0 388) msg (slice l 388 384) then some stSigRsa
  else if !Config.slhVerify (slice l 772 48) msg (slice l 820 16224) then some stSigSlh
  else none

/-- The signed message of an image: header and manifest (R189). -/
def State.signedPart (s : State) (p : PartId) : List Byte := s.imgBytes p 0 (64 + s.img p 24 4)

/-- Stages 2 to 7: the result of the first that fails (R193). -/
def State.stages2to7 (s : State) (p : PartId) : Option AdmResult :=
  let block := s.sigBlock p (s.img p 32 8)
  let keys := blockKeys block
  let pt := s.part p
  if s.img p 88 4 ≠ 0x9600 ∨ s.fwVersion < s.img p 92 4 then some (plainResult stPart 2)
  else if keys.1 ≠ digest384 (s.imgBytes p 128 48) ∨ keys.2 ≠ digest384 (s.imgBytes p 176 48) ∨ keys.1 ≠ pt.ownerRsa ∨
      keys.2 ≠ pt.ownerSlh then some (plainResult stKey 3)
  else
    match sigFault block (s.signedPart p) with
    | some st => some (plainResult st 4)
    | none =>
      if s.img p 85 1 < (Store.get 0 s.otp.imgSvn (s.img p 84 1)).toNat then some (plainResult stRollback 5)
      else
        let bad (x : Sect × Nat) : Bool :=
          s.rangeHard (downloadBase p + x.1.offset.toNat) x.1.length.toNat false ||
            Config.sha384 (s.sectBytes p x.1) != x.1.digest
        match (s.sects p).zipIdx.find? bad with
        | some x => some (sectResult stDigest 6 x.2)
        | none => (s.stage7 p).map fun l => locResult stStructure 7 l

/-! ### Stage 8 (R177, R195, R196, R198) -/

/-- The shortfall of a pair in ns: claimed rounded up, available rounded down (R198). -/
def pairShort (nominal : BitVec 32) (div2 deadline reserve : Nat) : Nat × Nat :=
  (ceilDiv (nominal24 nominal div2) 24, (10000 - reserve) * deadline / 10000)

/-- The image in the download area, with the lists that the machine uses. -/
def State.readImage (s : State) (p : PartId) : Image :=
  let all := s.sects p
  let list (ty : Nat) : List Nat := match partSect? all ty with | some x => recs16 (s.sectBytes p x) | none => []
  { digest := Config.sha384 (s.signedPart p), imageId := BitVec.ofNat 128 (s.img p 64 16), version := BitVec.ofNat 32 (s.img p 80 4)
    line := BitVec.ofNat 8 (s.img p 84 1), svn := BitVec.ofNat 8 (s.img p 85 1), commitSvn := bitN (s.img p 86 1) 0
    encrypted := bitN (s.img p 86 1) 1, variants := BitVec.ofNat 3 (s.img p 87 1), entryBase := s.entryBase p
    nominal := (List.range 3).map fun c => BitVec.ofNat 32 (s.img p (96 + 4 * c) 4)
    deadline := BitVec.ofNat 32 (s.img p 108 4), reserve := BitVec.ofNat 16 (s.img p 112 2)
    overrun := BitVec.ofNat 8 (s.img p 114 1), claims := s.claimsOf p, sections := all
    points := (list 3).map (BitVec.ofNat 128), grants := (list 4).map (BitVec.ofNat 128)
    descs := match partSect? all 0xB with
      | some x => let l := s.sectBytes p x; (List.range (l.length / 32)).map fun i => BitVec.ofNat 256 (leAt l (32 * i) 32)
      | none => [] }

/-- The classes of an image that pass under a deadline and reserve: at some divider from 8 to 16, or in fixed-frequency
mode the pinned pair alone (R177, R196). DEDUCED: log 78. -/
def Image.eligible (im : Image) (pinned : Option (Nat × Nat)) (deadline reserve : Nat) : BitVec 3 :=
  let ok (c : Nat) : Bool :=
    im.variants.getLsbD c &&
      (match pinned with
      | some (div2, cls) => decide (cls = c) && pairPasses (im.nominal.getD c 0) div2 deadline reserve
      | none => pairPasses (im.nominal.getD c 0) 16 deadline reserve)
  BitVec.ofNat 3 ((List.range 3).foldl (fun n c => if ok c then n + 2 ^ c else n) 0)

/-- The served tiles of a mask of clusters. -/
def State.servedIn (s : State) (mask : Nat) : Nat :=
  ((List.finRange 512).filter fun t => mask.testBit (clusterOf t).val && s.served t).length

/-- The bits of a mask that another lacks. -/
def maskShort (claim have_ : Nat) : Nat := (BitVec.ofNat 64 claim &&& ~~~ (BitVec.ofNat 64 have_)).toNat

/-- The claim entries that fall short, by ascending code (R195, R198). -/
def State.claimShorts (s : State) (p : PartId) (im : Image) : List Short :=
  let mask := (s.clusterMask p).toNat
  let named := Store.get 0 im.claims 1
  let count (code have_ : Nat) : List Short :=
    let n := Store.get 0 im.claims code
    if n ≤ have_ then []
    else [{ code := BitVec.ofNat 16 code, byte2 := 0, claimed := BitVec.ofNat 64 n, available := BitVec.ofNat 64 have_
            short := BitVec.ofNat 64 (n - have_) }]
  let masked (code have_ : Nat) : List Short :=
    let n := Store.get 0 im.claims code
    let lack := maskShort n have_
    if lack = 0 then []
    else [{ code := BitVec.ofNat 16 code, byte2 := 0, claimed := BitVec.ofNat 64 n, available := BitVec.ofNat 64 have_
            short := BitVec.ofNat 64 lack }]
  masked 1 mask ++ count 2 (s.slices p).length ++ count 3 (popcount (s.coreMask p)) ++ count 4 (popcount (s.vcMask p)) ++
    masked 5 (s.portMask p).toNat ++ count 6 (32 * s.servedIn mask) ++ count 7 1024 ++
    masked 8 (2 ^ (s.gateGroup p).val) ++ count 9 (2 ^ 20 * s.servedIn named)

/-- The timing entries of ineligible variants (R198). -/
def State.timingShorts (s : State) (p : PartId) (im : Image) (eligible : BitVec 3) : List Short :=
  let pin := s.pinned p
  ((List.range 3).filter fun c => im.variants.getLsbD c && !eligible.getLsbD c &&
      (match pin with | some (_, k) => decide (k = c) | none => true)).map fun c =>
    let x := pairShort (im.nominal.getD c 0) (match pin with | some (d, _) => d | none => 16) im.deadline.toNat
      im.reserve.toNat
    { code := 0x10, byte2 := BitVec.ofNat 8 c, claimed := BitVec.ofNat 64 x.1, available := BitVec.ofNat 64 x.2
      short := BitVec.ofNat 64 (x.1 - x.2) }

/-- The tiles that an image names, by index: those that its sections target and that their load blocks name. A whole-cluster
section serves the served tiles of its cluster and names no other (R188, R195). -/
def State.namedTiles (s : State) (p : PartId) (im : Image) (plain : Plain) : List Nat :=
  (im.sections.zipIdx.flatMap fun x =>
    (match targetForm x.1.target with | .tile t => [t] | _ => []) ++
      (if x.1.ty = 5 then
        (blocksOf (s.bytesOf p plain x.2 x.1)).filterMap fun b => match b.tileIdx with | .tile t => some t | _ => none
      else [])).eraseDups

/-- The unserved-tiles entries, one for each cluster (R198). -/
def State.unservedShorts (s : State) (p : PartId) (im : Image) (plain : Plain) : List Short :=
  let named := s.namedTiles p im plain
  (List.finRange 32).filterMap fun c =>
    let want := (List.range 16).foldl (fun n i => if named.contains (16 * c.val + i) then n + 2 ^ i else n) 0
    let have_ := (~~~ (s.cluster c).unserved).toNat
    let lack := maskShort want have_
    if lack = 0 then none
    else some ({ code := 0x11, byte2 := BitVec.ofNat 8 c.val, claimed := BitVec.ofNat 64 want
                 available := BitVec.ofNat 64 have_, short := BitVec.ofNat 64 lack } : Short)

/-- A window ID names a write window of an image on this device and partition. -/
def State.namesWindow (s : State) (p : PartId) (im : Image) (win : Nat) : Bool :=
  decide (win / 65536 = s.devNum.toNat) && (s.defWindow p im.sections (win % 65536)).isSome &&
    (match tileOfBits? (win % 65536) with | some t => s.tileOwner? t == some p | none => false)

/-- The trigger-window entries (R198, R350). -/
def State.triggerShorts (s : State) (p : PartId) (im : Image) : List Short :=
  (List.range 8).filterMap fun i =>
    let w := s.vval p 0x18 (i + 2)
    if bitN w 31 && !s.namesWindow p im (w % 2 ^ 24) then
      some { code := 0x12, byte2 := BitVec.ofNat 8 (i + 1), claimed := BitVec.ofNat 64 (w % 2 ^ 24), available := 0
             short := BitVec.ofNat 64 (w % 2 ^ 24) }
    else none

/-- Bands that hold clusters which an image claims. -/
def claimedBands (im : Image) : List BandId :=
  (List.finRange 16).filter fun b => (Store.get 0 im.claims 1).testBit (2 * b.val) ||
    (Store.get 0 im.claims 1).testBit (2 * b.val + 1)

/-- The model key of an image's record: that of the entry whose digest is that of the device's RSA identity key, decrypted with the
identity private key (R405). DESIGN CHOICE: log 6. -/
def State.modelKey? (s : State) (p : PartId) (im : Image) : Option (List Byte) :=
  match im.sections.find? fun x => x.ty == 0x000C, s.flash.identity, s.island.sram.identity with
  | some k, some ids, some priv =>
    let l := s.sectBytes p k
    let mine := Config.sha384 ids.rsaPub
    match (List.range (leAt l 0 4)).find? fun i => slice l (16 + 432 * i) 48 == mine with
    | some i => Config.oaepDecrypt priv im.imageId (slice l (64 + 432 * i) 384)
    | none => none
  | _, _, _ => none

/-- Stage 9 begins: the model key of an encrypted image is held in secure SRAM (R405). -/
def State.takeModelKey (s : State) (p : PartId) (im : Image) : State :=
  match s.modelKey? p im with
  | some key => { s with island := { s.island with sram := { s.island.sram with
      modelKeys := Store.set s.island.sram.modelKeys p.val key } } }
  | none => s

/-- Stage 9 begins once no frame of the partition runs and no ready of it is out, for a ready is binding: the image is
unloaded (R201, step 1; R308). DEDUCED: log 138. -/
def State.enterLoad (s : State) (p : PartId) : State :=
  let pt := s.part p
  match pt.admission with
  | some a =>
    if a.atStage8 = false ∧ pt.result.stage ≠ 9 ∧ pt.run.active = false ∧ pt.armed = false ∧
        pt.ready = false ∧ pt.slackStopped = false then
      ((s.unload p).takeModelKey p a.image).modPart p fun pt => { pt with
        st := if pt.st = .halted then .halted else .loading, result := { pt.result with stage := 9 } }
    else s
  | none => s

/-- Stage 8: wait for a band's self-test, fail with every shortfall, or pass to stage 9 (R195, R196, R200). -/
def State.stage8 (s : State) (p : PartId) (im : Image) : State :=
  if (claimedBands im).any fun b => s.dom b.val == .switching && !(s.band b).draining then
    s.modPart p fun pt => { pt with
      admission := some { atStage8 := true, image := im, eligible := 0 }, result := plainResult 0 8 }
  else
    let eligible := im.eligible (s.pinned p) im.deadline.toNat im.reserve.toNat
    let lack := s.claimShorts p im
    let tiles := s.unservedShorts p im []
    let trig := s.triggerShorts p im
    let res : AdmResult := { plainResult 0 8 with eligible }
    if lack.isEmpty && tiles.isEmpty && trig.isEmpty && eligible != 0 then
      (s.modPart p fun pt => { pt with
        admission := some { atStage8 := false, image := im, eligible }, result := res }).enterLoad p
    else
      let status := if lack.isEmpty && tiles.isEmpty && trig.isEmpty then stTiming else stResources
      s.modPart p fun pt => { pt with
        admission := none
        result := { res with status, shorts := lack ++ s.timingShorts p im eligible ++ tiles ++ trig } }

/-- The download area holds a control record (R402). -/
def State.isControl (s : State) (p : PartId) : Bool :=
  let m := s.img p 0 4
  decide (m = 0x3145544A ∨ m = 0x314C544A ∨ m = 0x3141544A)

/-- The island takes an ImageLoad of a partition: the device is in service and the guest runs. -/
def State.mayLoad (s : State) (p : PartId) : Bool :=
  s.phase == .service && !s.transition && s.enabled p && (s.part p).guestBooted && (s.part p).loadAsked &&
    !(s.part p).slackStopped

/-- An admission of the partition runs, or an enrolment that its area held waits for its boundary (R200, R403). -/
def State.loadBusy (s : State) (p : PartId) : Bool :=
  (s.part p).admission.isSome || allParts.any fun q =>
    match (s.part q).enrolDue with | some x => x.asker == p | none => false

/-- ImageLoad acts on an image: a raise in hand is complete before it; stages 1 to 8 (R191, R193, R199, R200, R402, R408). A control record is left to its own
command. DEDUCED: log 77. -/
def execImageLoad (p : PartId) (s : State) : Outcome State Fault Refusal :=
  .next (if s.mayLoad p = true then
      if s.loadBusy p then
        s.modPart p fun pt => { pt with loadAsked := false, result := pt.busyResult }
      else if s.isControl p then s
      else
        let s := s.finishRaise.modPart p fun pt => { pt with loadAsked := false }
        let fail (r : AdmResult) : State := s.modPart p fun pt => { pt with result := r }
        if s.img p 0 4 = 0x314A544A ∧ s.lcState ≠ 2 then fail (plainResult stStructure 1)
        else
          match s.stage1 p with
          | some l => fail (locResult stFormat 1 l)
          | none =>
            match s.stages2to7 p with
            | some r => fail r
            | none => s.stage8 p (s.readImage p)
    else s)

/-- An admission that waits at stage 8 continues when no claimed band is in self-test any longer (R200). -/
def execAdmissionStage8Resume (p : PartId) (s : State) : Outcome State Fault Refusal :=
  .next (
    match (s.part p).admission with
    | some a => if s.phase = .service ∧ a.atStage8 = true then s.stage8 p a.image else s
    | none => s)

/-! ### Stage 9 (R201 to R203, R510) -/

/-- End a load with a failure: the partition is left with no image. -/
def State.failLoad (s : State) (p : PartId) (r : AdmResult) : State :=
  ((s.unload p).dropModelKey p).modPart p fun pt => { pt with
    admission := none, result := { r with eligible := pt.result.eligible }
    st := if pt.st = .loading then .empty else pt.st }

/-- Some HBM access that stage 9 makes for a section is in hard error: in the download area, or where an IMG descriptor copies
the section to (R270, R510). -/
def State.stage9Hard (s : State) (p : PartId) (im : Image) (x : Sect × Nat) : Bool :=
  s.rangeHard (downloadBase p + x.1.offset.toNat) x.1.length.toNat false ||
    im.descs.any fun d => fieldN d.toNat 130 130 == 1 && fieldN d.toNat 175 144 == x.2 &&
      (s.partHard p (fieldN d.toNat 38 0) x.1.length.toNat true || s.partHard p (fieldN d.toNat 38 0) x.1.length.toNat false)

/-- Copy the IMG sections to their places (R201, step 2; R264). -/
def State.copyImages (s : State) (p : PartId) (im : Image) : State :=
  s.each im.descs fun s d =>
    if fieldN d.toNat 130 130 = 1 then
      match im.sections[fieldN d.toNat 175 144]? with
      | some x => s.partWrite p (fieldN d.toNat 38 0) (s.sectBytes p x)
      | none => s
    else s

/-- Decrypt the ENC sections; or the section that fails (R203, R405). DESIGN CHOICE: log 6. -/
def State.decrypt (s : State) (p : PartId) (im : Image) : Except Nat Plain :=
  let enc := im.sections.zipIdx.filter fun x => x.1.enc
  match im.sections.zipIdx.find? fun x => x.1.ty == 0x000C with
  | none => .ok []
  | some (_, ki) =>
    match s.island.sram.modelKeys.find? fun x => decide (x.1 = p.val) with
    | none => .error ki
    | some (_, key) =>
      enc.foldl (fun acc x =>
        match acc with
        | .error e => .error e
        | .ok l =>
          match Config.gcmDecrypt key x.1.iv (s.imgBytes p (im.entryBase + 112 * x.2) 84) (s.sectBytes p x.1) x.1.tag with
          | some b => .ok (l ++ [(x.2, b)])
          | none => .error x.2) (.ok [])

/-- The sealed regions that an image defines on a tile: their lengths. -/
def State.sealedLens (s : State) (p : PartId) (im : Image) (t : TileId) : List Nat :=
  ((List.range 32).map fun h => s.defHandle p im.sections t.val h).filterMap fun w =>
    if handleValid w && bitN w.toNat 124 then some (handleLen w) else none

/-- The first fault of the decrypted sections: one that has no sealed region of its rank on a tile, or a shorter one, or a
fault in its bytes (R194, R203, R207). -/
def State.plainFault (s : State) (p : PartId) (im : Image) (plain : Plain) : Option Loc :=
  let all := im.sections
  let tiles := (im.claimed (s.tilesOf p)).filter s.served
  let keys (i : Nat) : List Nat := all.zipIdx.flatMap fun y =>
    if y.1.ty = 5 ∧ (y.2 < i ∨ (y.1.enc = false ∧ y.2 ≠ i)) then residentKeys (blocksOf (s.bytesOf p plain y.2 y.1)) else []
  (all.zipIdx.filter fun x => x.1.enc).findSome? fun x =>
    let noRoom := tiles.any fun t =>
      let mine := encSects all t
      match mine.findIdx? fun y => decide (y.2 = x.2) with
      | some r => decide ((s.sealedLens p im t).getD r 0 < x.1.length.toNat)
      | none => false
    if noRoom then some ({ locus := 1, sect := x.2, ofs := im.entryBase + 112 * x.2 + 16, bit := 0 } : Loc)
    else (s.sectFaults p all x.1 (keys x.2) (assocGet [] plain x.2)).head?.map fun f =>
      { locus := 0, sect := x.2, ofs := f.1, bit := f.2 }

/-- Fill every claimed tile (R201, step 4). -/
def State.fillAll (s : State) (p : PartId) (im : Image) (plain : Plain) (cls : Nat) : State :=
  s.each ((im.claimed (s.tilesOf p)).filter s.served) fun s t => s.fillTile p im plain cls t

/-- Resident banks that failed to fill are written once more from the same records, then retired with their macro or tile, and
the replacement's banks are written; false when a tile of the image is left unserved (R510). `fuel` bounds the attempts. -/
def State.settleFill (p : PartId) (im : Image) (plain : Plain) (cls : Nat) : Nat → State → State × Bool
  | 0, s => (s, true)
  | fuel + 1, s =>
    let keys := s.residentsOf p im plain
    match ((im.claimed (s.tilesOf p)).filter s.served).findSome? fun t => (s.unfilled keys t).head?.map fun x => (t, x) with
    | none => (s, true)
    | some (t, m, phys) =>
      let again := s.fillResident p im plain t fun k => k == m
      if ((again.tile t).mac m).whole phys then State.settleFill p im plain cls fuel again
      else
        let macroFree : Bool := (again.tile t).repair.retired == 16
        let s := again.retireMacro t m [phys]
        if s.served t = false then (s, false)
        else
          let s := if macroFree then s.fillResident p im plain t fun k => decide (m ≤ k)
            else s.each ((clusterFrom (clusterOf t) (t.val % 16)).filter fun u => (im.claimed (s.tilesOf p)).contains u) fun s u =>
              s.fillTile p im plain cls u
          State.settleFill p im plain cls fuel s

/-- The class of the first gate: the pinned one, the one power control wants when it is eligible, or the lowest eligible
one (R201, R202, R377). DEDUCED: log 80. -/
def State.firstClass (s : State) (p : PartId) (eligible : BitVec 3) : Nat :=
  match s.pinned p with
  | some (_, c) => c
  | none =>
    let w := (s.part p).wantCls.toNat
    if eligible.getLsbD w then w else ((List.range 3).find? fun c => eligible.getLsbD c).getD 0

/-- The image is recorded, the raise of the SVN counter is journaled, and the dictionary takes the image's values
(R191, R201, step 5). DESIGN CHOICE: log 79; DEDUCED: log 194, 175. -/
def State.recordImage (s : State) (p : PartId) (im : Image) (eligible : BitVec 3) (cls : Nat) (residents : List Nat) :
    State :=
  let s := s.finishRaise
  let raised : BitVec 6 := BitVec.ofNat 6 im.svn.toNat
  let s := if im.commitSvn && decide ((Store.get 0 s.otp.imgSvn im.line.toNat).toNat < im.svn.toNat) then
      { s with otp := { s.otp with raise := some (im.line.toNat, raised) } }
    else s
  let dict := Store.set (Store.set (Store.set s.dict (vkey p.val 0x10 1) im.deadline.toNat) (vkey p.val 0x10 2)
    im.reserve.toNat) (vkey p.val 0x10 3) im.overrun.toNat
  let ns := Config.freeWord s.freeCtr
  let s := (({ s with dict }).drawn).dropModelKey p
  let div2 : BitVec 8 := match s.pinned p with | some (d, _) => BitVec.ofNat 8 d | none => (s.part p).nextDiv2
  let div2 := if pairPasses (im.nominal.getD cls 0) div2.toNat im.deadline.toNat im.reserve.toNat then div2 else 16
  s.modPart p fun pt => { pt with
    image := some im, eligible, cls := BitVec.ofNat 2 cls, wantCls := BitVec.ofNat 2 cls, nextDiv2 := div2
    planDiv2 := div2, planCls := BitVec.ofNat 2 cls, meas := []
    residents, fromZero := true, copyLost := false, admission := none, refillTries := 0, points := [], repairs := []
    restoreDue := [], restoreFailed := []
    readmit := false, retire := [], pageReload := [], boundaryDue := !pt.area.queue.isEmpty
    st := if pt.st = .halted then .halted else .idle
    result := { plainResult stAdmitted 9 with eligible, loadNs := ns } }

/-- Stage 9: copy, decrypt, fill, record; then the partition reports ready (R201 to R203, R270, R510).
DEDUCED: log 175. -/
def execAdmissionLoad (p : PartId) (s : State) : Outcome State Fault Refusal :=
  .next (State.startOrders (
    let s := s.enterLoad p
    let pt := s.part p
    match pt.admission with
    | none => s
    | some a =>
      if s.phase = .service ∧ a.atStage8 = false ∧ pt.result.stage = 9 ∧ pt.slackStopped = false then
        let im := a.image
        match im.sections.zipIdx.find? fun x => s.stage9Hard p im x with
        | some x => s.failLoad p (sectResult stDigest 9 x.2)
        | none =>
          let s := s.copyImages p im
          match s.decrypt p im with
          | .error k => s.failLoad p (sectResult stDecrypt 9 k)
          | .ok plain =>
            match s.plainFault p im plain with
            | some l => s.failLoad p (locResult stStructure 9 l)
            | none =>
              let cls := s.firstClass p a.eligible
              let unserved (s : State) : AdmResult := { plainResult stResources 9 with shorts := s.unservedShorts p im plain }
              if s.unservedShorts p im plain ≠ [] then s.failLoad p (unserved s)
              else
                match State.settleFill p im plain cls 2048 (s.fillAll p im plain cls) with
                | (s, false) => s.failLoad p (unserved s)
                | (s, true) => (s.recordImage p im a.eligible cls (s.residentsOf p im plain)).tryReady p
      else s) p)

/-- The pages of another variant are filled from the image in the download area; until then the partition is not ready
(R202, R265, R270). DEDUCED: log 75; DESIGN CHOICE: log 93. -/
def execVariantRefill (p : PartId) (cls : BitVec 2) (s : State) : Outcome State Fault Refusal :=
  .next (
    let pt := s.part p
    match pt.image with
    | none => s
    | some im =>
      if s.live = true ∧ pt.run.active = false ∧ pt.armed = false ∧ pt.ready = false ∧ pt.slackStopped = false ∧
          pt.wantCls = cls ∧
          pt.cls ≠ cls ∧ pt.eligible.getLsbD cls.toNat = true ∧ pt.copyLost = false then
        let hard := im.sections.any fun x => decide (x.ty = 1 ∨ x.ty = 2) && decide (x.variant.toNat = cls.toNat + 1) &&
          s.rangeHard (downloadBase p + x.offset.toNat) x.length.toNat false
        if hard then
          let s := s.modPart p fun pt => { pt with refillTries := pt.refillTries + 1 }
          if pt.refillTries = 0 then s else s.partFatal p 17 (s.srcH 0 p.val)
        else
          let s := s.each (s.imageTiles p) fun s t => s.fillStream p t im.sections cls.toNat
          (s.modPart p fun pt => { pt with cls := cls, fromZero := true, refillTries := 0 }).tryReady p
      else s)

end Sys2Proof.Machine
end

