-- ==== Sys2Proof/Machine/Slack.lean ====
section
/-! DEFINITION. Slack stops: triggers, stop messages, the stop itself, scan-out into the capture area (R315, R471 to
R478, R487, R488). -/

namespace Sys2Proof.Machine

open Host (Outcome)

/-- The armed partitions that no stop has reached (R471). -/
def State.armedParts (s : State) : List PartId := allParts.filter fun p => s.armed p && !(s.part p).slackStopped

/-- The stopped partitions. -/
def State.stoppedParts (s : State) : List PartId := allParts.filter fun p => (s.part p).slackStopped

/-- The rings that an engine in Ronor mode reaches. -/
def State.ringUp (s : State) (e : EngineId) : Bool :=
  !(s.engine e).ethMode && (portsOf e).any fun p => (s.port p).st == 2 && !(s.port p).eth

/-- The engines with a ring. -/
def State.rings (s : State) : List EngineId := (List.finRange 8).filter fun e => s.ringUp e

/-- Send a stop message on every ring (R315). -/
def State.sendStop (s : State) (m : StopMsg) : State := s.each s.rings fun s e => s.send (.ring e) (.stop m)

/-- The payload of a Slack marker (R476). -/
def markerBytes (stopid : BitVec 32) (origin : BitVec 8) (trigger : Nat) (adopted ignored noCap : Bool)
    (originT ownT : Stamp) : List Byte :=
  leBytes 4 stopid.toNat ++ [origin, BitVec.ofNat 8 trigger,
    BitVec.ofNat 8 (b2n adopted + 2 * b2n ignored + 4 * b2n noCap), 0] ++ leBytes 8 originT.toNat ++
    leBytes 8 ownT.toNat ++ List.replicate 8 0

/-- Write a marker record (KIND 7) to a partition's ring. -/
def State.marker (s : State) (p : PartId) (payload : List Byte) : State := s.offer p 7 (s.srcH 10 0) s.now noIds 0 payload

/-- A stop that comes while the device is stopped: a marker with IGNORED in the ring of every stopped partition (R476,
R477). DEDUCED: log 68. -/
def State.ignoreStop (s : State) (stopid : BitVec 32) (origin : BitVec 8) (trigger : Nat) (originT ownT : Stamp) : State :=
  s.each s.stoppedParts fun s p => s.marker p (markerBytes stopid origin trigger false true false originT ownT)

/-- The next STOPID of this device (R474). DESIGN CHOICE: log 14. -/
def State.nextStopId (s : State) : BitVec 32 := s.devNum ++ (s.slack.seq + 1)

/-- The device originates a stop message with its own STOPID (R474). -/
def State.originate (s : State) (target : Stamp) : State :=
  let id := s.nextStopId
  let s := { s with slack := { s.slack with
    seq := s.slack.seq + 1, stopid := id, originDev := s.devNum, originT := target, origin := true, awaitId := false
    seen := s.slack.seen ++ [id] } }
  s.sendStop { stopid := id, origin := s.devNum, target }

/-- What a fault that triggered the stop still has to do (R446, R447, R477). DEDUCED: log 68. -/
def State.afterStop (s : State) : State :=
  match s.slack.after with
  | none => s
  | some (who, detail, src) =>
    let s := { s with slack := { s.slack with after := none } }
    match who with
    | some p => s.partFatalNow p detail src
    | none => s.devFatalNow detail src

/-- A trigger in an armed partition: the device recognises a stop, drives SLACK_N and sends a stop message (R471, R472,
R474). A trigger while a stop is on its way joins it. DEDUCED: log 65. -/
def execSlackTrigger (p : PartId) (trigger : Fin 7) (s : State) : Outcome State Fault Refusal :=
  .next (if s.live = true ∧ 1 ≤ trigger.val ∧ trigger.val ≤ 4 ∧ s.armedParts.contains p = true ∧ s.slack.pending = false then
      let target := s.now + 64
      if s.slack.stopped then
        (({ s with slack := { s.slack with seq := s.slack.seq + 1 } }).ignoreStop s.nextStopId s.devNum trigger.val target
          target).afterStop
      else
        let s := s.originate target
        { s with
          slack := { s.slack with
            pending := true, trigger := BitVec.ofNat 3 trigger.val, ownT := target, adopted := false }
          pins := { s.pins with slackLow := true } }
    else s)

/-- SLACK_N is low for 20 ns on a device that is not stopped: an armed device stops 64 ns later and takes the STOPID of
the first stop message (R471, R474, R487). -/
def execSlackNInput (s : State) : Outcome State Fault Refusal :=
  .next (if s.live = true ∧ s.slack.pending = false ∧ s.slack.stopped = false ∧ s.armedParts ≠ [] then
    { s with slack := { s.slack with
      pending := true, trigger := 5, ownT := s.now + 64, originT := 0, stopid := 0, originDev := 0, origin := false
      adopted := false, awaitId := true } }
  else s)

/-- The markers of a stop whose STOPID is known (R476). DEDUCED: log 65. -/
def State.writeMarkers (s : State) : State :=
  let x := s.slack
  let bytes (p : PartId) : List Byte :=
    markerBytes x.stopid x.originDev x.trigger.toNat x.adopted false (x.noCapture.getLsbD p.val) x.originT x.ownT
  if s.stoppedParts = [] then s.marker 0 (bytes 0) else s.each s.stoppedParts fun s p => s.marker p (bytes p)

/-- A stop message: a copy is discarded; a new STOPID is forwarded, is adopted by a stop on SLACK_N, or stops an armed
device 64 ns after it was received (R315, R471, R474, R477). DEDUCED: log 65. -/
def execSlackStopMessageReceive (m : StopMsg) (trx : Stamp) (s : State) : Outcome State Fault Refusal :=
  .next (if s.live = true then
      if s.slack.seen.contains m.stopid then s.discard
      else
        let s := s.reach trx
        let s := ({ s with slack := { s.slack with seen := s.slack.seen ++ [m.stopid] } }).sendStop m
        let target := trx + 64
        if s.slack.awaitId then
          let s := { s with slack := { s.slack with
            awaitId := false, adopted := true, stopid := m.stopid, originDev := m.origin, originT := m.target } }
          if s.slack.stopped then s.writeMarkers else s
        else if s.slack.stopped then s.ignoreStop m.stopid m.origin 6 m.target target
        else if s.slack.pending then s
        else if s.armedParts = [] then
          s.marker 0 (markerBytes m.stopid m.origin 6 false false false m.target target)
        else
          { s with slack := { s.slack with
            pending := true, trigger := 6, ownT := target, originT := m.target, stopid := m.stopid
            originDev := m.origin, origin := false, adopted := false } }
    else s)

/-- 10 µs after SLACK_N no stop message has come: the device originates its own (R474). -/
def execSlackStopMessageTimeout (s : State) : Outcome State Fault Refusal :=
  .next (if s.slack.awaitId = true then
    let s := s.originate s.slack.ownT
    if s.slack.stopped then s.writeMarkers else s
  else s)

/-- SLACK_N is released (R474). -/
def execSlackNPulseEnd (s : State) : Outcome State Fault Refusal :=
  .next { s with pins := { s.pins with slackLow := false } }

/-- A partition withdraws from its gate group without cancel arrivals (R477, R488). -/
def State.leaveGate (s : State) (p : PartId) : State :=
  (s.sendWithdraw p).modPart p fun pt => { pt with
    ready := false, armed := false, pendingMissed := pt.pendingMissed + b2n pt.armed }

/-- The end of a stop's work: the wait-for graph of each stopped partition, and the fault that triggered the stop (R477,
R480). DEDUCED: log 69. -/
def State.endScan (s : State) : State :=
  let s := { s with slack := { s.slack with scanning := false } }
  (s.setD29.each s.stoppedParts fun s p => s.recordGraph p).afterStop

/-- At its target the device stops every armed partition: units hold their state, queues freeze, the partition is HALTED
and withdraws; markers follow when the STOPID is known (R472, R473, R476 to R478). -/
def execSlackStop (stopA stopB : Stamp) (late : Bool) (s : State) : Outcome State Fault Refusal :=
  .next (if s.live = true ∧ s.slack.pending = true then
      let s := s.reach (if stopA < stopB then stopB else stopA)
      let ps := s.armedParts
      let s := s.each ps fun s p =>
        (s.leaveGate p).modPart p fun pt => { pt with slackStopped := true, st := .halted }
      let mask (f : PartId → Bool) : BitVec 8 := BitVec.ofNat 8 ((ps.filter f).foldl (fun n p => n + 2 ^ p.val) 0)
      let noCap := mask fun p => (s.part p).strand.capHeld
      let parts := mask fun _ => true
      let any : Bool := !ps.isEmpty
      let s := { s with slack := { s.slack with
        pending := false, stopped := any, scanning := any && parts != noCap, late, parts, noCapture := noCap, stopA, stopB
        trigger := if any then s.slack.trigger else 0, origin := any && s.slack.origin
        stops := if any then satAdd s.slack.stops 1 else s.slack.stops } }
      let s := if s.slack.awaitId then s else s.writeMarkers
      if s.slack.scanning then s.setD29 else s.endScan
    else s)

/-! ### Scan-out (R475, R476) -/

/-- The words of a tile's later stages: passes in the array, streams, group sums in the combiner and the tree, outputs in the
PPU pipeline (R475). DESIGN CHOICE: log 67. -/
def Tile.stages (tl : Tile) : List Byte :=
  let int64 (v : Int) : List Byte := leBytes 8 (BitVec.ofInt 64 v).toNat
  tl.passes.flatMap (fun x => leBytes 8 x.issue ++ leBytes 8 x.due ++ leBytes 8 x.busy) ++
    tl.streams.flatMap (fun x => leBytes 8 x.mac ++ leBytes 8 x.issue ++ leBytes 8 x.due ++
      x.partials.flatMap fun y => leBytes 8 y.1 ++ int64 y.2) ++
    tl.landings.flatMap (fun x => leBytes 8 x.slot ++ leBytes 8 x.due ++ x.parts.flatMap fun y =>
      leBytes 8 y.issue ++ y.elems.flatMap fun e => leBytes 8 e.out ++ int64 e.val ++ leBytes 8 e.exp) ++
    tl.samples.flatMap fun x => leBytes 8 x.cycle ++ leBytes 4 x.channel ++ leBytes 4 x.y.toNat

/-- Staging halves, accumulator slots and later stages of a tile as a capture holds them: per half 256 activations, the
exponents, the zero flags; per entry A and X (R475). DESIGN CHOICE: log 67. -/
def Tile.pipelines (tl : Tile) : List Byte :=
  let halfBytes (h : Half) : List Byte :=
    (List.range 256).map (fun i => Store.get 0 h.acts i) ++ (List.range 4).map (fun g => Store.get 0 h.exps g) ++
      leBytes 4 h.zero.toNat
  let slotBytes (sl : Slot) : List Byte := (List.range 128).flatMap fun i =>
    let en : Entry := Store.get {} sl.entries i
    leBytes 8 en.a.toNat ++ leBytes 2 en.x.toNat
  (List.range 16).flatMap (fun m => halfBytes (tl.mac m).half0 ++ halfBytes (tl.mac m).half1) ++
    (List.range 8).flatMap (fun a => slotBytes (tl.slot a)) ++ tl.stages

/-- The trace buffer of a cluster as a capture holds it (R475). DESIGN CHOICE: log 67. -/
def Cluster.traceBytes (x : Cluster) : List Byte :=
  (x.trace ++ x.traceOpen.toList).flatMap fun r => leBytes 8 r.ts.toNat ++ r.entries.flatMap fun w => leBytes 8 w.toNat

/-- The sections of a capture: unit words; tile registers and pipelines, which are zero for an encrypted image; channel
state. DESIGN CHOICE: log 40, 66, 67. -/
def State.captureBytes (s : State) (p : PartId) : List Byte × List Byte × List Byte :=
  let sealed : Bool := match (s.part p).image with | some im => im.encrypted | none => false
  let own := s.maskClusters (BitVec.ofNat 8 (2 ^ p.val))
  let unit := s.regBytes ((s.tilesOf p).flatMap tileRegs ++ own.flatMap clusterRegs ++ partRegs p ++
      (s.bandsOf p).map Reg.bandWord ++ [.domainMap, .slackStatus]) ++
    own.flatMap fun c => (s.cluster c).traceBytes
  let tiles := (s.tilesOf p).flatMap fun t =>
    let l := (s.tile t).pipelines
    s.regBytes (seqRegs t) ++ (if sealed then List.replicate l.length 0 else l)
  (unit, tiles, (s.part p).channel.flatMap channelBytes)

/-- Write the capture of a stopped partition; its bytes are observation traffic (R268, R459, R476). DESIGN CHOICE: log 66. -/
def State.writeCapture (s : State) (p : PartId) (complete : Bool) : State :=
  let x := s.slack
  let (unit, tiles, chan) := s.captureBytes p
  let sealed : Bool := match (s.part p).image with | some im => im.encrypted | none => false
  let n1 := pages unit.length
  let n2 := pages tiles.length
  let n3 := pages chan.length
  let base := ringBase p + recArea
  let total := 4096 * (1 + n1 + n2 + n3)
  let ok := complete && !s.rangeHard base total true
  let onDie (d : Nat) : Bool := (s.tilesOf p).any fun t => t.val / 256 == d
  let head := leBytes 4 0x314B4C53 ++ leBytes 2 1 ++ [x.trigger.setWidth 8,
    BitVec.ofNat 8 (b2n ok + 2 * b2n sealed + 4 * b2n x.late)] ++ leBytes 4 x.stopid.toNat ++
    [x.originDev, BitVec.ofNat 8 p.val] ++ leBytes 2 (s.part p).chanDropped.toNat ++ leBytes 8 x.originT.toNat ++ leBytes 8 x.ownT.toNat ++
    leBytes 8 (if onDie 0 then x.stopA.toNat else 0) ++ leBytes 8 (if onDie 1 then x.stopB.toNat else 0) ++
    leBytes 4 (s.part p).frame.toNat ++ leBytes 4 0 ++ leBytes 8 total ++ sectEntry 1 1 n1 ++ sectEntry 2 (1 + n1) n2 ++
    sectEntry 5 (1 + n1 + n2) n3
  let old := s
  let s := { s with hbm := Mem.clear s.hbm base total }
  let s := ((s.hbmWrite base head).hbmWrite (base + 4096) unit).hbmWrite (base + 4096 * (1 + n1)) tiles
  let s := s.hbmWrite (base + 4096 * (1 + n1 + n2)) chan
  let s := (s.keepHard old base total).observe total
  s.modPart p fun pt => { pt with strand := { pt.strand with capHeld := true } }

/-- Scan-out ends, or a thermal trip ends it with COMPLETE 0: each stopped partition whose capture area was free holds
its capture; graphs and the fault's own handling follow (R392, R475 to R477, R480). -/
def execSlackScanOut (complete : Bool) (s : State) : Outcome State Fault Refusal :=
  .next (if s.slack.scanning = true then
    (s.each (s.stoppedParts.filter fun p => !s.slack.noCapture.getLsbD p.val) fun s p => s.writeCapture p complete).endScan
  else s)

/-- The time from T_s to the stop edge of a partition (R182, R472). -/
def State.stopElapsed (s : State) (p : PartId) : Nat :=
  let last := if s.slack.stopA < s.slack.stopB then s.slack.stopB else s.slack.stopA
  if last < (s.part p).run.ts then 0 else nsSince (s.part p).run.ts last

/-- ReArm ends a stop: the stopped frame is recorded with its commit withheld, and no cancel arrivals are sent (R477,
R487, R488). -/
def State.endStop (s : State) (p : PartId) : State :=
  let run := (s.part p).run
  let s := if run.active then
      let s := s.markFrame p (if run.overrun then 0xB else 0xC) 0xFFFF
      (s.stopTiles p).withhold p (if run.overrun then s.deadline p else s.stopElapsed p)
    else s
  s.leaveStop p

end Sys2Proof.Machine
end

