-- ==== Sys2Proof/Machine/Verify.lean ====
section
/-! DEFINITION. Weight verify (R217 to R226). -/

namespace Sys2Proof.Machine

open Host (Outcome)

/-- What a verify started now would use. -/
def Verify.fields (v : Verify) : VerifyRun :=
  { compare := v.compare, rec17 := v.rec17, role := v.role, mac := v.mac, rstride := v.rstride, addr := v.addr }

/-- A write of the weight verify control word: the RW fields are set, and DONE is cleared where 1 is written. START requests a
verify with these fields and clears the results; while one is held or running it is ignored (R12, R218, R220, R221).
DEDUCED: log 70. -/
def Verify.write (v : Verify) (w : Word) : Verify :=
  let v := { v with
    compare := w.getLsbD 28, rec17 := w.getLsbD 27, role := w.extractLsb' 26 1, mac := w.extractLsb' 16 4
    done := v.done && !w.getLsbD 29 }
  if w.getLsbD 31 && !v.busy then
    { v with
      busy := true, held := true, diffRows := 0, parRows := 0, any := false, err := false, firstRow := 0, diff := []
      run := v.fields }
  else v

/-- A write of the weight verify control word (R218). DEDUCED: log 70. -/
def execVerifyStart (t : TileId) (w : Word) (s : State) : Outcome State Fault Refusal :=
  .next (s.modTile t fun tl => { tl with verify := tl.verify.write w })

/-- The tile waits at GATE, or has no image (R217). -/
def Tile.atRest (tl : Tile) : Bool := tl.seq.st == .idle || (tl.seq.st == .waiting && tl.seq.why == .gate)

/-- The source word is refused: ADDR outside the partition's slices, or RSTRIDE outside 16 to 272 (R219). -/
def State.sourceBad (s : State) (t : TileId) (v : VerifyRun) : Bool :=
  let inside : Bool := match s.tileOwner? t with | some p => (s.devAddr? p v.addr.toNat).isSome | none => false
  v.compare && (!inside || decide (v.rstride.toNat < 16) || decide (272 < v.rstride.toNat))

/-- A held verify starts once the tile waits at GATE, no frame of its partition runs and the partition has not reported
ready; it reports not ready until the verify ends (R217, R219, R308). DEDUCED: log 138. -/
def execVerifyRun (t : TileId) (s : State) : Outcome State Fault Refusal :=
  .next (
    let v := (s.tile t).verify
    let quiet : Bool := match s.tileOwner? t with
      | some p => !(s.part p).run.active && !(s.part p).armed && !(s.part p).ready && !(s.part p).slackStopped
      | none => true
    if v.held = true ∧ quiet = true ∧ (s.tile t).atRest = true ∧ s.dom (bandOf (clusterOf t)).val = .on then
      if s.sourceBad t v.run then
        let s := s.modTile t fun tl => { tl with verify := { v with busy := false, held := false, done := true, err := true } }
        match s.tileOwner? t with | some p => s.tryReady p | none => s
      else
        s.modTile t fun tl => { tl with verify := { v with held := false } }
    else s)

/-- The findings of a verify: parity words by row, columns by row, and rows that differ. -/
structure Findings where
  par : List (Nat × Nat)
  cols : List (Nat × Nat)
  rows : List Nat
  deriving DecidableEq, Repr

/-- Read a bank back: what its cells show, with what the read met besides. `record` gives row r's record, none for a hard
error (R217, R270). DEDUCED: log 71. -/
def Bank.readBack (b : Bank) (compare : Bool) (record : Nat → Option (List Byte × Bool)) (par cols : List (Nat × Nat)) :
    Findings :=
  let rows := List.range 256
  let own := rows.flatMap fun r => (b.parityBad r).map fun w => (r, w)
  let mine := if compare then rows.flatMap fun r =>
      match record r with | some (l, f) => (b.diffCols r l f).map fun c => (r, c) | none => []
    else []
  let hard := if compare then rows.filter fun r => (record r).isNone else []
  let cols := if compare then (mine ++ cols.filter fun x => decide (x.1 < 256) && decide (x.2 < 144)).eraseDups else []
  { par := (own ++ par.filter fun x => decide (x.1 < 256) && decide (x.2 < 4)).eraseDups
    cols, rows := (cols.map (fun x => x.1) ++ hard).eraseDups }

/-- The five column difference words of a list of columns (R221). -/
def diffWords (cols : List Nat) : Store Word :=
  cols.foldl (fun m c => Store.set m (c / 32) (Store.get 0 m (c / 32) ||| BitVec.ofNat 32 (2 ^ (c % 32)))) []

/-- The columns in which a shadow bank differed count with the findings of the active bank in a repair that its verify asked for
(R224). -/
def State.shadowFinding (s : State) (t : TileId) (m : Nat) (phys : BitVec 1) (cols : List Nat) : State :=
  match s.tileOwner? t with
  | none => s
  | some p =>
    let add (x : RepairDue) : RepairDue :=
      match x.why with
      | .verify a b blind =>
        if x.key = macKey t m then
          { x with why := if phys = 0 then .verify (a ++ cols).eraseDups b blind else .verify a (b ++ cols).eraseDups blind }
        else x
      | _ => x
    s.modPart p fun pt => { pt with repairs := pt.repairs.map add }

/-- A verify ends with findings: result words, DONE, the weight parity status word, and
what R224 and R226 do with the bank. DEDUCED: log 72. -/
def State.endVerify (s : State) (t : TileId) (v : Verify) (f : Findings) : State :=
  let m := v.run.mac.toNat
  let mc := (s.tile t).mac m
  let phys := if v.run.role = 0 then mc.activePhys else mc.shadowPhys
  let parRows := (f.par.map fun x => x.1).eraseDups
  let found := f.rows ++ parRows
  let v := { v with
    busy := false, held := false, done := true, err := false, any := !found.isEmpty
    diffRows := BitVec.ofNat 9 f.rows.length, parRows := BitVec.ofNat 9 parRows.length
    firstRow := BitVec.ofNat 8 (found.foldl min (found.headD 0)), diff := diffWords (f.cols.map fun x => x.2) }
  let s := s.modTile t fun tl => { tl with verify := v }
  let owner := s.tileOwner? t
  let s := match f.par.getLast? with
    | none => s
    | some (r, w) =>
      let s := s.modTile t fun tl => { tl with wp := { tl.wp with
        lastSrc := 1, lastPhys := phys, lastMacro := v.run.mac, lastWord := BitVec.ofNat 2 w, lastRow := BitVec.ofNat 8 r } }
      s.raise 0x0006 (if v.run.role = 0 then clsCorrected else clsNone) (s.srcTile t m) noIds owner
        [BitVec.ofNat 8 m, phys.setWidth 8, BitVec.ofNat 8 r, BitVec.ofNat 8 w]
  if v.run.role = 0 then
    if found.isEmpty then s
    else
      let s := if f.par.isEmpty then
          s.raise 0x0010 clsCorrected (s.srcTile t m) noIds owner [BitVec.ofNat 8 m]
        else s
      match owner with
      | some p =>
        let cols := (f.cols.map fun x => x.2).eraseDups
        let blind := !v.run.compare && !f.par.isEmpty
        s.addRepair p { key := macKey t m, why := if phys = 0 then .verify cols [] blind else .verify [] cols blind }
      | none => s
  else
    let s := s.shadowFinding t m phys ((f.cols.map fun x => x.2).eraseDups)
    if f.par.isEmpty then s else s.modTile t fun tl => tl.modMac m fun mc => mc.modShadow Bank.invalidate

/-- Row r's record by the verify source word (R219). -/
def State.verifyRecord (s : State) (t : TileId) (v : VerifyRun) (r : Nat) : Option (List Byte × Bool) :=
  match s.tileOwner? t with
  | none => none
  | some p =>
    let n := if v.rec17 then 17 else 16
    let a := v.addr.toNat + r * v.rstride.toNat
    if s.partHard p a n false then none else some (s.partRead p a n, v.rec17)

/-- A running verify ends. `parityRows` and `diffCols` are what the read met in the cells besides what was stored there:
rows with parity words, and rows with columns (R217, R220 to R222, R224, R226). -/
def execVerifyEnd (t : TileId) (parityRows diffCols : List (Nat × Nat)) (s : State) : Outcome State Fault Refusal :=
  .next (
    let v := (s.tile t).verify
    if v.busy = true ∧ v.held = false then
      let mc := (s.tile t).mac v.run.mac.toNat
      let b := if v.run.role = 0 then mc.active else mc.shadow
      let s := s.endVerify t v (b.readBack v.run.compare (s.verifyRecord t v.run) parityRows diffCols)
      match s.tileOwner? t with
      | some p => (s.tryReady p).startOrders p
      | none => s
    else s)

/-! ### Periodic verify (R223) -/

/-- VerifyInterval in ns. -/
def State.verifyNs (s : State) : Nat := s.dval 0x2500 0 * 1000000000

/-- The tiles of a partition that hold resident macros, ascending. -/
def State.residentTiles (s : State) (p : PartId) : List Nat :=
  ((s.part p).residents.map fun k => k / 16).eraseDups.insertionSort (· ≤ ·)

/-- Row group 0's records of a bank whose four groups lie in the partition's slices at one stride: what a compare can
use. DEDUCED: log 71. -/
def Bank.compareSrc? (b : Bank) : Option RecSrc :=
  match b.srcs with
  | (0, c) :: _ =>
    if b.sealedSrc = false ∧ b.groups = 0xF ∧ (b.srcs.all fun x =>
        !x.2.down && decide (x.2.stride = c.stride) && decide (x.2.addr = c.addr + 64 * x.1 * c.stride) &&
          x.2.rec17 == c.rec17) = true then some c
    else none
  | _ => none

/-- Verify the active bank of a resident macro, with COMPARE where its records lie in HBM slices (R223, R489).
DEDUCED: log 71. -/
def State.verifyActive (s : State) (p : PartId) (t : TileId) (m : Nat) : State :=
  let b := ((s.tile t).mac m).active
  let v0 := { (s.tile t).verify with role := 0, mac := BitVec.ofNat 4 m, diff := [] }
  let v := match b.compareSrc? with
    | some c => { v0 with
        compare := true, rec17 := c.rec17, addr := BitVec.ofNat 39 c.addr, rstride := BitVec.ofNat 16 c.stride }
    | none => { v0 with compare := false }
  let v := { v with run := v.fields }
  s.endVerify t v (b.readBack v.compare (s.srcRow? p b.srcs) [] [])

/-- At the interval, one tile's active banks are verified at a frame boundary, before ready; the next boundary takes the next
tile, in ascending order. A tile whose own verify is held or running is waited for (R217, R223, R308). DEDUCED: log 196. -/
def execPeriodicVerify (p : PartId) (s : State) : Outcome State Fault Refusal :=
  .next (
    let pt := s.part p
    let due : Bool := pt.verifyTile != 0 || decide (pt.verifyAt.toNat + s.verifyNs ≤ s.now.toNat)
    if s.live = true ∧ pt.run.active = false ∧ pt.armed = false ∧ pt.ready = false ∧ pt.slackStopped = false ∧
        0 < s.verifyNs ∧ due = true ∧ pt.verifyFrame ≠ some pt.frame then
      let ts := s.residentTiles p
      match ts[pt.verifyTile]? with
      | none => s.modPart p fun pt => { pt with verifyAt := s.now, verifyTile := 0 }
      | some k =>
        match (List.finRange 512)[k]? with
        | none => s
        | some t =>
          if (s.tile t).verify.busy || s.dom (bandOf (clusterOf t)).val != .on then s
          else
            let last := pt.verifyTile + 1 = ts.length
            let s := s.modPart p fun pt => { pt with
              verifyAt := if pt.verifyTile = 0 then s.now else pt.verifyAt
              verifyTile := if last then 0 else pt.verifyTile + 1
              verifyFrame := some pt.frame }
            let macs := (s.part p).residents.filter fun x => decide (x / 16 = k)
            (s.each macs fun s x => s.verifyActive p t (x % 16)).tryReady p
    else s)

end Sys2Proof.Machine
end

