-- ==== Sys2Proof/Machine/Fabric.lean ====
section
/-! DEFINITION. The topology of the installation, routes, gate groups, and the gate messages (R301, R302, R307 to R314,
R317). -/

namespace Sys2Proof.Machine

open Host (Outcome)

/-! ### Topology (R302) -/

/-- The partners of this device's ports that are up in Ronor mode, with their LENGTH (R302). -/
def State.ownPartners (s : State) : List (PortId × BitVec 8 × BitVec 16) :=
  (List.finRange 16).filterMap fun p =>
    let x := s.port p
    match x.partner with
    | some r => if x.st = 2 ∧ x.eth = false then some (p, r.srcnum.extractLsb' 16 8, x.length) else none
    | none => none

/-- The partners that a device announces: its own ports, or its last announcement. DESIGN CHOICE: log 81. -/
def State.partnersOf (s : State) (d : BitVec 8) : List (PortId × BitVec 8 × BitVec 16) :=
  if d = s.devNum then s.ownPartners
  else match s.topology.find? fun x => decide (x.1 = d.toNat) with | some x => x.2.partners | none => []

/-- A path in search of a route: the device reached, the engine and direction it came in on, the nominal path time in
units of 0.05 ns, and the segments with their hops, latest first (R301, R302). -/
structure Walk where
  dev : BitVec 8
  eng : Nat
  dir : Nat
  cost : Nat
  segs : List (Nat × Nat × Nat)
  deriving DecidableEq, Repr

/-- The segments' engines and directions, in order. -/
def Walk.path (w : Walk) : List (Nat × Nat) := w.segs.reverse.map fun x => (x.1, x.2.1)

/-- The lower of two paths by engine, then direction, at the first segment in which they differ. -/
def pathLess : List (Nat × Nat) → List (Nat × Nat) → Bool
  | [], [] => false
  | [], _ :: _ => true
  | _ :: _, [] => false
  | a :: l, b :: m => if a = b then pathLess l m else decide (a.1 < b.1) || (decide (a.1 = b.1) && decide (a.2 < b.2))

/-- A walk is better: less time, then the lower engine and direction (R302). -/
def Walk.better (a b : Walk) : Bool :=
  decide (a.cost < b.cost) || (decide (a.cost = b.cost) && pathLess a.path b.path)

/-- The place of a walk: it competes with walks to the same device, engine and direction by as many segments. -/
def Walk.place (w : Walk) : Nat := ((w.dev.toNat * 8 + w.eng) * 2 + w.dir) * 4 + (w.segs.length - 1)

/-- A device announces a partner of its own number: the number is duplicated, and no route leads to it or through it (R289,
R302). -/
def State.dupNumber (s : State) (d : BitVec 8) : Bool := (s.partnersOf d).any fun x => decide (x.2.1 = d)

/-- Where a frame arrives that leaves a device by an engine and direction: the partner, the engine there, and LENGTH. A
partner joined by several engines is reached at the engine of the same number if that is one of them. -/
def State.hop (s : State) (d : BitVec 8) (eng dir : Nat) : Option (BitVec 8 × Nat × Nat) :=
  let out := 2 * eng + (if dir = 0 then 1 else 0)
  match (s.partnersOf d).find? fun x => decide (x.1.val = out) with
  | none => none
  | some (_, d', len) =>
    let inn := (s.partnersOf d').filterMap fun x =>
      if x.1.val % 2 = dir ∧ x.2.1 = d then some (x.1.val / 2) else none
    let known : Option Nat := if d = s.devNum then
        (match (List.finRange 16)[out]? with
        | some p => (s.port p).partner.map fun (r : CapRec) => r.portid.toNat / 2
        | none => none)
      else none
    let e' := known.getD (if inn.contains eng then eng else inn.headD eng)
    if d' = s.devNum ∨ s.dupNumber d' = true then none else some (d', e', len.toNat)

/-- A walk one hop longer: on along the segment, or by a new one (R301). -/
def State.walks (s : State) (w : Walk) : List Walk :=
  let go (eng dir : Nat) (segs : List (Nat × Nat × Nat)) (extra : Nat) : List Walk :=
    match s.hop w.dev eng dir with
    | some (d, e, len) => [{ dev := d, eng := e, dir, cost := w.cost + extra + 640 + len, segs }]
    | none => []
  let on := match w.segs with
    | (e0, d0, n) :: l => if n < 255 then go w.eng w.dir ((e0, d0, n + 1) :: l) 0 else []
    | [] => []
  let turn := if w.segs.length < 4 then
      (List.range 8).flatMap fun e => go e 0 ((e, 0, 1) :: w.segs) 560 ++ go e 1 ((e, 1, 1) :: w.segs) 560
    else []
  on ++ turn

/-- The walks of one hop from this device. -/
def State.firstWalks (s : State) : List Walk :=
  (List.range 8).flatMap fun e => [0, 1].flatMap fun dir =>
    match s.hop s.devNum e dir with
    | some (d, e', len) => [{ dev := d, eng := e', dir, cost := 640 + len, segs := [(e, dir, 1)] }]
    | none => []

/-- Keep the better walk of each place; the walks that were kept. -/
def keepBest (best : Store Walk) (l : List Walk) : Store Walk × List Walk :=
  l.foldl (fun (x : Store Walk × List Walk) w =>
    match x.1.find? fun y => decide (y.1 = w.place) with
    | some y => if w.better y.2 then (Store.set x.1 w.place w, x.2 ++ [w]) else x
    | none => (Store.set x.1 w.place w, x.2 ++ [w])) (best, [])

/-- The best walks of at most `fuel` more hops. -/
def State.search (s : State) : Nat → Store Walk → List Walk → Store Walk
  | 0, best, _ => best
  | fuel + 1, best, front =>
    match front with
    | [] => best
    | _ =>
      let (best', front') := keepBest best (front.flatMap s.walks)
      s.search fuel best' front'

/-- A route's segments (R301). -/
def Walk.route (w : Walk) : Route :=
  w.segs.reverse.map fun x => BitVec.ofNat 16 (x.1 * 8192 + x.2.1 * 4096 + x.2.2)

/-- The route table from the current topology: to each device the walk of least time (R302). -/
def State.reroute (s : State) : State :=
  let start := keepBest [] s.firstWalks
  let best := s.search 1020 start.1 start.2
  let pick (d : Nat) : Option Walk := best.foldl (fun (acc : Option Walk) x =>
    if x.2.dev.toNat = d then
      match acc with
      | none => some x.2
      | some y => if x.2.better y then some x.2 else acc
    else acc) none
  let devs := (best.map fun x => x.2.dev.toNat).eraseDups
  { s with routes := devs.foldl (fun (r : Store Route) d => match pick d with | some w => Store.set r d w.route | none => r) [] }

/-! ### Gate groups (R307) -/

/-- The groups of another device: those it announced, or before its first announcement those of the record that a port
received from it (R288, R289, R302). DEDUCED: log 82. -/
def State.groupsOf (s : State) (d : BitVec 8) : BitVec 64 :=
  match s.topology.find? fun x => decide (x.1 = d.toNat) with
  | some x => x.2.groups
  | none =>
    (List.finRange 16).foldl (fun m p =>
      let x := s.port p
      match x.partner with
      | some r => if x.st = 2 ∧ x.eth = false ∧ r.srcnum.extractLsb' 16 8 = d then m ||| r.groups else m
      | none => m) 0

/-- The route to a device leaves by a ring on which this device's number is not duplicated (R289, R302). DEDUCED: log 82. -/
def State.routeJoins (s : State) (d : BitVec 8) : Bool :=
  match s.route? d with
  | some (seg :: _) => !s.dupOn (engineOf (exitPort seg))
  | _ => false

/-- The devices that announce a group in the current topology, ascending: this device, and those with a route over a ring of
gate groups. DEDUCED: log 82. -/
def State.announcers (s : State) (g : GroupId) : List (BitVec 8) :=
  ((List.range 256).map (BitVec.ofNat 8)).filter fun d =>
    if d = s.devNum then !(s.groupParts g).isEmpty else s.routeJoins d && (s.groupsOf d).getLsbD g.val

/-- A group's members, leader and role from the topology; a device that becomes leader has not fired yet (R307, R314). -/
def State.regroupOne (s : State) (g : GroupId) : State :=
  let members := s.announcers g
  let leader := members.headD 0
  let role : BitVec 2 := if members.contains s.devNum then (if leader = s.devNum then 2 else 1) else 0
  let x := s.group g
  let y : Group := { x with members, leader, role, ready := x.ready.filter fun r => members.contains r.1 }
  let y : Group := if role = 2 ∧ x.role ≠ 2 then { y with ready := [], fired := false, missed := 0 } else y
  if members = [] ∧ x = {} then s else s.modGroup g fun _ => y.settle

/-- Every group from the topology. -/
def State.regroup (s : State) : State := s.each (List.finRange 64) State.regroupOne

/-- The announcement of this device for a ring: a ring on which its number is duplicated gets no groups (R289, R302). -/
def State.announcement (s : State) (e : EngineId) : Announcement :=
  { seq := s.topoSeq, dev := s.devNum, groups := if s.dupOn e then 0 else s.ownGroups, partners := s.ownPartners }

/-- The device floods a topology announcement on every ring, and takes its own ports' state into its routes and groups
(R302). -/
def execTopologyAnnounce (s : State) : Outcome State Fault Refusal :=
  .next (if s.live = true ∧ s.fabricUp = true then
    let s := { s with topoSeq := s.topoSeq + 1 }
    (s.each s.rings fun s e => s.send (.ring e) (.announce (s.announcement e))).reroute.regroup
  else s)

/-- A topology announcement: forwarded once on every other ring, and taken into the routes and groups; a sequence number
already seen from its origin is dropped (R302). DEDUCED: log 82, 83. -/
def State.takeAnnouncement (s : State) (e : EngineId) (a : Announcement) : State :=
  if a.dev = s.devNum ∨ s.topoSeen.contains (a.dev, a.seq) = true then s
  else
    let s := { s with topoSeen := s.topoSeen ++ [(a.dev, a.seq)], topology := Store.set s.topology a.dev.toNat a }
    (s.each (s.rings.filter fun r => r != e) fun s r => s.send (.ring r) (.announce a)).reroute.regroup

/-- A partner's capability record is checked, and its groups go to the gate logic (R11, R288, R289). DEDUCED: log 57, 82. -/
def execCapabilityRecordReceive (p : PortId) (r : CapRec) (s : State) : Outcome State Fault Refusal :=
  .next (
    let e := engineOf p
    if (s.engine e).switch = .through ∧ (s.engine e).ethMode = false then
      if r.rsvd ≠ 0 then s.discard
      else
        let bad : Bool := r.fabver != 1 || r.portid.getLsbD 0 == decide (p.val % 2 = 1)
        let dup : Bool := r.srcnum.extractLsb' 16 8 == s.devNum
        let s := s.modPort p fun x => { x with partner := some r, miswire := bad, dupnum := dup }
        let s := if bad || dup then s.opticsEvent e clsNone else s
        (if bad then s.toBypass e 8 else s).reroute.regroup
    else s)

/-- A topology announcement arrives on a ring (R302). DEDUCED: log 83. -/
def execTopologyAnnouncementReceive (e : EngineId) (a : Announcement) (s : State) : Outcome State Fault Refusal :=
  .next (if s.live = true ∧ s.fabricUp = true ∧ s.ringUp e = true then s.takeAnnouncement e a else s)

/-! ### Gate ready (R308) -/

/-- The trigger windows of a partition, by tile and handle (R308, R349). -/
def State.triggers (s : State) (p : PartId) : List (TileId × Nat) :=
  (List.range 8).filterMap fun i =>
    let w := s.vval p 0x18 (i + 2)
    if bitN w 31 then s.window? (BitVec.ofNat 24 (w % 2 ^ 24)) else none

/-- Every trigger window of a partition holds its length in the open epoch. -/
def State.triggersFull (s : State) (p : PartId) : Bool :=
  (s.triggers p).all fun x => decide (handleLen (s.handle x.1 x.2) ≤ ((s.tile x.1).win x.2).openLanded)

/-- The device is ready for the group's next frame (R308). -/
def State.deviceReady (s : State) (g : GroupId) : Bool :=
  let ps := s.groupParts g
  !ps.isEmpty && ps.all fun p => (s.part p).ready && (s.gateSource g != 0 || s.triggersFull p)

/-- Report the device ready to the leader. -/
def State.reportReady (s : State) (g : GroupId) : State :=
  let s := s.each (s.groupParts g) State.tryReady
  if s.live = true ∧ s.deviceReady g = true ∧ (s.group g).role ≠ 0 then
    s.sendReady { frame := (s.group g).frame + 1, group := g, data := s.gateSource g = 0, withdraw := false }
  else s

/-- The device becomes ready and sends gate ready to its leader (R308). -/
def execGateReadySend (g : GroupId) (s : State) : Outcome State Fault Refusal := .next (s.reportReady g)

/-- 100 µs without the fire: gate ready again (R308). -/
def execGateReadyRepeat (g : GroupId) (s : State) : Outcome State Fault Refusal := .next (s.reportReady g)

/-- A gate ready or withdrawal from a member (R307, R308). -/
def execGateReadyReceive (src : BitVec 8) (m : ReadyMsg) (s : State) : Outcome State Fault Refusal :=
  .next (if s.live then s.takeReady src m else s)

/-! ### Gate fire (R309 to R312, R317) -/

/-- At a writer's gate a valid NEXT replaces CUR, and NEXT is cleared (R247). -/
def Tile.turnCredits (tl : Tile) : Tile :=
  { tl with cur := (tl.nxt.filter fun x => bitN x.2.toNat 127).foldl (fun m x => Store.set m x.1 x.2) tl.cur, nxt := [] }

/-- The gate of frame `f` fires for a ready partition: its windows advance and its start is armed; one that Slack has
stopped counts the frame as missed. The divider is latched (R241, R247, R310, R311, R317, R374, R380, R487).
DEDUCED: log 85, 87, 121. -/
def State.firePart (s : State) (p : PartId) (f : BitVec 32) (ts : Stamp) (missed : Nat) : State :=
  let pt := s.part p
  if pt.slackStopped then s.modPart p fun pt => { pt with pendingMissed := pt.pendingMissed + 1 }
  else if pt.ready then
    let s := s.modPart p fun pt => { pt with
      armDiv2 := pt.nextDiv2, fireK := pt.skipK, passed := 0, skipFrom := ts, frame := f, armed := true, ready := false, startAt := ts
      pendingMissed := pt.pendingMissed + missed + (f - pt.readyFrame).toNat, points := [] }
    (s.advanceAll p 1 (fun _ => true) true).each (s.tilesOf p) fun s t => s.modTile t Tile.turnCredits
  else s

/-- This device takes the fire of frame `f`: frames that it skipped count as missed; a frame already started is
discarded (R310, R311). DEDUCED: log 85. -/
def State.takeFire (s : State) (g : GroupId) (f : BitVec 32) (missed : Nat) (ts : Stamp) (late : Bool) : State :=
  let s := s.modGroup g fun x => { x with frame := f, late, ready := [], waiting := false }
  let s := s.each (s.groupParts g) fun s p => s.firePart p f ts missed
  let eng := match s.route? (s.leaderOf g) with | some (seg :: _) => (exitPort seg).val / 2 | _ => 0
  if late then s.each (s.groupParts g) fun s p => s.raise 0x000F clsNone (s.srcH 7 eng) noIds (some p) [] else s

/-- The delay of this device for a fire that leaves by the route to a member: from T_f to the start of its transmission in units of
0.05 ns, and the LENGTH of the egress port (R310). DEDUCED: log 86. -/
def State.corrTo (s : State) (d : BitVec 8) (tf : Stamp) : BitVec 32 :=
  match s.route? d with
  | some (seg :: _) =>
    let f : WireFrame := { port := exitPort seg, cls := 1, vc := 0, at_ := s.now, bytes := List.replicate (frameLen 32) 0 }
    BitVec.ofNat 32 ((lineBegun s.wire f - lineTime tf) / 10 + (s.port (exitPort seg)).length.toNat)
  | _ => 0

/-- The source of a group gives an event at time `tf` on its leader; SYNC0 and FRAME_IN at other members are ignored (R309). -/
def State.sourceAt (s : State) (g : GroupId) (source : BitVec 2) (tf : Stamp) : Bool :=
  let x := s.group g
  x.role == 2 && source == s.gateSource g &&
    (if source = 1 then s.ecat.dc.isSome
     else if source = 2 then !x.fired || nsSince x.t0 tf % s.dval (0x2200 + g.val) 2 == 0
     else true)

/-- The leader fires the gate (R309, R310). -/
def State.fire (s : State) (g : GroupId) (source : BitVec 2) (tf : Stamp) : State :=
  let x := s.group g
  let f := x.frame + 1
  let lead := BitVec.ofNat 32 (s.dval (0x2200 + g.val) 3)
  let missed := satOf 16 x.missed
  let s := s.modGroup g fun x => { x with fired := true, firedAt := tf, t0 := if x.fired then x.t0 else tf, missed := 0 }
  let s := s.each (x.members.filter fun m => m != s.devNum) fun s m =>
    s.send (.device m) (.fire { frame := f, group := g, source, missed, lead, corr := s.corrTo m tf, tf })
  s.takeFire g f missed.toNat (tf + lead.setWidth 64) false

/-- A source event that fires no gate passes for the partitions that skip frames (R380). -/
def State.passEvent (s : State) (g : GroupId) : State :=
  if s.gateSource g = 0 then s
  else s.each (s.groupParts g) fun s p => (s.modPart p fun pt => { pt with passed := pt.passed + 1 }).tryReady p

/-- A source event at a stamp, and the ns since the one before (R377). DEDUCED: log 215. -/
def State.noteEvent (s : State) (g : GroupId) (t : Stamp) : State :=
  s.modGroup g fun x => { x with eventAt := t, gap := if x.eventAt = 0 ∨ t ≤ x.eventAt then x.gap else nsSince x.eventAt t }

/-- A source event at the leader: the gate fires when every member is ready; a periodic source's event is missed
otherwise, once the leader has fired (R181, R309). -/
def execGateSourceEvent (g : GroupId) (source : BitVec 2) (tf : Stamp) (s : State) : Outcome State Fault Refusal :=
  .next (if s.live = true ∧ s.sourceAt g source tf = true then
      let s := (s.reach tf).noteEvent g tf
      if (s.group g).allReady then s.fire g source tf
      else
        let s := s.passEvent g
        if source ≠ 0 ∧ (s.group g).fired = true then s.modGroup g fun x => { x with missed := x.missed + 1 }
      else s
    else s)

/-- T_s of a member: t_rx + LEAD − CORR × 0.05 ns rounded up, and at least 4,000 ns after t_rx (R310). -/
def startStamp (m : FireMsg) (trx : Stamp) : Stamp × Bool :=
  let ts : Int := (trx.toNat : Int) + m.lead.toNat - m.corr.toNat / 20
  if ts < trx.toNat + 4000 then (trx + 4000, true) else (BitVec.ofInt 64 ts, false)

/-- A gate fire is obeyed from the leader of the device's own topology only, and for a frame not yet started (R310, R311,
R317). DEDUCED: log 87. -/
def execGateFireReceive (src : BitVec 8) (m : FireMsg) (trx : Stamp) (s : State) : Outcome State Fault Refusal :=
  .next (if s.live = true then
      let x := s.group m.group
      if x.role = 1 ∧ x.leader = src ∧ later m.frame x.frame = true then
        let s := (s.reach trx).noteEvent m.group m.tf
        let (ts, late) := startStamp m trx
        s.takeFire m.group m.frame m.missed.toNat ts late
      else s.discard
    else s)

/-- FRAME_OUT is driven low again 1 µs after it rose (R312). -/
def execFrameOutPulseEnd (s : State) : Outcome State Fault Refusal :=
  .next { s with pins := { s.pins with frameOut := false } }

end Sys2Proof.Machine
end

