-- ==== Sys2Proof/Machine/Power.lean ====
section
/-! DEFINITION. Power control, droop, thermal limits, energy accounting, PMBus (R361, R364, R373 to R392, R501, R502). -/

namespace Sys2Proof.Machine

open Host (Outcome)

/-! ### Settings and predictions (R375 to R379) -/

/-- The compute rail setpoint of twice a divider, in mV (R375). -/
def railMv (div2 : Nat) : Nat :=
  if div2 ≤ 14 then 820 else if div2 ≤ 16 then 750 else if div2 ≤ 17 then 730 else if div2 ≤ 18 then 710
  else if div2 ≤ 20 then 680 else if div2 ≤ 24 then 630 else if div2 ≤ 28 then 600 else 580

/-- C of a class in hundredths (R375). -/
def classC (cls : Nat) : Nat := if cls = 0 then 100 else if cls = 1 then 70 else 50

/-- The setting of a partition in a list by partition. -/
def setOf (l : List Setting) (p : PartId) : Setting := l.getD p.val (16, 0)

/-- The settings in force. -/
def State.inForce (s : State) : List Setting := allParts.map fun p => ((s.part p).div2.toNat, (s.part p).cls.toNat)

/-- The settings that power control chose for the next gates. -/
def State.chosen (s : State) : List Setting := allParts.map fun p => ((s.part p).planDiv2.toNat, (s.part p).planCls.toNat)

/-- A partition's lowest-power setting at a divide factor, or the one chosen where none passes (R379). -/
def State.floorOf (s : State) (p : PartId) (k : Nat) : Setting :=
  (s.floor? p (max k (s.leastK p))).getD (setOf s.chosen p)

/-- A partition that draws band power under power control: it holds an image and is not halted by action 2. -/
def State.drawing (s : State) (p : PartId) : Bool := (s.part p).image.isSome && !(s.part p).capHalt

/-- A partition has clusters on a die. -/
def State.onDie (s : State) (p : PartId) (d : Nat) : Bool := fieldN (s.clusterMask p).toNat (16 * d + 15) (16 * d) != 0

/-- A die's compute rail follows the fastest divider among the partitions on it (R375). -/
def State.dieMv (s : State) (l : List Setting) (d : Nat) : Nat :=
  railMv (((allParts.filter fun p => s.enabled p && s.onDie p d).map fun p => (setOf l p).1).foldl min 32)

/-- A die's share of a pair of values by die. -/
def perDie (x : Nat × Nat) (d : Nat) : Nat := if d = 0 then x.1 else x.2

/-- A measured array value scaled to a setting, rounded up: by frequency and class (R375). DEDUCED: log 89. -/
def BandMeas.arrAt (m : BandMeas) (d : Nat) (x : Setting) : Nat :=
  ceilDiv (perDie m.arr d * m.div2 * classC x.2) (x.1 * classC m.cls)

/-- A measured logic value scaled to a setting and a compute rail, rounded up (R375). DEDUCED: log 89. -/
def BandMeas.logAt (m : BandMeas) (d : Nat) (x : Setting) (mv : Nat) : Nat :=
  ceilDiv (perDie m.log d * m.div2 * classC x.2 * mv ^ 2) (x.1 * classC m.cls * perDie m.mv d ^ 2)

/-- A partition's power enters predictions as measured: it holds no image, or is in fixed-frequency mode (R375, R378). -/
def State.asMeasured (s : State) (p : PartId) : Bool := (s.part p).image.isNone || (s.pinned p).isSome

/-- The predicted array and scratchpad power of a partition on a die at settings `l` in mW, from the frames measured
(R375, R378). DEDUCED: log 89. -/
def State.predictArr (s : State) (l : List Setting) (d : Nat) (p : PartId) : Nat :=
  if (s.part p).capHalt then 0
  else (s.part p).meas.foldl (fun n m => max n (if s.asMeasured p then perDie m.arr d else m.arrAt d (setOf l p))) 0

/-- The predicted tile-logic power of a partition on a die, which follows the die's compute rail too (R375, R378).
DEDUCED: log 89. -/
def State.predictLog (s : State) (l : List Setting) (d : Nat) (p : PartId) : Nat :=
  if (s.part p).capHalt then 0
  else (s.part p).meas.foldl (fun n m =>
    max n (if s.asMeasured p then perDie m.log d else m.logAt d (setOf l p) (s.dieMv l d))) 0

/-- The predicted band power of a partition at settings `l` in mW (R375, R378). -/
def State.predictPart (s : State) (l : List Setting) (p : PartId) : Nat :=
  s.predictArr l 0 p + s.predictLog l 0 p + (s.predictArr l 1 p + s.predictLog l 1 p)

/-- A tick's measures join those of the last 16 frames at the same setting, the frame's own by the larger; a frame at another
setting starts anew (R375). -/
def BandMeas.into (l : List BandMeas) (x : BandMeas) : List BandMeas :=
  let l := l.filter fun y => y.div2 == x.div2 && y.cls == x.cls
  let top (a b : Nat × Nat) : Nat × Nat := (max a.1 b.1, max a.2 b.2)
  match l with
  | y :: rest =>
    if y.frame = x.frame then { x with arr := top x.arr y.arr, log := top x.log y.log } :: rest else (x :: l).take 16
  | [] => [x]

/-- The tick's means of a partition's band supplies: of the frame last run, once one has run at the setting in force; of a
partition without an image as they stand (R375). -/
def State.measureBands (s : State) (m : PowerIn) (p : PartId) : State :=
  let pt := s.part p
  let x : BandMeas :=
    { frame := pt.frame, div2 := pt.div2.toNat, cls := pt.cls.toNat, mv := (s.dieMv s.inForce 0, s.dieMv s.inForce 1)
      arr := m.arrMw.getD p.val (0, 0), log := m.logMw.getD p.val (0, 0) }
  s.modPart p fun pt => { pt with
    meas := if pt.image.isNone then [x] else if pt.fromZero || pt.st == .halted then pt.meas else BandMeas.into pt.meas x }

/-- No enabled record names a cluster of the band, and it is on: lever 1 may switch it off (R376). -/
def State.bandIdle (s : State) (b : BandId) : Bool :=
  let own (c : Nat) : Bool := allParts.any fun p => (s.clusterMask p).getLsbD c
  !own (2 * b.val) && !own (2 * b.val + 1) && s.dom b.val == .on && !(s.band b).ordered

/-- The power of the clusters of a die that no partition owns, on one of its supplies, in mW: as the last tick measured it, and
none in a band ordered off (R375, R376). 1 mJ in a tick is 1 W. DEDUCED: log 91. -/
def State.idleMw (s : State) (l : List Nat) (d : Nat) : Nat :=
  (List.finRange 32).foldl (fun n c =>
    if c.val / 16 = d ∧ (s.owner? c).isNone ∧ s.dom (bandOf c).val = .on ∧ (s.band (bandOf c)).ordered = false then
      n + 1000 * l.getD c.val 0 else n) 0

/-- A rail's nominal voltage times its maximum current, in mW, in the order of the segments (R495, R501).
DEDUCED: log 90. -/
def railMax : List Nat :=
  [150000, 272000, 37500, 6000, 150000, 272000, 37500, 37800, 100000, 178500, 63750, 14400, 112500, 25200, 25200, 6600]

/-- A regulator has failed to answer in 3 consecutive cycles (R502). -/
def State.silent (s : State) (i : Nat) : Bool := decide (3 ≤ (Store.get {} s.rails i : Rail).missed)

/-- What the partitions and the unowned clusters give a rail in a prediction, or the rail's maximum while its regulator is silent
(R375, R502). -/
def State.predictRail (s : State) (i idle : Nat) (f : PartId → Nat) : Nat :=
  if s.silent i then railMax.getD i 0 else allParts.foldl (fun n p => n + f p) idle

/-- Every other rail in a prediction: as measured, and the maximum of one that is silent (R375, R502). DEDUCED: log 90. -/
def State.predictOther (s : State) : Nat :=
  let lost := [2, 3, 6, 7, 8, 9, 10, 11, 12, 13, 14, 15].filter s.silent
  lost.foldl (fun n i => n + railMax.getD i 0 - (Store.get {} s.rails i : Rail).power) s.power.other

/-- The predicted power of the device at settings `l` in mW: both supplies of each die and the other rails (R375, R502).
DEDUCED: log 89, 91. -/
def State.predict (s : State) (l : List Setting) : Nat :=
  s.predictOther + s.predictRail 0 (s.idleMw s.power.logic 0) (s.predictLog l 0) +
    s.predictRail 1 (s.idleMw s.power.sram 0) (s.predictArr l 0) +
    s.predictRail 4 (s.idleMw s.power.logic 1) (s.predictLog l 1) +
    s.predictRail 5 (s.idleMw s.power.sram 1) (s.predictArr l 1)

/-- The cap in force in mW: PowerCap, or the effective cap of R387. -/
def State.capMw (s : State) : Nat :=
  let cap := s.dval 0x2400 1 * 1000
  match s.power.effCap with | some e => min cap e | none => cap

/-- The guard, 0.98 × cap (R375). -/
def State.guardMw (s : State) : Nat := 98 * s.capMw / 100

/-- Every setting that power control may restore a partition to, fastest first (R376). -/
def State.fastest (s : State) (p : PartId) (k : Nat) (boost : Bool) : List Setting :=
  let all : List Setting := (dividers.flatMap fun d => [(d, 0), (d, 1), (d, 2)]).filter fun x =>
    (boost || x.1 != 14) && s.passes p k x
  let ns (x : Setting) : Nat :=
    match (s.part p).image with | some im => (im.nominal.getD x.2 0).toNat * x.1 | none => 0
  all.insertionSort fun a b => ns a ≤ ns b

/-- Put a partition's setting into a list. DEDUCED: log 80. -/
def putSetting (l : List Setting) (p : PartId) (x : Setting) : List Setting := l.set p.val x

/-- Power control moves a partition: it draws and is not in fixed-frequency mode (R378). -/
def State.movable (s : State) (p : PartId) : Bool := s.drawing p && (s.pinned p).isNone

/-- The partition with the largest predicted band power among some; ties to the lower number. -/
def State.largest (s : State) (l : List Setting) (ps : List PartId) : Option PartId :=
  ps.foldl (fun (acc : Option PartId) p =>
    match acc with
    | none => some p
    | some q => if s.predictPart l q < s.predictPart l p then some p else acc) none

/-- The next slower divider that still passes. DEDUCED: log 92. -/
def State.slower (s : State) (l : List Setting) (p : PartId) : Option Setting :=
  let x := setOf l p
  (dividers.find? fun d => decide (x.1 < d)).bind fun d =>
    if s.passes p (s.part p).skipK.toNat (d, x.2) then some (d, x.2) else none

/-- The next lower class of the image that passes at the same divider. DEDUCED: log 92. -/
def State.lower (s : State) (l : List Setting) (p : PartId) : Option Setting :=
  let x := setOf l p
  ([1, 2].find? fun c => decide (x.2 < c) && s.passes p (s.part p).skipK.toNat (x.1, c)).map fun c => (x.1, c)

/-- One pull of levers 3 and 4: a step of D before a class (R376). DEDUCED: log 92. -/
def State.pull (s : State) (l : List Setting) : Option (List Setting) :=
  match s.largest l (allParts.filter fun p => s.movable p && (s.slower l p).isSome) with
  | some p => (s.slower l p).map (putSetting l p)
  | none =>
    match s.largest l (allParts.filter fun p => s.movable p && (s.lower l p).isSome) with
    | some p => (s.lower l p).map (putSetting l p)
    | none => none

/-- Levers 3 and 4 as far as needed. -/
def State.reduce (s : State) : Nat → List Setting → List Setting
  | 0, l => l
  | fuel + 1, l =>
    if s.predict l ≤ s.guardMw then l
    else match s.pull l with | some l' => s.reduce fuel l' | none => l

/-- Lever 2: boost is left wherever it is in force, for the same variant at D = 8 when that passes (R177, R376). -/
def State.leaveBoost (s : State) (l : List Setting) : List Setting :=
  if s.predict l ≤ s.guardMw then l
  else
    allParts.map fun p =>
      let x := setOf l p
      let y : Setting := (16, x.2)
      if x.1 = 14 ∧ ((s.part p).image.isNone ∨ s.passes p (s.part p).skipK.toNat y = true) then y else x

/-- Restore partitions in ascending number to the fastest setting whose prediction fits under the guard (R376). -/
def State.restore (s : State) (ks : List Nat) (l : List Setting) : List Setting :=
  (allParts.filter s.movable).foldl (fun l p =>
    match (s.fastest p (ks.getD p.val 1) s.power.boostOk).find? fun x => decide (s.predict (putSetting l p x) ≤ s.guardMw) with
    | some x => putSetting l p x
    | none => l) l

/-! ### Below the floor (R379 to R381) -/

/-- Every partition at its floor, at the divide factors `ks`. -/
def State.floors (s : State) (ks : List Nat) : List Setting := allParts.map fun p => s.floorOf p (ks.getD p.val 0)

/-- The least divide factors that let every partition run a setting that passes (R177). -/
def State.leastKs (s : State) : List Nat := allParts.map s.leastK

/-- The device as its floor is taken: lever 1 fully applied, and every partition at its floor, halted ones too (R379). -/
def State.floorView (s : State) : State :=
  let s := s.each allParts fun s p => s.modPart p fun pt => { pt with capHalt := false }
  s.each ((List.finRange 16).filter s.bandIdle) fun s b => s.modBand b fun x => { x with ordered := true }

/-- Partitions in descending order of floor power, ties to the higher number first when `high`. -/
def State.byFloor (s : State) (high : Bool) : List PartId :=
  let l := s.floors []
  (allParts.filter s.drawing).insertionSort fun a b =>
    let x := s.predictPart l a
    let y := s.predictPart l b
    (decide (y < x) || (x == y && (if high then decide (b.val ≤ a.val) else decide (a.val ≤ b.val)))) = true

/-- Divide factors for partitions in descending order of floor power, each the smallest that brings the prediction under
the guard; none when 15 for every partition does not (R380). -/
def State.skipKs (s : State) : List PartId → List Nat → Option (List Nat)
  | [], _ => none
  | p :: ps, ks =>
    let least := ks.getD p.val 0
    match ((List.range 14).map (· + 2)).find? fun k =>
        decide (least ≤ k) && decide (s.predict (s.floors (ks.set p.val k)) ≤ s.guardMw) with
    | some k => some (ks.set p.val k)
    | none => s.skipKs ps (ks.set p.val 15)

/-- The partitions that action 2 halts, until the remainder fits the guard. -/
def State.halts (s : State) : List PartId → List PartId → List PartId
  | [], done => done
  | p :: ps, done =>
    let left := s.each done fun s q => s.modPart q fun pt => { pt with capHalt := true }
    if left.predict (s.floors []) ≤ s.guardMw then done else s.halts ps (done ++ [p])

/-! ### The tick -/

/-- DevicePower in mW: the mean of the last four samples (R373). DEDUCED: log 90, 108. -/
def State.devicePower (s : State) : Nat :=
  if s.power.samples = [] then 0 else s.power.samples.foldl (· + ·) 0 / s.power.samples.length

/-- MaxJunctionTemp: the highest valid reading, in 0.1 °C (R386). -/
def State.maxTemp (s : State) : BitVec 16 :=
  (List.range 3).foldl (fun (m : BitVec 16) i =>
    let x := (Store.get {} s.thermal i : Thermal).maxTemp
    if m.toInt < x.toInt then x else m) (Store.get {} s.thermal 0 : Thermal).maxTemp

/-- An event of power control (R463). DESIGN CHOICE: log 95, 167. -/
def State.powerEvent (s : State) (detail : List Byte) : State := s.raise 0x000E clsNone (s.srcH 1 1) noIds none detail

/-- Add to a partition's energy queue. -/
def State.addEnergy (s : State) (p : PartId) (q n : Nat) : State :=
  if n = 0 then s
  else s.modPart p fun pt => { pt with energy := Store.set pt.energy q (Store.get 0 pt.energy q + BitVec.ofNat 64 n) }

/-- Add to the residual of a queue. -/
def State.addResidual (s : State) (q n : Nat) : State :=
  if n = 0 then s else { s with residual := Store.set s.residual q (Store.get 0 s.residual q + BitVec.ofNat 64 n) }

/-- Divide an energy by shares out of a total; what no share takes goes to the residual (R390). DEDUCED: log 169. -/
def State.divide (s : State) (q e : Nat) (shares : List Nat) (total : Nat) : State :=
  let part (p : PartId) : Nat := if total = 0 then 0 else e * shares.getD p.val 0 / total
  let s1 := s.each allParts fun s p => s.addEnergy p q (part p)
  s1.addResidual q (e - allParts.foldl (fun n p => n + part p) 0)

/-- The energy of one tick, attributed (R390, R391). DEDUCED: log 169. -/
def State.attribute (s : State) (m : PowerIn) : State :=
  let perCluster (s : State) (q : Nat) (l : List Nat) : State :=
    s.each (List.finRange 32) fun s c =>
      match s.owner? c with
      | some p => s.addEnergy p q (l.getD c.val 0)
      | none => s.addResidual q (l.getD c.val 0)
  let s := perCluster (perCluster s 0 m.sram) 1 m.logic
  let s := s.each [2, 3, 4, 5, 7] fun s q =>
    let shares := m.use.getD (q - 2) []
    s.divide q (m.queue.getD (q - 2) 0) shares (shares.foldl (· + ·) (m.unowned.getD (q - 2) 0))
  s.divide 6 (m.queue.getD 4 0) (allParts.map fun p => popcount (s.clusterMask p)) 32

/-- The effective cap of R387 at a tick. -/
def State.stepCap (s : State) : State :=
  let cap := s.dval 0x2400 1 * 1000
  let hot := (List.range 3).any fun i => decide (1050 ≤ (Store.get {} s.thermal i : Thermal).maxTemp.toInt)
  let low := min cap (s.devicePower - cap / 20)
  let put (e : Option Nat) (at_ : Stamp) : State := { s with power := { s.power with effCap := e, effSince := at_ } }
  if s.throttled then (if hot || s.power.effCap.isNone then put (some low) s.now else put s.power.effCap s.now)
  else
    match s.power.effCap with
    | none => s
    | some e =>
      if nsSince s.power.effSince s.now < 100000000 then s
      else if cap ≤ e + cap / 20 then put none s.now else put (some (e + cap / 20)) s.now

/-- CAP_EXCEEDED: DevicePower above 1.05 × cap for 3 consecutive ticks (R374). -/
def State.stepOver (s : State) : State × Bool :=
  if 105 * s.capMw < 100 * s.devicePower then
    if s.power.overTicks = 2 then
      (({ s with power := { s.power with overTicks := 0 } }).powerEvent [], true)
    else ({ s with power := { s.power with overTicks := s.power.overTicks + 1 } }, false)
  else ({ s with power := { s.power with overTicks := 0 } }, false)

/-- A band that is on is ordered off, or into retention (R367, R376, R381). DESIGN CHOICE: log 201. -/
def State.orderBand (s : State) (b : BandId) (toRet : Bool) : State :=
  if s.dom b.val == .on && !(s.band b).ordered then s.bandOrder b toRet else s

/-- Lever 1, as far as needed: bands of clusters in no enabled record are ordered off one by one, and then core domains that no
partition and not the hypervisor uses go off, whose saving the next tick shows (R318, R376). DEDUCED: log 91; DESIGN CHOICE:
log 201. -/
def State.leverOne (s : State) : State :=
  let tight (s : State) : Bool := decide (s.guardMw < s.predict s.chosen)
  let s := s.each ((List.finRange 16).filter s.bandIdle) fun s b => if tight s then s.orderBand b false else s
  s.each [0, 1] fun s i => if tight s && !s.coreDomUsed i then s.setDom (24 + i) .off else s

/-- The divider that a partition's next gate takes: the one chosen with the class it will run, or one that passes with that
class (R177, R374). A ready stands on the entries in force (R308). -/
def State.dividerFor (s : State) (p : PartId) (k : Nat) (x : Setting) (cls : Nat) : Nat :=
  let ok (d : Nat) : Bool := if (s.part p).ready then s.fits p k (d, cls) else s.passes p k (d, cls)
  if ok x.1 then x.1 else if ok (s.part p).nextDiv2.toNat then (s.part p).nextDiv2.toNat else 16

/-- Put the settings chosen for the next gates; a pinned partition keeps its pair. A class change waits to be ordered at a boundary
(R357, R360, R374, R377). -/
def State.choose (s : State) (l : List Setting) (ks : List Nat) : State :=
  s.each (allParts.filter fun p => s.enabled p) fun s p =>
    let x := (s.pinned p).getD (setOf l p)
    let k := ks.getD p.val 0
    let none_ := (s.part p).image.isNone
    let cls := if (s.part p).copyLost then (s.part p).cls else (s.part p).wantCls
    let d := if none_ || (s.pinned p).isSome then x.1 else s.dividerFor p k x cls.toNat
    let w := satOf 16 (ceilDiv (s.predictPart l p) 1000)
    (s.modPart p fun pt => { pt with
      planDiv2 := BitVec.ofNat 8 x.1, planCls := BitVec.ofNat 2 x.2, nextDiv2 := BitVec.ofNat 8 d
      wantCls := if none_ then BitVec.ofNat 2 x.2 else if pt.copyLost && (s.pinned p).isNone then pt.cls else pt.wantCls
      predictW := w, skipK := BitVec.ofNat 4 k }).orderClass p

/-- A partition that action 2 halted: its bands are ordered into retention, but for one that another owner holds (R381, R392).
DESIGN CHOICE: log 201. -/
def State.retBands (s : State) (p : PartId) : State :=
  s.each (s.bandsOf p) fun s b =>
    if allParts.all fun q => !(s.bandsOf q).contains b || (s.part q).capHalt && (s.part q).st == .halted then s.orderBand b true
    else s

/-- A partition that action 2 halts is HALTED once it runs no frame and is not ready, and its bands go to RET (R308, R379,
R381). DESIGN CHOICE: log 201. -/
def State.haltNow (s : State) (p : PartId) : State :=
  let pt := s.part p
  if pt.capHalt && !pt.run.active && !pt.armed && !pt.ready && pt.st == .idle then
    (s.modPart p fun x => { x with st := .halted }).retBands p
  else s

/-- The choice below the floor raises a CAP_FLOOR event; clamping repeats it every second (R379). -/
def State.floorEvent (s : State) (action : BitVec 2) : State :=
  let due : Bool := s.power.action != action || (action == 1 &&
    match s.power.warnedAt with | some t => decide (1000000000 ≤ nsSince t s.now) | none => true)
  if due then ({ s with power := { s.power with warnedAt := some s.now } }).powerEvent [1] else s

/-- Since when a condition has held. -/
def since (old : Option Stamp) (now : Stamp) (holds : Bool) : Option Stamp := if holds then some (old.getD now) else none

/-- A condition has held for 100 ms. -/
def held100 (x : Option Stamp) (now : Stamp) : Bool :=
  match x with | some t => decide (100000000 ≤ nsSince t now) | none => false

/-- The choice of settings at a tick, under the guard or below the floor (R376 to R380). Skipping ends at the floors. -/
def State.decide_ (s : State) (exceeded : Bool) : State :=
  let least := s.leastKs
  let ks0 := (allParts.map fun p => (s.part p).skipK.toNat).zipWith max least
  let floorMw := s.floorView.predict (s.floors [])
  let below : Bool := decide (s.guardMw < floorMw)
  let under : Bool := decide (s.predict s.chosen ≤ s.guardMw) && !exceeded
  let s := { s with power := { s.power with
    floorW := satOf 16 (ceilDiv floorMw 1000), underSince := since s.power.underSince s.now under
    floorSince := since s.power.floorSince s.now (!below) } }
  let skipping (p : PartId) : Bool := decide (2 ≤ ks0.getD p.val 0) && decide (least.getD p.val 0 < ks0.getD p.val 0)
  let state (c a : BitVec 2) (s : State) : State :=
    { s with power := { s.power with capState := if s.throttled then 3 else c, action := a } }
  if below then
    match s.dval 0x2400 2 with
    | 1 =>
      match s.skipKs (s.byFloor false) least with
      | some ks => state 2 2 ((s.floorEvent 2).choose (s.restore ks (s.floors ks)) ks)
      | none => state 2 1 ((s.floorEvent 1).choose (s.floors []) least)
    | 2 =>
      let ps := s.halts (s.byFloor true) []
      let s := (s.floorEvent 3).each ps fun s p => (s.modPart p fun pt => { pt with capHalt := true }).haltNow p
      state 2 3 (s.choose (s.floors []) least)
    | _ => state 2 1 ((s.floorEvent 1).choose (s.floors []) least)
  else if allParts.any skipping && !held100 s.power.floorSince s.now then
    state 2 2 (s.choose (s.restore ks0 (s.floors ks0)) ks0)
  else
    let start := allParts.map fun p => if skipping p then s.floorOf p 0 else setOf s.chosen p
    let s := s.each allParts fun s p => s.modPart p fun pt => { pt with skipK := BitVec.ofNat 4 (least.getD p.val 0) }
    let l0 := s.leaveBoost start
    let l1 := if exceeded then (s.pull l0).getD l0 else l0
    let l2 := s.reduce 128 l1
    let l3 := if held100 s.power.underSince s.now then s.restore least l2 else l2
    state (if decide (s.guardMw < s.predict s.inForce) || exceeded then 1 else 0) 0 (s.choose l3 least)

/-- What power control does at a tick (R373 to R382, R387, R390). -/
def State.powerTick (s : State) (m : PowerIn) : State :=
  let s := { s with power := { s.power with
    sram := m.sram, logic := m.logic, other := m.otherMw
    boostOk := decide (s.maxTemp.toInt < 950) && !s.throttled } }
  let s := s.each allParts fun s p => s.measureBands m p
  let s := (s.attribute m).stepCap
  let (s, exceeded) := s.stepOver
  (s.leverOne).decide_ exceeded

/-- The prediction that includes a partition halted by action 2 exceeds the guard (R381). -/
def State.haltAgain (s : State) (p : PartId) : Bool :=
  let s' := s.modPart p fun pt => { pt with capHalt := false }
  decide (s'.guardMw < s'.predict s'.chosen)

/-- The pair of a partition after a change of its entries: the pinned pair, or one that passes (R177, R357, R360). -/
def State.fixPair (s : State) (p : PartId) : State :=
  let pt := s.part p
  let k := if pt.skipK.toNat < s.leastK p then s.leastK p else pt.skipK.toNat
  let cur : Setting := (pt.nextDiv2.toNat, pt.wantCls.toNat)
  let x : Setting := match s.pinned p with
    | some y => y
    | none =>
      if pt.image.isNone || s.fits p k cur then cur
      else if s.fits p k (16, cur.2) then (16, cur.2)
      else (([0, 1, 2].map fun c => ((16, c) : Setting)).find? (s.fits p k)).getD cur
  let keep : Bool := (s.pinned p).isNone && s.fits p k (pt.planDiv2.toNat, pt.planCls.toNat)
  let s := if pt.image.isNone ∧ pt.div2 ≠ BitVec.ofNat 8 x.1 then s.restartClocks p else s
  s.modPart p fun pt => { pt with
    ff := (s.pinned p).isSome, nextDiv2 := BitVec.ofNat 8 x.1, wantCls := BitVec.ofNat 2 x.2
    planDiv2 := if keep then pt.planDiv2 else BitVec.ofNat 8 x.1, planCls := if keep then pt.planCls else BitVec.ofNat 2 x.2
    skipK := BitVec.ofNat 4 k
    div2 := if pt.image.isNone then BitVec.ofNat 8 x.1 else pt.div2 }

/-! ### PMBus (R501, R502) -/

/-- The power that a rail counts for (R502). -/
def State.railMw (s : State) (i : Nat) : Nat :=
  if s.silent i then railMax.getD i 0 else (Store.get {} s.rails i : Rail).power

/-- A sample of DevicePower: the sum of every rail, the last four kept (R373). DEDUCED: log 90. -/
def State.takeSample (s : State) : State :=
  let sum := (List.range 16).foldl (fun n i => n + s.railMw i) 0
  { s with power := { s.power with samples := (s.power.samples ++ [sum]).drop (s.power.samples.length - 3) } }

/-- One rail's reading; a regulator that is silent for the third time in a row raises an event (R502).
DEDUCED: log 90. -/
def State.railRead (s : State) (i : Nat) (x : Option Nat) : State :=
  let r : Rail := Store.get {} s.rails i
  match x with
  | some v => { s with rails := Store.set s.rails i { r with power := v, missed := 0 } }
  | none =>
    let s := { s with rails := Store.set s.rails i { r with missed := r.missed + 1 } }
    if r.missed = 2 then s.powerEvent [2, BitVec.ofNat 8 i] else s

/-- Each segment has read its regulators (R373, R501, R502). DESIGN CHOICE: log 173. -/
def execPmbusSample (readings : List (Option Nat)) (s : State) : Outcome State Fault Refusal :=
  .next (if s.live then
    (s.each ((List.range 16).zip readings) fun s x => s.railRead x.1 x.2).takeSample
  else s)

/-- PMB_ALERT_N is low: the status words are read in place of the powers, and each that reports a fault raises an event
(R501, R502). -/
def execPmbAlert (status : List (BitVec 16)) (s : State) : Outcome State Fault Refusal :=
  .next (if s.live then
    (s.each ((List.range 16).zip status) fun s x =>
      let r : Rail := Store.get {} s.rails x.1
      let s := { s with rails := Store.set s.rails x.1 { r with status := x.2 } }
      if x.2 = 0 then s else s.powerEvent [3, BitVec.ofNat 8 x.1]).takeSample
  else s)

/-! ### Droop (R384, R385, R451) -/

/-- The STEP output of a die follows its phases (R384). -/
def execStepAssert (d : DieId) (s : State) : Outcome State Fault Refusal :=
  .next (if s.live then
    let on := (s.die d).phases.any (s.stepDue d)
    let s := s.modDie d fun x => { x with phases := x.phases.filter fun y => decide (s.phaseClock d y < y.last) }
    { s with pins := s.pins.setStep d on }
  else s)

/-- The partitions with clusters on a die. DEDUCED: log 94. -/
def State.diePartitions (s : State) (d : DieId) : List PartId := allParts.filter fun p => s.onDie p d.val

/-- Those of them whose clusters run: they hold an image (R486). DEDUCED: log 94. -/
def State.dieRunning (s : State) (d : DieId) : List PartId := (s.diePartitions d).filter s.drawing

/-- A crossing of the droop threshold starts a stretch, unless an alert hold suppresses it. Where every running partition of
the die is in fixed-frequency mode only the last-resort threshold does; LASTRESORT counts a stretch that one of them meets
(R360, R385, R451, R456, R486). DEDUCED: log 94. -/
def execDroopEvent (d : DieId) (lastResort : Bool) (s : State) : Outcome State Fault Refusal :=
  .next (
    let hold := s.alert.inCluster.any fun x => decide (x.1 / 16 = d.val)
    let ps := s.dieRunning d
    let pinned := ps.any fun p => (s.part p).ff
    let all := pinned && ps.all fun p => (s.part p).ff
    if s.live = false ∨ (s.die d).stretching = true ∨ (all = true ∧ lastResort = false) then s
    else if hold then { s with alert := { s.alert with suppressed := satAdd s.alert.suppressed 1 } }
    else
      let s := s.modDie d fun x => { x with
        stretching := true, stretchEvents := satAdd x.stretchEvents 1
        lastResort := if pinned then satAdd x.lastResort 1 else x.lastResort }
      s.each (s.diePartitions d) fun s p => s.modPart p fun pt =>
        if pt.run.active then { pt with run := { pt.run with stretched := true } } else pt)

/-- The droop event ends (R385). -/
def execDroopEventEnd (x : StretchEnd) (s : State) : Outcome State Fault Refusal :=
  .next (s.modDie x.die fun y =>
    if y.stretching then { y with stretching := false, stretchedBy := y.stretchedBy + x.periods } else y)

/-! ### Thermal limits (R386 to R389) -/

/-- The sensor with the highest valid reading. -/
def hottest (l : List (Option Int)) : Option (Nat × Int) :=
  l.zipIdx.foldl (fun (acc : Option (Nat × Int)) x =>
    match x.1 with
    | none => acc
    | some v => match acc with
      | none => some (x.2, v)
      | some y => if y.2 < v then some (x.2, v) else acc) none

/-- One unit's sensors: failed ones are excluded, 105 °C throttles, and 100 ms below 103 °C ends the throttle. With
whether an event is due. -/
def Thermal.sample (x : Thermal) (l : List (Option Int)) (limit : Nat) (now : Stamp) : Thermal × Bool :=
  let failed := (l.filter fun v => v.isNone).length
  let stuck := x.stuck || decide (limit < failed)
  let x' : Thermal := { x with failed := satOf 6 failed, stuck }
  match hottest l with
  | none => (x', stuck && !x.stuck)
  | some (i, v) =>
    let coolSince := since x.coolSince now (decide (v < 1030))
    let throttle := decide (1050 ≤ v) || (x.throttle && !held100 coolSince now)
    ({ x' with hot := BitVec.ofNat 8 i, maxTemp := BitVec.ofInt 16 v, coolSince, throttle },
      (stuck && !x.stuck) || (throttle && !x.throttle))

/-- Every junction sensor is read (R386, R387, R389). DESIGN CHOICE: log 173. -/
def execThermalSample (sensors : List (List (Option Int))) (s : State) : Outcome State Fault Refusal :=
  .next (if s.live then
    s.each ((List.range 3).zip sensors) fun s x =>
      let t : Thermal := Store.get {} s.thermal x.1
      let (t', due) := t.sample x.2 (if x.1 = 2 then 4 else 16) s.now
      let s := { s with thermal := Store.set s.thermal x.1 t' }
      let src := if x.1 = 2 then s.srcH 9 (t'.hot.toNat / 8)
        else srcNum s.devNum x.1 4 31 (t'.hot.toNat / 8)
      if due then s.raise 0x000E clsNone src noIds none [] else s
  else s)

/-- A Slack scan-out in progress ends with COMPLETE 0 when a trip comes (R392). -/
def State.cutScan (s : State) : State :=
  if s.slack.scanning then
    let s := s.each (s.stoppedParts.filter fun p => !s.slack.noCapture.getLsbD p.val) fun s p => s.writeCapture p false
    { s with slack := { s.slack with scanning := false } }.setD29
  else s

/-- 115 °C: D28 stops the clocks of both heath dies, a device-fatal fault; a scan-out or a dump in progress stays incomplete
(R388, R392). -/
def execThermalTrip (i : Fin 3) (s : State) : Outcome State Fault Refusal :=
  .next (if s.running then
    let t : Thermal := Store.get {} s.thermal i.val
    let s := { s with thermal := Store.set s.thermal i.val { t with tripped := true } }
    let src := if i.val = 2 then s.srcH 9 (t.hot.toNat / 8) else srcNum s.devNum i.val 4 31 (t.hot.toNat / 8)
    s.cutScan.cutDump.devFatalNow 2 src
  else s.cutDump)

/-! ### Clocks (R361, R364) -/

/-- A switch sequence of a band is abandoned (R372). -/
def State.dropDrain (s : State) (b : BandId) : State :=
  if s.dom b.val = .switching then s.modBand b fun x => { x with ordered := false, draining := false, toRet := false } else s

/-- Loss of lock of the root PLL or of a die PLL is device-fatal, and band sequences are abandoned (R364, R372). DESIGN CHOICE: log 173. -/
def execPllLockLoss (which : Fin 3) (s : State) : Outcome State Fault Refusal :=
  .next (if s.running then
    let c := s.rootClk
    let c := if which.val = 0 then { c with rootLock := false }
      else if which.val = 1 then { c with lockA := false } else { c with lockB := false }
    let src := if which.val = 0 then s.srcH 6 0 else srcNum s.devNum (which.val - 1) 3 31 0
    (({ s with rootClk := c }).cutScan.cutDump.each (List.finRange 16) State.dropDrain).devFatalNow 1 src
  else s)

/-- REF_PPM, saturating at ±127. DESIGN CHOICE: log 160. -/
def ppmField (ppm : Int) : BitVec 8 := BitVec.ofInt 8 (clampI (-127) 127 ppm)

/-- REFCLK stops or leaves its tolerance: REF_OK falls (R361, R364). -/
def execRefclkLoss (ppm : Int) (s : State) : Outcome State Fault Refusal :=
  .next { s with rootClk := { s.rootClk with refOk := false, refPpm := ppmField ppm } }

/-- REFCLK is back within ±300 ppm: REF_OK rises (R361, R364). -/
def execRefclkRecovery (ppm : Int) (s : State) : Outcome State Fault Refusal :=
  .next (if -300 ≤ ppm ∧ ppm ≤ 300 then
    { s with rootClk := { s.rootClk with refOk := true, refPpm := ppmField ppm } }
  else s)

end Sys2Proof.Machine
end

