-- ==== Sys2Proof/Machine/Bands.lean ====
section
/-! DEFINITION. Tile bands: switch-off, retention, switch-on with the memory self-test and its repairs (R25, R226, R233,
R235, R365 to R372, R424, R429, R430, R436). -/

namespace Sys2Proof.Machine

open Host (Outcome)

/-- The order to switch a band off; a band in RET goes OFF at once, unless it has to stay there (R368, R369). -/
def execBandSwitchOff (b : BandId) (s : State) : Outcome State Fault Refusal :=
  .next (if s.live then (if s.dom b.val = .ret then (if s.mustRet b then s else s.bandOff b) else s.bandOrder b false) else s)

/-- 4 µs after the drain began, incomplete writes are discarded with BAND_OFF (R235, R371). -/
def execBandDrainTimeout (b : BandId) (s : State) : Outcome State Fault Refusal :=
  .next (if s.live = true ∧ (s.band b).draining = true then
    let old := s.bandWrites b
    let s := s.each old fun s x => s.dropWrite x.1 x.2 rBandOff
    (s.modBand b fun x => { x with discards := satAdd x.discards old.length }).bandDown b
  else s)

/-- The order to put a band into RET (R368). -/
def execBandRetEntry (b : BandId) (s : State) : Outcome State Fault Refusal :=
  .next (if s.live then s.bandOrder b true else s)

/-! ### Memory self-test findings (R25, R430) -/

/-- The logical macro at a physical position of a tile; none for a spare that is not in use or a retired macro (R21). -/
def Tile.logical (tl : Tile) (phys : Nat) : Option Nat :=
  let r := tl.repair.retired.toNat
  if phys < r then some phys else if phys = r then none else some (phys - 1)

/-- Every tile of a cluster is unserved (R424, R430). -/
def State.unserve (s : State) (c : ClusterId) : State := s.modCluster c fun x => { x with unserved := 0xFFFF }

/-- A core is retired: the next spare serves its logical index, or none when both are taken (R18, R318, R430).
DEDUCED: log 100. -/
def State.retireCore (s : State) (n : Nat) : State :=
  { s with coreMap := Store.set s.coreMap n (if s.coreSpares < 2 then 16 + s.coreSpares else 31)
           coreSpares := min 2 (s.coreSpares + 1) }

/-- The repair of one finding of the memory self-test (R25, R430). DEDUCED: log 99, 100. -/
def State.applyFinding (s : State) (f : MemFinding) : State :=
  match f with
  | .columns t mac bank cols =>
    match (s.tile t).logical mac.val with
    | none => s
    | some m =>
      let phys := BitVec.ofNat 1 bank.val
      let steer := (((s.tile t).mac m).bank phys).steer
      match steerFor steer (cols.map BitVec.toNat).eraseDups with
      | some w =>
        if w = steer then s
        else (s.modTile t fun tl => tl.modMac m fun mc => mc.modBank phys fun b => { b with steer := w }).repairEvent t m
      | none => s.retireMacro t m []
  | .oneMacro t mac => match (s.tile t).logical mac.val with | some m => s.retireMacro t m [] | none => s
  | .tile t => s.retireTile t
  | .cluster c => (s.unserve c).modCluster c fun x => { x with field := true }
  | .core n => s.retireCore n.val
  | .replayBuffer e => (s.modEngine e fun x => { x with heldBypass := true }).toBypass e 4
  | .headland => s
  | .hbm => s

/-! ### Switch-on (R369) -/

/-- The owners of a band whose clusters are back: restored and ready. DESIGN CHOICE: log 98. -/
def State.restoreBand (s : State) (b : BandId) : State :=
  s.each (s.bandOwners b) fun s p =>
    let ts := (bandTiles b).filter fun t => (s.part p).pageReload.contains t.val
    if ts = [] then s.tryReady p
    else if (s.part p).copied = false then s.partFatal p 17 (s.srcH 0 p.val)
    else (s.each ts fun s t => s.restoreTile p t).tryReady p

/-- A running image names a tile that its cluster no longer serves (R23, R26). -/
def State.strands (s : State) (p : PartId) (b : BandId) : Bool :=
  (bandTiles b).any fun t => s.tileOwner? t == some p && (s.part p).names t && !s.served t

/-- A band is switched on: from OFF it enters its reset and self-test; the test's end, with its findings, repairs and
restores it (R369, R424). DESIGN CHOICE: log 95, 202. -/
def execBandSwitchOn (b : BandId) (findings : List MemFinding) (s : State) : Outcome State Fault Refusal :=
  .next (if s.live = true ∧ s.startWord.failmap.getLsbD b.val = false then
      if s.dom b.val = .off then
        let s := s.drawn
        (s.each (bandTiles b) fun s t => s.modTile t fun tl => tl.fresh s.freeCtr).setDom b.val .switching
      else if s.dom b.val = .switching ∧ (s.band b).draining = false then
        let mine (f : MemFinding) : Bool := match f with
          | .columns t _ _ _ => bandOf (clusterOf t) == b
          | .oneMacro t _ => bandOf (clusterOf t) == b
          | .tile t => bandOf (clusterOf t) == b
          | .cluster c => bandOf c == b
          | _ => false
        let s := (s.setDom b.val .on).modBand b fun x => { x with onAt := s.bandClocks b }
        let s := s.each (findings.filter mine) State.applyFinding
        let gone := (s.bandOwners b).filter fun p => s.strands p b
        let s := s.each gone fun s p => (s.unload p).partFatal p 16 (s.srcH 0 p.val)
        s.restoreBand b
      else s
    else s)

/-- A band leaves RET: its scratchpad banks are ON, and its pages are refilled; without a copy of the image the partition
stays not ready (R233, R265, R366, R369). -/
def execBandRetExit (b : BandId) (s : State) : Outcome State Fault Refusal :=
  .next (if s.live = true ∧ s.dom b.val = .ret then
    let s := (s.setDom b.val .on).modBand b fun x => { x with onAt := s.bandClocks b }
    let s := s.each (bandTiles b) fun s t => s.modTile t fun tl => { tl with spBanks := freshBanks (s.tileAc t) }
    s.each (s.bandOwners b) fun s p =>
      let ts := (bandTiles b).filter fun t => (s.part p).pageReload.contains t.val
      let s := if (s.part p).copied then s.each ts fun s t => s.reloadPages p t else s
      s.tryReady p
  else s)

end Sys2Proof.Machine
end

