-- ==== Sys2Proof/Machine/Dictionary.lean ====
section
/-! DEFINITION. The object dictionary: the values of its entries, snapshots, access rights, checks of writes and of sets
that are committed (R324, R325, R330 to R351). -/

namespace Sys2Proof.Machine

open Host (Outcome)

/-! ### Live values (R347 to R349) -/

/-- The result record of a commit (R333). -/
def CommitRes.value (x : CommitRes) : Nat :=
  leNat (leBytes 4 x.seq.toNat ++ leBytes 2 x.status.toNat ++ leBytes 2 0 ++ leBytes 4 x.gen.toNat ++
    leBytes 4 x.frame.toNat ++ leBytes 4 x.index.toNat ++ leBytes 8 x.short.toNat)

/-- A shortfall entry (R198). -/
def Short.bytes (x : Short) : List Byte :=
  leBytes 2 x.code.toNat ++ [x.byte2] ++ leBytes 5 0 ++ leBytes 8 x.claimed.toNat ++ leBytes 8 x.available.toNat ++
    leBytes 8 x.short.toNat

/-- The admission result (R197). -/
def AdmResult.bytes (x : AdmResult) : List Byte :=
  leBytes 2 x.status.toNat ++ [x.stage, x.eligible.setWidth 8] ++ leBytes 4 x.sect.toNat ++ leBytes 8 x.offset.toNat ++
    [x.bit, BitVec.ofNat 8 x.shorts.length, x.locus] ++ leBytes 5 0 ++ leBytes 8 x.loadNs.toNat ++ x.shorts.flatMap Short.bytes

/-- ErrorRegister (R347). DESIGN CHOICE: log 223. -/
def State.errorRegister (s : State) : Nat :=
  let portDown := (List.finRange 16).any fun p => (s.portOwner? p).isSome && (s.port p).st == 0
  b2n (allParts.any fun p => (s.part p).unacked) + 16 * b2n portDown +
    128 * b2n (s.phase == .fatal || allParts.any fun p => (s.part p).st == .halted)

/-- The value of a communication entry. DESIGN CHOICE: log 170. -/
def State.commVal (s : State) (index sub : Nat) : Nat :=
  match index, sub with
  | 0x1001, _ => s.errorRegister
  | 0x1009, _ => leNat (s.otp.hwVersion.take 8)
  | 0x100A, _ => (Config.softwareVersion s.island.slot).toNat
  | 0x1018, 4 => s.otp.serial.toNat
  | 0x1C32, 2 => (Config.cycleTime 0 s.now).toNat
  | 0x1C33, 2 => (Config.cycleTime 1 s.now).toNat
  | _, _ => Store.get (dfltOf (dkey index sub)) s.mapping (dkey index sub)

/-- LastAbort and LastReadSnapshot of a writer. -/
def State.writerSt (s : State) (w : Writer) : WriterSt := assocGet {} s.writers w

/-- Change a writer's words. -/
def State.modWriter (s : State) (w : Writer) (f : WriterSt → WriterSt) : State :=
  { s with writers := assocSet s.writers w (f (s.writerSt w)) }

/-- The value of a device entry, for a reading writer. DEDUCED: log 108. -/
def State.devVal (s : State) (w : Writer) (index sub : Nat) : Nat :=
  match index, sub with
  | 0x2000, 2 => s.island.slot.toNat
  | 0x2000, 3 => s.lcState.toNat
  | 0x2010, 2 => (assocGet {} s.devArea.results w : CommitRes).value
  | 0x2010, 4 => (assocGet {} s.devArea.results Writer.pdo : CommitRes).value
  | 0x2020, 1 => (s.writerSt w).reason.toNat
  | 0x2020, 2 => (s.writerSt w).index.toNat
  | 0x2020, 3 => (s.writerSt w).bit.toNat
  | 0x2400, 3 => s.power.floorW.toNat
  | 0x2400, 4 => (satOf 16 (s.devicePower / 1000)).toNat
  | 0x2400, 5 => s.maxTemp.toNat
  | 0x2F00, 1 => s.now.toNat
  | 0x2F00, 2 => (s.writerSt w).snap.toNat
  | 0x2F00, 3 => (s.writerSt w).kind.toNat
  | _, _ => s.dval index sub

/-- The value of an entry of a partition view, for a reading writer; FrameStatus is 0 until a frame has ended (R349).
DEDUCED: log 198. -/
def State.viewVal (s : State) (w : Writer) (p : PartId) (ofs sub : Nat) : Nat :=
  let pt := s.part p
  match ofs, sub with
  | 0x00, 1 => (s.partWord p).toNat
  | 0x00, 2 => pt.gen.toNat
  | 0x08, 2 => (assocGet {} pt.area.results w : CommitRes).value
  | 0x08, 4 => (assocGet {} pt.area.results Writer.pdo : CommitRes).value
  | 0x10, 9 => pt.overBudgetCount.toNat
  | 0x20, 2 => leNat pt.result.bytes
  | 0x20, 3 => (pt.image.map fun (im : Image) => im.imageId.toNat).getD 0
  | 0x20, 4 => (pt.image.map fun (im : Image) => im.version.toNat).getD 0
  | 0x20, 5 => pt.eligible.toNat
  | 0x40, 1 => fieldN pt.statusRec.toNat 127 96
  | 0x40, 2 => if pt.statusRec = 0xFFFFFFFF then 0 else pt.statusRec.toNat
  | 0x40, 3 => pt.timingRec.toNat
  | 0x40, 4 => (pt.lastAlert.map fun (m : AlertMsg) => leNat (alertBytes m)).getD 0
  | 0x40, 5 => pt.alertCount.toNat
  | 0x48, 1 => ((List.range 8).foldl (fun (n : BitVec 64) q => n + Store.get 0 pt.energy q) 0).toNat
  | 0x60, 1 => pt.ownerRsa.toNat
  | 0x60, 2 => pt.ownerSlh.toNat
  | _, _ => s.vval p ofs sub

/-- The partition whose view an index lies in. -/
def viewOf (index : Nat) : PartId := ⟨index / 256 % 8, by omega⟩

/-- The value of an entry now; the view of a DISABLED partition reads as the defaults (R349).
DESIGN CHOICE: log 102. -/
def State.liveVal (s : State) (w : Writer) (index sub : Nat) : Nat :=
  if index < 0x2000 then s.commVal index sub
  else if index < 0x3000 then s.devVal w index sub
  else if (s.part (viewOf index)).st = .disabled then dfltOf (dkey index sub)
  else s.viewVal w (viewOf index) (index % 256) sub

/-! ### Snapshots (R332, R334) -/

/-- The area of an index. -/
def areaOf (index : Nat) : AreaId := if 0x3000 ≤ index then .view (viewOf index) else .device

/-- An area. -/
def State.area (s : State) (a : AreaId) : Area := match a with | .device => s.devArea | .view p => (s.part p).area

/-- Change an area. -/
def State.modArea (s : State) (a : AreaId) (f : Area → Area) : State :=
  match a with
  | .device => { s with devArea := f s.devArea }
  | .view p => s.modPart p fun pt => { pt with area := f pt.area }

/-- Entries that are read live: the communication area, the commit objects and results, what belongs to the reading
writer, LastAlert and AlertCount (R333, R344, R455). DEDUCED: log 101. -/
def readLive (index sub : Nat) : Bool :=
  decide (index < 0x2000) || index == 0x2010 || index == 0x2020 || (index == 0x2F00 && sub != 1) ||
    (decide (0x3000 ≤ index) && (index % 256 == 8 || (index % 256 == 0x40 && decide (4 ≤ sub))))

/-- The entries of a list of indexes that a snapshot holds, ascending. DESIGN CHOICE: log 102. -/
def snapKeys (l : List Nat) : List (Nat × Nat) :=
  l.flatMap fun i => ((List.range 10).filter fun sub => (entry? i sub).isSome && !readLive i sub).map fun sub => (i, sub)

/-- The indexes of an area. -/
def areaIndexes (a : AreaId) : List Nat :=
  match a with
  | .device => [0x2000] ++ (List.range 8).map (0x2100 + ·) ++ [0x2110] ++ (List.range 65).map (0x2200 + ·) ++
      (List.range 8).map (0x2300 + ·) ++ [0x2310, 0x2320] ++ (List.range 16).map (0x2330 + ·) ++ [0x2400, 0x2500, 0x2F00]
  | .view p => ([0x00, 0x10, 0x18, 0x20] ++ (List.range 16).map (0x30 + ·) ++ [0x40, 0x48, 0x50, 0x60]).map fun o =>
      0x3000 + 256 * p.val + o

/-- The values that a snapshot of an area holds. -/
def State.snapshot (s : State) (a : AreaId) : Store Nat :=
  (snapKeys (areaIndexes a)).map fun x => (dkey x.1 x.2, s.liveVal .firmware x.1 x.2)

/-- The writes of the dictionary are over for good: the shutdown has begun (R334, R426). -/
def State.closing (s : State) : Bool := s.phase == .ebb

/-- The snapshot at a frame boundary, tagged with the frame that ended (R332, R334). -/
def State.frameSnapshot (s : State) (p : PartId) : State :=
  if s.closing then s
  else
    let snap := s.snapshot (.view p)
    s.modPart p fun pt => { pt with area := { pt.area with
      snap, snapTag := BitVec.ofNat 64 (fieldN pt.statusRec.toNat 127 96) } }

/-- The snapshots of a 1 ms tick: the device area and every view (R334). -/
def State.tickSnapshots (s : State) : State :=
  if s.closing then s
  else
    s.each (.device :: allParts.map AreaId.view) fun s a =>
      let snap := s.snapshot a
      s.modArea a fun x => { x with tick := snap, tickTag := s.now }

/-- Reads of an area come from its frame snapshot: the image that is loaded has met a boundary (R334). DESIGN CHOICE: log 102. -/
def State.frameView (s : State) (a : AreaId) : Bool :=
  match a with
  | .device => false
  | .view p => (s.part p).image.isSome && !(s.part p).area.snap.isEmpty

/-- The snapshot that reads of an area come from, and its tag (R334). -/
def State.snapOf (s : State) (a : AreaId) : Store Nat × BitVec 64 :=
  let x := s.area a
  if s.frameView a then (x.snap, x.snapTag) else (x.tick, x.tickTag)

/-- A DISABLED partition's view (R349). -/
def State.viewOff (s : State) (index : Nat) : Bool := decide (0x3000 ≤ index) && (s.part (viewOf index)).st == .disabled

/-- The value that a read returns (R334, R349). DESIGN CHOICE: log 102. -/
def State.readVal (s : State) (w : Writer) (index sub : Nat) : Nat :=
  if readLive index sub || s.viewOff index then s.liveVal w index sub
  else
    match (s.snapOf (areaOf index)).1.find? fun x => decide (x.1 = dkey index sub) with
    | some x => x.2
    | none => s.liveVal w index sub

/-- A read of an RC entry clears the live counter by what the snapshot held; what came later stays (R13, R334, R351). -/
def State.clearRc (s : State) (index sub v : Nat) : State :=
  if 0x3000 ≤ index ∧ index % 256 = 0x10 ∧ sub = 9 then
    s.modPart (viewOf index) fun pt => { pt with
      overBudgetCount := BitVec.ofNat 32 (pt.overBudgetCount.toNat - v)
      area := { pt.area with snap := Store.erase pt.area.snap (dkey index sub), tick := Store.erase pt.area.tick (dkey index sub) } }
  else s

/-! ### Access (R340, R341, R344) -/

/-- A refusal of a request: REASON, the abort code, the entry, the refused bit (R344). -/
structure Abort where
  reason : BitVec 8
  code : BitVec 32
  key : Nat
  bit : Nat := 0
  deriving DecidableEq, Repr

/-- The column of a host slot's role (R341). -/
def roleCol (e : Ent) (role : Nat) : Acc :=
  match role with | 1 => e.acc.2.1 | 2 => e.acc.2.2.1 | 3 => e.acc.2.2.2 | _ => .no

/-- The access of a writer to an entry (R341). -/
def State.accFor (s : State) (w : Writer) (index : Nat) (e : Ent) : Acc :=
  match w with
  | .firmware => .full
  | .host p slot =>
    if 0x3000 ≤ index ∧ viewOf index ≠ p then .no else roleCol e (s.slotRole p slot.val)
  | _ =>
    if 0x3000 ≤ index ∧ bitN (s.dval 0x2110 0) (viewOf index).val = false ∧ (e.acc.1 = .w ∨ e.acc.1 = .x) then .r
    else e.acc.1

/-- The sub-indexes that the tables list for an index, ascending. -/
def subsOf (index : Nat) : List Nat := (List.range 65).filter fun sub => (entry? index sub).isSome

/-- An entry that does not exist (R340). -/
def noEntry (index sub : Nat) : Abort :=
  { reason := 1, code := if subsOf index = [] then 0x06020000 else 0x06090011, key := dkey index sub }

/-- The refusal of a read, if any (R340, R341, R344). -/
def State.readFault (s : State) (w : Writer) (index sub : Nat) : Option Abort :=
  match entry? index sub with
  | none => some (noEntry index sub)
  | some e =>
    match s.accFor w index e with
    | .no => some { reason := 2, code := 0x06010000, key := dkey index sub }
    | .x => some { reason := 3, code := 0x06010001, key := dkey index sub }
    | _ => none

/-- A view takes writes: its partition is not DISABLED and its guest has booted (R322, R344). -/
def State.viewReady (s : State) (index : Nat) : Bool :=
  decide (index < 0x3000) || ((s.part (viewOf index)).st != .disabled && (s.part (viewOf index)).guestBooted)

/-- The refusal of a write by its length, range and reserved bits (R342, R344). -/
def valueFault (e : Ent) (key : Nat) (data : List Byte) : Option Abort :=
  let v := leNat data
  if data.length ≠ e.size then some { reason := 4, code := 0x06070010, key }
  else if e.hi < v then some { reason := 5, code := 0x06090031, key }
  else if v < e.lo then some { reason := 5, code := 0x06090032, key }
  else if e.listed ≠ [] ∧ e.listed.contains v = false then some { reason := 5, code := 0x06090030, key }
  else
    match (List.range (8 * e.size)).find? fun i => v.testBit i && e.rsvd.testBit i with
    | some i => some { reason := 6, code := 0x06090030, key, bit := i }
    | none => none

/-- The bytes that a mapping object's counted entries take. DEDUCED: log 106. -/
def State.mapBytes (s : State) (index : Nat) : Nat :=
  ((List.range (s.commVal index 0)).foldl (fun n i => n + s.commVal index (i + 1) % 256) 0 + 7) / 8

/-- A mapping value names a whole entry that may be mapped in this direction, or is 0 (R346, R347).
DEDUCED: log 106. -/
def State.mappable (s : State) (index v : Nat) : Bool :=
  v == 0 ||
    (match entry? (v / 65536) (v / 256 % 256) with
    | none => false
    | some e =>
      let a := s.accFor .coe (v / 65536) e
      let way : Bool := if index = 0x1600 then a == .w || a == .x else a == .r || a == .c
      e.pdo && way && v % 256 == 8 * e.size)

/-- The refusal of a direct write of a communication entry (R344, R346, R347). -/
def State.commFault (s : State) (index sub v : Nat) : Option Abort :=
  let key := dkey index sub
  if s.ecat.st ≠ .preop then some { reason := 0x0A, code := 0x08000022, key }
  else if (index = 0x1600 ∨ index = 0x1A00) ∧ sub ≠ 0 ∧ s.mappable index v = false then
    some { reason := 0x0B, code := 0x06040041, key }
  else none

/-- The refusal of a write, if any: the checks that are made when it arrives (R322, R330, R340 to R344). -/
def State.writeFault (s : State) (w : Writer) (index sub : Nat) (data : List Byte) : Option Abort :=
  let key := dkey index sub
  if s.phase = .ebb then some { reason := 9, code := 0x08000022, key }
  else if s.phase ≠ .service then some { reason := 8, code := 0x08000022, key }
  else
    match entry? index sub with
    | none => some (noEntry index sub)
    | some e =>
      if s.viewReady index = false then some { reason := 8, code := 0x08000022, key }
      else
        match s.accFor w index e with
        | .no => some { reason := 2, code := 0x06010000, key }
        | .r => some { reason := 3, code := 0x06010002, key }
        | .c => some { reason := 3, code := 0x06010002, key }
        | _ =>
          match valueFault e key data with
          | some a => some a
          | none => if index < 0x2000 then s.commFault index sub (leNat data) else none

/-! ### Staging (R330) -/

/-- The set of a writer in an area. -/
def Area.setOf (a : Area) (w : Writer) : List (Nat × Nat) := assocGet [] a.staged w

/-- The bytes of values in a set. -/
def setBytes (l : List (Nat × Nat)) : Nat :=
  l.foldl (fun n x => n + (match entry? (x.1 / 256) (x.1 % 256) with | some e => e.size | none => 0)) 0

/-- A set within the limits of R330. -/
def setFits (l : List (Nat × Nat)) : Bool := decide (l.length ≤ 256) && decide (setBytes l ≤ 65536)

/-! ### The checks of a set (R177, R324, R331, R350, R360) -/

/-- The values of sets laid over the dictionary, in order. -/
def State.over (s : State) (l : List (Nat × Nat)) : State :=
  { s with dict := l.foldl (fun d x => Store.set d x.1 x.2) s.dict }

/-- The timing check of a partition under the values of `s`: the shortfall in ns when it fails (R177, R350, R380).
DEDUCED: log 110. -/
def State.timingFault (s : State) (p : PartId) : Option Nat :=
  match (s.part p).image with
  | none => none
  | some im =>
    let k := if 2 ≤ (s.part p).skipK.toNat then 15 else 1
    let deadline := k * s.vval p 0x10 1
    let reserve := s.vval p 0x10 2
    let short (c div2 : Nat) : Nat :=
      let x := pairShort (im.nominal.getD c 0) div2 deadline reserve
      x.1 - x.2
    match s.pinned p with
    | some (div2, c) =>
      if im.variants.getLsbD c && pairPasses (im.nominal.getD c 0) div2 deadline reserve then none
      else some (if im.variants.getLsbD c then short c div2 else 0)
    | none =>
      let cs := (List.range 3).filter fun c => im.variants.getLsbD c
      if cs.any fun c => pairPasses (im.nominal.getD c 0) 16 deadline reserve then none
      else some ((cs.map fun c => short c 16).foldl min (short (cs.headD 0) 16))

/-- The address and port of a slot. DEDUCED: log 129. -/
def State.slotPair (s : State) (p : PartId) (n : Nat) : Nat × Nat := (s.vval p (0x30 + n) 1, s.vval p (0x30 + n) 2)

/-- A slot's pair is registered a second time on the device (R350). DESIGN CHOICE: log 109. -/
def State.slotTwice (s : State) (p : PartId) (n : Nat) : Bool :=
  let x := s.slotPair p n
  s.slotRegistered p n &&
    allParts.any fun q => (List.range 16).any fun m => !(q == p && m == n) && s.slotRegistered q m && s.slotPair q m == x

/-- A layout record is valid among the others (R323, R324). -/
def State.layoutOk (s : State) (p : PartId) : Bool :=
  if s.enabled p then
    s.clusterMask p != 0 && decide (1 ≤ popcount (s.coreMask p)) && decide (popcount (s.coreMask p) ≤ 4) &&
      !(s.slices p).isEmpty &&
      allParts.all fun q => q == p ||
        (s.clusterMask p &&& s.clusterMask q == 0 && s.coreMask p &&& s.coreMask q == 0 &&
          s.vcMask p &&& s.vcMask q == 0 && s.portMask p &&& s.portMask q == 0 &&
          (s.slices p).all fun x => !(s.slices q).contains x)
  else s.layout p == 0

/-- The first failing entry of an entry's check in a view: its key and the shortfall. `s` holds the values to come.
DESIGN CHOICE: log 109. -/
def State.viewFault (s : State) (p : PartId) (k v : Nat) : Option (Nat × Nat) :=
  let ofs := k / 256 % 256
  let sub := k % 256
  let im := (s.part p).image
  let timing : Bool := ofs == 0x10 && [1, 2, 6, 7, 8].contains sub
  if timing then
    let absent : Bool := match im, s.pinned p with
      | some im, some (_, c) => !im.variants.getLsbD c
      | _, _ => false
    if s.vval p 0x10 6 = 1 ∧ s.vval p 0x10 7 = 14 then some (vkey p.val 0x10 7, 0)
    else if absent then some (vkey p.val 0x10 8, 0)
    else (s.timingFault p).map fun n => (k, n)
  else
    let bad : Bool :=
      if ofs = 0x18 ∧ sub = 1 then
        match im with
        | some im => maskShort (Store.get 0 im.claims 8) (2 ^ v) != 0
        | none => false
      else if ofs = 0x18 then
        bitN v 31 &&
          (((List.range 8).any fun i => i + 2 != sub && s.vval p 0x18 (i + 2) == v) ||
            (match im with | some im => !s.namesWindow p im (v % 2 ^ 24) | none => false))
      else if 0x30 ≤ ofs ∧ ofs ≤ 0x3F then
        let n := ofs - 0x30
        let x := s.slotPair p n
        let roles := (List.range 16).map fun m => s.slotRole p m
        s.slotTwice p n || (s.slotRole p n != 0 && (x.1 == 0 || x.2 == 0)) ||
          (sub == 3 && (roles.any fun r => r != 0) && !roles.contains 1)
      else if ofs = 0x50 ∧ sub = 1 then decide (2 ≤ v) && s.startWord.failmap.getLsbD 29
      else false
    if bad then some (k, 0) else none

/-- The layout records that wait for their partitions count as applied in the checks of later commits (R331). -/
def State.layoutsDue (s : State) (a : AreaId) : List (Nat × Nat) :=
  match a with
  | .device => allParts.filterMap fun p => (s.part p).layoutNew.map fun v => (dkey (0x2100 + p.val) 0, v)
  | .view _ => []

/-- The first failing entry of a set in an area, in ascending order of index and sub: its key and the shortfall (R331,
R350). DESIGN CHOICE: log 109; DEDUCED: log 135. -/
def State.setFault (s : State) (a : AreaId) (set : List (Nat × Nat)) : Option (Nat × Nat) :=
  let s' := s.over (s.layoutsDue a ++ (s.area a).queue.flatMap (fun c => c.set) ++ set)
  let first (best : Option (Nat × Nat)) (x : Nat × Nat) : Option (Nat × Nat) :=
    match best with
    | none => some x
    | some b => if x.1 < b.1 then some x else best
  let fails : List (Nat × Nat) := set.filterMap fun x =>
    match a with
    | .view p => s'.viewFault p x.1 x.2
    | .device =>
      let record : PartId := ⟨x.1 / 256 % 8, by omega⟩
      if 0x2100 ≤ x.1 / 256 ∧ x.1 / 256 ≤ 0x2107 ∧ s'.layoutOk record = false then some (x.1, 0) else none
  fails.foldl first none

end Sys2Proof.Machine
end

