-- ==== Sys2Proof/Machine/Commit.lean ====
section
/-! DEFINITION. Commits of staged sets, what they change, re-arm, layout changes, dictionary requests and their answers
(R282, R309, R325, R330 to R335, R340 to R345, R348 to R351, R360, R370, R381, R477). -/

namespace Sys2Proof.Machine

open Host (Outcome)

/-! ### What a commit changes (R325, R331, R332, R343, R348, R349) -/

/-- ACCEPTED, APPLIED, CHECK and BUSY (R333). -/
def stAccepted : BitVec 16 := 0
/-- APPLIED. -/
def stApplied : BitVec 16 := 1
/-- CHECK. -/
def stCheck : BitVec 16 := 2
/-- BUSY of a commit. -/
def stBusyCommit : BitVec 16 := 3

/-- Put values in force and into flash: entries that are written; one whose default is the image's is not kept in flash,
nor is one that only vendor firmware can write (R341, R343). DEDUCED: log 225. -/
def State.putInForce (s : State) (set : List (Nat × Nat)) : State :=
  set.foldl (fun s x =>
    match entry? (x.1 / 256) (x.1 % 256) with
    | some e =>
      if e.acc.1 ≠ .x then
        let s := { s with dict := Store.set s.dict x.1 x.2 }
        if e.image || e.acc.1 != .w then s else { s with flash := { s.flash with dict := Store.set s.flash.dict x.1 x.2 } }
      else s
    | none => s) s

/-- The classes of the image that pass under the values in force (R177). -/
def State.refreshEligible (s : State) (p : PartId) : State :=
  match (s.part p).image with
  | none => s
  | some im => s.modPart p fun pt => { pt with
      eligible := im.eligible (s.pinned p) (s.vval p 0x10 1) (s.vval p 0x10 2) }

/-- A set names an entry of a partition's view. -/
def names (set : List (Nat × Nat)) (ofs sub : Nat) : Bool :=
  set.any fun x => x.1 / 256 % 256 == ofs && x.1 % 256 == sub

/-- A set writes ReArm with the value 1. -/
def rearms (set : List (Nat × Nat)) : Bool := set.any fun x => x.1 / 256 % 256 == 0x00 && x.1 % 256 == 3 && x.2 == 1

/-- What follows from new values of a view. -/
def State.viewEffects (s : State) (p : PartId) (set : List (Nat × Nat)) : State :=
  let s := if set.any fun x => x.1 / 256 % 256 == 0x10 && [1, 2, 6, 7, 8].contains (x.1 % 256) then
      (s.refreshEligible p).fixPair p
    else s
  let s := if names set 0x18 1 then s.regroup else s
  let s := if names set 0x50 1 then s.setD29 else s
  if names set 0x20 1 then s.modPart p fun pt => { pt with loadAsked := true } else s

/-- The result record of a commit becomes APPLIED, if it is still the writer's latest. -/
def markApplied (results : List (Writer × CommitRes)) (c : PendCommit) (gen frame : BitVec 32) :
    List (Writer × CommitRes) :=
  let r : CommitRes := assocGet {} results c.writer
  if r.seq = c.seq then assocSet results c.writer { seq := c.seq, status := stApplied, gen, frame } else results

/-- One pending commit of a view applies (R332). -/
def State.applyOne (s : State) (p : PartId) (c : PendCommit) : State :=
  let s := (s.putInForce c.set).modPart p fun pt => { pt with gen := pt.gen + 1 }
  let s := s.viewEffects p c.set
  let frame := (s.group (s.gateGroup p)).frame + 1
  s.modPart p fun pt => { pt with area := { pt.area with results := markApplied pt.area.results c pt.gen frame } }

/-- The pending commits of a view apply, in the order they were accepted (R332). -/
def State.applyPending (s : State) (p : PartId) : State :=
  let q := (s.part p).area.queue
  (s.modPart p fun pt => { pt with area := { pt.area with queue := [] } }).each q fun s c => s.applyOne p c

/-- A HALTED partition leaves HALTED at the boundary of the commit that re-arms it, unless the cap halts it again (R332,
R379, R381, R477). DEDUCED: log 113. -/
def State.leaveHalted (s : State) (p : PartId) : State :=
  let s := if (s.part p).slackStopped then s.endStop p else s
  let capped := (s.part p).capHalt
  let s := (s.applyPending p).modPart p fun pt => { pt with
    st := if pt.image.isSome then .idle else .empty, capHalt := false, rearmDue := false, boundaryDue := false
    unacked := false }
  let s := s.frameSnapshot p
  if capped && s.haltAgain p then
    ((s.modPart p fun pt => { pt with st := .halted, capHalt := true }).retBands p).powerEvent [3]
  else s.tryReady p

/-! ### Fabric start (R32, R282, R292, R322) -/

/-- An engine at fabric start, with the modes of its entries: in Ethernet mode its switch moves to THROUGH and is held
there; in Ronor mode it is in BYPASS with cause 7; without power, or with a faulty replay buffer, with cause 4.
DEDUCED: log 57, 155. -/
def Engine.atStart (x : Engine) (on modeEth stayBypass : Bool) (pref : BitVec 1) : Engine :=
  let x : Engine := { x with modeEth, stayBypass, laserPref := pref, ethMode := modeEth, ethHeld := false }
  let inBypass : SwitchSt := if x.switch = .bypass then .bypass else .toBypass
  if modeEth && (x.switch == .through) then x
  else if on && modeEth then { x with switch := .toThrough }
  else { x with switch := inBypass, bypReason := if on then 7 else 4 }

/-- The fabric starts: the device number is in effect, every engine takes its mode, and a port of an engine in Ethernet mode its
form (R292, R293). -/
def State.fabricStart (s : State) : State :=
  let s := { s with devNum := BitVec.ofNat 8 (s.dval 0x2000 1), fabricUp := true }
  let s := s.each (List.finRange 8) fun s e =>
    let v (sub : Nat) : Nat := s.dval (0x2300 + e.val) sub
    let on := s.engineOn e && !(s.engine e).heldBypass
    let s := s.modEngine e fun x => x.atStart on (v 1 == 1) (v 2 == 1) (BitVec.ofNat 1 (v 3))
    s.each (portsOf e) fun s q => s.modPort q fun x => { x with eth := v 1 == 1 }
  s.reroute.regroup

/-- Every guest that boots has booted, or has failed to (R322). -/
def State.guestsDone (s : State) : Bool :=
  allParts.all fun p => !s.enabled p || !s.coresUp p || (s.part p).guestBooted || (s.part p).guestFailed

/-- The fabric starts after the guests (R322, R420). -/
def State.fabricIfReady (s : State) : State :=
  if s.phase = .service ∧ s.fabricUp = false ∧ s.guestsDone = true then s.fabricStart else s

/-! ### Layout changes (R325) -/

/-- The record to come meets no record in force of another partition. DESIGN CHOICE: log 112. -/
def State.layoutFits (s : State) (p : PartId) (v : Nat) : Bool :=
  (s.over [(dkey (0x2100 + p.val) 0, v)]).layoutOk p

/-- The core domains that the enabled records and the hypervisor use are ON, but for one that failed its start test (R318,
R320, R430).
DESIGN CHOICE: log 112. -/
def State.coresOn (s : State) : State :=
  s.each [0, 1] fun s i =>
    if s.coreDomUsed i = false ∨ s.startWord.failmap.getLsbD (24 + i) = true then s else s.setDom (24 + i) .on

/-- The idle times of the banks of tiles whose owner changes go on by the new owner's ac clock (R233). -/
def State.carryClocks (s old : State) : State :=
  let carry (t : TileId) (tl : Tile) : Tile :=
    let go (k : SpBankSt) : SpBankSt := { k with touched := s.tileAc t - (old.tileAc t - k.touched) }
    if s.tileOwner? t = old.tileOwner? t then tl else { tl with spBanks := tl.spBanks.map fun x => (x.1, go x.2) }
  { s with tiles := s.tiles.map fun x =>
      (x.1, match (List.finRange 512)[x.1]? with | some t => carry t x.2 | none => x.2) }

/-- A partition whose old record has left force takes its new one, once that meets none in force: its guest reboots with the
partition EMPTY, and one whose cores are not there stays DISABLED (R325, R424). DESIGN CHOICE: log 112. -/
def State.takeLayout (s : State) (p : PartId) : State :=
  match (s.part p).layoutNew with
  | none => s
  | some v =>
    if s.layout p = 0 ∧ s.layoutFits p v = true then
      let s := ({ s with dict := Store.set s.dict (dkey (0x2100 + p.val) 0) v } : State).carryClocks s
      s.modPart p fun pt => { pt with layoutNew := none, st := if bitN v 0 && s.coresUp p then .empty else .disabled }
    else s

/-- A partition whose record changes: it withdraws and unloads, its guest stops, what is pending is discarded, and its old
record leaves force; then every partition that waits for resources takes its new record if it can (R325).
DESIGN CHOICE: log 112. -/
def State.changeLayout (s : State) (p : PartId) : State :=
  let pt := s.part p
  if pt.layoutNew.isNone = true ∨ s.live = false ∨ pt.run.active = true ∨ pt.armed = true then s
  else
    let s := ((((s.withdraw p).abandon p).unload p).enrolNow p).dropView p stLayout
    let s := if (s.part p).slackStopped then s.leaveStop p else s
    let s := ({ s with dict := Store.set s.dict (dkey (0x2100 + p.val) 0) 0 } : State).carryClocks s
    let s := s.modPart p fun pt => { pt with
      guestBooted := false, guestFailed := false, run := {}, boundaryDue := false, capHalt := false, rearmDue := false
      retire := [], loadAsked := false, st := .disabled }
    (s.each allParts State.takeLayout).coresOn.regroup.fabricIfReady

/-- The guest of a partition whose record has changed reboots, with the partition EMPTY. The command acts at the
partition's next boundary, or at once without a running image (R325). DESIGN CHOICE: log 112. -/
def execLayoutChange (p : PartId) (s : State) : Outcome State Fault Refusal :=
  .next (if (s.part p).boundaryDue = true ∨ (s.part p).image.isNone = true ∨ (s.part p).st = .halted then s.changeLayout p
  else s)

/-! ### The device area (R332, R348) -/

/-- What follows from a new value of a device entry. -/
def State.deviceEffect (s : State) (k v : Nat) : State :=
  let index := k / 256
  let sub := k % 256
  if 0x2300 ≤ index ∧ index ≤ 0x2307 then
    let e : EngineId := ⟨index % 8, by omega⟩
    let s := s.modEngine e fun x =>
      if sub = 1 then { x with modeEth := v == 1 }
      else if sub = 2 then { x with stayBypass := v == 1 }
      else { x with laserPref := BitVec.ofNat 1 v }
    let s := if sub = 2 ∧ v = 1 ∧ (s.engine e).ethMode = false then s.toBypass e 3 else s
    if sub = 2 then s.pairPower e else s
  else if 0x2330 ≤ index ∧ index ≤ 0x233F then
    let link := 8 * (index - 0x2330) + (sub - 1)
    { s with neighbours := s.neighbours.filter fun x => x.link != link }
  else s

/-- One device-area commit applies: a layout record waits for its partition, every other entry is in force (R325, R332,
R343). -/
def State.applyDevice (s : State) (c : PendCommit) : State :=
  let isLayout (x : Nat × Nat) : Bool := decide (0x2100 ≤ x.1 / 256) && decide (x.1 / 256 ≤ 0x2107)
  let s := s.putInForce (c.set.filter fun x => !isLayout x)
  let s := s.each (c.set.filter isLayout) fun s x =>
    let p : PartId := ⟨x.1 / 256 % 8, by omega⟩
    let s := { s with flash := { s.flash with dict := Store.set s.flash.dict x.1 x.2 } }
    s.modPart p fun pt => { pt with layoutNew := if s.layout p = x.2 then none else some x.2 }
  let s := s.each (c.set.filter fun x => !isLayout x) fun s x => s.deviceEffect x.1 x.2
  { s with devArea := { s.devArea with results := markApplied s.devArea.results c 0 0 } }

/-- Device-area commits apply at a 1 ms tick; a partition without a running image takes its new record at once (R325,
R332). -/
def execDeviceCommitApply (s : State) : Outcome State Fault Refusal :=
  .next (if s.phase = .service then
    let q := s.devArea.queue
    let s := ({ s with devArea := { s.devArea with queue := [] } }).each q State.applyDevice
    let idle (p : PartId) : Bool := (s.part p).layoutNew.isSome && (s.part p).image.isNone && (s.part p).admission.isNone
    s.each (allParts.filter idle) fun s p => s.changeLayout p
  else s)

/-! ### Submission (R331 to R333) -/

/-- Set a writer's result record. -/
def State.setResult (s : State) (a : AreaId) (w : Writer) (r : CommitRes) : State :=
  s.modArea a fun x => { x with results := assocSet x.results w r }

/-- The index:sub form of a key in a result record. DEDUCED: log 135. -/
def keyField (k : Nat) : BitVec 32 := BitVec.ofNat 32 (k / 256 * 65536 + k % 256 * 256)

/-- Submit the set of a writer: refused with BUSY or CHECK and kept, or accepted with the next sequence number of its area; in
a partition without a running image, and in a HALTED one that the set re-arms, the boundary falls at the acceptance (R331 to
R333, R335). DESIGN CHOICE: log 134. -/
def State.submit (s : State) (w : Writer) (a : AreaId) : State :=
  let ar := s.area a
  let set := ar.setOf w
  let part : Option PartId := match a with | .view p => some p | .device => none
  let halted : Bool := match part with | some p => (s.part p).st == .halted | none => false
  let rearm := halted && rearms set
  let seq := ar.seq + 1
  if part.isSome && decide (15 ≤ ar.queue.length) && !rearm then s.setResult a w { status := stBusyCommit }
  else
    match s.setFault a set with
    | some (k, short) => s.setResult a w { status := stCheck, index := keyField k, short := BitVec.ofNat 64 short }
    | none =>
      let s := s.modArea a fun x => { x with
        seq, staged := x.staged.filter fun y => y.1 != w, queue := x.queue ++ [{ seq, writer := w, set }] }
      let s := s.setResult a w { seq, status := stAccepted }
      match part with
      | none => s
      | some p =>
        let s := if names set 0x50 1 then s.setD29 else s
        if rearm then
          if s.slack.scanning && (s.part p).slackStopped then s.modPart p fun pt => { pt with rearmDue := true }
          else s.leaveHalted p
        else if !halted && (s.part p).image.isNone && (s.part p).st != .loading then s.applyPending p
        else s

/-! ### Requests -/

/-- The dictionary is served (R322, R334, R447). -/
def State.dictReady (s : State) : Bool := s.phase == .service || s.phase == .ebb || s.phase == .fatal

/-- A writer may send a request: the mailbox serves CoE, or its slot is registered (R306, R337). The PDO writer sends
none. -/
def State.mayAsk (s : State) (w : Writer) : Bool :=
  s.dictReady &&
    (match w with
    | .coe => s.coeOpen
    | .pdo => false
    | .host p slot => s.slotRegistered p slot.val
    | .firmware => true)

/-- A refusal is held in LastAbort of its writer (R344). -/
def State.noteAbort (s : State) (w : Writer) (x : Abort) : State :=
  s.modWriter w fun y => { y with reason := x.reason, index := keyField x.key, bit := BitVec.ofNat 16 x.bit }

/-- The dictionary response of the transport (R345). -/
def dictResponse (abort : BitVec 32) (reason : BitVec 8) (index sub : Nat) (snap : BitVec 64) (tick : Bool)
    (data : List Byte) : List Byte :=
  leBytes 4 abort.toNat ++ [reason, 0] ++ leBytes 2 index ++ [BitVec.ofNat 8 sub] ++ leBytes 3 0 ++ leBytes 4 data.length ++
    leBytes 8 snap.toNat ++ [BitVec.ofNat 8 (b2n tick)] ++ leBytes 7 0 ++ data

/-- Where answers to a writer go: the mailbox, the registered address of a slot, or firmware itself. -/
def State.askedBy (s : State) (w : Writer) : Dest :=
  match w with
  | .host p slot => .slot p slot
  | .firmware => .device s.devNum
  | _ => .ecat

/-- Answer a request: over CoE with the abort code, over the transport with the response of R345. -/
def State.answer (s : State) (w : Writer) (to_ : Dest) (index sub : Nat) (r : Except Abort (List Byte)) (snap : BitVec 64)
    (tick : Bool) : State :=
  let code : BitVec 32 := match r with | .error a => a.code | .ok _ => 0
  let reason : BitVec 8 := match r with | .error a => a.reason | .ok _ => 0
  let data : List Byte := match r with | .error _ => [] | .ok l => l
  let s := match r with | .error a => s.noteAbort w a | .ok _ => s
  match w with
  | .host _ _ => s.send to_ (.dict (dictResponse code reason index sub snap tick data))
  | _ => s.send to_ (.sdo code data)

/-- The commit object of an area. -/
def commitKey (a : AreaId) : Nat := match a with | .device => dkey 0x2010 1 | .view p => vkey p.val 0x08 1

/-- Enter checked values: communication entries directly, every other into the writer's set, all or none (R330, R342,
R347). -/
def State.enter (s : State) (w : Writer) (index : Nat) (l : List (Nat × Nat)) : Except Abort State :=
  if index < 0x2000 then .ok { s with mapping := l.foldl (fun m x => Store.set m x.1 x.2) s.mapping }
  else
    let a := areaOf index
    let set := l.foldl (fun m x => assocSet m x.1 x.2) ((s.area a).setOf w)
    if setFits set then .ok (s.modArea a fun x => { x with staged := assocSet x.staged w set })
    else .error { reason := 7, code := 0x05040005, key := (l.headD (dkey index 0, 0)).1 }

/-- The communication entries after a write of entries of an index (R346). -/
def State.commAfter (s : State) (index : Nat) (l : List (Nat × List Byte)) : State :=
  { s with mapping := l.foldl (fun m x => Store.set m (dkey index x.1) (leNat x.2)) s.mapping }

/-- A write of entries of one index: refused by the first check that fails, submitted when it is the commit object, or
entered (R331, R342). -/
def State.write (s : State) (w : Writer) (index : Nat) (l : List (Nat × List Byte)) : Except Abort State :=
  match l.findSome? fun x => s.writeFault w index x.1 x.2 with
  | some a => .error a
  | none =>
    if l.map (fun x => dkey index x.1) = [commitKey (areaOf index)] then .ok (s.submit w (areaOf index))
    else if (index = 0x1600 ∨ index = 0x1A00) ∧ 1024 < (s.commAfter index l).mapBytes index then
      .error { reason := 0x0B, code := 0x06040042, key := (l.map fun x => dkey index x.1).headD 0 }
    else s.enter w index (l.map fun x => (dkey index x.1, leNat x.2))

/-- The size of an entry. -/
def entrySize (index sub : Nat) : Nat := match entry? index sub with | some e => e.size | none => 0

/-- Cut the data of a complete access at the sizes of its sub-entries; what is left over goes to the last.
DEDUCED: log 101. -/
def cutData (index : Nat) : List Nat → List Byte → List (Nat × List Byte)
  | [], _ => []
  | [sub], l => [(sub, l)]
  | sub :: subs, l => (sub, l.take (entrySize index sub)) :: cutData index subs (l.drop (entrySize index sub))

/-- The entries that a write names, with their data. -/
def writeParts (index sub : Nat) (complete : Bool) (data : List Byte) : List (Nat × List Byte) :=
  if complete && subsOf index != [] then cutData index (subsOf index) data else [(sub, data)]

/-- A write request and its answer. DEDUCED: log 101. -/
def State.askWrite (s : State) (w : Writer) (to_ : Dest) (index sub : Nat) (complete : Bool) (data : List Byte) : State :=
  match s.write w index (writeParts index sub complete data) with
  | .ok s' => s'.answer w to_ index sub (.ok []) 0 true
  | .error a => s.answer w to_ index sub (.error a) 0 true

/-- A write of a dictionary entry by CoE, by a host slot or by firmware (R330, R331, R342). -/
def execSdoWrite (w : Writer) (index : BitVec 16) (sub : BitVec 8) (complete : Bool) (data : List Byte) (s : State) :
    Outcome State Fault Refusal :=
  .next (if s.mayAsk w then s.askWrite w (s.askedBy w) index.toNat sub.toNat complete data else s)

/-- The commit object of an area is written with 1 (R331). -/
def execCommit (w : Writer) (a : AreaId) (s : State) : Outcome State Fault Refusal :=
  .next (if s.mayAsk w then s.askWrite w (s.askedBy w) (commitKey a / 256) (commitKey a % 256) false [1] else s)

/-- A commit that writes ReArm with 1 to a HALTED partition (R332). -/
def execRearm (w : Writer) (p : PartId) (s : State) : Outcome State Fault Refusal :=
  .next (if s.mayAsk w && (s.part p).st == .halted && rearms ((s.part p).area.setOf w) then
    s.askWrite w (s.askedBy w) (commitKey (.view p) / 256) (commitKey (.view p) % 256) false [1]
  else s)

/-! ### Reads (R334, R342, R345) -/

/-- One entry is read: its bytes, and the state after an RC clear. -/
def State.readOne (s : State) (w : Writer) (index sub : Nat) : State × List Byte :=
  let v := s.readVal w index sub
  (s.clearRc index sub v, leBytes (entrySize index sub) v)

/-- Entries are read in order. DEDUCED: log 104. -/
def State.readMany (s : State) (w : Writer) (l : List (Nat × Nat)) : State × List (List Byte) :=
  l.foldl (fun (x : State × List (List Byte)) k =>
    let r := x.1.readOne w k.1 k.2
    (r.1, x.2 ++ [r.2])) (s, [])

/-- The snapshot of an area is the last that a writer read (R334, R348). DESIGN CHOICE: log 103. -/
def State.noteSnap (s : State) (w : Writer) (a : AreaId) : State :=
  s.modWriter w fun y => { y with snap := (s.snapOf a).2, kind := BitVec.ofNat 8 (b2n !s.frameView a) }

/-- A read request of one entry, or of every sub-entry of an index from one snapshot, and its answer (R334).
DEDUCED: log 101. -/
def State.askRead (s : State) (w : Writer) (to_ : Dest) (i sub : Nat) (complete : Bool) : State :=
  let subs := if complete && subsOf i != [] then subsOf i else [sub]
  let a := areaOf i
  match subs.findSome? fun x => s.readFault w i x with
  | some f => s.answer w to_ i sub (.error f) 0 true
  | none =>
    let (s', l) := s.readMany w (subs.map fun x => (i, x))
    (s'.noteSnap w a).answer w to_ i sub (.ok l.flatten) (s.snapOf a).2 !s.frameView a

/-- A read of the dictionary by CoE, by a host slot or by firmware (R334). DESIGN CHOICE: log 103. -/
def execSdoRead (w : Writer) (index : BitVec 16) (sub : BitVec 8) (complete : Bool) (s : State) :
    Outcome State Fault Refusal :=
  .next (if s.mayAsk w then s.askRead w (s.askedBy w) index.toNat sub.toNat complete else s)

/-- A value of a read list starts at a multiple of 4 B (R345). -/
def pad4 (l : List Byte) : List Byte := l ++ List.replicate (ceilDiv l.length 4 * 4 - l.length) 0

/-- A read list of a host slot: the values from one snapshot per area, or the first failing item (R11, R345).
DEDUCED: log 132. -/
def State.askList (s : State) (p : PartId) (slot : HostSlot) (to_ : Dest) (items : List ListItem) : State :=
  let w : Writer := .host p slot
  if items.length = 0 ∨ 64 < items.length ∨ (items.any fun x => x.rsvd != 0) = true then s.discard
  else
    let keys := items.map fun x => (x.index.toNat, x.sub.toNat)
    match keys.findSome? fun x => s.readFault w x.1 x.2 with
    | some f => s.answer w to_ (f.key / 256) (f.key % 256) (.error f) 0 true
    | none =>
      let (s', l) := s.readMany w keys
      let first := keys.headD (0, 0)
      (s'.noteSnap w (.view p)).answer w to_ first.1 first.2 (.ok (l.flatMap pad4)) (s.snapOf (.view p)).2 !s.frameView (.view p)

/-- A read list arrives (R345). DEDUCED: log 132. -/
def execReadList (p : PartId) (slot : HostSlot) (seq : BitVec 32) (items : List ListItem) (s : State) :
    Outcome State Fault Refusal :=
  .next (if s.mayAsk (.host p slot) then s.askList p slot (.via (.transport p slot seq)) items else s)

/-! ### SDO information (R336) -/

/-- Every index that the tables list. -/
def allIndexes : List Nat :=
  ((List.range 0x800).map (0x1000 + ·) ++ (List.range 0x500).map (0x1800 + ·) ++ (List.range 0x600).map (0x2000 + ·) ++
    [0x2F00] ++ (List.range 8).flatMap fun p => (List.range 0x61).map fun o => 0x3000 + 256 * p + o).filter fun i =>
      subsOf i != []

/-- The data types of the tables (R336, R347 to R349). -/
inductive DataType where
  | boolean | integer16 | unsigned | visibleString | octetString
  deriving DecidableEq, Repr

/-- The data type that the tables give an entry of `size` bytes (R347 to R349). -/
def typeOf (index sub size : Nat) : DataType :=
  let ofs := if 0x3000 ≤ index then index % 256 else 0
  if index = 0x1008 ∨ index = 0x1009 ∨ index = 0x100A then .visibleString
  else if (index = 0x2240 ∧ sub = 1) ∨ (0x2300 ≤ index ∧ index ≤ 0x2307 ∧ sub ≤ 2) ∨ (ofs = 0x10 ∧ sub = 6) then .boolean
  else if index = 0x2400 ∧ sub = 5 then .integer16
  else if 8 < size ∨ (0x2330 ≤ index ∧ index ≤ 0x233F) then .octetString
  else .unsigned

/-- The number of a data type in CiA 301. PRESUMED: log 228. -/
def typeCode (t : DataType) (size : Nat) : Nat :=
  match t with
  | .boolean => 0x0001
  | .integer16 => 0x0003
  | .visibleString => 0x0009
  | .octetString => 0x000A
  | .unsigned => if size = 1 then 0x0005 else if size = 2 then 0x0006 else if size = 4 then 0x0007 else 0x001B

/-- Access of an entry in an entry description: bits 0 to 2 read and 3 to 5 write in PREOP, SAFEOP and OP, bits 6 and 7 mapping
into the RxPDO and the TxPDO (R341, R346, R347). PRESUMED: log 228. -/
def accessBits (index : Nat) (e : Ent) : Nat :=
  let reads := e.acc.1 == .w || e.acc.1 == .r || e.acc.1 == .c
  let writes := e.acc.1 == .w || e.acc.1 == .x
  7 * b2n reads + (if writes then (if index < 0x2000 then 8 else 56) else 0) + 64 * b2n (e.pdo && writes) +
    128 * b2n (e.pdo && (e.acc.1 == .r || e.acc.1 == .c))

/-- An object description: the index, the data type of its first entry, the highest sub-index, the object code, and the name,
whose text is free. PRESUMED: log 228. -/
def objectInfo (index : Nat) : List Byte :=
  let subs := subsOf index
  let first := subs.headD 0
  let size := entrySize index first
  leBytes 2 index ++ leBytes 2 (typeCode (typeOf index first size) size) ++
    [BitVec.ofNat 8 (subs.getLastD 0), if subs = [0] then 7 else 9] ++ Config.sdoName (BitVec.ofNat 16 index) 0

/-- An entry description: the index and sub-index, the data type, the bits, the access, and the name (R336).
PRESUMED: log 228. -/
def entryInfo (index sub : Nat) (e : Ent) : List Byte :=
  let t := typeOf index sub e.size
  leBytes 2 index ++ [BitVec.ofNat 8 sub, 0] ++ leBytes 2 (typeCode t e.size) ++
    leBytes 2 (if t = .boolean then 1 else 8 * e.size) ++ leBytes 2 (accessBits index e) ++
    Config.sdoName (BitVec.ofNat 16 index) (BitVec.ofNat 8 sub)

/-- An SDO information request: the list of indexes, an object description, or an entry description (R336).
PRESUMED: log 228. -/
def execSdoInformation (index : BitVec 16) (sub : BitVec 8) (what : Fin 3) (s : State) : Outcome State Fault Refusal :=
  .next (if s.mayAsk .coe then
    let i := index.toNat
    let n := sub.toNat
    if what.val = 0 then s.send .ecat (.sdo 0 (allIndexes.flatMap (leBytes 2)))
    else if subsOf i = [] then
      s.answer .coe .ecat i n (.error { reason := 1, code := 0x06020000, key := dkey i n }) 0 true
    else if what.val = 1 then s.send .ecat (.sdo 0 (objectInfo i))
    else
      match entry? i n with
      | none => s.answer .coe .ecat i n (.error { reason := 1, code := 0x06090011, key := dkey i n }) 0 true
      | some e => s.send .ecat (.sdo 0 (entryInfo i n e))
  else s)

end Sys2Proof.Machine
end

