-- ==== Sys2Proof/Machine/Frames.lean ====
section
/-! DEFINITION. A partition's frame: its start, arrivals of other devices, its end by overrun, fault, cancel or commit, and
the boundary after it (R131, R166, R174, R175, R178 to R182, R312, R332, R335, R404, R433, R439 to R444, R465, R487). -/

namespace Sys2Proof.Machine

open Host (Outcome)

/-! ### Start (R131, R166, R312, R465) -/

/-- The clusters of a partition. -/
def State.clustersOf (s : State) (p : PartId) : List ClusterId :=
  (List.finRange 32).filter fun c => (s.clusterMask p).getLsbD c.val

/-- The counters of a cluster at a start cycle: words 0 to 14 are cleared, word 15 names the frame; a sample of that same
cycle still finds the values from before (R465, R467). -/
def Cluster.atStart (c : Cluster) (frame : BitVec 32) (ts : Stamp) : Cluster :=
  { c with counters := if frame = 0 then [] else [(15, frame.setWidth 64)], before := c.counters, clearedAt := some ts }

/-- The start cycle of a partition's frame: registers are loaded, counters cleared, the divider is in force, and FRAME_OUT
rises for its group (R131, R166, R172, R182, R312, R357, R465, R467). DEDUCED: log 121. -/
def execFrameStart (p : PartId) (s : State) : Outcome State Fault Refusal :=
  .next (
    let pt := s.part p
    if s.live = true ∧ pt.armed = true ∧ pt.slackStopped = false then
      let s := (s.reach pt.startAt).restartClocks p
      let s := s.each (s.imageTiles p) fun s t => (s.modTile t fun tl => tl.atGate pt.fromZero).freeDma t
      let s := s.each (s.clustersOf p) fun s c => s.modCluster c fun x => x.atStart pt.frame pt.startAt
      let stretched := (List.finRange 2).any fun (d : DieId) => s.onDie p d.val && (s.die d).stretching
      let out : Bool := s.dval 0x2240 1 == 1 && s.dval 0x2240 2 == (s.gateGroup p).val
      let s := if out then { s with pins := { s.pins with frameOut := true } } else s
      s.modPart p fun pt => { pt with
        armed := false, fromZero := false, pendingMissed := 0, div2 := pt.armDiv2, st := .running
        run := { active := true, ts := pt.startAt, missed := pt.pendingMissed, stretched
                 stretchA := (s.die 0).stretchedBy, stretchB := (s.die 1).stretchedBy } }
    else s)

/-! ### Arrivals of other devices (R174, R175, R180) -/

/-- Some tile of a partition waits at a point. -/
def State.waitsAt (s : State) (p : PartId) (rid : Nat) : Bool :=
  (s.imageTiles p).any fun t =>
    let q := (s.tile t).seq
    q.st == .waiting && q.why == .rdv && q.waitArg.toNat == rid

/-- A partition of a group whose table has a fabric-scope point of this group at RID. -/
def State.pointIn (s : State) (p : PartId) (m : ArrivalMsg) : Option (BitVec 128) :=
  match (s.pointTable p)[m.rid.toNat]? with
  | some e => if hf e 127 126 = 3 ∧ hf e 95 88 = m.group.val then some e else none
  | none => none

/-- The fabric engine that receives the traffic of a device: that of the route to it (R33). DEDUCED: log 120. -/
def State.srcFrom (s : State) (src : BitVec 8) : BitVec 24 :=
  match s.route? src with | some (seg :: _) => s.srcEngine (engineOf (exitPort seg)) | _ => s.srcEngine 0

/-- An arrival for another frame than the point's is discarded and counted, with an event (R33, R175).
DEDUCED: log 120. -/
def State.staleArrival (s : State) (p : PartId) (src : BitVec 8) (m : ArrivalMsg) : State :=
  s.discard.raise 0x000B clsNone (s.srcFrom src) noIds (some p) (leBytes 2 m.rid.toNat ++ leBytes 4 m.frame.toNat)

/-- A device arrival at one partition (R33, R174, R175). DEDUCED: log 120, 142. -/
def State.arriveDevice (s : State) (p : PartId) (src : BitVec 8) (m : ArrivalMsg) : State :=
  match s.pointIn p m with
  | none => s.discard
  | some e =>
    if m.frame ≠ (s.part p).frame then s.staleArrival p src m
    else
      let x := (s.part p).point m.rid.toNat
      if hf e 103 96 ≤ x.remotes then
        (s.raise 0x0001 clsAborting (s.srcFrom src) noIds (some p) (leBytes 2 m.rid.toNat)).markFrame p 1 0xFFFF
      else s.modPart p fun pt => pt.modPoint m.rid.toNat fun x =>
        { x.until_ (fun d => s.dieTime p d s.now + (s.part p).headlandTime 60) with
          remotes := x.remotes + 1, arrived := x.arrived ++ [src] }

/-- An arrival acts at each partition of its group that holds its RID, and is counted where none does (R313); a stopped
partition's channel holds it. -/
def State.eachInGroup (s : State) (m : ArrivalMsg) (msg : Msg) (f : State → PartId → State) : State :=
  let ps := (s.groupParts m.group).filter fun p => (s.pointIn p m).isSome
  if ps = [] then s.discard else s.each ps fun s p => s.capture (some p) false msg fun s => f s p

/-- A device arrival is received (R174, R175). -/
def execDeviceArrivalReceive (src : BitVec 8) (m : ArrivalMsg) (s : State) : Outcome State Fault Refusal :=
  .next (if s.live then s.eachInGroup m (.arrival m) fun s p => s.arriveDevice p src m else s)

/-- A cancel arrival at one partition: the point's waits complete, and a partition that waits there stops its frame (R180,
R438). DEDUCED: log 122. -/
def State.cancelPoint (s : State) (p : PartId) (src : BitVec 8) (m : ArrivalMsg) : State :=
  match s.pointIn p m with
  | none => s.discard
  | some _ =>
    if m.frame ≠ (s.part p).frame then s.staleArrival p src m
    else if s.pointDone p m.rid.toNat then s
    else
      let s := s.modPart p fun pt => pt.modPoint m.rid.toNat fun x => { x with cancelled := true }
      if s.waitsAt p m.rid.toNat && (s.part p).run.active then
        (s.modPart p fun pt => { pt with run := { pt.run with cancelled := true } }).stopFrame p 0xC 0xFFFF (s.elapsed p)
      else s

/-- A cancel arrival is received (R180). -/
def execCancelArrivalReceive (src : BitVec 8) (m : ArrivalMsg) (s : State) : Outcome State Fault Refusal :=
  .next (if s.live = true ∧ src ≠ s.devNum then s.eachInGroup m (.cancel m) fun s p => s.cancelPoint p src m else s)

/-! ### The end of a frame (R178, R179, R439, R440) -/

/-- Every tile that the image names has reported done. -/
def State.allDone (s : State) (p : PartId) : Bool :=
  (s.imageTiles p).all fun t => (s.part p).run.tilesDone.contains t.val

/-- The deadline is reached with a tile not done: OverrunAction SKIP, EXTEND or ABORT, or at level 3 the mark that the Slack
stop records (R178, R179, R380, R487); a shutdown stops it as under SKIP (R426). DEDUCED: log 123. -/
def execFrameOverrun (p : PartId) (s : State) : Outcome State Fault Refusal :=
  .next (
    let pt := s.part p
    if s.live = true ∧ pt.run.active = true ∧ pt.run.overrun = false ∧ pt.slackStopped = false ∧ s.allDone p = false then
      let d := s.deadline p
      let s := s.reach (pt.run.ts + BitVec.ofNat 64 d)
      let late (action : BitVec 2) : State := s.modPart p fun pt => { pt with
        run := { pt.run with overrun := true, action } }
      if s.armed p then (late 0).markFrame p 0xB 0xFFFF
      else
        match if s.phase = .ebb then 0 else s.vval p 0x10 3 with
        | 1 => late 2
        | 2 => ((late 3).stopFrame p 0xB 0xFFFF d).modPart p fun pt => { pt with st := .halted }
        | _ => (late 1).stopFrame p 0xB 0xFFFF d
    else s)

/-- The report of the first frame-aborting fault reaches the Headland: the frame is stopped, except at level 3, where the
Slack stop takes its place (R439, R487). DEDUCED: log 123. -/
def execFrameAbortReport (p : PartId) (elapsed : BitVec 32) (s : State) : Outcome State Fault Refusal :=
  .next (
    let pt := s.part p
    if s.live = true ∧ pt.run.active = true ∧ pt.run.marked = true ∧ pt.slackStopped = false ∧ s.armed p = false then
      s.stopFrame p pt.run.cause pt.run.causeLayer elapsed.toNat
    else s)

/-- The frame of a partition commits at T_c: read windows toggle, the records are written, and the boundary is due (R182,
R241, R440, R444). DEDUCED: log 118. -/
def State.commitFrame (s : State) (p : PartId) (elapsed : Nat) : State :=
  let s := s.advanceAll p 2 (fun _ => true) true
  let status := s.status p true
  let timing := s.timing p elapsed
  s.modPart p fun pt => { pt with
    statusRec := status, timingRec := timing, lastFrame := pt.frame, run := { pt.run with active := false }
    boundaryDue := true, st := if pt.st = .running then .idle else pt.st }

/-- 200 ns after the last done report the frame commits, unless it is marked (R440). DEDUCED: log 118. -/
def execFrameCommit (p : PartId) (td : Stamp) (s : State) : Outcome State Fault Refusal :=
  .next (
    let run := (s.part p).run
    if s.live = true ∧ run.active = true ∧ run.marked = false ∧ (s.part p).slackStopped = false ∧ s.allDone p = true then
      (s.reach (td + 200)).commitFrame p (if td < run.ts then 0 else nsSince run.ts td)
    else s)

/-! ### The boundary (R332) -/

/-- Retirements and page refills that ready waits for (R126, R202, R265, R433). DEDUCED: log 165. -/
def State.boundaryRepairs (s : State) (p : PartId) : State :=
  let gone := (List.finRange 512).filter fun t => (s.part p).retire.contains t.val
  let s := (s.modPart p fun pt => { pt with retire := [] }).each gone State.retireTile
  let pages := (List.finRange 512).filter fun t => (s.part p).pageReload.contains t.val && s.tileUp t
  if (s.part p).copied then s.each pages fun s t => s.reloadPages p t else s

/-- The boundary after a frame: pending commits apply, the snapshot is taken, and the partition reports ready; what waits
for the boundary happens at it. A HALTED partition keeps its commits (R201, R308, R325, R332, R335, R379, R404, R433).
DEDUCED: log 113. -/
def State.boundary (s : State) (p : PartId) : State :=
  let s := s.modPart p fun pt => { pt with boundaryDue := false }
  let s := (s.boundaryRepairs p).enrolNow p
  let s := if (s.part p).st = .halted then s else s.applyPending p
  let s := (((s.frameSnapshot p).enterLoad p).haltNow p).orderClass p
  (s.tryReady p).startOrders p

/-- A partition's frame boundary: the re-arm that a scan-out delayed, a layout change, or the boundary after a frame (R325,
R332, R477). DEDUCED: log 113. -/
def execFrameBoundary (p : PartId) (s : State) : Outcome State Fault Refusal :=
  .next (
    let pt := s.part p
    if s.live = false ∨ pt.run.active = true ∨ pt.armed = true then s
    else if pt.rearmDue then (if s.slack.scanning then s else s.leaveHalted p)
    else if pt.boundaryDue then
      (if pt.layoutNew.isSome then s.changeLayout p else s.boundary p)
    else s)

end Sys2Proof.Machine
end

