-- ==== Sys2Proof/Machine/Alerts.lean ====
section
/-! DEFINITION. Output-range alerts: from the cluster to ALERT_N, the urgent message and LastAlert (R450 to R456). -/

namespace Sys2Proof.Machine

open Host (Outcome)

/-- An alert is granted at the arbiter: ALERT_N falls for 2 µs, the messages leave, LastAlert and AlertCount change (R450,
R453 to R456). -/
def State.grantAlert (s : State) (p : PartId) (m : AlertMsg) : State :=
  let s := s.modPart p fun pt => { pt with
    lastAlert := some m, alertCount := pt.alertCount + 1 }
  let s := { s with
    alert := { s.alert with alerts := satAdd s.alert.alerts 1, pulseEnd := s.now + 2000 }
    pins := { s.pins with alertLow := true } }
  (s.raise 0x000D clsNone m.src { layer := m.layer, opid := m.opid } (some p) (alertBytes m)).sendAlert p m

/-- Alerts leave the clusters of a die: the device is in service, or it is device-fatal by a cause that leaves the clocks of
the heath dies running (R364, R388, R447, R457). DEDUCED: log 136. -/
def State.alertsPass (s : State) : Bool :=
  s.live || (s.phase == .fatal && s.rootClk.rootLock && s.rootClk.lockA && s.rootClk.lockB &&
    (List.range 3).all fun i => !(Store.get {} s.thermal i : Thermal).tripped)

/-- The oldest alert inside a cluster leaves it: its hold ends, and the arbiter grants it (R451, R452, R457).
DESIGN CHOICE: log 124; DEDUCED: log 136. -/
def execAlertLeavesCluster (c : ClusterId) (s : State) : Outcome State Fault Refusal :=
  .next (
    match s.alert.inCluster.find? fun x => decide (x.1 = c.val) with
    | none => s
    | some x =>
      let p : PartId := x.2.part.toFin
      if s.alertsPass = true ∧ (s.part p).slackStopped = false then
        ({ s with alert := { s.alert with inCluster := s.alert.inCluster.erase x } }).grantAlert p x.2 |>.sendKind4 p
      else s)

/-- An alert message of another device is copied into LastAlert of the partitions in the group (R453).
DESIGN CHOICE: log 64. -/
def execAlertMessageReceive (group : GroupId) (m : AlertMsg) (s : State) : Outcome State Fault Refusal :=
  .next (if s.live then
    s.each (s.groupParts group) fun s p => s.modPart p fun pt => { pt with lastAlert := some m }
  else s)

/-- 2 µs after the last alert ALERT_N is released, unless the device is device-fatal (R450). -/
def execAlertPulseEnd (s : State) : Outcome State Fault Refusal :=
  .next (if s.pins.alertLow then
    let s := if s.alert.fatal then s else s.reach s.alert.pulseEnd
    { s with pins := { s.pins with alertLow := s.alert.fatal } }
  else s)

end Sys2Proof.Machine
end

