-- ==== Sys2Proof/Machine/Ecat.lean ====
section
/-! DEFINITION. EtherCAT states, process data, FoE files, the firmware slots, and the 1 ms tick (R332, R334, R336 to R339,
R343, R346, R347, R351, R374, R399 to R401, R493). -/

namespace Sys2Proof.Machine

open Host (Outcome)

/-! ### States (R337, R401) -/

/-- EtherCAT is served: with the dictionary, or by the recovery loader. -/
def State.ecatServed (s : State) : Bool := s.dictReady || s.phase == .loader

/-- ECAT_RUN, ECAT_ERR, ECAT0_LA and ECAT1_LA: low until firmware first drives them (R493). DESIGN CHOICE: log 230. -/
def State.ecatPins (s : State) : BitVec 4 :=
  let st := match s.ecat.st with
    | .init => 0
    | .preop => 1
    | .safeop => 2
    | .op => 3
    | .boot => 4
  if s.phase = .inReset then 0 else Config.ecatPins st s.ecat.err s.now

/-- The transitions of the EtherCAT state machine; the recovery loader has INIT, PREOP and BOOT alone.
PRESUMED: log 107. -/
def State.ecatLegal (s : State) (t : EcatState) : Bool :=
  let known : Bool := s.phase != .loader || t == .init || t == .preop || t == .boot
  known &&
    (match s.ecat.st, t with
    | _, .init => true
    | .init, .preop => true
    | .init, .boot => true
    | .init, _ => false
    | .boot, .boot => true
    | .boot, _ => false
    | _, .boot => false
    | .preop, .op => false
    | _, _ => true)

/-- The sessions of the CoE and PDO writers end, and their staged sets are discarded (R337). -/
def Area.endSessions (a : Area) : Area := { a with staged := a.staged.filter fun x => x.1 != .coe && x.1 != .pdo }

/-- A transition to INIT: sessions end, the mapping and sync objects revert to their defaults (R337, R343). -/
def State.toInit (s : State) : State :=
  let s := s.modArea .device Area.endSessions
  let s := s.each (allParts.filter fun p => (s.part p).area.staged != []) fun s p => s.modArea (.view p) Area.endSessions
  { s with mapping := [], ecat := { s.ecat with rxSeq := [], dc := none, txDue := false } }

/-- SYNC0 cycles go from 100,000 ns up (R336). -/
def dcCycleOk (dc : Option (BitVec 32)) : Bool := match dc with | some n => decide (100000 ≤ n.toNat) | none => true

/-- The MainDevice requests a state, with the SYNC0 cycle where it activates Distributed Clocks; a request that the state
machine does not have sets the error flag with AL status code 0x0011, and one whose SYNC0 cycle is out of range with 0x0035
(R336, R337). PRESUMED: log 107, 216. -/
def execEcatStateTransition (target : EcatState) (dc : Option (BitVec 32)) (s : State) : Outcome State Fault Refusal :=
  .next (if s.ecatServed then
    let dc := if target = .init ∨ target = .boot then none else dc
    if s.ecatLegal target = false then { s with ecat := { s.ecat with err := true, al := 0x0011 } }
    else if dcCycleOk dc = false then { s with ecat := { s.ecat with err := true, al := 0x0035 } }
    else
      let s := if target = .init then s.toInit else s
      { s with ecat := { s.ecat with st := target, err := false, al := 0, dc } }
  else s)

/-- The sync manager watchdog of the RxPDO expires in OP (R337). -/
def execSmWatchdogExpiry (s : State) : Outcome State Fault Refusal :=
  .next (if s.ecat.st = .op then { s with ecat := { s.ecat with st := .safeop, err := true, al := 0x001B } } else s)

/-! ### Process data (R338, R346) -/

/-- The entries of a process image, in order: none unless the sync manager's assignment names its mapping object. -/
def State.mapped (s : State) (assign obj : Nat) : List (Nat × Nat) :=
  if s.commVal assign 0 = 0 ∨ s.commVal assign 1 ≠ obj then []
  else ((List.range (s.commVal obj 0)).map fun i => s.commVal obj (i + 1)).filterMap fun v =>
    if v = 0 then none else some (v / 65536, v / 256 % 256)

/-- An entry is a PdoCommitSeq. -/
def isPdoSeq (index sub : Nat) : Bool := sub == 3 && (index == 0x2010 || (decide (0x3000 ≤ index) && index % 256 == 8))

/-- Cut a process image at the sizes of its entries. -/
def cutImage : List (Nat × Nat) → List Byte → List (Nat × Nat × List Byte)
  | [], _ => []
  | (i, sub) :: l, d => (i, sub, d.take (entrySize i sub)) :: cutImage l (d.drop (entrySize i sub))

/-- The value that the PDO writer would change: the one staged, or the one in force. DEDUCED: log 105. -/
def State.pdoHas (s : State) (index sub : Nat) : Nat :=
  let k := dkey index sub
  match ((s.area (areaOf index)).setOf .pdo).find? fun x => decide (x.1 = k) with
  | some x => x.2
  | none => s.dval index sub

/-- One value of the RxPDO is staged in the PDO writer's set, unless it changes nothing (R346). DEDUCED: log 105. -/
def State.pdoStage (s : State) (x : Nat × Nat × List Byte) : State :=
  if s.pdoHas x.1 x.2.1 = leNat x.2.2 then s
  else
    match s.write .pdo x.1 [(x.2.1, x.2.2)] with
    | .ok s' => s'
    | .error a => s.noteAbort .pdo a

/-- A PdoCommitSeq whose value changes submits the PDO writer's set of its area (R346). -/
def State.pdoSubmit (s : State) (x : Nat × Nat × List Byte) : State :=
  let k := dkey x.1 x.2.1
  let v := leNat x.2.2
  if Store.get 0 s.ecat.rxSeq k = v then s
  else
    let s := { s with ecat := { s.ecat with rxSeq := Store.set s.ecat.rxSeq k v } }
    match s.writeFault .pdo x.1 x.2.1 x.2.2 with
    | some a => s.noteAbort .pdo a
    | none => s.submit .pdo (areaOf x.1)

/-- The event that a sync mode handles process data at: SYNC0 with Distributed Clocks in mode 2; in mode 3 SYNC0 for the RxPDO
and SYNC1 for the TxPDO; otherwise sync manager 2, or 1 ms without one (R338, R347). -/
def syncMet (mode : Nat) (dc tx : Bool) (e : SyncEvent) : Bool :=
  match e with
  | .sync0 => dc && (mode == 2 || (mode == 3 && !tx))
  | .sync1 => dc && mode == 3 && tx
  | .sm2 => decide (mode < 2)
  | .timer => decide (mode < 2)

/-- The mode of 0x1C32:1 takes the RxPDO at an event, and the mode of 0x1C33:1 fills the TxPDO after it (R338). -/
def State.syncMet (s : State) (tx : Bool) (e : SyncEvent) : Bool :=
  Machine.syncMet (s.commVal (if tx then 0x1C33 else 0x1C32) 1) s.ecat.dc.isSome tx e

/-- An event of the process data: after one that the input mode names, the TxPDO is due; at one that the output mode names the
RxPDO is taken in OP: its values are staged, then changed PdoCommitSeq entries submit (R338, R346). DEDUCED: log 105. -/
def execRxpdoTake (x : PdoEvent) (s : State) : Outcome State Fault Refusal :=
  .next (
    let takes := s.syncMet false x.event
    let s := if s.dictReady && s.syncMet true x.event then { s with ecat := { s.ecat with txDue := true } } else s
    let l := s.mapped 0x1C12 0x1600
    let n := l.foldl (fun n x => n + entrySize x.1 x.2) 0
    if takes = true ∧ s.dictReady = true ∧ s.ecat.st = .op ∧ x.data.length = n then
      let xs := cutImage l x.data
      let s := s.each (xs.filter fun x => !isPdoSeq x.1 x.2.1) State.pdoStage
      s.each (xs.filter fun x => isPdoSeq x.1 x.2.1) State.pdoSubmit
    else s)

/-- Within 20 µs after the event that its mode names, the TxPDO is filled in SAFEOP and OP from the latest snapshots (R338,
R346). DEDUCED: log 104. -/
def execTxpdoFill (s : State) : Outcome State Fault Refusal :=
  .next (if s.dictReady = true ∧ s.ecat.txDue = true ∧ (s.ecat.st = .safeop ∨ s.ecat.st = .op) then
    let (s, l) := s.readMany .pdo (s.mapped 0x1C13 0x1A00)
    { s with ecat := { s.ecat with txDue := false } }.send .ecat (.txpdo l.flatten)
  else s)

/-- A mapping, assignment or sync object is written directly over CoE (R347). DEDUCED: log 106. -/
def execPdoMappingWrite (index : BitVec 16) (sub : BitVec 8) (value : BitVec 32) (s : State) :
    Outcome State Fault Refusal :=
  .next (
    let i := index.toNat
    let size := entrySize i sub.toNat
    let data := if value.toNat < 2 ^ (8 * size) then leBytes size value.toNat else leBytes 4 value.toNat
    if s.mayAsk .coe = true ∧ i < 0x2000 then s.askWrite .coe .ecat i sub.toNat false data else s)

/-! ### FoE (R192, R339, R401) -/

/-- Answer an FoE request. -/
def State.foe (s : State) (error : BitVec 16) (data : List Byte) : State := s.send .ecat (.foe error data)

/-- The EtherCAT state serves a file of the table (R339). DEDUCED: log 114. -/
def State.fileState (s : State) (f : FoeFile) : Bool :=
  match f with
  | .firmware => s.ecat.st == .boot && s.phase != .ebb
  | _ => s.coeOpen && s.dictReady

/-- The refusal of an FoE request by its password, name or state. DEDUCED: log 114. -/
def State.foeFault (s : State) (f : FoeFile) (password : BitVec 32) : Option (BitVec 16) :=
  if password ≠ 0 then some 0x8002
  else if f = .unknown then some 0x8001
  else if s.fileState f then none else some 0x8002

/-- The largest firmware image (R399). -/
def fwMax : Nat := 67108864

/-- The inactive firmware slot, and putting it. -/
def State.spareSlot (s : State) : FwSlot := if s.island.slot = 0 then s.flash.slotB else s.flash.slotA

/-- Put the inactive firmware slot. -/
def State.putSpareSlot (s : State) (x : FwSlot) : State :=
  { s with flash := if s.island.slot = 0 then { s.flash with slotB := x } else { s.flash with slotA := x } }

/-- Bytes of an image arrive in a download area: a running admission ends, and an image that runs from the area has lost
its copy; accesses in hard error keep what they held (R192, R265, R268). DEDUCED: log 114, 115; DESIGN CHOICE: log 146. -/
def State.deliver (s : State) (p : PartId) (offset : Nat) (data : List Byte) : State :=
  let s := ((s.abandon p).hbmWrite (downloadBase p + offset) data).keepHard s (downloadBase p + offset) data.length
  s.modPart p fun pt => { pt with
    copyLost := pt.copyLost || pt.image.isSome, planCls := if pt.image.isSome then pt.cls else pt.planCls
    dlLen := if offset = 0 then data.length else max pt.dlLen (offset + data.length) }

/-- An FoE write (R339, R351, R400). DEDUCED: log 114. -/
def execFoeWrite (file : FoeFile) (password : BitVec 32) (offset : Nat) (data : List Byte) (last : Bool) (s : State) :
    Outcome State Fault Refusal :=
  .next (if s.ecatServed = false ∨ s.ecat.st = .init then s
    else
      match s.foeFault file password with
      | some e => s.foe e []
      | none =>
        match file with
        | .image p =>
          if s.phase ≠ .service ∨ bitN (s.dval 0x2110 0) p.val = false then s.foe 0x8002 []
          else
            let s' := s.deliver p offset (data.take (2 ^ 32 - offset))
            s'.foe (if 2 ^ 32 < offset + data.length then 0x8003 else 0) []
        | .firmware =>
          let old := s.spareSlot
          let kept := data.take (fwMax - offset)
          let base : FwSlot := if offset = 0 then {} else old
          let slot : FwSlot := { base with
            mark := .written, ended := last && decide (offset + data.length ≤ fwMax)
            bytes := Mem.writeBytes base.bytes offset kept, len := max base.len (offset + kept.length) }
          (s.putSpareSlot slot).foe (if fwMax < offset + data.length then 0x8003 else 0) []
        | _ => s.foe 0x8002 [])

/-- An image's bytes over FoE; a word in hard error is not delivered, and the request ends with an error whose code the spec
does not state (R270, R339). DEDUCED: log 114. -/
def State.foeImage (s : State) (p : PartId) (offset len : Nat) : State :=
  let n := min len ((s.part p).dlLen - offset)
  if n ≠ 0 ∧ s.rangeHard (downloadBase p + offset) n false = true then
    s.drawn.foe ((Config.freeWord s.freeCtr).setWidth 16) []
  else s.foe 0 (s.imgBytes p offset n)

/-- An FoE read (R339). -/
def execFoeRead (file : FoeFile) (password : BitVec 32) (offset len : Nat) (s : State) : Outcome State Fault Refusal :=
  .next (if s.ecatServed = false ∨ s.ecat.st = .init then s
    else
      match s.foeFault file password with
      | some e => s.foe e []
      | none =>
        match file with
        | .image p => s.foeImage p offset len
        | .admission p => s.foe 0 (slice (s.part p).result.bytes offset len)
        | _ => s.foe 0x8002 [])

/-! ### Firmware slots (R399, R400) -/

/-- The checks of a firmware image: its header, both signatures, its SVN, its body. DEDUCED: log 116. -/
def State.fwGood (s : State) (x : FwSlot) : Bool :=
  let l := Mem.readBytes x.bytes 0 17152
  let bodyLen := leAt l 12 4
  let head := slice l 0 64
  let block := slice l 64 sigLen
  let keys := blockKeys block
  leAt l 0 4 == 0x31464E46 && leAt l 4 2 == 1 && decide (leAt l 6 1 ≤ 63) && decide (leAt l 7 1 ≤ 1) &&
    decide (x.len = 17152 + bodyLen) && decide (x.len ≤ fwMax) && keys.1 == s.otp.vendorRsa && keys.2 == s.otp.vendorSlh &&
    (sigFault block head).isNone && decide (s.otp.fwSvn.toNat ≤ leAt l 6 1) &&
    Config.sha384 (Mem.readBytes x.bytes 17152 bodyLen) == slice l 16 48

/-- At the end of an FW.BIN write the island checks the slot: TRIAL or INVALID (R400). DEDUCED: log 116. -/
def execFirmwareSlotCheck (s : State) : Outcome State Fault Refusal :=
  .next (
    let x := s.spareSlot
    if x.mark = .written ∧ x.ended = true then
      let digest := Config.sha384 (Mem.readBytes x.bytes 0 64)
      s.putSpareSlot { x with
        mark := if s.fwGood x then .trial else .invalid, ended := false
        misr := (List.range 30).map fun d => (d, Config.misr digest d) }
    else s)

/-- The slot of a TRIAL start is GOOD once the device is dictionary-ready and the fabric has started, or no port is
configured; COMMIT_SVN raises the counter (R400). DEDUCED: log 117. -/
def execFirmwareTrialGood (s : State) : Outcome State Fault Refusal :=
  .next (
    let x := if s.island.slot = 0 then s.flash.slotA else s.flash.slotB
    let ports := allParts.any fun p => s.portMask p != 0
    if s.live = true ∧ s.island.trial = true ∧ x.mark = .trial ∧ (s.fabricUp = true ∨ ports = false) then
      let y : FwSlot := { x with mark := .good, order := 1 + max s.flash.slotA.order s.flash.slotB.order }
      let svn := leNat (Mem.readBytes x.bytes 6 1) % 64
      let commit := bitN (leNat (Mem.readBytes x.bytes 7 1)) 0 && decide (s.otp.fwSvn.toNat < svn)
      { s with
        flash := if s.island.slot = 0 then { s.flash with slotA := y } else { s.flash with slotB := y }
        island := { s.island with trial := false }
        otp := if commit then { s.otp with fwSvn := BitVec.ofNat 6 svn } else s.otp }
    else s)

/-! ### The tick -/

/-- The 1 ms tick: power control acts, the snapshots of the tick are taken, and partitions report ready as they may
(R308, R334, R374). -/
def execPowerControlTick (m : PowerIn) (s : State) : Outcome State Fault Refusal :=
  .next (if s.live then
    let s := ({ s with lastTick := s.now }).powerTick m
    s.tickSnapshots.each allParts State.tryReady
  else s)

end Sys2Proof.Machine
end

