-- ==== Sys2Proof/Machine/Trace.lean ====
section
/-! DEFINITION. Counter samples, batches of message time stamps, and the words of the Strandline ring (R460, R461, R465 to
R470). -/

namespace Sys2Proof.Machine

open Host (Outcome)

/-! ### Samples (R465 to R468) -/

/-- The block that a sample reads: in the cycle in which a start cycle clears it, what it held before (R467). -/
def Cluster.sampled (x : Cluster) (now : Stamp) : Store (BitVec 64) × Bool :=
  if x.clearedAt = some now then (x.before, true) else (x.counters, false)

/-- A cluster's counter block in a sample: NOVALUE marks one whose band is in RET or OFF (R465, R467).
DESIGN CHOICE: log 126. -/
def State.sampleBlock (s : State) (c : ClusterId) : List Byte :=
  let b := s.dom (bandOf c).val
  let x := (s.cluster c).sampled s.now
  let word (i : Nat) : Nat := (Store.get 0 x.1 i).toNat
  let last := word 15 % 2 ^ 32 + (if x.2 then 2 ^ 32 else 0) + (if b == .off || b == .ret then 2 ^ 33 else 0)
  (List.range 15).flatMap (fun i => leBytes 8 (word i)) ++ leBytes 8 last

/-- Some block of a sample is read in the cycle that clears it (R467). -/
def State.sampleFlags (s : State) (p : PartId) : BitVec 8 :=
  if (s.clustersOf p).any fun c => ((s.cluster c).sampled s.now).2 then 1 else 0

/-- The ports of a partition, ascending. -/
def State.portsOwned (s : State) (p : PartId) : List PortId := (List.finRange 16).filter fun q => (s.portMask p).getLsbD q.val

/-- The payload of a counter sample; the hub fabric bytes and the busy time are what the command carries (R468).
DESIGN CHOICE: log 126. -/
def State.sample (s : State) (p : PartId) (m : SampleIn) : List Byte :=
  (List.range 8).flatMap (fun q => leBytes 8 (Store.get 0 (s.part p).energy q).toNat) ++
    leBytes 8 m.hubBytes.toNat ++ leBytes 8 m.busyNs.toNat ++
    leBytes 4 (s.clusterMask p).toNat ++ leBytes 2 (s.portMask p).toNat ++ [BitVec.ofNat 8 (b2n m.frameEnd)] ++ leBytes 9 0 ++
    (s.clustersOf p).flatMap s.sampleBlock ++
    (s.portsOwned p).flatMap fun q => (List.range 8).flatMap fun i => leBytes 8 (Store.get 0 (s.port q).bytes i).toNat

/-! ### The trace of control cores (R469) -/

/-- The 8 bytes of a trace entry; a sync entry has type 3 (R469). -/
def traceWord (kind icount : Nat) (target : BitVec 40) : BitVec 64 :=
  BitVec.ofNat 64 (kind * 2 ^ 62 + min icount 4194303 * 2 ^ 40 + target.toNat)

/-- The records that wait fill the buffer (R469). -/
def traceMax : Nat := 64

/-- One entry of a control core's trace: it goes into the record being filled, or into a new one after a sync entry; a record
closes at 28 entries. A full buffer takes none (R469). DESIGN CHOICE: log 127. -/
def Cluster.traceEntry (x : Cluster) (now : Stamp) (e : TraceEntry) : Cluster :=
  if traceMax ≤ x.trace.length then { x with tracePc := e.target }
  else
    let r : TraceRec := x.traceOpen.getD { ts := now, entries := [traceWord 3 0 x.tracePc] }
    let r' : TraceRec := { r with entries := r.entries ++ [traceWord e.kind.val e.icount e.target] }
    if r'.entries.length < 28 then { x with traceOpen := some r', tracePc := e.target }
    else { x with trace := x.trace ++ [r'], traceOpen := none, tracePc := e.target }

/-- What the control core of a cluster retired since the last sample, and how many of its entries found the buffer full.
DESIGN CHOICE: log 127. -/
def Cluster.traceAll (x : Cluster) (now : Stamp) (m : CoreTrace) : Cluster × Nat :=
  m.entries.foldl (fun (y : Cluster × Nat) e => (y.1.traceEntry now e, y.2 + b2n (decide (traceMax ≤ y.1.trace.length))))
    ({ x with tracePc := m.pc }, 0)

/-- Offer a cluster's closed records to the ring, oldest first: one that finds no unused slot is lost, and the ring
that is full or at its limit leaves it in the buffer (R459, R469). DESIGN CHOICE: log 127, 88. -/
def State.offerTraces (s : State) (p : PartId) (c : ClusterId) : List TraceRec → State
  | [] => s.modCluster c fun x => { x with trace := [] }
  | r :: rest =>
    let payload := r.entries.flatMap fun w => leBytes 8 w.toNat
    let src := s.srcCluster c 4
    match s.ringRefuses p (s.offerWrites p 3 src r.ts noIds 0 payload).1 with
    | some why =>
      if why = lostSlot then State.offerTraces (s.offer p 3 src r.ts noIds 0 payload) p c rest
      else s.modCluster c fun x => { x with trace := r :: rest }
    | none => State.offerTraces (s.offer p 3 src r.ts noIds 0 payload) p c rest

/-- A cluster's control core is traced at level 2 and above; entries that a full buffer drops are counted as lost, one record
for every 27 begun (R464, R469). DESIGN CHOICE: log 127. -/
def State.takeTrace (s : State) (p : PartId) (m : CoreTrace) : State :=
  if 2 ≤ s.level p ∧ (s.clusterMask p).getLsbD m.cluster.val = true ∧ s.dom (bandOf m.cluster).val = .on then
    let x := (s.cluster m.cluster).traceAll s.now m
    let s := s.modCluster m.cluster fun _ => x.1
    let s := s.each (List.range (ceilDiv x.2 27)) fun s _ => s.loseRecord p s.now lostTrace
    s.offerTraces p m.cluster x.1.trace
  else s

/-- A sample of a partition at level 1 or above, and the traces of its control cores; a record that finds no unused
HBM slot is lost (R262, R459, R466 to R469). DESIGN CHOICE: log 88, 126. -/
def execCounterSample (p : PartId) (m : SampleIn) (s : State) : Outcome State Fault Refusal :=
  .next (if s.live = true ∧ s.enabled p = true ∧ 1 ≤ s.level p ∧ (s.part p).slackStopped = false then
    let s := s.offer p 2 (s.srcH 1 0) s.now noIds (s.sampleFlags p) (s.sample p m)
    s.each m.traces fun s x => s.takeTrace p x
  else s)

/-! ### Batches of message time stamps (R470) -/

/-- 100 µs after its first entry a batch closes; its record is lost when it finds no unused HBM slot, and the batch goes to the
group's leader all the same (R262, R470). DESIGN CHOICE: log 88. -/
def execTraceBatchClose (p : PartId) (s : State) : Outcome State Fault Refusal :=
  .next (if s.live then s.closeBatch p else s)

/-- A batch is well formed: its header names the sender and the count, and its reserved bytes are zero. -/
def batchOk (dev : BitVec 8) (batch : List Byte) : Bool :=
  let n := leAt batch 2 2
  leAt batch 0 1 == dev.toNat && decide (leAt batch 1 1 < 8) && decide (1 ≤ n) && decide (n ≤ 255) &&
    decide (batch.length = 16 + 16 * n) && leAt batch 4 12 == 0

/-- The leader of a group writes a member's batch into the rings of its own partitions in the group.
DESIGN CHOICE: log 125. -/
def State.takeBatch (s : State) (dev : BitVec 8) (group : GroupId) (batch : List Byte) : State :=
  let x := s.group group
  if x.role = 2 ∧ dev ≠ s.devNum ∧ x.members.contains dev = true then
    if batchOk dev batch then
      s.each ((s.groupParts group).filter fun p => decide (2 ≤ s.level p)) fun s p =>
        s.offer p 5 (s.srcH 7 0) s.now noIds 0 batch
    else s.discard
  else s.discard

/-- A trace batch is received (R470). -/
def execTraceBatchReceive (dev : BitVec 8) (group : GroupId) (batch : List Byte) (s : State) :
    Outcome State Fault Refusal :=
  .next (if s.live then s.takeBatch dev group batch else s)

/-! ### The ring's words (R460, R461) -/

/-- A write of RDPTR advances it within the unread span; any other value is ignored (R460). -/
def Strand.advance (x : Strand) (value : BitVec 28) : Strand :=
  let ahead (v : Nat) : Nat := (v + recArea - x.rdptr.toNat) % recArea
  if value.toNat % 64 = 0 ∧ value.toNat < recArea ∧ ahead value.toNat ≤ ahead x.wrptr.toNat then { x with rdptr := value }
  else x

/-- A write of RDPTR (R460). -/
def execRdptrWrite (p : PartId) (value : BitVec 28) (s : State) : Outcome State Fault Refusal :=
  .next (s.modPart p fun pt => { pt with strand := pt.strand.advance value })

/-- Writing 1 to CAPHELD releases the capture area (R461). -/
def execCapheldRelease (p : PartId) (s : State) : Outcome State Fault Refusal :=
  .next (s.modPart p fun pt => { pt with strand := { pt.strand with capHeld := false } })

end Sys2Proof.Machine
end

