-- ==== Sys2Proof/Machine/Wire.lean ====
section
/-! DEFINITION. Frames of the fabric and datagrams of the transport as bytes: their checks, forwarding, and the messages they
bring (R11, R254, R296, R297, R299, R301, R303 to R306, R310, R313, R315, R316, R345, R453, R470). -/

namespace Sys2Proof.Machine

open Host (Outcome)

/-- The next state of an outcome, or the state it started from. -/
def nextOr (s : State) (o : Outcome State Fault Refusal) : State := match o with | .next s' => s' | _ => s

/-! ### Payloads (R254, R313, R315, R316, R453) -/

/-- A put segment header. -/
def parsePut (l : List Byte) : PutHdr :=
  let f := fieldN (leAt l 0 32)
  { window := BitVec.ofNat 24 (f 23 0), epoch := BitVec.ofNat 32 (f 63 32), wofs := BitVec.ofNat 20 (f 83 64)
    wlm1 := BitVec.ofNat 16 (f 111 96), grant := BitVec.ofNat 16 (f 127 112), host := f 152 152 == 1
    writer := BitVec.ofNat 24 (f 151 128), tag := BitVec.ofNat 16 (f 175 160), sofs := BitVec.ofNat 32 (f 207 176)
    slm1 := BitVec.ofNat 16 (f 223 208), first := f 224 224 == 1, last := f 225 225 == 1
    rsvd := BitVec.ofNat 57 (f 31 24 + 2 ^ 8 * f 95 84 + 2 ^ 20 * f 159 153 + 2 ^ 27 * f 255 226) }

/-- A grant. -/
def parseGrant (l : List Byte) : GrantMsg :=
  let f := fieldN (leAt l 0 32)
  { window := BitVec.ofNat 24 (f 23 0), epoch := BitVec.ofNat 32 (f 63 32), frame := BitVec.ofNat 32 (f 95 64)
    lo := BitVec.ofNat 20 (f 115 96), hi := BitVec.ofNat 20 (f 147 128), grant := BitVec.ofNat 16 (f 175 160)
    entry := BitVec.ofNat 5 (f 180 176)
    rsvd := BitVec.ofNat 107 (f 31 24 + 2 ^ 8 * f 127 116 + 2 ^ 20 * f 159 148 + 2 ^ 32 * f 255 181) }

/-- A read request. -/
def parseRead (l : List Byte) : ReadReq :=
  let f := fieldN (leAt l 0 16)
  { window := BitVec.ofNat 24 (f 23 0), offset := BitVec.ofNat 20 (f 51 32), lm1 := BitVec.ofNat 16 (f 79 64)
    tag := BitVec.ofNat 16 (f 95 80), rsvd := BitVec.ofNat 52 (f 31 24 + 2 ^ 8 * f 63 52 + 2 ^ 20 * f 127 96) }

/-- A read data segment header. -/
def parseSeg (l : List Byte) : ReadSeg :=
  let f := fieldN (leAt l 0 16)
  { window := BitVec.ofNat 24 (f 23 0), frame := BitVec.ofNat 32 (f 63 32), tag := BitVec.ofNat 16 (f 79 64)
    sofs := BitVec.ofNat 32 (f 111 80), slm1 := BitVec.ofNat 8 (f 119 112), last := f 120 120 == 1
    rsvd := BitVec.ofNat 15 (f 31 24 + 2 ^ 8 * f 127 121) }

/-- A gate ready, and whether its reserved bits are zero. -/
def parseReady (l : List Byte) : ReadyMsg × Bool :=
  let f := fieldN (leAt l 0 16)
  ({ frame := BitVec.ofNat 32 (f 31 0), group := (BitVec.ofNat 6 (f 37 32)).toFin, data := f 40 40 == 1
     withdraw := f 41 41 == 1 }, f 39 38 == 0 && f 127 42 == 0)

/-- A gate fire. -/
def parseFire (l : List Byte) : FireMsg × Bool :=
  let f := fieldN (leAt l 0 32)
  ({ frame := BitVec.ofNat 32 (f 31 0), group := (BitVec.ofNat 6 (f 37 32)).toFin, source := BitVec.ofNat 2 (f 41 40)
     missed := BitVec.ofNat 16 (f 63 48), lead := BitVec.ofNat 32 (f 95 64), corr := BitVec.ofNat 32 (f 127 96)
     tf := BitVec.ofNat 64 (f 191 128) }, f 39 38 == 0 && f 47 42 == 0 && f 255 192 == 0)

/-- A device arrival or cancel arrival. -/
def parseArrival (l : List Byte) : ArrivalMsg × Bool :=
  let f := fieldN (leAt l 0 16)
  ({ frame := BitVec.ofNat 32 (f 31 0), rid := BitVec.ofNat 10 (f 41 32), group := (BitVec.ofNat 6 (f 53 48)).toFin },
    f 47 42 == 0 && f 55 54 == 0 && f 127 56 == 0)

/-- An alert. -/
def parseAlert (l : List Byte) : AlertMsg × Bool :=
  let f := fieldN (leAt l 0 24)
  ({ frame := BitVec.ofNat 32 (f 31 0), src := BitVec.ofNat 24 (f 55 32), layer := BitVec.ofNat 16 (f 79 64)
     opid := BitVec.ofNat 16 (f 95 80), channel := BitVec.ofNat 12 (f 107 96), kind := BitVec.ofNat 3 (f 114 112)
     precommit := f 115 115 == 1, part := BitVec.ofNat 3 (f 122 120), ts := BitVec.ofNat 64 (f 191 128) },
    f 63 56 == 0 && f 111 108 == 0 && f 119 116 == 0 && f 127 123 == 0)

/-- A Slack stop. -/
def parseStop (l : List Byte) : StopMsg × Bool :=
  let f := fieldN (leAt l 0 16)
  ({ stopid := BitVec.ofNat 32 (f 31 0), origin := BitVec.ofNat 8 (f 39 32), target := BitVec.ofNat 64 (f 127 64) },
    f 63 40 == 0)

/-- A beacon. -/
def parseBeacon (l : List Byte) : Beacon × Bool :=
  let f := fieldN (leAt l 0 24)
  ({ echoTx := BitVec.ofNat 64 (f 63 0), echoRx := BitVec.ofNat 64 (f 127 64), portid := BitVec.ofNat 8 (f 135 128) },
    f 191 136 == 0)

/-! ### The frame (R296, R297) -/

/-- A frame has the length its LEN gives, and its CRC is right. -/
def frameSound (l : List Byte) : Bool :=
  let len := leAt l 2 2
  decide (len ≤ 4096) && decide (l.length = frameLen len) &&
    leAt l (l.length - 4) 4 == (crc32c (frameCovered l)).toNat

/-- The reserved fields of a frame, its padding included, are zero, VER is 1, and VC is written 0 outside bulk.
DESIGN CHOICE: log 130. -/
def frameClean (l : List Byte) : Bool :=
  let len := leAt l 2 2
  let b (i : Nat) : Nat := leAt l i 1
  b 0 % 16 == 1 && decide (b 0 < 64) && b 7 == 0 && decide (b 9 < 2) && decide (b 10 < 16) &&
    (b 0 / 16 % 4 == 2 || b 10 == 0) && b 11 == 0 && decide (b 20 < 4) && leAt l 21 3 == 0 &&
    ((List.range 4).all fun i => b (13 + 2 * i) % 16 == 0) && leAt l (32 + len) (l.length - 36 - len) == 0

/-- The classes that R297 gives a type on the fabric. -/
def classesOf (ty : Nat) : List Nat :=
  match ty with
  | 0x01 | 0x02 | 0x03 => [0, 2]
  | 0x04 | 0x10 | 0x11 | 0x12 | 0x13 | 0x14 => [1]
  | 0x06 | 0x07 => [2]
  | 0x18 | 0x19 => [0]
  | 0x1A | 0x1B => [3]
  | _ => []

/-- Put bytes into a list at an offset. -/
def patch (l : List Byte) (ofs : Nat) (b : List Byte) : List Byte := l.take ofs ++ b ++ l.drop (ofs + b.length)

/-! ### Delivery -/

/-- Time-stamp a frame that is delivered (R470). -/
def State.stampGot (s : State) (port : PortId) (src : BitVec 8) (m : Msg) (trx key : Stamp) : State :=
  if msgType m = 0 then s
  else s.each (s.msgParts m) fun s p => s.noteFrame p false (msgType m) src port.val trx key

/-- The groups that this device shares with another. -/
def State.sharedGroups (s : State) (d : BitVec 8) : List GroupId :=
  (List.finRange 64).filter fun g => (s.group g).role != 0 && (s.group g).members.contains d

/-- The tile whose credit entry, current or next, holds the window that a grant names. DESIGN CHOICE: log 128. -/
def State.creditHolder? (s : State) (g : GrantMsg) : Option TileId :=
  let holds (l : Store (BitVec 128)) : Bool :=
    let w : BitVec 128 := Store.get 0 l g.entry.toNat
    w.getLsbD 127 && w.extractLsb' 96 24 == g.window
  (List.finRange 512).find? fun t => holds (s.tile t).cur || holds (s.tile t).nxt

/-- Deliver the payload of a frame from device `src` (R254, R297, R313, R315, R316, R453, R470). A payload of another
length than its type's, or with a reserved bit, is discarded (R11). The tile that a grant is for and the layout of a
topology announcement are not in the payload as the spec gives it: a grant renews the credit that names its window in the
entry it names, and whatever finds no taker is handed on as bytes. `cls` is the frame's class. DESIGN CHOICE: log 128. -/
def State.deliverFrame (s : State) (p : PortId) (cls ty : Nat) (src : BitVec 8) (key trx : Stamp) (l : List Byte) : State :=
  let fixed (n : Nat) (clean : Bool) (m : Msg) (f : State → State) : State :=
    if l.length = n ∧ clean = true then f (s.stampGot p src m trx key) else s.discard
  let f16 := fieldN (leAt l 0 16)
  match ty with
  | 0x01 =>
    if l.length < 32 then s.discard
    else
      let h := parsePut l
      let s := s.stampGot p src (.put h (cls == 0) []) trx key
      nextOr s (execPutSegmentReceive (.fabric src (cls == 0)) h (l.drop 32) false s)
  | 0x02 => fixed 16 (f16 31 24 == 0 && f16 127 80 == 0) (.ack 0 0 0) fun s =>
      nextOr s (execAckReceive (BitVec.ofNat 24 (f16 23 0)) (BitVec.ofNat 32 (f16 63 32)) (BitVec.ofNat 16 (f16 79 64)) s)
  | 0x03 => fixed 16 (f16 31 24 == 0 && f16 95 88 == 0) (.ack 0 0 0) fun s =>
      nextOr s (execNackReceive (BitVec.ofNat 24 (f16 23 0)) (BitVec.ofNat 32 (f16 63 32)) (BitVec.ofNat 16 (f16 79 64))
        (BitVec.ofNat 8 (f16 87 80)) (BitVec.ofNat 32 (f16 127 96)) s)
  | 0x04 => fixed 32 ((parseGrant l).rsvd == 0) (.grant (parseGrant l)) fun s =>
      match s.creditHolder? (parseGrant l) with
      | some t => nextOr s (execGrantReceive t (parseGrant l) s)
      | none => s.emit (.device s.devNum) (.deliver 0x04 l)
  | 0x06 => fixed 16 true (.ack 0 0 0) fun s => nextOr s (execReadRequest (.fabric src false) (parseRead l) false none s)
  | 0x07 =>
    if l.length < 17 then s.discard
    else nextOr s (execReadDataSegmentReceive (parseSeg l) (l.drop 16) s)
  | 0x10 => fixed 16 (parseReady l).2 (.ready (parseReady l).1) fun s =>
      nextOr s (execGateReadyReceive src (parseReady l).1 s)
  | 0x11 => fixed 32 (parseFire l).2 (.fire (parseFire l).1) fun s =>
      nextOr s (execGateFireReceive src (parseFire l).1 trx s)
  | 0x12 => fixed 16 (parseArrival l).2 (.arrival (parseArrival l).1) fun s =>
      nextOr s (execDeviceArrivalReceive src (parseArrival l).1 s)
  | 0x13 => fixed 16 (parseArrival l).2 (.cancel (parseArrival l).1) fun s =>
      nextOr s (execCancelArrivalReceive src (parseArrival l).1 s)
  | 0x14 => s.emit (.device s.devNum) (.deliver 0x14 l)
  | 0x18 => fixed 24 (parseAlert l).2 (.alert (parseAlert l).1) fun s =>
      s.each (s.sharedGroups src) fun s g => nextOr s (execAlertMessageReceive g (parseAlert l).1 s)
  | 0x19 => fixed 16 (parseStop l).2 (.stop (parseStop l).1) fun s =>
      nextOr s (execSlackStopMessageReceive (parseStop l).1 trx s)
  | 0x1A => fixed 24 (parseBeacon l).2 (.ack 0 0 0) fun s => nextOr s (execBeaconReceive p (parseBeacon l).1 key trx s)
  | 0x1B => s.each ((s.sharedGroups src).filter fun g => (s.group g).role == 2) fun s g => s.takeBatch src g l
  | _ => s.discard

/-! ### Forwarding (R299, R301, R310) -/

/-- A fire that passes gains its residence, from its receive stamp to the start of its transmission in units of 0.05 ns, and the
LENGTH of its egress port (R310); the frame's CRC is made again. DEDUCED: log 86. -/
def State.addCorr (s : State) (l : List Byte) (out : PortId) (trx : Stamp) (begun : Nat) : List Byte :=
  if leAt l 1 1 = 0x11 then
    sealFrame (patch l 44 (leBytes 4 (leAt l 44 4 + (begun - lineTime trx) / 10 + (s.port out).length.toNat)))
  else l

/-- Hand a frame that came at `trx` to a port `ns` later. DEDUCED: log 86, 220. -/
def State.emitFrame (s : State) (l : List Byte) (out : PortId) (trx : Stamp) (ns : Nat) : State :=
  let cls := leAt l 0 1 / 16 % 4
  let f : WireFrame := { port := out, cls, vc := leAt l 10 1 % 16, at_ := trx + BitVec.ofNat 64 ns, bytes := l }
  let frame := s.addCorr l out trx (lineBegun s.wire f)
  let s := s.modPort out fun x => x.traffic cls l.length
  (s.handOver { f with bytes := frame }).emit (.partner out) (.forward frame)

/-- Forward a frame; when the port is down, by a new route to its destination, or it is counted in UNREACH (R299, R301).
DEDUCED: log 131. -/
def State.forwardFrame (s : State) (l : List Byte) (out : PortId) (trx : Stamp) (ns : Nat) : State :=
  let up (q : PortId) : Bool := (s.port q).st != 0 && !(s.port q).eth
  let lost : State := s.modEngine (engineOf out) fun x => { x with unreach := satAdd x.unreach 1 }
  if up out then s.emitFrame l out trx ns
  else if leAt l 9 1 % 2 = 1 then lost
  else
    match s.route? (BitVec.ofNat 8 (leAt l 8 1)) with
    | some (seg :: r) =>
      if up (exitPort seg) then s.emitFrame (patch l 12 (routeBytes (seg :: r) ++ [0])) (exitPort seg) trx 60 else lost
    | _ => lost

/-- A frame that has come in by a port and is sound: one hop less, then on along its segment, on to the next, or delivered
(R301). DEDUCED: log 131. -/
def State.routeFrame (s : State) (p : PortId) (l : List Byte) (trx : Stamp) : State :=
  let seg := leAt l 20 1 % 4
  let word := leAt l (12 + 2 * seg) 2
  let hops := word % 256
  let src := BitVec.ofNat 8 (leAt l 6 1)
  let give (s : State) : State :=
    s.deliverFrame p (leAt l 0 1 / 16 % 4) (leAt l 1 1) src (BitVec.ofNat 64 (leAt l 24 8)) trx (slice l 32 (leAt l 2 2))
  let bcast := leAt l 9 1 % 2 = 1
  let miss : State := s.modEngine (engineOf p) fun x => { x with misroute := satAdd x.misroute 1 }
  if hops = 0 then miss
  else
    let l := patch l (12 + 2 * seg) (leBytes 2 (word - 1))
    if 1 < hops then
      let s := if bcast then give s else s
      s.forwardFrame l (oppositePort p) trx 32
    else
      let next := if seg < 3 then leAt l (14 + 2 * seg) 2 else 0
      if next % 256 ≠ 0 then
        let s := if bcast then give s else s
        s.forwardFrame (patch l 20 [BitVec.ofNat 8 (seg + 1)]) (exitPort (BitVec.ofNat 16 next)) trx 60
      else if bcast ∨ leAt l 8 1 = s.devNum.toNat then give s
      else miss

/-- A frame arrives at a port: counted, checked by its CRC, type and class, and routed (R11, R296, R297, R301, R303,
R465). -/
def execFabricFrameReceive (p : PortId) (frame : List Byte) (trx : Stamp) (s : State) : Outcome State Fault Refusal :=
  .next (if s.live = true ∧ (s.port p).st = 2 ∧ (s.port p).eth = false then
    let s := (s.reach trx).modPort p fun x => x.traffic (4 + leAt frame 0 1 / 16 % 4) frame.length
    if frame.length < 36 ∨ frameSound frame = false ∨ (classesOf (leAt frame 1 1)).contains (leAt frame 0 1 / 16 % 4) = false
    then s.modEngine (engineOf p) fun x => { x with crcErr := satAdd x.crcErr 1 }
    else if frameClean frame = false then s.discard
    else s.routeFrame p frame trx
  else s)

/-! ### The transport (R304 to R306, R345) -/

/-- A dictionary request (R345); one with a reserved field that is not zero is discarded (R11). -/
def State.dictRequest (s : State) (p : PartId) (slot : HostSlot) (to_ : Dest) (l : List Byte) : State :=
  let w : Writer := .host p slot
  let op := leAt l 0 1
  let complete := leAt l 1 1 == 1
  let index := leAt l 2 2
  let sub := leAt l 4 1
  let count := leAt l 5 1
  let n := leAt l 8 4
  let data := l.drop 32
  let clean := decide (leAt l 1 1 < 2) && leAt l 6 2 == 0 && leAt l 12 20 == 0
  let items : List ListItem := (List.range count).map fun i =>
    { index := BitVec.ofNat 16 (leAt data (4 * i) 2), sub := BitVec.ofNat 8 (leAt data (4 * i + 2) 1)
      rsvd := BitVec.ofNat 8 (leAt data (4 * i + 3) 1) }
  if l.length < 32 ∨ clean = false ∨ n ≠ data.length then s.discard
  else if s.mayAsk w = false then s
  else
    match op with
    | 1 => if n = 0 ∧ count = 0 then s.askRead w to_ index sub complete else s.discard
    | 2 => if count = 0 then s.askWrite w to_ index sub complete data else s.discard
    | 3 => if n = 4 * count then s.askList p slot to_ items else s.discard
    | _ => s.discard

/-- A datagram of a slot (R254, R297, R305). -/
def State.takeDatagram (s : State) (p : PartId) (slot : HostSlot) (seq : BitVec 32) (ty : Nat) (l : List Byte) : State :=
  let via : Via := .transport p slot seq
  match ty with
  | 0x01 =>
    if l.length < 32 then s.discard else nextOr s (execPutSegmentReceive via (parsePut l) (l.drop 32) false s)
  | 0x05 =>
    if l.length = 16 ∧ leAt l 3 1 = 0 ∧ leAt l 4 1 < 16 ∧ leAt l 5 11 = 0 then
      nextOr s (execCreditRequest p slot seq (BitVec.ofNat 24 (leAt l 0 3)) (BitVec.ofNat 4 (leAt l 4 1)) s)
    else s.discard
  | 0x06 => if l.length = 16 then nextOr s (execReadRequest via (parseRead l) false none s) else s.discard
  | 0x20 => s.dictRequest p slot (.via via) l
  | _ => s.discard

/-- The transport header is sound: version, length, reserved fields, CRC (R11, R305). DESIGN CHOICE: log 130. -/
def datagramSound (l : List Byte) : Bool :=
  let len := leAt l 2 2
  leAt l 0 1 == 1 && decide (len ≤ 8224) && decide (l.length = 20 + len) && decide (leAt l 4 1 < 16) &&
    decide (leAt l 5 1 < 8) && leAt l 6 2 == 0 && leAt l 12 4 == 0 &&
    leAt l (16 + len) 4 == (crc32c (l.take (16 + len))).toNat

/-- The link-local address that a port's MAC address forms, as a number of log 129's order (R304). PRESUMED: log 199. -/
def linkLocal (mac : BitVec 48) : Nat :=
  let m (i : Nat) : Nat := fieldN mac.toNat (8 * i + 7) (8 * i)
  leNat (([0xFE, 0x80, 0, 0, 0, 0, 0, 0, m 0 ^^^ 2, m 1, m 2, 0xFF, 0xFE, m 3, m 4, m 5] : List Nat).map (BitVec.ofNat 8))

/-- An address of the node on a link: the link-local one of the port, or the link's static one (R304). -/
def State.ownAddress (s : State) (link : Nat) (a : BitVec 128) : Bool :=
  let static := s.dval (0x2330 + link / 8) (link % 8 + 1)
  a.toNat == linkLocal (Store.get 0 s.otp.macs (link / 8)) || (static != 0 && a.toNat == static)

/-- A UDP datagram is for the transport: whole, without an extension header, with a right checksum, and addressed to the node
and to TransportUdpPort (R304). DEDUCED: log 200. -/
def State.udpOk (s : State) (link : Nat) (u : UdpHead) : Bool :=
  u.sumOk && u.plain && s.ownAddress link u.dst && u.dstPort.toNat == s.dval 0x2320 0

/-- A UDP datagram: accepted from the registered address and port of its slot alone (R304 to R306).
DEDUCED: log 129, 200. -/
def execTransportDatagramReceive (link : Nat) (addr : BitVec 128) (port : BitVec 16) (bytes : List Byte) (u : UdpHead)
    (s : State) : Outcome State Fault Refusal :=
  .next (if s.dictReady = true ∧ s.linkUp link = true then
    let slot : HostSlot := ⟨leAt bytes 4 1 % 16, by omega⟩
    let p : PartId := ⟨leAt bytes 5 1 % 8, by omega⟩
    let seq := BitVec.ofNat 32 (leAt bytes 8 4)
    if s.udpOk link u = false ∨ bytes.length < 20 ∨ datagramSound bytes = false then s.discard
    else if s.slotRegistered p slot.val = false ∨ s.slotPair p slot.val ≠ (addr.toNat, port.toNat) then s.discard
    else s.takeDatagram p slot seq (leAt bytes 1 1) (slice bytes 16 (leAt bytes 2 2))
  else s)

/-- An ICMPv6 message: a solicitation of an address of the node is answered and the neighbour cache learns its sender, one of
another address is not for the node, an advertisement updates the cache, an echo request is answered (R304).
DEDUCED: log 200. -/
def execIcmpv6Receive (link : Nat) (src : BitVec 128) (mac : BitVec 48) (solicit : Option (BitVec 128)) (echo : Bool)
    (s : State) : Outcome State Fault Refusal :=
  .next (if s.dictReady = true ∧ s.linkUp link = true then
    if echo then s.send (.link link) (.echoReply src)
    else
      let others := s.neighbours.filter fun x => !(x.link == link && x.addr == src)
      let learned := { s with
        neighbours := others ++ [{ link, addr := src, mac, seen := s.now, probed := none }]
        unresolved := s.unresolved.filter fun x => decide (x.1 ≠ src) }
      match solicit with
      | none => learned
      | some target => if s.ownAddress link target then learned.send (.link link) (.neighbour src) else s
  else s)

end Sys2Proof.Machine
end

