-- ==== Sys2Proof/Machine/Reset.lean ====
section
/-! DEFINITION. What a power-on, warm or watchdog reset reaches, and the device watchdog (R417 to R419, R436). -/

namespace Sys2Proof.Machine

open Host (Outcome)

/-- The booted firmware slot. -/
def State.bootedSlot (s : State) : FwSlot := if s.island.slot = 0 then s.flash.slotA else s.flash.slotB

/-- Put the booted firmware slot. -/
def State.putBootedSlot (s : State) (x : FwSlot) : State :=
  { s with flash := if s.island.slot = 0 then { s.flash with slotA := x } else { s.flash with slotB := x } }

/-- The SHA-384 of the booted firmware's header (R399). -/
def State.fwDigest (s : State) : List Byte :=
  let slot := s.bootedSlot
  if slot.len = 0 then Config.measured 1 else Config.sha384 (Mem.readBytes slot.bytes 0 64)

/-- A reset during the trial start of a slot makes it INVALID (R400, R419, R436). -/
def State.endTrial (s : State) : State :=
  if s.island.trial = true ∧ s.bootedSlot.mark = .trial then s.putBootedSlot { s.bootedSlot with mark := .invalid } else s

/-- The commits of an area that a reset discards: their writers read RESET (R335). DESIGN CHOICE: log 63. -/
def Area.atReset (a : Area) : Area := { results := ({ a with results := [] }.drop stReset).results }

/-- A cluster at a reset: its repair word comes from the map, without what a band held OFF hid (R23, R424). -/
def Cluster.atReset (x : Cluster) (heldOff : Bool) : Cluster :=
  let unserved := if heldOff then x.mapped else x.unserved
  { field := x.field, retired := x.retired, unserved, mapped := unserved }

/-- What flash holds of an entry, or its default (R343). -/
def Flash.entry (f : Flash) (index sub : Nat) : Nat := Store.get (dfltOf (dkey index sub)) f.dict (dkey index sub)

/-- An engine at a reset: a switch in Ronor mode is in BYPASS with the reset's cause; one in Ethernet mode stays. MODE_ETH and
STAY_BYPASS come from flash (R282, R292, R418). DESIGN CHOICE: log 16; DEDUCED: log 155. -/
def Engine.atReset (x : Engine) (cause : BitVec 8) (modeEth stayBypass : Bool) : Engine :=
  if x.ethMode || x.ethHeld then { switch := x.switch, ethHeld := true, modeEth, stayBypass }
  else { switch := .bypass, bypReason := cause, modeEth, stayBypass }

/-- A partition at a device reset: what flash holds stays, energy stays but at power-on, and an image in a download area
that keeps its contents is to be admitted again (R202, R335, R391, R395, R418). -/
def State.partAtReset (s : State) (p : PartId) (powerOn : Bool) : Part :=
  let pt := (s.abandonAll p).part p
  let ran := (s.part p).admission.isSome || (s.part p).loadAsked
  { ownerRsa := pt.ownerRsa, ownerSlh := pt.ownerSlh, ownerSeq := pt.ownerSeq, area := pt.area.atReset
    result := if ran then pt.result else {}
    energy := if powerOn then [] else pt.energy
    dumpHeld := !powerOn && pt.dumpHeld, dlLen := if powerOn then 0 else pt.dlLen
    loadAsked := !powerOn && s.enabled p && s.imageIn p }

/-- A device reset of type `cause`: 0 power-on, 1 warm, 2 watchdog. It ends in reset, before the start: RST_N of both flashes is
low, and they are back in 1S-1S-1S mode (R418, R425, R500). DESIGN CHOICE: log 10, 154. -/
def State.devReset (s : State) (cause : BitVec 3) : State :=
  let powerOn : Bool := cause == 0
  let s := s.cutDump
  let old := s
  let s := s.endTrial
  let failmap := old.startWord.failmap
  let engines := (List.finRange 8).map fun e => (e.val, (old.engine e).atReset (if powerOn then 1 else 2)
    (s.flash.entry (0x2300 + e.val) 1 == 1) (s.flash.entry (0x2300 + e.val) 2 == 1))
  let clusters := (List.finRange 32).map fun c => (c.val, (old.cluster c).atReset (failmap.getLsbD (bandOf c).val))
  let thermal := (List.range 3).map fun i =>
    (i, ({ tripped := !powerOn && (Store.get {} old.thermal i : Thermal).tripped } : Thermal))
  let island : Island := if powerOn then {} else
    { tamper := old.island.tamper, tsrc := old.island.tsrc, debug := old.island.debug }
  let kept : State := {
    pending := s.pending, now := s.now, devNum := s.devNum, freeCtr := s.freeCtr + 1, epochBase := s.freeCtr + 1
    tagCtr := s.tagCtr, sent := s.sent, wire := s.wire, datagrams := s.datagrams, discarded := s.discarded, events := s.events
    startWord := { cause }
    tiles := s.tiles.map fun x => (x.1, x.2.fresh (s.freeCtr + 1))
    clusters := clusters, engines := engines, thermal := thermal
    hbm := if powerOn then [] else s.hbm
    badAccess := s.badAccess, transients := s.transients, rowRepairs := s.rowRepairs, hardRepairs := s.hardRepairs
    residual := if powerOn then [] else s.residual
    dump := if powerOn then none else s.dump
    otp := s.otp, flash := { s.flash with nor0 := {}, nor1 := {} }, island := island, dict := s.flash.dict, devArea := s.devArea.atReset
    topoSeq := s.topoSeq, coreMap := s.coreMap, coreSpares := s.coreSpares, lastTick := s.lastTick
    opSince := if powerOn then s.now else s.opSince }
  let parts := allParts.map fun p => (p.val, old.partAtReset p powerOn)
  { kept with parts := parts }

/-- PWR_OK low for 1 µs, or a supply below its lower limit (R417, R418). -/
def execPowerOnReset (s : State) : Outcome State Fault Refusal := .next (s.devReset 0)

/-- RESET_N low for 10 µs (R417, R418). -/
def execWarmReset (s : State) : Outcome State Fault Refusal := .next (s.devReset 1)

/-- Management core 0 restarts the device watchdog (R419). -/
def execWatchdogRestart (s : State) : Outcome State Fault Refusal :=
  .next (if s.watchdog.running then { s with watchdog := { s.watchdog with restartedAt := s.now } } else s)

/-- 2 s without a restart: a watchdog reset, unless the watchdog does not run or is paused (R417, R419). -/
def execWatchdogExpiry (s : State) : Outcome State Fault Refusal :=
  .next (if s.watchdog.running = true ∧ s.watchdog.paused = false then
    (s.reach (s.watchdog.restartedAt + 2000000000)).devReset 2
  else s)

/-- Every 10 min of power the operating-time counter is written to both flashes (R422). DESIGN CHOICE: log 162. -/
def execOperatingTimeWrite (s : State) : Outcome State Fault Refusal :=
  .next (
    let due := s.opSince + 600000000000
    let n := max s.flash.opMin0 s.flash.opMin1 + 10
    { s.reach due with flash := { s.flash with opMin0 := n, opMin1 := n }, opSince := due })

end Sys2Proof.Machine
end

