-- ==== Sys2Proof/Machine/Security.lean ====
section
/-! DEFINITION. Control records: enrolment, life cycle, debug unlock, attestation; JTAG; tamper (R372, R395 to R416). -/

namespace Sys2Proof.Machine

open Host (Outcome)

/-! ### Control records (R398, R402, R403) -/

/-- PART, KIND and SEQ of the record in a download area. -/
def State.recPart (s : State) (p : PartId) : Nat := s.img p 6 1
/-- KIND. -/
def State.recKind (s : State) (p : PartId) : Nat := s.img p 7 1
/-- SEQ. -/
def State.recSeq (s : State) (p : PartId) : Nat := s.img p 12 4
/-- KEYA and KEYB. -/
def State.recKeys (s : State) (p : PartId) : BitVec 384 × BitVec 384 :=
  (digest384 (s.imgBytes p 48 48), digest384 (s.imgBytes p 96 48))

/-- The header is that of a record on this device: the fields that every record checks the same way (R402).
DEDUCED: log 77; DESIGN CHOICE: log 144. -/
def State.headerOk (s : State) (p : PartId) : Bool :=
  s.img p 4 2 == 1 && s.img p 8 4 == s.otp.serial.toNat && s.img p 144 48 == 0 &&
    !s.rangeHard (downloadBase p) (192 + sigLen) false

/-- KEYA and KEYB are zero. -/
def State.noKeys (s : State) (p : PartId) : Bool := s.recKeys p == (0, 0)

/-- A record ends: its result, with the processing time (R403). -/
def State.endRecord (s : State) (p : PartId) (r : AdmResult) : State :=
  let ns := Config.freeWord s.freeCtr
  s.drawn.modPart p fun pt => { pt with result := { r with loadNs := ns } }

/-- ImageLoad acts on a record with a MAGIC: BUSY while an admission runs (R200, R403). DESIGN CHOICE: log 144. -/
def State.onRecord (s : State) (p : PartId) (magic : Nat) (mine : Bool) (serve : State → State) : State :=
  if s.mayLoad p = true ∧ s.img p 0 4 = magic ∧ mine = true then
    let s := s.modPart p fun pt => { pt with loadAsked := false }
    if s.loadBusy p then s.modPart p fun pt => { pt with result := pt.busyResult } else serve s
  else s

/-- Stages 3 and 4: the block's keys are those of an authority, and both signatures verify (R398, R402). -/
def State.signFault (s : State) (p : PartId) (authority : BitVec 384 × BitVec 384 → Bool) : Option AdmResult :=
  let block := s.sigBlock p 192
  if authority (blockKeys block) = false then some (recordResult stKey 3)
  else (sigFault block (s.imgBytes p 0 192)).map fun st => recordResult st 4

/-- The vendor's keys (R395). -/
def State.vendorKeys (s : State) (k : BitVec 384 × BitVec 384) : Bool := k == (s.otp.vendorRsa, s.otp.vendorSlh)

/-- The installation keys in force: those of the last slot used (R395, R396). -/
def State.instKeys (s : State) (k : BitVec 384 × BitVec 384) : Bool := s.otp.inst.getLast? == some k

/-! ### Enrolment (R404) -/

/-- The partition that an enrolment names. DEDUCED: log 145. -/
def State.enrolled (s : State) (p : PartId) : PartId := ⟨s.recPart p % 8, by omega⟩

/-- The first check that an enrolment fails. -/
def State.enrolFault (s : State) (p : PartId) : Option AdmResult :=
  let pt := s.part (s.enrolled p)
  let owner (k : BitVec 384 × BitVec 384) : Bool := k == (pt.ownerRsa, pt.ownerSlh) && k != (0, 0)
  if s.headerOk p = false ∨ 8 ≤ s.recPart p ∨ 2 ≤ s.recKind p ∨ s.img p 16 32 ≠ 0 ∨
      (s.recKind p = 1 ∧ s.noKeys p = false) then some (recordResult stFormat 1)
  else if s.lcState ≠ 2 then some (recordResult stStructure 1)
  else
    match s.signFault p fun k => s.instKeys k || owner k with
    | some r => some r
    | none => if s.recSeq p ≤ pt.ownerSeq.toNat then some (recordResult stRollback 5) else none

/-- A JTE1 record: verified, it takes effect at the partition's next boundary, or at once without an image (R404, R416).
DEDUCED: log 145. -/
def execEnrolment (p : PartId) (s : State) : Outcome State Fault Refusal :=
  .next (s.onRecord p 0x3145544A true fun s =>
    match s.enrolFault p with
    | some r => s.endRecord p r
    | none =>
      let q := s.enrolled p
      if (s.part q).enrolDue.isSome then s.modPart p fun pt => { pt with result := pt.busyResult }
      else
        let due : Enrolment := { rsa := (s.recKeys p).1, slh := (s.recKeys p).2, seq := BitVec.ofNat 32 (s.recSeq p), asker := p }
        let s := s.modPart q fun pt => { pt with enrolDue := some due }
        if (s.part q).image.isNone then s.enrolNow q else s)

/-! ### Life cycle (R408 to R411, R414) -/

/-- The keys that may sign a record of KIND `kind` in the present state, where the table lists the transition (R409). -/
def State.lifeAuthority (s : State) (p : PartId) (kind : Nat) : Option (BitVec 384 × BitVec 384 → Bool) :=
  let row : Bool := decide (s.otp.journal.length < 16)
  match s.lcState.toNat, kind with
  | 0, 1 =>
    let ids := match s.flash.identity with | some x => !x.endorsement.isEmpty | none => false
    if ids && s.otp.mapLocked && row then some s.vendorKeys else none
  | 1, 2 => if decide (s.otp.inst.length < 4) && row then some fun k => k == s.recKeys p else none
  | 2, 3 => if row then some s.instKeys else none
  | 3, 1 => if row then some s.vendorKeys else none
  | 0, 4 => if row then some s.vendorKeys else none
  | 1, 4 => if row then some s.vendorKeys else none
  | 3, 4 => if row then some s.vendorKeys else none
  | 2, 4 => if row then some s.instKeys else none
  | 3, 8 => some s.vendorKeys
  | _, _ => none

/-- The first check that a life-cycle record fails (R403, R409). DEDUCED: log 147. -/
def State.lifeFault (s : State) (p : PartId) : Option AdmResult :=
  let kind := s.recKind p
  if s.headerOk p = false ∨ s.recPart p ≠ 0 ∨ s.img p 16 32 ≠ 0 ∨ (kind ≠ 2 ∧ s.noKeys p = false) then
    some (recordResult stFormat 1)
  else
    match s.lifeAuthority p kind with
    | none => some (recordResult stStructure 1)
    | some authority =>
      match s.signFault p authority with
      | some r => some r
      | none => if s.recSeq p ≠ s.otp.inst.length then some (recordResult stRollback 5) else none

/-- Phases 1 and 2 of a transition: INTENT, then every partition stops, withdraws and is unloaded (R200, R410).
DESIGN CHOICE: log 148. -/
def State.beginTransition (s : State) (p : PartId) (target : BitVec 3) (keys : BitVec 384 × BitVec 384) : State :=
  let island : Island := { s.island with sram := { s.island.sram with asker := some p } }
  let s := { s with island, otp := { s.otp with journal := s.otp.journal ++ [({ target := target, complete := false, keys := keys } : JournalRow)] } }
  s.each allParts fun s p =>
    let s := ((s.withdraw p).stopFrame p 0xB 0xFFFF (s.elapsed p)).abandonAll p
    let s := (s.unload p).leaveStop p
    s.modPart p fun pt => { pt with loadAsked := false, boundaryDue := false, layoutNew := none }

/-- The erasure of R414 for a transition: secure SRAM, HBM with the download areas and the dump, scratchpad and banks, the owner
enrolments and the stored dictionary values. DEDUCED: log 149. -/
def State.erase (s : State) : State :=
  let seed := s.freeCtr
  let tiles : Store Tile := s.tiles.map fun (x : Nat × Tile) => (x.1, x.2.fresh seed)
  let island : Island := { s.island with sram := {} }
  let s := { s.drawn with hbm := [], dump := none, tiles := tiles, flash := { s.flash with dict := [] }, island }
  s.each allParts fun s p => s.modPart p fun pt => { pt with
    ownerRsa := 0, ownerSlh := 0, ownerSeq := 0, dlLen := 0, dumpHeld := false, loadAsked := false }

/-- The target's own OTP writes, and COMPLETE (R409, R410). -/
def Otp.complete (o : Otp) : Otp :=
  match o.journal.find? fun r => !r.complete with
  | none => o
  | some row =>
    let done (r : JournalRow) : JournalRow := { r with complete := true }
    { o with
      journal := o.journal.map done
      inst := if row.target = 2 then o.inst ++ [row.keys] else o.inst
      kill := o.kill || row.target == 4 }

/-- Phases 3 to 5 of the transition that is pending: erasure, OTP, COMPLETE, and a warm reset, after which the record's result is
there unless a reset came between (R403, R410, R411). DESIGN CHOICE: log 148. -/
def State.endTransition (s : State) : State :=
  let asker := s.island.sram.asker
  let s := s.erase
  let s := ({ s with otp := s.otp.complete }).devReset 1
  match asker with
  | some p => s.endRecord p (recordResult 0 9)
  | none => s

/-- A JTL1 record that changes the life cycle: phases 1 and 2; the command that follows while the transition is pending
is phases 3 to 5 (R402, R403, R409, R410). DESIGN CHOICE: log 148. -/
def execLifeCycleTransition (p : PartId) (s : State) : Outcome State Fault Refusal :=
  .next (if s.phase = .service ∧ s.transition = true then s.endTransition
  else s.onRecord p 0x314C544A (s.recKind p != 8) fun s =>
    match s.lifeFault p with
    | some r => s.endRecord p r
    | none => s.beginTransition p (BitVec.ofNat 3 (s.recKind p)) (s.recKeys p))

/-- A JTL1 record of KIND 8 opens the IEEE 1687 networks in RETURNED (R409, R415). -/
def execDebugUnlock (p : PartId) (s : State) : Outcome State Fault Refusal :=
  .next (s.onRecord p 0x314C544A (s.recKind p == 8) fun s =>
    match s.lifeFault p with
    | some r => s.endRecord p r
    | none => { s with island := { s.island with debug := true } }.endRecord p (recordResult 0 9))

/-! ### Attestation (R406, R407) -/

/-- A log entry, without its INDEX. -/
def logEntry (kind : Nat) (digest : List Byte) : Nat × List Byte := (kind, digest)

/-- The bytes of log entry `i`: KIND, INDEX, reserved bytes, DIGEST. DEDUCED: log 150. -/
def logBytes (i : Nat) (x : Nat × List Byte) : List Byte :=
  leBytes 2 x.1 ++ [BitVec.ofNat 8 i] ++ List.replicate 13 0 ++ (x.2 ++ List.replicate 48 0).take 48

/-- The two digests of a key pair. DESIGN CHOICE: log 6. -/
def keyBytes (k : BitVec 384 × BitVec 384) : List Byte := leBytes 48 k.1.toNat ++ leBytes 48 k.2.toNat

/-- The measurement log for a request of partition `p` (R407). DEDUCED: log 150. -/
def State.measurements (s : State) (p : PartId) : List (List Byte) :=
  let pt := s.part p
  let fixed := [logEntry 1 s.fwDigest, logEntry 2 (Config.measured 2), logEntry 3 (Config.measured 3),
    logEntry 4 (Config.sha384 (allParts.flatMap fun q => leBytes 32 (s.layout q)))]
  let inst := match s.otp.inst.getLast? with | some k => [logEntry 5 (Config.sha384 (keyBytes k))] | none => []
  let image := match pt.image with | some im => [logEntry 6 im.digest] | none => []
  let owner := if pt.ownerRsa = 0 ∧ pt.ownerSlh = 0 then []
    else [logEntry 7 (Config.sha384 (keyBytes (pt.ownerRsa, pt.ownerSlh)))]
  (fixed ++ inst ++ image ++ owner).zipIdx.map fun x => logBytes x.2 x.1

/-- A signature block has its length (R189). -/
def blockBytes (l : List Byte) : List Byte := (l ++ List.replicate sigLen 0).take sigLen

/-- The report (R406). DESIGN CHOICE: log 6, 170; DEDUCED: log 150. -/
def State.report (s : State) (p : PartId) (nonce : List Byte) : List Byte :=
  let entries := s.measurements p
  let final := entries.foldl (fun m e => Config.sha384 (m ++ e)) (List.replicate 48 0)
  let flags := b2n s.island.tamper + 2 * b2n s.island.debug + 4 * b2n s.island.trial
  let head := leBytes 4 0x3152544A ++ leBytes 2 1 ++ [s.lcState.setWidth 8, BitVec.ofNat 8 flags] ++
    leBytes 4 s.otp.serial.toNat ++ leBytes 4 entries.length ++ nonce ++ leBytes 8 s.now.toNat ++
    [s.otp.fwSvn.setWidth 8, BitVec.ofNat 8 p.val] ++ List.replicate 6 0 ++ (final ++ List.replicate 48 0).take 48 ++
    (List.range 16).map fun i => (Store.get 0 s.otp.imgSvn i).setWidth 8
  let body := head ++ entries.flatten ++ blockBytes (match s.flash.identity with | some x => x.endorsement | none => [])
  body ++ blockBytes (Config.identitySign (s.island.sram.identity.getD []) body)

/-- The first check that a request fails (R403, R406). -/
def State.attestFault (s : State) (p : PartId) : Option AdmResult :=
  if s.headerOk p = false ∨ s.recPart p ≠ 0 ∨ s.recKind p ≠ 0 ∨ s.recSeq p ≠ 0 ∨ s.noKeys p = false then
    some (recordResult stFormat 1)
  else if s.lcState = 4 ∨ (s.lcState = 0 ∧ (s.flash.identity.all fun x => x.endorsement.isEmpty) = true) ∨ s.island.tamper = true then
    some (recordResult stStructure 1)
  else none

/-- A JTA1 request: the signed report replaces it in the download area (R265, R406). -/
def execAttestationRequest (p : PartId) (s : State) : Outcome State Fault Refusal :=
  .next (s.onRecord p 0x3141544A true fun s =>
    match s.attestFault p with
    | some r => s.endRecord p r
    | none =>
      let s1 := { s with island := { s.island with sram := { s.island.sram with log := s.measurements p } } }
      (s1.deliver p 0 (s.report p (s.imgBytes p 16 32))).endRecord p (recordResult 0 9))

/-! ### JTAG (R365, R408) -/

/-- The IEEE 1687 networks are open. DESIGN CHOICE: log 151. -/
def State.networksOpen (s : State) : Bool := s.lcState == 0 || (s.lcState == 3 && s.island.debug)

/-- Fuses are only set: a field holds what it held and what is written (R396). -/
def fuse {n : Nat} (old new : BitVec n) : BitVec n := old ||| new

/-- The island writes an OTP field, or makes the identity keys with the private parts wrapped, in MANUFACTURE; the factory map is
no longer written once it is locked (R395, R396, R408, R409). DESIGN CHOICE: log 227. -/
def State.otpWrite (s : State) (x : OtpWrite) : State :=
  let o := s.otp
  match x with
  | .rootSecret =>
    let fresh : BitVec 256 := Config.freeWord s.freeCtr ++ Config.freeWord (s.freeCtr + 1) ++ Config.freeWord (s.freeCtr + 2) ++
      Config.freeWord (s.freeCtr + 3)
    { s with freeCtr := s.freeCtr + 4, otp := { o with rootSecret := fuse o.rootSecret fresh } }
  | .vendorKeys rsa slh => { s with otp := { o with vendorRsa := fuse o.vendorRsa rsa, vendorSlh := fuse o.vendorSlh slh } }
  | .factory f => if o.mapLocked then s else { s with otp := { o with factory := f } }
  | .lockMap => { s with otp := { o with mapLocked := true } }
  | .serial n => { s with otp := { o with serial := fuse o.serial n } }
  | .mac p a => { s with otp := { o with macs := Store.set o.macs p.val (fuse (Store.get 0 o.macs p.val) a) } }
  | .hwVersion b => { s with otp := { o with hwVersion := b } }
  | .identityKeys =>
    let (rsaPub, slhPub, priv) := Config.identityKeys s.freeCtr
    match s.island.sram.wrapKey with
    | some k =>
      let ids : IdKeys := { rsaPub, slhPub, wrapped := Config.wrapKeys k priv }
      { s.drawn with flash := { s.flash with identity := some ids }
                     island := { s.island with sram := { s.island.sram with identity := some priv } } }
    | none => s
  | .endorsement b => { s with flash := { s.flash with identity := s.flash.identity.map fun x => { x with endorsement := b } } }

/-- What an access on the TAP pins changes: in MANUFACTURE the networks reach the island's OTP and the stacks' hard repairs (R394,
R408). DESIGN CHOICE: log 227. -/
def State.jtagEffect (s : State) (net : JtagNet) : State :=
  match net with
  | .boundary | .network => s
  | .otp x => if s.lcState = 0 then s.otpWrite x else s
  | .hardRepair row =>
    if s.lcState = 0 then
      { s with hardRepairs := row ++ s.hardRepairs, hardNow := s.hardNow.filter fun x => !row.contains x.1 }
    else s

/-- An access on the TAP pins: boundary scan is always open, the networks where the life cycle opens them; what TDO
shifts out is not stated. A network access that is in progress keeps D29 on (R365).
DEDUCED: log 111; DESIGN CHOICE: log 151. -/
def execJtagAccess (net : JtagNet) (data : BitVec 64) (s : State) : Outcome State Fault Refusal :=
  .next (if net ≠ JtagNet.boundary ∧ s.networksOpen = false then s
  else
    let out := Config.freeWord s.freeCtr ^^^ data
    let s := (({ s.drawn with jtagOpen := net != JtagNet.boundary }).emit .tap (.jtag out)).jtagEffect net
    if s.phase = .service then s.setD29 else s)

/-! ### Tamper (R412, R413) -/

/-- A tile of a band that is ON: banks and sealed regions are wiped, and every window advances (R204, R241, R413). -/
def State.wipeTile (s : State) (t : TileId) : State :=
  let s := (s.wipeSealed t).clearHandles t
  let bare (mc : Macro) : Macro := { mc with bank0 := mc.bank0.wipe, bank1 := mc.bank1.wipe }
  (s.modTile t fun tl => { tl with macros := tl.macros.map fun x => (x.1, bare x.2), step := none }).freeDma t

/-- A band at a tamper: wiped when ON, otherwise without power and so without contents (R372, R413).
DEDUCED: log 152. -/
def State.tamperBand (s : State) (b : BandId) : State :=
  match s.dom b.val with
  | .on => s.each (bandTiles b) State.wipeTile
  | .off => s
  | _ => ((s.each (bandTiles b) fun s t => s.modTile t Tile.dark).setDom b.val .off).modBand b fun x =>
      { x with offCount := satAdd x.offCount 1, ordered := false, draining := false, toRet := false }

/-- Every laser module is disabled, and the switch of every engine in Ronor mode moves to BYPASS with cause 6 (R278,
R282, R292, R413). -/
def State.tamperOptics (s : State) : State :=
  let s := s.each (List.finRange 8) fun s e =>
    let s := (s.modEngine e fun x => { x with laser := 2, l0Ok := false, l1Ok := false }).toBypass e 6
    if (s.engine e).ethMode then s.each (portsOf e) State.portDown else s
  { s with lasersOn := 0 }

/-- A tamper source reports: the first is latched, secure SRAM is zeroed, everything stops and is wiped, and the fault is
device-fatal (R200, R412, R413, R416). DEDUCED: log 152. -/
def execTamper (source : Fin 5) (s : State) : Outcome State Fault Refusal :=
  .next (if s.island.tamper then s
  else
    let island : Island := { s.island with tamper := true, tsrc := BitVec.ofNat 5 (2 ^ source.val), sram := {} }
    let s := ({ s with island }).haltAll 0xE
    let s := s.each allParts State.abandonAll
    let s := (s.each (List.finRange 16) State.tamperBand).tamperOptics
    let src := s.srcH 2 0
    if s.running then s.devFatalNow 3 src
    else if s.phase = .fatal ∧ s.dump.isSome = true then s.writeDump 5 0 src 3 false
    else s)

end Sys2Proof.Machine
end

