-- ==== Sys2Proof/Machine/Start.lean ====
section
/-! DEFINITION. The start sequence, the Ebb record, and the orderly shutdown (R27, R281, R283, R292, R322, R337, R400, R401,
R411, R419 to R430). -/

namespace Sys2Proof.Machine

open Host (Outcome)

/-! ### Firmware slots (R400, R401) -/

/-- A slot passes the verification of a start: the factory's firmware by the island's verdict alone. -/
def State.slotPasses (s : State) (x : FwSlot) (verdict : Bool) : Bool := verdict && (x.len == 0 || s.fwGood x)

/-- A TRIAL slot that fails its check becomes INVALID. -/
def State.failTrial (x : FwSlot) (good : Bool) : FwSlot :=
  if x.mark = .trial ∧ good = false then { x with mark := .invalid } else x

/-- The slot that a start boots: a TRIAL slot once, or else the GOOD slot most recently marked that passes; none starts the
recovery loader. -/
def State.pickSlot (s : State) (aOk bOk : Bool) : State × Option (BitVec 1) :=
  let a := s.flash.slotA
  let b := s.flash.slotB
  let aGood := s.slotPasses a aOk
  let bGood := s.slotPasses b bOk
  let s := { s with flash := { s.flash with slotA := State.failTrial a aGood, slotB := State.failTrial b bGood } }
  let boot (slot : BitVec 1) (trial : Bool) : State := { s with island := { s.island with slot, trial } }
  let aRuns := a.mark == .good && aGood
  let bRuns := b.mark == .good && bGood
  if a.mark = .trial ∧ aGood = true then (boot 0 true, some 0)
  else if b.mark = .trial ∧ bGood = true then (boot 1 true, some 1)
  else if aRuns && (!bRuns || decide (b.order ≤ a.order)) then (boot 0 false, some 0)
  else if bRuns then (boot 1 false, some 1)
  else (s, none)

/-! ### Keys (R397) -/

/-- The labels "fnx hmac" and "fnx wrap" (R397). -/
def labelHmac : List Byte := [0x66, 0x6E, 0x78, 0x20, 0x68, 0x6D, 0x61, 0x63]
/-- "fnx wrap". -/
def labelWrap : List Byte := [0x66, 0x6E, 0x78, 0x20, 0x77, 0x72, 0x61, 0x70]

/-- Step 2: the island derives its keys and unwraps the identity keys, unless KILL is set or a tamper is latched (R397, R413). -/
def State.deriveKeys (s : State) : State :=
  let key (label : List Byte) : List Byte := Config.hkdf s.otp.rootSecret label s.otp.serial
  let sram : Sram := if s.otp.kill || s.island.tamper then {} else
    { hmacKey := some (key labelHmac), wrapKey := some (key labelWrap)
      identity := s.flash.identity.bind fun x => Config.unwrapKeys (key labelWrap) x.wrapped }
  { s with island := { s.island with sram } }

/-- The device HMAC key exists (R397, R413). DESIGN CHOICE: log 158. -/
def State.hmacKey (s : State) : Bool := s.island.sram.hmacKey.isSome

/-! ### The Ebb record (R422, R423) -/

/-- Domains 0 to 29 except 28. -/
def testedAll : BitVec 30 := 0x2FFFFFFF

/-- The operating-time counter, in minutes: the newer flash copy and the minutes since it was written (R422).
DESIGN CHOICE: log 162. -/
def State.opMinutes (s : State) : Nat := max s.flash.opMin0 s.flash.opMin1 + nsSince s.opSince s.now / 60000000000

/-- The domains whose signature is the one that the firmware carries; domain 28 is not tested (R427). DESIGN CHOICE: log 157. -/
def State.passMap (s : State) (signatures : List (BitVec 64)) : BitVec 30 :=
  (List.range 30).foldl (fun (m : BitVec 30) d =>
    if d ≠ 28 ∧ signatures.getD d 0 = Store.get 0 s.bootedSlot.misr d then m ||| ((1#30) <<< d) else m) 0

/-- Bytes 0 to 319 of the record of a logic self-test (R422). -/
def State.ebbBody (s : State) (origin : BitVec 8) (signatures : List (BitVec 64)) : List Byte :=
  leBytes 4 0x31424245 ++ leBytes 2 1 ++ [origin, 0] ++ leBytes 4 s.otp.serial.toNat ++ leBytes 4 s.fwVersion ++
    (s.fwDigest ++ List.replicate 48 0).take 48 ++ leBytes 8 s.opMinutes ++ leBytes 4 (s.passMap signatures).toNat ++
    leBytes 4 testedAll.toNat ++ (List.range 30).flatMap fun d => leBytes 8 (if d = 28 then 0 else (signatures.getD d 0).toNat)

/-- The MAC of a record, with the device HMAC key (R422). -/
def State.ebbMac (s : State) (body : List Byte) : List Byte :=
  match s.island.sram.hmacKey with
  | some k => leBytes 48 (Config.hmac k body).toNat
  | none => List.replicate 48 0

/-- The record in both flashes. DESIGN CHOICE: log 157. -/
def Flash.putEbb (f : Flash) (l : List Byte) : Flash := { f with ebb0 := l, ebb1 := l }

/-- RECORD of one copy: 0 for a valid record, or the first check of R423 that it fails (R425). DEDUCED: log 156. -/
def State.ebbCheck (s : State) (l : List Byte) : BitVec 4 :=
  if l.length ≠ 368 ∨ leAt l 0 4 ≠ 0x31424245 ∨ leAt l 4 2 ≠ 1 ∨ leAt l 8 4 ≠ s.otp.serial.toNat then 1
  else if s.hmacKey = false ∨ l.drop 320 ≠ s.ebbMac (l.take 320) then 2
  else if slice l 16 48 ≠ (s.fwDigest ++ List.replicate 48 0).take 48 then 3
  else if BitVec.ofNat 30 (leAt l 76 4) &&& testedAll ≠ testedAll then 5
  else if 43200 ≤ s.opMinutes - leAt l 64 8 then 4
  else 0

/-- The record that a start uses: the valid one with the larger OPMIN (R423). -/
def State.ebbUsed (s : State) : Option (List Byte) :=
  let ok (l : List Byte) : Bool := s.ebbCheck l == 0
  let a := s.flash.ebb0
  let b := s.flash.ebb1
  if ok a && (!ok b || decide (leAt b 64 8 ≤ leAt a 64 8)) then some a else if ok b then some b else none

/-- RECORD of the start status word. DEDUCED: log 156. -/
def State.ebbCode (s : State) : BitVec 4 :=
  if s.ebbUsed.isSome then 0 else if s.flash.ebb0 = [] then s.ebbCheck s.flash.ebb1 else s.ebbCheck s.flash.ebb0

/-- Steps 4 and 5: a valid record serves the start; otherwise the power-on test runs and writes a record (R423, R427, R428).
DEDUCED: log 99; DESIGN CHOICE: log 157. -/
def State.logicTest (s : State) (signatures : List (BitVec 64)) : State :=
  match s.ebbUsed with
  | some l =>
    let failmap : BitVec 30 := ~~~ BitVec.ofNat 30 (leAt l 72 4) &&& testedAll
    { s with startWord := { s.startWord with record := 0, post := false, failmap } }
  | none =>
    let code := s.ebbCode
    let body := s.ebbBody 1 signatures
    { s with
      flash := s.flash.putEbb (body ++ s.ebbMac body)
      startWord := { s.startWord with record := code, post := true, failmap := ~~~ s.passMap signatures &&& testedAll } }

/-! ### Domains, map and memories (R424, R427 to R430) -/

/-- A device-fatal start stops at its step (R421). DEDUCED: log 153; DESIGN CHOICE: log 161. -/
def State.stopStart (s : State) : State :=
  { s with phase := .startFatal, alert := { s.alert with fatal := true }
           pins := { s.pins with alertLow := true, bypEn := false } }

/-- A failed domain of D16 to D19, D26 or D27 is device-fatal (R424). -/
def fatalDomains : BitVec 30 := 0x0C0F0000

/-- Step 6: every domain but D29 is on, except those held OFF; tiles of a band held OFF are unserved (R420, R424). -/
def State.domainsOn (s : State) : State :=
  let failmap := s.startWord.failmap
  let doms : Store DomSt := (List.range 30).map fun d => (d, if d = 29 ∨ failmap.getLsbD d = true then .off else .on)
  let s := { s with domains := doms, rootClk := { s.rootClk with lockA := true, lockB := true } }
  let s := s.each ((List.finRange 16).filter fun b => !failmap.getLsbD b.val) fun s b =>
    s.modBand b fun x => { x with onAt := s.bandClocks b }
  s.each ((List.finRange 32).filter fun c => failmap.getLsbD (bandOf c).val) fun s c =>
    s.modCluster c fun x => { x with mapped := x.unserved, unserved := 0xFFFF }

/-- A tile as the factory layer has it (R22, R24, R27). -/
def factoryTile (f : Factory) (t : TileId) (tl : Tile) : Tile :=
  let own := f.steer.filter fun x => decide (x.1 / 32 = t.val)
  own.foldl (fun tl x => tl.modMac (x.1 / 2 % 16) fun mc => mc.modBank (BitVec.ofNat 1 (x.1 % 2)) fun b => { b with steer := x.2 })
    { tl with repair := { retired := Store.get 16 f.macros t.val }, macros := [] }

/-- A field layer of which no copy in flash verifies is discarded with the row repairs that it records: the factory layer
alone, and an event of
class corrected (R21 to R24, R27, R271). DESIGN CHOICE: log 158, 202. -/
def State.dropMap (s : State) : State :=
  let f := s.otp.factory
  let ts := (List.finRange 512).filter fun t =>
    (s.tiles.any fun x => decide (x.1 = t.val)) || (f.macros.any fun x => decide (x.1 = t.val)) ||
      f.steer.any fun x => decide (x.1 / 32 = t.val)
  let s := s.each ts fun s t => s.modTile t (factoryTile f t)
  let s := { s with
    coreMap := f.cores, coreSpares := (f.cores.filter fun (x : Nat × Nat) => decide (x.2 < 18)).length, rowRepairs := [] }
  let s := s.each (List.finRange 32) fun s c => s.modCluster c fun x =>
    let held := s.startWord.failmap.getLsbD (bandOf c).val
    let unserved : BitVec 16 := Store.get 0 f.unserved c.val
    { field := false, retired := Store.get 16 f.tiles c.val, unserved := if held then 0xFFFF else unserved, mapped := unserved
      counters := x.counters }
  s.raise 0x0010 clsCorrected (s.srcH 1 0) noIds none []

/-- The row repairs of the field layer are applied again: none of their accesses fails, nor one that a hard repair has mended
(R271, R408). -/
def State.reapplyRows (s : State) : State :=
  let mended (a : HbmAddr) : Bool := s.hardRepairs.contains a || s.rowRepairs.any fun (r : List HbmAddr) => r.contains a
  { s with hardNow := s.hardNow.filter fun (x : HbmAddr × Bool) => !mended x.1 }

/-- Steps 6 to 8, and whether they go through: a fatal failure leaves the start at its step (R27, R271, R421, R429, R430). The
newer copy of the field map whose HMAC verifies is used; a write of the map leaves both the same (R436).
DESIGN CHOICE: log 158. -/
def State.memories (s : State) (m : StartIn) : State × Bool :=
  if (s.startWord.failmap &&& fatalDomains != 0) || !m.plls || !m.stacksOk then (s, false)
  else
    let s := s.domainsOn
    let s := (if m.mapOk != 0 && s.hmacKey then s else s.dropMap).reapplyRows
    if m.findings.any fun f => f == .headland || f == .hbm then (s, false)
    else (s.each m.findings State.applyFinding, true)

/-! ### Fabric start (R32, R281 to R283, R292, R322) -/

/-- What a start meets at an engine (R278, R279, R281). -/
def startInputs (m : StartIn) (e : EngineId) : EngineIn :=
  let i := 2 * e.val
  { holdup := m.holdup.getLsbD e.val, l0Ok := m.lasersOk.getLsbD i, l1Ok := m.lasersOk.getLsbD (i + 1)
    mod0 := m.modulesOk.getLsbD i, mod1 := m.modulesOk.getLsbD (i + 1) }

/-- What the engines and their ports meet at a start (R278, R279, R281, R293). -/
def State.meetEngines (s : State) (m : StartIn) : State :=
  s.each (List.finRange 8) fun s e =>
    let s := s.modEngine e fun x => x.take (startInputs m e)
    s.each (portsOf e) fun s q => s.modPort q fun x => { x with form := m.forms.getD q.val 0 }

/-- Steps 9 to 11: management cores, firmware in slice 70, dictionary, hypervisor; pinned settings are in force. Guests boot by
commands of their own, and the fabric starts after the last (R322, R360, R363, R420). DESIGN CHOICE: log 159. -/
def State.service (s : State) (m : StartIn) : State :=
  let s := { s with
    phase := .service, pins := { s.pins with bypEn := true }
    watchdog := { running := true, paused := false, restartedAt := s.now } }
  let x := s.bootedSlot
  let s := (s.hbmWrite (70 * 2 ^ 32) (Mem.readBytes x.bytes 0 x.len)).meetEngines m
  (s.each (allParts.filter fun p => (s.pinned p).isSome) State.fixPair).fabricIfReady

/-- A guest's boot ends: the partition enters EMPTY, or stays DISABLED with an event; after the last guest the fabric starts
(R322, R329). DESIGN CHOICE: log 159. -/
def execGuestBootComplete (p : PartId) (good : Bool) (s : State) : Outcome State Fault Refusal :=
  .next (if s.phase = .service ∧ s.enabled p = true ∧ (s.part p).guestBooted = false ∧ s.coresUp p = true then
      (if good then s.modPart p fun pt => { pt with guestBooted := true, guestFailed := false, st := .empty }
      else (s.modPart p fun pt => { pt with guestFailed := true, st := .disabled }).raise 0x0011 clsNone (s.srcH 0 p.val) noIds (some p)
        []).fabricIfReady
    else s)

/-- The recovery loader: management core 0 with EtherCAT alone (R401, R421).
DEDUCED: log 111; DESIGN CHOICE: log 161. -/
def State.loader (s : State) : State :=
  let s := { s with
    phase := .loader, pins := { s.pins with bypEn := true }
    watchdog := { running := true, paused := false, restartedAt := s.now } }
  s.setDom 27 .on

/-- A flash as SFDP shows it: 8D-8D-8D where it has that mode (R500). -/
def norOf (octal : Bool) : Nor := { found := true, mode := if octal then .octal else .single }

/-- Step 1 holds: REFCLK is not OK, a tamper source reports, or a valid sensor reads 95 °C or more (R388, R413, R420). -/
def startHolds (m : StartIn) : Bool := !m.refOk || m.tampers != 0 || m.temps.any fun v => decide (950 ≤ v)

/-- Step 1: the root PLL locks; REF_PPM is what REFCLK measures. The flashes leave their reset, and SFDP tells their mode. The
switches stay in BYPASS with cause 7 until the fabric starts (R352, R361, R420, R500). DESIGN CHOICE: log 160, 161. -/
def State.stepOne (s : State) (m : StartIn) : State :=
  let ppm : Int := ((Config.freeWord s.freeCtr).toNat % 601 : Nat) - 300
  let s := { s.drawn with rootClk := { s.rootClk with rootLock := m.refOk, refOk := m.refOk, refPpm := ppmField ppm }
                          startWord := { s.startWord with held := s.startWord.held || startHolds m }
                          pins := { s.pins with flashRstLow := false }
                          flash := { s.flash with nor0 := norOf (m.octal.getLsbD 0), nor1 := norOf (m.octal.getLsbD 1) } }
  s.each (List.finRange 8) fun s e => s.modEngine e fun x => if x.ethHeld then x else { x with bypReason := 7 }

/-- The start sequence after a reset. While step 1 holds, the device waits there for the command that finds it free. With a
transition pending it ends in the erasure and a warm reset; with the tamper latch set the device stays device-fatal. A raise of an
anti-rollback counter that a reset cut short is complete before any admission (R191, R406, R411, R413, R416, R420, R421).
DEDUCED: log 153, 194; DESIGN CHOICE: log 159. -/
def execStartSequence (m : StartIn) (s : State) : Outcome State Fault Refusal :=
  .next (if s.phase = .inReset then
    let s := s.stepOne m
    if startHolds m then s
    else
      let s := s.deriveKeys
      if s.transition then
        match ({ s with startWord := { s.startWord with resumed := true } }).memories m with
        | (s, true) => s.endTransition
        | (s, false) => s.stopStart
      else if s.island.tamper then s.stopStart
      else
        match s.finishRaise.pickSlot m.slotAOk m.slotBOk with
        | (s, none) => s.loader
        | (s, some _) =>
          match (s.logicTest m.signatures).memories m with
          | (s, true) => s.service m
          | (s, false) => s.stopStart
  else s)

/-! ### Shutdown (R335, R426, R427) -/

/-- What is pending is discarded with SHUTTING_DOWN, the Ebb records are erased, no gate is obeyed, and every
partition without a frame in progress withdraws (R335, R419, R426). DESIGN CHOICE: log 163. -/
def State.ebbBegin (s : State) : State :=
  let s := { s with
    devArea := s.devArea.dropPending stShutdown, flash := s.flash.putEbb []
    watchdog := { s.watchdog with paused := true } }
  let s := s.each allParts fun s p =>
    let s := (s.dropView p stShutdown).abandon p
    let s := if (s.part p).run.active then s else s.withdraw p
    s.modPart p fun pt => { pt with loadAsked := false, layoutNew := none, rearmDue := false }
  { s with phase := .ebb }.setD29

/-- Frames that have not finished by their FrameDeadline are stopped as under SKIP (R426). DESIGN CHOICE: log 163. -/
def State.ebbStop (s : State) : State :=
  s.each (allParts.filter fun p => (s.part p).run.active) fun s p =>
    let d := s.deadline p
    ((s.reach ((s.part p).run.ts + BitVec.ofNat 64 d)).stopFrame p 0xB 0xFFFF d).withdraw p

/-- The test starts when the last partition has stopped: nothing is loaded any longer, and the tile bands are switched off, to be
tested first (R427, R435). DESIGN CHOICE: log 163. -/
def State.ebbTest (s : State) : State :=
  let s := s.each allParts fun s p =>
    (s.unload p).modPart p fun pt => { pt with boundaryDue := false }
  { s.each ((List.finRange 16).filter fun b => s.dom b.val != .off) State.bandOff with testing := true }

/-- The test has ended: D0 to D27 and D29 are OFF, and the record is being written, its MAC last (R424, R426, R427, R436). -/
def State.ebbWrite (s : State) (signatures : List (BitVec 64)) : State :=
  let body := s.ebbBody 0 signatures
  let s := s.each allParts fun s p => s.modPart p fun pt => { pt with guestBooted := false }
  let s := s.each (List.finRange 8) State.engineDark
  let doms : Store DomSt := (List.range 30).map fun d => (d, if d = 28 then .on else .off)
  { s with
    phase := .ebbWrite, domains := doms, ecat := {}, watchdog := {}, fabricUp := false, testing := false
    flash := s.flash.putEbb (body ++ List.replicate 48 0), pins := { s.pins with bypEn := false } }

/-- The record is written whole, and GPIO 3 goes high (R426). DESIGN CHOICE: log 163. -/
def State.ebbEnd (s : State) : State :=
  let body := s.flash.ebb0.take 320
  { s with phase := .shutDown, flash := s.flash.putEbb (body ++ s.ebbMac body), pins := { s.pins with shdnDone := true } }

/-- SHDN_N low for 1 ms: writes are refused from now on, and without a frame in progress the test starts. Each further command is
the next stage: the deadlines of the frames in progress are reached and the test starts; it ends with the signatures given and
its record is being written; the record is written (R426). DESIGN CHOICE: log 163. -/
def execShutdown (ns : Nat) (signatures : List (BitVec 64)) (s : State) : Outcome State Fault Refusal :=
  .next (
    match s.phase with
    | .service =>
      if ns < 1000000 then s
      else
        let s := s.ebbBegin
        if allParts.any fun p => (s.part p).run.active then s else s.ebbTest
    | .ebb => if s.testing then s.ebbWrite signatures else s.ebbStop.ebbTest
    | .ebbWrite => s.ebbEnd
    | _ => s)

end Sys2Proof.Machine
end

