-- ==== Sys2Proof/Machine/Registers.lean ====
section
/-! DEFINITION. Firmware's reads and writes of registers by their field codes (R11 to R13). -/

namespace Sys2Proof.Machine

open Host (Outcome)

/-! ### Fields read by RC (R12, R13) -/

/-- A field of a word. -/
def fieldOf (w : BitVec 128) (n lo : Nat) : BitVec n := w.extractLsb' lo n

/-- Put the RC fields of a register: each takes the field of `w` at its own place. The other fields stay.
DESIGN CHOICE: log 164. -/
def State.putRc (s : State) (r : Reg) (w : BitVec 128) : State :=
  match r with
  | .checkStatus t => s.modTile t fun tl =>
      { tl with check := { tl.check with replayOk := fieldOf w 8 24, replayFail := fieldOf w 8 16 } }
  | .weightParity t => s.modTile t fun tl => { tl with wp := { tl.wp with twErr := fieldOf w 8 24, ldErr := fieldOf w 8 16 } }
  | .windowStatus t h => s.modTile t fun tl => tl.modWin h.val fun x =>
      { x with stale := fieldOf w 16 48, refused := fieldOf w 16 32 }
  | .creditStatus t => s.modTile t fun tl => { tl with nacks := fieldOf w 8 24, discards := fieldOf w 16 0 }
  | .tidewalkStatus t => s.modTile t fun tl => { tl with tw := { tl.tw with parFound := fieldOf w 8 16 } }
  | .hbmStatus k => s.modCtrl k fun x =>
      { x with replayOk := fieldOf w 8 24, hard := fieldOf w 8 16, uncorr := fieldOf w 8 8 }
  | .portStatus p => s.modPort p fun x => { x with laneSwaps := fieldOf w 8 8, retrains := fieldOf w 8 0 }
  | .engineStatus e => s.modEngine e fun x => { x with failovers := fieldOf w 8 16 }
  | .fabricError e => s.modEngine e fun x =>
      { x with crcErr := fieldOf w 8 24, misroute := fieldOf w 8 16, unreach := fieldOf w 8 8, linkLost := fieldOf w 8 0 }
  | .dieClock d => s.modDie d fun x => { x with lastResort := fieldOf w 8 16, stretchEvents := fieldOf w 16 0 }
  | .bandWord b => s.modBand b fun x =>
      { x with offCount := fieldOf w 8 24, retCount := fieldOf w 8 16, discards := fieldOf w 16 0 }
  | .partFault p => s.modPart p fun x => { x with withheld := fieldOf w 8 16, minor := fieldOf w 16 0 }
  | .alertStatus => { s with alert := { s.alert with suppressed := fieldOf w 8 16, alerts := fieldOf w 16 0 } }
  | .strandStatus p => s.modPart p fun x => { x with strand := { x.strand with dropped := fieldOf w 16 16 } }
  | .slackStatus => { s with slack := { s.slack with stops := fieldOf w 8 8 } }
  | _ => s

/-- The bad-access list goes with a controller's status word (R271). -/
def State.reportBad (s : State) (r : Reg) : State :=
  match r with
  | .hbmStatus k => s.emit .firmware (.badAccesses (s.badAccess.filter fun (a : HbmAddr) => ctrlOf a == k))
  | _ => s

/-- A read of a register: its value as it stood, and every RC field then holds only what hardware added in the same
cycle, given at the fields' own places (R12, R13, R271). DESIGN CHOICE: log 164. -/
def execRcRegisterRead (r : Reg) (hwCounts : Nat) (s : State) : Outcome State Fault Refusal :=
  .next (((s.putRc r (BitVec.ofNat 128 hwCounts)).emit .firmware (.registerValue (s.regWord r))).reportBad r)

/-! ### Fields written (R11 to R13) -/

/-- A W1C bit: a set by hardware in the same cycle prevails. -/
def w1c (old wrote set : Bool) : Bool := (old && !wrote) || set

/-- A write of the engine control word: STAY_BYPASS moves the switch (R282, R292). -/
def State.writeEngine (s : State) (e : EngineId) (value : BitVec 64) : State :=
  let s := s.modEngine e fun x =>
    { x with modeEth := value.getLsbD 31, laserPref := value.extractLsb' 30 1, stayBypass := value.getLsbD 29 }
  if value.getLsbD 29 then s.toBypass e 3 else s

/-- A write of a register: RW and WO fields take the value, W1C bits written 1 clear, all others and the reserved bits
ignore it (R11 to R13). -/
def State.writeReg (s : State) (r : Reg) (value sets : BitVec 64) : State :=
  let bit (old : Bool) (i : Nat) : Bool := w1c old (value.getLsbD i) (sets.getLsbD i)
  match r with
  | .bankStatus t m => s.modTile t fun tl => tl.modMac m.val fun x => { x with conflict := bit x.conflict 31 }
  | .slotStatus t a => s.modTile t fun tl => tl.modSlot a.val fun x => { x with conflict := bit x.conflict 27 }
  | .checkStatus t => s.modTile t fun tl => { tl with check := { tl.check with storePar := bit tl.check.storePar 14 } }
  | .verifyControl t => s.modTile t fun tl =>
      let v := tl.verify.write (value.setWidth 32)
      { tl with verify := { v with done := v.done || sets.getLsbD 29 } }
  | .verifySource t => s.modTile t fun tl =>
      { tl with verify := { tl.verify with rstride := value.extractLsb' 48 16, addr := value.extractLsb' 0 39 } }
  | .tidewalkStatus t => s.modTile t fun tl =>
      { tl with tw := { tl.tw with spFault := bit tl.tw.spFault 31, bkFault := bit tl.tw.bkFault 30 } }
  | .hbmStatus k => s.modCtrl k fun x => { x with wrFail := bit x.wrFail 1, logValid := bit x.logValid 0 }
  | .engineControl e => s.writeEngine e value
  | .strandPointer p => s.modPart p fun x => { x with strand := x.strand.advance (value.extractLsb' 32 28) }
  | .strandStatus p => s.modPart p fun x => { x with strand := { x.strand with capHeld := bit x.strand.capHeld 14 } }
  | _ => s

/-- A write of a register (R12, R13). -/
def execRegisterWrite (r : Reg) (value hwSets : BitVec 64) (s : State) : Outcome State Fault Refusal :=
  .next (s.writeReg r value hwSets)

end Sys2Proof.Machine
end

