-- ==== Sys2Proof/Machine/Scratch.lean ====
section
/-! DEFINITION. The scratchpad's own events: cluster DMA waits and retries, bank sleep and wake, Tidewalk steps (R216,
R229 to R236, R431 to R434). -/

namespace Sys2Proof.Machine

open Host (Outcome)

/-- A DMA access has waited 256 ac for a sub-bank of banks 0 to 2: an event, and it keeps waiting (R229). -/
def execDmaSubbankWait (t : TileId) (bank : SpBank) (s : State) : Outcome State Fault Refusal :=
  .next (let s := s.settleDma t
    if s.dmaUp t = true ∧ ((s.tile t).held.any fun a => decide (a.why = .subbank) && decide (bankOf a.addr = bank.val) &&
      decide (a.first + 256 ≤ s.dmaCycle t)) = true then
    s.raise 0x0014 clsNone (s.srcCluster (clusterOf t) 1) noIds (s.tileOwner? t) [BitVec.ofNat 8 bank.val]
  else s)

/-- The oldest port D access that got BUSY is tried again, 2 ac later (R230). DEDUCED: log 17. -/
def execDualPortBusyRetry (t : TileId) (s : State) : Outcome State Fault Refusal :=
  .next (if s.dmaUp t then
    match (s.tile t).held.find? fun a => decide (a.why = .busy) with
    | some a => s.serveAll t fun b => decide (b = a)
    | none => s
  else s)

/-- The repeat of a DMA read that met a parity error: good, repeated once more, or refused with PARITY (R232).
DESIGN CHOICE: log 21. -/
def execDmaReadParityRetry (t : TileId) (good : Bool) (s : State) : Outcome State Fault Refusal :=
  .next (if s.dmaUp t then
    match (s.tile t).held.find? fun a => decide (a.why = .parity) with
    | none => s
    | some a =>
      if good then
        (s.serveAll t fun b => decide (b = a)).raise 0x0004 clsReplayed (s.srcCluster (clusterOf t) 1) noIds (s.tileOwner? t) []
      else
        if a.tries < 2 then
          let again (b : HeldAccess) : HeldAccess := if b = a then { a with tries := a.tries + 1 } else b
          s.modTile t fun tl => { tl with held := tl.held.map again }
        else
          let s := s.modTile t fun tl => { tl with held := tl.held.erase a }
          match a.req with
          | some q => s.refuse q.r.window q.via 0 q.r.tag rParity 0
          | none => s
  else s)

/-- SleepIdle of the owner of a tile, in ac (R233). DEDUCED: log 168. -/
def State.sleepIdle (s : State) (t : TileId) : Nat :=
  match s.tileOwner? t with | some p => s.vval p 0x10 4 | none => 2048

/-- The ac of the owner's clock in which nothing has touched a bank, since it last came to ON (R3, R233). -/
def State.idleTime (s : State) (t : TileId) (b : Nat) : Nat :=
  let i := match s.tileOwner? t with | some p => p.val | none => 8
  s.tileAc t - max ((s.tile t).spBank b).touched ((s.band (bandOf (clusterOf t))).onAt.getD i 0)

/-- A bank that nothing has touched for SleepIdle ac sleeps; 0 disables sleep (R233). DEDUCED: log 168. -/
def execBankSleep (t : TileId) (b : SpBank) (s : State) : Outcome State Fault Refusal :=
  .next (
    if s.tileUp t = true ∧ s.sleepIdle t ≠ 0 ∧ ((s.tile t).spBank b.val).power = .on ∧ s.sleepIdle t ≤ s.idleTime t b.val then
      s.modTile t fun tl => tl.modSpBank b.val fun k => { k with power := .sleep }
    else s)

/-- An access to a sleeping bank starts its wake; an access of the stream freezes the tile (R135, R234).
DEDUCED: log 168. -/
def execBankWake (t : TileId) (b : SpBank) (sequencer : Bool) (s : State) : Outcome State Fault Refusal :=
  .next (if s.tileUp t = true ∧ ((s.tile t).spBank b.val).power = .sleep then
    s.modTile t fun tl => tl.startWake b.val sequencer
  else s)

/-- A wake ends: the bank is ON, the held accesses are served, and a wake that froze the tile is counted. A wake whose
remainder a micro-op's freeze has taken is over for the held accesses too (R172, R234). -/
def execBankWakeDone (t : TileId) (b : SpBank) (s : State) : Outcome State Fault Refusal :=
  let k := (s.tile t).spBank b.val
  let serve (s : State) : State := s.serveAll t fun a => decide (a.why = .wake) && decide (bankOf a.addr = b.val)
  .next (
    if s.dmaUp t = false then s
    else if k.power = .waking then
      let s := s.modTile t fun tl =>
        let tl := tl.modSpBank b.val fun k => { k with power := .on, wakeEnd := 0, freezes := false, touched := s.tileAc t }
        if k.freezes then tl.modSeq fun q => { q.freeze 40 with wake := satAdd q.wake 1 } else tl
      serve (if k.freezes then s.count (clusterOf t) 11 40 else s)
    else if k.power = .on then serve s
    else s)

/-! ### Tidewalk (R236, R431 to R434) -/

/-- A region that the open window permits, in a bank that does not sleep (R432). -/
def Tile.regionOk (tl : Tile) (w : Twin) (r : Nat) : Bool :=
  if r < 64 then w.macros.getLsbD (r / 4)
  else
    let b := bankOf (regionBase r)
    w.spbanks.getLsbD b && (tl.spBank b).power == .on

/-- The next region at or after NEXT_REGION, cyclically, that some open window of at least 64 more ac permits (R432).
DEDUCED: log 48. -/
def Tile.nextRegion? (tl : Tile) : Option Nat :=
  let open_ := tl.twinsOpen.filter fun w => decide (tl.seq.ac + 64 ≤ w.stopAt)
  ((List.range 1088).map fun i => (tl.tw.next + i) % 1088).find? fun r => open_.any fun w => tl.regionOk w r

/-- The words of a region whose stored parity is wrong at save (R216, R431): of a shadow bank, 4 for each row. -/
def Tile.regionParity (tl : Tile) (r : Nat) : List Nat :=
  if r < 64 then
    (List.range 64).flatMap fun i => ((tl.mac (r / 4)).shadow.parityBad (r % 4 * 64 + i)).map fun w => 4 * i + w
  else []

/-- The saved contents of a shadow-bank region (R431). -/
def Tile.saved (tl : Tile) (r : Nat) : List (Nat × BitVec 144) :=
  if r < 64 then (tl.mac (r / 4)).shadow.cells.filter fun c => decide (c.1 / 64 = r % 4) else []

/-- A parity error at save: in a shadow bank the bank is INVALID, and the weight parity status word records it; the
step writes every word back as saved (R216, R222, R431, R434). DEDUCED: log 48. -/
def State.stepParity (s : State) (t : TileId) (r word : Nat) : State :=
  let s := s.modTile t fun tl => { tl with tw := { tl.tw with parFound := satAdd tl.tw.parFound 1 } }
  if r < 64 then
    let m := r / 4
    let row := r % 4 * 64 + word / 4 % 64
    let phys := ((s.tile t).mac m).shadowPhys
    let s := s.modTile t fun tl =>
      { tl.modMac m (fun mc => mc.modShadow Bank.invalidate) with
        wp := { tl.wp with
          twErr := satAdd tl.wp.twErr 1, lastSrc := 0, lastPhys := phys, lastMacro := BitVec.ofNat 4 m
          lastWord := BitVec.ofNat 2 word, lastRow := BitVec.ofNat 8 row } }
    s.raise 0x0006 clsNone (s.srcTile t m) noIds (s.tileOwner? t)
      [BitVec.ofNat 8 m, phys.setWidth 8, BitVec.ofNat 8 row, BitVec.ofNat 8 (word % 4)]
  else s

/-- A failed March element or verify: the bank is INVALID and the macro is repaired before ready, or the frame is marked
and the tile retired at the next boundary (R433). -/
def State.stepFault (s : State) (t : TileId) (r word : Nat) : State :=
  let detail := leBytes 2 r ++ leBytes 2 word
  let owner := s.tileOwner? t
  if r < 64 then
    let m := r / 4
    let s := s.modTile t fun tl =>
      { tl.modMac m (fun mc => mc.modShadow Bank.invalidate) with tw := { tl.tw with bkFault := true } }
    let s := s.raise 0x0007 clsNone (s.srcTile t m) noIds owner detail
    match owner with
    | some p => s.modPart p fun pt => { pt with repairs := RepairDue.into pt.repairs { key := 16 * t.val + m, why := .march } }
    | none => s
  else
    let s := s.modTile t fun tl => { tl with tw := { tl.tw with spFault := true } }
    let s := s.abortTile t 0x0007 0xA 20 noIds detail
    match owner with
    | some p => s.modPart p fun pt =>
        { pt with retire := if pt.retire.contains t.val then pt.retire else pt.retire ++ [t.val] }
    | none => s

/-- What a step that starts meets: accesses in flight to its bank 3 region freeze the tile, and a row write in flight to
its shadow bank is a schedule conflict that leaves the load INVALID (R64, R236). -/
def State.stepMeets (s : State) (t : TileId) (r : Nat) : State :=
  let tl := s.tile t
  if r < 64 then
    let m := r / 4
    if tl.seq.ac < (tl.mac m).portUntil then
      (s.modTile t fun tl => tl.modMac m fun mc => mc.modShadow Bank.invalidate).conflict t
        (tl.mac m).portIds [m] [] m
    else s
  else if tl.stepHits (tl.paths.filter fun u => decide (tl.seq.ac < u.start + u.cycles)) then s.meetStep t
  else s

/-- A Tidewalk step starts in an open TWIN with at least 64 ac left: its region is saved with every parity error in it found,
tested, restored and verified. `parityErr` are words at which the read meets an error besides those stored there (R216,
R431 to R433). -/
def execTidewalkStep (t : TileId) (parityErr : List Nat) (marchFail : Option Nat) (s : State) :
    Outcome State Fault Refusal :=
  .next (
    let tl := s.tile t
    if s.tileUp t = true ∧ tl.step = none then
      match tl.nextRegion? with
      | none => s
      | some r =>
        let bad := (tl.regionParity r ++ parityErr.filter fun w => decide (w < 256)).eraseDups
        let s := s.modTile t fun tl => { tl with
          step := some { region := r, start := tl.seq.ac, saved := tl.saved r, failed := marchFail.isSome, freezes := false }
          tw := { tl.tw with next := (r + 1) % 1088 } }
        let s := if r < 64 then s else s.modTile t fun tl => tl.touch [bankOf (regionBase r)] (s.tileAc t)
        let s := s.stepMeets t r
        let s := s.each bad fun s word => s.stepParity t r word
        match marchFail with | some word => s.stepFault t r word | none => s
    else s)

/-- A Tidewalk step ends: its region holds what was saved, the tile's freeze ends, and held accesses are served (R135,
R172, R236). -/
def execTidewalkStepEnd (t : TileId) (frozenAc : Nat) (s : State) : Outcome State Fault Refusal :=
  .next (
    match (s.tile t).step with
    | none => s
    | some st =>
      let n := min frozenAc 64
      let s := s.modTile t fun tl =>
        let cycle := s.dmaCycle t
        let ended := (st.region / 4, st.start, min (cycle + 1) (st.start + 64))
        let recent := tl.bankSteps.filter fun x => decide (cycle < x.2.2 + 512)
        let tl := { tl with step := none, bankSteps := if st.region < 64 then recent ++ [ended] else recent }
        let tl := if st.region < 64 then tl else tl.touch [bankOf (regionBase st.region)] (s.tileAc t)
        if st.freezes then tl.modSeq fun q => q.freeze n else tl
      let s := if st.freezes then s.count (clusterOf t) 11 n else s
      s.serveAll t fun a => decide (a.why = .step))

end Sys2Proof.Machine
end

