-- ==== Sys2Proof/Machine/Dispatch.lean ====
section
/-! DEFINITION. One arm for each command: the call of its meaning. -/

namespace Sys2Proof.Machine

def exec (i : Instr) (s : State) : Host.Outcome State Fault Refusal :=
  match i with
  | .nop t id rsvd => Sys2Proof.Machine.execNop t id rsvd s
  | .loopSetn t id f => Sys2Proof.Machine.execLoopSetn t id f s
  | .loopSetq t id f => Sys2Proof.Machine.execLoopSetq t id f s
  | .loopBranch t id f => Sys2Proof.Machine.execLoopBranch t id f s
  | .loopJump t id f => Sys2Proof.Machine.execLoopJump t id f s
  | .waitcCount t id f => Sys2Proof.Machine.execWaitcCount t id f s
  | .waitcDone t id f => Sys2Proof.Machine.execWaitcDone t id f s
  | .waitcDoneRelease t waited => Sys2Proof.Machine.execWaitcDoneRelease t waited s
  | .macp t id f => Sys2Proof.Machine.execMacp t id f s
  | .passPresentation t upsets => Sys2Proof.Machine.execPassPresentation t upsets s
  | .replayPresentation t upsets => Sys2Proof.Machine.execReplayPresentation t upsets s
  | .groupSumLanding t a => Sys2Proof.Machine.execGroupSumLanding t a s
  | .ldw t id f => Sys2Proof.Machine.execLdw t id f s
  | .ldwHbmDone t cnt => Sys2Proof.Machine.execLdwHbmDone t cnt s
  | .swap t id f => Sys2Proof.Machine.execSwap t id f s
  | .aclr t id f => Sys2Proof.Machine.execAclr t id f s
  | .apre t id f => Sys2Proof.Machine.execApre t id f s
  | .adrn t id f => Sys2Proof.Machine.execAdrn t id f s
  | .prescan t id f => Sys2Proof.Machine.execPrescan t id f s
  | .ppu t id f => Sys2Proof.Machine.execPpu t id f s
  | .statOpen t id f => Sys2Proof.Machine.execStatOpen t id f s
  | .statClose t id f => Sys2Proof.Machine.execStatClose t id f s
  | .outpPass t id f parityErr => Sys2Proof.Machine.execOutpPass t id f parityErr s
  | .enginePartialsPresent t m => Sys2Proof.Machine.execEnginePartialsPresent t m s
  | .outpLoad t id f => Sys2Proof.Machine.execOutpLoad t id f s
  | .moveToScratchpad t id f => Sys2Proof.Machine.execMoveToScratchpad t id f s
  | .moveToStaging t id f => Sys2Proof.Machine.execMoveToStaging t id f s
  | .moveToInstructionPage t id f => Sys2Proof.Machine.execMoveToInstructionPage t id f s
  | .rput t id f => Sys2Proof.Machine.execRput t id f s
  | .rputCreditPresent t waited => Sys2Proof.Machine.execRputCreditPresent t waited s
  | .dmahToScratchpad t id f => Sys2Proof.Machine.execDmahToScratchpad t id f s
  | .dmahToHbm t id f => Sys2Proof.Machine.execDmahToHbm t id f s
  | .dmahDone t x => Sys2Proof.Machine.execDmahDone t x s
  | .rdvArrive t id f => Sys2Proof.Machine.execRdvArrive t id f s
  | .rdvWait t id f => Sys2Proof.Machine.execRdvWait t id f s
  | .rdvArriveWait t id f => Sys2Proof.Machine.execRdvArriveWait t id f s
  | .rdvWaitRelease t waited => Sys2Proof.Machine.execRdvWaitRelease t waited s
  | .rdvOverBudget x => Sys2Proof.Machine.execRdvOverBudget x s
  | .gate t id f => Sys2Proof.Machine.execGate t id f s
  | .tileDoneReport t waited => Sys2Proof.Machine.execTileDoneReport t waited s
  | .hint t id f => Sys2Proof.Machine.execHint t id f s
  | .twin t id f => Sys2Proof.Machine.execTwin t id f s
  | .fetchParityReplay x => Sys2Proof.Machine.execFetchParityReplay x s
  | .parityReplayEnd t good => Sys2Proof.Machine.execParityReplayEnd t good s
  | .frameStart p => Sys2Proof.Machine.execFrameStart p s
  | .tileFirstIssue c => Sys2Proof.Machine.execTileFirstIssue c s
  | .softStartEnd t => Sys2Proof.Machine.execSoftStartEnd t s
  | .putSegmentReceive via h data mergeParityErr => Sys2Proof.Machine.execPutSegmentReceive via h data mergeParityErr s
  | .putWriteLanded window via tag => Sys2Proof.Machine.execPutWriteLanded window via tag s
  | .ackReceive window epoch tag => Sys2Proof.Machine.execAckReceive window epoch tag s
  | .nackReceive window epoch tag reason detail => Sys2Proof.Machine.execNackReceive window epoch tag reason detail s
  | .grantReceive t g => Sys2Proof.Machine.execGrantReceive t g s
  | .creditRequest p slot seq window paySlot => Sys2Proof.Machine.execCreditRequest p slot seq window paySlot s
  | .readRequest via r parityErr toggledAfter => Sys2Proof.Machine.execReadRequest via r parityErr toggledAfter s
  | .readDataSegmentReceive r data => Sys2Proof.Machine.execReadDataSegmentReceive r data s
  | .advanceComplete window => Sys2Proof.Machine.execAdvanceComplete window s
  | .advanceTimeout window => Sys2Proof.Machine.execAdvanceTimeout window s
  | .fabricResponseTimeout tag => Sys2Proof.Machine.execFabricResponseTimeout tag s
  | .dmaSubbankWait t bank => Sys2Proof.Machine.execDmaSubbankWait t bank s
  | .dualPortBusyRetry t => Sys2Proof.Machine.execDualPortBusyRetry t s
  | .dmaReadParityRetry t good => Sys2Proof.Machine.execDmaReadParityRetry t good s
  | .bankSleep t b => Sys2Proof.Machine.execBankSleep t b s
  | .bankWake t b sequencer => Sys2Proof.Machine.execBankWake t b sequencer s
  | .bankWakeDone t b => Sys2Proof.Machine.execBankWakeDone t b s
  | .tidewalkStep t parityErr marchFail => Sys2Proof.Machine.execTidewalkStep t parityErr marchFail s
  | .hbmReadReplay a r good ecc => Sys2Proof.Machine.execHbmReadReplay a r good ecc s
  | .hbmWriteReplay a r good => Sys2Proof.Machine.execHbmWriteReplay a r good s
  | .hbmHardErrorRepair a rereads spareRow rowBytes => Sys2Proof.Machine.execHbmHardErrorRepair a rereads spareRow rowBytes s
  | .verifyStart t w => Sys2Proof.Machine.execVerifyStart t w s
  | .verifyRun t => Sys2Proof.Machine.execVerifyRun t s
  | .verifyEnd t parityRows diffCols => Sys2Proof.Machine.execVerifyEnd t parityRows diffCols s
  | .periodicVerify p => Sys2Proof.Machine.execPeriodicVerify p s
  | .weightRepair t m cols0 cols1 localised => Sys2Proof.Machine.execWeightRepair t m cols0 cols1 localised s
  | .imageLoad p => Sys2Proof.Machine.execImageLoad p s
  | .admissionStage8Resume p => Sys2Proof.Machine.execAdmissionStage8Resume p s
  | .admissionLoad p => Sys2Proof.Machine.execAdmissionLoad p s
  | .variantRefill p cls => Sys2Proof.Machine.execVariantRefill p cls s
  | .enrolment p => Sys2Proof.Machine.execEnrolment p s
  | .lifeCycleTransition p => Sys2Proof.Machine.execLifeCycleTransition p s
  | .debugUnlock p => Sys2Proof.Machine.execDebugUnlock p s
  | .attestationRequest p => Sys2Proof.Machine.execAttestationRequest p s
  | .frameOverrun p => Sys2Proof.Machine.execFrameOverrun p s
  | .cancelArrivalReceive src m => Sys2Proof.Machine.execCancelArrivalReceive src m s
  | .deviceArrivalReceive src m => Sys2Proof.Machine.execDeviceArrivalReceive src m s
  | .frameAbortReport p elapsed => Sys2Proof.Machine.execFrameAbortReport p elapsed s
  | .frameCommit p td => Sys2Proof.Machine.execFrameCommit p td s
  | .frameBoundary p => Sys2Proof.Machine.execFrameBoundary p s
  | .gateReadySend g => Sys2Proof.Machine.execGateReadySend g s
  | .gateReadyRepeat g => Sys2Proof.Machine.execGateReadyRepeat g s
  | .gateReadyReceive src m => Sys2Proof.Machine.execGateReadyReceive src m s
  | .gateSourceEvent g source tf => Sys2Proof.Machine.execGateSourceEvent g source tf s
  | .gateFireReceive src m trx => Sys2Proof.Machine.execGateFireReceive src m trx s
  | .topologyAnnounce => Sys2Proof.Machine.execTopologyAnnounce s
  | .topologyAnnouncementReceive e a => Sys2Proof.Machine.execTopologyAnnouncementReceive e a s
  | .fabricFrameReceive p frame trx => Sys2Proof.Machine.execFabricFrameReceive p frame trx s
  | .transportDatagramReceive link addr port bytes u => Sys2Proof.Machine.execTransportDatagramReceive link addr port bytes u s
  | .laneSwap p lane => Sys2Proof.Machine.execLaneSwap p lane s
  | .laserFailover x => Sys2Proof.Machine.execLaserFailover x s
  | .linkTraining p m => Sys2Proof.Machine.execLinkTraining p m s
  | .trainingStageTimeout p => Sys2Proof.Machine.execTrainingStageTimeout p s
  | .capabilityRecordReceive p r => Sys2Proof.Machine.execCapabilityRecordReceive p r s
  | .bypassMove x cause => Sys2Proof.Machine.execBypassMove x cause s
  | .throughMove x => Sys2Proof.Machine.execThroughMove x s
  | .switchMoveDone e => Sys2Proof.Machine.execSwitchMoveDone e s
  | .beaconSend p => Sys2Proof.Machine.execBeaconSend p s
  | .beaconReceive p b ts trx => Sys2Proof.Machine.execBeaconReceive p b ts trx s
  | .alertLeavesCluster c => Sys2Proof.Machine.execAlertLeavesCluster c s
  | .alertMessageReceive group m => Sys2Proof.Machine.execAlertMessageReceive group m s
  | .alertPulseEnd => Sys2Proof.Machine.execAlertPulseEnd s
  | .partitionFatal p detail src => Sys2Proof.Machine.execPartitionFatal p detail src s
  | .deviceFatal detail src => Sys2Proof.Machine.execDeviceFatal detail src s
  | .dumpRelease p => Sys2Proof.Machine.execDumpRelease p s
  | .partitionReset p => Sys2Proof.Machine.execPartitionReset p s
  | .guestUnanswered p => Sys2Proof.Machine.execGuestUnanswered p s
  | .guestPageFault p x => Sys2Proof.Machine.execGuestPageFault p x s
  | .frameWatchdog p => Sys2Proof.Machine.execFrameWatchdog p s
  | .sdoWrite w index sub complete data => Sys2Proof.Machine.execSdoWrite w index sub complete data s
  | .sdoRead w index sub complete => Sys2Proof.Machine.execSdoRead w index sub complete s
  | .readList p slot seq items => Sys2Proof.Machine.execReadList p slot seq items s
  | .sdoInformation index sub what => Sys2Proof.Machine.execSdoInformation index sub what s
  | .commit w a => Sys2Proof.Machine.execCommit w a s
  | .rearm w p => Sys2Proof.Machine.execRearm w p s
  | .deviceCommitApply => Sys2Proof.Machine.execDeviceCommitApply s
  | .layoutChange p => Sys2Proof.Machine.execLayoutChange p s
  | .rxpdoTake x => Sys2Proof.Machine.execRxpdoTake x s
  | .txpdoFill => Sys2Proof.Machine.execTxpdoFill s
  | .pdoMappingWrite index sub value => Sys2Proof.Machine.execPdoMappingWrite index sub value s
  | .smWatchdogExpiry => Sys2Proof.Machine.execSmWatchdogExpiry s
  | .ecatStateTransition target dc => Sys2Proof.Machine.execEcatStateTransition target dc s
  | .foeWrite file password offset data last => Sys2Proof.Machine.execFoeWrite file password offset data last s
  | .foeRead file password offset len => Sys2Proof.Machine.execFoeRead file password offset len s
  | .firmwareSlotCheck => Sys2Proof.Machine.execFirmwareSlotCheck s
  | .firmwareTrialGood => Sys2Proof.Machine.execFirmwareTrialGood s
  | .powerControlTick m => Sys2Proof.Machine.execPowerControlTick m s
  | .pmbusSample readings => Sys2Proof.Machine.execPmbusSample readings s
  | .pmbAlert status => Sys2Proof.Machine.execPmbAlert status s
  | .stepAssert d => Sys2Proof.Machine.execStepAssert d s
  | .droopEvent d lastResort => Sys2Proof.Machine.execDroopEvent d lastResort s
  | .droopEventEnd x => Sys2Proof.Machine.execDroopEventEnd x s
  | .thermalSample sensors => Sys2Proof.Machine.execThermalSample sensors s
  | .thermalTrip idx => Sys2Proof.Machine.execThermalTrip idx s
  | .pllLockLoss which => Sys2Proof.Machine.execPllLockLoss which s
  | .refclkLoss ppm => Sys2Proof.Machine.execRefclkLoss ppm s
  | .bandSwitchOff b => Sys2Proof.Machine.execBandSwitchOff b s
  | .bandDrainTimeout b => Sys2Proof.Machine.execBandDrainTimeout b s
  | .bandRetEntry b => Sys2Proof.Machine.execBandRetEntry b s
  | .bandSwitchOn b findings => Sys2Proof.Machine.execBandSwitchOn b findings s
  | .bandRetExit b => Sys2Proof.Machine.execBandRetExit b s
  | .tamper source => Sys2Proof.Machine.execTamper source s
  | .powerOnReset => Sys2Proof.Machine.execPowerOnReset s
  | .warmReset => Sys2Proof.Machine.execWarmReset s
  | .watchdogRestart => Sys2Proof.Machine.execWatchdogRestart s
  | .watchdogExpiry => Sys2Proof.Machine.execWatchdogExpiry s
  | .startSequence m => Sys2Proof.Machine.execStartSequence m s
  | .shutdown ns signatures => Sys2Proof.Machine.execShutdown ns signatures s
  | .operatingTimeWrite => Sys2Proof.Machine.execOperatingTimeWrite s
  | .counterSample p m => Sys2Proof.Machine.execCounterSample p m s
  | .traceBatchClose p => Sys2Proof.Machine.execTraceBatchClose p s
  | .traceBatchReceive dev group batch => Sys2Proof.Machine.execTraceBatchReceive dev group batch s
  | .rdptrWrite p value => Sys2Proof.Machine.execRdptrWrite p value s
  | .capheldRelease p => Sys2Proof.Machine.execCapheldRelease p s
  | .slackTrigger p trigger => Sys2Proof.Machine.execSlackTrigger p trigger s
  | .slackNInput => Sys2Proof.Machine.execSlackNInput s
  | .slackStopMessageReceive m trx => Sys2Proof.Machine.execSlackStopMessageReceive m trx s
  | .slackStop stopA stopB late => Sys2Proof.Machine.execSlackStop stopA stopB late s
  | .slackScanOut complete => Sys2Proof.Machine.execSlackScanOut complete s
  | .rcRegisterRead r hwCounts => Sys2Proof.Machine.execRcRegisterRead r hwCounts s
  | .registerWrite r value hwSets => Sys2Proof.Machine.execRegisterWrite r value hwSets s
  | .tidewalkStepEnd t frozenAc => Sys2Proof.Machine.execTidewalkStepEnd t frozenAc s
  | .guestBootComplete p good => Sys2Proof.Machine.execGuestBootComplete p good s
  | .refclkRecovery ppm => Sys2Proof.Machine.execRefclkRecovery ppm s
  | .frameOutPulseEnd => Sys2Proof.Machine.execFrameOutPulseEnd s
  | .slackNPulseEnd => Sys2Proof.Machine.execSlackNPulseEnd s
  | .slackStopMessageTimeout => Sys2Proof.Machine.execSlackStopMessageTimeout s
  | .icmpv6Receive link src mac solicit echo => Sys2Proof.Machine.execIcmpv6Receive link src mac solicit echo s
  | .jtagAccess net data => Sys2Proof.Machine.execJtagAccess net data s

end Sys2Proof.Machine
end

