-- ==== Sys2Proof/Machine/Step.lean ====
section
/-! DEFINITION. One step: the command at the front of the queue runs with the queue's rest; on an empty queue the
block idles for 1 ns (log entry 1). -/

namespace Sys2Proof.Machine

open Host (Outcome)

/-- One step of the block. DESIGN CHOICE: log 1; DEDUCED: log 8. -/
def step (s : State) : Outcome State Fault Refusal :=
  match s.pending with
  | [] => .next s.idle
  | c :: rest => exec c { s with pending := rest }

/-- The state with the command that a table word spells in front; no word spells one. DEDUCED: log 8. -/
def State.withFetchWord (s : State) (nbits w : Nat) : State :=
  match decodeTableWord nbits w with
  | some c => { s with pending := c :: s.pending }
  | none => s

end Sys2Proof.Machine
end

