-- ==== Sys2Proof/Safety.lean ====
section
/-! DEFINITION. The terms of the statements: the good form of a state, when the sequencer issues a micro-op, and the
tile and the block after it. -/

namespace Sys2Proof.Machine

/-- The HBM memory is in canonical form. -/
def State.hbmOk (s : State) : Bool := Mem.wf s.hbm

/-- Every scratchpad is in canonical form. -/
def State.spOk (s : State) : Bool := s.tiles.all fun x => Mem.wf x.2.sp

/-- The canonical form of every memory of the block. -/
def State.memOk (s : State) : Bool := s.hbmOk && s.spOk

/-- The sequencer of tile `t` issues micro-op `i` now, and no MOVE is writing an instruction page once what was due at the
tile has come about. -/
def State.issues (s : State) (t : TileId) (i : Instr) : Bool :=
  (match encode i with | some w => decide (s.verdict t w = .accepted) | none => false) &&
    ((s.due t).tile t).pageHold.isNone

/-- A tile as micro-op `id` begins: what was due by its cycle has come about, and the ID word holds the tags. -/
def Tile.begun (tl : Tile) (id : Ids) : Tile :=
  tl.settle.modSeq fun q => { q with layer := id.layer, opid := id.opid, ahead := 0 }

/-- A tile whose sequencer stands at the following index, one ac later. -/
def Tile.next (tl : Tile) : Tile := tl.modSeq fun q => { q with pc := q.pc + 1, ac := q.ac + 1 }

/-- Nothing is due at tile `t` before its next micro-op: no output of its PPU, no DMA access and no late write waits (R118, R160,
R229). -/
def State.idleAt (s : State) (t : TileId) : Bool :=
  (s.tile t).samples.isEmpty && (s.tile t).held.isEmpty && (s.tile t).late.isEmpty

/-- The block after tile `t` has issued a micro-op and stands as `tl`; its cluster counts the issue. -/
def State.issued (s : State) (t : TileId) (tl : Tile) : State := (s.modTile t fun _ => tl).count (clusterOf t) 14 1

/-- Nothing of the tile's other work meets an access of its stream: no Tidewalk step, no DMA access or late write in hand, no
torn or short epoch, every scratchpad bank awake. -/
def State.calm (s : State) (t : TileId) : Bool :=
  let tl := s.tile t
  tl.step.isNone && tl.held.isEmpty && tl.late.isEmpty && ((List.range 4).all fun b => (tl.spBank b).power == .on) &&
    (List.range 32).all fun h => !(tl.win h).torn && !(tl.win h).short

/-- Nothing but tile `t`, HBM left alone, and the counters of its cluster differ. -/
def OnlyTile (t : TileId) (s s' : State) : Prop :=
  { s' with tiles := s.tiles, clusters := s.clusters } = s ∧ (∀ x, x ≠ t → s'.tile x = s.tile x) ∧
    ∀ c, { s'.cluster c with counters := [] } = { s.cluster c with counters := [] } ∧
      (c ≠ clusterOf t → s'.cluster c = s.cluster c)

/-- Two tiles differ at most in what a micro-op with scratchpad operands changes beside its result: sequencer, address
registers, path uses, the time its units stay busy, and when its banks were last accessed. -/
def Tile.sameBut (a b : Tile) : Prop :=
  { a with seq := b.seq, q := b.q, paths := b.paths, unitsUntil := b.unitsUntil, spBanks := b.spBanks } = b ∧
    ∀ k, { a.spBank k with touched := 0 } = { b.spBank k with touched := 0 }

/-- The tile in which a micro-op of `units` with the uses `us` of scratchpad does its work: begun, its paths taken, its
banks accessed now. -/
def State.opened (s : State) (t : TileId) (id : Ids) (us : List PathUse) (units : Units) : Tile :=
  (((s.tile t).begun id).addPaths (us.map fun u =>
    { u with
      ids := id, macs := units.macs, slots := units.slots, unit := units.unit, issue := (s.tile t).seq.ac })).touchUses us (s.tileAc t)

end Sys2Proof.Machine
end

