-- ==== Sys2Proof/Certificates/Slice0/Obligations.lean ====
section
/-! DEFINITION. The statements for the provers. A statement about every state says what the rules it cites give; its
hypotheses are on the state and the operands alone. -/

open Sys2Proof Sys2Proof.Machine

/-- The command at the front of the queue runs on the state with the queue's rest.
The model's own rule (log entry 1): a step on an empty queue lets 1 ns of the time-stamp counter pass and changes
nothing else. -/
def Obligations.StepRunsFrontCommand : Prop :=
  (∀ (s : State) (c : Instr) (rest : List Instr), s.pending = c :: rest →
     step s = exec c { s with pending := rest }) ∧
  (∀ s : State, s.pending = [] → step s = .next { s with now := s.now + 1 })

/-- Whatever a command does, the commands that wait behind it stay as they are. -/
def Obligations.CommandsLeaveTheQueue : Prop :=
  ∀ (c : Instr) (s s' : State), exec c s = .next s' → s'.pending = s.pending

/-- The model's own invariant: a step keeps every scratchpad and HBM in canonical form, addresses strictly rising and no
zero byte listed (log entry 20). -/
def Obligations.StepsKeepMemoryCanonical : Prop :=
  ∀ s s' : State, s.memOk = true → step s = .next s' → s'.memOk = true

/-- R62, R81, R82, R117, R132, R290, R291, R328, R363, R444, R445, R478: the words whose reset values these rules give
read so at reset; the state type's own values (log entries 15 and 20) stand beside them: memories in canonical form
with nothing listed, no command waiting, every domain OFF but D28.
It rests also on what the model chose or inferred: log entries 15, 16, 198. -/
def Obligations.WordsAtReset : Prop :=
  let s := State.reset
  (s.memOk = true ∧ s.hbm = [] ∧ s.pending = [] ∧ s.phase = .inReset ∧ ∀ n, s.dom n = if n = 28 then .on else .off) ∧
  (∀ (t : TileId) (m : MacroId) (a : AccSlot),
    s.regWord (.bankStatus t m) = 0 ∧ s.regWord (.slotStatus t a) = 0 ∧ s.regWord (.slotExponent t a) = 0 ∧
    s.regWord (.checkStatus t) = 0 ∧ s.regWord (.seqStatus t) = 0 ∧ s.regWord (.numericStatus t) = 0xFFFF ∧
    (∀ i, s.regWord (.addressReg t i) = 0) ∧ s.regWord (.verifyResult t) = 0 ∧ s.regWord (.weightParity t) = 0 ∧
    (∀ e b, s.regWord (.creditEntry t e b) = 0) ∧ s.regWord (.creditStatus t) = 0 ∧ s.regWord (.tidewalkStatus t) = 0) ∧
  (∀ (p : PartId) (o : PortId) (k : CtrlId) (g : GroupId),
    s.regWord (.portStatus o) = 0x00F00000 ∧ s.regWord (.portMeasure o) = 0 ∧ s.regWord (.hbmStatus k) = 0 ∧
    s.regWord (.hbmAddress k) = 0 ∧ s.regWord (.groupStatus g) = 0 ∧ s.regWord (.groupFrame g) = 0 ∧
    s.regWord (.partStatus p) = 0 ∧ s.regWord (.partClock p) = 0x00101000 ∧ s.regWord (.partFault p) = 0 ∧
    s.regWord (.partPower p) = 0 ∧ (s.part p).statusRec = 0xFFFFFFFF ∧ s.regWord (.strandStatus p) = 0) ∧
  s.regWord .alertStatus = 0 ∧ s.regWord .slackStatus = 0 ∧ s.regWord .rootClock = 0 ∧ s.regWord .powerStatus = 0

/-- R136 to R159: the decoder reads back every micro-op that the encoder writes, with every operand at every value of its
field; a word that decodes is the word of what it decodes to, so no bit of it is dropped; and a word that no check on
its own fields refuses decodes. -/
def Obligations.DecodeUndoesEncode : Prop :=
  (∀ (i : Instr) (w : BitVec 128), encode i = some w → (∀ t id f e, e ≠ [] → i ≠ .outpPass t id f e) →
    ∃ t, decodeUop t w = some i) ∧
  (∀ (t : TileId) (w : BitVec 128) (i : Instr), decodeUop t w = some i → encode i = some w) ∧
  (∀ (t : TileId) (w : BitVec 128) (points : Nat), uopRefused points w = false → ∃ i, decodeUop t w = some i)

/-- R136, R140, R142, R143, R144, R150, R153 to R156, R158, R159: words written out from the encoding tables decode to the
micro-ops they stand for, and an opcode, a WMODE or an ACT that no row has decodes to none. -/
def Obligations.WrittenOutWordsDecode : Prop :=
  ∀ t : TileId,
    let id : Ids := { layer := 3, opid := 0x31 }
    decodeUop t 0x00030031000000000000000000000000 = some (.nop t id 0) ∧
    decodeUop t 0x00030031019000050000000000000000 = some (.loopBranch t id { n := 1, rsvd1 := 0, target := 5, rsvd0 := 0 }) ∧
    decodeUop t 0x00030031020000040000000000000000 = some (.waitcCount t id { count := 1, rsvd := 0 }) ∧
    decodeUop t 0x0003003108FFFF7F2000000000000000 = some (.macp t id
      { macros := 0xFFFF, half := 0, rgmask := 0xF, bm1 := 7, asgn := 0, mode := 0, grp := 2, sk := 0, partner := 0
        rsvd := 0 }) ∧
    decodeUop t 0x00030031100003FFCB00000000000000 = some (.ldw t id
      { macros := 3, src := 1, rgmask := 0xF, pm1 := 7, wsgn := 1, chkgen := 1, fin := 0, qsrc := 2, inc := 1, cnt := 2
        rsvd := 0 }) ∧
    decodeUop t 0x00030031118001000000000000000000 = some (.swap t id { macros := 0x8001, rsvd := 0 }) ∧
    decodeUop t 0x000300311800FF2A8800000000000000 = some (.aclr t id
      { macros := 0x00FF, slot := 1, amode := 1, obase := 2, ostep := 2, oper := 1, rsvd := 0 }) ∧
    decodeUop t 0x00030031280001D80000000000000000 = some (.outpLoad t id { macros := 1, qsrc := 5, inc := 1, rsvd := 0 }) ∧
    decodeUop t 0x0003003132AB001F4000000000000000 = some (.dmahToHbm t id
      { qhbm := 2, hinc := 1, qsp := 3, sinc := 0, l32m1 := 0x1F, cnt := 1, rsvd := 0 }) ∧
    decodeUop t 0x0003003138C058000000000000000000 = some (.rdvArriveWait t id { rid := 5, grant := 1, rsvd := 0 }) ∧
    decodeUop t 0x00030031391230000000000000000000 = some (.gate t id { start := 0x123, rsvd := 0 }) ∧
    decodeUop t 0x00030031409001000020000000000000 = some (.hint t id { level := 9, dist := 0x100, plen := 2, rsvd := 0 }) ∧
    decodeUop t 0x00030031030000000000000000000000 = none ∧ decodeUop t 0x00030031028000000000000000000000 = none ∧ decodeUop t 0x00030031380058000000000000000000 = none

/-- R124, R125, R159: NOP changes nothing but the place of the next issue, and WAITC in count mode delays that issue to
COUNT ac later.
R125, R127, R129, R158: what the four modes of LOOP write, and the index that follows.
R132, R155, R157, R159: WAITC in done mode goes on when its counter is low enough and waits with reason bank
otherwise; GATE waits with reason gate and fixes START; TWIN opens its window beside those that are still open.
R134: a wait that ends completes `waited` ac after it began, or at the later cycle that an event of the tile has
reached, and the following index issues in the next ac; the cluster counts the waited ac. A wait for a point that stays
within its budget (R176) lasts at least until the release latency is over (R174).
R156, R384: HINT gives the die's power control a phase that starts DIST ac from now and lasts PLEN × 64 ac of the
partition, whatever its divider becomes (R3); phases that are over are dropped, and a phase of LEVEL 8 or more that starts
less than 2 µs from now asserts the die's STEP at once.
It rests also on what the model chose or inferred: log entries 7, 174. -/
def Obligations.ControlMicroOpsAdvance : Prop :=
  (∀ (s₀ s : State) (t : TileId) (id : Ids), s = s₀.due t →
     (∀ r, s₀.issues t (.nop t id r) = true →
       exec (.nop t id r) s₀ = .next (s.issued t ((s.tile t).begun id).next)) ∧
     (∀ f, f.count ≠ 0 → s₀.issues t (.waitcCount t id f) = true →
       exec (.waitcCount t id f) s₀ = .next (s.issued t (((s.tile t).begun id).modSeq fun q =>
         { q with pc := q.pc + 1, ac := q.ac + f.count.toNat, ahead := f.count.toNat - 1 })))) ∧
  (∀ (s₀ s : State) (t : TileId) (id : Ids), s = s₀.due t →
     (∀ f, s₀.issues t (.loopSetn t id f) = true →
       exec (.loopSetn t id f) s₀ =
         .next (s.issued t { ((s.tile t).begun id).next with n := Store.set (s.tile t).n f.n.toNat f.value })) ∧
     (∀ f, s₀.issues t (.loopSetq t id f) = true →
       exec (.loopSetq t id f) s₀ =
         .next (s.issued t { ((s.tile t).begun id).next with q := Store.set (s.tile t).q f.q.toNat f.value })) ∧
     (∀ f, s₀.issues t (.loopBranch t id f) = true → Store.get 0 (s.tile t).n f.n.toNat = 0 →
       exec (.loopBranch t id f) s₀ = .next (s.issued t ((s.tile t).begun id).next)) ∧
     (∀ f, s₀.issues t (.loopBranch t id f) = true → Store.get 0 (s.tile t).n f.n.toNat ≠ 0 →
       exec (.loopBranch t id f) s₀ =
         .next (s.issued t { ((s.tile t).begun id).modSeq (fun q => { q with pc := f.target, ac := q.ac + 1 }) with
           n := Store.set (s.tile t).n f.n.toNat (Store.get 0 (s.tile t).n f.n.toNat - 1) })) ∧
     (∀ f, s₀.issues t (.loopJump t id f) = true →
       exec (.loopJump t id f) s₀ =
         .next (s.issued t (((s.tile t).begun id).modSeq fun q => { q with pc := f.target, ac := q.ac + 1 })))) ∧
  (∀ (s₀ s : State) (t : TileId) (id : Ids), s = s₀.due t →
     (∀ f, s₀.issues t (.waitcDone t id f) = true → ((s.tile t).counter f.cnt.toNat).open_ ≤ f.k.toNat →
       exec (.waitcDone t id f) s₀ = .next (s.issued t ((s.tile t).begun id).next)) ∧
     (∀ f, s₀.issues t (.waitcDone t id f) = true → f.k.toNat < ((s.tile t).counter f.cnt.toNat).open_ →
       exec (.waitcDone t id f) s₀ = .next (s.issued t (((s.tile t).begun id).modSeq fun q =>
         { q with st := .waiting, why := .bank, waitArg := f.cnt.setWidth 11, waitFrom := q.ac, overBudget := false
                  waitK := f.k }))) ∧
     (∀ f, s₀.issues t (.gate t id f) = true →
       exec (.gate t id f) s₀ = .next (s.issued t (((s.tile t).begun id).modSeq fun q =>
         { q with st := .waiting, why := .gate, waitArg := 0, waitFrom := q.ac, overBudget := false
                  start := f.start, done := false }))) ∧
     (∀ f, s₀.issues t (.twin t id f) = true → (s.tile t).twinMeets f.spbanks = [] →
       exec (.twin t id f) s₀ = .next (s.issued t { ((s.tile t).begun id).next with
         twin := ((s.tile t).twin.filter fun w => decide ((s.tile t).seq.ac < w.stopAt)) ++
           [{ macros := f.macros, spbanks := f.spbanks, stopAt := (s.tile t).seq.ac + f.wlen.toNat }] }))) ∧
  (∀ (s : State) (t : TileId) (waited : Nat),
     s.tileUp t = true → (s.tile t).seq.st = .waiting →
     let q := (s.tile t).seq
     let after (w : Nat) : Tile := { s.tile t with seq := { q with
       st := if (s.tile t).hasImage then .issuing else .idle, why := .none, waitArg := 0, overBudget := false
       waitUop := none, ac := max q.ac (q.waitFrom + w) + 1, pc := q.pc + 1 } }
     (q.why = .bank → ((s.tile t).counter q.waitArg.toNat).open_ ≤ q.waitK.toNat →
       exec (.waitcDoneRelease t waited) s =
         .next ((s.modTile t fun _ => after waited).count (clusterOf t) 12 waited)) ∧
     (∀ p, q.why = .rdv → s.tileOwner? t = some p → s.pointDone p q.waitArg.toNat = true →
       let n := max waited (s.latencyLeft p t q.waitArg.toNat)
       n ≤ s.budgetAc p q.waitArg.toNat →
       exec (.rdvWaitRelease t waited) s = .next ((s.modTile t fun _ => after n).count (clusterOf t) 12 n))) ∧
  (∀ (s₀ s : State) (t : TileId) (id : Ids) (f : HintF), s = s₀.due t → s₀.issues t (.hint t id f) = true →
     let d := dieOf t
     let first := s.tileAc t + f.dist.toNat
     let x : Phase := { part := s.tileOwner? t, first, last := first + f.plen.toNat * 64, level := f.level }
     let s1 := (s.modDie d fun y => { y with
       phases := (y.phases.filter fun z => decide (s.phaseClock d z < z.last)) ++ [x] }).issued t ((s.tile t).begun id).next
     exec (.hint t id f) s₀ = .next (if s.stepDue d x then { s1 with pins := s1.pins.setStep d true } else s1))

/-- R154, R174, R175, R246: an arrival is counted at its point, a grant entry is sent with it where GRANT asks, and the
arrival that completes LOCAL of a fabric-scope point leaves for the gate group; RDV in the third mode then waits.
R134, R154, R174, R180: a wait at a point whose counts are complete and whose release latency is over ends in its issue
cycle; at a point that is not complete the sequencer waits with reason RDV and the point's number.
R176: a wait beyond its BUDGET raises an event with LAYER and OPID of the RDV and the RID, adds 1 to the partition's
over-budget counts, and is no fault: the frame's mark stays as it is.
It rests also on what the model chose or inferred: log entries 142, 176, 179. -/
def Obligations.RendezvousCountsAndWaits : Prop :=
  (∀ (s₀ s : State) (t : TileId) (id : Ids) (f : RdvF) (p : PartId) (e : BitVec 128), s = s₀.due t →
     s.tileOwner? t = some p → (s.pointTable p)[f.rid.toNat]? = some e →
     ((s.part p).point f.rid.toNat).locals < hf e 113 104 →
     let x := (s.part p).point f.rid.toNat
     let g : GroupId := (BitVec.ofNat 6 (hf e 95 88)).toFin
     let s1 := (s.modPart p fun pt => pt.modPoint f.rid.toNat fun x =>
       { x.until_ (fun d => s.timeOn p t d + pt.scopeTime (hf e 127 126)) with
         locals := x.locals + 1, reached := x.reached || decide (hf e 113 104 ≤ x.locals + 1) }).issued t ((s.tile t).begun id)
     let s2 := if f.grant = 1 then s1.each (List.range (hf e 87 80)) fun s i => s.sendGrant p (hf e 79 64 + i) else s1
     let s3 := if x.locals + 1 = hf e 113 104 ∧ hf e 127 126 = 3 then
         s2.send (.group g) (.arrival { frame := (s2.part p).frame, rid := BitVec.ofNat 10 f.rid.toNat, group := g })
       else s2
     (s₀.issues t (.rdvArrive t id f) = true → exec (.rdvArrive t id f) s₀ = .next (s3.retire t)) ∧
     (s₀.issues t (.rdvArriveWait t id f) = true → exec (.rdvArriveWait t id f) s₀ = .next (s3.rdvWaitAt t f.rid))) ∧
  (∀ (s₀ s : State) (t : TileId) (id : Ids) (f : RdvF) (p : PartId), s = s₀.due t →
     s₀.issues t (.rdvWait t id f) = true → s.tileOwner? t = some p →
     (s.pointDone p f.rid.toNat = true → ((s.part p).point f.rid.toNat).cancelled = false →
       ((s.part p).point f.rid.toNat).doneOn (dieOf t) ≤ s.tileTime p t →
       exec (.rdvWait t id f) s₀ = .next (s.issued t ((s.tile t).begun id).next)) ∧
     (s.pointDone p f.rid.toNat = false →
       exec (.rdvWait t id f) s₀ = .next (s.issued t (((s.tile t).begun id).modSeq fun q =>
         { q with st := .waiting, why := .rdv, waitArg := f.rid.setWidth 11, waitFrom := q.ac, overBudget := false })))) ∧
  (∀ (s : State) (t : TileId) (p : PartId) (waited : Nat), s.tileOwner? t = some p → (s.tile t).seq.st = .waiting →
     (s.tile t).seq.why = .rdv → (s.tile t).seq.overBudget = false →
     s.budgetAc p (s.tile t).seq.waitArg.toNat < waited →
     ∃ s', exec (.rdvOverBudget ⟨t, waited⟩) s = .next s' ∧
       s'.events = s.events ++ [{ code := 0x000B, cls := clsNone, src := s.srcTile t 16, ts := s.now
                                  layer := (s.tile t).seq.layer, opid := (s.tile t).seq.opid
                                  frame := (s.part p).frame, part := some p
                                  detail := leBytes 2 (s.tile t).seq.waitArg.toNat }] ∧
       (s'.part p).overBudgetCount = (s.part p).overBudgetCount + 1 ∧
       (s'.part p).run = { (s.part p).run with overBudget := (s.part p).run.overBudget + 1 } ∧
       (s'.tile t).seq = { (s.tile t).seq with overBudget := true } ∧
       ∀ x, x ≠ t → s'.tile x = s.tile x)

/-- R155, R178: a quiet tile with every slot FREE reports done, and its partition's frame notes it; what was due at the
tile by then has come about.
R131, R167: at a cluster's first issue every tile of it that has an image, is up and waits at the gate starts to
issue; nothing else changes.
R131, R133, R166, R182, R465: at a partition's start cycle each of its tiles with an image has its registers loaded, its
counters and words cleared and its first index set; its frame is in progress from T_s; no other tile changes. DMA accesses
that wait at a tile are served then (R236, R242).
R45, R168: the soft start of a tile ends 64 ac after its first issue.
It rests also on what the model chose or inferred: log entries 121, 166. -/
def Obligations.FrameOfTileStartsAndEnds : Prop :=
  (∀ (s : State) (t : TileId) (waited : Nat) (p : PartId), s.tileUp t = true → (s.tile t).seq.st = .waiting →
     (s.tile t).seq.why = .gate → (s.tile t).seq.done = false → s.tileOwner? t = some p →
     let s1 := (s.modTile t fun tl => tl.modSeq fun q => { q with ac := max q.ac (q.waitFrom + waited) }).due t
     let tl := (s1.tile t).settle
     (s1.part p).run.active = true → tl.quiet = true → (∀ a < 8, (tl.slot a).st = .free) →
     exec (.tileDoneReport t waited) s =
       .next (((s1.modTile t fun _ => tl.landAll.modSeq fun q => { q with done := true }).count (clusterOf t) 12 waited).modPart p
         fun pt => { pt with run := { pt.run with
           tilesDone := if pt.run.tilesDone.contains t.val then pt.run.tilesDone else pt.run.tilesDone ++ [t.val]
           lastDone := s.now } })) ∧
  (∀ (s : State) (c : ClusterId) (p : PartId), s.owner? c = some p → (s.part p).run.active = true →
     (s.part p).run.stopped = false →
     ∃ s', exec (.tileFirstIssue c) s = .next s' ∧ { s' with tiles := s.tiles } = s ∧
       ∀ t, s'.tile t =
         if clusterOf t = c ∧ (s.tile t).hasImage = true ∧ s.tileUp t = true ∧ (s.tile t).seq.st = .waiting ∧
             (s.tile t).seq.why = .gate ∧ (s.tile t).seq.started = false then
           { s.tile t with seq := { (s.tile t).seq with st := .issuing, why := .none, started := true } }
         else s.tile t) ∧
  (∀ (s : State) (p : PartId), s.live = true → (s.part p).armed = true → (s.part p).slackStopped = false →
     ∃ s', exec (.frameStart p) s = .next s' ∧
       (∀ t, t ∈ s.imageTiles p → (s.tile t).held = [] → s'.tile t = (s.tile t).atGate (s.part p).fromZero ∧ (s'.tile t).q = (s.tile t).qInit ∧
         (s'.tile t).n = (s.tile t).nInit ∧ (s'.tile t).ctr = [] ∧ (s'.tile t).seq.layer = 0 ∧ (s'.tile t).seq.opid = 0 ∧
         (s'.tile t).seq.cycle = 0 ∧
         (s'.tile t).seq.pc = if (s.part p).fromZero then 0 else (s.tile t).seq.start) ∧
       (∀ t, t ∉ s.imageTiles p → s'.tile t = s.tile t) ∧
       (s'.part p).run.active = true ∧ (s'.part p).run.ts = (s.part p).startAt ∧ (s'.part p).st = .running ∧
       (s'.part p).armed = false ∧ (s'.part p).frame = (s.part p).frame ∧
       (∀ c, (s.clusterMask p).getLsbD c.val = true → ∀ w, w < 15 → Store.get 0 (s'.cluster c).counters w = 0) ∧
       ((∀ t, t ∈ s.imageTiles p → (s.tile t).held = []) → s'.hbm = s.hbm ∧ (∀ x, x ≠ p → s'.part x = s.part x))) ∧
  (∀ (s : State) (t : TileId), s.tileUp t = true → (s.tile t).seq.soft = true →
     exec (.softStartEnd t) s = .next (s.modTile t fun tl => tl.modSeq fun q =>
       { q with ac := max q.ac (64 - q.frozen), soft := false }))

/-- R126, R135, R138, R172: a micro-op word that fails its parity freezes the tile for 12 ac and is counted; a good replay
is class replayed and the sequencer goes on as it stood; a first failed replay is repeated; a second one aborts the frame,
stops the tile and has its pages reloaded. A scratchpad word that an operand read found bad does the same with the tags of
the micro-op that read it, waiting or issuing, and has no page reloaded.
It rests also on what the model chose or inferred: log entries 137, 165. -/
def Obligations.FetchParityReplays : Prop :=
  ∀ (s : State) (t : TileId),
    let q := (s.tile t).seq
    let again (q : Seq) (n : Nat) : State := ((s.modTile t fun tl => { tl with seq := { q with
      frozen := q.frozen + 12, st := .frozen, parTries := n, parity := satAdd q.parity 1 } }).raise 0x0004 clsNone
        (s.srcTile t 16) q.parIds (s.tileOwner? t) []).count (clusterOf t) 11 12
    let stops : State := (s.modTile t fun tl => { tl with seq := { q with st := .stopped, parTries := 0 } }).abortTile t
      0x0004 3 16 q.parIds []
    (s.tileUp t = true → q.st = .issuing → exec (.fetchParityReplay ⟨t, none⟩) s =
      .next (again { q with parWord := none, parIds := (s.tile t).nextIds, parBack := .issuing } 1)) ∧
    (∀ w ids, s.tileUp t = true → q.st ≠ .frozen → (s.tile t).reader? w = some ids →
      exec (.fetchParityReplay ⟨t, some w⟩) s =
        .next (again { q with parWord := some w, parIds := ids, parBack := q.st } 1)) ∧
    (q.st = .frozen → q.parTries ≠ 0 →
      exec (.parityReplayEnd t true) s = .next ((s.modTile t fun tl => { tl with seq := { q with
        st := q.parBack, parTries := 0 } }).raise 0x0004 clsReplayed (s.srcTile t 16) q.parIds (s.tileOwner? t) [])) ∧
    (q.st = .frozen → q.parTries = 1 → exec (.parityReplayEnd t false) s = .next (again q 2)) ∧
    (∀ p, q.st = .frozen → q.parTries = 2 → s.tileOwner? t = some p →
      exec (.parityReplayEnd t false) s = .next (match q.parWord with
        | some _ => stops
        | none => stops.modPart p fun pt => { pt with
            pageReload := if pt.pageReload.contains t.val then pt.pageReload else pt.pageReload ++ [t.val] }))

/-- R52, R64, R140, R141: MACP on macros that meet no conflict starts one pass on all of them, which presents B·g + 3 ac
later and holds their arrays for B·g ac; the slice conditions must hold where SK asks for slices.
It rests also on what the model chose or inferred: log entries 25, 180. -/
def Obligations.MacpStartsPassOnEveryNamedMacro : Prop :=
  ∀ (s₀ s : State) (t : TileId) (id : Ids) (f : MacpF), s = s₀.due t → s₀.issues t (.macp t id f) = true → f.macros ≠ 0 →
    let tl := (s.tile t).begun id
    let macs := onesOf f.macros
    (∀ m ∈ macs, passOk tl f.rgmask m = true) → (∀ m ∈ macs, (tl.mac m).fill f.half = none) →
    (f.sk = 0 ∨ sliceOk tl macs f.sk.toNat f.partner.toNat = true) →
    let busy := (f.bm1.toNat + 1) * gOf (s.passClass t) (popcount f.rgmask)
    let pass : Pass :=
      { issue := tl.seq.ac, due := tl.seq.ac + busy + 3, busy, macros := macs.map fun m => (m, (tl.mac m).activePhys)
        half := f.half, rgmask := f.rgmask, bm1 := f.bm1, asgn := f.asgn, bfp := f.mode = 1, s := Machine.sizeOf f.grp
        sk := f.sk, partner := f.partner.toNat, ids := id }
    exec (.macp t id f) s₀ = .next (((s.issued t
      { ((tl.modMacs macs fun _ mc => { mc with lastS := some (Machine.sizeOf f.grp) }).modMacs macs fun _ mc =>
          mc.holdPass tl.seq.ac busy f.half).next with passes := tl.passes ++ [pass] }).count (clusterOf t) 0
            macs.length).count (clusterOf t) 1 (macs.length * busy))

/-- R52, R110, R111, R114, R117: a pass whose checks agree presents its partials in its cycle; one with a mismatch presents
nothing, freezes the tile for B·g + 4 ac, and waits for the replay of the macros concerned, with a slice pair's partner.
R114, R116, R117: of a pass that one mismatch dropped, a replay that agrees is class replayed, counts in REPLAY_OK and
presents in the place of the dropped partials; a second mismatch, with no slices, aborts the frame with cause 0x2, stands
in LAST_KIND and LAST_MACRO, and schedules the repair of the macro.
R79, R81, R89 to R96: the oldest group sum on its way into a slot lands in the cycle after its due cycle: each of its
elements enters its entry, and nothing else of the block changes.
It rests also on what the model chose or inferred: log entries 27, 165, 181, 182, 204, 206, 207. -/
def Obligations.PassesPresentReplayAndLand : Prop :=
  (∀ (s : State) (t : TileId) (p : Pass) (ups : List Upset), s.tileUp t = true → (s.tile t).frozenNow = false →
     (s.tile t).seq.st ≠ .frozen → (s.tile t).passes = [p] →
     let tl := ({ (s.tile t).modSeq (·.reach p.due) with passes := [] } : Tile).settle
     let ev := evalPass tl p ups
     let again := dropSet tl p (ev.2.map fun x => x.1)
     (ev.2 = [] → exec (.passPresentation t ups) s =
       .next ((s.modTile t fun _ => tl).present t p.ids p.due p.issue p.s p.bfp ev.1)) ∧
     (ev.2 ≠ [] → ∃ s', exec (.passPresentation t ups) s = .next s' ∧
       (s'.tile t).replay = [{ pass := p, again, miss := ev.2, good := ev.1.filter fun m => !again.contains m.mac }] ∧
       (s'.tile t).passes = [] ∧ (s'.tile t).seq.frozen = (s.tile t).seq.frozen + (p.busy + 4) ∧
       (s'.tile t).landings = (s.tile t).landings ∧ ∀ x, x ≠ t → s'.tile x = s.tile x)) ∧
  (∀ (s : State) (t : TileId) (r : Replay) (m : Nat) (k : Bool) (ups : List Upset) (p : PartId),
     (s.tile t).replay = [r] → r.miss = [(m, k)] → s.tileOwner? t = some p →
     let tl := { s.tile t with replay := [] }
     let ev := evalPass tl r.pass (ups.filter fun u => r.again.contains u.mac.val)
     let still := ev.2.filter fun x => r.again.contains x.1
     let all := r.pass.macros.filterMap fun x =>
       (r.good ++ ev.1.filter fun y => r.again.contains y.mac).find? fun y => decide (y.mac = x.1)
     let shown (s : State) : State := s.present t r.pass.ids r.pass.due r.pass.issue r.pass.s r.pass.bfp all
     let found (cls : BitVec 3) (ck : CheckSt) : State := (s.modTile t fun _ => { tl with check := ck }).raise 0x0002 cls
       (s.srcTile t m) r.pass.ids (some p) [BitVec.ofNat 8 m, BitVec.ofNat 8 (b2n k)]
     (still = [] → exec (.replayPresentation t ups) s =
       .next (shown (found clsReplayed { tl.check with replayOk := satAdd tl.check.replayOk 1 }))) ∧
     (still = [(m, k)] → r.pass.sk = 0 → exec (.replayPresentation t ups) s =
       .next (shown ((((found clsNone { tl.check with lastKind := k, lastMacro := BitVec.ofNat 4 m }).modTile t fun tl =>
         { tl with check := { tl.check with replayFail := satAdd tl.check.replayFail 1 }
                   repair := { tl.repair with chkEvents := satAdd tl.repair.chkEvents 1 } }).abortTile t 0x0003 2 m
             r.pass.ids [BitVec.ofNat 8 m]).modPart p fun pt => { pt with
               repairs := RepairDue.into pt.repairs { key := 16 * t.val + m, why := .checksum } })))) ∧
  (∀ (s : State) (t : TileId) (a : AccSlot) (l : Landing), s.tileUp t = true → (s.tile t).frozenNow = false →
     (s.tile t).seq.st ≠ .frozen → ((s.tile t).landings.find? fun l => decide (l.slot = a.val)) = some l →
     exec (.groupSumLanding t a) s = .next (s.modTile t fun tl => (l.parts.flatMap fun x => x.elems).foldl
       (fun tl e => tl.addElem a.val e.out e.val e.exp true)
       { tl.modSeq (fun q => { q with ac := max q.ac (l.due + 1) }) with landings := tl.landings.erase l }))

/-- R89: the container's value after a preload and any elements is their true sum, in whatever order and whatever wrapped
on the way, as soon as that sum fits 64 bits; no flag marks a wrap. -/
def Obligations.IntegerSumIsExactInAnyOrder : Prop :=
  ∀ (pre : Entry) (l : List Int), -(2 ^ 63) ≤ pre.a.toInt + l.sum → pre.a.toInt + l.sum ≤ 2 ^ 63 - 1 →
    (l.foldl Entry.addInt pre).a.toInt = pre.a.toInt + l.sum ∧ (l.foldl Entry.addInt pre).ovf = pre.ovf ∧
    ∀ l' : List Int, l'.Perm l → (l'.foldl Entry.addInt pre).a = (l.foldl Entry.addInt pre).a

/-- R72: a group partial with exponent 0xFF adds nothing to any accumulation and sets NONFIN on the entry it reaches; a
preload block with that exponent holds no finite value. -/
def Obligations.ExponentFFMarksNonFinite : Prop :=
  (∀ (en : Entry) (v : Int), en.addRunning v 255 = { en with nonfin := true }) ∧
  (∀ (en lo : Entry) (m : Option Nat) (v : Int), addFixed en lo m v 255 = ({ en with nonfin := true }, lo, false)) ∧
  (∀ (tl : Tile) (a i : Nat), (Mem.read tl.sp (a + 260 * (i / 64 / 4) + 256 + i / 64 % 4)).toNat = 255 →
    preElem tl 6 a i = .bad)

/-- R95: with every exponent at most the prescanned one, the 128-bit sum is that of the elements, each rounded once on its
own, whatever their order, and EXPMISS stays clear. -/
def Obligations.FixedAlignmentDoesNotDependOnOrder : Prop :=
  ∀ (m : Nat) (l : List (Int × Nat)), m ≤ 254 → (∀ x ∈ l, x.2 ≤ m) →
    let add (y : Entry × Entry × Bool) (x : Int × Nat) : Entry × Entry × Bool :=
      let r := addFixed y.1 y.2.1 (some m) x.1 x.2
      (r.1, r.2.1, y.2.2 || r.2.2)
    let r := l.foldl add ({}, {}, false)
    r.1.a ++ r.2.1.a = BitVec.ofInt 128 ((l.map fun x => rneDiv (x.1 * 2 ^ 64) (2 ^ (m - x.2))).sum) ∧ r.2.2 = false

/-- R90, R93: an aligned running sum stays within 64 bits by saturation, and OVF is set exactly when it had to. -/
def Obligations.RunningAlignmentSaturates : Prop :=
  ∀ (en : Entry) (v e : Int), e ≠ 255 → v ≠ 0 → en.used = true →
    let x := en.x.toInt
    let a := if x < e then rneDiv en.a.toInt (2 ^ (e - x).toNat) else en.a.toInt
    let r := a + rneDiv (v * 2 ^ 24) (2 ^ (max x e - e).toNat)
    ((en.addRunning v e).ovf = true ↔ en.ovf = true ∨ r < -(2 ^ 63) ∨ 2 ^ 63 - 1 < r) ∧
    (-(2 ^ 63) ≤ r → r ≤ 2 ^ 63 - 1 → (en.addRunning v e).a.toInt = r) ∧
    (r < -(2 ^ 63) → (en.addRunning v e).a.toInt = -(2 ^ 63)) ∧
    (2 ^ 63 - 1 < r → (en.addRunning v e).a.toInt = 2 ^ 63 - 1)

/-- R85: in INT mode a preload sets A to the element times 2^PSH, rounded, saturated with OVF; a value that is not finite
sets A to 0 and NONFIN.
R85: the rounding of the chapter is to the nearest integer, and to the even one of two that are equally near. -/
def Obligations.IntegerPreloadRoundsToNearestEven : Prop :=
  (∀ (tl : Tile) (a o fmt : Nat) (psh : Int) (src : Nat), (tl.slot a).mode = 0 →
     let en := Store.get {} ((tl.preload a o fmt psh src).slot a).entries o
     (∀ m e, preElem tl fmt src o = .fin m e →
       let r := rneScale m (e + psh)
       en.nonfin = false ∧ (en.ovf = true ↔ r < -(2 ^ 63) ∨ 2 ^ 63 - 1 < r) ∧
       en.a.toInt = if r < -(2 ^ 63) then -(2 ^ 63) else if 2 ^ 63 - 1 < r then 2 ^ 63 - 1 else r) ∧
     (preElem tl fmt src o = .bad → en.a = 0 ∧ en.nonfin = true)) ∧
  (∀ (a : Int) (b : Nat), 0 < b →
     2 * (a - rneDiv a b * b).natAbs ≤ b ∧ (2 * (a - rneDiv a b * b).natAbs = b → rneDiv a b % 2 = 0))

/-- R42, R49, R51, R110, R111: on banks whose rows carry the checksum byte of their weights, an integer or BFP pass that no
upset meets passes its residue check, whatever its activations, its mask and its steering. -/
def Obligations.SoundPassPassesResidueCheck : Prop :=
  ∀ (tl : Tile) (p : Pass) (m : Nat) (phys : BitVec 1),
    let b := (tl.mac m).bank phys
    (∀ c ∈ b.cells, rowCheck (steeredRow b.steer c.2) = rowSum (rowData (steeredRow b.steer c.2)) (b.pm1.toNat + 1)
      (b.wsgn = 1)) →
    residueBad tl p [] m phys (presentMac tl p [] m phys).elems = false

/-- R38, R39, R40: what the write port puts into a row reads back as the same data and checksum byte, with even parity in
every word, whatever steering word the bank has. -/
def Obligations.StoredRowReadsBack : Prop :=
  ∀ (steer : BitVec 32) (data chk : Nat), data < 2 ^ 128 → chk < 256 →
    let r := steeredRow steer (rowCells steer data chk)
    rowData r = data ∧ rowCheck r = chk ∧ rowParityBad r = []

/-- R61, R105, R143: SWAP exchanges the banks and the outlier sets of the macros it names, and an outlier set whose LAYER
is not the bank's becomes not valid; MACROS is in bits [87:72], and 0 there, or a set reserved bit, is refused. -/
def Obligations.SwapExchangesBanks : Prop :=
  (∀ (s₀ s : State) (t : TileId) (id : Ids) (f : SwapF), s = s₀.due t → s₀.issues t (.swap t id f) = true →
    let tl := (s.tile t).begun id
    (∀ m ∈ onesOf f.macros, swapBlocked tl m = false) →
    ∃ s', exec (.swap t id f) s₀ = .next s' ∧ OnlyTile t s s' ∧
      (s'.tile t) = { tl.next with macros := (s'.tile t).macros } ∧
      (∀ m ∈ onesOf f.macros, let a := tl.mac m; let b := (s'.tile t).mac m
        b.active = a.shadow ∧ b.shadow = a.active ∧ b.activePhys = ~~~a.activePhys ∧
        b.outSet b.activePhys = { a.outSet a.shadowPhys with
          valid := (a.outSet a.shadowPhys).valid && (a.outSet a.shadowPhys).layer == a.shadow.layer } ∧
        b.outSet b.shadowPhys = a.outSet a.activePhys) ∧
      (∀ m, m ∉ onesOf f.macros → (s'.tile t).mac m = tl.mac m)) ∧
  (∀ (id : Ids) (f : SwapF) (t : TileId) (n : Nat), (f.macros = 0 ∨ f.rsvd ≠ 0) →
    ∃ w, encode (.swap t id f) = some w ∧ uopRefused n w = true ∧ w.extractLsb' 72 16 = f.macros)

/-- R142, R206, R208, R211: LDW from scratchpad reads one record per row and macro, in ascending macros within ascending
rows, and writes the rows through the port into the shadow banks, which take its P, WSGN and LAYER.
R60, R64, R130, R142, R212: LDW from HBM counts in ISSUED and occupies the macros that have no other LDW from HBM until
its end; the end counts in DONE and writes the rows, in ascending macros, of every macro that a conflict does not stop; a
load that the frame boundary dropped writes none.
It rests also on what the model chose or inferred: log entries 9, 133, 183. -/
def Obligations.LdwLoadsShadowBanks : Prop :=
  ((∀ (s₀ s : State) (t : TileId) (id : Ids) (f : LdwF) (a : Nat), s = s₀.due t → s₀.issues t (.ldw t id f) = true →
     s.calm t = true → f.src = 0 →
     let macs := onesOf f.macros
     let sz := recSize (f.chkgen = 1)
     let n := (rowsOf f.rgmask).length * macs.length * sz
     let us : List PathUse :=
       [{ form := 0, write := false, start := (s.tile t).seq.ac, addr := a, step := macs.length * sz, len := n }]
     s.spOp? t f.qsrc.toNat n false = some a → (s.tile t).accessOk us = true →
     exec (.ldw t id f) s₀ = .next ((((s.issued t (s.opened t id us { macs, unit := 16 })).ldwScratch t id f a).modTile t
       fun tl => tl.incQ [(f.qsrc, f.inc)]).retire t)) ∧
   (∀ (mc : Macro) (rgmask : BitVec 4) (pm1 : BitVec 3) (wsgn : BitVec 1) (layer : BitVec 16) (chkgen : Bool)
     (rec_ : Nat → List Byte),
     let b := (mc.loadRows rgmask pm1 wsgn layer chkgen fun r => some (rec_ r)).1.shadow
     b.st = .loading ∧ b.layer = layer ∧ (mc.shadow.st ≠ .loading → b.pm1 = pm1 ∧ b.wsgn = wsgn) ∧
     (b.pm1 = pm1 → b.wsgn = wsgn → ∀ r ∈ rowsOf rgmask,
       Store.get 0 b.cells r = (portRow mc.shadow.steer pm1 wsgn chkgen (rec_ r)).1))) ∧
  ((∀ (s₀ s : State) (t : TileId) (id : Ids) (f : LdwF) (a : Nat), s = s₀.due t → s₀.issues t (.ldw t id f) = true →
     s.calm t = true → f.src = 1 →
     s.hbmOp? t f.qsrc.toNat ((rowsOf f.rgmask).length * (onesOf f.macros).length * recSize (f.chkgen = 1)) false =
       some a →
     exec (.ldw t id f) s₀ = .next ((((s.issued t (s.opened t id [] { macs := onesOf f.macros, unit := 16 })).ldwHbm t id f a).modTile t
       fun tl => tl.incQ [(f.qsrc, f.inc)]).retire t)) ∧
   (∀ (s : State) (t : TileId) (p : PartId) (o : AsyncOp) (cnt : Fin 4) (macros live : BitVec 16) (rgmask : BitVec 4)
     (pm1 : BitVec 3) (wsgn chkgen fin : BitVec 1) (a : Nat), (s.tile t).ops = [o] → s.tileOwner? t = some p →
     o.cnt = cnt.val → o.xfer = .ldw macros live rgmask pm1 wsgn chkgen fin a →
     let s1 := (s.modTile t fun tl =>
       (({ tl.modSeq (fun q => { q with ac := max q.ac o.due }) with ops := [] } : Tile).countDone o).modMacs (onesOf live)
         fun _ mc => { mc with ldwHbm := false }).count (clusterOf t) 6
           ((rowsOf rgmask).length * (onesOf macros).length * recSize (chkgen = 1))
     let first := max o.due (s1.liveAc t) + 1 - (rowsOf rgmask).length
     (o.dropped = true → exec (.ldwHbmDone t cnt) s = .next s1) ∧
     (o.dropped = false → (∀ m ∈ onesOf live, ((s1.tile t).mac m).portUntil ≤ first ∧
         rowsInvalidate (s1.tile t) pm1 wsgn first m = false) →
       exec (.ldwHbmDone t cnt) s = .next (s1.each ((onesOf macros).zipIdx.filter fun x => (onesOf live).contains x.1)
         fun s x => s.ldwArrive t p o.ids (onesOf macros).length rgmask pm1 wsgn chkgen fin a x))))

/-- R80, R81, R144: ACLR takes a FREE or OPEN slot to OPEN with empty entries, clear flags and no groups, and maps the named
macros to it.
R85, R144: APRE opens its slot as ACLR does and loads the entries from scratchpad.
R82, R94, R147: PRESCAN on a FREE slot records the largest exponent of the blocks that have a non-zero mantissa. -/
def Obligations.SlotsOpenPreloadAndPrescan : Prop :=
  (∀ (s₀ s : State) (t : TileId) (id : Ids) (f : AclrF), s = s₀.due t → s₀.issues t (.aclr t id f) = true →
     let tl := (s.tile t).begun id
     tl.mayOpen f.slot.toNat f.amode = true →
     exec (.aclr t id f) s₀ = .next (s.issued t ((tl.openSlot f.slot.toNat f.amode (tl.seq.ac + 1)).mapMacros f.macros
       f.slot f.obase f.ostep f.oper).next) ∧
     let sl := ((tl.openSlot f.slot.toNat f.amode (tl.seq.ac + 1)).slot f.slot.toNat)
     sl.st = .opened ∧ sl.mode = f.amode ∧ sl.entries = [] ∧ sl.groups = 0 ∧ sl.bound = false ∧ sl.expmiss = false ∧
       sl.ovf = false ∧ sl.nonfin = false ∧ sl.conflict = (tl.slot f.slot.toNat).conflict) ∧
  (∀ (s₀ s : State) (t : TileId) (id : Ids) (f : ApreF) (a : Nat), s = s₀.due t → s₀.issues t (.apre t id f) = true → s.calm t = true →
     let n := f.nm1.toNat + 1
     let us := [preloadUse (s.tile t).seq.ac f.fmt.toNat n a]
     s.spOp? t f.qsrc.toNat (fmtSpan f.fmt.toNat n) false = some a → (s.tile t).accessOk us = true →
     (s.tile t).settle.mayOpen f.slot.toNat f.amode = true → (s.tile t).settle.rawModes f a n = true →
     let tl := s.opened t id us { slots := [f.slot.toNat], unit := 17 }
     exec (.apre t id f) s₀ = .next ((s.issued t (((((tl.openSlot f.slot.toNat f.amode
       (tl.seq.ac + ceilDiv n 16 + 1)).mapMacros f.macros f.slot f.obase f.ostep f.oper).preloadAll f a n).busyTo
         (tl.seq.ac + ceilDiv n 16)).incQ [(f.qsrc, f.inc)]).next).count (clusterOf t) 3 (fmtSpan f.fmt.toNat n))) ∧
  (∀ (s₀ s : State) (t : TileId) (id : Ids) (f : PrescanF) (a : Nat), s = s₀.due t → s₀.issues t (.prescan t id f) = true → s.calm t = true →
     let n := f.nbm1.toNat + 1
     let us : List PathUse := [{ form := 1, write := false, start := (s.tile t).seq.ac, addr := a, step := 64, len := n }]
     s.spOp? t f.qsrc.toNat (260 * ceilDiv n 4) false = some a → (s.tile t).accessOk us = true →
     ((s.tile t).settle.slot f.slot.toNat).st = .free → ((s.tile t).settle.slot f.slot.toNat).busyUntil ≤ (s.tile t).seq.ac →
     (s.tile t).absorbing f.slot.toNat = false →
     let tl := s.opened t id us { slots := [f.slot.toNat], unit := 17 }
     let e := prescanMax (s.tile t) a n
     exec (.prescan t id f) s₀ = .next ((s.issued t ((((tl.modSlot f.slot.toNat fun sl => { sl with
       emaxValid := e.isSome, emax := BitVec.ofNat 8 (e.getD 0), prescanned := true
       busyUntil := tl.seq.ac + n + 2 }).busyTo (tl.seq.ac + n + 1)).incQ [(f.qsrc, f.inc)]).next)).count
         (clusterOf t) 3 (65 * n)))

/-- R145: the map byte of a named macro m receives OFS = OBASE + step × (m mod 2^OPER), the others stay; an OFS above 7 is
refused; the bound of R76 is checked when partials are presented. -/
def Obligations.MapBytesTakeOffsets : Prop :=
  (∀ (tl : Tile) (macros : BitVec 16) (slot obase : BitVec 3) (ostep : BitVec 2) (oper : BitVec 3) (m : Nat),
    (tl.mapMacros macros slot obase ostep oper).mapOf m =
      if m ∈ onesOf macros then
        { en := true, slot, ofs := BitVec.ofNat 3 (obase.toNat +
          (match ostep.toNat with | 0 => 0 | 1 => 1 | 2 => 2 | _ => 4) * (m % 2 ^ oper.toNat)) }
      else tl.mapOf m) ∧
  (∀ (id : Ids) (t : TileId) (f : AclrF) (g : ApreF) (n m : Nat), g.macros = f.macros → g.slot = f.slot →
    g.obase = f.obase → g.ostep = f.ostep → g.oper = f.oper → m ∈ onesOf f.macros →
    7 < f.obase.toNat + (match f.ostep.toNat with | 0 => 0 | 1 => 1 | 2 => 2 | _ => 4) * (m % 2 ^ f.oper.toNat) →
    (∃ w, encode (.aclr t id f) = some w ∧ uopRefused n w = true) ∧
    (∃ w, encode (.apre t id g) = some w ∧ uopRefused n w = true)) ∧
  (∀ (tl : Tile) (x : MacPres) (issue due : Nat) (bfp : Bool), (tl.mapOf x.mac).en = true →
    128 < 16 * (tl.mapOf x.mac).ofs.toNat + x.nout →
    tl.routeOf x bfp issue due = .conflict (tl.mapOf x.mac).slot.toNat)

/-- R80, R87, R88, R97 to R102, R146: ADRN on an OPEN slot through a loaded set drains it through the PPU, or as RAW records,
and a slot drained through a set that is not loaded delivers nothing, is freed, and is a schedule conflict.
R88: what a drain hands on for an entry is A in INT mode, A × 2^(X − 157) in running and A × 2^(X − 197) in fixed
alignment, and an empty entry is 0.
It rests also on what the model chose or inferred: log entries 9, 22, 24, 25, 177, 208. -/
def Obligations.AdrnDrainsAndDelivers : Prop :=
  (∀ (s₀ s : State) (t : TileId) (id : Ids) (f : AdrnF), s = s₀.due t → s₀.issues t (.adrn t id f) = true →
     let n := f.nm1.toNat + 1
     let tl := (s.tile t).settle
     let ps := tl.pset f.pset.toNat
     (tl.slot f.slot.toNat).st = .opened → tl.absorbing f.slot.toNat = false →
     (ps.loaded = false → exec (.adrn t id f) s₀ = .next (((s.issued t ((((s.tile t).begun id).startDrain f.slot.toNat
       n).incQ [(f.qdst, f.inc)])).conflict t id [] [f.slot.toNat] 17).retire t)) ∧
     (∀ d, ps.loaded = true → s.calm t = true → ps.readyAt ≤ (s.tile t).seq.ac →
       s.spOp? t f.qdst.toNat (fmtSpan ps.fmt.toNat n) true = some d →
       let us (l : List PathUse) := drainUses (s.tile t).seq.ac ps.fmt.toNat n d ++ l
       (ps.fmt = 7 → (tl.slot f.slot.toNat).mode ≠ 2 → (s.tile t).accessOk (us []) = true →
         exec (.adrn t id f) s₀ = .next ((((s.issued t (s.opened t id (us []) { slots := [f.slot.toNat], unit := 17 })).drainRaw t id f ps d).modTile t
           fun tl => tl.incQ [(f.qdst, f.inc)]).retire t)) ∧
       (let rd : PathUse := { form := 0, write := false, start := (s.tile t).seq.ac
                              addr := ps.scaleAddr + 4 * f.cbase.toNat, step := 64, len := 4 * n }
        ps.fmt ≠ 7 → 4 * (f.cbase.toNat + n) ≤ ps.scaleLen → (s.tile t).accessOk (us [rd]) = true →
         exec (.adrn t id f) s₀ = .next ((((s.issued t (s.opened t id (us [rd]) { slots := [f.slot.toNat], unit := 17 })).drainPpu t id f ps d).modTile t
           fun tl => tl.incQ [(f.qdst, f.inc)]).retire t)))) ∧
  (∀ en lo : Entry,
     entryValue 0 en lo = (en.a.toInt, 0) ∧
     (en.used = true → entryValue 1 en lo = (en.a.toInt, en.x.toInt - 157)) ∧
     (en.used = true → entryValue 2 en lo = ((en.a ++ lo.a).toInt, en.x.toInt - 197)) ∧
     (∀ mode, en.used = false → en.a = 0 → (entryValue mode en lo).1 = 0))

/-- R148, R508: PPU loads its parameter set, with the scales where FMT is not RAW and the function's parameters where FUNC
reads them.
R118, R119, R121, R149: STAT in open mode binds the table with the envelopes it reads; in close mode it writes one 32 B
record per channel, 16 records a cycle from 7 ac after its issue on, and unbinds the table.
It rests also on what the model chose or inferred: log entries 24, 177, 191. -/
def Obligations.PpuLoadsAndStatObserves : Prop :=
  (∀ (s₀ s : State) (t : TileId) (id : Ids) (f : PpuF) (b : Buf), s = s₀.due t → s₀.issues t (.ppu t id f) = true → s.calm t = true →
     (f.fmt ≠ 7 → s.spBuf? t f.qscale.toNat false = some b ∧ b.ofs ≤ b.len) →
     (f.fmt = 7 → b = { base := 0, len := 0, ofs := 0, isSealed := false }) →
     ((s.tile t).pset f.pset.toNat).busyUntil ≤ (s.tile t).seq.ac →
     let set (p0 p1 : BitVec 32) : Machine.PSet :=
       { loaded := true, fmt := f.fmt, func := f.func, zp := f.zp, qmin := f.qmin, qmax := f.qmax
         scaleAddr := b.base + b.ofs, scaleLen := b.len - b.ofs, par0 := p0, par1 := p1
         readyAt := (s.tile t).seq.ac + 2, busyUntil := (s.tile t).seq.ac + 2 }
     (f.func.toNat < 2 → exec (.ppu t id f) s₀ = .next (s.issued t { (s.opened t id [] { unit := 18 }).next with
       psets := Store.set (s.tile t).psets f.pset.toNat (set 0 0) })) ∧
     (∀ a, 2 ≤ f.func.toNat → s.spOp? t f.qpar.toNat 8 false = some a →
       let us : List PathUse := [{ form := 0, write := false, start := (s.tile t).seq.ac, addr := a, step := 8, len := 8 }]
       let p0 := BitVec.ofNat 32 (leNat ((s.tile t).spRead a 4))
       let p1 := BitVec.ofNat 32 (leNat ((s.tile t).spRead (a + 4) 4))
       (s.tile t).accessOk us = true → paramsBad f.func p0 p1 = false →
       exec (.ppu t id f) s₀ = .next ((s.issued t { (s.opened t id us { unit := 18 }).next with
         psets := Store.set (s.tile t).psets f.pset.toNat (set p0 p1) }).count (clusterOf t) 3 8))) ∧
  ((∀ (s₀ s : State) (t : TileId) (id : Ids) (f : StatF) (a : Nat), s = s₀.due t → s₀.issues t (.statOpen t id f) = true → s.calm t = true →
     let n := f.nm1.toNat + 1
     let us : List PathUse :=
       [{ form := 0, write := false, start := (s.tile t).seq.ac, addr := a, step := 512, len := 32 * n }]
     s.spOp? t f.q.toNat (32 * n) false = some a → (s.tile t).accessOk us = true → (s.tile t).stat = none →
     (s.tile t).statUntil ≤ (s.tile t).seq.ac →
     (∀ i < n, envelopeBad ((s.tile t).spRead (a + 32 * i) 32) = false) →
     let tl := s.opened t id us { unit := 18 }
     exec (.statOpen t id f) s₀ = .next ((s.issued t ((({ tl with stat := some {
       layer := id.layer, c0 := f.c0.toNat, n, visibleAt := tl.seq.ac + ceilDiv n 16 + 1
       recs := (List.range n).map fun i => (i, envelopeRec ((s.tile t).spRead (a + 32 * i) 32)) } } : Tile).busyTo
         (tl.seq.ac + ceilDiv n 16)).incQ [(f.q, f.inc)]).next).count (clusterOf t) 3 (32 * n))) ∧
   (∀ (s₀ s : State) (t : TileId) (id : Ids) (f : StatF) (a : Nat) (st : Stat), s = s₀.due t → s₀.issues t (.statClose t id f) = true →
     s.calm t = true → (s.tile t).stat = some st →
     let us : List PathUse :=
       [{ form := 0, write := true, start := (s.tile t).seq.ac + 7, addr := a, step := 512, len := 32 * st.n }]
     s.spOp? t f.q.toNat (32 * st.n) true = some a → (s.tile t).accessOk us = true →
     ∃ s', exec (.statClose t id f) s₀ = .next s' ∧ (s'.tile t).stat = none ∧
       (s'.tile t).statUntil = (s.tile t).seq.ac + ceilDiv st.n 16 + 7 ∧
       (s'.tile t).sp = (s.tile t).sp ∧
       (s'.tile t).late = (({ late := [] } : Tile).writeRows ((s.tile t).seq.ac + 7) 512 a
         ((List.range st.n).flatMap fun i => (Store.get {} st.recs i).close.bytes)).late ∧
       (s'.tile t).seq.pc = (s.tile t).seq.pc + 1 ∧ (s'.tile t).seq.ac = (s.tile t).seq.ac + 1 ∧
       (∀ x, x ≠ t → s'.tile x = s.tile x)))

/-- R106, R107, R108, R150: OUTP in pass mode streams, on each named macro with a valid active set, the entries of the
enabled row groups, 32 a cycle, for the MACP's size; the partials are the sums of the products of each output, and are
presented on their cycle through the accumulator.
R104, R105, R150: OUTP in load mode gives each named macro's shadow set the section that passes its checks, and a set
that is not valid in the place of one that does not.
It rests also on what the model chose or inferred: log entries 28, 42, 184, 185, 205, 211. -/
def Obligations.OutliersLoadAndStream : Prop :=
  ((∀ (s₀ s : State) (t : TileId) (id : Ids) (f : OutpPassF), s = s₀.due t → s₀.issues t (.outpPass t id f []) = true →
     let tl := (s.tile t).begun id
     let macs := onesOf f.macros
     let work (m : Nat) : List OutEntry := streamEntries (tl.mac m) f.rgmask
     let e (m : Nat) : Nat := ceilDiv (work m).length 32
     (∀ m ∈ macs, outpBlocked tl m = false ∧ (tl.mac m).fill f.half = none ∧ firstBad (work m) [] = none) →
     ∃ s', exec (.outpPass t id f []) s₀ = .next s' ∧ OnlyTile t s s' ∧
       s'.tile t = { tl.next with
         macros := (s'.tile t).macros
         streams := tl.streams ++ (macs.filter fun m => !(work m).isEmpty && !(tl.mac m).streamDead).map fun m =>
           { mac := m, nout := outsOf (tl.mac m).active.pm1, issue := tl.seq.ac, due := tl.seq.ac + e m + 3, s := (tl.mac m).lastS.getD 4
             partials := enginePartials (tl.mac m) f.half f.bm1 f.asgn (work m), ids := id } } ∧
       ∀ m, (s'.tile t).mac m = if m ∈ macs then
           { tl.mac m with
             streamUntil := tl.seq.ac + e m
             half0Until := if f.half = 0 then max (tl.mac m).half0Until (tl.seq.ac + e m) else (tl.mac m).half0Until
             half1Until := if f.half = 0 then (tl.mac m).half1Until else max (tl.mac m).half1Until (tl.seq.ac + e m) }
         else tl.mac m) ∧
   (∀ (mc : Macro) (h : BitVec 1) (bm1 : BitVec 3) (asgn : BitVec 1) (l : List OutEntry) (o : Nat) (v : Int),
     (o, v) ∈ enginePartials mc h bm1 asgn l ↔ (∃ e ∈ l, e.out.toNat = o) ∧
       v = ((l.filter fun e => decide (e.out.toNat = o)).map fun e =>
         e.res.toInt * activationOf false bm1 asgn (Store.get 0 (mc.half h).acts e.row.toNat)).sum) ∧
   (∀ (s : State) (t : TileId) (m : MacroId) (x : Stream), s.tileUp t = true → (s.tile t).frozenNow = false →
     (s.tile t).seq.st ≠ .frozen → ((s.tile t).streams.find? fun x => decide (x.mac = m.val)) = some x →
     exec (.enginePartialsPresent t m) s =
       .next ((s.modTile t fun tl => ({ tl.modSeq (·.reach x.due) with streams := tl.streams.erase x }).settle).present t
         x.ids x.due x.issue x.s false
         [{ mac := m.val, nout := x.nout, elems := x.partials.map fun y => { out := y.1, val := y.2, exp := 0 } }]))) ∧
  (∀ (s₀ s : State) (t : TileId) (id : Ids) (f : OutpLoadF) (b : Buf) (n : Nat) (sets : List (Nat × Option OutSet)), s = s₀.due t →
     s₀.issues t (.outpLoad t id f) = true → s.calm t = true → s.spBuf? t f.qsrc.toNat false = some b → b.ofs ≤ b.len →
     readSections (s.tile t) (onesOf f.macros) ((s.tile t).spRead (b.base + b.ofs) (min (b.len - b.ofs) 65600)) =
       some (n, sets) →
     (∀ m ∈ onesOf f.macros, ((s.tile t).mac m).setUntil ≤ (s.tile t).seq.ac + 1) →
     let us : List PathUse :=
       [{ form := 0, write := false, start := (s.tile t).seq.ac, addr := b.base + b.ofs, step := 512, len := 4 * n }]
     (s.tile t).accessOk us = true →
     let tl := s.opened t id us { macs := onesOf f.macros, unit := 19 }
     let w := ceilDiv n 128
     exec (.outpLoad t id f) s₀ = .next ((s.issued t ((((tl.modMacs (onesOf f.macros) fun m mc =>
       { mc.putSet mc.shadowPhys (match assocGet none sets m with | some y => y | none => {}) with
         setUntil := tl.seq.ac + w + 1 }).busyTo (tl.seq.ac + w)).incQ [(f.qsrc, f.inc)]).next)).count (clusterOf t) 3
           (4 * n)))

/-- R151, R160: MOVE within the scratchpad copies LEN bytes as they are when it issues, 512 of them in each cycle from 2 ac
after its issue on, unless the destination begins inside the source.
R160: bytes that a micro-op writes in a cycle stand from the cycle after. Once what is due at a tile before its next
micro-op has come about, the writes of earlier cycles are in scratchpad, in their order, and the others still to come; and
a read of a segment in a cycle finds the bytes that stand then.
It rests also on what the model chose or inferred: log entry 9. -/
def Obligations.MoveCopiesBytes : Prop :=
  (∀ (s₀ s : State) (t : TileId) (id : Ids) (f : MoveF) (a d : Nat), s = s₀.due t → s₀.issues t (.moveToScratchpad t id f) = true →
     s.calm t = true →
     let n := f.lm1.toNat + 1
     let ac := (s.tile t).seq.ac
     let us : List PathUse := [{ form := 0, write := false, start := ac, addr := a, step := 512, len := n },
       { form := 0, write := true, start := ac + 2, addr := d, step := 512, len := n }]
     s.spOp? t f.qsrc.toNat n false = some a → s.spOp? t f.qdst.toNat n true = some d → (s.tile t).accessOk us = true →
     (d ≤ a ∨ a + n ≤ d) →
     let tl := s.opened t id us {}
     exec (.moveToScratchpad t id f) s₀ = .next (((s.issued t ((((tl.writeRows (ac + 2) 512 d
       (Mem.readBytes tl.sp a n)).busyTo (ac + ceilDiv n 512 + 1)).incQ [(f.qsrc, f.sinc), (f.qdst, f.dinc)]).next)).count
         (clusterOf t) 3 n).count (clusterOf t) 4 n)) ∧
  ((∀ (s : State) (t : TileId),
     let tl := ((s.flushSamples t).settleDma t).tile t
     ((s.due t).tile t).late = tl.late.filter (fun w => decide (tl.seq.ac ≤ w.cycle)) ∧
     ((s.due t).tile t).sp = (tl.late.filter fun w => decide (w.cycle < tl.seq.ac)).foldl
       (fun m w => Mem.writeBytes m w.addr w.bytes) tl.sp ∧ ∀ x, x ≠ t → (s.due t).tile x = s.tile x) ∧
   (∀ (tl : Tile) (a n c : Nat), Mem.wf tl.sp = true → 0 < n →
     (tl.readView [{ form := 0, write := false, start := c, addr := a, step := n, len := n }]).spRead a n =
       (tl.landLate c).spRead a n))

/-- R69, R71, R73, R151, R161: MOVE to staging fills a half of every named macro with the source's containers, exponents
and zero flags, two ac later; MOVE to an instruction page rewrites the page from its first index, and the page may issue
4 ac after the last segment.
It rests also on what the model chose or inferred: log entries 9, 186. -/
def Obligations.MoveFillsStagingAndPages : Prop :=
  (∀ (s₀ s : State) (t : TileId) (id : Ids) (f : MoveF) (a : Nat), s = s₀.due t → s₀.issues t (.moveToStaging t id f) = true →
    s.calm t = true →
    let n := if f.cw = 4 then 260 else 32 * cwBits f.cw.toNat
    let ac := (s.tile t).seq.ac
    let us : List PathUse := [{ form := 0, write := false, start := ac, addr := a, step := 512, len := n }]
    s.spOp? t f.qsrc.toNat n false = some a → (s.tile t).accessOk us = true →
    (∀ m ∈ onesOf f.dmacros, (((s.tile t).begun id).mac m).halfUntil f.dsel ≤ ac + 2) →
    let fl : Fill := { due := ac + 2, half := fillHalf f.cw.toNat ((s.tile t).spRead a n), ids := id }
    exec (.moveToStaging t id f) s₀ = .next ((s.issued t ((((s.opened t id us { macs := onesOf f.dmacros }).modMacs (onesOf f.dmacros) fun _ mc =>
      if f.dsel = 0 then { mc with fill0 := some fl } else { mc with fill1 := some fl }).busyTo (ac + 2)).incQ
        [(f.qsrc, f.sinc)]).next).count (clusterOf t) 3 n)) ∧
  (∀ (cw : Nat) (l : List Byte) (i : Nat), i < 256 →
    Store.get 0 (fillHalf cw l).acts i = BitVec.ofNat 8 (container (cwBits cw) l i)) ∧
  (∀ (cw : Nat) (l : List Byte) (g b : Nat), g < 4 → b < 8 →
    ((fillHalf cw l).zero.getLsbD (4 * b + g) = true ↔
      ∀ i < 64, (BitVec.ofNat 8 (container (cwBits cw) l (64 * g + i))).getLsbD b = false)) ∧
  (∀ (mc : Macro) (fl : Fill) (ac : Nat), mc.fill0 = some fl →
    (mc.settle ac).half0 = if fl.due < ac then fl.half else mc.half0) ∧
  (∀ (s₀ s : State) (t : TileId) (id : Ids) (f : MoveF) (a : Nat), s = s₀.due t → s₀.issues t (.moveToInstructionPage t id f) = true →
    s.calm t = true →
    let n := f.lm1.toNat + 1
    let ac := (s.tile t).seq.ac
    let us : List PathUse := [{ form := 0, write := false, start := ac, addr := a, step := 512, len := n }]
    s.spOp? t f.qsrc.toNat n false = some a → (s.tile t).accessOk us = true →
    ((s.tile t).hasImage = true → (s.tile t).seq.pc.getLsbD 11 ≠ f.dsel.getLsbD 0) →
    ∃ s', exec (.moveToInstructionPage t id f) s₀ = .next s' ∧ OnlyTile t s s' ∧
      (s'.tile t).pageHold = some (f.dsel, ac + ceilDiv n 512 + 4, id) ∧
      (s'.tile t).seq.pc = (s.tile t).seq.pc + 1 ∧ (s'.tile t).seq.ac = ac + 1 ∧ (s'.tile t).sp = (s.tile t).sp ∧
      ∀ i, Store.get 0 (s'.tile t).ibuf i =
        if 2048 * f.dsel.toNat ≤ i ∧ i < 2048 * f.dsel.toNat + n / 16 then
          BitVec.ofNat 128 (leNat ((s.tile t).spRead (a + 16 * (i - 2048 * f.dsel.toNat)) 16))
        else Store.get 0 (s.tile t).ibuf i)

/-- R130, R134, R152, R247, R297: RPUT with a credit that covers its bytes reads the source, sends the put in segments of
at most 4,064 B to the window's device, and counts in ISSUED; without one it waits, and issues in the cycle that finds
the credit.
It rests also on what the model chose or inferred: log entries 11, 29. -/
def Obligations.RputSendsOrWaits : Prop :=
  ∀ (s₀ s : State) (t : TileId) (id : Ids) (f : RputF), s = s₀.due t →
    let n := f.lm1.toNat + 1
    let covered := creditCovers (Store.get 0 (s.tile t).cur f.cred.toNat) f.dofs.toNat n
    let sent (s : State) (a : Nat) : State :=
      let ac := (s.tile t).seq.ac
      let us : List PathUse := [{ form := 0, write := false, start := ac, addr := a, step := 512, len := n }]
      let c := Store.get 0 (s.tile t).cur f.cred.toNat
      let tl := s.opened t id us {}
      let h : PutHdr :=
        { window := BitVec.ofNat 24 (hf c 119 96), epoch := BitVec.ofNat 32 (hf c 95 64), wofs := f.dofs, wlm1 := f.lm1
          grant := BitVec.ofNat 16 (hf c 15 0), host := false, writer := s.srcTile t 16, tag := s.tagCtr, sofs := 0
          slm1 := 0, first := true, last := true, rsvd := 0 }
      let s1 := (putSegments h (f.urg = 1) ((s.tile t).spRead a n)).foldl
        (fun s m => s.send (.device (BitVec.ofNat 8 (hf c 119 112))) m) (s.issued t tl)
      let s2 := ({ s1 with tagCtr := s1.tagCtr + 1 } : State).modTile t fun tl =>
        let tl := tl.modCounter f.cnt.toNat fun c => { c with issued := c.issued + 1 }
        (({ tl with opSeq := tl.opSeq + 1, ops := tl.ops ++ [{
            key := tl.opSeq, cnt := f.cnt.toNat, due := ac + ceilDiv n 512, ids := id
            frame := match s.tileOwner? t with | some p => (s.part p).frame | none => 0
            xfer := .rput h.window h.epoch h.tag s.now }] } : Tile).incQ [(f.qsrc, f.sinc)]).next
      (s2.count (clusterOf t) 3 n).count (clusterOf t) 9 n
    (∀ a, s₀.issues t (.rput t id f) = true → covered = true → s.calm t = true →
      s.spOpOpen? t f.qsrc.toNat n false = some a →
      (s.tile t).accessOk [{ form := 0, write := false, start := (s.tile t).seq.ac, addr := a, step := 512, len := n }] =
        true →
      exec (.rput t id f) s₀ = .next (sent s a)) ∧
    (s₀.issues t (.rput t id f) = true → covered = false →
      exec (.rput t id f) s₀ = .next (s.modTile t fun tl => tl.modSeq fun q =>
        { q with st := .waiting, why := .credit, waitArg := f.cred.setWidth 11, waitFrom := q.ac, overBudget := false
                 waitUop := some (uopWord id 0x31 (rputBits f)) })) ∧
    (∀ waited a, s.tileUp t = true → (s.tile t).frozenNow = false → (s.tile t).pageHold = none → s.calm t = true →
      (s.tile t).seq.st = .waiting → (s.tile t).seq.why = .credit →
      (s.tile t).seq.waitUop = some (uopWord id 0x31 (rputBits f)) → covered = true →
      s.spOpOpen? t f.qsrc.toNat n false = some a →
      let s1 := (s.modTile t fun tl => tl.modSeq fun q =>
        { q with st := (if tl.hasImage then .issuing else .idle), why := .none, waitArg := 0, waitUop := none
                 ac := max q.ac (q.waitFrom + waited) }).count (clusterOf t) 12 waited
      (s1.tile t).accessOk [{ form := 0, write := false, start := (s1.tile t).seq.ac, addr := a, step := 512, len := n }] =
        true →
      exec (.rputCreditPresent t waited) s = .next (sent s1 a)) ∧
    (∀ (h : PutHdr) (u : Bool) (l : List Byte), l ≠ [] →
      ((putSegments h u l).map fun m => match m with | .put _ _ d => d | _ => []).flatten = l ∧
      (∀ m ∈ putSegments h u l, ∃ (x : PutHdr) (d : List Byte), m = .put x u d ∧ d.length ≤ 4064 ∧ 0 < d.length ∧
        x.window = h.window ∧ x.epoch = h.epoch ∧ x.tag = h.tag))

/-- R130, R153, R270: DMAH counts in ISSUED when it issues; at its end every 32 B unit that is not in hard error is in its
destination and DONE rises.
It rests also on what the model chose or inferred: log entries 17, 50, 187. -/
def Obligations.DmahTransfersAndCounts : Prop :=
  (∀ (s₀ s : State) (t : TileId) (id : Ids) (f : DmahF) (h a : Nat), s = s₀.due t → s.calm t = true → dmahAligned (s.tile t) f = true →
    let n := 32 * (f.l32m1.toNat + 1)
    let ac := (s.tile t).seq.ac
    let us : List PathUse := [{ form := 0, write := false, start := ac, addr := a, step := 512, len := n }]
    (s₀.issues t (.dmahToScratchpad t id f) = true → s.hbmOp? t f.qhbm.toNat n false = some h →
      s.spOp? t f.qsp.toNat n true = some a →
      exec (.dmahToScratchpad t id f) s₀ = .next (s.issued t (((s.opened t id [] {}).dmahStart f id ac
        (.dmah false h a n [])).incQ [(f.qhbm, f.hinc), (f.qsp, f.sinc)]).next)) ∧
    (s₀.issues t (.dmahToHbm t id f) = true → s.hbmOp? t f.qhbm.toNat n true = some h →
      s.spOpOpen? t f.qsp.toNat n false = some a → (s.tile t).accessOk us = true →
      exec (.dmahToHbm t id f) s₀ = .next ((s.issued t (((s.opened t id us {}).dmahStart f id (ac + ceilDiv n 512)
        (.dmah true h a n ((s.tile t).spRead a n))).incQ [(f.qhbm, f.hinc), (f.qsp, f.sinc)]).next).count (clusterOf t) 3
          n))) ∧
  (∀ (s : State) (t : TileId) (p : PartId) (o : AsyncOp) (cnt : Fin 4) (merge : Bool) (h a n : Nat) (data : List Byte),
    (s.tile t).ops = [o] →
    s.tileOwner? t = some p → o.cnt = cnt.val → o.counted = true → o.landing = false → (s.tile t).held = [] →
    o.xfer = .dmah true h a n data →
    (∀ i ∈ unitOffsets n, s.partHard p (h + i) 32 true = false) →
    ∃ s', exec (.dmahDone t ⟨cnt, merge⟩) s = .next s' ∧ (s'.tile t).ops = [] ∧
      ((s'.tile t).counter o.cnt).done = ((s.tile t).counter o.cnt).done + 1 ∧
      ((s'.tile t).counter o.cnt).issued = ((s.tile t).counter o.cnt).issued ∧ (s'.tile t).sp = (s.tile t).sp ∧
      (∀ x, x ≠ t → s'.tile x = s.tile x) ∧
      s'.hbm = ((unitOffsets n).foldl (fun s i => s.partWrite p (h + i) ((data.drop i).take 32)) s).hbm) ∧
  (∀ (s : State) (t : TileId) (p : PartId) (o : AsyncOp) (cnt : Fin 4) (merge : Bool) (h a n : Nat) (data : List Byte),
    (s.tile t).ops = [o] →
    s.tileOwner? t = some p → o.cnt = cnt.val → o.counted = true → o.landing = false → (s.tile t).held = [] →
    o.xfer = .dmah false h a n data → 0 < n → n % 32 = 0 → a % 4 = 0 → a + n ≤ 983040 → (s.tile t).step = none →
    (s.tile t).paths = [] → (s.tile t).late = [] → ((List.range 3).all fun b => ((s.tile t).spBank b).power == .on) = true →
    (s.tile t).seq.st ≠ .issuing → (∀ i ∈ unitOffsets n, s.partHard p (h + i) 32 false = false) →
    ∃ s', exec (.dmahDone t ⟨cnt, merge⟩) s = .next s' ∧ (s'.tile t).ops = [] ∧
      ((s'.tile t).counter o.cnt).done = ((s.tile t).counter o.cnt).done + 1 ∧ s'.hbm = s.hbm ∧
      (∀ i, i < n → Mem.read (s'.tile t).sp (a + i) = (s.partRead p (h + i) 1).headD 0) ∧
      (∀ x, (x < a ∨ a + n ≤ x) → Mem.read (s'.tile t).sp x = Mem.read (s.tile t).sp x) ∧
      ∀ x, x ≠ t → s'.tile x = s.tile x)

/-- R230, R242, R243, R249, R250: the first segment of a put that passes every check is accepted, and its bytes land in the
buffer that remote accesses see; when all bytes of the write have landed the ACK leaves and the write is dropped.
R130, R244, R249, R251, R253: a put that fails a check is refused with the reason of the first check that fails: the
window counts it, an event is raised, and a NACK leaves.
It rests also on what the model chose or inferred: log entries 17, 32, 210. -/
def Obligations.PutsLandOrAreRefused : Prop :=
  ((∀ (s : State) (via : Via) (m : PutHdr) (data : List Byte) (t : TileId) (h : Nat), s.live = true →
     (∀ p, s.windowOwner? m.window = some p → (s.part p).slackStopped = false) → m.rsvd = 0 → malformed m data = false →
     m.first = true → s.window? m.window = some (t, h) → s.putCheck via m = none →
     let a := s.bufBase t (s.handle t h) true + m.wofs.toNat + m.sofs.toNat
     (s.tile t).dmaHold (s.dmaCycle t) a data.length false = none → (s.tile t).held = [] → (s.tile t).late = [] → bankOf a < 3 →
     s.bandDark (bandOf (clusterOf t)) = false → (s.tile t).seq.st ≠ .issuing →
     ∃ s', exec (.putSegmentReceive via m data false) s = .next s' ∧
       (s'.tile t).sp = Mem.writeBytes (s.tile t).sp a data ∧ (s'.tile t).handles = (s.tile t).handles ∧
       (s'.tile t).seq = (s.tile t).seq ∧ (s'.tile t).writes.length = (s.tile t).writes.length + 1 ∧
       ((s'.tile t).win h).openLanded = ((s.tile t).win h).openLanded + data.length ∧ s'.hbm = s.hbm ∧ s'.sent = s.sent ∧
       (∀ x, x ≠ t → s'.tile x = s.tile x) ∧ ∀ p, s'.part p = s.part p) ∧
   (∀ (s : State) (w : PutWrite) (t : TileId), tileOfBits? (w.window.toNat % 65536) = some t → (s.tile t).writes = [w] →
     (s.tile t).writeWhole w = true → (s.tile t).held = [] →
     exec (.putWriteLanded w.window w.via w.tag) s = .next ((s.modTile t fun tl => { tl with writes := [] }).send
       (.via w.via) (.ack w.window w.epoch w.tag)))) ∧
  (∀ (s : State) (via : Via) (m : PutHdr) (data : List Byte), s.live = true →
     (∀ p, s.windowOwner? m.window = some p → (s.part p).slackStopped = false) → m.rsvd = 0 → malformed m data = false →
     m.first = true → (∀ t, tileOfBits? (m.window.toNat % 65536) = some t → s.bandDark (bandOf (clusterOf t)) = false) →
     let refused (r : BitVec 8) : Prop := exec (.putSegmentReceive via m data false) s =
       .next (s.refuse m.window via m.epoch m.tag r 0)
     (s.window? m.window = none → refused 0x01) ∧
     (∀ t h, s.window? m.window = some (t, h) →
       let w := s.handle t h
       let perm := bitN w.toNat 122 && !s.bufSealed t w true && s.belongs via t
       (perm = false → refused 0x02) ∧
       (perm = true → hf w 63 32 ≠ m.epoch.toNat → refused 0x03) ∧
       (perm = true → hf w 63 32 = m.epoch.toNat → s.grantFits t h via m = false → refused 0x04) ∧
       (perm = true → hf w 63 32 = m.epoch.toNat → s.grantFits t h via m = true → s.bandShut t = true → refused 0x05)))

/-- R130, R251, R253, R300: an ACK completes the RPUT it names; a NACK and a fabric timeout complete it too, and abort its
frame while that is in progress.
R242, R243, R244, R254: an advance completes when every write accepted before it has landed, and the status word takes
the closed epoch's count; 4 µs after it the writes not landed are refused with TORN and the epoch is torn.
It rests also on what the model chose or inferred: log entries 17, 50. -/
def Obligations.AnswersCompleteAndEpochsClose : Prop :=
  (∀ (s : State) (t : TileId) (o : AsyncOp) (w : BitVec 24) (e : BitVec 32) (g : BitVec 16) (now : Stamp),
     o.xfer = .rput w e g now → o.counted = true → (s.tile t).ops = [o] → (∀ x, x ≠ t → (s.tile x).ops = []) →
     s.live = true → (∀ p, s.tileOwner? t = some p → (s.part p).slackStopped = false) →
     let s1 := s.modTile t fun tl => { (tl.modCounter o.cnt fun c => { c with done := c.done + 1 }) with ops := [] }
     exec (.ackReceive w e g) s = .next s1 ∧
     (∀ reason detail, exec (.nackReceive w e g reason detail) s =
       .next ((s1.modTile t fun tl => { tl with nacks := satAdd tl.nacks 1, lastReason := reason }).opFailed t o reason)) ∧
     (∀ p, s.tileOwner? t = some p → (s.part p).frame = o.frame → (s.part p).run.active = true →
       (s.part p).run.marked = false →
       ∃ s', exec (.fabricResponseTimeout g) s = .next s' ∧ (s'.tile t) = (s1.tile t) ∧
         (s'.part p).run.marked = true ∧ (s'.part p).run.cause = 8 ∧
         s'.events.length = s.events.length + 1 ∧ ∀ x, x ≠ t → s'.tile x = s.tile x)) ∧
  (∀ (s : State) (window : BitVec 24) (t : TileId) (h : Nat), s.window? window = some (t, h) →
     ((s.tile t).win h).closing = true → (s.tile t).held = [] →
     let closed (x : WinSt) (torn : Bool) : WinSt :=
       { x with closing := false, closedLanded := 0, torn, landed := satOf 20 x.closedLanded
                short := bitN (s.handle t h).toNat 112 && decide (x.closedLanded < handleLen (s.handle t h)) }
     (s.oldWrites t h = [] →
       exec (.advanceComplete window) s = .next (s.modTile t fun tl => tl.modWin h fun x => closed x false) ∧
       exec (.advanceTimeout window) s = .next (s.modTile t fun tl => tl.modWin h fun x => closed x false)) ∧
     (∀ w, s.oldWrites t h = [w] → w.window = window → (s.tile t).writes.count w = 1 →
       ∃ s', exec (.advanceTimeout window) s = .next s' ∧ ((s'.tile t).win h).torn = true ∧
         ((s'.tile t).win h).closing = false ∧ w ∉ (s'.tile t).writes ∧ (s'.tile t).sp = (s.tile t).sp ∧
         ((∀ d u, w.via = .fabric d u → d = s.devNum) →
           s'.sent = s.sent ++ [(.via w.via, .nack window w.epoch w.tag 0x06 (BitVec.ofNat 32 w.got))]) ∧
         ∀ x, x ≠ t → s'.tile x = s.tile x))

/-- R246, R247, R248, R252: a grant replaces CUR or NEXT of its entry by its frame number and is discarded otherwise; a
credit request of a slot is answered with its grants; a read request is answered from the buffer that remote accesses
see; read data reach the requester.
It rests also on what the model chose or inferred: log entries 17, 23, 33, 34, 210, 213. -/
def Obligations.CreditsAndReadsAreServed : Prop :=
  (∀ (s : State) (t : TileId) (g : GrantMsg) (p : PartId), s.live = true → s.tileOwner? t = some p →
    (s.part p).slackStopped = false → g.rsvd = 0 →
    exec (.grantReceive t g) s = .next (s.modTile t fun tl =>
      if g.frame = (s.part p).frame then { tl with cur := Store.set tl.cur g.entry.toNat (creditWord g) }
      else if g.frame = (s.part p).frame + 1 then { tl with nxt := Store.set tl.nxt g.entry.toNat (creditWord g) }
      else { tl with discards := satAdd tl.discards 1 })) ∧
  (∀ (s : State) (p : PartId) (slot : HostSlot) (seq : BitVec 32) (window : BitVec 24) (t : TileId) (h i : Nat)
    (g : BitVec 128), s.live = true → (s.part p).slackStopped = false → s.window? window = some (t, h) →
    s.grantList p = [g] → i = 0 → hf g 127 126 = 0 → hf g 125 124 = 1 → hf g 95 92 = slot.val →
    hf g 91 76 = tileBits t + h → ((s.tile t).win h).granted.contains 0 = false →
    exec (.creditRequest p slot seq window (BitVec.ofNat 4 slot.val)) s =
      .next ((s.modTile t fun tl => tl.modWin h fun w => { w with granted := w.granted ++ [0] }).send
        (.via (.transport p slot seq)) (.grant
          { window := BitVec.ofNat 24 (s.devNum.toNat * 65536 + hf g 91 76)
            epoch := BitVec.ofNat 32 (hf (s.handle t (hf g 91 76 % 32)) 63 32), frame := (s.part p).frame
            lo := BitVec.ofNat 20 (hf g 75 56), hi := BitVec.ofNat 20 (hf g 55 36), grant := 0
            entry := BitVec.ofNat 5 (hf g 115 92 % 16), rsvd := 0 }))) ∧
  (∀ (s : State) (via : Via) (r : ReadReq) (t : TileId) (h : Nat), s.live = true →
    (∀ p, s.windowOwner? r.window = some p → (s.part p).slackStopped = false) → r.rsvd = 0 →
    s.window? r.window = some (t, h) → s.readCheck via r = none →
    let n := r.lm1.toNat + 1
    let a := s.bufBase t (s.handle t h) true + r.offset.toNat
    (s.tile t).dmaHold (s.dmaCycle t) a n true = none → (s.tile t).held = [] → (s.tile t).late = [] →
    (s.tile t).seq.st ≠ .issuing → n ≤ 4032 →
    exec (.readRequest via r false none) s = .next (((s.count (clusterOf t) 5 n).modTile t fun tl =>
      tl.touch [bankOf a] (s.tileAc t)).send (.via via) (.readSeg
      { window := r.window, frame := match s.tileOwner? t with | some p => (s.part p).lastFrame | none => 0, tag := r.tag
        sofs := 0, slm1 := BitVec.ofNat 8 (ceilDiv n 64 - 1), last := true, rsvd := 0 } ((s.tile t).spRead a n)))) ∧
  (∀ (s : State) (r : ReadSeg) (data : List Byte), s.live = true → r.rsvd = 0 →
    let others := s.reads.filter fun x => decide (x ≠ (r.window, r.tag))
    exec (.readDataSegmentReceive r data) s = .next (({ s with
      reads := if r.last then others else others ++ [(r.window, r.tag)] } : State).send (.device s.devNum) (.readSeg r data)))

/-- R135, R172, R229 to R236: a DMA access made while the stream issues waits to the end of the ac; one that waits 256 ac for a
sub-bank is an event; BUSY, parity and woken accesses are tried again, oldest
first; an idle bank sleeps, wakes for 40 ac, and a wake that the stream caused freezes the tile.
R157, R236, R431, R432: while some window has at least 64 ac left a step takes the first region at or after NEXT_REGION
that such a window permits; at its end the region holds what it held, and a freeze that it caused counts.
It rests also on what the model chose or inferred: log entries 17, 21, 48, 168, 210. -/
def Obligations.ScratchpadEventsAndTidewalk : Prop :=
  (∀ (s : State) (t : TileId), s.dmaUp t = true →
     (∀ (bank : SpBank),
       let s1 := s.settleDma t
       exec (.dmaSubbankWait t bank) s = .next (
         if ∃ a ∈ (s1.tile t).held, a.why = .subbank ∧ bankOf a.addr = bank.val ∧ a.first + 256 ≤ s1.dmaCycle t then
           s1.raise 0x0014 clsNone (s1.srcCluster (clusterOf t) 1) noIds (s1.tileOwner? t) [BitVec.ofNat 8 bank.val]
         else s1)) ∧
     (∀ a, (s.tile t).seq.st = .issuing → a.why ≠ .wake → ((s.tile t).held.any fun b => sameWriter a b) = false →
       s.dmaTry t (s.tile t).held.length a = s.modTile t fun tl => { tl with
         held := tl.held ++ [{ a with why := .cycle, since := tl.seq.ac }] }) ∧
     (∀ a, (s.tile t).held = [a] → a.why = .busy → exec (.dualPortBusyRetry t) s =
       .next ((s.modTile t fun tl => { tl with held := [] }).dmaTry t 0 a)) ∧
     (∀ a q, (s.tile t).held = [a] → a.why = .parity → a.req = some q →
       exec (.dmaReadParityRetry t true) s = .next (((s.modTile t fun tl => { tl with held := [] }).dmaTry t 0 a).raise
         0x0004 clsReplayed (s.srcCluster (clusterOf t) 1) noIds (s.tileOwner? t) []) ∧
       (a.tries < 2 → exec (.dmaReadParityRetry t false) s =
         .next (s.modTile t fun tl => { tl with held := [{ a with tries := a.tries + 1 }] })) ∧
       (2 ≤ a.tries → exec (.dmaReadParityRetry t false) s =
         .next ((s.modTile t fun tl => { tl with held := [] }).refuse q.r.window q.via 0 q.r.tag 0x07 0))) ∧
     (∀ b : SpBank, s.tileUp t = true → ((s.tile t).spBank b.val).power = .on → s.sleepIdle t ≠ 0 →
       s.sleepIdle t ≤ s.idleTime t b.val → exec (.bankSleep t b) s =
         .next (s.modTile t fun tl => tl.modSpBank b.val fun k => { k with power := .sleep })) ∧
     (∀ (b : SpBank) (q : Bool), s.tileUp t = true → ((s.tile t).spBank b.val).power = .sleep →
       exec (.bankWake t b q) s = .next (s.modTile t fun tl => tl.modSpBank b.val fun k =>
         { k with power := .waking, wakeEnd := tl.seq.cycle + 40, freezes := q })) ∧
     (∀ b : SpBank, ((s.tile t).spBank b.val).power = .waking → (s.tile t).held = [] →
       let awake (tl : Tile) : Tile := tl.modSpBank b.val fun k =>
         { k with power := .on, wakeEnd := 0, freezes := false, touched := s.tileAc t }
       exec (.bankWakeDone t b) s = .next (if ((s.tile t).spBank b.val).freezes then
           (s.modTile t fun tl => (awake tl).modSeq fun q => { q with frozen := q.frozen + 40, wake := satAdd q.wake 1 }).count
             (clusterOf t) 11 40
         else s.modTile t awake))) ∧
  (∀ (s : State) (t : TileId),
     (∀ r, s.tileUp t = true → (s.tile t).step = none → (s.tile t).nextRegion? = some r → (s.tile t).paths = [] →
       (s.tile t).regionParity r = [] → (r < 64 → ((s.tile t).mac (r / 4)).portUntil ≤ (s.tile t).seq.ac) →
       let permits (x : Nat) : Prop :=
         ∃ w ∈ (s.tile t).twin, (s.tile t).seq.ac + 64 ≤ w.stopAt ∧ (s.tile t).regionOk w x = true
       let taken := s.modTile t fun tl => { tl with
         step := some { region := r, start := tl.seq.ac, saved := tl.saved r, failed := false, freezes := false }
         tw := { tl.tw with next := (r + 1) % 1088 } }
       permits r ∧
       (∀ i, i < (r + 1088 - (s.tile t).tw.next) % 1088 → ¬permits (((s.tile t).tw.next + i) % 1088)) ∧
       exec (.tidewalkStep t [] none) s = .next (if r < 64 then taken
         else taken.modTile t fun tl => tl.touch [bankOf (regionBase r)] (s.tileAc t))) ∧
     (∀ st n, (s.tile t).step = some st → (s.tile t).held = [] → n ≤ 64 →
       ∃ s', exec (.tidewalkStepEnd t n) s = .next s' ∧ (s'.tile t).step = none ∧ (s'.tile t).sp = (s.tile t).sp ∧
         (s'.tile t).macros = (s.tile t).macros ∧
         (s'.tile t).seq.frozen = (s.tile t).seq.frozen + (if st.freezes then n else 0) ∧
         ∀ x, x ≠ t → s'.tile x = s.tile x))

/-- R258, R267, R268, R270 to R273: a good replay counts in REPLAY_OK and is class replayed; a first failed one is tried
once more; a second one is a hard error, counted in HARD, logged, and answered with no bytes from then on; a replay for
an access that is no longer in hand does nothing; a command that names an address at or above 288 GiB stops as a fault.
R271: before ready, three good rereads make a hard error transient, which is recorded; otherwise its row is repaired into a
spare row and restored, or the fault is fatal to the partition that owns the slice, or the access is kept as bad, and in
slice 70 it is fatal to the device; a command that names an address at or above 288 GiB stops as a fault.
It rests also on what the model chose or inferred: log entries 49, 76, 143, 217, 218. -/
def Obligations.HbmErrorsReplayAndRepair : Prop :=
  (∀ (s : State) (a : HbmAddr) (req : BitVec 7) (user : HbmUser) (write : Bool),
     let k := ctrlOf a
     let key := (accessOf a, req, user, write)
     let owner := (reqCluster? req).bind fun c => s.owner? c
     let run (good : Bool) : Instr :=
       if write then .hbmWriteReplay a ⟨req, user⟩ good else .hbmReadReplay a ⟨req, user⟩ good ⟨false, false⟩
     (288 * 2 ^ 30 ≤ a.toNat → ∀ good, exec (run good) s = .fault (.noSuchHbmAddress a)) ∧
     (a.toNat < 288 * 2 ^ 30 → s.inHand req user a = false → ∀ good, exec (run good) s = .next s) ∧
     (a.toNat < 288 * 2 ^ 30 → s.inHand req user a = true →
       exec (run true) s = .next ((s.modCtrl k fun c => { c with
         replayOk := satAdd c.replayOk 1, tries := c.tries.filter fun x => !decide (x.1 = key) }).raise 0x0008 clsReplayed
           (s.srcCtrl k) noIds owner (leBytes 8 (accessOf a).toNat)) ∧
       (assocGet 0 (s.ctrl k).tries key = 0 → exec (run false) s = .next (s.modCtrl k fun c => { c with
         tries := (c.tries.filter fun x => !decide (x.1 = key)) ++ [(key, 1)] })) ∧
       (assocGet 0 (s.ctrl k).tries key ≠ 0 → ∃ s', exec (run false) s = .next s' ∧
         (s'.ctrl k).hard = satAdd (s.ctrl k).hard 1 ∧ (s'.ctrl k).logValid = true ∧
         ((s.ctrl k).logValid = false → (s'.ctrl k).logAddr = accessOf a ∧ (s'.ctrl k).logReq = req ∧
           (s'.ctrl k).logWrite = write) ∧
         ((s.ctrl k).logValid = true → (s'.ctrl k).logAddr = (s.ctrl k).logAddr) ∧
         s'.hardAt a.toNat write = true ∧ s'.tiles = s.tiles))) ∧
  (∀ (s : State) (a : HbmAddr) (rereads : List Bool) (spare : Bool) (rows : List HbmAddr),
     let acc := accessOf a
     let done (s : State) : State :=
       let s := s.retryRestores
       match s.sliceOwner? (acc.toNat / 2 ^ 32) with | some p => s.tryReady p | none => s
     let good := 3 ≤ rereads.length ∧ (rereads.take 3).all id = true
     (288 * 2 ^ 30 ≤ a.toNat → exec (.hbmHardErrorRepair a rereads spare rows) s = .fault (.noSuchHbmAddress a)) ∧
     (a.toNat < 288 * 2 ^ 30 → (∃ w, (acc, w) ∈ s.hardNow) →
       (good → exec (.hbmHardErrorRepair a rereads spare rows) s =
         .next (done { s with
           hardNow := s.hardNow.filter (fun x => !decide (x.1 = acc)), transients := s.transients ++ [acc] })) ∧
       (¬ good → acc.toNat / 2 ^ 32 = 70 →
         exec (.hbmHardErrorRepair a rereads spare rows) s = .next (done (s.devFatal 4 (s.srcCtrl (ctrlOf a))))) ∧
       (¬ good → spare = true → acc.toNat / 2 ^ 32 ≠ 70 → ∃ s', exec (.hbmHardErrorRepair a rereads spare rows) s = .next s' ∧
         (∀ w, (acc, w) ∉ s'.hardNow) ∧ s'.badAccess = s.badAccess) ∧
       (¬ good → spare = false → ∀ p, acc.toNat / 2 ^ 32 < 62 → s.sliceOwner? (acc.toNat / 2 ^ 32) = some p →
         exec (.hbmHardErrorRepair a rereads spare rows) s = .next (done (s.partFatal p 18 (s.srcCtrl (ctrlOf a))))) ∧
       (¬ good → spare = false → 62 ≤ acc.toNat / 2 ^ 32 → acc.toNat / 2 ^ 32 ≠ 70 →
         exec (.hbmHardErrorRepair a rereads spare rows) s = .next (done { s with
           hardNow := s.hardNow.filter fun x => !decide (x.1 = acc), badAccess := s.badAccess ++ [acc] }))))

/-- R12, R217 to R222, R224, R226: a write sets the RW fields and clears DONE where it has 1; START requests a verify with
these fields, and is ignored while one is held or running; it runs when the tile rests, or ends at once with ERR on a bad
source word; its end counts the rows that differ and the rows with a parity word, and marks no frame.
R116, R223, R224, R225, R490, R510: firmware takes a condemned macro off the list: after a checksum event it reads the banks
back, restores them as at the frame's start, then steers or retires it, as after a march or a verify that found columns; a
verify that found rows alone has the banks programmed again; a bank whose write failed is written once more and the macro
retired when that fails again. At its interval the active banks of one tile's resident macros are verified, before ready and
once a frame.
It rests also on what the model chose or inferred: log entries 70 to 75, 196. -/
def Obligations.VerifyAndRepairOfWeights : Prop :=
  (∀ (s : State) (t : TileId),
     let v := (s.tile t).verify
     let set (w : Word) : Verify := { v with
       compare := w.getLsbD 28, rec17 := w.getLsbD 27, role := w.extractLsb' 26 1, mac := w.extractLsb' 16 4
       done := v.done && !w.getLsbD 29 }
     (∀ w : Word, w.getLsbD 31 = true → v.busy = false → exec (.verifyStart t w) s = .next (s.modTile t fun tl => { tl with
       verify := { set w with
         busy := true, held := true, diffRows := 0, parRows := 0, any := false, err := false, firstRow := 0, diff := []
         run := { compare := w.getLsbD 28, rec17 := w.getLsbD 27, role := w.extractLsb' 26 1, mac := w.extractLsb' 16 4
                  rstride := v.rstride, addr := v.addr } } })) ∧
     (∀ w : Word, (w.getLsbD 31 = false ∨ v.busy = true) →
       exec (.verifyStart t w) s = .next (s.modTile t fun tl => { tl with verify := set w })) ∧
     (v.held = true → (s.tile t).atRest = true → s.dom (bandOf (clusterOf t)).val = .on →
       (∀ p, s.tileOwner? t = some p → (s.part p).run.active = false ∧ (s.part p).armed = false ∧
         (s.part p).ready = false ∧ (s.part p).slackStopped = false) →
       let ended := s.modTile t fun tl => { tl with verify := { v with busy := false, held := false, done := true, err := true } }
       exec (.verifyRun t) s = .next (if s.sourceBad t v.run then
           (match s.tileOwner? t with | some p => ended.tryReady p | none => ended)
         else s.modTile t fun tl => { tl with verify := { v with held := false } })) ∧
     (∀ par cols, v.busy = true → v.held = false →
       (∀ p, s.tileOwner? t = some p → ∀ b ∈ s.bandsOf p, (s.band b).ordered = false) →
       let b := if v.run.role = 0 then ((s.tile t).mac v.run.mac.toNat).active else ((s.tile t).mac v.run.mac.toNat).shadow
       let f := b.readBack v.run.compare (s.verifyRecord t v.run) par cols
       ∃ s', exec (.verifyEnd t par cols) s = .next s' ∧ (s'.tile t).verify.busy = false ∧
         (s'.tile t).verify.done = true ∧ (s'.tile t).verify.err = false ∧
         (s'.tile t).verify.diffRows = BitVec.ofNat 9 f.rows.length ∧
         (s'.tile t).verify.parRows = BitVec.ofNat 9 (f.par.map fun x => x.1).eraseDups.length ∧
         ((s'.tile t).verify.any = true ↔ f.rows ≠ [] ∨ f.par ≠ []) ∧
         (s'.tile t).sp = (s.tile t).sp ∧ ∀ p, (s'.part p).run.marked = (s.part p).run.marked)) ∧
  ((∀ (s : State) (t : TileId) (m : MacroId) (c0 c1 : List (BitVec 8)) (loc : Bool) (p : PartId) (x : RepairDue),
     s.tileOwner? t = some p → s.live = true → (s.part p).run.active = false →
     ((s.part p).repairs.find? fun x => decide (x.key = macKey t m.val)) = some x →
     s.repairWaits p ((s.tile t).mac m.val) x = false →
     let s1 := s.modPart p fun pt => { pt with repairs := pt.repairs.erase x }
     let n0 := c0.map BitVec.toNat
     let n1 := c1.map BitVec.toNat
     let mc := (s.tile t).mac m.val
     let r0 (s : State) : List Nat := (s.readDiffs p mc.bank0 ++ n0).eraseDups
     let r1 (s : State) : List Nat := (s.readDiffs p mc.bank1 ++ n1).eraseDups
     exec (.weightRepair t m c0 c1 loc) s = .next (State.tryReady (match x.why with
       | .checksum => (s1.modTile t fun tl => tl.modMac m.val Macro.toStart).repairMacro p t m.val (r0 s1) (r1 s1) loc
       | .march => s1.repairMacro p t m.val n0 n1 loc
       | .pair primary other found alone => s1.repairPair p t m.val primary other found alone (r0 s1) (r1 s1) loc
       | .verify v0 v1 blind =>
         if v0 = [] ∧ v1 = [] ∧ blind = false then s1.reprogram p t m.val ([(0 : BitVec 1), 1].filter fun b =>
           (mc.bank b).st == .valid && !(mc.bank b).srcs.isEmpty)
         else s1.repairMacro p t m.val v0 v1 (!blind)
       | .rewrite banks =>
         let s2 := banks.foldl (fun s b => s.writeBank p t m.val b) s1
         let failed := banks.filter fun b => !((s2.tile t).mac m.val).whole b
         if failed = [] ∨ (s2.part p).readmit = true then s2 else s2.retireMacro t m.val failed) p)) ∧
   (∀ (s : State) (p : PartId) (t : TileId), s.live = true → (s.part p).run.active = false → (s.part p).armed = false →
     (s.part p).ready = false → (s.part p).slackStopped = false → 0 < s.verifyNs →
     (s.part p).verifyFrame ≠ some (s.part p).frame →
     ((s.part p).verifyTile ≠ 0 ∨ (s.part p).verifyAt.toNat + s.verifyNs ≤ s.now.toNat) →
     (s.residentTiles p)[(s.part p).verifyTile]? = some t.val → (s.tile t).verify.busy = false →
     s.dom (bandOf (clusterOf t)).val = .on →
     exec (.periodicVerify p) s = .next ((((s.part p).residents.filter fun x => decide (x / 16 = t.val)).foldl
       (fun s x => s.verifyActive p t (x % 16)) (s.modPart p fun pt => { pt with
         verifyAt := if pt.verifyTile = 0 then s.now else pt.verifyAt
         verifyTile := if pt.verifyTile + 1 = (s.residentTiles p).length then 0 else pt.verifyTile + 1
         verifyFrame := some pt.frame })).tryReady p)))

/-- R39, R217, R221: the rows of a compare are those whose record is lost to a hard error or whose cells differ from the
record as the port would store it, and the parity findings name the words of odd parity.
It rests also on what the model chose or inferred: log entry 71. -/
def Obligations.ReadBackFindsWhatDiffers : Prop :=
  ∀ (b : Bank) (rec : Nat → Option (List Byte × Bool)) (r w : Nat),
    (r ∈ (b.readBack true rec [] []).rows ↔
      r < 256 ∧ (rec r = none ∨ ∃ l f, rec r = some (l, f) ∧ b.diffCols r l f ≠ [])) ∧
    ((b.readBack false rec [] []).rows = []) ∧
    ((r, w) ∈ (b.readBack true rec [] []).par ↔ r < 256 ∧ w ∈ b.parityBad r)

/-- R193 to R200: a package passes the stages in order, and the first that fails gives STATUS and STAGE; a refusal leaves
tiles, HBM and the image in force alone; a package is BUSY while an admission runs.
R195, R196, R200, R201: an admission that waits at stage 8 fails with every shortfall, or enters stage 9 once no frame
runs and no ready is out; stage 9 copies, decrypts, fills and records, the partition is IDLE and ADMITTED with its image;
another variant's pages are filled before ready.
It rests also on what the model chose or inferred: log entries 39, 77, 79, 80, 138, 175, 194, 209, 212. -/
def Obligations.AdmissionStopsOrFills : Prop :=
  (∀ (s : State) (p : PartId), s.mayLoad p = true →
     (s.loadBusy p = true → exec (.imageLoad p) s = .next (s.modPart p fun pt => { pt with
       loadAsked := false, result := pt.busyResult })) ∧
     (s.loadBusy p = false → s.isControl p = false →
       let s1 := s.finishRaise.modPart p fun pt => { pt with loadAsked := false }
       let ends (r : AdmResult) : Prop := exec (.imageLoad p) s = .next (s1.modPart p fun pt => { pt with result := r })
       (s.img p 0 4 = 0x314A544A → s.lcState ≠ 2 → ends (plainResult stStructure 1)) ∧
       ((s.img p 0 4 = 0x314A544A → s.lcState = 2) →
         (∀ l, s1.stage1 p = some l → ends (locResult stFormat 1 l)) ∧
         (∀ r, s1.stage1 p = none → s1.stages2to7 p = some r → ends r) ∧
         (s1.stage1 p = none → s1.stages2to7 p = none →
           ((claimedBands (s1.readImage p)).any fun b => s.dom b.val == .switching && !(s.band b).draining) = true →
           exec (.imageLoad p) s = .next (s1.modPart p fun pt => { pt with
             admission := some { atStage8 := true, image := s1.readImage p, eligible := 0 }
             result := plainResult 0 8 }))))) ∧
  ((∀ (s : State) (p : PartId) (a : Admission), (s.part p).admission = some a → s.phase = .service → a.atStage8 = true →
     ((claimedBands a.image).any fun b => s.dom b.val == .switching && !(s.band b).draining) = false →
     let el := a.image.eligible (s.pinned p) a.image.deadline.toNat a.image.reserve.toNat
     let short := s.claimShorts p a.image ++ s.unservedShorts p a.image [] ++ s.triggerShorts p a.image
     (short = [] → el ≠ 0 → ∃ s', exec (.admissionStage8Resume p) s = .next s' ∧
       (s'.part p).admission = some { a with atStage8 := false, eligible := el } ∧
       ((s.part p).run.active = true → s'.tiles = s.tiles ∧ (s'.part p).image = (s.part p).image ∧
         (s'.part p).result.stage = 8) ∧
       ((s.part p).run.active = false → (s.part p).armed = false → (s.part p).ready = false →
         (s.part p).slackStopped = false → (s'.part p).image = none ∧ (s'.part p).result.stage = 9)) ∧
     ((short ≠ [] ∨ el = 0) → ∃ s', exec (.admissionStage8Resume p) s = .next s' ∧ s'.tiles = s.tiles ∧
       (s'.part p).image = (s.part p).image ∧ (s'.part p).admission = none ∧ (s'.part p).result.stage = 8 ∧
       (s'.part p).result.status = if short = [] then stTiming else stResources)) ∧
   (∀ (s s2 : State) (p : PartId) (a : Admission) (plain : Plain), (s.part p).admission = some a → s.phase = .service →
     a.atStage8 = false → (s.part p).result.stage = 9 → (s.part p).slackStopped = false →
     (∀ b ∈ s.bandsOf p, (s.band b).ordered = false) →
     (∀ x ∈ a.image.sections.zipIdx, s.stage9Hard p a.image x = false) →
     let s1 := s.copyImages p a.image
     s1.decrypt p a.image = .ok plain → s1.plainFault p a.image plain = none →
     State.settleFill p a.image plain (s1.firstClass p a.eligible) 2048
       (s1.fillAll p a.image plain (s1.firstClass p a.eligible)) = (s2, true) → (s2.part p).st ≠ .halted →
     ∃ s', exec (.admissionLoad p) s = .next s' ∧ s'.tiles = s2.tiles ∧ s'.hbm = s2.hbm ∧
       (s'.part p).image = some a.image ∧ (s'.part p).st = .idle ∧ (s'.part p).admission = none ∧
       (s'.part p).result.status = stAdmitted ∧ (s'.part p).result.stage = 9 ∧ (s'.part p).fromZero = true) ∧
   (∀ (s : State) (p : PartId) (im : Image) (cls : BitVec 2), (s.part p).image = some im → s.live = true →
     (s.part p).run.active = false → (s.part p).armed = false → (s.part p).ready = false → (s.part p).slackStopped = false →
     (s.part p).wantCls = cls → (s.part p).cls ≠ cls → (s.part p).eligible.getLsbD cls.toNat = true →
     (s.part p).copyLost = false →
     (∀ x ∈ im.sections, (x.ty = 1 ∨ x.ty = 2) → x.variant.toNat = cls.toNat + 1 →
       s.rangeHard (downloadBase p + x.offset.toNat) x.length.toNat false = false) →
     exec (.variantRefill p cls) s = .next (((((s.imageTiles p).foldl
       (fun s t => s.fillStream p t im.sections cls.toNat) s).modPart p fun pt => { pt with
         cls := cls, fromZero := true, refillTries := 0 })).tryReady p)))

/-- R398, R402 to R411, R415: a control record that fails no check takes effect: an enrolment of a partition without an
image stores its owner digests; a life-cycle record writes INTENT, and the pending transition erases, completes and
resets; a debug unlock opens the networks; an attestation request delivers the report.
R410, R411, R414: the second half of a transition clears HBM, scratchpad and enrolments, writes COMPLETE and the
target's own OTP bits, and ends in a warm reset.
It rests also on what the model chose or inferred: log entries 144 to 150. -/
def Obligations.ControlRecordsAndTransitions : Prop :=
  (∀ (s : State) (p : PartId), s.mayLoad p = true → s.loadBusy p = false →
     let s1 := s.modPart p fun pt => { pt with loadAsked := false }
     (s.img p 0 4 = 0x3145544A → s1.enrolFault p = none → (s.part (s.enrolled p)).enrolDue = none →
       (s.part (s.enrolled p)).image = none →
       ∃ s', exec (.enrolment p) s = .next s' ∧ (s'.part (s.enrolled p)).ownerRsa = (s.recKeys p).1 ∧
         (s'.part (s.enrolled p)).ownerSlh = (s.recKeys p).2 ∧
         (s'.part (s.enrolled p)).ownerSeq = BitVec.ofNat 32 (s.recSeq p) ∧
         (s'.part (s.enrolled p)).enrolDue = none ∧ (s'.part p).result.status = 0 ∧ (s'.part p).result.stage = 9) ∧
     (s.img p 0 4 = 0x314C544A → s1.lifeFault p = none →
       (s.recKind p ≠ 8 → ∃ s', exec (.lifeCycleTransition p) s = .next s' ∧
         s'.otp.journal = s.otp.journal ++
           [{ target := BitVec.ofNat 3 (s.recKind p), complete := false, keys := s.recKeys p }]) ∧
       (s.recKind p = 8 → exec (.debugUnlock p) s =
         .next (({ s1 with island := { s1.island with debug := true } } : State).endRecord p (recordResult 0 9)))) ∧
     (s.img p 0 4 = 0x3141544A → s1.attestFault p = none →
       let s2 : State := { s1 with island := { s1.island with sram := { s1.island.sram with log := s1.measurements p } } }
       exec (.attestationRequest p) s =
         .next ((s2.deliver p 0 (s1.report p (s1.imgBytes p 16 32))).endRecord p (recordResult 0 9))) ∧
     (∀ nonce : List Byte, nonce.length = 32 → ((s.report p nonce).drop 16).take 32 = nonce)) ∧
  (∀ (s : State) (p : PartId), s.phase = .service → s.transition = true →
     ∃ s', exec (.lifeCycleTransition p) s = .next s' ∧ s'.hbm = [] ∧ s'.otp = s.otp.complete ∧ s'.startWord.cause = 1 ∧
       s'.flash.dict = [] ∧ (∀ t, (s'.tile t).sp = [] ∧ ∀ m, ((s'.tile t).mac m).bank0.cells = [] ∧
         ((s'.tile t).mac m).bank1.cells = []) ∧
       (∀ q, (s'.part q).ownerRsa = 0 ∧ (s'.part q).ownerSlh = 0 ∧ (s'.part q).ownerSeq = 0) ∧ s'.transition = false)

/-- R204, R394, R408, R412, R413: the first tamper is latched with its source, clears the secure SRAM, wipes the banks of every
tile whose band is ON and turns every laser off; a later one changes nothing. Boundary scan is always open; a network that
the life cycle keeps closed answers nothing, and in MANUFACTURE an open one writes OTP and repairs rows of HBM for good.
It rests also on what the model chose or inferred: log entries 111, 151, 152, 227. -/
def Obligations.TamperWipesAndJtagGates : Prop :=
  ∀ s : State,
    (∀ src : Fin 5, s.island.tamper = false → ∃ s', exec (.tamper src) s = .next s' ∧ s'.island.tamper = true ∧
      s'.island.tsrc = BitVec.ofNat 5 (2 ^ src.val) ∧ s'.island.sram = {} ∧ s'.lasersOn = 0 ∧
      ∀ t : TileId, s.dom (bandOf (clusterOf t)).val = .on → ∀ m, ((s'.tile t).mac m).bank0.cells = [] ∧
        ((s'.tile t).mac m).bank1.cells = []) ∧
    (∀ src : Fin 5, s.island.tamper = true → exec (.tamper src) s = .next s) ∧
    (∀ data,
      let out := Config.freeWord s.freeCtr ^^^ data
      let s1 (opened : Bool) : State :=
        { s with freeCtr := s.freeCtr + 1, jtagOpen := opened, sent := s.sent ++ [(.tap, .jtag out)] }
      let ends (s : State) : State := if s.phase = .service then s.setD29 else s
      exec (.jtagAccess .boundary data) s = .next (ends (s1 false)) ∧
      (s.networksOpen = true →
        exec (.jtagAccess .network data) s = .next (ends (s1 true)) ∧
        (∀ x, exec (.jtagAccess (.otp x) data) s =
          .next (ends (if s.lcState = 0 then (s1 true).otpWrite x else s1 true))) ∧
        (∀ row, ∃ s', exec (.jtagAccess (.hardRepair row) data) s = .next s' ∧
          s'.hardRepairs = if s.lcState = 0 then row ++ s.hardRepairs else s.hardRepairs)) ∧
      (s.networksOpen = false → ∀ net, net ≠ .boundary → exec (.jtagAccess net data) s = .next s))

/-- R178, R179, R182, R241, R380, R439, R440, R444, R445: a frame overruns by OverrunAction, a marked frame is stopped with
its first cause and withheld, an unmarked frame whose tiles have all reported commits; a withheld commit counts and leaves
LAST_FRAME.
It rests also on what the model chose or inferred: log entries 37, 118, 123. -/
def Obligations.FrameOverrunsStopsOrCommits : Prop :=
  ∀ (s : State) (p : PartId), s.live = true → (s.part p).run.active = true → (s.part p).slackStopped = false →
    let pt := s.part p
    let d := s.deadline p
    let s1 := s.reach (pt.run.ts + BitVec.ofNat 64 d)
    let action := if s.phase = .ebb then 0 else s.vval p 0x10 3
    let late (a : BitVec 2) : State := s1.modPart p fun pt => { pt with run := { pt.run with overrun := true, action := a } }
    (pt.run.overrun = false → s.allDone p = false → s.armed p = false →
      (action = 0 → exec (.frameOverrun p) s = .next ((late 1).stopFrame p 0xB 0xFFFF d)) ∧
      (action = 1 → exec (.frameOverrun p) s = .next (late 2)) ∧
      (action = 2 → exec (.frameOverrun p) s =
        .next (((late 3).stopFrame p 0xB 0xFFFF d).modPart p fun pt => { pt with st := .halted }))) ∧
    (∀ e, pt.run.marked = true → s.armed p = false → ∃ s', exec (.frameAbortReport p e) s = .next s' ∧
      (s'.part p).run.active = false ∧ (s'.part p).run.stopped = true ∧ (s'.part p).lastCause = pt.run.cause ∧
      (s'.part p).withheld = satAdd pt.withheld 1 ∧ (s'.part p).lastFrame = pt.lastFrame ∧
      (s'.part p).boundaryDue = true ∧
      ∀ t, t ∈ s.tilesOf p → (s.tile t).hasImage = true → (s'.tile t).seq.pc = (s.tile t).seq.start ∧
        (s'.tile t).seq.st = .waiting ∧ (s'.tile t).seq.why = .gate) ∧
    (∀ td, pt.run.marked = false → s.allDone p = true → ∃ s', exec (.frameCommit p td) s = .next s' ∧
      (s'.part p).lastFrame = pt.frame ∧ (s'.part p).run.active = false ∧ (s'.part p).withheld = pt.withheld ∧
      (s'.part p).boundaryDue = true ∧ (s'.part p).statusRec.extractLsb' 96 32 = pt.frame ∧
      s'.now = (if s.now < td + 200 then td + 200 else s.now) ∧
      ∀ t, t ∈ s.tilesOf p → (s'.tile t).sp = (s.tile t).sp ∧ ∀ h, h ∈ s.windowsOf t 2 →
        hf (s'.handle t h) 63 32 = (hf (s.handle t h) 63 32 + 1) % 2 ^ 32 ∧
        (bitN (s.handle t h).toNat 119 = true →
          bitN (s'.handle t h).toNat 113 = !bitN (s.handle t h).toNat 113))

/-- R174, R175, R180: a device arrival is counted at its fabric-scope point; a cancel arrival completes the point, and stops
with CANCELLED the frame of a partition that waits there.
R308, R332, R335: at the boundary after a frame repairs and enrolment come first, then the pending commits of a
partition that is not HALTED, the snapshot, and ready; a pending layout is taken
instead; a re-arm that scan-out delayed ends HALTED. FRAME_OUT falls.
It rests also on what the model chose or inferred: log entries 119, 120, 122, 165. -/
def Obligations.ArrivalsAndBoundary : Prop :=
  (∀ (s : State) (p : PartId) (src : BitVec 8) (m : ArrivalMsg) (e : BitVec 128), s.live = true →
     s.groupParts m.group = [p] → (s.part p).slackStopped = false → s.pointIn p m = some e →
     m.frame = (s.part p).frame →
     let x := (s.part p).point m.rid.toNat
     (x.remotes < hf e 103 96 → exec (.deviceArrivalReceive src m) s = .next (s.modPart p fun pt =>
       pt.modPoint m.rid.toNat fun x => { x with
         remotes := x.remotes + 1, arrived := x.arrived ++ [src]
         doneA := max x.doneA (s.dieTime p 0 s.now + (acLen (s.part p).div2.toNat 20 + 24 * 60))
         doneB := max x.doneB (s.dieTime p 1 s.now + (acLen (s.part p).div2.toNat 20 + 24 * 60)) })) ∧
     (src ≠ s.devNum → s.pointDone p m.rid.toNat = false →
       let s1 := s.modPart p fun pt => pt.modPoint m.rid.toNat fun x => { x with cancelled := true }
       (s.waitsAt p m.rid.toNat = false → exec (.cancelArrivalReceive src m) s = .next s1) ∧
       (s.waitsAt p m.rid.toNat = true → (s.part p).run.active = true → exec (.cancelArrivalReceive src m) s =
         .next ((s1.modPart p fun pt => { pt with run := { pt.run with cancelled := true } }).stopFrame p 0xC 0xFFFF
           (s.elapsed p))))) ∧
  (∀ (s : State) (p : PartId),
     (s.live = true → (s.part p).run.active = false → (s.part p).armed = false →
       ((s.part p).rearmDue = false → (s.part p).boundaryDue = true → (s.part p).layoutNew = none →
         let s1 := ((s.modPart p fun pt => { pt with boundaryDue := false }).boundaryRepairs p).enrolNow p
         let s2 := if (s1.part p).st = .halted then s1 else s1.applyPending p
         exec (.frameBoundary p) s =
           .next ((((((s2.frameSnapshot p).enterLoad p).haltNow p).orderClass p).tryReady p).startOrders p)) ∧
       ((s.part p).rearmDue = true → s.slack.scanning = false →
         exec (.frameBoundary p) s = .next (s.leaveHalted p)) ∧
       (∀ v, (s.part p).rearmDue = false → (s.part p).boundaryDue = true → (s.part p).layoutNew = some v → exec (.frameBoundary p) s = .next (s.changeLayout p))) ∧
     exec .frameOutPulseEnd s = .next { s with pins := { s.pins with frameOut := false } })

/-- R308, R309: a device whose partitions are all ready reports to its leader, again on repeat; the leader counts a
member's ready for its next frame and takes it back on WITHDRAW.
R181, R241, R309, R310, R311: a source event at a leader whose members are all ready fires the next frame, and every
ready partition of the group is armed for T_f + LEAD; one before that is counted as missed. A member obeys a fire of its
leader for a frame not yet started, at t_rx + LEAD − CORR, and not before 4,000 ns after t_rx.
It rests also on what the model chose or inferred: log entries 38, 84, 85, 87, 215, 222. -/
def Obligations.GatesCollectReadyAndFire : Prop :=
  (∀ (s : State) (g : GroupId), s.live = true →
     ((s.group g).role ≠ 0 → s.deviceReady g = true →
       let m : ReadyMsg := { frame := (s.group g).frame + 1, group := g, data := s.gateSource g = 0, withdraw := false }
       exec (.gateReadySend g) s = .next (s.sendReady m) ∧ exec (.gateReadyRepeat g) s = .next (s.sendReady m) ∧
       ((s.group g).leader ≠ s.devNum → s.sendReady m = s.send (.device (s.group g).leader) (.ready m))) ∧
     (∀ (src : BitVec 8) (m : ReadyMsg), m.group = g → (s.group g).role = 2 → (s.group g).fired = true →
       (m.withdraw = true ∨ m.frame = (s.group g).frame + 1) →
       let others := (s.group g).ready.filter fun r => r.1 != src
       let x : Group := { s.group g with ready := if m.withdraw then others else others ++ [(src, m.frame)] }
       exec (.gateReadyReceive src m) s = .next (s.modGroup g fun _ => { x with waiting := x.allReady }))) ∧
  (∀ (s : State) (g : GroupId), s.live = true →
     (∀ source tf, s.sourceAt g source tf = true → (s.group g).role = 2 →
       ((s.group g).allReady = true → ∃ s', exec (.gateSourceEvent g source tf) s = .next s' ∧
         (s'.group g).frame = (s.group g).frame + 1 ∧ (s'.group g).fired = true ∧ (s'.group g).missed = 0 ∧
         (s'.group g).ready = [] ∧
         ∀ p, p ∈ s.groupParts g → (s.part p).ready = true → (s.part p).slackStopped = false →
           (s'.part p).armed = true ∧ (s'.part p).ready = false ∧ (s'.part p).frame = (s.group g).frame + 1 ∧
           (s'.part p).startAt = tf + (BitVec.ofNat 32 (s.dval (0x2200 + g.val) 3)).setWidth 64) ∧
       ((s.group g).allReady = false → source ≠ 0 → (s.group g).fired = true →
         ∃ s', exec (.gateSourceEvent g source tf) s = .next s' ∧ (s'.group g).missed = (s.group g).missed + 1 ∧
           (s'.group g).frame = (s.group g).frame)) ∧
     (∀ (src : BitVec 8) (m : FireMsg) (trx : Stamp), m.group = g → (s.group g).role = 1 → (s.group g).leader = src →
       later m.frame (s.group g).frame = true → ∃ s', exec (.gateFireReceive src m trx) s = .next s' ∧
         (s'.group g).frame = m.frame ∧ (s'.group g).late = (startStamp m trx).2 ∧
         ∀ p, p ∈ s.groupParts g → (s.part p).ready = true → (s.part p).slackStopped = false →
           (s'.part p).armed = true ∧ (s'.part p).frame = m.frame ∧ (s'.part p).startAt = (startStamp m trx).1) ∧
     (∀ (m : FireMsg) (trx : Stamp), trx.toNat + m.lead.toNat + 4000 < 2 ^ 64 →
       (startStamp m trx).1.toNat = max (trx.toNat + 4000) (trx.toNat + m.lead.toNat - m.corr.toNat / 20) ∧
       ((startStamp m trx).2 = true ↔ trx.toNat + m.lead.toNat < trx.toNat + 4000 + m.corr.toNat / 20)))

/-- R289, R302, R307: the device numbers and floods its announcement; a new announcement is taken and passed on by every
other ring, a known one is dropped; a group's members are those that announce it, led by the lowest number.
It rests also on what the model chose or inferred: log entries 82, 83, 128. -/
def Obligations.TopologyFloodsOnceAndLeads : Prop :=
  (∀ s : State, s.live = true → s.fabricUp = true →
    let s1 := { s with topoSeq := s.topoSeq + 1 }
    exec .topologyAnnounce s = .next ((s1.rings.foldl (fun s e => s.send (.ring e) (.announce (s.announcement e)))
      s1).reroute.regroup)) ∧
  (∀ (s : State) (e : EngineId) (a : Announcement), s.live = true → s.fabricUp = true → s.ringUp e = true →
    ((a.dev = s.devNum ∨ (a.dev, a.seq) ∈ s.topoSeen) → exec (.topologyAnnouncementReceive e a) s = .next s) ∧
    (a.dev ≠ s.devNum → (a.dev, a.seq) ∉ s.topoSeen → 
      let s1 := { s with
        topoSeen := s.topoSeen ++ [(a.dev, a.seq)], topology := Store.set s.topology a.dev.toNat a }
      exec (.topologyAnnouncementReceive e a) s = .next (((s1.rings.filter fun r => r != e).foldl
        (fun s r => s.send (.ring r) (.announce a)) s1).reroute.regroup))) ∧
  (∀ (s : State) (g : GroupId), s.announcers g ≠ [] →
    let x := (s.regroupOne g).group g
    x.members = s.announcers g ∧ x.leader ∈ x.members ∧ (∀ d ∈ x.members, x.leader.toNat ≤ d.toNat) ∧
    (x.role = if s.devNum ∈ x.members then (if x.leader = s.devNum then 2 else 1) else 0))

/-- R11, R296, R299, R301, R303: a reception by a port that carries fabric frames completes, with the effect of its case: a
frame with a wrong CRC or length is dropped and counted, one with a reserved field set is discarded; a sound one with hops
left goes on by the opposite port with one hop less, and one at its last hop for this device is delivered.
R304, R305, R306: a reception on a link that is up completes, with the effect of its case: a datagram is served only from
the registered address and port of its slot, with a sound header, whole and addressed to the node's transport port; a
solicitation of an address of the node is answered and learned and one of another address is not, an advertisement is
learned, an echo request is answered.
It rests also on what the model chose or inferred: log entries 86, 128, 129, 130, 131, 193, 197, 200, 220, 221. -/
def Obligations.FramesAndDatagramsAreServed : Prop :=
  (∀ (s : State) (p : PortId) (l : List Byte) (trx : Stamp), s.live = true → (s.port p).st = 2 → (s.port p).eth = false →
     let s1 := (s.reach trx).modPort p fun x => x.traffic (4 + leAt l 0 1 / 16 % 4) l.length
     let seg := leAt l 20 1 % 4
     let word := leAt l (12 + 2 * seg) 2
     let l1 := patch l (12 + 2 * seg) (leBytes 2 (word - 1))
     let next := if seg < 3 then leAt l1 (14 + 2 * seg) 2 else 0
     let sound := 36 ≤ l.length ∧ frameSound l = true ∧
       (classesOf (leAt l 1 1)).contains (leAt l 0 1 / 16 % 4) = true
     (¬ sound → exec (.fabricFrameReceive p l trx) s =
       .next (s1.modEngine (engineOf p) fun x => { x with crcErr := satAdd x.crcErr 1 })) ∧
     (sound → frameClean l = false → exec (.fabricFrameReceive p l trx) s = .next s1.discard) ∧
     (sound → frameClean l = true →
       (1 < word % 256 → leAt l 9 1 % 2 = 0 → (s.port (oppositePort p)).st ≠ 0 → (s.port (oppositePort p)).eth = false →
         exec (.fabricFrameReceive p l trx) s = .next (s1.emitFrame l1 (oppositePort p) trx 32)) ∧
       (word % 256 = 1 → next % 256 = 0 → leAt l 9 1 % 2 = 0 → leAt l1 8 1 = s.devNum.toNat →
         exec (.fabricFrameReceive p l trx) s = .next (s1.deliverFrame p (leAt l 0 1 / 16 % 4) (leAt l 1 1)
           (BitVec.ofNat 8 (leAt l 6 1)) (BitVec.ofNat 64 (leAt l 24 8)) trx (slice l 32 (leAt l 2 2)))) ∧
       (word % 256 = 0 → exec (.fabricFrameReceive p l trx) s =
         .next (s1.modEngine (engineOf p) fun x => { x with misroute := satAdd x.misroute 1 })))) ∧
  ((∀ (s : State) (link : Nat) (addr : BitVec 128) (port : BitVec 16) (l : List Byte) (u : UdpHead) (p : PartId)
     (slot : HostSlot), s.dictReady = true → s.linkUp link = true → slot.val = leAt l 4 1 % 16 → p.val = leAt l 5 1 % 8 →
     let sound := s.udpOk link u = true ∧ 20 ≤ l.length ∧ datagramSound l = true
     let known := s.slotRegistered p slot.val = true ∧ s.slotPair p slot.val = (addr.toNat, port.toNat)
     (u.plain = false ∨ u.sumOk = false ∨ u.dstPort.toNat ≠ s.dval 0x2320 0 → s.udpOk link u = false) ∧
     (¬ (sound ∧ known) → exec (.transportDatagramReceive link addr port l u) s = .next s.discard) ∧
     (sound → known → exec (.transportDatagramReceive link addr port l u) s =
       .next (s.takeDatagram p slot (BitVec.ofNat 32 (leAt l 8 4)) (leAt l 1 1) (slice l 16 (leAt l 2 2))))) ∧
   (∀ (s : State) (link : Nat) (src : BitVec 128) (mac : BitVec 48) (solicit : Option (BitVec 128)), s.dictReady = true →
     s.linkUp link = true →
     exec (.icmpv6Receive link src mac solicit true) s = .next (s.emit (.link link) (.echoReply src)) ∧
     (let s1 := { s with
       neighbours := (s.neighbours.filter fun x => !(x.link == link && x.addr == src)) ++
         [{ link, addr := src, mac, seen := s.now, probed := none }]
       unresolved := s.unresolved.filter fun x => decide (x.1 ≠ src) }
      exec (.icmpv6Receive link src mac none false) s = .next s1 ∧
      ∀ target, exec (.icmpv6Receive link src mac (some target) false) s =
       .next (if s.ownAddress link target then s1.emit (.link link) (.neighbour src) else s))))

/-- R277 to R279, R285 to R295: a failed lane takes the spare, a second one retrains; a failing laser hands over when the
other input is OK, or its engine goes to BYPASS with cause 5; a full training sends the port's record
and ends up on the 8 best lanes with its measurements, or down at the stage that ran out; a partner's record is checked.
R278, R280 to R284, R316: every cause moves the switch of an engine in Ronor mode to BYPASS and none moves it in
Ethernet mode; it moves to THROUGH only when every condition holds, with the engine's inputs as they stand then, and never
without HOLDUP_OK; in THROUGH both ports start to train; beacons carry the stamps of the last one received.
It rests also on what the model chose or inferred: log entries 30, 51 to 59, 220, 224. -/
def Obligations.OpticalEnginesTrainAndSwitch : Prop :=
  (∀ (s : State) (p : PortId),
     let e := engineOf p
     let x := s.port p
     (∀ lane : Fin 8, x.st = 2 → x.eth = false → x.laneMap.length = 9 →
       (x.spareFor = 0xF → exec (.laneSwap p lane) s = .next ((s.modPort p fun x => { x with
         spareFor := BitVec.ofNat 4 lane.val, laneSwaps := satAdd x.laneSwaps 1
         laneMap := (x.laneMap.set lane.val (x.laneMap.getD 8 0)).set 8 (x.laneMap.getD lane.val 0) }).opticsEvent e
           clsCorrected)) ∧
       (x.spareFor ≠ 0xF → exec (.laneSwap p lane) s = .next (s.retrain p 1))) ∧
     (∀ i : EngineIn, (s.engine e).laser = 0 →
       (i.l1Ok = true → ∃ s', exec (.laserFailover ⟨e, i⟩) s = .next s' ∧ (s'.engine e).laser = 1 ∧
         (s'.engine e).l0Ok = false ∧ (s'.engine e).failovers = satAdd (s.engine e).failovers 1 ∧
         (x.st = 2 → (s'.port p).st = 1 ∧ (s'.port p).stage = 2 ∧ (s'.port p).retrains = satAdd x.retrains 1)) ∧
       (i.l1Ok = false → (s.engine e).ethMode = false → (s.engine e).ethHeld = false →
         ∃ s', exec (.laserFailover ⟨e, i⟩) s = .next s' ∧ (s'.engine e).laser = 2 ∧ (s'.engine e).bypReason = 5 ∧
           ((s'.engine e).switch = .bypass ∨ (s'.engine e).switch = .toBypass) ∧ (s'.port p).st = 0)) ∧
     (∀ m : Training, (s.engine e).switch = .through → s.engineOn e = true → (s.engine e).ethMode = false →
       m.fast = false →
       let y := (s.engine e).take m.inputs
       let laser := if (s.port (oppositePort p)).st = 2 ∧ y.inputOk y.laser = true then y.laser else y.pickLaser
       laser ≠ 2 →
       (m.failed.val = 0 → 8 ≤ m.lanesBest.eraseDups.length → x.partner ≠ none → 0 ≤ marginOf m.rxpwr →
         640 ≤ m.rtt.toNat → ∃ s', exec (.linkTraining p m) s = .next s' ∧ (s'.port p).st = 2 ∧ (s'.port p).lanes = 8 ∧
           (s'.port p).laneMap = m.lanesBest.eraseDups.take 9 ∧ (s'.port p).rtt = m.rtt ∧
           (s'.port p).length.toNat = m.rtt.toNat - 640 ∧
           (marginOf m.rxpwr ≤ 127 → (s'.port p).margin.toInt = marginOf m.rxpwr) ∧
           (s'.engine e).laser = laser ∧ ∃ r, (.partner p, .capability r) ∈ s'.sent) ∧
       (m.failed.val ≠ 0 → (m.failed.val ≤ 4 ∨ 8 ≤ m.lanesBest.eraseDups.length) →
         (m.failed.val = 7 → x.partner ≠ none) → ∃ s', exec (.linkTraining p m) s = .next s' ∧ (s'.port p).st = 0 ∧
           (s'.port p).stage = BitVec.ofNat 3 m.failed.val ∧ (s'.port p).failures = x.failures + 1)) ∧
     (x.st = 0 → x.stage ≠ 0 → (s.engine e).switch = .through → s.engineOn e = true →
       exec (.trainingStageTimeout p) s = .next (s.modPort p fun y => { y with
         st := 1, stage := if x.failures % 10 = 0 then 1 else 2, lanes := 0, spareFor := 0xF, fast := false })) ∧
     (∀ r : CapRec, (s.engine e).switch = .through → (s.engine e).ethMode = false → r.rsvd = 0 →
       let bad := r.fabver ≠ 1 ∨ r.portid.toNat % 2 = p.val % 2
       (¬ bad → r.srcnum.extractLsb' 16 8 ≠ s.devNum → exec (.capabilityRecordReceive p r) s =
         .next (s.modPort p fun y => { y with partner := some r, miswire := false, dupnum := false }).reroute.regroup) ∧
       (bad → (s.engine e).ethHeld = false → ∃ s', exec (.capabilityRecordReceive p r) s = .next s' ∧
         (s'.port p).miswire = true ∧ (s'.engine e).bypReason = 8 ∧ (s'.port p).st = 0))) ∧
  (∀ (s : State) (e : EngineId),
     (∀ i : EngineIn,
       let s0 := s.modEngine e fun x => x.take i
       (∀ cause : BitVec 8, s0.causePresent e cause.toNat = true → (cause ≠ 7 ∨ (s.engine e).switch = .bypass) →
         ((s.engine e).ethMode = false → (s.engine e).ethHeld = false → ∃ s', exec (.bypassMove ⟨e, i⟩ cause) s = .next s' ∧
           (s'.engine e).switch = (if (s.engine e).switch = .bypass then .bypass else .toBypass) ∧
           (s'.engine e).bypReason = cause ∧ ∀ p ∈ portsOf e, (s'.port p).st = 0) ∧
         ((s.engine e).ethMode = true → exec (.bypassMove ⟨e, i⟩ cause) s = .next s0)) ∧
       ((s.engine e).switch = .bypass → s0.mayThrough e = true →
         exec (.throughMove ⟨e, i⟩) s = .next (s0.modEngine e fun x => { x with switch := .toThrough })) ∧
       (i.holdup = false → exec (.throughMove ⟨e, i⟩) s = .next s0)) ∧
     ((s.engine e).switch = .toBypass →
       exec (.switchMoveDone e) s = .next ((s.modEngine e fun x => { x with switch := .bypass }).pairPower e)) ∧
     ((s.engine e).switch = .toThrough → s.engineOn e = true → ∃ s', exec (.switchMoveDone e) s = .next s' ∧
       (s'.engine e).switch = .through ∧ ∀ p ∈ portsOf e, (s'.port p).st = 1 ∧ (s'.port p).stage = 1) ∧
     (∀ p : PortId, (s.port p).st = 2 → (s.port p).eth = false → s.tracing ≠ [] →
       exec (.beaconSend p) s = .next (s.send (.partner p) (.beacon
         { echoTx := (s.port p).lastBeaconTx, echoRx := (s.port p).lastBeaconRx, portid := BitVec.ofNat 8 p.val })) ∧
       ∀ (b : Beacon) (ts trx : Stamp), ∃ s', exec (.beaconReceive p b ts trx) s = .next s' ∧
         (s'.port p).lastBeaconTx = ts ∧ (s'.port p).lastBeaconRx = trx ∧
         ∀ q, (s'.part q).strand.seq = (s.part q).strand.seq + (if q ∈ s.tracing then 1 else 0)))

/-- R450 to R456: an alert that leaves its cluster pulls ALERT_N low until 2 µs later, becomes LastAlert and counts in
AlertCount, and marks no frame; an alert message of the group becomes LastAlert of its partitions; ALERT_N rises unless
the device is device-fatal.
It rests also on what the model chose or inferred: log entries 64, 124, 125, 136. -/
def Obligations.AlertsPulseAndAreKept : Prop :=
  ∀ s : State,
    (∀ (c : ClusterId) (m : AlertMsg) (rest : List (Nat × AlertMsg)), s.live = true →
      s.alert.inCluster = (c.val, m) :: rest → (s.part m.part.toFin).slackStopped = false →
      (s.part m.part.toFin).kind4 = none → ∃ s', exec (.alertLeavesCluster c) s = .next s' ∧
        s'.alert.inCluster = rest ∧ s'.pins.alertLow = true ∧ s'.alert.pulseEnd = s.now + 2000 ∧
        s'.alert.alerts = satAdd s.alert.alerts 1 ∧ (s'.part m.part.toFin).lastAlert = some m ∧
        (s'.part m.part.toFin).alertCount = (s.part m.part.toFin).alertCount + 1 ∧ s'.tiles = s.tiles ∧
        ∀ p, (s'.part p).run.marked = (s.part p).run.marked) ∧
    (∀ (g : GroupId) (m : AlertMsg), s.live = true → ∃ s', exec (.alertMessageReceive g m) s = .next s' ∧
      (∀ p, s'.part p = if p ∈ s.groupParts g then { s.part p with lastAlert := some m } else s.part p) ∧
      { s' with parts := s.parts } = s) ∧
    (s.pins.alertLow = true →
      (s.alert.fatal = true → exec .alertPulseEnd s = .next s) ∧
      (s.alert.fatal = false → exec .alertPulseEnd s = .next { s with
        now := if s.now < s.alert.pulseEnd then s.alert.pulseEnd else s.now
        pins := { s.pins with alertLow := false } }))

/-- R321, R329, R417, R445, R446, R448, R479: a partition-fatal fault withholds the partition's frame, dumps and resets it,
and leaves the scratchpads and images of the others; an armed partition waits for its Slack stop; a guest that does not
answer and the frame watchdog are partition-fatal; a reset partition boots its guest again.
R447: a device-fatal fault halts every partition that is not DISABLED, keeps ALERT_N low, takes D20 to D23 down, dumps,
and stops the device; without an armed partition at once.
It rests also on what the model chose or inferred: log entries 35, 61, 62, 64, 69, 190, 226, 229. -/
def Obligations.FatalFaultsResetOrStop : Prop :=
  (∀ (s : State) (p : PartId), s.live = true →
     let isReset (s' : State) : Prop := (s'.part p).image = none ∧ (s'.part p).run.active = false ∧
       (s'.part p).guestBooted = false ∧ (s'.part p).ready = false ∧ (s'.part p).area.staged = [] ∧
       (s.enabled p = true → (s'.part p).st = .resetting) ∧ (∀ q, q ≠ p → (s'.part q).image = (s.part q).image) ∧
       ∀ t, t ∉ s.tilesOf p → (bandOf (clusterOf t) ∈ s.bandsOf p →
         (s.band (bandOf (clusterOf t))).ordered = false ∧ s.dom (bandOf (clusterOf t)).val ≠ .switching) →
         (s'.tile t).sp = (s.tile t).sp
     (∀ (detail : BitVec 8) (src : BitVec 24), (s.part p).st ≠ .disabled → 16 ≤ detail.toNat → detail.toNat ≤ 20 →
       (s.armed p = false → ∃ s', exec (.partitionFatal p detail src) s = .next s' ∧ isReset s' ∧ s'.dump ≠ none ∧
         ((s.part p).run.active = true → (s'.part p).withheld = satAdd (s.part p).withheld 1)) ∧
       (s.armed p = true → (s.part p).slackStopped = false → ∃ s', exec (.partitionFatal p detail src) s = .next s' ∧
         s'.slack.after = some (some p, detail, src) ∧ s'.tiles = s.tiles ∧ (s'.part p).image = (s.part p).image)) ∧
     (s.enabled p = true → (s.part p).st ≠ .disabled → ∃ s', exec (.partitionReset p) s = .next s' ∧ isReset s') ∧
     ((s.part p).guestBooted = true → s.armed p = false →
       (∃ s', exec (.guestUnanswered p) s = .next s' ∧ isReset s' ∧ s'.dump ≠ none) ∧
       ∀ a, s.guestMaps p a = false → exec (.guestPageFault p a) s =
         .next (s.raise 0x0011 clsNone (s.srcH 0 p.val) noIds (some p) (leBytes 8 a.addr.toNat))) ∧
     ((s.part p).run.active = true → (s.part p).slackStopped = false → s.armed p = false →
       ∃ s', exec (.frameWatchdog p) s = .next s' ∧ isReset s' ∧ s'.dump ≠ none) ∧
     (s.phase = .service → s.enabled p = true → (s.part p).guestBooted = false → s.coresUp p = true →
       exec (.guestBootComplete p true) s =
         .next (s.modPart p fun pt => { pt with guestBooted := true, guestFailed := false, st := .empty }).fabricIfReady ∧
       exec (.guestBootComplete p false) s = .next (((s.modPart p fun pt => { pt with guestFailed := true, st := .disabled }).raise
         0x0011 clsNone (s.srcH 0 p.val) noIds (some p) []).fabricIfReady)) ∧
     (∀ d : Dump, s.dump = some d → d.waiting.getLsbD p.val = true →
       let w := d.waiting &&& ~~~ (BitVec.ofNat 8 (2 ^ p.val))
       exec (.dumpRelease p) s = .next { s.modPart p (fun pt => { pt with dumpHeld := false }) with
         dump := if w = 0 then none else some { d with waiting := w } })) ∧
  (∀ (s : State) (detail : BitVec 8) (src : BitVec 24), s.running = true → 1 ≤ detail.toNat → detail.toNat ≤ 7 →
     (detail.toNat < 4 ∨ ∀ p, s.armed p = false) →
     ∃ s', exec (.deviceFatal detail src) s = .next s' ∧ s'.phase = .fatal ∧ s'.alert.fatal = true ∧
       s'.pins.alertLow = true ∧ s'.pins.bypEn = false ∧ s'.dump ≠ none ∧
       (∀ n, 20 ≤ n → n ≤ 23 → s'.dom n = .off) ∧
       ∀ p, (s.part p).st ≠ .disabled → (s'.part p).st = .halted ∧ (s'.part p).run.active = false ∧
         (s'.part p).ready = false ∧ (s'.part p).armed = false)

/-- R330, R341, R342, R344, R347: a write, also with complete access, is answered: where a part of it fails a check, with
that abort code and no effect but LastAbort; else every part takes effect in order, a data entry staged in its writer's set, a
commit entry submitting it, a mapping entry at once.
R334, R336, R341, R344, R345: a read is answered with the values of its entries as bytes, from the snapshot of their
area, and clears an entry that clears on reading; a read or a list with a failing item is answered with its abort code; SDO
information lists the indexes.
It rests also on what the model chose or inferred: log entries 101 to 103, 132, 170, 228. -/
def Obligations.WritesStageAndReadsAnswer : Prop :=
  ((∀ (s : State) (w : Writer) (i : BitVec 16) (sub : BitVec 8) (c : Bool) (data : List Byte), s.mayAsk w = true →
     let n := i.toNat
     let parts := writeParts n sub.toNat c data
     let answer (s : State) (r : Except Abort (List Byte)) : State := s.answer w (s.askedBy w) n sub.toNat r 0 true
     (∀ a, parts.findSome? (fun x => s.writeFault w n x.1 x.2) = some a →
       exec (.sdoWrite w i sub c data) s = .next (answer s (.error a))) ∧
     (parts.findSome? (fun x => s.writeFault w n x.1 x.2) = none →
       (n < 0x2000 →
         let mapped : State := { s with mapping := parts.foldl (fun m x => Store.set m (dkey n x.1) (leNat x.2)) s.mapping }
         let tooLong := (n = 0x1600 ∨ n = 0x1A00) ∧ 1024 < mapped.mapBytes n
         (¬ tooLong → exec (.sdoWrite w i sub c data) s = .next (answer mapped (.ok []))) ∧
         (tooLong → exec (.sdoWrite w i sub c data) s = .next (answer s (.error
           { reason := 0x0B, code := 0x06040042, key := (parts.map fun x => dkey n x.1).headD 0 })))) ∧
       (∀ k d, parts = [(k, d)] → dkey n k = commitKey (areaOf n) →
         exec (.sdoWrite w i sub c data) s = .next (answer (s.submit w (areaOf n)) (.ok []))) ∧
       (0x2000 ≤ n → (∀ x ∈ parts, dkey n x.1 ≠ commitKey (areaOf n)) →
         let set := parts.foldl (fun l x => assocSet l (dkey n x.1) (leNat x.2)) ((s.area (areaOf n)).setOf w)
         (setFits set = true → exec (.sdoWrite w i sub c data) s = .next (answer (s.modArea (areaOf n) fun x =>
           { x with staged := assocSet x.staged w set }) (.ok []))) ∧
         (setFits set = false → exec (.sdoWrite w i sub c data) s = .next (answer s
           (.error { reason := 7, code := 0x05040005, key := dkey n (parts.headD (0, [])).1 })))))) ∧
   (∀ (s : State) (i : BitVec 16) (sub : BitVec 8) (v : BitVec 32), s.mayAsk .coe = true → i.toNat < 0x2000 →
     let n := i.toNat
     let size := entrySize n sub.toNat
     let data := leBytes (if v.toNat < 2 ^ (8 * size) then size else 4) v.toNat
     let answer (s : State) (r : Except Abort (List Byte)) : State := s.answer .coe .ecat n sub.toNat r 0 true
     (∀ a, s.writeFault .coe n sub.toNat data = some a →
       exec (.pdoMappingWrite i sub v) s = .next (answer s (.error a))) ∧
     (s.writeFault .coe n sub.toNat data = none →
       let mapped : State := { s with mapping := Store.set s.mapping (dkey n sub.toNat) (leNat data) }
       let tooLong := (n = 0x1600 ∨ n = 0x1A00) ∧ 1024 < mapped.mapBytes n
       (¬ tooLong → exec (.pdoMappingWrite i sub v) s = .next (answer mapped (.ok []))) ∧
       (tooLong → exec (.pdoMappingWrite i sub v) s = .next (answer s (.error
         { reason := 0x0B, code := 0x06040042, key := dkey n sub.toNat }))))) ∧
   (∀ (s : State) (w : Writer) (a : Abort) (i sub : Nat), (w = .coe ∨ w = .pdo ∨ w = .firmware) →
     (s.answer w .ecat i sub (.error a) 0 true).sent = s.sent ++ [(.ecat, .sdo a.code [])])) ∧
  ((∀ (s : State) (w : Writer) (i : BitVec 16) (sub : BitVec 8) (c : Bool), s.mayAsk w = true →
     let n := i.toNat
     let subs := if c = true ∧ subsOf n ≠ [] then subsOf n else [sub.toNat]
     let r := s.readMany w (subs.map fun x => (n, x))
     (∀ a, subs.findSome? (s.readFault w n) = some a → exec (.sdoRead w i sub c) s =
       .next (s.answer w (s.askedBy w) n sub.toNat (.error a) 0 true)) ∧
     (subs.findSome? (s.readFault w n) = none → exec (.sdoRead w i sub c) s = .next ((r.1.noteSnap w (areaOf n)).answer w
       (s.askedBy w) n sub.toNat (.ok r.2.flatten) (s.snapOf (areaOf n)).2 !s.frameView (areaOf n)))) ∧
   (∀ (s : State) (w : Writer) (n sub : Nat), s.readMany w [(n, sub)] =
     (s.clearRc n sub (s.readVal w n sub), [leBytes (entrySize n sub) (s.readVal w n sub)])) ∧
   (∀ (s : State) (p : PartId) (slot : HostSlot) (seq : BitVec 32) (items : List ListItem),
     s.mayAsk (.host p slot) = true →
     let w : Writer := .host p slot
     let to_ : Dest := .via (.transport p slot seq)
     let sound : Prop := items ≠ [] ∧ items.length ≤ 64 ∧ ∀ x ∈ items, x.rsvd = 0
     let keys := items.map fun x => (x.index.toNat, x.sub.toNat)
     let first := keys.headD (0, 0)
     let fault := keys.findSome? fun x => s.readFault w x.1 x.2
     let r := s.readMany w keys
     (¬ sound → exec (.readList p slot seq items) s = .next { s with discarded := s.discarded + 1 }) ∧
     (sound → r.2.length = items.length ∧
       (∀ f, fault = some f → exec (.readList p slot seq items) s =
         .next (s.answer w to_ (f.key / 256) (f.key % 256) (.error f) 0 true)) ∧
       (fault = none → exec (.readList p slot seq items) s = .next ((r.1.noteSnap w (.view p)).answer w to_ first.1 first.2
         (.ok (r.2.flatMap pad4)) (s.snapOf (.view p)).2 !s.frameView (.view p))))) ∧
   (∀ (s : State) (i : BitVec 16) (sub : BitVec 8), s.mayAsk .coe = true →
     let n := i.toNat
     let refuse (code : BitVec 32) : State := s.answer .coe .ecat n sub.toNat
       (.error { reason := 1, code, key := dkey n sub.toNat }) 0 true
     exec (.sdoInformation i sub 0) s = .next (s.emit .ecat (.sdo 0 (allIndexes.flatMap (leBytes 2)))) ∧
     exec (.sdoInformation i sub 1) s = .next
       (if subsOf n = [] then refuse 0x06020000 else s.emit .ecat (.sdo 0 (objectInfo n))) ∧
     (subsOf n = [] → exec (.sdoInformation i sub 2) s = .next (refuse 0x06020000)) ∧
     (subsOf n ≠ [] → entry? n sub.toNat = none → exec (.sdoInformation i sub 2) s = .next (refuse 0x06090011)) ∧
     (∀ e, subsOf n ≠ [] → entry? n sub.toNat = some e →
       exec (.sdoInformation i sub 2) s = .next (s.emit .ecat (.sdo 0 (entryInfo n sub.toNat e))))))

/-- R331, R332, R333, R335: a commit that passes its check is accepted: its set leaves its writer's staging and joins the
queue of its area with the area's next sequence number; one that fails names the first failing entry, takes no number and
stays staged; a commit that re-arms acts on a HALTED partition.
R325, R332, R343: device-area commits come into force at the tick with their result APPLIED; a partition whose layout
record changes is unloaded, loses its guest, and has the new record in force.
It rests also on what the model chose or inferred: log entries 112, 113, 134, 135, 225. -/
def Obligations.CommitsQueueAndApply : Prop :=
  ((∀ (s : State) (w : Writer) (a : AreaId), s.mayAsk w = true →
     s.writeFault w (commitKey a / 256) (commitKey a % 256) [1] = none →
     let done := (s.submit w a).answer w (s.askedBy w) (commitKey a / 256) (commitKey a % 256) (.ok []) 0 true
     exec (.commit w a) s = .next done ∧
     (∀ p, a = .view p → (s.part p).st = .halted → rearms ((s.part p).area.setOf w) = true →
       exec (.rearm w p) s = .next done)) ∧
   (∀ (s : State) (w : Writer) (a : AreaId),
     let ar := s.area a
     let set := ar.setOf w
     (∀ p, a = .view p → (s.part p).st ≠ .halted ∧ (s.part p).image ≠ none) → ar.queue.length < 15 →
     (s.setFault a set = none → (s.submit w a).area a = { ar with
       seq := ar.seq + 1, staged := ar.staged.filter fun y => y.1 != w
       queue := ar.queue ++ [{ seq := ar.seq + 1, writer := w, set }]
       results := assocSet ar.results w { seq := ar.seq + 1, status := stAccepted } }) ∧
     (∀ k n, s.setFault a set = some (k, n) → (s.submit w a).area a = { ar with
       results := assocSet ar.results w
         { status := stCheck, index := keyField k, short := BitVec.ofNat 64 n } }))) ∧
  ((∀ (s : State) (c : PendCommit), s.phase = .service → s.devArea.queue = [c] → (∀ p, (s.part p).layoutNew = none) →
     (∀ x ∈ c.set, (x.1 / 256 < 0x2100 ∨ 0x2107 < x.1 / 256) ∧
       ∃ e, entry? (x.1 / 256) (x.1 % 256) = some e ∧ e.acc.1 = .w) →
     (c.set.map fun x => x.1).Nodup →
     ∃ s', exec .deviceCommitApply s = .next s' ∧ s'.devArea.queue = [] ∧
       (∀ x ∈ c.set, Store.get 0 s'.dict x.1 = x.2) ∧
       (∀ k, k ∉ c.set.map (fun x => x.1) → Store.get 0 s'.dict k = Store.get 0 s.dict k) ∧
       ((assocGet {} s.devArea.results c.writer).seq = c.seq →
         (assocGet {} s'.devArea.results c.writer).status = stApplied)) ∧
   (∀ (s : State) (p : PartId) (v : Nat), s.live = true → (s.part p).layoutNew = some v →
     (({ s with dict := Store.set s.dict (dkey (0x2100 + p.val) 0) 0 } : State).layoutFits p v = true) →
     (∀ q, q ≠ p → (s.part q).layoutNew = none) →
     (s.part p).run.active = false → (s.part p).armed = false →
     ((s.part p).boundaryDue = true ∨ (s.part p).image = none ∨ (s.part p).st = .halted) →
     ∃ s', exec (.layoutChange p) s = .next s' ∧ s'.layout p = v ∧ (s'.part p).layoutNew = none ∧
       (s'.part p).image = none ∧ (s'.part p).guestBooted = false ∧ (s'.part p).area.queue = [] ∧
       (s'.part p).area.staged = (s.part p).area.staged ∧
       (s'.part p).st = if bitN v 0 && s'.coresUp p then .empty else .disabled))

/-- R337, R338, R346: a transition that the state machine has is made, and one to INIT ends the sessions and the mapping;
another sets the error flag; the sync manager watchdog takes OP to SAFEOP; the process images are taken and filled in the
states that R338 names.
It rests also on what the model chose or inferred: log entries 104 to 107, 216. -/
def Obligations.EcatStatesAndProcessData : Prop :=
  ∀ s : State,
    (∀ (t : EcatState) (dc : Option (BitVec 32)), s.ecatServed = true →
      let inRange : Prop := ∀ n, dc = some n → 100000 ≤ n.toNat
      (s.ecatLegal t = true → t ≠ .init → (t = .boot ∨ inRange) → exec (.ecatStateTransition t dc) s = .next { s with
        ecat := { s.ecat with st := t, err := false, al := 0, dc := if t = .boot then none else dc } }) ∧
      (s.ecatLegal t = true → t ≠ .init → t ≠ .boot → ¬ inRange → exec (.ecatStateTransition t dc) s =
        .next { s with ecat := { s.ecat with err := true, al := 0x0035 } }) ∧
      (t = .init → ∃ s', exec (.ecatStateTransition t dc) s = .next s' ∧ s'.ecat.st = .init ∧ s'.mapping = [] ∧
        s'.ecat.dc = none ∧ s'.ecat.txDue = false ∧ ∀ (a : AreaId) (x : Writer × List (Nat × Nat)),
          x ∈ (s'.area a).staged → x.1 ≠ .coe ∧ x.1 ≠ .pdo) ∧
      (s.ecatLegal t = false → exec (.ecatStateTransition t dc) s =
        .next { s with ecat := { s.ecat with err := true, al := 0x0011 } })) ∧
    (s.ecat.st = .op → exec .smWatchdogExpiry s =
      .next { s with ecat := { s.ecat with st := .safeop, err := true, al := 0x001B } }) ∧
    (∀ x : PdoEvent, s.dictReady = true →
      let s0 : State := if s.syncMet true x.event = true then { s with ecat := { s.ecat with txDue := true } } else s
      (s.syncMet false x.event = false → exec (.rxpdoTake x) s = .next s0) ∧
      (s.syncMet false x.event = true → s.ecat.st = .op →
        let l := s.mapped 0x1C12 0x1600
        x.data.length = l.foldl (fun n x => n + entrySize x.1 x.2) 0 →
        let xs := cutImage l x.data
        let s1 := (xs.filter fun x => !isPdoSeq x.1 x.2.1).foldl State.pdoStage s0
        exec (.rxpdoTake x) s = .next ((xs.filter fun x => isPdoSeq x.1 x.2.1).foldl State.pdoSubmit s1))) ∧
    (∀ y : Nat × Nat × List Byte, s.pdoHas y.1 y.2.1 = leNat y.2.2 → s.pdoStage y = s) ∧
    (∀ (tx : Bool) (e : SyncEvent), s.syncMet tx e = true →
      let mode := s.commVal (if tx then 0x1C33 else 0x1C32) 1
      (mode < 2 → e = .sm2 ∨ e = .timer) ∧ (mode = 2 → e = .sync0) ∧ (mode = 3 → e = if tx then .sync1 else .sync0)) ∧
    (s.dictReady = true → s.ecat.txDue = true → (s.ecat.st = .safeop ∨ s.ecat.st = .op) →
      let r := s.readMany .pdo (s.mapped 0x1C13 0x1A00)
      exec .txpdoFill s = .next (({ r.1 with ecat := { r.1.ecat with txDue := false } } : State).emit .ecat
        (.txpdo r.2.flatten))) ∧
    (s.ecat.txDue = false → exec .txpdoFill s = .next s)

/-- R192, R339, R351, R399, R400: an FoE image lands in its download area where 0x2110 allows it and ends a running
admission; a firmware image lands in the inactive slot, whose check makes it TRIAL or INVALID; a trial becomes GOOD once
the device serves; files are read back.
It rests also on what the model chose or inferred: log entries 114 to 117. -/
def Obligations.FilesAndFirmwareSlots : Prop :=
  ∀ s : State,
    (∀ (p : PartId) (ofs : Nat) (data : List Byte) (last : Bool), s.phase = .service → s.coeOpen = true →
      bitN (s.dval 0x2110 0) p.val = true → ofs + data.length ≤ 2 ^ 32 →
      exec (.foeWrite (.image p) 0 ofs data last) s = .next ((s.deliver p ofs data).emit .ecat (.foe 0 [])) ∧
      (∀ n,
        (let n' := min n ((s.part p).dlLen - ofs)
         (n' = 0 ∨ s.rangeHard (downloadBase p + ofs) n' false = false) →
         exec (.foeRead (.image p) 0 ofs n) s = .next (s.emit .ecat (.foe 0 (s.imgBytes p ofs n')))) ∧
        exec (.foeRead (.admission p) 0 ofs n) s = .next (s.emit .ecat (.foe 0 (slice (s.part p).result.bytes ofs n)))) ∧
      (∀ (f : FoeFile) (password : BitVec 32), password ≠ 0 →
        exec (.foeWrite f password ofs data last) s = .next (s.emit .ecat (.foe 0x8002 []))) ∧
      (s.hardIn (downloadBase p + ofs) data.length true = [] →
        (s.deliver p ofs data).hbm = Mem.writeBytes s.hbm (downloadBase p + ofs) data) ∧
      ((s.deliver p ofs data).part p).admission = none) ∧
    (∀ (ofs : Nat) (data : List Byte) (last : Bool), s.phase = .service → s.ecat.st = .boot →
      ofs + data.length ≤ 67108864 →
      let base : FwSlot := if ofs = 0 then {} else s.spareSlot
      exec (.foeWrite .firmware 0 ofs data last) s = .next ((s.putSpareSlot { base with
        mark := .written, ended := last, bytes := Mem.writeBytes base.bytes ofs data
        len := max base.len (ofs + data.length) }).emit .ecat (.foe 0 []))) ∧
    (s.spareSlot.mark = .written → s.spareSlot.ended = true → exec .firmwareSlotCheck s =
      .next (s.putSpareSlot { s.spareSlot with
        mark := if s.fwGood s.spareSlot then .trial else .invalid, ended := false
        misr := (List.range 30).map fun d => (d, Config.misr (Config.sha384 (Mem.readBytes s.spareSlot.bytes 0 64)) d) })) ∧
    (s.live = true → s.island.trial = true → s.bootedSlot.mark = .trial → s.fabricUp = true →
      ∃ s', exec .firmwareTrialGood s = .next s' ∧ s'.bootedSlot.mark = .good ∧ s'.island.trial = false ∧
        s.flash.slotA.order < s'.bootedSlot.order ∧ s.flash.slotB.order < s'.bootedSlot.order ∧
        s'.spareSlot = s.spareSlot)

/-- R373 to R382, R390, R391: a tick of power control attributes energy so that nothing of it is lost: what no share takes
goes to the residual of its queue; then the settings are chosen, the snapshots taken, and readiness is looked at again.
R376, R378: lowering settings stops as soon as the prediction is under the guard, and each step moves one partition
that is neither pinned nor halted to a setting that passes.
It rests also on what the model chose or inferred: log entries 89 to 92, 169, 214, 215. -/
def Obligations.PowerTicksAndLevers : Prop :=
  ((∀ (s : State) (m : PowerIn), s.live = true → exec (.powerControlTick m) s =
     .next (allParts.foldl State.tryReady (({ s with lastTick := s.now } : State).powerTick m).tickSnapshots)) ∧
   (∀ (s : State) (q e total : Nat) (shares : List Nat),
     let part (p : PartId) : Nat := if total = 0 then 0 else e * shares.getD p.val 0 / total
     (allParts.map fun p => shares.getD p.val 0).sum ≤ total →
     (allParts.map part).sum ≤ e ∧
     (∀ p, Store.get 0 ((s.divide q e shares total).part p).energy q =
       Store.get 0 (s.part p).energy q + BitVec.ofNat 64 (part p)) ∧
     Store.get 0 (s.divide q e shares total).residual q =
       Store.get 0 s.residual q + BitVec.ofNat 64 (e - (allParts.map part).sum))) ∧
  ((∀ (s : State) (n : Nat) (l : List (Nat × Nat)), s.predict l ≤ s.guardMw → s.reduce n l = l) ∧
   (∀ (s : State) (l l' : List (Nat × Nat)), s.pull l = some l' → ∃ p x, l' = l.set p.val x ∧
     s.movable p = true ∧ s.passes p (s.part p).skipK.toNat x = true ∧
     ((l.getD p.val (16, 0)).1 < x.1 ∧ x.2 = (l.getD p.val (16, 0)).2 ∨
       x.1 = (l.getD p.val (16, 0)).1 ∧ (l.getD p.val (16, 0)).2 < x.2)))

/-- R361, R364, R373, R384 to R389, R501, R502: samples are taken and the last four kept; a droop stretches the die unless
an alert hold or a pinned partition keeps it back; 105 °C throttles; a trip or a lost PLL is device-fatal; REF_OK follows
the reference.
It rests also on what the model chose or inferred: log entries 94, 95, 160. -/
def Obligations.SensorsDroopHeatAndClocks : Prop :=
  ∀ s : State,
    (s.live = true →
      (s.power.samples.length ≤ 4 → s.takeSample.power.samples.length = min 4 (s.power.samples.length + 1)) ∧
      (∀ l : List (Option Nat), exec (.pmbusSample l) s =
        .next (((List.range 16).zip l).foldl (fun s x => s.railRead x.1 x.2) s).takeSample) ∧
      (∀ l : List (BitVec 16), exec (.pmbAlert l) s = .next (((List.range 16).zip l).foldl (fun s x =>
        let s1 := { s with rails := Store.set s.rails x.1 { (Store.get {} s.rails x.1 : Rail) with status := x.2 } }
        if x.2 = 0 then s1 else s1.powerEvent [3, BitVec.ofNat 8 x.1]) s).takeSample) ∧
      (∀ d : DieId, ∃ s', exec (.stepAssert d) s = .next s' ∧
        ((if d = 0 then s'.pins.stepA else s'.pins.stepB) = true ↔
          ∃ x ∈ (s.die d).phases, s.stepDue d x = true) ∧
        s'.tiles = s.tiles) ∧
      (∀ (d : DieId) (r : Bool), (s.die d).stretching = false →
        let pinned : Prop := s.dieRunning d ≠ [] ∧ ∀ p ∈ s.dieRunning d, (s.part p).ff = true
        (pinned → exec (.droopEvent d false) s = .next s) ∧
        (r = true ∨ ¬ pinned →
          ((∃ x ∈ s.alert.inCluster, x.1 / 16 = d.val) → exec (.droopEvent d r) s =
            .next { s with alert := { s.alert with suppressed := satAdd s.alert.suppressed 1 } }) ∧
          ((∀ x ∈ s.alert.inCluster, x.1 / 16 ≠ d.val) → ∃ s', exec (.droopEvent d r) s = .next s' ∧
            (s'.die d).stretching = true ∧ (s'.die d).stretchEvents = satAdd (s.die d).stretchEvents 1 ∧
            (s'.die d).lastResort = (if (∃ p ∈ s.dieRunning d, (s.part p).ff = true) then
              satAdd (s.die d).lastResort 1 else (s.die d).lastResort) ∧
            ∀ p, p ∈ s.diePartitions d → (s.part p).run.active = true → (s'.part p).run.stretched = true))) ∧
      (∀ l : List (List (Option Int)), l.length = 3 → ∃ s', exec (.thermalSample l) s = .next s' ∧
        ∀ i : Nat, i < 3 → (Store.get {} s'.thermal i : Thermal) =
          ((Store.get {} s.thermal i : Thermal).sample (l.getD i []) (if i = 2 then 4 else 16) s.now).1)) ∧
    (∀ (x : Thermal) (l : List (Option Int)) (limit : Nat) (now : Stamp) (i : Nat) (v : Int), hottest l = some (i, v) →
      (1050 ≤ v → (x.sample l limit now).1.throttle = true) ∧
      (1030 ≤ v → x.throttle = true → (x.sample l limit now).1.throttle = true) ∧
      (v < 1050 → x.throttle = false → (x.sample l limit now).1.throttle = false)) ∧
    (∀ (d : DieId) (n : Nat), exec (.droopEventEnd ⟨d, n⟩) s = .next (s.modDie d fun x => if x.stretching then
      { x with stretching := false, stretchedBy := x.stretchedBy + n } else x)) ∧
    (s.running = true → ∀ i : Fin 3,
      (∃ s', exec (.thermalTrip i) s = .next s' ∧ s'.phase = .fatal ∧ s'.alert.fatal = true ∧
        (Store.get {} s'.thermal i.val : Thermal).tripped = true) ∧
      (∃ s', exec (.pllLockLoss i) s = .next s' ∧ s'.phase = .fatal ∧ s'.alert.fatal = true)) ∧
    (∀ ppm : Int, exec (.refclkLoss ppm) s =
      .next { s with rootClk := { s.rootClk with refOk := false, refPpm := ppmField ppm } } ∧
      (-300 ≤ ppm → ppm ≤ 300 → exec (.refclkRecovery ppm) s =
        .next { s with rootClk := { s.rootClk with refOk := true, refPpm := ppmField ppm } }))

/-- R226, R233, R235, R366 to R372: a band whose owners run no frame and have no ready out drains, and is OFF or in RET
once its accepted writes have landed or 4 µs have passed; OFF keeps repair and steering words alone, RET keeps the
scratchpad; a band that comes back is ON.
It rests also on what the model chose or inferred: log entries 5, 96 to 98, 189. -/
def Obligations.BandsDrainAndReturn : Prop :=
  ∀ (s : State) (b : BandId),
    let nothingLost : Prop := ∀ p ∈ s.bandOwners b, ∀ t : TileId, bandOf (clusterOf t) = b → t.val ∉ (s.part p).pageReload
    (s.live = true → s.dom b.val = .on → s.bandFree b = true →
      (s.bandWrites b = [] →
        (s.mustRet b = false → ∃ s', exec (.bandSwitchOff b) s = .next s' ∧ s'.dom b.val = .off ∧
          ∀ t, bandOf (clusterOf t) = b → (s'.tile t).sp = [] ∧ (s'.tile t).hasImage = false ∧
            (s'.tile t).repair = (s.tile t).repair ∧
            ∀ m, ((s'.tile t).mac m).bank0.steer = ((s.tile t).mac m).bank0.steer ∧
              ((s'.tile t).mac m).bank0.cells = []) ∧
        (∃ s', exec (.bandRetEntry b) s = .next s' ∧ s'.dom b.val = .ret ∧
          ∀ t, bandOf (clusterOf t) = b → (s'.tile t).sp = (s.tile t).landAll.sp ∧ (s'.tile t).ibuf = [] ∧
            (s'.tile t).handles = (s.tile t).handles) ∧
        (s.mustRet b = true → ∃ s', exec (.bandSwitchOff b) s = .next s' ∧ s'.dom b.val = .ret)) ∧
      (s.bandWrites b ≠ [] → ∃ s', exec (.bandSwitchOff b) s = .next s' ∧ s'.dom b.val = .switching ∧
        (s'.band b).draining = true ∧ s'.tiles = s.tiles)) ∧
    (s.live = true → s.dom b.val = .switching → (s.band b).draining = true → (s.band b).toRet = false →
      s.mustRet b = false →
      ∃ s', exec (.bandDrainTimeout b) s = .next s' ∧ s'.dom b.val = .off ∧ s'.bandWrites b = [] ∧
        (s'.band b).discards = satAdd (s.band b).discards (s.bandWrites b).length) ∧
    (s.live = true → s.startWord.failmap.getLsbD b.val = false →
      (s.dom b.val = .off → ∀ l, ∃ s', exec (.bandSwitchOn b l) s = .next s' ∧ s'.dom b.val = .switching ∧
        ∀ t, bandOf (clusterOf t) = b → (s'.tile t).repair = { (s.tile t).repair with chkEvents := 0 } ∧
          ∀ m, ((s'.tile t).mac m).bank0.st = .invalid) ∧
      (s.dom b.val = .switching → (s.band b).draining = false → nothingLost →
        let on := (s.setDom b.val .on).modBand b fun x => { x with onAt := s.bandClocks b }
        (∀ p ∈ s.bandOwners b, on.strands p b = false) →
        exec (.bandSwitchOn b []) s = .next ((s.bandOwners b).foldl State.tryReady on))) ∧
    (s.live = true → s.dom b.val = .ret → nothingLost →
      let on := (s.setDom b.val .on).modBand b fun x => { x with onAt := s.bandClocks b }
      exec (.bandRetExit b) s = .next ((s.bandOwners b).foldl State.tryReady ((bandTiles b).foldl
        (fun s t => s.modTile t fun tl => { tl with spBanks := freshBanks (s.tileAc t) }) on)))

/-- R417 to R422, R436: a power-on reset clears HBM and the dump, a warm and a watchdog reset keep them, with a
dump that is still being written incomplete; every reset keeps
what OTP and flash hold and ends before the start; the watchdog runs from its last restart; the operating time is written
every 10 min.
R388, R413, R416, R420 to R430: a start holds at step 1 while its conditions stand; a pending transition is completed first;
a tamper latch stops it; a slot that passes, with memories that pass, takes it to service with the watchdog running, and
without a slot it ends in the recovery loader. A shutdown withdraws, runs the Ebb test once no frame runs, writes its record
and ends with every domain but D28 off and SHDN_DONE.
It rests also on what the model chose or inferred: log entries 10, 154 to 157, 159, 161 to 163. -/
def Obligations.ResetsStartsAndShutdown : Prop :=
  (∀ s : State,
     let reset (s' : State) (cause : BitVec 3) : Prop := s'.phase = .inReset ∧ s'.startWord.cause = cause ∧ s'.otp = s.otp ∧
       s'.flash.ebb0 = s.flash.ebb0 ∧ s'.flash.ebb1 = s.flash.ebb1 ∧ s'.dict = s.flash.dict ∧ s'.ecat = {} ∧
       (∀ p, (s'.part p).image = none ∧ (s'.part p).run.active = false ∧ (s'.part p).ownerRsa = (s.part p).ownerRsa) ∧
       (∀ t, (s'.tile t).sp = [] ∧ (s'.tile t).repair.retired = (s.tile t).repair.retired ∧
         ∀ m, ((s'.tile t).mac m).bank0.cells = [] ∧ ((s'.tile t).mac m).bank0.steer = ((s.tile t).mac m).bank0.steer) ∧
       ∀ n, s'.dom n = if n = 28 then .on else .off
     (∃ s', exec .powerOnReset s = .next s' ∧ reset s' 0 ∧ s'.hbm = [] ∧ s'.dump = none ∧ s'.island.tamper = false) ∧
     (∃ s', exec .warmReset s = .next s' ∧ reset s' 1 ∧ s'.hbm = s.cutDump.hbm ∧ s'.dump = s.cutDump.dump ∧
       s'.island.tamper = s.island.tamper) ∧
     (s.watchdog.running = true →
       exec .watchdogRestart s = .next { s with watchdog := { s.watchdog with restartedAt := s.now } } ∧
       (s.watchdog.paused = false →
         let fired := s.reach (s.watchdog.restartedAt + 2000000000)
         ∃ s', exec .watchdogExpiry s = .next s' ∧ reset s' 2 ∧ s'.hbm = fired.cutDump.hbm ∧ s'.dump = fired.cutDump.dump)) ∧
     ((∀ d, s.dump = some d → 100000000 ≤ nsSince d.ts s.now) → s.cutDump = s) ∧
     (let due := s.opSince + 600000000000
      exec .operatingTimeWrite s = .next { s with
       now := if s.now < due then due else s.now, opSince := due
       flash := { s.flash with opMin0 := max s.flash.opMin0 s.flash.opMin1 + 10, opMin1 := max s.flash.opMin0 s.flash.opMin1 + 10 } })) ∧
  ((∀ (s : State) (m : StartIn), s.phase = .inReset →
     let s1 := (s.stepOne m).deriveKeys
     (startHolds m = true → exec (.startSequence m) s = .next (s.stepOne m)) ∧
     (startHolds m = false →
       (s.transition = true →
         let s2 : State := { s1 with startWord := { s1.startWord with resumed := true } }
         ((s2.memories m).2 = true → ∃ s', exec (.startSequence m) s = .next s' ∧ s'.phase = .inReset ∧ s'.hbm = [] ∧
           s'.otp = s.otp.complete) ∧
         ((s2.memories m).2 = false → ∃ s', exec (.startSequence m) s = .next s' ∧ s'.phase = .startFatal)) ∧
       (s.transition = false → s.island.tamper = true →
         ∃ s', exec (.startSequence m) s = .next s' ∧ s'.phase = .startFatal ∧ s'.alert.fatal = true) ∧
       (s.transition = false → s.island.tamper = false →
         let picked := s1.finishRaise.pickSlot m.slotAOk m.slotBOk
         (picked.2 = none → ∃ s', exec (.startSequence m) s = .next s' ∧ s'.phase = .loader ∧
           s'.watchdog.running = true ∧ s'.otp.raise = none) ∧
         (picked.2 ≠ none →
           let tested := (picked.1.logicTest m.signatures).memories m
           (tested.2 = true → ∃ s', exec (.startSequence m) s = .next s' ∧ s'.phase = .service ∧
             s'.watchdog.running = true ∧ s'.pins.bypEn = true ∧ (tested.1.guestsDone = true → s'.fabricUp = true)) ∧
           (tested.2 = false → exec (.startSequence m) s = .next tested.1.stopStart) ∧
           (m.stacksOk = false → tested.2 = false))))) ∧
   (∀ (s : State) (ns : Nat) (sig : List (BitVec 64)),
     (s.phase = .ebbWrite → exec (.shutdown ns sig) s = .next { s with
       phase := .shutDown, pins := { s.pins with shdnDone := true }
       flash := s.flash.putEbb (s.flash.ebb0.take 320 ++ s.ebbMac (s.flash.ebb0.take 320)) }) ∧
     (s.phase = .ebb → s.testing = true → ∃ s', exec (.shutdown ns sig) s = .next s' ∧ s'.phase = .ebbWrite ∧
       s'.pins.bypEn = false ∧ (∀ n, n < 30 → s'.dom n = if n = 28 then .on else .off) ∧
       s'.flash.ebb0 = s.ebbBody 0 sig ++ List.replicate 48 0 ∧ s'.watchdog.running = false) ∧
     (s.phase = .ebb → s.testing = false → ∃ s', exec (.shutdown ns sig) s = .next s' ∧ s'.testing = true ∧
       (∀ b : BandId, s'.dom b.val = .off) ∧ ∀ p, (s'.part p).image = none ∧ (s'.part p).run.active = false) ∧
     (s.phase = .service → ns < 1000000 → exec (.shutdown ns sig) s = .next s) ∧
     (s.phase = .service → 1000000 ≤ ns → ∃ s', exec (.shutdown ns sig) s = .next s' ∧ s'.phase = .ebb ∧
       s'.flash.ebb0 = [] ∧ s'.flash.ebb1 = [] ∧ s'.watchdog.paused = true ∧
       ((∃ p, (s.part p).run.active = true) → s'.testing = s.testing) ∧
       ((∀ p, (s.part p).run.active = false) → s'.testing = true))))

/-- R460, R461, R464, R466, R470: an offered record takes the next SEQ whether it is kept or lost, and a lost one counts in
DROPPED; RDPTR advances within the unread span alone; a counter sample is offered, a batch closes at its leader, and
CAPHELD is released.
It rests also on what the model chose or inferred: log entries 31, 36, 88, 127, 192. -/
def Obligations.RingOffersAndPointers : Prop :=
  (∀ (s : State) (p : PartId) (kind : Nat) (src : BitVec 24) (ts : Stamp) (ids : Ids) (fl : BitVec 8) (l : List Byte),
    let s' := s.offer p kind src ts ids fl l
    (s'.part p).strand.seq = (s.part p).strand.seq + 1 ∧ (∀ q, q ≠ p → s'.part q = s.part q) ∧ s'.tiles = s.tiles ∧
    ((s'.part p).strand.dropped = satAdd (s.part p).strand.dropped 1 ∧ s'.hbm = s.hbm ∨
      (s'.part p).strand.dropped = (s.part p).strand.dropped ∧ (s'.part p).strand.lossCount = 0) ∧
    (Config.slotBusy p.val (s.part p).strand.seq = true →
      (s'.part p).strand.dropped = satAdd (s.part p).strand.dropped 1)) ∧
  (∀ (s : State) (p : PartId), s.live = true → s.enabled p = true → 1 ≤ s.level p →
    (s.part p).slackStopped = false → ∀ m : SampleIn,
      let sampled := s.offer p 2 (s.srcH 1 0) s.now noIds (s.sampleFlags p) (s.sample p m)
      exec (.counterSample p m) s = .next (m.traces.foldl (fun s x => s.takeTrace p x) sampled)) ∧
  (∀ (s : State) (p : PartId), s.live = true → (s.part p).batch ≠ [] →
    let l := (s.part p).batch
    let payload := [s.devNum, BitVec.ofNat 8 p.val] ++ leBytes 2 l.length ++ List.replicate 12 0 ++ l.flatten
    let s1 := (s.modPart p fun pt => { pt with batch := [] }).offer p 5 (s.srcH 7 0) s.now noIds 0 payload
    (s.leaderOfPart p = s.devNum → exec (.traceBatchClose p) s = .next s1) ∧
    (∀ port route, s.leaderOfPart p ≠ s.devNum → s.routeUp? (s.leaderOfPart p) = some (port, route) →
      exec (.traceBatchClose p) s = .next ((s1.putFrame port (s.leaderOfPart p) route false false (.trace payload)).1.emit
        (.device (s.leaderOfPart p)) (.trace payload)))) ∧
  (∀ (s : State) (dev : BitVec 8) (g : GroupId) (l : List Byte), s.live = true → (s.group g).role = 2 → dev ≠ s.devNum →
    dev ∈ (s.group g).members → batchOk dev l = true → exec (.traceBatchReceive dev g l) s =
      .next (((s.groupParts g).filter fun p => decide (2 ≤ s.level p)).foldl
        (fun s p => s.offer p 5 (s.srcH 7 0) s.now noIds 0 l) s)) ∧
  (∀ (s : State) (p : PartId) (v : BitVec 28),
    let x := (s.part p).strand
    let ahead (v : Nat) : Nat := (v + recArea - x.rdptr.toNat) % recArea
    exec (.rdptrWrite p v) s = .next (s.modPart p fun pt => { pt with strand := { pt.strand with
      rdptr := if v.toNat % 64 = 0 ∧ v.toNat < recArea ∧ ahead v.toNat ≤ ahead x.wrptr.toNat then v else x.rdptr } }) ∧
    exec (.capheldRelease p) s =
      .next (s.modPart p fun pt => { pt with strand := { pt.strand with capHeld := false } }))

/-- R315, R471 to R478: a trigger of an armed partition, SLACK_N, or a new stop message makes a stop pending 64 ns ahead; at
its target every armed partition is stopped, HALTED and withdrawn; scan-out ends with the captures held.
It rests also on what the model chose or inferred: log entries 14, 65, 66, 68. -/
def Obligations.SlackStopsArmedPartitions : Prop :=
  ∀ s : State,
    (s.live = true → s.slack.pending = false →
      (∀ (p : PartId) (tr : Fin 7), p ∈ s.armedParts → 1 ≤ tr.val → tr.val ≤ 4 → s.slack.stopped = false →
        ∃ s', exec (.slackTrigger p tr) s = .next s' ∧ s'.slack.pending = true ∧ s'.slack.ownT = s.now + 64 ∧
          s'.slack.trigger = BitVec.ofNat 3 tr.val ∧ s'.slack.origin = true ∧ s'.pins.slackLow = true ∧
          s'.slack.stopid = s.devNum ++ (s.slack.seq + 1) ∧ s'.tiles = s.tiles) ∧
      (s.slack.stopped = false → s.armedParts ≠ [] → ∃ s', exec .slackNInput s = .next s' ∧ s'.slack.pending = true ∧
        s'.slack.ownT = s.now + 64 ∧ s'.slack.trigger = 5 ∧ s'.slack.awaitId = true ∧ s'.slack.origin = false ∧
        { s' with slack := s.slack } = s) ∧
      (∀ (m : StopMsg) (trx : Stamp), s.slack.awaitId = false → s.slack.stopped = false → s.armedParts ≠ [] →
        m.stopid ∉ s.slack.seen → ∃ s', exec (.slackStopMessageReceive m trx) s = .next s' ∧ s'.slack.pending = true ∧
          s'.slack.ownT = trx + 64 ∧ s'.slack.stopid = m.stopid ∧ s'.slack.originDev = m.origin ∧
          s'.slack.trigger = 6 ∧ s'.slack.origin = false ∧ s'.tiles = s.tiles)) ∧
    (∀ (m : StopMsg) (trx : Stamp), s.live = true → m.stopid ∈ s.slack.seen →
      exec (.slackStopMessageReceive m trx) s = .next { s with discarded := s.discarded + 1 }) ∧
    (s.slack.awaitId = true → ∃ s', exec .slackStopMessageTimeout s = .next s' ∧ s'.slack.awaitId = false ∧
      s'.slack.origin = true ∧ s'.slack.stopid = s.devNum ++ (s.slack.seq + 1)) ∧
    exec .slackNPulseEnd s = .next { s with pins := { s.pins with slackLow := false } } ∧
    (∀ (a b : Stamp) (late : Bool), s.live = true → s.slack.pending = true → s.armedParts ≠ [] →
      (∀ p ∈ s.armedParts, (s.part p).strand.capHeld = false) →
      ∃ s', exec (.slackStop a b late) s = .next s' ∧ s'.slack.pending = false ∧ s'.slack.stopped = true ∧
        s'.slack.scanning = true ∧ s'.slack.late = late ∧ s'.slack.stops = satAdd s.slack.stops 1 ∧ s'.tiles = s.tiles ∧
        ∀ p, (p ∈ s.armedParts → (s'.part p).slackStopped = true ∧ (s'.part p).st = .halted ∧ (s'.part p).ready = false ∧
            (s'.part p).armed = false ∧ (s'.part p).run = (s.part p).run) ∧
          (p ∉ s.armedParts → (s'.part p).st = (s.part p).st ∧ (s'.part p).slackStopped = (s.part p).slackStopped)) ∧
    (∀ c : Bool, s.slack.scanning = true → s.slack.after = none → ∃ s', exec (.slackScanOut c) s = .next s' ∧
      s'.slack.scanning = false ∧ s'.slack.stopped = s.slack.stopped ∧ s'.tiles = s.tiles ∧
      ∀ p, p ∈ s.stoppedParts → (s'.part p).strand.capHeld = ((s.part p).strand.capHeld || !s.slack.noCapture.getLsbD p.val))

/-- R11, R12, R13: a read gives the word as it stood, and its RC fields then hold only what hardware added in that cycle; a
W1C bit clears where it is written 1 unless hardware sets it; a word without writable fields ignores a write.
It rests also on what the model chose or inferred: log entry 164. -/
def Obligations.ReadsClearAndWritesByCode : Prop :=
  (∀ (s : State) (r : Reg) (n : Nat), ∃ s', exec (.rcRegisterRead r n) s = .next s' ∧
    s'.sent = s.sent ++ [(.firmware, .registerValue (s.regWord r))] ∧ s'.hbm = s.hbm ∧ s'.otp = s.otp) ∧
  (∀ (s : State) (d : DieId) (n : Nat), exec (.rcRegisterRead (.dieClock d) n) s =
    .next ((s.modDie d fun x => { x with
      lastResort := BitVec.ofNat 8 (n / 2 ^ 16), stretchEvents := BitVec.ofNat 16 n }).emit .firmware
        (.registerValue (s.regWord (.dieClock d))))) ∧
  (∀ (s : State) (t : TileId) (m : MacroId) (v h : BitVec 64), exec (.registerWrite (.bankStatus t m) v h) s =
    .next (s.modTile t fun tl => tl.modMac m.val fun x => { x with
      conflict := (x.conflict && !v.getLsbD 31) || h.getLsbD 31 })) ∧
  (∀ (s : State) (t : TileId) (v h : BitVec 64), exec (.registerWrite (.verifySource t) v h) s =
    .next (s.modTile t fun tl => { tl with verify := { tl.verify with
      rstride := v.extractLsb' 48 16, addr := v.extractLsb' 0 39 } })) ∧
  (∀ (s : State) (t : TileId) (v h : BitVec 64), exec (.registerWrite (.seqStatus t) v h) s = .next s)

/-- R258, and the rules of every row: every command completes with a next state, whatever its operands and the state; a command
that names an HBM address at or above 288 GiB, which does not exist, stops as a fault, and no command is refused. -/
def Obligations.EveryCommandCompletes : Prop :=
  ∀ (c : Instr) (s : State),
    let named : Option HbmAddr := match c with
      | .hbmReadReplay a _ _ _ => some a
      | .hbmWriteReplay a _ _ => some a
      | .hbmHardErrorRepair a _ _ _ => some a
      | _ => none
    ((∀ a, named = some a → a.toNat < 288 * 2 ^ 30) → ∃ t, exec c s = .next t) ∧
    (∀ a, named = some a → 288 * 2 ^ 30 ≤ a.toNat → exec c s = .fault (.noSuchHbmAddress a))
end

