-- ==== Sys2Proof/Laws/Store.lean ====
section
/-! SUPPORT. Laws of stores and of byte memories: a read after a write, other keys, and the canonical form, which
every operation on a byte memory keeps. -/

namespace Sys2Proof.Machine

variable {α : Type}

/-! ### Reading after writing -/

@[simp] theorem Store.get_nil (d : α) (k : Nat) : Store.get d [] k = d := rfl

@[simp] theorem Store.get_set_same (d : α) (m : Store α) (k : Nat) (v : α) :
    Store.get d (Store.set m k v) k = v := by
  induction m with
  | nil => simp [Store.set, Store.get]
  | cons c m ih =>
    obtain ⟨k', v'⟩ := c
    simp only [Store.set]
    split
    · simp [Store.get]
    · split
      · simp [Store.get]
      · simp [Store.get, *]

theorem Store.get_set_other (d : α) (m : Store α) {k j : Nat} (v : α) (h : j ≠ k) :
    Store.get d (Store.set m k v) j = Store.get d m j := by
  induction m with
  | nil => simp [Store.set, Store.get, h.symm]
  | cons c m ih =>
    obtain ⟨k', v'⟩ := c
    simp only [Store.set]
    split
    · subst_vars; simp [Store.get, h.symm]
    · split
      · simp [Store.get, h.symm]
      · simp [Store.get, ih]

theorem Store.get_set (d : α) (m : Store α) (k j : Nat) (v : α) :
    Store.get d (Store.set m k v) j = if j = k then v else Store.get d m j := by
  split
  · subst_vars; simp
  · simp [Store.get_set_other, *]

@[simp] theorem Store.set_set_same (m : Store α) (k : Nat) (v w : α) :
    Store.set (Store.set m k v) k w = Store.set m k w := by
  induction m with
  | nil => simp [Store.set]
  | cons c m ih =>
    obtain ⟨k', v'⟩ := c
    simp only [Store.set]
    split
    · simp [Store.set]
    · split
      · simp [Store.set]
      · simp [Store.set, *]

theorem Store.get_erase_other (d : α) (m : Store α) {k j : Nat} (h : j ≠ k) :
    Store.get d (Store.erase m k) j = Store.get d m j := by
  induction m with
  | nil => rfl
  | cons c m ih =>
    obtain ⟨k', v'⟩ := c
    by_cases hk : k' = k
    · subst hk
      have : Store.erase ((k', v') :: m) k' = Store.erase m k' := by simp [Store.erase]
      rw [this, ih]
      simp [Store.get, h.symm]
    · have : Store.erase ((k', v') :: m) k = (k', v') :: Store.erase m k := by simp [Store.erase, hk]
      rw [this]
      simp [Store.get, ih]

@[simp] theorem Store.get_erase_same (d : α) (m : Store α) (k : Nat) : Store.get d (Store.erase m k) k = d := by
  induction m with
  | nil => rfl
  | cons c m ih =>
    obtain ⟨k', v'⟩ := c
    by_cases hk : k' = k
    · have : Store.erase ((k', v') :: m) k = Store.erase m k := by simp [Store.erase, hk]
      rw [this, ih]
    · have : Store.erase ((k', v') :: m) k = (k', v') :: Store.erase m k := by simp [Store.erase, hk]
      rw [this]
      simp [Store.get, hk, ih]

@[simp] theorem Mem.read_write_same (m : Store Byte) (a : Nat) (b : Byte) : Mem.read (Mem.write m a b) a = b := by
  unfold Mem.read Mem.write
  split
  · subst_vars; simp
  · simp

theorem Mem.read_write_other (m : Store Byte) {a c : Nat} (b : Byte) (h : c ≠ a) :
    Mem.read (Mem.write m a b) c = Mem.read m c := by
  unfold Mem.read Mem.write
  split
  · exact Store.get_erase_other _ _ h
  · exact Store.get_set_other _ _ _ h

/-- A byte outside the written run reads as before. -/
theorem Mem.read_writeBytes_outside (l : List Byte) (m : Store Byte) (a c : Nat) (h : c < a ∨ a + l.length ≤ c) :
    Mem.read (Mem.writeBytes m a l) c = Mem.read m c := by
  induction l generalizing m a with
  | nil => rfl
  | cons b l ih =>
    simp only [List.length_cons] at h
    rw [Mem.writeBytes, ih _ _ (by omega), Mem.read_write_other _ _ (by omega)]

/-- A byte of the written run reads as written. -/
theorem Mem.read_writeBytes_inside (l : List Byte) (m : Store Byte) (a i : Nat) (h : i < l.length) :
    Mem.read (Mem.writeBytes m a l) (a + i) = l[i] := by
  induction l generalizing m a i with
  | nil => simp at h
  | cons b l ih =>
    rw [Mem.writeBytes]
    cases i with
    | zero => rw [Mem.read_writeBytes_outside _ _ _ _ (by omega)]; simp
    | succ i =>
      have := ih (Mem.write m a b) (a + 1) i (by simpa using h)
      rw [show a + (i + 1) = a + 1 + i by omega, this]
      rfl

@[simp] theorem Mem.readBytes_length (m : Store Byte) (a n : Nat) : (Mem.readBytes m a n).length = n := by
  induction n generalizing a with
  | zero => rfl
  | succ n ih => simp [Mem.readBytes, ih]

/-- What was written is read back. -/
theorem Mem.readBytes_writeBytes (l : List Byte) (m : Store Byte) (a : Nat) :
    Mem.readBytes (Mem.writeBytes m a l) a l.length = l := by
  induction l generalizing m a with
  | nil => rfl
  | cons b l ih =>
    simp only [List.length_cons, Mem.readBytes, Mem.writeBytes, ih]
    rw [Mem.read_writeBytes_outside _ _ _ _ (by omega)]
    simp

/-! ### The canonical form -/

/-- Sortedness says that the keys rise pairwise. -/
theorem Store.sorted_iff (m : Store α) : Store.sorted m = true ↔ m.Pairwise fun x y => x.1 < y.1 := by
  induction m with
  | nil => simp [Store.sorted]
  | cons c m ih =>
    obtain ⟨k, v⟩ := c
    cases m with
    | nil => simp [Store.sorted]
    | cons c' m =>
      obtain ⟨k', v'⟩ := c'
      simp only [Store.sorted, Bool.and_eq_true, decide_eq_true_eq, ih, List.pairwise_cons]
      constructor
      · rintro ⟨h1, h2, h3⟩
        refine ⟨?_, h2, h3⟩
        intro x hx
        rcases List.mem_cons.mp hx with rfl | hx
        · exact h1
        · exact Nat.lt_trans h1 (h2 x hx)
      · rintro ⟨h1, h2, h3⟩
        exact ⟨h1 _ List.mem_cons_self, h2, h3⟩

theorem Store.mem_set {m : Store α} {k : Nat} {v : α} {x : Nat × α} (h : x ∈ Store.set m k v) :
    x = (k, v) ∨ x ∈ m := by
  induction m with
  | nil => simpa [Store.set] using h
  | cons c m ih =>
    obtain ⟨k', v'⟩ := c
    simp only [Store.set] at h
    split at h
    · rcases List.mem_cons.mp h with h | h
      · exact .inl h
      · exact .inr (List.mem_cons_of_mem _ h)
    · split at h
      · rcases List.mem_cons.mp h with h | h
        · exact .inl h
        · exact .inr h
      · rcases List.mem_cons.mp h with rfl | h
        · exact .inr List.mem_cons_self
        · exact (ih h).imp id (List.mem_cons_of_mem _)

theorem Store.sorted_set {m : Store α} (h : Store.sorted m = true) (k : Nat) (v : α) :
    Store.sorted (Store.set m k v) = true := by
  rw [Store.sorted_iff] at h ⊢
  induction m with
  | nil => simp [Store.set]
  | cons c m ih =>
    obtain ⟨k', v'⟩ := c
    obtain ⟨h1, h2⟩ := List.pairwise_cons.mp h
    simp only [Store.set]
    split
    · subst_vars; exact List.pairwise_cons.mpr ⟨h1, h2⟩
    · split
      · refine List.pairwise_cons.mpr ⟨?_, h⟩
        intro x hx
        rcases List.mem_cons.mp hx with rfl | hx
        · assumption
        · exact Nat.lt_trans ‹_› (h1 x hx)
      · refine List.pairwise_cons.mpr ⟨?_, ih h2⟩
        intro x hx
        rcases Store.mem_set hx with rfl | hx
        · show k' < k; omega
        · exact h1 x hx

theorem Store.sorted_filter {m : Store α} (h : Store.sorted m = true) (f : Nat × α → Bool) :
    Store.sorted (m.filter f) = true := by
  rw [Store.sorted_iff] at h ⊢
  exact h.sublist List.filter_sublist

@[simp] theorem Mem.wf_nil : Mem.wf [] = true := rfl

theorem Mem.wf_filter {m : Store Byte} (h : Mem.wf m = true) (f : Nat × Byte → Bool) : Mem.wf (m.filter f) = true := by
  simp only [Mem.wf, Bool.and_eq_true, List.all_eq_true] at h ⊢
  exact ⟨Store.sorted_filter h.1 f, fun x hx => h.2 x (List.mem_of_mem_filter hx)⟩

theorem Mem.wf_write {m : Store Byte} (h : Mem.wf m = true) (a : Nat) (b : Byte) : Mem.wf (Mem.write m a b) = true := by
  unfold Mem.write
  split
  · exact Mem.wf_filter h _
  · simp only [Mem.wf, Bool.and_eq_true, List.all_eq_true] at h ⊢
    refine ⟨Store.sorted_set h.1 _ _, fun x hx => ?_⟩
    rcases Store.mem_set hx with rfl | hx
    · simpa using ‹_›
    · exact h.2 x hx

theorem Mem.wf_writeBytes {m : Store Byte} (h : Mem.wf m = true) (a : Nat) (l : List Byte) :
    Mem.wf (Mem.writeBytes m a l) = true := by
  induction l generalizing m a with
  | nil => exact h
  | cons b l ih => exact ih (Mem.wf_write h a b) _

/-- A fold of changes that keep the canonical form keeps it. -/
theorem Mem.wf_foldl {β : Type} (l : List β) (f : Store Byte → β → Store Byte)
    (hf : ∀ m x, Mem.wf m = true → Mem.wf (f m x) = true) {m : Store Byte} (h : Mem.wf m = true) :
    Mem.wf (l.foldl f m) = true := by
  induction l generalizing m with
  | nil => exact h
  | cons x l ih => exact ih (hf _ _ h)

end Sys2Proof.Machine
end

