-- ==== Sys2Proof/Laws/State.lean ====
section
/-! SUPPORT. What the named updates of the block and of a tile leave alone, one lemma per field, and what their
readers see afterwards. -/

namespace Sys2Proof.Machine

/-! ### State.setTile -/

@[simp] theorem State.setTile_pending (s : State) (t : TileId) (v : Tile) : (s.setTile t v).pending = s.pending := rfl
@[simp] theorem State.setTile_now (s : State) (t : TileId) (v : Tile) : (s.setTile t v).now = s.now := rfl
@[simp] theorem State.setTile_devNum (s : State) (t : TileId) (v : Tile) : (s.setTile t v).devNum = s.devNum := rfl
@[simp] theorem State.setTile_freeCtr (s : State) (t : TileId) (v : Tile) : (s.setTile t v).freeCtr = s.freeCtr := rfl
@[simp] theorem State.setTile_epochBase (s : State) (t : TileId) (v : Tile) : (s.setTile t v).epochBase = s.epochBase := rfl
@[simp] theorem State.setTile_tagCtr (s : State) (t : TileId) (v : Tile) : (s.setTile t v).tagCtr = s.tagCtr := rfl
@[simp] theorem State.setTile_sent (s : State) (t : TileId) (v : Tile) : (s.setTile t v).sent = s.sent := rfl
@[simp] theorem State.setTile_wire (s : State) (t : TileId) (v : Tile) : (s.setTile t v).wire = s.wire := rfl
@[simp] theorem State.setTile_datagrams (s : State) (t : TileId) (v : Tile) : (s.setTile t v).datagrams = s.datagrams := rfl
@[simp] theorem State.setTile_discarded (s : State) (t : TileId) (v : Tile) : (s.setTile t v).discarded = s.discarded := rfl
@[simp] theorem State.setTile_events (s : State) (t : TileId) (v : Tile) : (s.setTile t v).events = s.events := rfl
@[simp] theorem State.setTile_phase (s : State) (t : TileId) (v : Tile) : (s.setTile t v).phase = s.phase := rfl
@[simp] theorem State.setTile_startWord (s : State) (t : TileId) (v : Tile) : (s.setTile t v).startWord = s.startWord := rfl
@[simp] theorem State.setTile_clusters (s : State) (t : TileId) (v : Tile) : (s.setTile t v).clusters = s.clusters := rfl
@[simp] theorem State.setTile_dies (s : State) (t : TileId) (v : Tile) : (s.setTile t v).dies = s.dies := rfl
@[simp] theorem State.setTile_ctrls (s : State) (t : TileId) (v : Tile) : (s.setTile t v).ctrls = s.ctrls := rfl
@[simp] theorem State.setTile_bands (s : State) (t : TileId) (v : Tile) : (s.setTile t v).bands = s.bands := rfl
@[simp] theorem State.setTile_domains (s : State) (t : TileId) (v : Tile) : (s.setTile t v).domains = s.domains := rfl
@[simp] theorem State.setTile_engines (s : State) (t : TileId) (v : Tile) : (s.setTile t v).engines = s.engines := rfl
@[simp] theorem State.setTile_ports (s : State) (t : TileId) (v : Tile) : (s.setTile t v).ports = s.ports := rfl
@[simp] theorem State.setTile_groups (s : State) (t : TileId) (v : Tile) : (s.setTile t v).groups = s.groups := rfl
@[simp] theorem State.setTile_parts (s : State) (t : TileId) (v : Tile) : (s.setTile t v).parts = s.parts := rfl
@[simp] theorem State.setTile_hbm (s : State) (t : TileId) (v : Tile) : (s.setTile t v).hbm = s.hbm := rfl
@[simp] theorem State.setTile_badAccess (s : State) (t : TileId) (v : Tile) : (s.setTile t v).badAccess = s.badAccess := rfl
@[simp] theorem State.setTile_hardNow (s : State) (t : TileId) (v : Tile) : (s.setTile t v).hardNow = s.hardNow := rfl
@[simp] theorem State.setTile_transients (s : State) (t : TileId) (v : Tile) : (s.setTile t v).transients = s.transients := rfl
@[simp] theorem State.setTile_rowRepairs (s : State) (t : TileId) (v : Tile) : (s.setTile t v).rowRepairs = s.rowRepairs := rfl
@[simp] theorem State.setTile_hardRepairs (s : State) (t : TileId) (v : Tile) : (s.setTile t v).hardRepairs = s.hardRepairs := rfl
@[simp] theorem State.setTile_testing (s : State) (t : TileId) (v : Tile) : (s.setTile t v).testing = s.testing := rfl
@[simp] theorem State.setTile_rootClk (s : State) (t : TileId) (v : Tile) : (s.setTile t v).rootClk = s.rootClk := rfl
@[simp] theorem State.setTile_watchdog (s : State) (t : TileId) (v : Tile) : (s.setTile t v).watchdog = s.watchdog := rfl
@[simp] theorem State.setTile_alert (s : State) (t : TileId) (v : Tile) : (s.setTile t v).alert = s.alert := rfl
@[simp] theorem State.setTile_slack (s : State) (t : TileId) (v : Tile) : (s.setTile t v).slack = s.slack := rfl
@[simp] theorem State.setTile_pins (s : State) (t : TileId) (v : Tile) : (s.setTile t v).pins = s.pins := rfl
@[simp] theorem State.setTile_power (s : State) (t : TileId) (v : Tile) : (s.setTile t v).power = s.power := rfl
@[simp] theorem State.setTile_rails (s : State) (t : TileId) (v : Tile) : (s.setTile t v).rails = s.rails := rfl
@[simp] theorem State.setTile_thermal (s : State) (t : TileId) (v : Tile) : (s.setTile t v).thermal = s.thermal := rfl
@[simp] theorem State.setTile_residual (s : State) (t : TileId) (v : Tile) : (s.setTile t v).residual = s.residual := rfl
@[simp] theorem State.setTile_dump (s : State) (t : TileId) (v : Tile) : (s.setTile t v).dump = s.dump := rfl
@[simp] theorem State.setTile_otp (s : State) (t : TileId) (v : Tile) : (s.setTile t v).otp = s.otp := rfl
@[simp] theorem State.setTile_flash (s : State) (t : TileId) (v : Tile) : (s.setTile t v).flash = s.flash := rfl
@[simp] theorem State.setTile_island (s : State) (t : TileId) (v : Tile) : (s.setTile t v).island = s.island := rfl
@[simp] theorem State.setTile_dict (s : State) (t : TileId) (v : Tile) : (s.setTile t v).dict = s.dict := rfl
@[simp] theorem State.setTile_devArea (s : State) (t : TileId) (v : Tile) : (s.setTile t v).devArea = s.devArea := rfl
@[simp] theorem State.setTile_writers (s : State) (t : TileId) (v : Tile) : (s.setTile t v).writers = s.writers := rfl
@[simp] theorem State.setTile_ecat (s : State) (t : TileId) (v : Tile) : (s.setTile t v).ecat = s.ecat := rfl
@[simp] theorem State.setTile_mapping (s : State) (t : TileId) (v : Tile) : (s.setTile t v).mapping = s.mapping := rfl
@[simp] theorem State.setTile_neighbours (s : State) (t : TileId) (v : Tile) : (s.setTile t v).neighbours = s.neighbours := rfl
@[simp] theorem State.setTile_unresolved (s : State) (t : TileId) (v : Tile) : (s.setTile t v).unresolved = s.unresolved := rfl
@[simp] theorem State.setTile_reads (s : State) (t : TileId) (v : Tile) : (s.setTile t v).reads = s.reads := rfl
@[simp] theorem State.setTile_routes (s : State) (t : TileId) (v : Tile) : (s.setTile t v).routes = s.routes := rfl
@[simp] theorem State.setTile_pathNs (s : State) (t : TileId) (v : Tile) : (s.setTile t v).pathNs = s.pathNs := rfl
@[simp] theorem State.setTile_topology (s : State) (t : TileId) (v : Tile) : (s.setTile t v).topology = s.topology := rfl
@[simp] theorem State.setTile_topoSeq (s : State) (t : TileId) (v : Tile) : (s.setTile t v).topoSeq = s.topoSeq := rfl
@[simp] theorem State.setTile_topoSeen (s : State) (t : TileId) (v : Tile) : (s.setTile t v).topoSeen = s.topoSeen := rfl
@[simp] theorem State.setTile_fabricUp (s : State) (t : TileId) (v : Tile) : (s.setTile t v).fabricUp = s.fabricUp := rfl
@[simp] theorem State.setTile_lasersOn (s : State) (t : TileId) (v : Tile) : (s.setTile t v).lasersOn = s.lasersOn := rfl
@[simp] theorem State.setTile_jtagOpen (s : State) (t : TileId) (v : Tile) : (s.setTile t v).jtagOpen = s.jtagOpen := rfl
@[simp] theorem State.setTile_coreMap (s : State) (t : TileId) (v : Tile) : (s.setTile t v).coreMap = s.coreMap := rfl
@[simp] theorem State.setTile_coreSpares (s : State) (t : TileId) (v : Tile) : (s.setTile t v).coreSpares = s.coreSpares := rfl
@[simp] theorem State.setTile_obsWindow (s : State) (t : TileId) (v : Tile) : (s.setTile t v).obsWindow = s.obsWindow := rfl
@[simp] theorem State.setTile_obsBytes (s : State) (t : TileId) (v : Tile) : (s.setTile t v).obsBytes = s.obsBytes := rfl
@[simp] theorem State.setTile_lastTick (s : State) (t : TileId) (v : Tile) : (s.setTile t v).lastTick = s.lastTick := rfl
@[simp] theorem State.setTile_opSince (s : State) (t : TileId) (v : Tile) : (s.setTile t v).opSince = s.opSince := rfl

/-! ### State.modTile -/

@[simp] theorem State.modTile_pending (s : State) (t : TileId) (f : Tile → Tile) : (s.modTile t f).pending = s.pending := rfl
@[simp] theorem State.modTile_now (s : State) (t : TileId) (f : Tile → Tile) : (s.modTile t f).now = s.now := rfl
@[simp] theorem State.modTile_devNum (s : State) (t : TileId) (f : Tile → Tile) : (s.modTile t f).devNum = s.devNum := rfl
@[simp] theorem State.modTile_freeCtr (s : State) (t : TileId) (f : Tile → Tile) : (s.modTile t f).freeCtr = s.freeCtr := rfl
@[simp] theorem State.modTile_epochBase (s : State) (t : TileId) (f : Tile → Tile) : (s.modTile t f).epochBase = s.epochBase := rfl
@[simp] theorem State.modTile_tagCtr (s : State) (t : TileId) (f : Tile → Tile) : (s.modTile t f).tagCtr = s.tagCtr := rfl
@[simp] theorem State.modTile_sent (s : State) (t : TileId) (f : Tile → Tile) : (s.modTile t f).sent = s.sent := rfl
@[simp] theorem State.modTile_wire (s : State) (t : TileId) (f : Tile → Tile) : (s.modTile t f).wire = s.wire := rfl
@[simp] theorem State.modTile_datagrams (s : State) (t : TileId) (f : Tile → Tile) : (s.modTile t f).datagrams = s.datagrams := rfl
@[simp] theorem State.modTile_discarded (s : State) (t : TileId) (f : Tile → Tile) : (s.modTile t f).discarded = s.discarded := rfl
@[simp] theorem State.modTile_events (s : State) (t : TileId) (f : Tile → Tile) : (s.modTile t f).events = s.events := rfl
@[simp] theorem State.modTile_phase (s : State) (t : TileId) (f : Tile → Tile) : (s.modTile t f).phase = s.phase := rfl
@[simp] theorem State.modTile_startWord (s : State) (t : TileId) (f : Tile → Tile) : (s.modTile t f).startWord = s.startWord := rfl
@[simp] theorem State.modTile_clusters (s : State) (t : TileId) (f : Tile → Tile) : (s.modTile t f).clusters = s.clusters := rfl
@[simp] theorem State.modTile_dies (s : State) (t : TileId) (f : Tile → Tile) : (s.modTile t f).dies = s.dies := rfl
@[simp] theorem State.modTile_ctrls (s : State) (t : TileId) (f : Tile → Tile) : (s.modTile t f).ctrls = s.ctrls := rfl
@[simp] theorem State.modTile_bands (s : State) (t : TileId) (f : Tile → Tile) : (s.modTile t f).bands = s.bands := rfl
@[simp] theorem State.modTile_domains (s : State) (t : TileId) (f : Tile → Tile) : (s.modTile t f).domains = s.domains := rfl
@[simp] theorem State.modTile_engines (s : State) (t : TileId) (f : Tile → Tile) : (s.modTile t f).engines = s.engines := rfl
@[simp] theorem State.modTile_ports (s : State) (t : TileId) (f : Tile → Tile) : (s.modTile t f).ports = s.ports := rfl
@[simp] theorem State.modTile_groups (s : State) (t : TileId) (f : Tile → Tile) : (s.modTile t f).groups = s.groups := rfl
@[simp] theorem State.modTile_parts (s : State) (t : TileId) (f : Tile → Tile) : (s.modTile t f).parts = s.parts := rfl
@[simp] theorem State.modTile_hbm (s : State) (t : TileId) (f : Tile → Tile) : (s.modTile t f).hbm = s.hbm := rfl
@[simp] theorem State.modTile_badAccess (s : State) (t : TileId) (f : Tile → Tile) : (s.modTile t f).badAccess = s.badAccess := rfl
@[simp] theorem State.modTile_hardNow (s : State) (t : TileId) (f : Tile → Tile) : (s.modTile t f).hardNow = s.hardNow := rfl
@[simp] theorem State.modTile_transients (s : State) (t : TileId) (f : Tile → Tile) : (s.modTile t f).transients = s.transients := rfl
@[simp] theorem State.modTile_rowRepairs (s : State) (t : TileId) (f : Tile → Tile) : (s.modTile t f).rowRepairs = s.rowRepairs := rfl
@[simp] theorem State.modTile_hardRepairs (s : State) (t : TileId) (f : Tile → Tile) : (s.modTile t f).hardRepairs = s.hardRepairs := rfl
@[simp] theorem State.modTile_testing (s : State) (t : TileId) (f : Tile → Tile) : (s.modTile t f).testing = s.testing := rfl
@[simp] theorem State.modTile_rootClk (s : State) (t : TileId) (f : Tile → Tile) : (s.modTile t f).rootClk = s.rootClk := rfl
@[simp] theorem State.modTile_watchdog (s : State) (t : TileId) (f : Tile → Tile) : (s.modTile t f).watchdog = s.watchdog := rfl
@[simp] theorem State.modTile_alert (s : State) (t : TileId) (f : Tile → Tile) : (s.modTile t f).alert = s.alert := rfl
@[simp] theorem State.modTile_slack (s : State) (t : TileId) (f : Tile → Tile) : (s.modTile t f).slack = s.slack := rfl
@[simp] theorem State.modTile_pins (s : State) (t : TileId) (f : Tile → Tile) : (s.modTile t f).pins = s.pins := rfl
@[simp] theorem State.modTile_power (s : State) (t : TileId) (f : Tile → Tile) : (s.modTile t f).power = s.power := rfl
@[simp] theorem State.modTile_rails (s : State) (t : TileId) (f : Tile → Tile) : (s.modTile t f).rails = s.rails := rfl
@[simp] theorem State.modTile_thermal (s : State) (t : TileId) (f : Tile → Tile) : (s.modTile t f).thermal = s.thermal := rfl
@[simp] theorem State.modTile_residual (s : State) (t : TileId) (f : Tile → Tile) : (s.modTile t f).residual = s.residual := rfl
@[simp] theorem State.modTile_dump (s : State) (t : TileId) (f : Tile → Tile) : (s.modTile t f).dump = s.dump := rfl
@[simp] theorem State.modTile_otp (s : State) (t : TileId) (f : Tile → Tile) : (s.modTile t f).otp = s.otp := rfl
@[simp] theorem State.modTile_flash (s : State) (t : TileId) (f : Tile → Tile) : (s.modTile t f).flash = s.flash := rfl
@[simp] theorem State.modTile_island (s : State) (t : TileId) (f : Tile → Tile) : (s.modTile t f).island = s.island := rfl
@[simp] theorem State.modTile_dict (s : State) (t : TileId) (f : Tile → Tile) : (s.modTile t f).dict = s.dict := rfl
@[simp] theorem State.modTile_devArea (s : State) (t : TileId) (f : Tile → Tile) : (s.modTile t f).devArea = s.devArea := rfl
@[simp] theorem State.modTile_writers (s : State) (t : TileId) (f : Tile → Tile) : (s.modTile t f).writers = s.writers := rfl
@[simp] theorem State.modTile_ecat (s : State) (t : TileId) (f : Tile → Tile) : (s.modTile t f).ecat = s.ecat := rfl
@[simp] theorem State.modTile_mapping (s : State) (t : TileId) (f : Tile → Tile) : (s.modTile t f).mapping = s.mapping := rfl
@[simp] theorem State.modTile_neighbours (s : State) (t : TileId) (f : Tile → Tile) : (s.modTile t f).neighbours = s.neighbours := rfl
@[simp] theorem State.modTile_unresolved (s : State) (t : TileId) (f : Tile → Tile) : (s.modTile t f).unresolved = s.unresolved := rfl
@[simp] theorem State.modTile_reads (s : State) (t : TileId) (f : Tile → Tile) : (s.modTile t f).reads = s.reads := rfl
@[simp] theorem State.modTile_routes (s : State) (t : TileId) (f : Tile → Tile) : (s.modTile t f).routes = s.routes := rfl
@[simp] theorem State.modTile_pathNs (s : State) (t : TileId) (f : Tile → Tile) : (s.modTile t f).pathNs = s.pathNs := rfl
@[simp] theorem State.modTile_topology (s : State) (t : TileId) (f : Tile → Tile) : (s.modTile t f).topology = s.topology := rfl
@[simp] theorem State.modTile_topoSeq (s : State) (t : TileId) (f : Tile → Tile) : (s.modTile t f).topoSeq = s.topoSeq := rfl
@[simp] theorem State.modTile_topoSeen (s : State) (t : TileId) (f : Tile → Tile) : (s.modTile t f).topoSeen = s.topoSeen := rfl
@[simp] theorem State.modTile_fabricUp (s : State) (t : TileId) (f : Tile → Tile) : (s.modTile t f).fabricUp = s.fabricUp := rfl
@[simp] theorem State.modTile_lasersOn (s : State) (t : TileId) (f : Tile → Tile) : (s.modTile t f).lasersOn = s.lasersOn := rfl
@[simp] theorem State.modTile_jtagOpen (s : State) (t : TileId) (f : Tile → Tile) : (s.modTile t f).jtagOpen = s.jtagOpen := rfl
@[simp] theorem State.modTile_coreMap (s : State) (t : TileId) (f : Tile → Tile) : (s.modTile t f).coreMap = s.coreMap := rfl
@[simp] theorem State.modTile_coreSpares (s : State) (t : TileId) (f : Tile → Tile) : (s.modTile t f).coreSpares = s.coreSpares := rfl
@[simp] theorem State.modTile_obsWindow (s : State) (t : TileId) (f : Tile → Tile) : (s.modTile t f).obsWindow = s.obsWindow := rfl
@[simp] theorem State.modTile_obsBytes (s : State) (t : TileId) (f : Tile → Tile) : (s.modTile t f).obsBytes = s.obsBytes := rfl
@[simp] theorem State.modTile_lastTick (s : State) (t : TileId) (f : Tile → Tile) : (s.modTile t f).lastTick = s.lastTick := rfl
@[simp] theorem State.modTile_opSince (s : State) (t : TileId) (f : Tile → Tile) : (s.modTile t f).opSince = s.opSince := rfl

/-! ### State.modCluster -/

@[simp] theorem State.modCluster_pending (s : State) (c : ClusterId) (f : Cluster → Cluster) : (s.modCluster c f).pending = s.pending := rfl
@[simp] theorem State.modCluster_now (s : State) (c : ClusterId) (f : Cluster → Cluster) : (s.modCluster c f).now = s.now := rfl
@[simp] theorem State.modCluster_devNum (s : State) (c : ClusterId) (f : Cluster → Cluster) : (s.modCluster c f).devNum = s.devNum := rfl
@[simp] theorem State.modCluster_freeCtr (s : State) (c : ClusterId) (f : Cluster → Cluster) : (s.modCluster c f).freeCtr = s.freeCtr := rfl
@[simp] theorem State.modCluster_epochBase (s : State) (c : ClusterId) (f : Cluster → Cluster) : (s.modCluster c f).epochBase = s.epochBase := rfl
@[simp] theorem State.modCluster_tagCtr (s : State) (c : ClusterId) (f : Cluster → Cluster) : (s.modCluster c f).tagCtr = s.tagCtr := rfl
@[simp] theorem State.modCluster_sent (s : State) (c : ClusterId) (f : Cluster → Cluster) : (s.modCluster c f).sent = s.sent := rfl
@[simp] theorem State.modCluster_wire (s : State) (c : ClusterId) (f : Cluster → Cluster) : (s.modCluster c f).wire = s.wire := rfl
@[simp] theorem State.modCluster_datagrams (s : State) (c : ClusterId) (f : Cluster → Cluster) : (s.modCluster c f).datagrams = s.datagrams := rfl
@[simp] theorem State.modCluster_discarded (s : State) (c : ClusterId) (f : Cluster → Cluster) : (s.modCluster c f).discarded = s.discarded := rfl
@[simp] theorem State.modCluster_events (s : State) (c : ClusterId) (f : Cluster → Cluster) : (s.modCluster c f).events = s.events := rfl
@[simp] theorem State.modCluster_phase (s : State) (c : ClusterId) (f : Cluster → Cluster) : (s.modCluster c f).phase = s.phase := rfl
@[simp] theorem State.modCluster_startWord (s : State) (c : ClusterId) (f : Cluster → Cluster) : (s.modCluster c f).startWord = s.startWord := rfl
@[simp] theorem State.modCluster_tiles (s : State) (c : ClusterId) (f : Cluster → Cluster) : (s.modCluster c f).tiles = s.tiles := rfl
@[simp] theorem State.modCluster_dies (s : State) (c : ClusterId) (f : Cluster → Cluster) : (s.modCluster c f).dies = s.dies := rfl
@[simp] theorem State.modCluster_ctrls (s : State) (c : ClusterId) (f : Cluster → Cluster) : (s.modCluster c f).ctrls = s.ctrls := rfl
@[simp] theorem State.modCluster_bands (s : State) (c : ClusterId) (f : Cluster → Cluster) : (s.modCluster c f).bands = s.bands := rfl
@[simp] theorem State.modCluster_domains (s : State) (c : ClusterId) (f : Cluster → Cluster) : (s.modCluster c f).domains = s.domains := rfl
@[simp] theorem State.modCluster_engines (s : State) (c : ClusterId) (f : Cluster → Cluster) : (s.modCluster c f).engines = s.engines := rfl
@[simp] theorem State.modCluster_ports (s : State) (c : ClusterId) (f : Cluster → Cluster) : (s.modCluster c f).ports = s.ports := rfl
@[simp] theorem State.modCluster_groups (s : State) (c : ClusterId) (f : Cluster → Cluster) : (s.modCluster c f).groups = s.groups := rfl
@[simp] theorem State.modCluster_parts (s : State) (c : ClusterId) (f : Cluster → Cluster) : (s.modCluster c f).parts = s.parts := rfl
@[simp] theorem State.modCluster_hbm (s : State) (c : ClusterId) (f : Cluster → Cluster) : (s.modCluster c f).hbm = s.hbm := rfl
@[simp] theorem State.modCluster_badAccess (s : State) (c : ClusterId) (f : Cluster → Cluster) : (s.modCluster c f).badAccess = s.badAccess := rfl
@[simp] theorem State.modCluster_hardNow (s : State) (c : ClusterId) (f : Cluster → Cluster) : (s.modCluster c f).hardNow = s.hardNow := rfl
@[simp] theorem State.modCluster_transients (s : State) (c : ClusterId) (f : Cluster → Cluster) : (s.modCluster c f).transients = s.transients := rfl
@[simp] theorem State.modCluster_rowRepairs (s : State) (c : ClusterId) (f : Cluster → Cluster) : (s.modCluster c f).rowRepairs = s.rowRepairs := rfl
@[simp] theorem State.modCluster_hardRepairs (s : State) (c : ClusterId) (f : Cluster → Cluster) : (s.modCluster c f).hardRepairs = s.hardRepairs := rfl
@[simp] theorem State.modCluster_testing (s : State) (c : ClusterId) (f : Cluster → Cluster) : (s.modCluster c f).testing = s.testing := rfl
@[simp] theorem State.modCluster_rootClk (s : State) (c : ClusterId) (f : Cluster → Cluster) : (s.modCluster c f).rootClk = s.rootClk := rfl
@[simp] theorem State.modCluster_watchdog (s : State) (c : ClusterId) (f : Cluster → Cluster) : (s.modCluster c f).watchdog = s.watchdog := rfl
@[simp] theorem State.modCluster_alert (s : State) (c : ClusterId) (f : Cluster → Cluster) : (s.modCluster c f).alert = s.alert := rfl
@[simp] theorem State.modCluster_slack (s : State) (c : ClusterId) (f : Cluster → Cluster) : (s.modCluster c f).slack = s.slack := rfl
@[simp] theorem State.modCluster_pins (s : State) (c : ClusterId) (f : Cluster → Cluster) : (s.modCluster c f).pins = s.pins := rfl
@[simp] theorem State.modCluster_power (s : State) (c : ClusterId) (f : Cluster → Cluster) : (s.modCluster c f).power = s.power := rfl
@[simp] theorem State.modCluster_rails (s : State) (c : ClusterId) (f : Cluster → Cluster) : (s.modCluster c f).rails = s.rails := rfl
@[simp] theorem State.modCluster_thermal (s : State) (c : ClusterId) (f : Cluster → Cluster) : (s.modCluster c f).thermal = s.thermal := rfl
@[simp] theorem State.modCluster_residual (s : State) (c : ClusterId) (f : Cluster → Cluster) : (s.modCluster c f).residual = s.residual := rfl
@[simp] theorem State.modCluster_dump (s : State) (c : ClusterId) (f : Cluster → Cluster) : (s.modCluster c f).dump = s.dump := rfl
@[simp] theorem State.modCluster_otp (s : State) (c : ClusterId) (f : Cluster → Cluster) : (s.modCluster c f).otp = s.otp := rfl
@[simp] theorem State.modCluster_flash (s : State) (c : ClusterId) (f : Cluster → Cluster) : (s.modCluster c f).flash = s.flash := rfl
@[simp] theorem State.modCluster_island (s : State) (c : ClusterId) (f : Cluster → Cluster) : (s.modCluster c f).island = s.island := rfl
@[simp] theorem State.modCluster_dict (s : State) (c : ClusterId) (f : Cluster → Cluster) : (s.modCluster c f).dict = s.dict := rfl
@[simp] theorem State.modCluster_devArea (s : State) (c : ClusterId) (f : Cluster → Cluster) : (s.modCluster c f).devArea = s.devArea := rfl
@[simp] theorem State.modCluster_writers (s : State) (c : ClusterId) (f : Cluster → Cluster) : (s.modCluster c f).writers = s.writers := rfl
@[simp] theorem State.modCluster_ecat (s : State) (c : ClusterId) (f : Cluster → Cluster) : (s.modCluster c f).ecat = s.ecat := rfl
@[simp] theorem State.modCluster_mapping (s : State) (c : ClusterId) (f : Cluster → Cluster) : (s.modCluster c f).mapping = s.mapping := rfl
@[simp] theorem State.modCluster_neighbours (s : State) (c : ClusterId) (f : Cluster → Cluster) : (s.modCluster c f).neighbours = s.neighbours := rfl
@[simp] theorem State.modCluster_unresolved (s : State) (c : ClusterId) (f : Cluster → Cluster) : (s.modCluster c f).unresolved = s.unresolved := rfl
@[simp] theorem State.modCluster_reads (s : State) (c : ClusterId) (f : Cluster → Cluster) : (s.modCluster c f).reads = s.reads := rfl
@[simp] theorem State.modCluster_routes (s : State) (c : ClusterId) (f : Cluster → Cluster) : (s.modCluster c f).routes = s.routes := rfl
@[simp] theorem State.modCluster_pathNs (s : State) (c : ClusterId) (f : Cluster → Cluster) : (s.modCluster c f).pathNs = s.pathNs := rfl
@[simp] theorem State.modCluster_topology (s : State) (c : ClusterId) (f : Cluster → Cluster) : (s.modCluster c f).topology = s.topology := rfl
@[simp] theorem State.modCluster_topoSeq (s : State) (c : ClusterId) (f : Cluster → Cluster) : (s.modCluster c f).topoSeq = s.topoSeq := rfl
@[simp] theorem State.modCluster_topoSeen (s : State) (c : ClusterId) (f : Cluster → Cluster) : (s.modCluster c f).topoSeen = s.topoSeen := rfl
@[simp] theorem State.modCluster_fabricUp (s : State) (c : ClusterId) (f : Cluster → Cluster) : (s.modCluster c f).fabricUp = s.fabricUp := rfl
@[simp] theorem State.modCluster_lasersOn (s : State) (c : ClusterId) (f : Cluster → Cluster) : (s.modCluster c f).lasersOn = s.lasersOn := rfl
@[simp] theorem State.modCluster_jtagOpen (s : State) (c : ClusterId) (f : Cluster → Cluster) : (s.modCluster c f).jtagOpen = s.jtagOpen := rfl
@[simp] theorem State.modCluster_coreMap (s : State) (c : ClusterId) (f : Cluster → Cluster) : (s.modCluster c f).coreMap = s.coreMap := rfl
@[simp] theorem State.modCluster_coreSpares (s : State) (c : ClusterId) (f : Cluster → Cluster) : (s.modCluster c f).coreSpares = s.coreSpares := rfl
@[simp] theorem State.modCluster_obsWindow (s : State) (c : ClusterId) (f : Cluster → Cluster) : (s.modCluster c f).obsWindow = s.obsWindow := rfl
@[simp] theorem State.modCluster_obsBytes (s : State) (c : ClusterId) (f : Cluster → Cluster) : (s.modCluster c f).obsBytes = s.obsBytes := rfl
@[simp] theorem State.modCluster_lastTick (s : State) (c : ClusterId) (f : Cluster → Cluster) : (s.modCluster c f).lastTick = s.lastTick := rfl
@[simp] theorem State.modCluster_opSince (s : State) (c : ClusterId) (f : Cluster → Cluster) : (s.modCluster c f).opSince = s.opSince := rfl

/-! ### State.modDie -/

@[simp] theorem State.modDie_pending (s : State) (d : DieId) (f : Die → Die) : (s.modDie d f).pending = s.pending := rfl
@[simp] theorem State.modDie_now (s : State) (d : DieId) (f : Die → Die) : (s.modDie d f).now = s.now := rfl
@[simp] theorem State.modDie_devNum (s : State) (d : DieId) (f : Die → Die) : (s.modDie d f).devNum = s.devNum := rfl
@[simp] theorem State.modDie_freeCtr (s : State) (d : DieId) (f : Die → Die) : (s.modDie d f).freeCtr = s.freeCtr := rfl
@[simp] theorem State.modDie_epochBase (s : State) (d : DieId) (f : Die → Die) : (s.modDie d f).epochBase = s.epochBase := rfl
@[simp] theorem State.modDie_tagCtr (s : State) (d : DieId) (f : Die → Die) : (s.modDie d f).tagCtr = s.tagCtr := rfl
@[simp] theorem State.modDie_sent (s : State) (d : DieId) (f : Die → Die) : (s.modDie d f).sent = s.sent := rfl
@[simp] theorem State.modDie_wire (s : State) (d : DieId) (f : Die → Die) : (s.modDie d f).wire = s.wire := rfl
@[simp] theorem State.modDie_datagrams (s : State) (d : DieId) (f : Die → Die) : (s.modDie d f).datagrams = s.datagrams := rfl
@[simp] theorem State.modDie_discarded (s : State) (d : DieId) (f : Die → Die) : (s.modDie d f).discarded = s.discarded := rfl
@[simp] theorem State.modDie_events (s : State) (d : DieId) (f : Die → Die) : (s.modDie d f).events = s.events := rfl
@[simp] theorem State.modDie_phase (s : State) (d : DieId) (f : Die → Die) : (s.modDie d f).phase = s.phase := rfl
@[simp] theorem State.modDie_startWord (s : State) (d : DieId) (f : Die → Die) : (s.modDie d f).startWord = s.startWord := rfl
@[simp] theorem State.modDie_tiles (s : State) (d : DieId) (f : Die → Die) : (s.modDie d f).tiles = s.tiles := rfl
@[simp] theorem State.modDie_clusters (s : State) (d : DieId) (f : Die → Die) : (s.modDie d f).clusters = s.clusters := rfl
@[simp] theorem State.modDie_ctrls (s : State) (d : DieId) (f : Die → Die) : (s.modDie d f).ctrls = s.ctrls := rfl
@[simp] theorem State.modDie_bands (s : State) (d : DieId) (f : Die → Die) : (s.modDie d f).bands = s.bands := rfl
@[simp] theorem State.modDie_domains (s : State) (d : DieId) (f : Die → Die) : (s.modDie d f).domains = s.domains := rfl
@[simp] theorem State.modDie_engines (s : State) (d : DieId) (f : Die → Die) : (s.modDie d f).engines = s.engines := rfl
@[simp] theorem State.modDie_ports (s : State) (d : DieId) (f : Die → Die) : (s.modDie d f).ports = s.ports := rfl
@[simp] theorem State.modDie_groups (s : State) (d : DieId) (f : Die → Die) : (s.modDie d f).groups = s.groups := rfl
@[simp] theorem State.modDie_parts (s : State) (d : DieId) (f : Die → Die) : (s.modDie d f).parts = s.parts := rfl
@[simp] theorem State.modDie_hbm (s : State) (d : DieId) (f : Die → Die) : (s.modDie d f).hbm = s.hbm := rfl
@[simp] theorem State.modDie_badAccess (s : State) (d : DieId) (f : Die → Die) : (s.modDie d f).badAccess = s.badAccess := rfl
@[simp] theorem State.modDie_hardNow (s : State) (d : DieId) (f : Die → Die) : (s.modDie d f).hardNow = s.hardNow := rfl
@[simp] theorem State.modDie_transients (s : State) (d : DieId) (f : Die → Die) : (s.modDie d f).transients = s.transients := rfl
@[simp] theorem State.modDie_rowRepairs (s : State) (d : DieId) (f : Die → Die) : (s.modDie d f).rowRepairs = s.rowRepairs := rfl
@[simp] theorem State.modDie_hardRepairs (s : State) (d : DieId) (f : Die → Die) : (s.modDie d f).hardRepairs = s.hardRepairs := rfl
@[simp] theorem State.modDie_testing (s : State) (d : DieId) (f : Die → Die) : (s.modDie d f).testing = s.testing := rfl
@[simp] theorem State.modDie_rootClk (s : State) (d : DieId) (f : Die → Die) : (s.modDie d f).rootClk = s.rootClk := rfl
@[simp] theorem State.modDie_watchdog (s : State) (d : DieId) (f : Die → Die) : (s.modDie d f).watchdog = s.watchdog := rfl
@[simp] theorem State.modDie_alert (s : State) (d : DieId) (f : Die → Die) : (s.modDie d f).alert = s.alert := rfl
@[simp] theorem State.modDie_slack (s : State) (d : DieId) (f : Die → Die) : (s.modDie d f).slack = s.slack := rfl
@[simp] theorem State.modDie_pins (s : State) (d : DieId) (f : Die → Die) : (s.modDie d f).pins = s.pins := rfl
@[simp] theorem State.modDie_power (s : State) (d : DieId) (f : Die → Die) : (s.modDie d f).power = s.power := rfl
@[simp] theorem State.modDie_rails (s : State) (d : DieId) (f : Die → Die) : (s.modDie d f).rails = s.rails := rfl
@[simp] theorem State.modDie_thermal (s : State) (d : DieId) (f : Die → Die) : (s.modDie d f).thermal = s.thermal := rfl
@[simp] theorem State.modDie_residual (s : State) (d : DieId) (f : Die → Die) : (s.modDie d f).residual = s.residual := rfl
@[simp] theorem State.modDie_dump (s : State) (d : DieId) (f : Die → Die) : (s.modDie d f).dump = s.dump := rfl
@[simp] theorem State.modDie_otp (s : State) (d : DieId) (f : Die → Die) : (s.modDie d f).otp = s.otp := rfl
@[simp] theorem State.modDie_flash (s : State) (d : DieId) (f : Die → Die) : (s.modDie d f).flash = s.flash := rfl
@[simp] theorem State.modDie_island (s : State) (d : DieId) (f : Die → Die) : (s.modDie d f).island = s.island := rfl
@[simp] theorem State.modDie_dict (s : State) (d : DieId) (f : Die → Die) : (s.modDie d f).dict = s.dict := rfl
@[simp] theorem State.modDie_devArea (s : State) (d : DieId) (f : Die → Die) : (s.modDie d f).devArea = s.devArea := rfl
@[simp] theorem State.modDie_writers (s : State) (d : DieId) (f : Die → Die) : (s.modDie d f).writers = s.writers := rfl
@[simp] theorem State.modDie_ecat (s : State) (d : DieId) (f : Die → Die) : (s.modDie d f).ecat = s.ecat := rfl
@[simp] theorem State.modDie_mapping (s : State) (d : DieId) (f : Die → Die) : (s.modDie d f).mapping = s.mapping := rfl
@[simp] theorem State.modDie_neighbours (s : State) (d : DieId) (f : Die → Die) : (s.modDie d f).neighbours = s.neighbours := rfl
@[simp] theorem State.modDie_unresolved (s : State) (d : DieId) (f : Die → Die) : (s.modDie d f).unresolved = s.unresolved := rfl
@[simp] theorem State.modDie_reads (s : State) (d : DieId) (f : Die → Die) : (s.modDie d f).reads = s.reads := rfl
@[simp] theorem State.modDie_routes (s : State) (d : DieId) (f : Die → Die) : (s.modDie d f).routes = s.routes := rfl
@[simp] theorem State.modDie_pathNs (s : State) (d : DieId) (f : Die → Die) : (s.modDie d f).pathNs = s.pathNs := rfl
@[simp] theorem State.modDie_topology (s : State) (d : DieId) (f : Die → Die) : (s.modDie d f).topology = s.topology := rfl
@[simp] theorem State.modDie_topoSeq (s : State) (d : DieId) (f : Die → Die) : (s.modDie d f).topoSeq = s.topoSeq := rfl
@[simp] theorem State.modDie_topoSeen (s : State) (d : DieId) (f : Die → Die) : (s.modDie d f).topoSeen = s.topoSeen := rfl
@[simp] theorem State.modDie_fabricUp (s : State) (d : DieId) (f : Die → Die) : (s.modDie d f).fabricUp = s.fabricUp := rfl
@[simp] theorem State.modDie_lasersOn (s : State) (d : DieId) (f : Die → Die) : (s.modDie d f).lasersOn = s.lasersOn := rfl
@[simp] theorem State.modDie_jtagOpen (s : State) (d : DieId) (f : Die → Die) : (s.modDie d f).jtagOpen = s.jtagOpen := rfl
@[simp] theorem State.modDie_coreMap (s : State) (d : DieId) (f : Die → Die) : (s.modDie d f).coreMap = s.coreMap := rfl
@[simp] theorem State.modDie_coreSpares (s : State) (d : DieId) (f : Die → Die) : (s.modDie d f).coreSpares = s.coreSpares := rfl
@[simp] theorem State.modDie_obsWindow (s : State) (d : DieId) (f : Die → Die) : (s.modDie d f).obsWindow = s.obsWindow := rfl
@[simp] theorem State.modDie_obsBytes (s : State) (d : DieId) (f : Die → Die) : (s.modDie d f).obsBytes = s.obsBytes := rfl
@[simp] theorem State.modDie_lastTick (s : State) (d : DieId) (f : Die → Die) : (s.modDie d f).lastTick = s.lastTick := rfl
@[simp] theorem State.modDie_opSince (s : State) (d : DieId) (f : Die → Die) : (s.modDie d f).opSince = s.opSince := rfl

/-! ### State.modCtrl -/

@[simp] theorem State.modCtrl_pending (s : State) (k : CtrlId) (f : Ctrl → Ctrl) : (s.modCtrl k f).pending = s.pending := rfl
@[simp] theorem State.modCtrl_now (s : State) (k : CtrlId) (f : Ctrl → Ctrl) : (s.modCtrl k f).now = s.now := rfl
@[simp] theorem State.modCtrl_devNum (s : State) (k : CtrlId) (f : Ctrl → Ctrl) : (s.modCtrl k f).devNum = s.devNum := rfl
@[simp] theorem State.modCtrl_freeCtr (s : State) (k : CtrlId) (f : Ctrl → Ctrl) : (s.modCtrl k f).freeCtr = s.freeCtr := rfl
@[simp] theorem State.modCtrl_epochBase (s : State) (k : CtrlId) (f : Ctrl → Ctrl) : (s.modCtrl k f).epochBase = s.epochBase := rfl
@[simp] theorem State.modCtrl_tagCtr (s : State) (k : CtrlId) (f : Ctrl → Ctrl) : (s.modCtrl k f).tagCtr = s.tagCtr := rfl
@[simp] theorem State.modCtrl_sent (s : State) (k : CtrlId) (f : Ctrl → Ctrl) : (s.modCtrl k f).sent = s.sent := rfl
@[simp] theorem State.modCtrl_wire (s : State) (k : CtrlId) (f : Ctrl → Ctrl) : (s.modCtrl k f).wire = s.wire := rfl
@[simp] theorem State.modCtrl_datagrams (s : State) (k : CtrlId) (f : Ctrl → Ctrl) : (s.modCtrl k f).datagrams = s.datagrams := rfl
@[simp] theorem State.modCtrl_discarded (s : State) (k : CtrlId) (f : Ctrl → Ctrl) : (s.modCtrl k f).discarded = s.discarded := rfl
@[simp] theorem State.modCtrl_events (s : State) (k : CtrlId) (f : Ctrl → Ctrl) : (s.modCtrl k f).events = s.events := rfl
@[simp] theorem State.modCtrl_phase (s : State) (k : CtrlId) (f : Ctrl → Ctrl) : (s.modCtrl k f).phase = s.phase := rfl
@[simp] theorem State.modCtrl_startWord (s : State) (k : CtrlId) (f : Ctrl → Ctrl) : (s.modCtrl k f).startWord = s.startWord := rfl
@[simp] theorem State.modCtrl_tiles (s : State) (k : CtrlId) (f : Ctrl → Ctrl) : (s.modCtrl k f).tiles = s.tiles := rfl
@[simp] theorem State.modCtrl_clusters (s : State) (k : CtrlId) (f : Ctrl → Ctrl) : (s.modCtrl k f).clusters = s.clusters := rfl
@[simp] theorem State.modCtrl_dies (s : State) (k : CtrlId) (f : Ctrl → Ctrl) : (s.modCtrl k f).dies = s.dies := rfl
@[simp] theorem State.modCtrl_bands (s : State) (k : CtrlId) (f : Ctrl → Ctrl) : (s.modCtrl k f).bands = s.bands := rfl
@[simp] theorem State.modCtrl_domains (s : State) (k : CtrlId) (f : Ctrl → Ctrl) : (s.modCtrl k f).domains = s.domains := rfl
@[simp] theorem State.modCtrl_engines (s : State) (k : CtrlId) (f : Ctrl → Ctrl) : (s.modCtrl k f).engines = s.engines := rfl
@[simp] theorem State.modCtrl_ports (s : State) (k : CtrlId) (f : Ctrl → Ctrl) : (s.modCtrl k f).ports = s.ports := rfl
@[simp] theorem State.modCtrl_groups (s : State) (k : CtrlId) (f : Ctrl → Ctrl) : (s.modCtrl k f).groups = s.groups := rfl
@[simp] theorem State.modCtrl_parts (s : State) (k : CtrlId) (f : Ctrl → Ctrl) : (s.modCtrl k f).parts = s.parts := rfl
@[simp] theorem State.modCtrl_hbm (s : State) (k : CtrlId) (f : Ctrl → Ctrl) : (s.modCtrl k f).hbm = s.hbm := rfl
@[simp] theorem State.modCtrl_badAccess (s : State) (k : CtrlId) (f : Ctrl → Ctrl) : (s.modCtrl k f).badAccess = s.badAccess := rfl
@[simp] theorem State.modCtrl_hardNow (s : State) (k : CtrlId) (f : Ctrl → Ctrl) : (s.modCtrl k f).hardNow = s.hardNow := rfl
@[simp] theorem State.modCtrl_transients (s : State) (k : CtrlId) (f : Ctrl → Ctrl) : (s.modCtrl k f).transients = s.transients := rfl
@[simp] theorem State.modCtrl_rowRepairs (s : State) (k : CtrlId) (f : Ctrl → Ctrl) : (s.modCtrl k f).rowRepairs = s.rowRepairs := rfl
@[simp] theorem State.modCtrl_hardRepairs (s : State) (k : CtrlId) (f : Ctrl → Ctrl) : (s.modCtrl k f).hardRepairs = s.hardRepairs := rfl
@[simp] theorem State.modCtrl_testing (s : State) (k : CtrlId) (f : Ctrl → Ctrl) : (s.modCtrl k f).testing = s.testing := rfl
@[simp] theorem State.modCtrl_rootClk (s : State) (k : CtrlId) (f : Ctrl → Ctrl) : (s.modCtrl k f).rootClk = s.rootClk := rfl
@[simp] theorem State.modCtrl_watchdog (s : State) (k : CtrlId) (f : Ctrl → Ctrl) : (s.modCtrl k f).watchdog = s.watchdog := rfl
@[simp] theorem State.modCtrl_alert (s : State) (k : CtrlId) (f : Ctrl → Ctrl) : (s.modCtrl k f).alert = s.alert := rfl
@[simp] theorem State.modCtrl_slack (s : State) (k : CtrlId) (f : Ctrl → Ctrl) : (s.modCtrl k f).slack = s.slack := rfl
@[simp] theorem State.modCtrl_pins (s : State) (k : CtrlId) (f : Ctrl → Ctrl) : (s.modCtrl k f).pins = s.pins := rfl
@[simp] theorem State.modCtrl_power (s : State) (k : CtrlId) (f : Ctrl → Ctrl) : (s.modCtrl k f).power = s.power := rfl
@[simp] theorem State.modCtrl_rails (s : State) (k : CtrlId) (f : Ctrl → Ctrl) : (s.modCtrl k f).rails = s.rails := rfl
@[simp] theorem State.modCtrl_thermal (s : State) (k : CtrlId) (f : Ctrl → Ctrl) : (s.modCtrl k f).thermal = s.thermal := rfl
@[simp] theorem State.modCtrl_residual (s : State) (k : CtrlId) (f : Ctrl → Ctrl) : (s.modCtrl k f).residual = s.residual := rfl
@[simp] theorem State.modCtrl_dump (s : State) (k : CtrlId) (f : Ctrl → Ctrl) : (s.modCtrl k f).dump = s.dump := rfl
@[simp] theorem State.modCtrl_otp (s : State) (k : CtrlId) (f : Ctrl → Ctrl) : (s.modCtrl k f).otp = s.otp := rfl
@[simp] theorem State.modCtrl_flash (s : State) (k : CtrlId) (f : Ctrl → Ctrl) : (s.modCtrl k f).flash = s.flash := rfl
@[simp] theorem State.modCtrl_island (s : State) (k : CtrlId) (f : Ctrl → Ctrl) : (s.modCtrl k f).island = s.island := rfl
@[simp] theorem State.modCtrl_dict (s : State) (k : CtrlId) (f : Ctrl → Ctrl) : (s.modCtrl k f).dict = s.dict := rfl
@[simp] theorem State.modCtrl_devArea (s : State) (k : CtrlId) (f : Ctrl → Ctrl) : (s.modCtrl k f).devArea = s.devArea := rfl
@[simp] theorem State.modCtrl_writers (s : State) (k : CtrlId) (f : Ctrl → Ctrl) : (s.modCtrl k f).writers = s.writers := rfl
@[simp] theorem State.modCtrl_ecat (s : State) (k : CtrlId) (f : Ctrl → Ctrl) : (s.modCtrl k f).ecat = s.ecat := rfl
@[simp] theorem State.modCtrl_mapping (s : State) (k : CtrlId) (f : Ctrl → Ctrl) : (s.modCtrl k f).mapping = s.mapping := rfl
@[simp] theorem State.modCtrl_neighbours (s : State) (k : CtrlId) (f : Ctrl → Ctrl) : (s.modCtrl k f).neighbours = s.neighbours := rfl
@[simp] theorem State.modCtrl_unresolved (s : State) (k : CtrlId) (f : Ctrl → Ctrl) : (s.modCtrl k f).unresolved = s.unresolved := rfl
@[simp] theorem State.modCtrl_reads (s : State) (k : CtrlId) (f : Ctrl → Ctrl) : (s.modCtrl k f).reads = s.reads := rfl
@[simp] theorem State.modCtrl_routes (s : State) (k : CtrlId) (f : Ctrl → Ctrl) : (s.modCtrl k f).routes = s.routes := rfl
@[simp] theorem State.modCtrl_pathNs (s : State) (k : CtrlId) (f : Ctrl → Ctrl) : (s.modCtrl k f).pathNs = s.pathNs := rfl
@[simp] theorem State.modCtrl_topology (s : State) (k : CtrlId) (f : Ctrl → Ctrl) : (s.modCtrl k f).topology = s.topology := rfl
@[simp] theorem State.modCtrl_topoSeq (s : State) (k : CtrlId) (f : Ctrl → Ctrl) : (s.modCtrl k f).topoSeq = s.topoSeq := rfl
@[simp] theorem State.modCtrl_topoSeen (s : State) (k : CtrlId) (f : Ctrl → Ctrl) : (s.modCtrl k f).topoSeen = s.topoSeen := rfl
@[simp] theorem State.modCtrl_fabricUp (s : State) (k : CtrlId) (f : Ctrl → Ctrl) : (s.modCtrl k f).fabricUp = s.fabricUp := rfl
@[simp] theorem State.modCtrl_lasersOn (s : State) (k : CtrlId) (f : Ctrl → Ctrl) : (s.modCtrl k f).lasersOn = s.lasersOn := rfl
@[simp] theorem State.modCtrl_jtagOpen (s : State) (k : CtrlId) (f : Ctrl → Ctrl) : (s.modCtrl k f).jtagOpen = s.jtagOpen := rfl
@[simp] theorem State.modCtrl_coreMap (s : State) (k : CtrlId) (f : Ctrl → Ctrl) : (s.modCtrl k f).coreMap = s.coreMap := rfl
@[simp] theorem State.modCtrl_coreSpares (s : State) (k : CtrlId) (f : Ctrl → Ctrl) : (s.modCtrl k f).coreSpares = s.coreSpares := rfl
@[simp] theorem State.modCtrl_obsWindow (s : State) (k : CtrlId) (f : Ctrl → Ctrl) : (s.modCtrl k f).obsWindow = s.obsWindow := rfl
@[simp] theorem State.modCtrl_obsBytes (s : State) (k : CtrlId) (f : Ctrl → Ctrl) : (s.modCtrl k f).obsBytes = s.obsBytes := rfl
@[simp] theorem State.modCtrl_lastTick (s : State) (k : CtrlId) (f : Ctrl → Ctrl) : (s.modCtrl k f).lastTick = s.lastTick := rfl
@[simp] theorem State.modCtrl_opSince (s : State) (k : CtrlId) (f : Ctrl → Ctrl) : (s.modCtrl k f).opSince = s.opSince := rfl

/-! ### State.modBand -/

@[simp] theorem State.modBand_pending (s : State) (b : BandId) (f : Band → Band) : (s.modBand b f).pending = s.pending := rfl
@[simp] theorem State.modBand_now (s : State) (b : BandId) (f : Band → Band) : (s.modBand b f).now = s.now := rfl
@[simp] theorem State.modBand_devNum (s : State) (b : BandId) (f : Band → Band) : (s.modBand b f).devNum = s.devNum := rfl
@[simp] theorem State.modBand_freeCtr (s : State) (b : BandId) (f : Band → Band) : (s.modBand b f).freeCtr = s.freeCtr := rfl
@[simp] theorem State.modBand_epochBase (s : State) (b : BandId) (f : Band → Band) : (s.modBand b f).epochBase = s.epochBase := rfl
@[simp] theorem State.modBand_tagCtr (s : State) (b : BandId) (f : Band → Band) : (s.modBand b f).tagCtr = s.tagCtr := rfl
@[simp] theorem State.modBand_sent (s : State) (b : BandId) (f : Band → Band) : (s.modBand b f).sent = s.sent := rfl
@[simp] theorem State.modBand_wire (s : State) (b : BandId) (f : Band → Band) : (s.modBand b f).wire = s.wire := rfl
@[simp] theorem State.modBand_datagrams (s : State) (b : BandId) (f : Band → Band) : (s.modBand b f).datagrams = s.datagrams := rfl
@[simp] theorem State.modBand_discarded (s : State) (b : BandId) (f : Band → Band) : (s.modBand b f).discarded = s.discarded := rfl
@[simp] theorem State.modBand_events (s : State) (b : BandId) (f : Band → Band) : (s.modBand b f).events = s.events := rfl
@[simp] theorem State.modBand_phase (s : State) (b : BandId) (f : Band → Band) : (s.modBand b f).phase = s.phase := rfl
@[simp] theorem State.modBand_startWord (s : State) (b : BandId) (f : Band → Band) : (s.modBand b f).startWord = s.startWord := rfl
@[simp] theorem State.modBand_tiles (s : State) (b : BandId) (f : Band → Band) : (s.modBand b f).tiles = s.tiles := rfl
@[simp] theorem State.modBand_clusters (s : State) (b : BandId) (f : Band → Band) : (s.modBand b f).clusters = s.clusters := rfl
@[simp] theorem State.modBand_dies (s : State) (b : BandId) (f : Band → Band) : (s.modBand b f).dies = s.dies := rfl
@[simp] theorem State.modBand_ctrls (s : State) (b : BandId) (f : Band → Band) : (s.modBand b f).ctrls = s.ctrls := rfl
@[simp] theorem State.modBand_domains (s : State) (b : BandId) (f : Band → Band) : (s.modBand b f).domains = s.domains := rfl
@[simp] theorem State.modBand_engines (s : State) (b : BandId) (f : Band → Band) : (s.modBand b f).engines = s.engines := rfl
@[simp] theorem State.modBand_ports (s : State) (b : BandId) (f : Band → Band) : (s.modBand b f).ports = s.ports := rfl
@[simp] theorem State.modBand_groups (s : State) (b : BandId) (f : Band → Band) : (s.modBand b f).groups = s.groups := rfl
@[simp] theorem State.modBand_parts (s : State) (b : BandId) (f : Band → Band) : (s.modBand b f).parts = s.parts := rfl
@[simp] theorem State.modBand_hbm (s : State) (b : BandId) (f : Band → Band) : (s.modBand b f).hbm = s.hbm := rfl
@[simp] theorem State.modBand_badAccess (s : State) (b : BandId) (f : Band → Band) : (s.modBand b f).badAccess = s.badAccess := rfl
@[simp] theorem State.modBand_hardNow (s : State) (b : BandId) (f : Band → Band) : (s.modBand b f).hardNow = s.hardNow := rfl
@[simp] theorem State.modBand_transients (s : State) (b : BandId) (f : Band → Band) : (s.modBand b f).transients = s.transients := rfl
@[simp] theorem State.modBand_rowRepairs (s : State) (b : BandId) (f : Band → Band) : (s.modBand b f).rowRepairs = s.rowRepairs := rfl
@[simp] theorem State.modBand_hardRepairs (s : State) (b : BandId) (f : Band → Band) : (s.modBand b f).hardRepairs = s.hardRepairs := rfl
@[simp] theorem State.modBand_testing (s : State) (b : BandId) (f : Band → Band) : (s.modBand b f).testing = s.testing := rfl
@[simp] theorem State.modBand_rootClk (s : State) (b : BandId) (f : Band → Band) : (s.modBand b f).rootClk = s.rootClk := rfl
@[simp] theorem State.modBand_watchdog (s : State) (b : BandId) (f : Band → Band) : (s.modBand b f).watchdog = s.watchdog := rfl
@[simp] theorem State.modBand_alert (s : State) (b : BandId) (f : Band → Band) : (s.modBand b f).alert = s.alert := rfl
@[simp] theorem State.modBand_slack (s : State) (b : BandId) (f : Band → Band) : (s.modBand b f).slack = s.slack := rfl
@[simp] theorem State.modBand_pins (s : State) (b : BandId) (f : Band → Band) : (s.modBand b f).pins = s.pins := rfl
@[simp] theorem State.modBand_power (s : State) (b : BandId) (f : Band → Band) : (s.modBand b f).power = s.power := rfl
@[simp] theorem State.modBand_rails (s : State) (b : BandId) (f : Band → Band) : (s.modBand b f).rails = s.rails := rfl
@[simp] theorem State.modBand_thermal (s : State) (b : BandId) (f : Band → Band) : (s.modBand b f).thermal = s.thermal := rfl
@[simp] theorem State.modBand_residual (s : State) (b : BandId) (f : Band → Band) : (s.modBand b f).residual = s.residual := rfl
@[simp] theorem State.modBand_dump (s : State) (b : BandId) (f : Band → Band) : (s.modBand b f).dump = s.dump := rfl
@[simp] theorem State.modBand_otp (s : State) (b : BandId) (f : Band → Band) : (s.modBand b f).otp = s.otp := rfl
@[simp] theorem State.modBand_flash (s : State) (b : BandId) (f : Band → Band) : (s.modBand b f).flash = s.flash := rfl
@[simp] theorem State.modBand_island (s : State) (b : BandId) (f : Band → Band) : (s.modBand b f).island = s.island := rfl
@[simp] theorem State.modBand_dict (s : State) (b : BandId) (f : Band → Band) : (s.modBand b f).dict = s.dict := rfl
@[simp] theorem State.modBand_devArea (s : State) (b : BandId) (f : Band → Band) : (s.modBand b f).devArea = s.devArea := rfl
@[simp] theorem State.modBand_writers (s : State) (b : BandId) (f : Band → Band) : (s.modBand b f).writers = s.writers := rfl
@[simp] theorem State.modBand_ecat (s : State) (b : BandId) (f : Band → Band) : (s.modBand b f).ecat = s.ecat := rfl
@[simp] theorem State.modBand_mapping (s : State) (b : BandId) (f : Band → Band) : (s.modBand b f).mapping = s.mapping := rfl
@[simp] theorem State.modBand_neighbours (s : State) (b : BandId) (f : Band → Band) : (s.modBand b f).neighbours = s.neighbours := rfl
@[simp] theorem State.modBand_unresolved (s : State) (b : BandId) (f : Band → Band) : (s.modBand b f).unresolved = s.unresolved := rfl
@[simp] theorem State.modBand_reads (s : State) (b : BandId) (f : Band → Band) : (s.modBand b f).reads = s.reads := rfl
@[simp] theorem State.modBand_routes (s : State) (b : BandId) (f : Band → Band) : (s.modBand b f).routes = s.routes := rfl
@[simp] theorem State.modBand_pathNs (s : State) (b : BandId) (f : Band → Band) : (s.modBand b f).pathNs = s.pathNs := rfl
@[simp] theorem State.modBand_topology (s : State) (b : BandId) (f : Band → Band) : (s.modBand b f).topology = s.topology := rfl
@[simp] theorem State.modBand_topoSeq (s : State) (b : BandId) (f : Band → Band) : (s.modBand b f).topoSeq = s.topoSeq := rfl
@[simp] theorem State.modBand_topoSeen (s : State) (b : BandId) (f : Band → Band) : (s.modBand b f).topoSeen = s.topoSeen := rfl
@[simp] theorem State.modBand_fabricUp (s : State) (b : BandId) (f : Band → Band) : (s.modBand b f).fabricUp = s.fabricUp := rfl
@[simp] theorem State.modBand_lasersOn (s : State) (b : BandId) (f : Band → Band) : (s.modBand b f).lasersOn = s.lasersOn := rfl
@[simp] theorem State.modBand_jtagOpen (s : State) (b : BandId) (f : Band → Band) : (s.modBand b f).jtagOpen = s.jtagOpen := rfl
@[simp] theorem State.modBand_coreMap (s : State) (b : BandId) (f : Band → Band) : (s.modBand b f).coreMap = s.coreMap := rfl
@[simp] theorem State.modBand_coreSpares (s : State) (b : BandId) (f : Band → Band) : (s.modBand b f).coreSpares = s.coreSpares := rfl
@[simp] theorem State.modBand_obsWindow (s : State) (b : BandId) (f : Band → Band) : (s.modBand b f).obsWindow = s.obsWindow := rfl
@[simp] theorem State.modBand_obsBytes (s : State) (b : BandId) (f : Band → Band) : (s.modBand b f).obsBytes = s.obsBytes := rfl
@[simp] theorem State.modBand_lastTick (s : State) (b : BandId) (f : Band → Band) : (s.modBand b f).lastTick = s.lastTick := rfl
@[simp] theorem State.modBand_opSince (s : State) (b : BandId) (f : Band → Band) : (s.modBand b f).opSince = s.opSince := rfl

/-! ### State.setDom -/

@[simp] theorem State.setDom_pending (s : State) (n : Nat) (v : DomSt) : (s.setDom n v).pending = s.pending := rfl
@[simp] theorem State.setDom_now (s : State) (n : Nat) (v : DomSt) : (s.setDom n v).now = s.now := rfl
@[simp] theorem State.setDom_devNum (s : State) (n : Nat) (v : DomSt) : (s.setDom n v).devNum = s.devNum := rfl
@[simp] theorem State.setDom_freeCtr (s : State) (n : Nat) (v : DomSt) : (s.setDom n v).freeCtr = s.freeCtr := rfl
@[simp] theorem State.setDom_epochBase (s : State) (n : Nat) (v : DomSt) : (s.setDom n v).epochBase = s.epochBase := rfl
@[simp] theorem State.setDom_tagCtr (s : State) (n : Nat) (v : DomSt) : (s.setDom n v).tagCtr = s.tagCtr := rfl
@[simp] theorem State.setDom_sent (s : State) (n : Nat) (v : DomSt) : (s.setDom n v).sent = s.sent := rfl
@[simp] theorem State.setDom_wire (s : State) (n : Nat) (v : DomSt) : (s.setDom n v).wire = s.wire := rfl
@[simp] theorem State.setDom_datagrams (s : State) (n : Nat) (v : DomSt) : (s.setDom n v).datagrams = s.datagrams := rfl
@[simp] theorem State.setDom_discarded (s : State) (n : Nat) (v : DomSt) : (s.setDom n v).discarded = s.discarded := rfl
@[simp] theorem State.setDom_events (s : State) (n : Nat) (v : DomSt) : (s.setDom n v).events = s.events := rfl
@[simp] theorem State.setDom_phase (s : State) (n : Nat) (v : DomSt) : (s.setDom n v).phase = s.phase := rfl
@[simp] theorem State.setDom_startWord (s : State) (n : Nat) (v : DomSt) : (s.setDom n v).startWord = s.startWord := rfl
@[simp] theorem State.setDom_tiles (s : State) (n : Nat) (v : DomSt) : (s.setDom n v).tiles = s.tiles := rfl
@[simp] theorem State.setDom_clusters (s : State) (n : Nat) (v : DomSt) : (s.setDom n v).clusters = s.clusters := rfl
@[simp] theorem State.setDom_dies (s : State) (n : Nat) (v : DomSt) : (s.setDom n v).dies = s.dies := rfl
@[simp] theorem State.setDom_ctrls (s : State) (n : Nat) (v : DomSt) : (s.setDom n v).ctrls = s.ctrls := rfl
@[simp] theorem State.setDom_bands (s : State) (n : Nat) (v : DomSt) : (s.setDom n v).bands = s.bands := rfl
@[simp] theorem State.setDom_engines (s : State) (n : Nat) (v : DomSt) : (s.setDom n v).engines = s.engines := rfl
@[simp] theorem State.setDom_ports (s : State) (n : Nat) (v : DomSt) : (s.setDom n v).ports = s.ports := rfl
@[simp] theorem State.setDom_groups (s : State) (n : Nat) (v : DomSt) : (s.setDom n v).groups = s.groups := rfl
@[simp] theorem State.setDom_parts (s : State) (n : Nat) (v : DomSt) : (s.setDom n v).parts = s.parts := rfl
@[simp] theorem State.setDom_hbm (s : State) (n : Nat) (v : DomSt) : (s.setDom n v).hbm = s.hbm := rfl
@[simp] theorem State.setDom_badAccess (s : State) (n : Nat) (v : DomSt) : (s.setDom n v).badAccess = s.badAccess := rfl
@[simp] theorem State.setDom_hardNow (s : State) (n : Nat) (v : DomSt) : (s.setDom n v).hardNow = s.hardNow := rfl
@[simp] theorem State.setDom_transients (s : State) (n : Nat) (v : DomSt) : (s.setDom n v).transients = s.transients := rfl
@[simp] theorem State.setDom_rowRepairs (s : State) (n : Nat) (v : DomSt) : (s.setDom n v).rowRepairs = s.rowRepairs := rfl
@[simp] theorem State.setDom_hardRepairs (s : State) (n : Nat) (v : DomSt) : (s.setDom n v).hardRepairs = s.hardRepairs := rfl
@[simp] theorem State.setDom_testing (s : State) (n : Nat) (v : DomSt) : (s.setDom n v).testing = s.testing := rfl
@[simp] theorem State.setDom_rootClk (s : State) (n : Nat) (v : DomSt) : (s.setDom n v).rootClk = s.rootClk := rfl
@[simp] theorem State.setDom_watchdog (s : State) (n : Nat) (v : DomSt) : (s.setDom n v).watchdog = s.watchdog := rfl
@[simp] theorem State.setDom_alert (s : State) (n : Nat) (v : DomSt) : (s.setDom n v).alert = s.alert := rfl
@[simp] theorem State.setDom_slack (s : State) (n : Nat) (v : DomSt) : (s.setDom n v).slack = s.slack := rfl
@[simp] theorem State.setDom_pins (s : State) (n : Nat) (v : DomSt) : (s.setDom n v).pins = s.pins := rfl
@[simp] theorem State.setDom_power (s : State) (n : Nat) (v : DomSt) : (s.setDom n v).power = s.power := rfl
@[simp] theorem State.setDom_rails (s : State) (n : Nat) (v : DomSt) : (s.setDom n v).rails = s.rails := rfl
@[simp] theorem State.setDom_thermal (s : State) (n : Nat) (v : DomSt) : (s.setDom n v).thermal = s.thermal := rfl
@[simp] theorem State.setDom_residual (s : State) (n : Nat) (v : DomSt) : (s.setDom n v).residual = s.residual := rfl
@[simp] theorem State.setDom_dump (s : State) (n : Nat) (v : DomSt) : (s.setDom n v).dump = s.dump := rfl
@[simp] theorem State.setDom_otp (s : State) (n : Nat) (v : DomSt) : (s.setDom n v).otp = s.otp := rfl
@[simp] theorem State.setDom_flash (s : State) (n : Nat) (v : DomSt) : (s.setDom n v).flash = s.flash := rfl
@[simp] theorem State.setDom_island (s : State) (n : Nat) (v : DomSt) : (s.setDom n v).island = s.island := rfl
@[simp] theorem State.setDom_dict (s : State) (n : Nat) (v : DomSt) : (s.setDom n v).dict = s.dict := rfl
@[simp] theorem State.setDom_devArea (s : State) (n : Nat) (v : DomSt) : (s.setDom n v).devArea = s.devArea := rfl
@[simp] theorem State.setDom_writers (s : State) (n : Nat) (v : DomSt) : (s.setDom n v).writers = s.writers := rfl
@[simp] theorem State.setDom_ecat (s : State) (n : Nat) (v : DomSt) : (s.setDom n v).ecat = s.ecat := rfl
@[simp] theorem State.setDom_mapping (s : State) (n : Nat) (v : DomSt) : (s.setDom n v).mapping = s.mapping := rfl
@[simp] theorem State.setDom_neighbours (s : State) (n : Nat) (v : DomSt) : (s.setDom n v).neighbours = s.neighbours := rfl
@[simp] theorem State.setDom_unresolved (s : State) (n : Nat) (v : DomSt) : (s.setDom n v).unresolved = s.unresolved := rfl
@[simp] theorem State.setDom_reads (s : State) (n : Nat) (v : DomSt) : (s.setDom n v).reads = s.reads := rfl
@[simp] theorem State.setDom_routes (s : State) (n : Nat) (v : DomSt) : (s.setDom n v).routes = s.routes := rfl
@[simp] theorem State.setDom_pathNs (s : State) (n : Nat) (v : DomSt) : (s.setDom n v).pathNs = s.pathNs := rfl
@[simp] theorem State.setDom_topology (s : State) (n : Nat) (v : DomSt) : (s.setDom n v).topology = s.topology := rfl
@[simp] theorem State.setDom_topoSeq (s : State) (n : Nat) (v : DomSt) : (s.setDom n v).topoSeq = s.topoSeq := rfl
@[simp] theorem State.setDom_topoSeen (s : State) (n : Nat) (v : DomSt) : (s.setDom n v).topoSeen = s.topoSeen := rfl
@[simp] theorem State.setDom_fabricUp (s : State) (n : Nat) (v : DomSt) : (s.setDom n v).fabricUp = s.fabricUp := rfl
@[simp] theorem State.setDom_lasersOn (s : State) (n : Nat) (v : DomSt) : (s.setDom n v).lasersOn = s.lasersOn := rfl
@[simp] theorem State.setDom_jtagOpen (s : State) (n : Nat) (v : DomSt) : (s.setDom n v).jtagOpen = s.jtagOpen := rfl
@[simp] theorem State.setDom_coreMap (s : State) (n : Nat) (v : DomSt) : (s.setDom n v).coreMap = s.coreMap := rfl
@[simp] theorem State.setDom_coreSpares (s : State) (n : Nat) (v : DomSt) : (s.setDom n v).coreSpares = s.coreSpares := rfl
@[simp] theorem State.setDom_obsWindow (s : State) (n : Nat) (v : DomSt) : (s.setDom n v).obsWindow = s.obsWindow := rfl
@[simp] theorem State.setDom_obsBytes (s : State) (n : Nat) (v : DomSt) : (s.setDom n v).obsBytes = s.obsBytes := rfl
@[simp] theorem State.setDom_lastTick (s : State) (n : Nat) (v : DomSt) : (s.setDom n v).lastTick = s.lastTick := rfl
@[simp] theorem State.setDom_opSince (s : State) (n : Nat) (v : DomSt) : (s.setDom n v).opSince = s.opSince := rfl

/-! ### State.modEngine -/

@[simp] theorem State.modEngine_pending (s : State) (e : EngineId) (f : Engine → Engine) : (s.modEngine e f).pending = s.pending := rfl
@[simp] theorem State.modEngine_now (s : State) (e : EngineId) (f : Engine → Engine) : (s.modEngine e f).now = s.now := rfl
@[simp] theorem State.modEngine_devNum (s : State) (e : EngineId) (f : Engine → Engine) : (s.modEngine e f).devNum = s.devNum := rfl
@[simp] theorem State.modEngine_freeCtr (s : State) (e : EngineId) (f : Engine → Engine) : (s.modEngine e f).freeCtr = s.freeCtr := rfl
@[simp] theorem State.modEngine_epochBase (s : State) (e : EngineId) (f : Engine → Engine) : (s.modEngine e f).epochBase = s.epochBase := rfl
@[simp] theorem State.modEngine_tagCtr (s : State) (e : EngineId) (f : Engine → Engine) : (s.modEngine e f).tagCtr = s.tagCtr := rfl
@[simp] theorem State.modEngine_sent (s : State) (e : EngineId) (f : Engine → Engine) : (s.modEngine e f).sent = s.sent := rfl
@[simp] theorem State.modEngine_wire (s : State) (e : EngineId) (f : Engine → Engine) : (s.modEngine e f).wire = s.wire := rfl
@[simp] theorem State.modEngine_datagrams (s : State) (e : EngineId) (f : Engine → Engine) : (s.modEngine e f).datagrams = s.datagrams := rfl
@[simp] theorem State.modEngine_discarded (s : State) (e : EngineId) (f : Engine → Engine) : (s.modEngine e f).discarded = s.discarded := rfl
@[simp] theorem State.modEngine_events (s : State) (e : EngineId) (f : Engine → Engine) : (s.modEngine e f).events = s.events := rfl
@[simp] theorem State.modEngine_phase (s : State) (e : EngineId) (f : Engine → Engine) : (s.modEngine e f).phase = s.phase := rfl
@[simp] theorem State.modEngine_startWord (s : State) (e : EngineId) (f : Engine → Engine) : (s.modEngine e f).startWord = s.startWord := rfl
@[simp] theorem State.modEngine_tiles (s : State) (e : EngineId) (f : Engine → Engine) : (s.modEngine e f).tiles = s.tiles := rfl
@[simp] theorem State.modEngine_clusters (s : State) (e : EngineId) (f : Engine → Engine) : (s.modEngine e f).clusters = s.clusters := rfl
@[simp] theorem State.modEngine_dies (s : State) (e : EngineId) (f : Engine → Engine) : (s.modEngine e f).dies = s.dies := rfl
@[simp] theorem State.modEngine_ctrls (s : State) (e : EngineId) (f : Engine → Engine) : (s.modEngine e f).ctrls = s.ctrls := rfl
@[simp] theorem State.modEngine_bands (s : State) (e : EngineId) (f : Engine → Engine) : (s.modEngine e f).bands = s.bands := rfl
@[simp] theorem State.modEngine_domains (s : State) (e : EngineId) (f : Engine → Engine) : (s.modEngine e f).domains = s.domains := rfl
@[simp] theorem State.modEngine_ports (s : State) (e : EngineId) (f : Engine → Engine) : (s.modEngine e f).ports = s.ports := rfl
@[simp] theorem State.modEngine_groups (s : State) (e : EngineId) (f : Engine → Engine) : (s.modEngine e f).groups = s.groups := rfl
@[simp] theorem State.modEngine_parts (s : State) (e : EngineId) (f : Engine → Engine) : (s.modEngine e f).parts = s.parts := rfl
@[simp] theorem State.modEngine_hbm (s : State) (e : EngineId) (f : Engine → Engine) : (s.modEngine e f).hbm = s.hbm := rfl
@[simp] theorem State.modEngine_badAccess (s : State) (e : EngineId) (f : Engine → Engine) : (s.modEngine e f).badAccess = s.badAccess := rfl
@[simp] theorem State.modEngine_hardNow (s : State) (e : EngineId) (f : Engine → Engine) : (s.modEngine e f).hardNow = s.hardNow := rfl
@[simp] theorem State.modEngine_transients (s : State) (e : EngineId) (f : Engine → Engine) : (s.modEngine e f).transients = s.transients := rfl
@[simp] theorem State.modEngine_rowRepairs (s : State) (e : EngineId) (f : Engine → Engine) : (s.modEngine e f).rowRepairs = s.rowRepairs := rfl
@[simp] theorem State.modEngine_hardRepairs (s : State) (e : EngineId) (f : Engine → Engine) : (s.modEngine e f).hardRepairs = s.hardRepairs := rfl
@[simp] theorem State.modEngine_testing (s : State) (e : EngineId) (f : Engine → Engine) : (s.modEngine e f).testing = s.testing := rfl
@[simp] theorem State.modEngine_rootClk (s : State) (e : EngineId) (f : Engine → Engine) : (s.modEngine e f).rootClk = s.rootClk := rfl
@[simp] theorem State.modEngine_watchdog (s : State) (e : EngineId) (f : Engine → Engine) : (s.modEngine e f).watchdog = s.watchdog := rfl
@[simp] theorem State.modEngine_alert (s : State) (e : EngineId) (f : Engine → Engine) : (s.modEngine e f).alert = s.alert := rfl
@[simp] theorem State.modEngine_slack (s : State) (e : EngineId) (f : Engine → Engine) : (s.modEngine e f).slack = s.slack := rfl
@[simp] theorem State.modEngine_pins (s : State) (e : EngineId) (f : Engine → Engine) : (s.modEngine e f).pins = s.pins := rfl
@[simp] theorem State.modEngine_power (s : State) (e : EngineId) (f : Engine → Engine) : (s.modEngine e f).power = s.power := rfl
@[simp] theorem State.modEngine_rails (s : State) (e : EngineId) (f : Engine → Engine) : (s.modEngine e f).rails = s.rails := rfl
@[simp] theorem State.modEngine_thermal (s : State) (e : EngineId) (f : Engine → Engine) : (s.modEngine e f).thermal = s.thermal := rfl
@[simp] theorem State.modEngine_residual (s : State) (e : EngineId) (f : Engine → Engine) : (s.modEngine e f).residual = s.residual := rfl
@[simp] theorem State.modEngine_dump (s : State) (e : EngineId) (f : Engine → Engine) : (s.modEngine e f).dump = s.dump := rfl
@[simp] theorem State.modEngine_otp (s : State) (e : EngineId) (f : Engine → Engine) : (s.modEngine e f).otp = s.otp := rfl
@[simp] theorem State.modEngine_flash (s : State) (e : EngineId) (f : Engine → Engine) : (s.modEngine e f).flash = s.flash := rfl
@[simp] theorem State.modEngine_island (s : State) (e : EngineId) (f : Engine → Engine) : (s.modEngine e f).island = s.island := rfl
@[simp] theorem State.modEngine_dict (s : State) (e : EngineId) (f : Engine → Engine) : (s.modEngine e f).dict = s.dict := rfl
@[simp] theorem State.modEngine_devArea (s : State) (e : EngineId) (f : Engine → Engine) : (s.modEngine e f).devArea = s.devArea := rfl
@[simp] theorem State.modEngine_writers (s : State) (e : EngineId) (f : Engine → Engine) : (s.modEngine e f).writers = s.writers := rfl
@[simp] theorem State.modEngine_ecat (s : State) (e : EngineId) (f : Engine → Engine) : (s.modEngine e f).ecat = s.ecat := rfl
@[simp] theorem State.modEngine_mapping (s : State) (e : EngineId) (f : Engine → Engine) : (s.modEngine e f).mapping = s.mapping := rfl
@[simp] theorem State.modEngine_neighbours (s : State) (e : EngineId) (f : Engine → Engine) : (s.modEngine e f).neighbours = s.neighbours := rfl
@[simp] theorem State.modEngine_unresolved (s : State) (e : EngineId) (f : Engine → Engine) : (s.modEngine e f).unresolved = s.unresolved := rfl
@[simp] theorem State.modEngine_reads (s : State) (e : EngineId) (f : Engine → Engine) : (s.modEngine e f).reads = s.reads := rfl
@[simp] theorem State.modEngine_routes (s : State) (e : EngineId) (f : Engine → Engine) : (s.modEngine e f).routes = s.routes := rfl
@[simp] theorem State.modEngine_pathNs (s : State) (e : EngineId) (f : Engine → Engine) : (s.modEngine e f).pathNs = s.pathNs := rfl
@[simp] theorem State.modEngine_topology (s : State) (e : EngineId) (f : Engine → Engine) : (s.modEngine e f).topology = s.topology := rfl
@[simp] theorem State.modEngine_topoSeq (s : State) (e : EngineId) (f : Engine → Engine) : (s.modEngine e f).topoSeq = s.topoSeq := rfl
@[simp] theorem State.modEngine_topoSeen (s : State) (e : EngineId) (f : Engine → Engine) : (s.modEngine e f).topoSeen = s.topoSeen := rfl
@[simp] theorem State.modEngine_fabricUp (s : State) (e : EngineId) (f : Engine → Engine) : (s.modEngine e f).fabricUp = s.fabricUp := rfl
@[simp] theorem State.modEngine_lasersOn (s : State) (e : EngineId) (f : Engine → Engine) : (s.modEngine e f).lasersOn = s.lasersOn := rfl
@[simp] theorem State.modEngine_jtagOpen (s : State) (e : EngineId) (f : Engine → Engine) : (s.modEngine e f).jtagOpen = s.jtagOpen := rfl
@[simp] theorem State.modEngine_coreMap (s : State) (e : EngineId) (f : Engine → Engine) : (s.modEngine e f).coreMap = s.coreMap := rfl
@[simp] theorem State.modEngine_coreSpares (s : State) (e : EngineId) (f : Engine → Engine) : (s.modEngine e f).coreSpares = s.coreSpares := rfl
@[simp] theorem State.modEngine_obsWindow (s : State) (e : EngineId) (f : Engine → Engine) : (s.modEngine e f).obsWindow = s.obsWindow := rfl
@[simp] theorem State.modEngine_obsBytes (s : State) (e : EngineId) (f : Engine → Engine) : (s.modEngine e f).obsBytes = s.obsBytes := rfl
@[simp] theorem State.modEngine_lastTick (s : State) (e : EngineId) (f : Engine → Engine) : (s.modEngine e f).lastTick = s.lastTick := rfl
@[simp] theorem State.modEngine_opSince (s : State) (e : EngineId) (f : Engine → Engine) : (s.modEngine e f).opSince = s.opSince := rfl

/-! ### State.modPort -/

@[simp] theorem State.modPort_pending (s : State) (p : PortId) (f : Port → Port) : (s.modPort p f).pending = s.pending := rfl
@[simp] theorem State.modPort_now (s : State) (p : PortId) (f : Port → Port) : (s.modPort p f).now = s.now := rfl
@[simp] theorem State.modPort_devNum (s : State) (p : PortId) (f : Port → Port) : (s.modPort p f).devNum = s.devNum := rfl
@[simp] theorem State.modPort_freeCtr (s : State) (p : PortId) (f : Port → Port) : (s.modPort p f).freeCtr = s.freeCtr := rfl
@[simp] theorem State.modPort_epochBase (s : State) (p : PortId) (f : Port → Port) : (s.modPort p f).epochBase = s.epochBase := rfl
@[simp] theorem State.modPort_tagCtr (s : State) (p : PortId) (f : Port → Port) : (s.modPort p f).tagCtr = s.tagCtr := rfl
@[simp] theorem State.modPort_sent (s : State) (p : PortId) (f : Port → Port) : (s.modPort p f).sent = s.sent := rfl
@[simp] theorem State.modPort_wire (s : State) (p : PortId) (f : Port → Port) : (s.modPort p f).wire = s.wire := rfl
@[simp] theorem State.modPort_datagrams (s : State) (p : PortId) (f : Port → Port) : (s.modPort p f).datagrams = s.datagrams := rfl
@[simp] theorem State.modPort_discarded (s : State) (p : PortId) (f : Port → Port) : (s.modPort p f).discarded = s.discarded := rfl
@[simp] theorem State.modPort_events (s : State) (p : PortId) (f : Port → Port) : (s.modPort p f).events = s.events := rfl
@[simp] theorem State.modPort_phase (s : State) (p : PortId) (f : Port → Port) : (s.modPort p f).phase = s.phase := rfl
@[simp] theorem State.modPort_startWord (s : State) (p : PortId) (f : Port → Port) : (s.modPort p f).startWord = s.startWord := rfl
@[simp] theorem State.modPort_tiles (s : State) (p : PortId) (f : Port → Port) : (s.modPort p f).tiles = s.tiles := rfl
@[simp] theorem State.modPort_clusters (s : State) (p : PortId) (f : Port → Port) : (s.modPort p f).clusters = s.clusters := rfl
@[simp] theorem State.modPort_dies (s : State) (p : PortId) (f : Port → Port) : (s.modPort p f).dies = s.dies := rfl
@[simp] theorem State.modPort_ctrls (s : State) (p : PortId) (f : Port → Port) : (s.modPort p f).ctrls = s.ctrls := rfl
@[simp] theorem State.modPort_bands (s : State) (p : PortId) (f : Port → Port) : (s.modPort p f).bands = s.bands := rfl
@[simp] theorem State.modPort_domains (s : State) (p : PortId) (f : Port → Port) : (s.modPort p f).domains = s.domains := rfl
@[simp] theorem State.modPort_engines (s : State) (p : PortId) (f : Port → Port) : (s.modPort p f).engines = s.engines := rfl
@[simp] theorem State.modPort_groups (s : State) (p : PortId) (f : Port → Port) : (s.modPort p f).groups = s.groups := rfl
@[simp] theorem State.modPort_parts (s : State) (p : PortId) (f : Port → Port) : (s.modPort p f).parts = s.parts := rfl
@[simp] theorem State.modPort_hbm (s : State) (p : PortId) (f : Port → Port) : (s.modPort p f).hbm = s.hbm := rfl
@[simp] theorem State.modPort_badAccess (s : State) (p : PortId) (f : Port → Port) : (s.modPort p f).badAccess = s.badAccess := rfl
@[simp] theorem State.modPort_hardNow (s : State) (p : PortId) (f : Port → Port) : (s.modPort p f).hardNow = s.hardNow := rfl
@[simp] theorem State.modPort_transients (s : State) (p : PortId) (f : Port → Port) : (s.modPort p f).transients = s.transients := rfl
@[simp] theorem State.modPort_rowRepairs (s : State) (p : PortId) (f : Port → Port) : (s.modPort p f).rowRepairs = s.rowRepairs := rfl
@[simp] theorem State.modPort_hardRepairs (s : State) (p : PortId) (f : Port → Port) : (s.modPort p f).hardRepairs = s.hardRepairs := rfl
@[simp] theorem State.modPort_testing (s : State) (p : PortId) (f : Port → Port) : (s.modPort p f).testing = s.testing := rfl
@[simp] theorem State.modPort_rootClk (s : State) (p : PortId) (f : Port → Port) : (s.modPort p f).rootClk = s.rootClk := rfl
@[simp] theorem State.modPort_watchdog (s : State) (p : PortId) (f : Port → Port) : (s.modPort p f).watchdog = s.watchdog := rfl
@[simp] theorem State.modPort_alert (s : State) (p : PortId) (f : Port → Port) : (s.modPort p f).alert = s.alert := rfl
@[simp] theorem State.modPort_slack (s : State) (p : PortId) (f : Port → Port) : (s.modPort p f).slack = s.slack := rfl
@[simp] theorem State.modPort_pins (s : State) (p : PortId) (f : Port → Port) : (s.modPort p f).pins = s.pins := rfl
@[simp] theorem State.modPort_power (s : State) (p : PortId) (f : Port → Port) : (s.modPort p f).power = s.power := rfl
@[simp] theorem State.modPort_rails (s : State) (p : PortId) (f : Port → Port) : (s.modPort p f).rails = s.rails := rfl
@[simp] theorem State.modPort_thermal (s : State) (p : PortId) (f : Port → Port) : (s.modPort p f).thermal = s.thermal := rfl
@[simp] theorem State.modPort_residual (s : State) (p : PortId) (f : Port → Port) : (s.modPort p f).residual = s.residual := rfl
@[simp] theorem State.modPort_dump (s : State) (p : PortId) (f : Port → Port) : (s.modPort p f).dump = s.dump := rfl
@[simp] theorem State.modPort_otp (s : State) (p : PortId) (f : Port → Port) : (s.modPort p f).otp = s.otp := rfl
@[simp] theorem State.modPort_flash (s : State) (p : PortId) (f : Port → Port) : (s.modPort p f).flash = s.flash := rfl
@[simp] theorem State.modPort_island (s : State) (p : PortId) (f : Port → Port) : (s.modPort p f).island = s.island := rfl
@[simp] theorem State.modPort_dict (s : State) (p : PortId) (f : Port → Port) : (s.modPort p f).dict = s.dict := rfl
@[simp] theorem State.modPort_devArea (s : State) (p : PortId) (f : Port → Port) : (s.modPort p f).devArea = s.devArea := rfl
@[simp] theorem State.modPort_writers (s : State) (p : PortId) (f : Port → Port) : (s.modPort p f).writers = s.writers := rfl
@[simp] theorem State.modPort_ecat (s : State) (p : PortId) (f : Port → Port) : (s.modPort p f).ecat = s.ecat := rfl
@[simp] theorem State.modPort_mapping (s : State) (p : PortId) (f : Port → Port) : (s.modPort p f).mapping = s.mapping := rfl
@[simp] theorem State.modPort_neighbours (s : State) (p : PortId) (f : Port → Port) : (s.modPort p f).neighbours = s.neighbours := rfl
@[simp] theorem State.modPort_unresolved (s : State) (p : PortId) (f : Port → Port) : (s.modPort p f).unresolved = s.unresolved := rfl
@[simp] theorem State.modPort_reads (s : State) (p : PortId) (f : Port → Port) : (s.modPort p f).reads = s.reads := rfl
@[simp] theorem State.modPort_routes (s : State) (p : PortId) (f : Port → Port) : (s.modPort p f).routes = s.routes := rfl
@[simp] theorem State.modPort_pathNs (s : State) (p : PortId) (f : Port → Port) : (s.modPort p f).pathNs = s.pathNs := rfl
@[simp] theorem State.modPort_topology (s : State) (p : PortId) (f : Port → Port) : (s.modPort p f).topology = s.topology := rfl
@[simp] theorem State.modPort_topoSeq (s : State) (p : PortId) (f : Port → Port) : (s.modPort p f).topoSeq = s.topoSeq := rfl
@[simp] theorem State.modPort_topoSeen (s : State) (p : PortId) (f : Port → Port) : (s.modPort p f).topoSeen = s.topoSeen := rfl
@[simp] theorem State.modPort_fabricUp (s : State) (p : PortId) (f : Port → Port) : (s.modPort p f).fabricUp = s.fabricUp := rfl
@[simp] theorem State.modPort_lasersOn (s : State) (p : PortId) (f : Port → Port) : (s.modPort p f).lasersOn = s.lasersOn := rfl
@[simp] theorem State.modPort_jtagOpen (s : State) (p : PortId) (f : Port → Port) : (s.modPort p f).jtagOpen = s.jtagOpen := rfl
@[simp] theorem State.modPort_coreMap (s : State) (p : PortId) (f : Port → Port) : (s.modPort p f).coreMap = s.coreMap := rfl
@[simp] theorem State.modPort_coreSpares (s : State) (p : PortId) (f : Port → Port) : (s.modPort p f).coreSpares = s.coreSpares := rfl
@[simp] theorem State.modPort_obsWindow (s : State) (p : PortId) (f : Port → Port) : (s.modPort p f).obsWindow = s.obsWindow := rfl
@[simp] theorem State.modPort_obsBytes (s : State) (p : PortId) (f : Port → Port) : (s.modPort p f).obsBytes = s.obsBytes := rfl
@[simp] theorem State.modPort_lastTick (s : State) (p : PortId) (f : Port → Port) : (s.modPort p f).lastTick = s.lastTick := rfl
@[simp] theorem State.modPort_opSince (s : State) (p : PortId) (f : Port → Port) : (s.modPort p f).opSince = s.opSince := rfl

/-! ### State.modGroup -/

@[simp] theorem State.modGroup_pending (s : State) (g : GroupId) (f : Group → Group) : (s.modGroup g f).pending = s.pending := rfl
@[simp] theorem State.modGroup_now (s : State) (g : GroupId) (f : Group → Group) : (s.modGroup g f).now = s.now := rfl
@[simp] theorem State.modGroup_devNum (s : State) (g : GroupId) (f : Group → Group) : (s.modGroup g f).devNum = s.devNum := rfl
@[simp] theorem State.modGroup_freeCtr (s : State) (g : GroupId) (f : Group → Group) : (s.modGroup g f).freeCtr = s.freeCtr := rfl
@[simp] theorem State.modGroup_epochBase (s : State) (g : GroupId) (f : Group → Group) : (s.modGroup g f).epochBase = s.epochBase := rfl
@[simp] theorem State.modGroup_tagCtr (s : State) (g : GroupId) (f : Group → Group) : (s.modGroup g f).tagCtr = s.tagCtr := rfl
@[simp] theorem State.modGroup_sent (s : State) (g : GroupId) (f : Group → Group) : (s.modGroup g f).sent = s.sent := rfl
@[simp] theorem State.modGroup_wire (s : State) (g : GroupId) (f : Group → Group) : (s.modGroup g f).wire = s.wire := rfl
@[simp] theorem State.modGroup_datagrams (s : State) (g : GroupId) (f : Group → Group) : (s.modGroup g f).datagrams = s.datagrams := rfl
@[simp] theorem State.modGroup_discarded (s : State) (g : GroupId) (f : Group → Group) : (s.modGroup g f).discarded = s.discarded := rfl
@[simp] theorem State.modGroup_events (s : State) (g : GroupId) (f : Group → Group) : (s.modGroup g f).events = s.events := rfl
@[simp] theorem State.modGroup_phase (s : State) (g : GroupId) (f : Group → Group) : (s.modGroup g f).phase = s.phase := rfl
@[simp] theorem State.modGroup_startWord (s : State) (g : GroupId) (f : Group → Group) : (s.modGroup g f).startWord = s.startWord := rfl
@[simp] theorem State.modGroup_tiles (s : State) (g : GroupId) (f : Group → Group) : (s.modGroup g f).tiles = s.tiles := rfl
@[simp] theorem State.modGroup_clusters (s : State) (g : GroupId) (f : Group → Group) : (s.modGroup g f).clusters = s.clusters := rfl
@[simp] theorem State.modGroup_dies (s : State) (g : GroupId) (f : Group → Group) : (s.modGroup g f).dies = s.dies := rfl
@[simp] theorem State.modGroup_ctrls (s : State) (g : GroupId) (f : Group → Group) : (s.modGroup g f).ctrls = s.ctrls := rfl
@[simp] theorem State.modGroup_bands (s : State) (g : GroupId) (f : Group → Group) : (s.modGroup g f).bands = s.bands := rfl
@[simp] theorem State.modGroup_domains (s : State) (g : GroupId) (f : Group → Group) : (s.modGroup g f).domains = s.domains := rfl
@[simp] theorem State.modGroup_engines (s : State) (g : GroupId) (f : Group → Group) : (s.modGroup g f).engines = s.engines := rfl
@[simp] theorem State.modGroup_ports (s : State) (g : GroupId) (f : Group → Group) : (s.modGroup g f).ports = s.ports := rfl
@[simp] theorem State.modGroup_parts (s : State) (g : GroupId) (f : Group → Group) : (s.modGroup g f).parts = s.parts := rfl
@[simp] theorem State.modGroup_hbm (s : State) (g : GroupId) (f : Group → Group) : (s.modGroup g f).hbm = s.hbm := rfl
@[simp] theorem State.modGroup_badAccess (s : State) (g : GroupId) (f : Group → Group) : (s.modGroup g f).badAccess = s.badAccess := rfl
@[simp] theorem State.modGroup_hardNow (s : State) (g : GroupId) (f : Group → Group) : (s.modGroup g f).hardNow = s.hardNow := rfl
@[simp] theorem State.modGroup_transients (s : State) (g : GroupId) (f : Group → Group) : (s.modGroup g f).transients = s.transients := rfl
@[simp] theorem State.modGroup_rowRepairs (s : State) (g : GroupId) (f : Group → Group) : (s.modGroup g f).rowRepairs = s.rowRepairs := rfl
@[simp] theorem State.modGroup_hardRepairs (s : State) (g : GroupId) (f : Group → Group) : (s.modGroup g f).hardRepairs = s.hardRepairs := rfl
@[simp] theorem State.modGroup_testing (s : State) (g : GroupId) (f : Group → Group) : (s.modGroup g f).testing = s.testing := rfl
@[simp] theorem State.modGroup_rootClk (s : State) (g : GroupId) (f : Group → Group) : (s.modGroup g f).rootClk = s.rootClk := rfl
@[simp] theorem State.modGroup_watchdog (s : State) (g : GroupId) (f : Group → Group) : (s.modGroup g f).watchdog = s.watchdog := rfl
@[simp] theorem State.modGroup_alert (s : State) (g : GroupId) (f : Group → Group) : (s.modGroup g f).alert = s.alert := rfl
@[simp] theorem State.modGroup_slack (s : State) (g : GroupId) (f : Group → Group) : (s.modGroup g f).slack = s.slack := rfl
@[simp] theorem State.modGroup_pins (s : State) (g : GroupId) (f : Group → Group) : (s.modGroup g f).pins = s.pins := rfl
@[simp] theorem State.modGroup_power (s : State) (g : GroupId) (f : Group → Group) : (s.modGroup g f).power = s.power := rfl
@[simp] theorem State.modGroup_rails (s : State) (g : GroupId) (f : Group → Group) : (s.modGroup g f).rails = s.rails := rfl
@[simp] theorem State.modGroup_thermal (s : State) (g : GroupId) (f : Group → Group) : (s.modGroup g f).thermal = s.thermal := rfl
@[simp] theorem State.modGroup_residual (s : State) (g : GroupId) (f : Group → Group) : (s.modGroup g f).residual = s.residual := rfl
@[simp] theorem State.modGroup_dump (s : State) (g : GroupId) (f : Group → Group) : (s.modGroup g f).dump = s.dump := rfl
@[simp] theorem State.modGroup_otp (s : State) (g : GroupId) (f : Group → Group) : (s.modGroup g f).otp = s.otp := rfl
@[simp] theorem State.modGroup_flash (s : State) (g : GroupId) (f : Group → Group) : (s.modGroup g f).flash = s.flash := rfl
@[simp] theorem State.modGroup_island (s : State) (g : GroupId) (f : Group → Group) : (s.modGroup g f).island = s.island := rfl
@[simp] theorem State.modGroup_dict (s : State) (g : GroupId) (f : Group → Group) : (s.modGroup g f).dict = s.dict := rfl
@[simp] theorem State.modGroup_devArea (s : State) (g : GroupId) (f : Group → Group) : (s.modGroup g f).devArea = s.devArea := rfl
@[simp] theorem State.modGroup_writers (s : State) (g : GroupId) (f : Group → Group) : (s.modGroup g f).writers = s.writers := rfl
@[simp] theorem State.modGroup_ecat (s : State) (g : GroupId) (f : Group → Group) : (s.modGroup g f).ecat = s.ecat := rfl
@[simp] theorem State.modGroup_mapping (s : State) (g : GroupId) (f : Group → Group) : (s.modGroup g f).mapping = s.mapping := rfl
@[simp] theorem State.modGroup_neighbours (s : State) (g : GroupId) (f : Group → Group) : (s.modGroup g f).neighbours = s.neighbours := rfl
@[simp] theorem State.modGroup_unresolved (s : State) (g : GroupId) (f : Group → Group) : (s.modGroup g f).unresolved = s.unresolved := rfl
@[simp] theorem State.modGroup_reads (s : State) (g : GroupId) (f : Group → Group) : (s.modGroup g f).reads = s.reads := rfl
@[simp] theorem State.modGroup_routes (s : State) (g : GroupId) (f : Group → Group) : (s.modGroup g f).routes = s.routes := rfl
@[simp] theorem State.modGroup_pathNs (s : State) (g : GroupId) (f : Group → Group) : (s.modGroup g f).pathNs = s.pathNs := rfl
@[simp] theorem State.modGroup_topology (s : State) (g : GroupId) (f : Group → Group) : (s.modGroup g f).topology = s.topology := rfl
@[simp] theorem State.modGroup_topoSeq (s : State) (g : GroupId) (f : Group → Group) : (s.modGroup g f).topoSeq = s.topoSeq := rfl
@[simp] theorem State.modGroup_topoSeen (s : State) (g : GroupId) (f : Group → Group) : (s.modGroup g f).topoSeen = s.topoSeen := rfl
@[simp] theorem State.modGroup_fabricUp (s : State) (g : GroupId) (f : Group → Group) : (s.modGroup g f).fabricUp = s.fabricUp := rfl
@[simp] theorem State.modGroup_lasersOn (s : State) (g : GroupId) (f : Group → Group) : (s.modGroup g f).lasersOn = s.lasersOn := rfl
@[simp] theorem State.modGroup_jtagOpen (s : State) (g : GroupId) (f : Group → Group) : (s.modGroup g f).jtagOpen = s.jtagOpen := rfl
@[simp] theorem State.modGroup_coreMap (s : State) (g : GroupId) (f : Group → Group) : (s.modGroup g f).coreMap = s.coreMap := rfl
@[simp] theorem State.modGroup_coreSpares (s : State) (g : GroupId) (f : Group → Group) : (s.modGroup g f).coreSpares = s.coreSpares := rfl
@[simp] theorem State.modGroup_obsWindow (s : State) (g : GroupId) (f : Group → Group) : (s.modGroup g f).obsWindow = s.obsWindow := rfl
@[simp] theorem State.modGroup_obsBytes (s : State) (g : GroupId) (f : Group → Group) : (s.modGroup g f).obsBytes = s.obsBytes := rfl
@[simp] theorem State.modGroup_lastTick (s : State) (g : GroupId) (f : Group → Group) : (s.modGroup g f).lastTick = s.lastTick := rfl
@[simp] theorem State.modGroup_opSince (s : State) (g : GroupId) (f : Group → Group) : (s.modGroup g f).opSince = s.opSince := rfl

/-! ### State.modPart -/

@[simp] theorem State.modPart_pending (s : State) (p : PartId) (f : Part → Part) : (s.modPart p f).pending = s.pending := rfl
@[simp] theorem State.modPart_now (s : State) (p : PartId) (f : Part → Part) : (s.modPart p f).now = s.now := rfl
@[simp] theorem State.modPart_devNum (s : State) (p : PartId) (f : Part → Part) : (s.modPart p f).devNum = s.devNum := rfl
@[simp] theorem State.modPart_freeCtr (s : State) (p : PartId) (f : Part → Part) : (s.modPart p f).freeCtr = s.freeCtr := rfl
@[simp] theorem State.modPart_epochBase (s : State) (p : PartId) (f : Part → Part) : (s.modPart p f).epochBase = s.epochBase := rfl
@[simp] theorem State.modPart_tagCtr (s : State) (p : PartId) (f : Part → Part) : (s.modPart p f).tagCtr = s.tagCtr := rfl
@[simp] theorem State.modPart_sent (s : State) (p : PartId) (f : Part → Part) : (s.modPart p f).sent = s.sent := rfl
@[simp] theorem State.modPart_wire (s : State) (p : PartId) (f : Part → Part) : (s.modPart p f).wire = s.wire := rfl
@[simp] theorem State.modPart_datagrams (s : State) (p : PartId) (f : Part → Part) : (s.modPart p f).datagrams = s.datagrams := rfl
@[simp] theorem State.modPart_discarded (s : State) (p : PartId) (f : Part → Part) : (s.modPart p f).discarded = s.discarded := rfl
@[simp] theorem State.modPart_events (s : State) (p : PartId) (f : Part → Part) : (s.modPart p f).events = s.events := rfl
@[simp] theorem State.modPart_phase (s : State) (p : PartId) (f : Part → Part) : (s.modPart p f).phase = s.phase := rfl
@[simp] theorem State.modPart_startWord (s : State) (p : PartId) (f : Part → Part) : (s.modPart p f).startWord = s.startWord := rfl
@[simp] theorem State.modPart_tiles (s : State) (p : PartId) (f : Part → Part) : (s.modPart p f).tiles = s.tiles := rfl
@[simp] theorem State.modPart_clusters (s : State) (p : PartId) (f : Part → Part) : (s.modPart p f).clusters = s.clusters := rfl
@[simp] theorem State.modPart_dies (s : State) (p : PartId) (f : Part → Part) : (s.modPart p f).dies = s.dies := rfl
@[simp] theorem State.modPart_ctrls (s : State) (p : PartId) (f : Part → Part) : (s.modPart p f).ctrls = s.ctrls := rfl
@[simp] theorem State.modPart_bands (s : State) (p : PartId) (f : Part → Part) : (s.modPart p f).bands = s.bands := rfl
@[simp] theorem State.modPart_domains (s : State) (p : PartId) (f : Part → Part) : (s.modPart p f).domains = s.domains := rfl
@[simp] theorem State.modPart_engines (s : State) (p : PartId) (f : Part → Part) : (s.modPart p f).engines = s.engines := rfl
@[simp] theorem State.modPart_ports (s : State) (p : PartId) (f : Part → Part) : (s.modPart p f).ports = s.ports := rfl
@[simp] theorem State.modPart_groups (s : State) (p : PartId) (f : Part → Part) : (s.modPart p f).groups = s.groups := rfl
@[simp] theorem State.modPart_hbm (s : State) (p : PartId) (f : Part → Part) : (s.modPart p f).hbm = s.hbm := rfl
@[simp] theorem State.modPart_badAccess (s : State) (p : PartId) (f : Part → Part) : (s.modPart p f).badAccess = s.badAccess := rfl
@[simp] theorem State.modPart_hardNow (s : State) (p : PartId) (f : Part → Part) : (s.modPart p f).hardNow = s.hardNow := rfl
@[simp] theorem State.modPart_transients (s : State) (p : PartId) (f : Part → Part) : (s.modPart p f).transients = s.transients := rfl
@[simp] theorem State.modPart_rowRepairs (s : State) (p : PartId) (f : Part → Part) : (s.modPart p f).rowRepairs = s.rowRepairs := rfl
@[simp] theorem State.modPart_hardRepairs (s : State) (p : PartId) (f : Part → Part) : (s.modPart p f).hardRepairs = s.hardRepairs := rfl
@[simp] theorem State.modPart_testing (s : State) (p : PartId) (f : Part → Part) : (s.modPart p f).testing = s.testing := rfl
@[simp] theorem State.modPart_rootClk (s : State) (p : PartId) (f : Part → Part) : (s.modPart p f).rootClk = s.rootClk := rfl
@[simp] theorem State.modPart_watchdog (s : State) (p : PartId) (f : Part → Part) : (s.modPart p f).watchdog = s.watchdog := rfl
@[simp] theorem State.modPart_alert (s : State) (p : PartId) (f : Part → Part) : (s.modPart p f).alert = s.alert := rfl
@[simp] theorem State.modPart_slack (s : State) (p : PartId) (f : Part → Part) : (s.modPart p f).slack = s.slack := rfl
@[simp] theorem State.modPart_pins (s : State) (p : PartId) (f : Part → Part) : (s.modPart p f).pins = s.pins := rfl
@[simp] theorem State.modPart_power (s : State) (p : PartId) (f : Part → Part) : (s.modPart p f).power = s.power := rfl
@[simp] theorem State.modPart_rails (s : State) (p : PartId) (f : Part → Part) : (s.modPart p f).rails = s.rails := rfl
@[simp] theorem State.modPart_thermal (s : State) (p : PartId) (f : Part → Part) : (s.modPart p f).thermal = s.thermal := rfl
@[simp] theorem State.modPart_residual (s : State) (p : PartId) (f : Part → Part) : (s.modPart p f).residual = s.residual := rfl
@[simp] theorem State.modPart_dump (s : State) (p : PartId) (f : Part → Part) : (s.modPart p f).dump = s.dump := rfl
@[simp] theorem State.modPart_otp (s : State) (p : PartId) (f : Part → Part) : (s.modPart p f).otp = s.otp := rfl
@[simp] theorem State.modPart_flash (s : State) (p : PartId) (f : Part → Part) : (s.modPart p f).flash = s.flash := rfl
@[simp] theorem State.modPart_island (s : State) (p : PartId) (f : Part → Part) : (s.modPart p f).island = s.island := rfl
@[simp] theorem State.modPart_dict (s : State) (p : PartId) (f : Part → Part) : (s.modPart p f).dict = s.dict := rfl
@[simp] theorem State.modPart_devArea (s : State) (p : PartId) (f : Part → Part) : (s.modPart p f).devArea = s.devArea := rfl
@[simp] theorem State.modPart_writers (s : State) (p : PartId) (f : Part → Part) : (s.modPart p f).writers = s.writers := rfl
@[simp] theorem State.modPart_ecat (s : State) (p : PartId) (f : Part → Part) : (s.modPart p f).ecat = s.ecat := rfl
@[simp] theorem State.modPart_mapping (s : State) (p : PartId) (f : Part → Part) : (s.modPart p f).mapping = s.mapping := rfl
@[simp] theorem State.modPart_neighbours (s : State) (p : PartId) (f : Part → Part) : (s.modPart p f).neighbours = s.neighbours := rfl
@[simp] theorem State.modPart_unresolved (s : State) (p : PartId) (f : Part → Part) : (s.modPart p f).unresolved = s.unresolved := rfl
@[simp] theorem State.modPart_reads (s : State) (p : PartId) (f : Part → Part) : (s.modPart p f).reads = s.reads := rfl
@[simp] theorem State.modPart_routes (s : State) (p : PartId) (f : Part → Part) : (s.modPart p f).routes = s.routes := rfl
@[simp] theorem State.modPart_pathNs (s : State) (p : PartId) (f : Part → Part) : (s.modPart p f).pathNs = s.pathNs := rfl
@[simp] theorem State.modPart_topology (s : State) (p : PartId) (f : Part → Part) : (s.modPart p f).topology = s.topology := rfl
@[simp] theorem State.modPart_topoSeq (s : State) (p : PartId) (f : Part → Part) : (s.modPart p f).topoSeq = s.topoSeq := rfl
@[simp] theorem State.modPart_topoSeen (s : State) (p : PartId) (f : Part → Part) : (s.modPart p f).topoSeen = s.topoSeen := rfl
@[simp] theorem State.modPart_fabricUp (s : State) (p : PartId) (f : Part → Part) : (s.modPart p f).fabricUp = s.fabricUp := rfl
@[simp] theorem State.modPart_lasersOn (s : State) (p : PartId) (f : Part → Part) : (s.modPart p f).lasersOn = s.lasersOn := rfl
@[simp] theorem State.modPart_jtagOpen (s : State) (p : PartId) (f : Part → Part) : (s.modPart p f).jtagOpen = s.jtagOpen := rfl
@[simp] theorem State.modPart_coreMap (s : State) (p : PartId) (f : Part → Part) : (s.modPart p f).coreMap = s.coreMap := rfl
@[simp] theorem State.modPart_coreSpares (s : State) (p : PartId) (f : Part → Part) : (s.modPart p f).coreSpares = s.coreSpares := rfl
@[simp] theorem State.modPart_obsWindow (s : State) (p : PartId) (f : Part → Part) : (s.modPart p f).obsWindow = s.obsWindow := rfl
@[simp] theorem State.modPart_obsBytes (s : State) (p : PartId) (f : Part → Part) : (s.modPart p f).obsBytes = s.obsBytes := rfl
@[simp] theorem State.modPart_lastTick (s : State) (p : PartId) (f : Part → Part) : (s.modPart p f).lastTick = s.lastTick := rfl
@[simp] theorem State.modPart_opSince (s : State) (p : PartId) (f : Part → Part) : (s.modPart p f).opSince = s.opSince := rfl

/-! ### State.hbmWrite -/

@[simp] theorem State.hbmWrite_pending (s : State) (a : Nat) (l : List Byte) : (s.hbmWrite a l).pending = s.pending := rfl
@[simp] theorem State.hbmWrite_now (s : State) (a : Nat) (l : List Byte) : (s.hbmWrite a l).now = s.now := rfl
@[simp] theorem State.hbmWrite_devNum (s : State) (a : Nat) (l : List Byte) : (s.hbmWrite a l).devNum = s.devNum := rfl
@[simp] theorem State.hbmWrite_freeCtr (s : State) (a : Nat) (l : List Byte) : (s.hbmWrite a l).freeCtr = s.freeCtr := rfl
@[simp] theorem State.hbmWrite_epochBase (s : State) (a : Nat) (l : List Byte) : (s.hbmWrite a l).epochBase = s.epochBase := rfl
@[simp] theorem State.hbmWrite_tagCtr (s : State) (a : Nat) (l : List Byte) : (s.hbmWrite a l).tagCtr = s.tagCtr := rfl
@[simp] theorem State.hbmWrite_sent (s : State) (a : Nat) (l : List Byte) : (s.hbmWrite a l).sent = s.sent := rfl
@[simp] theorem State.hbmWrite_wire (s : State) (a : Nat) (l : List Byte) : (s.hbmWrite a l).wire = s.wire := rfl
@[simp] theorem State.hbmWrite_datagrams (s : State) (a : Nat) (l : List Byte) : (s.hbmWrite a l).datagrams = s.datagrams := rfl
@[simp] theorem State.hbmWrite_discarded (s : State) (a : Nat) (l : List Byte) : (s.hbmWrite a l).discarded = s.discarded := rfl
@[simp] theorem State.hbmWrite_events (s : State) (a : Nat) (l : List Byte) : (s.hbmWrite a l).events = s.events := rfl
@[simp] theorem State.hbmWrite_phase (s : State) (a : Nat) (l : List Byte) : (s.hbmWrite a l).phase = s.phase := rfl
@[simp] theorem State.hbmWrite_startWord (s : State) (a : Nat) (l : List Byte) : (s.hbmWrite a l).startWord = s.startWord := rfl
@[simp] theorem State.hbmWrite_tiles (s : State) (a : Nat) (l : List Byte) : (s.hbmWrite a l).tiles = s.tiles := rfl
@[simp] theorem State.hbmWrite_clusters (s : State) (a : Nat) (l : List Byte) : (s.hbmWrite a l).clusters = s.clusters := rfl
@[simp] theorem State.hbmWrite_dies (s : State) (a : Nat) (l : List Byte) : (s.hbmWrite a l).dies = s.dies := rfl
@[simp] theorem State.hbmWrite_ctrls (s : State) (a : Nat) (l : List Byte) : (s.hbmWrite a l).ctrls = s.ctrls := rfl
@[simp] theorem State.hbmWrite_bands (s : State) (a : Nat) (l : List Byte) : (s.hbmWrite a l).bands = s.bands := rfl
@[simp] theorem State.hbmWrite_domains (s : State) (a : Nat) (l : List Byte) : (s.hbmWrite a l).domains = s.domains := rfl
@[simp] theorem State.hbmWrite_engines (s : State) (a : Nat) (l : List Byte) : (s.hbmWrite a l).engines = s.engines := rfl
@[simp] theorem State.hbmWrite_ports (s : State) (a : Nat) (l : List Byte) : (s.hbmWrite a l).ports = s.ports := rfl
@[simp] theorem State.hbmWrite_groups (s : State) (a : Nat) (l : List Byte) : (s.hbmWrite a l).groups = s.groups := rfl
@[simp] theorem State.hbmWrite_parts (s : State) (a : Nat) (l : List Byte) : (s.hbmWrite a l).parts = s.parts := rfl
@[simp] theorem State.hbmWrite_badAccess (s : State) (a : Nat) (l : List Byte) : (s.hbmWrite a l).badAccess = s.badAccess := rfl
@[simp] theorem State.hbmWrite_hardNow (s : State) (a : Nat) (l : List Byte) : (s.hbmWrite a l).hardNow = s.hardNow := rfl
@[simp] theorem State.hbmWrite_transients (s : State) (a : Nat) (l : List Byte) : (s.hbmWrite a l).transients = s.transients := rfl
@[simp] theorem State.hbmWrite_rowRepairs (s : State) (a : Nat) (l : List Byte) : (s.hbmWrite a l).rowRepairs = s.rowRepairs := rfl
@[simp] theorem State.hbmWrite_hardRepairs (s : State) (a : Nat) (l : List Byte) : (s.hbmWrite a l).hardRepairs = s.hardRepairs := rfl
@[simp] theorem State.hbmWrite_testing (s : State) (a : Nat) (l : List Byte) : (s.hbmWrite a l).testing = s.testing := rfl
@[simp] theorem State.hbmWrite_rootClk (s : State) (a : Nat) (l : List Byte) : (s.hbmWrite a l).rootClk = s.rootClk := rfl
@[simp] theorem State.hbmWrite_watchdog (s : State) (a : Nat) (l : List Byte) : (s.hbmWrite a l).watchdog = s.watchdog := rfl
@[simp] theorem State.hbmWrite_alert (s : State) (a : Nat) (l : List Byte) : (s.hbmWrite a l).alert = s.alert := rfl
@[simp] theorem State.hbmWrite_slack (s : State) (a : Nat) (l : List Byte) : (s.hbmWrite a l).slack = s.slack := rfl
@[simp] theorem State.hbmWrite_pins (s : State) (a : Nat) (l : List Byte) : (s.hbmWrite a l).pins = s.pins := rfl
@[simp] theorem State.hbmWrite_power (s : State) (a : Nat) (l : List Byte) : (s.hbmWrite a l).power = s.power := rfl
@[simp] theorem State.hbmWrite_rails (s : State) (a : Nat) (l : List Byte) : (s.hbmWrite a l).rails = s.rails := rfl
@[simp] theorem State.hbmWrite_thermal (s : State) (a : Nat) (l : List Byte) : (s.hbmWrite a l).thermal = s.thermal := rfl
@[simp] theorem State.hbmWrite_residual (s : State) (a : Nat) (l : List Byte) : (s.hbmWrite a l).residual = s.residual := rfl
@[simp] theorem State.hbmWrite_dump (s : State) (a : Nat) (l : List Byte) : (s.hbmWrite a l).dump = s.dump := rfl
@[simp] theorem State.hbmWrite_otp (s : State) (a : Nat) (l : List Byte) : (s.hbmWrite a l).otp = s.otp := rfl
@[simp] theorem State.hbmWrite_flash (s : State) (a : Nat) (l : List Byte) : (s.hbmWrite a l).flash = s.flash := rfl
@[simp] theorem State.hbmWrite_island (s : State) (a : Nat) (l : List Byte) : (s.hbmWrite a l).island = s.island := rfl
@[simp] theorem State.hbmWrite_dict (s : State) (a : Nat) (l : List Byte) : (s.hbmWrite a l).dict = s.dict := rfl
@[simp] theorem State.hbmWrite_devArea (s : State) (a : Nat) (l : List Byte) : (s.hbmWrite a l).devArea = s.devArea := rfl
@[simp] theorem State.hbmWrite_writers (s : State) (a : Nat) (l : List Byte) : (s.hbmWrite a l).writers = s.writers := rfl
@[simp] theorem State.hbmWrite_ecat (s : State) (a : Nat) (l : List Byte) : (s.hbmWrite a l).ecat = s.ecat := rfl
@[simp] theorem State.hbmWrite_mapping (s : State) (a : Nat) (l : List Byte) : (s.hbmWrite a l).mapping = s.mapping := rfl
@[simp] theorem State.hbmWrite_neighbours (s : State) (a : Nat) (l : List Byte) : (s.hbmWrite a l).neighbours = s.neighbours := rfl
@[simp] theorem State.hbmWrite_unresolved (s : State) (a : Nat) (l : List Byte) : (s.hbmWrite a l).unresolved = s.unresolved := rfl
@[simp] theorem State.hbmWrite_reads (s : State) (a : Nat) (l : List Byte) : (s.hbmWrite a l).reads = s.reads := rfl
@[simp] theorem State.hbmWrite_routes (s : State) (a : Nat) (l : List Byte) : (s.hbmWrite a l).routes = s.routes := rfl
@[simp] theorem State.hbmWrite_pathNs (s : State) (a : Nat) (l : List Byte) : (s.hbmWrite a l).pathNs = s.pathNs := rfl
@[simp] theorem State.hbmWrite_topology (s : State) (a : Nat) (l : List Byte) : (s.hbmWrite a l).topology = s.topology := rfl
@[simp] theorem State.hbmWrite_topoSeq (s : State) (a : Nat) (l : List Byte) : (s.hbmWrite a l).topoSeq = s.topoSeq := rfl
@[simp] theorem State.hbmWrite_topoSeen (s : State) (a : Nat) (l : List Byte) : (s.hbmWrite a l).topoSeen = s.topoSeen := rfl
@[simp] theorem State.hbmWrite_fabricUp (s : State) (a : Nat) (l : List Byte) : (s.hbmWrite a l).fabricUp = s.fabricUp := rfl
@[simp] theorem State.hbmWrite_lasersOn (s : State) (a : Nat) (l : List Byte) : (s.hbmWrite a l).lasersOn = s.lasersOn := rfl
@[simp] theorem State.hbmWrite_jtagOpen (s : State) (a : Nat) (l : List Byte) : (s.hbmWrite a l).jtagOpen = s.jtagOpen := rfl
@[simp] theorem State.hbmWrite_coreMap (s : State) (a : Nat) (l : List Byte) : (s.hbmWrite a l).coreMap = s.coreMap := rfl
@[simp] theorem State.hbmWrite_coreSpares (s : State) (a : Nat) (l : List Byte) : (s.hbmWrite a l).coreSpares = s.coreSpares := rfl
@[simp] theorem State.hbmWrite_obsWindow (s : State) (a : Nat) (l : List Byte) : (s.hbmWrite a l).obsWindow = s.obsWindow := rfl
@[simp] theorem State.hbmWrite_obsBytes (s : State) (a : Nat) (l : List Byte) : (s.hbmWrite a l).obsBytes = s.obsBytes := rfl
@[simp] theorem State.hbmWrite_lastTick (s : State) (a : Nat) (l : List Byte) : (s.hbmWrite a l).lastTick = s.lastTick := rfl
@[simp] theorem State.hbmWrite_opSince (s : State) (a : Nat) (l : List Byte) : (s.hbmWrite a l).opSince = s.opSince := rfl

/-! ### State.emit -/

@[simp] theorem State.emit_pending (s : State) (d : Dest) (m : Msg) : (s.emit d m).pending = s.pending := rfl
@[simp] theorem State.emit_now (s : State) (d : Dest) (m : Msg) : (s.emit d m).now = s.now := rfl
@[simp] theorem State.emit_devNum (s : State) (d : Dest) (m : Msg) : (s.emit d m).devNum = s.devNum := rfl
@[simp] theorem State.emit_freeCtr (s : State) (d : Dest) (m : Msg) : (s.emit d m).freeCtr = s.freeCtr := rfl
@[simp] theorem State.emit_epochBase (s : State) (d : Dest) (m : Msg) : (s.emit d m).epochBase = s.epochBase := rfl
@[simp] theorem State.emit_tagCtr (s : State) (d : Dest) (m : Msg) : (s.emit d m).tagCtr = s.tagCtr := rfl
@[simp] theorem State.emit_wire (s : State) (d : Dest) (m : Msg) : (s.emit d m).wire = s.wire := rfl
@[simp] theorem State.emit_datagrams (s : State) (d : Dest) (m : Msg) : (s.emit d m).datagrams = s.datagrams := rfl
@[simp] theorem State.emit_discarded (s : State) (d : Dest) (m : Msg) : (s.emit d m).discarded = s.discarded := rfl
@[simp] theorem State.emit_events (s : State) (d : Dest) (m : Msg) : (s.emit d m).events = s.events := rfl
@[simp] theorem State.emit_phase (s : State) (d : Dest) (m : Msg) : (s.emit d m).phase = s.phase := rfl
@[simp] theorem State.emit_startWord (s : State) (d : Dest) (m : Msg) : (s.emit d m).startWord = s.startWord := rfl
@[simp] theorem State.emit_tiles (s : State) (d : Dest) (m : Msg) : (s.emit d m).tiles = s.tiles := rfl
@[simp] theorem State.emit_clusters (s : State) (d : Dest) (m : Msg) : (s.emit d m).clusters = s.clusters := rfl
@[simp] theorem State.emit_dies (s : State) (d : Dest) (m : Msg) : (s.emit d m).dies = s.dies := rfl
@[simp] theorem State.emit_ctrls (s : State) (d : Dest) (m : Msg) : (s.emit d m).ctrls = s.ctrls := rfl
@[simp] theorem State.emit_bands (s : State) (d : Dest) (m : Msg) : (s.emit d m).bands = s.bands := rfl
@[simp] theorem State.emit_domains (s : State) (d : Dest) (m : Msg) : (s.emit d m).domains = s.domains := rfl
@[simp] theorem State.emit_engines (s : State) (d : Dest) (m : Msg) : (s.emit d m).engines = s.engines := rfl
@[simp] theorem State.emit_ports (s : State) (d : Dest) (m : Msg) : (s.emit d m).ports = s.ports := rfl
@[simp] theorem State.emit_groups (s : State) (d : Dest) (m : Msg) : (s.emit d m).groups = s.groups := rfl
@[simp] theorem State.emit_parts (s : State) (d : Dest) (m : Msg) : (s.emit d m).parts = s.parts := rfl
@[simp] theorem State.emit_hbm (s : State) (d : Dest) (m : Msg) : (s.emit d m).hbm = s.hbm := rfl
@[simp] theorem State.emit_badAccess (s : State) (d : Dest) (m : Msg) : (s.emit d m).badAccess = s.badAccess := rfl
@[simp] theorem State.emit_hardNow (s : State) (d : Dest) (m : Msg) : (s.emit d m).hardNow = s.hardNow := rfl
@[simp] theorem State.emit_transients (s : State) (d : Dest) (m : Msg) : (s.emit d m).transients = s.transients := rfl
@[simp] theorem State.emit_rowRepairs (s : State) (d : Dest) (m : Msg) : (s.emit d m).rowRepairs = s.rowRepairs := rfl
@[simp] theorem State.emit_hardRepairs (s : State) (d : Dest) (m : Msg) : (s.emit d m).hardRepairs = s.hardRepairs := rfl
@[simp] theorem State.emit_testing (s : State) (d : Dest) (m : Msg) : (s.emit d m).testing = s.testing := rfl
@[simp] theorem State.emit_rootClk (s : State) (d : Dest) (m : Msg) : (s.emit d m).rootClk = s.rootClk := rfl
@[simp] theorem State.emit_watchdog (s : State) (d : Dest) (m : Msg) : (s.emit d m).watchdog = s.watchdog := rfl
@[simp] theorem State.emit_alert (s : State) (d : Dest) (m : Msg) : (s.emit d m).alert = s.alert := rfl
@[simp] theorem State.emit_slack (s : State) (d : Dest) (m : Msg) : (s.emit d m).slack = s.slack := rfl
@[simp] theorem State.emit_pins (s : State) (d : Dest) (m : Msg) : (s.emit d m).pins = s.pins := rfl
@[simp] theorem State.emit_power (s : State) (d : Dest) (m : Msg) : (s.emit d m).power = s.power := rfl
@[simp] theorem State.emit_rails (s : State) (d : Dest) (m : Msg) : (s.emit d m).rails = s.rails := rfl
@[simp] theorem State.emit_thermal (s : State) (d : Dest) (m : Msg) : (s.emit d m).thermal = s.thermal := rfl
@[simp] theorem State.emit_residual (s : State) (d : Dest) (m : Msg) : (s.emit d m).residual = s.residual := rfl
@[simp] theorem State.emit_dump (s : State) (d : Dest) (m : Msg) : (s.emit d m).dump = s.dump := rfl
@[simp] theorem State.emit_otp (s : State) (d : Dest) (m : Msg) : (s.emit d m).otp = s.otp := rfl
@[simp] theorem State.emit_flash (s : State) (d : Dest) (m : Msg) : (s.emit d m).flash = s.flash := rfl
@[simp] theorem State.emit_island (s : State) (d : Dest) (m : Msg) : (s.emit d m).island = s.island := rfl
@[simp] theorem State.emit_dict (s : State) (d : Dest) (m : Msg) : (s.emit d m).dict = s.dict := rfl
@[simp] theorem State.emit_devArea (s : State) (d : Dest) (m : Msg) : (s.emit d m).devArea = s.devArea := rfl
@[simp] theorem State.emit_writers (s : State) (d : Dest) (m : Msg) : (s.emit d m).writers = s.writers := rfl
@[simp] theorem State.emit_ecat (s : State) (d : Dest) (m : Msg) : (s.emit d m).ecat = s.ecat := rfl
@[simp] theorem State.emit_mapping (s : State) (d : Dest) (m : Msg) : (s.emit d m).mapping = s.mapping := rfl
@[simp] theorem State.emit_neighbours (s : State) (d : Dest) (m : Msg) : (s.emit d m).neighbours = s.neighbours := rfl
@[simp] theorem State.emit_unresolved (s : State) (d : Dest) (m : Msg) : (s.emit d m).unresolved = s.unresolved := rfl
@[simp] theorem State.emit_reads (s : State) (d : Dest) (m : Msg) : (s.emit d m).reads = s.reads := rfl
@[simp] theorem State.emit_routes (s : State) (d : Dest) (m : Msg) : (s.emit d m).routes = s.routes := rfl
@[simp] theorem State.emit_pathNs (s : State) (d : Dest) (m : Msg) : (s.emit d m).pathNs = s.pathNs := rfl
@[simp] theorem State.emit_topology (s : State) (d : Dest) (m : Msg) : (s.emit d m).topology = s.topology := rfl
@[simp] theorem State.emit_topoSeq (s : State) (d : Dest) (m : Msg) : (s.emit d m).topoSeq = s.topoSeq := rfl
@[simp] theorem State.emit_topoSeen (s : State) (d : Dest) (m : Msg) : (s.emit d m).topoSeen = s.topoSeen := rfl
@[simp] theorem State.emit_fabricUp (s : State) (d : Dest) (m : Msg) : (s.emit d m).fabricUp = s.fabricUp := rfl
@[simp] theorem State.emit_lasersOn (s : State) (d : Dest) (m : Msg) : (s.emit d m).lasersOn = s.lasersOn := rfl
@[simp] theorem State.emit_jtagOpen (s : State) (d : Dest) (m : Msg) : (s.emit d m).jtagOpen = s.jtagOpen := rfl
@[simp] theorem State.emit_coreMap (s : State) (d : Dest) (m : Msg) : (s.emit d m).coreMap = s.coreMap := rfl
@[simp] theorem State.emit_coreSpares (s : State) (d : Dest) (m : Msg) : (s.emit d m).coreSpares = s.coreSpares := rfl
@[simp] theorem State.emit_obsWindow (s : State) (d : Dest) (m : Msg) : (s.emit d m).obsWindow = s.obsWindow := rfl
@[simp] theorem State.emit_obsBytes (s : State) (d : Dest) (m : Msg) : (s.emit d m).obsBytes = s.obsBytes := rfl
@[simp] theorem State.emit_lastTick (s : State) (d : Dest) (m : Msg) : (s.emit d m).lastTick = s.lastTick := rfl
@[simp] theorem State.emit_opSince (s : State) (d : Dest) (m : Msg) : (s.emit d m).opSince = s.opSince := rfl

/-! ### State.drawn -/

@[simp] theorem State.drawn_pending (s : State) : (s.drawn).pending = s.pending := rfl
@[simp] theorem State.drawn_now (s : State) : (s.drawn).now = s.now := rfl
@[simp] theorem State.drawn_devNum (s : State) : (s.drawn).devNum = s.devNum := rfl
@[simp] theorem State.drawn_epochBase (s : State) : (s.drawn).epochBase = s.epochBase := rfl
@[simp] theorem State.drawn_tagCtr (s : State) : (s.drawn).tagCtr = s.tagCtr := rfl
@[simp] theorem State.drawn_sent (s : State) : (s.drawn).sent = s.sent := rfl
@[simp] theorem State.drawn_wire (s : State) : (s.drawn).wire = s.wire := rfl
@[simp] theorem State.drawn_datagrams (s : State) : (s.drawn).datagrams = s.datagrams := rfl
@[simp] theorem State.drawn_discarded (s : State) : (s.drawn).discarded = s.discarded := rfl
@[simp] theorem State.drawn_events (s : State) : (s.drawn).events = s.events := rfl
@[simp] theorem State.drawn_phase (s : State) : (s.drawn).phase = s.phase := rfl
@[simp] theorem State.drawn_startWord (s : State) : (s.drawn).startWord = s.startWord := rfl
@[simp] theorem State.drawn_tiles (s : State) : (s.drawn).tiles = s.tiles := rfl
@[simp] theorem State.drawn_clusters (s : State) : (s.drawn).clusters = s.clusters := rfl
@[simp] theorem State.drawn_dies (s : State) : (s.drawn).dies = s.dies := rfl
@[simp] theorem State.drawn_ctrls (s : State) : (s.drawn).ctrls = s.ctrls := rfl
@[simp] theorem State.drawn_bands (s : State) : (s.drawn).bands = s.bands := rfl
@[simp] theorem State.drawn_domains (s : State) : (s.drawn).domains = s.domains := rfl
@[simp] theorem State.drawn_engines (s : State) : (s.drawn).engines = s.engines := rfl
@[simp] theorem State.drawn_ports (s : State) : (s.drawn).ports = s.ports := rfl
@[simp] theorem State.drawn_groups (s : State) : (s.drawn).groups = s.groups := rfl
@[simp] theorem State.drawn_parts (s : State) : (s.drawn).parts = s.parts := rfl
@[simp] theorem State.drawn_hbm (s : State) : (s.drawn).hbm = s.hbm := rfl
@[simp] theorem State.drawn_badAccess (s : State) : (s.drawn).badAccess = s.badAccess := rfl
@[simp] theorem State.drawn_hardNow (s : State) : (s.drawn).hardNow = s.hardNow := rfl
@[simp] theorem State.drawn_transients (s : State) : (s.drawn).transients = s.transients := rfl
@[simp] theorem State.drawn_rowRepairs (s : State) : (s.drawn).rowRepairs = s.rowRepairs := rfl
@[simp] theorem State.drawn_hardRepairs (s : State) : (s.drawn).hardRepairs = s.hardRepairs := rfl
@[simp] theorem State.drawn_testing (s : State) : (s.drawn).testing = s.testing := rfl
@[simp] theorem State.drawn_rootClk (s : State) : (s.drawn).rootClk = s.rootClk := rfl
@[simp] theorem State.drawn_watchdog (s : State) : (s.drawn).watchdog = s.watchdog := rfl
@[simp] theorem State.drawn_alert (s : State) : (s.drawn).alert = s.alert := rfl
@[simp] theorem State.drawn_slack (s : State) : (s.drawn).slack = s.slack := rfl
@[simp] theorem State.drawn_pins (s : State) : (s.drawn).pins = s.pins := rfl
@[simp] theorem State.drawn_power (s : State) : (s.drawn).power = s.power := rfl
@[simp] theorem State.drawn_rails (s : State) : (s.drawn).rails = s.rails := rfl
@[simp] theorem State.drawn_thermal (s : State) : (s.drawn).thermal = s.thermal := rfl
@[simp] theorem State.drawn_residual (s : State) : (s.drawn).residual = s.residual := rfl
@[simp] theorem State.drawn_dump (s : State) : (s.drawn).dump = s.dump := rfl
@[simp] theorem State.drawn_otp (s : State) : (s.drawn).otp = s.otp := rfl
@[simp] theorem State.drawn_flash (s : State) : (s.drawn).flash = s.flash := rfl
@[simp] theorem State.drawn_island (s : State) : (s.drawn).island = s.island := rfl
@[simp] theorem State.drawn_dict (s : State) : (s.drawn).dict = s.dict := rfl
@[simp] theorem State.drawn_devArea (s : State) : (s.drawn).devArea = s.devArea := rfl
@[simp] theorem State.drawn_writers (s : State) : (s.drawn).writers = s.writers := rfl
@[simp] theorem State.drawn_ecat (s : State) : (s.drawn).ecat = s.ecat := rfl
@[simp] theorem State.drawn_mapping (s : State) : (s.drawn).mapping = s.mapping := rfl
@[simp] theorem State.drawn_neighbours (s : State) : (s.drawn).neighbours = s.neighbours := rfl
@[simp] theorem State.drawn_unresolved (s : State) : (s.drawn).unresolved = s.unresolved := rfl
@[simp] theorem State.drawn_reads (s : State) : (s.drawn).reads = s.reads := rfl
@[simp] theorem State.drawn_routes (s : State) : (s.drawn).routes = s.routes := rfl
@[simp] theorem State.drawn_pathNs (s : State) : (s.drawn).pathNs = s.pathNs := rfl
@[simp] theorem State.drawn_topology (s : State) : (s.drawn).topology = s.topology := rfl
@[simp] theorem State.drawn_topoSeq (s : State) : (s.drawn).topoSeq = s.topoSeq := rfl
@[simp] theorem State.drawn_topoSeen (s : State) : (s.drawn).topoSeen = s.topoSeen := rfl
@[simp] theorem State.drawn_fabricUp (s : State) : (s.drawn).fabricUp = s.fabricUp := rfl
@[simp] theorem State.drawn_lasersOn (s : State) : (s.drawn).lasersOn = s.lasersOn := rfl
@[simp] theorem State.drawn_jtagOpen (s : State) : (s.drawn).jtagOpen = s.jtagOpen := rfl
@[simp] theorem State.drawn_coreMap (s : State) : (s.drawn).coreMap = s.coreMap := rfl
@[simp] theorem State.drawn_coreSpares (s : State) : (s.drawn).coreSpares = s.coreSpares := rfl
@[simp] theorem State.drawn_obsWindow (s : State) : (s.drawn).obsWindow = s.obsWindow := rfl
@[simp] theorem State.drawn_obsBytes (s : State) : (s.drawn).obsBytes = s.obsBytes := rfl
@[simp] theorem State.drawn_lastTick (s : State) : (s.drawn).lastTick = s.lastTick := rfl
@[simp] theorem State.drawn_opSince (s : State) : (s.drawn).opSince = s.opSince := rfl

/-! ### State.idle -/

@[simp] theorem State.idle_pending (s : State) : (s.idle).pending = s.pending := rfl
@[simp] theorem State.idle_devNum (s : State) : (s.idle).devNum = s.devNum := rfl
@[simp] theorem State.idle_freeCtr (s : State) : (s.idle).freeCtr = s.freeCtr := rfl
@[simp] theorem State.idle_epochBase (s : State) : (s.idle).epochBase = s.epochBase := rfl
@[simp] theorem State.idle_tagCtr (s : State) : (s.idle).tagCtr = s.tagCtr := rfl
@[simp] theorem State.idle_sent (s : State) : (s.idle).sent = s.sent := rfl
@[simp] theorem State.idle_wire (s : State) : (s.idle).wire = s.wire := rfl
@[simp] theorem State.idle_datagrams (s : State) : (s.idle).datagrams = s.datagrams := rfl
@[simp] theorem State.idle_discarded (s : State) : (s.idle).discarded = s.discarded := rfl
@[simp] theorem State.idle_events (s : State) : (s.idle).events = s.events := rfl
@[simp] theorem State.idle_phase (s : State) : (s.idle).phase = s.phase := rfl
@[simp] theorem State.idle_startWord (s : State) : (s.idle).startWord = s.startWord := rfl
@[simp] theorem State.idle_tiles (s : State) : (s.idle).tiles = s.tiles := rfl
@[simp] theorem State.idle_clusters (s : State) : (s.idle).clusters = s.clusters := rfl
@[simp] theorem State.idle_dies (s : State) : (s.idle).dies = s.dies := rfl
@[simp] theorem State.idle_ctrls (s : State) : (s.idle).ctrls = s.ctrls := rfl
@[simp] theorem State.idle_bands (s : State) : (s.idle).bands = s.bands := rfl
@[simp] theorem State.idle_domains (s : State) : (s.idle).domains = s.domains := rfl
@[simp] theorem State.idle_engines (s : State) : (s.idle).engines = s.engines := rfl
@[simp] theorem State.idle_ports (s : State) : (s.idle).ports = s.ports := rfl
@[simp] theorem State.idle_groups (s : State) : (s.idle).groups = s.groups := rfl
@[simp] theorem State.idle_parts (s : State) : (s.idle).parts = s.parts := rfl
@[simp] theorem State.idle_hbm (s : State) : (s.idle).hbm = s.hbm := rfl
@[simp] theorem State.idle_badAccess (s : State) : (s.idle).badAccess = s.badAccess := rfl
@[simp] theorem State.idle_hardNow (s : State) : (s.idle).hardNow = s.hardNow := rfl
@[simp] theorem State.idle_transients (s : State) : (s.idle).transients = s.transients := rfl
@[simp] theorem State.idle_rowRepairs (s : State) : (s.idle).rowRepairs = s.rowRepairs := rfl
@[simp] theorem State.idle_hardRepairs (s : State) : (s.idle).hardRepairs = s.hardRepairs := rfl
@[simp] theorem State.idle_testing (s : State) : (s.idle).testing = s.testing := rfl
@[simp] theorem State.idle_rootClk (s : State) : (s.idle).rootClk = s.rootClk := rfl
@[simp] theorem State.idle_watchdog (s : State) : (s.idle).watchdog = s.watchdog := rfl
@[simp] theorem State.idle_alert (s : State) : (s.idle).alert = s.alert := rfl
@[simp] theorem State.idle_slack (s : State) : (s.idle).slack = s.slack := rfl
@[simp] theorem State.idle_pins (s : State) : (s.idle).pins = s.pins := rfl
@[simp] theorem State.idle_power (s : State) : (s.idle).power = s.power := rfl
@[simp] theorem State.idle_rails (s : State) : (s.idle).rails = s.rails := rfl
@[simp] theorem State.idle_thermal (s : State) : (s.idle).thermal = s.thermal := rfl
@[simp] theorem State.idle_residual (s : State) : (s.idle).residual = s.residual := rfl
@[simp] theorem State.idle_dump (s : State) : (s.idle).dump = s.dump := rfl
@[simp] theorem State.idle_otp (s : State) : (s.idle).otp = s.otp := rfl
@[simp] theorem State.idle_flash (s : State) : (s.idle).flash = s.flash := rfl
@[simp] theorem State.idle_island (s : State) : (s.idle).island = s.island := rfl
@[simp] theorem State.idle_dict (s : State) : (s.idle).dict = s.dict := rfl
@[simp] theorem State.idle_devArea (s : State) : (s.idle).devArea = s.devArea := rfl
@[simp] theorem State.idle_writers (s : State) : (s.idle).writers = s.writers := rfl
@[simp] theorem State.idle_ecat (s : State) : (s.idle).ecat = s.ecat := rfl
@[simp] theorem State.idle_mapping (s : State) : (s.idle).mapping = s.mapping := rfl
@[simp] theorem State.idle_neighbours (s : State) : (s.idle).neighbours = s.neighbours := rfl
@[simp] theorem State.idle_unresolved (s : State) : (s.idle).unresolved = s.unresolved := rfl
@[simp] theorem State.idle_reads (s : State) : (s.idle).reads = s.reads := rfl
@[simp] theorem State.idle_routes (s : State) : (s.idle).routes = s.routes := rfl
@[simp] theorem State.idle_pathNs (s : State) : (s.idle).pathNs = s.pathNs := rfl
@[simp] theorem State.idle_topology (s : State) : (s.idle).topology = s.topology := rfl
@[simp] theorem State.idle_topoSeq (s : State) : (s.idle).topoSeq = s.topoSeq := rfl
@[simp] theorem State.idle_topoSeen (s : State) : (s.idle).topoSeen = s.topoSeen := rfl
@[simp] theorem State.idle_fabricUp (s : State) : (s.idle).fabricUp = s.fabricUp := rfl
@[simp] theorem State.idle_lasersOn (s : State) : (s.idle).lasersOn = s.lasersOn := rfl
@[simp] theorem State.idle_jtagOpen (s : State) : (s.idle).jtagOpen = s.jtagOpen := rfl
@[simp] theorem State.idle_coreMap (s : State) : (s.idle).coreMap = s.coreMap := rfl
@[simp] theorem State.idle_coreSpares (s : State) : (s.idle).coreSpares = s.coreSpares := rfl
@[simp] theorem State.idle_obsWindow (s : State) : (s.idle).obsWindow = s.obsWindow := rfl
@[simp] theorem State.idle_obsBytes (s : State) : (s.idle).obsBytes = s.obsBytes := rfl
@[simp] theorem State.idle_lastTick (s : State) : (s.idle).lastTick = s.lastTick := rfl
@[simp] theorem State.idle_opSince (s : State) : (s.idle).opSince = s.opSince := rfl

/-! ### State.reach -/

@[simp] theorem State.reach_pending (s : State) (x : Stamp) : (s.reach x).pending = s.pending := rfl
@[simp] theorem State.reach_devNum (s : State) (x : Stamp) : (s.reach x).devNum = s.devNum := rfl
@[simp] theorem State.reach_freeCtr (s : State) (x : Stamp) : (s.reach x).freeCtr = s.freeCtr := rfl
@[simp] theorem State.reach_epochBase (s : State) (x : Stamp) : (s.reach x).epochBase = s.epochBase := rfl
@[simp] theorem State.reach_tagCtr (s : State) (x : Stamp) : (s.reach x).tagCtr = s.tagCtr := rfl
@[simp] theorem State.reach_sent (s : State) (x : Stamp) : (s.reach x).sent = s.sent := rfl
@[simp] theorem State.reach_wire (s : State) (x : Stamp) : (s.reach x).wire = s.wire := rfl
@[simp] theorem State.reach_datagrams (s : State) (x : Stamp) : (s.reach x).datagrams = s.datagrams := rfl
@[simp] theorem State.reach_discarded (s : State) (x : Stamp) : (s.reach x).discarded = s.discarded := rfl
@[simp] theorem State.reach_events (s : State) (x : Stamp) : (s.reach x).events = s.events := rfl
@[simp] theorem State.reach_phase (s : State) (x : Stamp) : (s.reach x).phase = s.phase := rfl
@[simp] theorem State.reach_startWord (s : State) (x : Stamp) : (s.reach x).startWord = s.startWord := rfl
@[simp] theorem State.reach_tiles (s : State) (x : Stamp) : (s.reach x).tiles = s.tiles := rfl
@[simp] theorem State.reach_clusters (s : State) (x : Stamp) : (s.reach x).clusters = s.clusters := rfl
@[simp] theorem State.reach_dies (s : State) (x : Stamp) : (s.reach x).dies = s.dies := rfl
@[simp] theorem State.reach_ctrls (s : State) (x : Stamp) : (s.reach x).ctrls = s.ctrls := rfl
@[simp] theorem State.reach_bands (s : State) (x : Stamp) : (s.reach x).bands = s.bands := rfl
@[simp] theorem State.reach_domains (s : State) (x : Stamp) : (s.reach x).domains = s.domains := rfl
@[simp] theorem State.reach_engines (s : State) (x : Stamp) : (s.reach x).engines = s.engines := rfl
@[simp] theorem State.reach_ports (s : State) (x : Stamp) : (s.reach x).ports = s.ports := rfl
@[simp] theorem State.reach_groups (s : State) (x : Stamp) : (s.reach x).groups = s.groups := rfl
@[simp] theorem State.reach_parts (s : State) (x : Stamp) : (s.reach x).parts = s.parts := rfl
@[simp] theorem State.reach_hbm (s : State) (x : Stamp) : (s.reach x).hbm = s.hbm := rfl
@[simp] theorem State.reach_badAccess (s : State) (x : Stamp) : (s.reach x).badAccess = s.badAccess := rfl
@[simp] theorem State.reach_hardNow (s : State) (x : Stamp) : (s.reach x).hardNow = s.hardNow := rfl
@[simp] theorem State.reach_transients (s : State) (x : Stamp) : (s.reach x).transients = s.transients := rfl
@[simp] theorem State.reach_rowRepairs (s : State) (x : Stamp) : (s.reach x).rowRepairs = s.rowRepairs := rfl
@[simp] theorem State.reach_hardRepairs (s : State) (x : Stamp) : (s.reach x).hardRepairs = s.hardRepairs := rfl
@[simp] theorem State.reach_testing (s : State) (x : Stamp) : (s.reach x).testing = s.testing := rfl
@[simp] theorem State.reach_rootClk (s : State) (x : Stamp) : (s.reach x).rootClk = s.rootClk := rfl
@[simp] theorem State.reach_watchdog (s : State) (x : Stamp) : (s.reach x).watchdog = s.watchdog := rfl
@[simp] theorem State.reach_alert (s : State) (x : Stamp) : (s.reach x).alert = s.alert := rfl
@[simp] theorem State.reach_slack (s : State) (x : Stamp) : (s.reach x).slack = s.slack := rfl
@[simp] theorem State.reach_pins (s : State) (x : Stamp) : (s.reach x).pins = s.pins := rfl
@[simp] theorem State.reach_power (s : State) (x : Stamp) : (s.reach x).power = s.power := rfl
@[simp] theorem State.reach_rails (s : State) (x : Stamp) : (s.reach x).rails = s.rails := rfl
@[simp] theorem State.reach_thermal (s : State) (x : Stamp) : (s.reach x).thermal = s.thermal := rfl
@[simp] theorem State.reach_residual (s : State) (x : Stamp) : (s.reach x).residual = s.residual := rfl
@[simp] theorem State.reach_dump (s : State) (x : Stamp) : (s.reach x).dump = s.dump := rfl
@[simp] theorem State.reach_otp (s : State) (x : Stamp) : (s.reach x).otp = s.otp := rfl
@[simp] theorem State.reach_flash (s : State) (x : Stamp) : (s.reach x).flash = s.flash := rfl
@[simp] theorem State.reach_island (s : State) (x : Stamp) : (s.reach x).island = s.island := rfl
@[simp] theorem State.reach_dict (s : State) (x : Stamp) : (s.reach x).dict = s.dict := rfl
@[simp] theorem State.reach_devArea (s : State) (x : Stamp) : (s.reach x).devArea = s.devArea := rfl
@[simp] theorem State.reach_writers (s : State) (x : Stamp) : (s.reach x).writers = s.writers := rfl
@[simp] theorem State.reach_ecat (s : State) (x : Stamp) : (s.reach x).ecat = s.ecat := rfl
@[simp] theorem State.reach_mapping (s : State) (x : Stamp) : (s.reach x).mapping = s.mapping := rfl
@[simp] theorem State.reach_neighbours (s : State) (x : Stamp) : (s.reach x).neighbours = s.neighbours := rfl
@[simp] theorem State.reach_unresolved (s : State) (x : Stamp) : (s.reach x).unresolved = s.unresolved := rfl
@[simp] theorem State.reach_reads (s : State) (x : Stamp) : (s.reach x).reads = s.reads := rfl
@[simp] theorem State.reach_routes (s : State) (x : Stamp) : (s.reach x).routes = s.routes := rfl
@[simp] theorem State.reach_pathNs (s : State) (x : Stamp) : (s.reach x).pathNs = s.pathNs := rfl
@[simp] theorem State.reach_topology (s : State) (x : Stamp) : (s.reach x).topology = s.topology := rfl
@[simp] theorem State.reach_topoSeq (s : State) (x : Stamp) : (s.reach x).topoSeq = s.topoSeq := rfl
@[simp] theorem State.reach_topoSeen (s : State) (x : Stamp) : (s.reach x).topoSeen = s.topoSeen := rfl
@[simp] theorem State.reach_fabricUp (s : State) (x : Stamp) : (s.reach x).fabricUp = s.fabricUp := rfl
@[simp] theorem State.reach_lasersOn (s : State) (x : Stamp) : (s.reach x).lasersOn = s.lasersOn := rfl
@[simp] theorem State.reach_jtagOpen (s : State) (x : Stamp) : (s.reach x).jtagOpen = s.jtagOpen := rfl
@[simp] theorem State.reach_coreMap (s : State) (x : Stamp) : (s.reach x).coreMap = s.coreMap := rfl
@[simp] theorem State.reach_coreSpares (s : State) (x : Stamp) : (s.reach x).coreSpares = s.coreSpares := rfl
@[simp] theorem State.reach_obsWindow (s : State) (x : Stamp) : (s.reach x).obsWindow = s.obsWindow := rfl
@[simp] theorem State.reach_obsBytes (s : State) (x : Stamp) : (s.reach x).obsBytes = s.obsBytes := rfl
@[simp] theorem State.reach_lastTick (s : State) (x : Stamp) : (s.reach x).lastTick = s.lastTick := rfl
@[simp] theorem State.reach_opSince (s : State) (x : Stamp) : (s.reach x).opSince = s.opSince := rfl

/-! ### Tile.modMac -/

@[simp] theorem Tile.modMac_seq (tl : Tile) (m : Nat) (f : Macro → Macro) : (tl.modMac m f).seq = tl.seq := rfl
@[simp] theorem Tile.modMac_hasImage (tl : Tile) (m : Nat) (f : Macro → Macro) : (tl.modMac m f).hasImage = tl.hasImage := rfl
@[simp] theorem Tile.modMac_q (tl : Tile) (m : Nat) (f : Macro → Macro) : (tl.modMac m f).q = tl.q := rfl
@[simp] theorem Tile.modMac_n (tl : Tile) (m : Nat) (f : Macro → Macro) : (tl.modMac m f).n = tl.n := rfl
@[simp] theorem Tile.modMac_ctr (tl : Tile) (m : Nat) (f : Macro → Macro) : (tl.modMac m f).ctr = tl.ctr := rfl
@[simp] theorem Tile.modMac_ibuf (tl : Tile) (m : Nat) (f : Macro → Macro) : (tl.modMac m f).ibuf = tl.ibuf := rfl
@[simp] theorem Tile.modMac_ibufPar (tl : Tile) (m : Nat) (f : Macro → Macro) : (tl.modMac m f).ibufPar = tl.ibufPar := rfl
@[simp] theorem Tile.modMac_qInit (tl : Tile) (m : Nat) (f : Macro → Macro) : (tl.modMac m f).qInit = tl.qInit := rfl
@[simp] theorem Tile.modMac_nInit (tl : Tile) (m : Nat) (f : Macro → Macro) : (tl.modMac m f).nInit = tl.nInit := rfl
@[simp] theorem Tile.modMac_map (tl : Tile) (m : Nat) (f : Macro → Macro) : (tl.modMac m f).map = tl.map := rfl
@[simp] theorem Tile.modMac_slots (tl : Tile) (m : Nat) (f : Macro → Macro) : (tl.modMac m f).slots = tl.slots := rfl
@[simp] theorem Tile.modMac_psets (tl : Tile) (m : Nat) (f : Macro → Macro) : (tl.modMac m f).psets = tl.psets := rfl
@[simp] theorem Tile.modMac_num (tl : Tile) (m : Nat) (f : Macro → Macro) : (tl.modMac m f).num = tl.num := rfl
@[simp] theorem Tile.modMac_check (tl : Tile) (m : Nat) (f : Macro → Macro) : (tl.modMac m f).check = tl.check := rfl
@[simp] theorem Tile.modMac_stat (tl : Tile) (m : Nat) (f : Macro → Macro) : (tl.modMac m f).stat = tl.stat := rfl
@[simp] theorem Tile.modMac_statUntil (tl : Tile) (m : Nat) (f : Macro → Macro) : (tl.modMac m f).statUntil = tl.statUntil := rfl
@[simp] theorem Tile.modMac_samples (tl : Tile) (m : Nat) (f : Macro → Macro) : (tl.modMac m f).samples = tl.samples := rfl
@[simp] theorem Tile.modMac_passes (tl : Tile) (m : Nat) (f : Macro → Macro) : (tl.modMac m f).passes = tl.passes := rfl
@[simp] theorem Tile.modMac_streams (tl : Tile) (m : Nat) (f : Macro → Macro) : (tl.modMac m f).streams = tl.streams := rfl
@[simp] theorem Tile.modMac_landings (tl : Tile) (m : Nat) (f : Macro → Macro) : (tl.modMac m f).landings = tl.landings := rfl
@[simp] theorem Tile.modMac_replay (tl : Tile) (m : Nat) (f : Macro → Macro) : (tl.modMac m f).replay = tl.replay := rfl
@[simp] theorem Tile.modMac_ops (tl : Tile) (m : Nat) (f : Macro → Macro) : (tl.modMac m f).ops = tl.ops := rfl
@[simp] theorem Tile.modMac_opSeq (tl : Tile) (m : Nat) (f : Macro → Macro) : (tl.modMac m f).opSeq = tl.opSeq := rfl
@[simp] theorem Tile.modMac_paths (tl : Tile) (m : Nat) (f : Macro → Macro) : (tl.modMac m f).paths = tl.paths := rfl
@[simp] theorem Tile.modMac_unitsUntil (tl : Tile) (m : Nat) (f : Macro → Macro) : (tl.modMac m f).unitsUntil = tl.unitsUntil := rfl
@[simp] theorem Tile.modMac_pageHold (tl : Tile) (m : Nat) (f : Macro → Macro) : (tl.modMac m f).pageHold = tl.pageHold := rfl
@[simp] theorem Tile.modMac_late (tl : Tile) (m : Nat) (f : Macro → Macro) : (tl.modMac m f).late = tl.late := rfl
@[simp] theorem Tile.modMac_sp (tl : Tile) (m : Nat) (f : Macro → Macro) : (tl.modMac m f).sp = tl.sp := rfl
@[simp] theorem Tile.modMac_spPar (tl : Tile) (m : Nat) (f : Macro → Macro) : (tl.modMac m f).spPar = tl.spPar := rfl
@[simp] theorem Tile.modMac_spBanks (tl : Tile) (m : Nat) (f : Macro → Macro) : (tl.modMac m f).spBanks = tl.spBanks := rfl
@[simp] theorem Tile.modMac_handles (tl : Tile) (m : Nat) (f : Macro → Macro) : (tl.modMac m f).handles = tl.handles := rfl
@[simp] theorem Tile.modMac_epochSeed (tl : Tile) (m : Nat) (f : Macro → Macro) : (tl.modMac m f).epochSeed = tl.epochSeed := rfl
@[simp] theorem Tile.modMac_windows (tl : Tile) (m : Nat) (f : Macro → Macro) : (tl.modMac m f).windows = tl.windows := rfl
@[simp] theorem Tile.modMac_writes (tl : Tile) (m : Nat) (f : Macro → Macro) : (tl.modMac m f).writes = tl.writes := rfl
@[simp] theorem Tile.modMac_held (tl : Tile) (m : Nat) (f : Macro → Macro) : (tl.modMac m f).held = tl.held := rfl
@[simp] theorem Tile.modMac_cur (tl : Tile) (m : Nat) (f : Macro → Macro) : (tl.modMac m f).cur = tl.cur := rfl
@[simp] theorem Tile.modMac_nxt (tl : Tile) (m : Nat) (f : Macro → Macro) : (tl.modMac m f).nxt = tl.nxt := rfl
@[simp] theorem Tile.modMac_nacks (tl : Tile) (m : Nat) (f : Macro → Macro) : (tl.modMac m f).nacks = tl.nacks := rfl
@[simp] theorem Tile.modMac_lastReason (tl : Tile) (m : Nat) (f : Macro → Macro) : (tl.modMac m f).lastReason = tl.lastReason := rfl
@[simp] theorem Tile.modMac_discards (tl : Tile) (m : Nat) (f : Macro → Macro) : (tl.modMac m f).discards = tl.discards := rfl
@[simp] theorem Tile.modMac_busyCount (tl : Tile) (m : Nat) (f : Macro → Macro) : (tl.modMac m f).busyCount = tl.busyCount := rfl
@[simp] theorem Tile.modMac_twin (tl : Tile) (m : Nat) (f : Macro → Macro) : (tl.modMac m f).twin = tl.twin := rfl
@[simp] theorem Tile.modMac_step (tl : Tile) (m : Nat) (f : Macro → Macro) : (tl.modMac m f).step = tl.step := rfl
@[simp] theorem Tile.modMac_bankSteps (tl : Tile) (m : Nat) (f : Macro → Macro) : (tl.modMac m f).bankSteps = tl.bankSteps := rfl
@[simp] theorem Tile.modMac_tw (tl : Tile) (m : Nat) (f : Macro → Macro) : (tl.modMac m f).tw = tl.tw := rfl
@[simp] theorem Tile.modMac_verify (tl : Tile) (m : Nat) (f : Macro → Macro) : (tl.modMac m f).verify = tl.verify := rfl
@[simp] theorem Tile.modMac_wp (tl : Tile) (m : Nat) (f : Macro → Macro) : (tl.modMac m f).wp = tl.wp := rfl
@[simp] theorem Tile.modMac_repair (tl : Tile) (m : Nat) (f : Macro → Macro) : (tl.modMac m f).repair = tl.repair := rfl

/-! ### Tile.modSlot -/

@[simp] theorem Tile.modSlot_seq (tl : Tile) (a : Nat) (f : Slot → Slot) : (tl.modSlot a f).seq = tl.seq := rfl
@[simp] theorem Tile.modSlot_hasImage (tl : Tile) (a : Nat) (f : Slot → Slot) : (tl.modSlot a f).hasImage = tl.hasImage := rfl
@[simp] theorem Tile.modSlot_q (tl : Tile) (a : Nat) (f : Slot → Slot) : (tl.modSlot a f).q = tl.q := rfl
@[simp] theorem Tile.modSlot_n (tl : Tile) (a : Nat) (f : Slot → Slot) : (tl.modSlot a f).n = tl.n := rfl
@[simp] theorem Tile.modSlot_ctr (tl : Tile) (a : Nat) (f : Slot → Slot) : (tl.modSlot a f).ctr = tl.ctr := rfl
@[simp] theorem Tile.modSlot_ibuf (tl : Tile) (a : Nat) (f : Slot → Slot) : (tl.modSlot a f).ibuf = tl.ibuf := rfl
@[simp] theorem Tile.modSlot_ibufPar (tl : Tile) (a : Nat) (f : Slot → Slot) : (tl.modSlot a f).ibufPar = tl.ibufPar := rfl
@[simp] theorem Tile.modSlot_qInit (tl : Tile) (a : Nat) (f : Slot → Slot) : (tl.modSlot a f).qInit = tl.qInit := rfl
@[simp] theorem Tile.modSlot_nInit (tl : Tile) (a : Nat) (f : Slot → Slot) : (tl.modSlot a f).nInit = tl.nInit := rfl
@[simp] theorem Tile.modSlot_macros (tl : Tile) (a : Nat) (f : Slot → Slot) : (tl.modSlot a f).macros = tl.macros := rfl
@[simp] theorem Tile.modSlot_map (tl : Tile) (a : Nat) (f : Slot → Slot) : (tl.modSlot a f).map = tl.map := rfl
@[simp] theorem Tile.modSlot_psets (tl : Tile) (a : Nat) (f : Slot → Slot) : (tl.modSlot a f).psets = tl.psets := rfl
@[simp] theorem Tile.modSlot_num (tl : Tile) (a : Nat) (f : Slot → Slot) : (tl.modSlot a f).num = tl.num := rfl
@[simp] theorem Tile.modSlot_check (tl : Tile) (a : Nat) (f : Slot → Slot) : (tl.modSlot a f).check = tl.check := rfl
@[simp] theorem Tile.modSlot_stat (tl : Tile) (a : Nat) (f : Slot → Slot) : (tl.modSlot a f).stat = tl.stat := rfl
@[simp] theorem Tile.modSlot_statUntil (tl : Tile) (a : Nat) (f : Slot → Slot) : (tl.modSlot a f).statUntil = tl.statUntil := rfl
@[simp] theorem Tile.modSlot_samples (tl : Tile) (a : Nat) (f : Slot → Slot) : (tl.modSlot a f).samples = tl.samples := rfl
@[simp] theorem Tile.modSlot_passes (tl : Tile) (a : Nat) (f : Slot → Slot) : (tl.modSlot a f).passes = tl.passes := rfl
@[simp] theorem Tile.modSlot_streams (tl : Tile) (a : Nat) (f : Slot → Slot) : (tl.modSlot a f).streams = tl.streams := rfl
@[simp] theorem Tile.modSlot_landings (tl : Tile) (a : Nat) (f : Slot → Slot) : (tl.modSlot a f).landings = tl.landings := rfl
@[simp] theorem Tile.modSlot_replay (tl : Tile) (a : Nat) (f : Slot → Slot) : (tl.modSlot a f).replay = tl.replay := rfl
@[simp] theorem Tile.modSlot_ops (tl : Tile) (a : Nat) (f : Slot → Slot) : (tl.modSlot a f).ops = tl.ops := rfl
@[simp] theorem Tile.modSlot_opSeq (tl : Tile) (a : Nat) (f : Slot → Slot) : (tl.modSlot a f).opSeq = tl.opSeq := rfl
@[simp] theorem Tile.modSlot_paths (tl : Tile) (a : Nat) (f : Slot → Slot) : (tl.modSlot a f).paths = tl.paths := rfl
@[simp] theorem Tile.modSlot_unitsUntil (tl : Tile) (a : Nat) (f : Slot → Slot) : (tl.modSlot a f).unitsUntil = tl.unitsUntil := rfl
@[simp] theorem Tile.modSlot_pageHold (tl : Tile) (a : Nat) (f : Slot → Slot) : (tl.modSlot a f).pageHold = tl.pageHold := rfl
@[simp] theorem Tile.modSlot_late (tl : Tile) (a : Nat) (f : Slot → Slot) : (tl.modSlot a f).late = tl.late := rfl
@[simp] theorem Tile.modSlot_sp (tl : Tile) (a : Nat) (f : Slot → Slot) : (tl.modSlot a f).sp = tl.sp := rfl
@[simp] theorem Tile.modSlot_spPar (tl : Tile) (a : Nat) (f : Slot → Slot) : (tl.modSlot a f).spPar = tl.spPar := rfl
@[simp] theorem Tile.modSlot_spBanks (tl : Tile) (a : Nat) (f : Slot → Slot) : (tl.modSlot a f).spBanks = tl.spBanks := rfl
@[simp] theorem Tile.modSlot_handles (tl : Tile) (a : Nat) (f : Slot → Slot) : (tl.modSlot a f).handles = tl.handles := rfl
@[simp] theorem Tile.modSlot_epochSeed (tl : Tile) (a : Nat) (f : Slot → Slot) : (tl.modSlot a f).epochSeed = tl.epochSeed := rfl
@[simp] theorem Tile.modSlot_windows (tl : Tile) (a : Nat) (f : Slot → Slot) : (tl.modSlot a f).windows = tl.windows := rfl
@[simp] theorem Tile.modSlot_writes (tl : Tile) (a : Nat) (f : Slot → Slot) : (tl.modSlot a f).writes = tl.writes := rfl
@[simp] theorem Tile.modSlot_held (tl : Tile) (a : Nat) (f : Slot → Slot) : (tl.modSlot a f).held = tl.held := rfl
@[simp] theorem Tile.modSlot_cur (tl : Tile) (a : Nat) (f : Slot → Slot) : (tl.modSlot a f).cur = tl.cur := rfl
@[simp] theorem Tile.modSlot_nxt (tl : Tile) (a : Nat) (f : Slot → Slot) : (tl.modSlot a f).nxt = tl.nxt := rfl
@[simp] theorem Tile.modSlot_nacks (tl : Tile) (a : Nat) (f : Slot → Slot) : (tl.modSlot a f).nacks = tl.nacks := rfl
@[simp] theorem Tile.modSlot_lastReason (tl : Tile) (a : Nat) (f : Slot → Slot) : (tl.modSlot a f).lastReason = tl.lastReason := rfl
@[simp] theorem Tile.modSlot_discards (tl : Tile) (a : Nat) (f : Slot → Slot) : (tl.modSlot a f).discards = tl.discards := rfl
@[simp] theorem Tile.modSlot_busyCount (tl : Tile) (a : Nat) (f : Slot → Slot) : (tl.modSlot a f).busyCount = tl.busyCount := rfl
@[simp] theorem Tile.modSlot_twin (tl : Tile) (a : Nat) (f : Slot → Slot) : (tl.modSlot a f).twin = tl.twin := rfl
@[simp] theorem Tile.modSlot_step (tl : Tile) (a : Nat) (f : Slot → Slot) : (tl.modSlot a f).step = tl.step := rfl
@[simp] theorem Tile.modSlot_bankSteps (tl : Tile) (a : Nat) (f : Slot → Slot) : (tl.modSlot a f).bankSteps = tl.bankSteps := rfl
@[simp] theorem Tile.modSlot_tw (tl : Tile) (a : Nat) (f : Slot → Slot) : (tl.modSlot a f).tw = tl.tw := rfl
@[simp] theorem Tile.modSlot_verify (tl : Tile) (a : Nat) (f : Slot → Slot) : (tl.modSlot a f).verify = tl.verify := rfl
@[simp] theorem Tile.modSlot_wp (tl : Tile) (a : Nat) (f : Slot → Slot) : (tl.modSlot a f).wp = tl.wp := rfl
@[simp] theorem Tile.modSlot_repair (tl : Tile) (a : Nat) (f : Slot → Slot) : (tl.modSlot a f).repair = tl.repair := rfl

/-! ### Tile.modCounter -/

@[simp] theorem Tile.modCounter_seq (tl : Tile) (i : Nat) (f : Counter → Counter) : (tl.modCounter i f).seq = tl.seq := rfl
@[simp] theorem Tile.modCounter_hasImage (tl : Tile) (i : Nat) (f : Counter → Counter) : (tl.modCounter i f).hasImage = tl.hasImage := rfl
@[simp] theorem Tile.modCounter_q (tl : Tile) (i : Nat) (f : Counter → Counter) : (tl.modCounter i f).q = tl.q := rfl
@[simp] theorem Tile.modCounter_n (tl : Tile) (i : Nat) (f : Counter → Counter) : (tl.modCounter i f).n = tl.n := rfl
@[simp] theorem Tile.modCounter_ibuf (tl : Tile) (i : Nat) (f : Counter → Counter) : (tl.modCounter i f).ibuf = tl.ibuf := rfl
@[simp] theorem Tile.modCounter_ibufPar (tl : Tile) (i : Nat) (f : Counter → Counter) : (tl.modCounter i f).ibufPar = tl.ibufPar := rfl
@[simp] theorem Tile.modCounter_qInit (tl : Tile) (i : Nat) (f : Counter → Counter) : (tl.modCounter i f).qInit = tl.qInit := rfl
@[simp] theorem Tile.modCounter_nInit (tl : Tile) (i : Nat) (f : Counter → Counter) : (tl.modCounter i f).nInit = tl.nInit := rfl
@[simp] theorem Tile.modCounter_macros (tl : Tile) (i : Nat) (f : Counter → Counter) : (tl.modCounter i f).macros = tl.macros := rfl
@[simp] theorem Tile.modCounter_map (tl : Tile) (i : Nat) (f : Counter → Counter) : (tl.modCounter i f).map = tl.map := rfl
@[simp] theorem Tile.modCounter_slots (tl : Tile) (i : Nat) (f : Counter → Counter) : (tl.modCounter i f).slots = tl.slots := rfl
@[simp] theorem Tile.modCounter_psets (tl : Tile) (i : Nat) (f : Counter → Counter) : (tl.modCounter i f).psets = tl.psets := rfl
@[simp] theorem Tile.modCounter_num (tl : Tile) (i : Nat) (f : Counter → Counter) : (tl.modCounter i f).num = tl.num := rfl
@[simp] theorem Tile.modCounter_check (tl : Tile) (i : Nat) (f : Counter → Counter) : (tl.modCounter i f).check = tl.check := rfl
@[simp] theorem Tile.modCounter_stat (tl : Tile) (i : Nat) (f : Counter → Counter) : (tl.modCounter i f).stat = tl.stat := rfl
@[simp] theorem Tile.modCounter_statUntil (tl : Tile) (i : Nat) (f : Counter → Counter) : (tl.modCounter i f).statUntil = tl.statUntil := rfl
@[simp] theorem Tile.modCounter_samples (tl : Tile) (i : Nat) (f : Counter → Counter) : (tl.modCounter i f).samples = tl.samples := rfl
@[simp] theorem Tile.modCounter_passes (tl : Tile) (i : Nat) (f : Counter → Counter) : (tl.modCounter i f).passes = tl.passes := rfl
@[simp] theorem Tile.modCounter_streams (tl : Tile) (i : Nat) (f : Counter → Counter) : (tl.modCounter i f).streams = tl.streams := rfl
@[simp] theorem Tile.modCounter_landings (tl : Tile) (i : Nat) (f : Counter → Counter) : (tl.modCounter i f).landings = tl.landings := rfl
@[simp] theorem Tile.modCounter_replay (tl : Tile) (i : Nat) (f : Counter → Counter) : (tl.modCounter i f).replay = tl.replay := rfl
@[simp] theorem Tile.modCounter_ops (tl : Tile) (i : Nat) (f : Counter → Counter) : (tl.modCounter i f).ops = tl.ops := rfl
@[simp] theorem Tile.modCounter_opSeq (tl : Tile) (i : Nat) (f : Counter → Counter) : (tl.modCounter i f).opSeq = tl.opSeq := rfl
@[simp] theorem Tile.modCounter_paths (tl : Tile) (i : Nat) (f : Counter → Counter) : (tl.modCounter i f).paths = tl.paths := rfl
@[simp] theorem Tile.modCounter_unitsUntil (tl : Tile) (i : Nat) (f : Counter → Counter) : (tl.modCounter i f).unitsUntil = tl.unitsUntil := rfl
@[simp] theorem Tile.modCounter_pageHold (tl : Tile) (i : Nat) (f : Counter → Counter) : (tl.modCounter i f).pageHold = tl.pageHold := rfl
@[simp] theorem Tile.modCounter_late (tl : Tile) (i : Nat) (f : Counter → Counter) : (tl.modCounter i f).late = tl.late := rfl
@[simp] theorem Tile.modCounter_sp (tl : Tile) (i : Nat) (f : Counter → Counter) : (tl.modCounter i f).sp = tl.sp := rfl
@[simp] theorem Tile.modCounter_spPar (tl : Tile) (i : Nat) (f : Counter → Counter) : (tl.modCounter i f).spPar = tl.spPar := rfl
@[simp] theorem Tile.modCounter_spBanks (tl : Tile) (i : Nat) (f : Counter → Counter) : (tl.modCounter i f).spBanks = tl.spBanks := rfl
@[simp] theorem Tile.modCounter_handles (tl : Tile) (i : Nat) (f : Counter → Counter) : (tl.modCounter i f).handles = tl.handles := rfl
@[simp] theorem Tile.modCounter_epochSeed (tl : Tile) (i : Nat) (f : Counter → Counter) : (tl.modCounter i f).epochSeed = tl.epochSeed := rfl
@[simp] theorem Tile.modCounter_windows (tl : Tile) (i : Nat) (f : Counter → Counter) : (tl.modCounter i f).windows = tl.windows := rfl
@[simp] theorem Tile.modCounter_writes (tl : Tile) (i : Nat) (f : Counter → Counter) : (tl.modCounter i f).writes = tl.writes := rfl
@[simp] theorem Tile.modCounter_held (tl : Tile) (i : Nat) (f : Counter → Counter) : (tl.modCounter i f).held = tl.held := rfl
@[simp] theorem Tile.modCounter_cur (tl : Tile) (i : Nat) (f : Counter → Counter) : (tl.modCounter i f).cur = tl.cur := rfl
@[simp] theorem Tile.modCounter_nxt (tl : Tile) (i : Nat) (f : Counter → Counter) : (tl.modCounter i f).nxt = tl.nxt := rfl
@[simp] theorem Tile.modCounter_nacks (tl : Tile) (i : Nat) (f : Counter → Counter) : (tl.modCounter i f).nacks = tl.nacks := rfl
@[simp] theorem Tile.modCounter_lastReason (tl : Tile) (i : Nat) (f : Counter → Counter) : (tl.modCounter i f).lastReason = tl.lastReason := rfl
@[simp] theorem Tile.modCounter_discards (tl : Tile) (i : Nat) (f : Counter → Counter) : (tl.modCounter i f).discards = tl.discards := rfl
@[simp] theorem Tile.modCounter_busyCount (tl : Tile) (i : Nat) (f : Counter → Counter) : (tl.modCounter i f).busyCount = tl.busyCount := rfl
@[simp] theorem Tile.modCounter_twin (tl : Tile) (i : Nat) (f : Counter → Counter) : (tl.modCounter i f).twin = tl.twin := rfl
@[simp] theorem Tile.modCounter_step (tl : Tile) (i : Nat) (f : Counter → Counter) : (tl.modCounter i f).step = tl.step := rfl
@[simp] theorem Tile.modCounter_bankSteps (tl : Tile) (i : Nat) (f : Counter → Counter) : (tl.modCounter i f).bankSteps = tl.bankSteps := rfl
@[simp] theorem Tile.modCounter_tw (tl : Tile) (i : Nat) (f : Counter → Counter) : (tl.modCounter i f).tw = tl.tw := rfl
@[simp] theorem Tile.modCounter_verify (tl : Tile) (i : Nat) (f : Counter → Counter) : (tl.modCounter i f).verify = tl.verify := rfl
@[simp] theorem Tile.modCounter_wp (tl : Tile) (i : Nat) (f : Counter → Counter) : (tl.modCounter i f).wp = tl.wp := rfl
@[simp] theorem Tile.modCounter_repair (tl : Tile) (i : Nat) (f : Counter → Counter) : (tl.modCounter i f).repair = tl.repair := rfl

/-! ### Tile.modWin -/

@[simp] theorem Tile.modWin_seq (tl : Tile) (h : Nat) (f : WinSt → WinSt) : (tl.modWin h f).seq = tl.seq := rfl
@[simp] theorem Tile.modWin_hasImage (tl : Tile) (h : Nat) (f : WinSt → WinSt) : (tl.modWin h f).hasImage = tl.hasImage := rfl
@[simp] theorem Tile.modWin_q (tl : Tile) (h : Nat) (f : WinSt → WinSt) : (tl.modWin h f).q = tl.q := rfl
@[simp] theorem Tile.modWin_n (tl : Tile) (h : Nat) (f : WinSt → WinSt) : (tl.modWin h f).n = tl.n := rfl
@[simp] theorem Tile.modWin_ctr (tl : Tile) (h : Nat) (f : WinSt → WinSt) : (tl.modWin h f).ctr = tl.ctr := rfl
@[simp] theorem Tile.modWin_ibuf (tl : Tile) (h : Nat) (f : WinSt → WinSt) : (tl.modWin h f).ibuf = tl.ibuf := rfl
@[simp] theorem Tile.modWin_ibufPar (tl : Tile) (h : Nat) (f : WinSt → WinSt) : (tl.modWin h f).ibufPar = tl.ibufPar := rfl
@[simp] theorem Tile.modWin_qInit (tl : Tile) (h : Nat) (f : WinSt → WinSt) : (tl.modWin h f).qInit = tl.qInit := rfl
@[simp] theorem Tile.modWin_nInit (tl : Tile) (h : Nat) (f : WinSt → WinSt) : (tl.modWin h f).nInit = tl.nInit := rfl
@[simp] theorem Tile.modWin_macros (tl : Tile) (h : Nat) (f : WinSt → WinSt) : (tl.modWin h f).macros = tl.macros := rfl
@[simp] theorem Tile.modWin_map (tl : Tile) (h : Nat) (f : WinSt → WinSt) : (tl.modWin h f).map = tl.map := rfl
@[simp] theorem Tile.modWin_slots (tl : Tile) (h : Nat) (f : WinSt → WinSt) : (tl.modWin h f).slots = tl.slots := rfl
@[simp] theorem Tile.modWin_psets (tl : Tile) (h : Nat) (f : WinSt → WinSt) : (tl.modWin h f).psets = tl.psets := rfl
@[simp] theorem Tile.modWin_num (tl : Tile) (h : Nat) (f : WinSt → WinSt) : (tl.modWin h f).num = tl.num := rfl
@[simp] theorem Tile.modWin_check (tl : Tile) (h : Nat) (f : WinSt → WinSt) : (tl.modWin h f).check = tl.check := rfl
@[simp] theorem Tile.modWin_stat (tl : Tile) (h : Nat) (f : WinSt → WinSt) : (tl.modWin h f).stat = tl.stat := rfl
@[simp] theorem Tile.modWin_statUntil (tl : Tile) (h : Nat) (f : WinSt → WinSt) : (tl.modWin h f).statUntil = tl.statUntil := rfl
@[simp] theorem Tile.modWin_samples (tl : Tile) (h : Nat) (f : WinSt → WinSt) : (tl.modWin h f).samples = tl.samples := rfl
@[simp] theorem Tile.modWin_passes (tl : Tile) (h : Nat) (f : WinSt → WinSt) : (tl.modWin h f).passes = tl.passes := rfl
@[simp] theorem Tile.modWin_streams (tl : Tile) (h : Nat) (f : WinSt → WinSt) : (tl.modWin h f).streams = tl.streams := rfl
@[simp] theorem Tile.modWin_landings (tl : Tile) (h : Nat) (f : WinSt → WinSt) : (tl.modWin h f).landings = tl.landings := rfl
@[simp] theorem Tile.modWin_replay (tl : Tile) (h : Nat) (f : WinSt → WinSt) : (tl.modWin h f).replay = tl.replay := rfl
@[simp] theorem Tile.modWin_ops (tl : Tile) (h : Nat) (f : WinSt → WinSt) : (tl.modWin h f).ops = tl.ops := rfl
@[simp] theorem Tile.modWin_opSeq (tl : Tile) (h : Nat) (f : WinSt → WinSt) : (tl.modWin h f).opSeq = tl.opSeq := rfl
@[simp] theorem Tile.modWin_paths (tl : Tile) (h : Nat) (f : WinSt → WinSt) : (tl.modWin h f).paths = tl.paths := rfl
@[simp] theorem Tile.modWin_unitsUntil (tl : Tile) (h : Nat) (f : WinSt → WinSt) : (tl.modWin h f).unitsUntil = tl.unitsUntil := rfl
@[simp] theorem Tile.modWin_pageHold (tl : Tile) (h : Nat) (f : WinSt → WinSt) : (tl.modWin h f).pageHold = tl.pageHold := rfl
@[simp] theorem Tile.modWin_late (tl : Tile) (h : Nat) (f : WinSt → WinSt) : (tl.modWin h f).late = tl.late := rfl
@[simp] theorem Tile.modWin_sp (tl : Tile) (h : Nat) (f : WinSt → WinSt) : (tl.modWin h f).sp = tl.sp := rfl
@[simp] theorem Tile.modWin_spPar (tl : Tile) (h : Nat) (f : WinSt → WinSt) : (tl.modWin h f).spPar = tl.spPar := rfl
@[simp] theorem Tile.modWin_spBanks (tl : Tile) (h : Nat) (f : WinSt → WinSt) : (tl.modWin h f).spBanks = tl.spBanks := rfl
@[simp] theorem Tile.modWin_handles (tl : Tile) (h : Nat) (f : WinSt → WinSt) : (tl.modWin h f).handles = tl.handles := rfl
@[simp] theorem Tile.modWin_epochSeed (tl : Tile) (h : Nat) (f : WinSt → WinSt) : (tl.modWin h f).epochSeed = tl.epochSeed := rfl
@[simp] theorem Tile.modWin_writes (tl : Tile) (h : Nat) (f : WinSt → WinSt) : (tl.modWin h f).writes = tl.writes := rfl
@[simp] theorem Tile.modWin_held (tl : Tile) (h : Nat) (f : WinSt → WinSt) : (tl.modWin h f).held = tl.held := rfl
@[simp] theorem Tile.modWin_cur (tl : Tile) (h : Nat) (f : WinSt → WinSt) : (tl.modWin h f).cur = tl.cur := rfl
@[simp] theorem Tile.modWin_nxt (tl : Tile) (h : Nat) (f : WinSt → WinSt) : (tl.modWin h f).nxt = tl.nxt := rfl
@[simp] theorem Tile.modWin_nacks (tl : Tile) (h : Nat) (f : WinSt → WinSt) : (tl.modWin h f).nacks = tl.nacks := rfl
@[simp] theorem Tile.modWin_lastReason (tl : Tile) (h : Nat) (f : WinSt → WinSt) : (tl.modWin h f).lastReason = tl.lastReason := rfl
@[simp] theorem Tile.modWin_discards (tl : Tile) (h : Nat) (f : WinSt → WinSt) : (tl.modWin h f).discards = tl.discards := rfl
@[simp] theorem Tile.modWin_busyCount (tl : Tile) (h : Nat) (f : WinSt → WinSt) : (tl.modWin h f).busyCount = tl.busyCount := rfl
@[simp] theorem Tile.modWin_twin (tl : Tile) (h : Nat) (f : WinSt → WinSt) : (tl.modWin h f).twin = tl.twin := rfl
@[simp] theorem Tile.modWin_step (tl : Tile) (h : Nat) (f : WinSt → WinSt) : (tl.modWin h f).step = tl.step := rfl
@[simp] theorem Tile.modWin_bankSteps (tl : Tile) (h : Nat) (f : WinSt → WinSt) : (tl.modWin h f).bankSteps = tl.bankSteps := rfl
@[simp] theorem Tile.modWin_tw (tl : Tile) (h : Nat) (f : WinSt → WinSt) : (tl.modWin h f).tw = tl.tw := rfl
@[simp] theorem Tile.modWin_verify (tl : Tile) (h : Nat) (f : WinSt → WinSt) : (tl.modWin h f).verify = tl.verify := rfl
@[simp] theorem Tile.modWin_wp (tl : Tile) (h : Nat) (f : WinSt → WinSt) : (tl.modWin h f).wp = tl.wp := rfl
@[simp] theorem Tile.modWin_repair (tl : Tile) (h : Nat) (f : WinSt → WinSt) : (tl.modWin h f).repair = tl.repair := rfl

/-! ### Tile.modSpBank -/

@[simp] theorem Tile.modSpBank_seq (tl : Tile) (b : Nat) (f : SpBankSt → SpBankSt) : (tl.modSpBank b f).seq = tl.seq := rfl
@[simp] theorem Tile.modSpBank_hasImage (tl : Tile) (b : Nat) (f : SpBankSt → SpBankSt) : (tl.modSpBank b f).hasImage = tl.hasImage := rfl
@[simp] theorem Tile.modSpBank_q (tl : Tile) (b : Nat) (f : SpBankSt → SpBankSt) : (tl.modSpBank b f).q = tl.q := rfl
@[simp] theorem Tile.modSpBank_n (tl : Tile) (b : Nat) (f : SpBankSt → SpBankSt) : (tl.modSpBank b f).n = tl.n := rfl
@[simp] theorem Tile.modSpBank_ctr (tl : Tile) (b : Nat) (f : SpBankSt → SpBankSt) : (tl.modSpBank b f).ctr = tl.ctr := rfl
@[simp] theorem Tile.modSpBank_ibuf (tl : Tile) (b : Nat) (f : SpBankSt → SpBankSt) : (tl.modSpBank b f).ibuf = tl.ibuf := rfl
@[simp] theorem Tile.modSpBank_ibufPar (tl : Tile) (b : Nat) (f : SpBankSt → SpBankSt) : (tl.modSpBank b f).ibufPar = tl.ibufPar := rfl
@[simp] theorem Tile.modSpBank_qInit (tl : Tile) (b : Nat) (f : SpBankSt → SpBankSt) : (tl.modSpBank b f).qInit = tl.qInit := rfl
@[simp] theorem Tile.modSpBank_nInit (tl : Tile) (b : Nat) (f : SpBankSt → SpBankSt) : (tl.modSpBank b f).nInit = tl.nInit := rfl
@[simp] theorem Tile.modSpBank_macros (tl : Tile) (b : Nat) (f : SpBankSt → SpBankSt) : (tl.modSpBank b f).macros = tl.macros := rfl
@[simp] theorem Tile.modSpBank_map (tl : Tile) (b : Nat) (f : SpBankSt → SpBankSt) : (tl.modSpBank b f).map = tl.map := rfl
@[simp] theorem Tile.modSpBank_slots (tl : Tile) (b : Nat) (f : SpBankSt → SpBankSt) : (tl.modSpBank b f).slots = tl.slots := rfl
@[simp] theorem Tile.modSpBank_psets (tl : Tile) (b : Nat) (f : SpBankSt → SpBankSt) : (tl.modSpBank b f).psets = tl.psets := rfl
@[simp] theorem Tile.modSpBank_num (tl : Tile) (b : Nat) (f : SpBankSt → SpBankSt) : (tl.modSpBank b f).num = tl.num := rfl
@[simp] theorem Tile.modSpBank_check (tl : Tile) (b : Nat) (f : SpBankSt → SpBankSt) : (tl.modSpBank b f).check = tl.check := rfl
@[simp] theorem Tile.modSpBank_stat (tl : Tile) (b : Nat) (f : SpBankSt → SpBankSt) : (tl.modSpBank b f).stat = tl.stat := rfl
@[simp] theorem Tile.modSpBank_statUntil (tl : Tile) (b : Nat) (f : SpBankSt → SpBankSt) : (tl.modSpBank b f).statUntil = tl.statUntil := rfl
@[simp] theorem Tile.modSpBank_samples (tl : Tile) (b : Nat) (f : SpBankSt → SpBankSt) : (tl.modSpBank b f).samples = tl.samples := rfl
@[simp] theorem Tile.modSpBank_passes (tl : Tile) (b : Nat) (f : SpBankSt → SpBankSt) : (tl.modSpBank b f).passes = tl.passes := rfl
@[simp] theorem Tile.modSpBank_streams (tl : Tile) (b : Nat) (f : SpBankSt → SpBankSt) : (tl.modSpBank b f).streams = tl.streams := rfl
@[simp] theorem Tile.modSpBank_landings (tl : Tile) (b : Nat) (f : SpBankSt → SpBankSt) : (tl.modSpBank b f).landings = tl.landings := rfl
@[simp] theorem Tile.modSpBank_replay (tl : Tile) (b : Nat) (f : SpBankSt → SpBankSt) : (tl.modSpBank b f).replay = tl.replay := rfl
@[simp] theorem Tile.modSpBank_ops (tl : Tile) (b : Nat) (f : SpBankSt → SpBankSt) : (tl.modSpBank b f).ops = tl.ops := rfl
@[simp] theorem Tile.modSpBank_opSeq (tl : Tile) (b : Nat) (f : SpBankSt → SpBankSt) : (tl.modSpBank b f).opSeq = tl.opSeq := rfl
@[simp] theorem Tile.modSpBank_paths (tl : Tile) (b : Nat) (f : SpBankSt → SpBankSt) : (tl.modSpBank b f).paths = tl.paths := rfl
@[simp] theorem Tile.modSpBank_unitsUntil (tl : Tile) (b : Nat) (f : SpBankSt → SpBankSt) : (tl.modSpBank b f).unitsUntil = tl.unitsUntil := rfl
@[simp] theorem Tile.modSpBank_pageHold (tl : Tile) (b : Nat) (f : SpBankSt → SpBankSt) : (tl.modSpBank b f).pageHold = tl.pageHold := rfl
@[simp] theorem Tile.modSpBank_late (tl : Tile) (b : Nat) (f : SpBankSt → SpBankSt) : (tl.modSpBank b f).late = tl.late := rfl
@[simp] theorem Tile.modSpBank_sp (tl : Tile) (b : Nat) (f : SpBankSt → SpBankSt) : (tl.modSpBank b f).sp = tl.sp := rfl
@[simp] theorem Tile.modSpBank_spPar (tl : Tile) (b : Nat) (f : SpBankSt → SpBankSt) : (tl.modSpBank b f).spPar = tl.spPar := rfl
@[simp] theorem Tile.modSpBank_handles (tl : Tile) (b : Nat) (f : SpBankSt → SpBankSt) : (tl.modSpBank b f).handles = tl.handles := rfl
@[simp] theorem Tile.modSpBank_epochSeed (tl : Tile) (b : Nat) (f : SpBankSt → SpBankSt) : (tl.modSpBank b f).epochSeed = tl.epochSeed := rfl
@[simp] theorem Tile.modSpBank_windows (tl : Tile) (b : Nat) (f : SpBankSt → SpBankSt) : (tl.modSpBank b f).windows = tl.windows := rfl
@[simp] theorem Tile.modSpBank_writes (tl : Tile) (b : Nat) (f : SpBankSt → SpBankSt) : (tl.modSpBank b f).writes = tl.writes := rfl
@[simp] theorem Tile.modSpBank_held (tl : Tile) (b : Nat) (f : SpBankSt → SpBankSt) : (tl.modSpBank b f).held = tl.held := rfl
@[simp] theorem Tile.modSpBank_cur (tl : Tile) (b : Nat) (f : SpBankSt → SpBankSt) : (tl.modSpBank b f).cur = tl.cur := rfl
@[simp] theorem Tile.modSpBank_nxt (tl : Tile) (b : Nat) (f : SpBankSt → SpBankSt) : (tl.modSpBank b f).nxt = tl.nxt := rfl
@[simp] theorem Tile.modSpBank_nacks (tl : Tile) (b : Nat) (f : SpBankSt → SpBankSt) : (tl.modSpBank b f).nacks = tl.nacks := rfl
@[simp] theorem Tile.modSpBank_lastReason (tl : Tile) (b : Nat) (f : SpBankSt → SpBankSt) : (tl.modSpBank b f).lastReason = tl.lastReason := rfl
@[simp] theorem Tile.modSpBank_discards (tl : Tile) (b : Nat) (f : SpBankSt → SpBankSt) : (tl.modSpBank b f).discards = tl.discards := rfl
@[simp] theorem Tile.modSpBank_busyCount (tl : Tile) (b : Nat) (f : SpBankSt → SpBankSt) : (tl.modSpBank b f).busyCount = tl.busyCount := rfl
@[simp] theorem Tile.modSpBank_twin (tl : Tile) (b : Nat) (f : SpBankSt → SpBankSt) : (tl.modSpBank b f).twin = tl.twin := rfl
@[simp] theorem Tile.modSpBank_step (tl : Tile) (b : Nat) (f : SpBankSt → SpBankSt) : (tl.modSpBank b f).step = tl.step := rfl
@[simp] theorem Tile.modSpBank_bankSteps (tl : Tile) (b : Nat) (f : SpBankSt → SpBankSt) : (tl.modSpBank b f).bankSteps = tl.bankSteps := rfl
@[simp] theorem Tile.modSpBank_tw (tl : Tile) (b : Nat) (f : SpBankSt → SpBankSt) : (tl.modSpBank b f).tw = tl.tw := rfl
@[simp] theorem Tile.modSpBank_verify (tl : Tile) (b : Nat) (f : SpBankSt → SpBankSt) : (tl.modSpBank b f).verify = tl.verify := rfl
@[simp] theorem Tile.modSpBank_wp (tl : Tile) (b : Nat) (f : SpBankSt → SpBankSt) : (tl.modSpBank b f).wp = tl.wp := rfl
@[simp] theorem Tile.modSpBank_repair (tl : Tile) (b : Nat) (f : SpBankSt → SpBankSt) : (tl.modSpBank b f).repair = tl.repair := rfl

/-! ### Tile.modSeq -/

@[simp] theorem Tile.modSeq_hasImage (tl : Tile) (f : Seq → Seq) : (tl.modSeq f).hasImage = tl.hasImage := rfl
@[simp] theorem Tile.modSeq_q (tl : Tile) (f : Seq → Seq) : (tl.modSeq f).q = tl.q := rfl
@[simp] theorem Tile.modSeq_n (tl : Tile) (f : Seq → Seq) : (tl.modSeq f).n = tl.n := rfl
@[simp] theorem Tile.modSeq_ctr (tl : Tile) (f : Seq → Seq) : (tl.modSeq f).ctr = tl.ctr := rfl
@[simp] theorem Tile.modSeq_ibuf (tl : Tile) (f : Seq → Seq) : (tl.modSeq f).ibuf = tl.ibuf := rfl
@[simp] theorem Tile.modSeq_ibufPar (tl : Tile) (f : Seq → Seq) : (tl.modSeq f).ibufPar = tl.ibufPar := rfl
@[simp] theorem Tile.modSeq_qInit (tl : Tile) (f : Seq → Seq) : (tl.modSeq f).qInit = tl.qInit := rfl
@[simp] theorem Tile.modSeq_nInit (tl : Tile) (f : Seq → Seq) : (tl.modSeq f).nInit = tl.nInit := rfl
@[simp] theorem Tile.modSeq_macros (tl : Tile) (f : Seq → Seq) : (tl.modSeq f).macros = tl.macros := rfl
@[simp] theorem Tile.modSeq_map (tl : Tile) (f : Seq → Seq) : (tl.modSeq f).map = tl.map := rfl
@[simp] theorem Tile.modSeq_slots (tl : Tile) (f : Seq → Seq) : (tl.modSeq f).slots = tl.slots := rfl
@[simp] theorem Tile.modSeq_psets (tl : Tile) (f : Seq → Seq) : (tl.modSeq f).psets = tl.psets := rfl
@[simp] theorem Tile.modSeq_num (tl : Tile) (f : Seq → Seq) : (tl.modSeq f).num = tl.num := rfl
@[simp] theorem Tile.modSeq_check (tl : Tile) (f : Seq → Seq) : (tl.modSeq f).check = tl.check := rfl
@[simp] theorem Tile.modSeq_stat (tl : Tile) (f : Seq → Seq) : (tl.modSeq f).stat = tl.stat := rfl
@[simp] theorem Tile.modSeq_statUntil (tl : Tile) (f : Seq → Seq) : (tl.modSeq f).statUntil = tl.statUntil := rfl
@[simp] theorem Tile.modSeq_samples (tl : Tile) (f : Seq → Seq) : (tl.modSeq f).samples = tl.samples := rfl
@[simp] theorem Tile.modSeq_passes (tl : Tile) (f : Seq → Seq) : (tl.modSeq f).passes = tl.passes := rfl
@[simp] theorem Tile.modSeq_streams (tl : Tile) (f : Seq → Seq) : (tl.modSeq f).streams = tl.streams := rfl
@[simp] theorem Tile.modSeq_landings (tl : Tile) (f : Seq → Seq) : (tl.modSeq f).landings = tl.landings := rfl
@[simp] theorem Tile.modSeq_replay (tl : Tile) (f : Seq → Seq) : (tl.modSeq f).replay = tl.replay := rfl
@[simp] theorem Tile.modSeq_ops (tl : Tile) (f : Seq → Seq) : (tl.modSeq f).ops = tl.ops := rfl
@[simp] theorem Tile.modSeq_opSeq (tl : Tile) (f : Seq → Seq) : (tl.modSeq f).opSeq = tl.opSeq := rfl
@[simp] theorem Tile.modSeq_paths (tl : Tile) (f : Seq → Seq) : (tl.modSeq f).paths = tl.paths := rfl
@[simp] theorem Tile.modSeq_unitsUntil (tl : Tile) (f : Seq → Seq) : (tl.modSeq f).unitsUntil = tl.unitsUntil := rfl
@[simp] theorem Tile.modSeq_pageHold (tl : Tile) (f : Seq → Seq) : (tl.modSeq f).pageHold = tl.pageHold := rfl
@[simp] theorem Tile.modSeq_late (tl : Tile) (f : Seq → Seq) : (tl.modSeq f).late = tl.late := rfl
@[simp] theorem Tile.modSeq_sp (tl : Tile) (f : Seq → Seq) : (tl.modSeq f).sp = tl.sp := rfl
@[simp] theorem Tile.modSeq_spPar (tl : Tile) (f : Seq → Seq) : (tl.modSeq f).spPar = tl.spPar := rfl
@[simp] theorem Tile.modSeq_spBanks (tl : Tile) (f : Seq → Seq) : (tl.modSeq f).spBanks = tl.spBanks := rfl
@[simp] theorem Tile.modSeq_handles (tl : Tile) (f : Seq → Seq) : (tl.modSeq f).handles = tl.handles := rfl
@[simp] theorem Tile.modSeq_epochSeed (tl : Tile) (f : Seq → Seq) : (tl.modSeq f).epochSeed = tl.epochSeed := rfl
@[simp] theorem Tile.modSeq_windows (tl : Tile) (f : Seq → Seq) : (tl.modSeq f).windows = tl.windows := rfl
@[simp] theorem Tile.modSeq_writes (tl : Tile) (f : Seq → Seq) : (tl.modSeq f).writes = tl.writes := rfl
@[simp] theorem Tile.modSeq_held (tl : Tile) (f : Seq → Seq) : (tl.modSeq f).held = tl.held := rfl
@[simp] theorem Tile.modSeq_cur (tl : Tile) (f : Seq → Seq) : (tl.modSeq f).cur = tl.cur := rfl
@[simp] theorem Tile.modSeq_nxt (tl : Tile) (f : Seq → Seq) : (tl.modSeq f).nxt = tl.nxt := rfl
@[simp] theorem Tile.modSeq_nacks (tl : Tile) (f : Seq → Seq) : (tl.modSeq f).nacks = tl.nacks := rfl
@[simp] theorem Tile.modSeq_lastReason (tl : Tile) (f : Seq → Seq) : (tl.modSeq f).lastReason = tl.lastReason := rfl
@[simp] theorem Tile.modSeq_discards (tl : Tile) (f : Seq → Seq) : (tl.modSeq f).discards = tl.discards := rfl
@[simp] theorem Tile.modSeq_busyCount (tl : Tile) (f : Seq → Seq) : (tl.modSeq f).busyCount = tl.busyCount := rfl
@[simp] theorem Tile.modSeq_twin (tl : Tile) (f : Seq → Seq) : (tl.modSeq f).twin = tl.twin := rfl
@[simp] theorem Tile.modSeq_step (tl : Tile) (f : Seq → Seq) : (tl.modSeq f).step = tl.step := rfl
@[simp] theorem Tile.modSeq_bankSteps (tl : Tile) (f : Seq → Seq) : (tl.modSeq f).bankSteps = tl.bankSteps := rfl
@[simp] theorem Tile.modSeq_tw (tl : Tile) (f : Seq → Seq) : (tl.modSeq f).tw = tl.tw := rfl
@[simp] theorem Tile.modSeq_verify (tl : Tile) (f : Seq → Seq) : (tl.modSeq f).verify = tl.verify := rfl
@[simp] theorem Tile.modSeq_wp (tl : Tile) (f : Seq → Seq) : (tl.modSeq f).wp = tl.wp := rfl
@[simp] theorem Tile.modSeq_repair (tl : Tile) (f : Seq → Seq) : (tl.modSeq f).repair = tl.repair := rfl

/-! ### Tile.spWrite -/

@[simp] theorem Tile.spWrite_seq (tl : Tile) (a : Nat) (l : List Byte) : (tl.spWrite a l).seq = tl.seq := rfl
@[simp] theorem Tile.spWrite_hasImage (tl : Tile) (a : Nat) (l : List Byte) : (tl.spWrite a l).hasImage = tl.hasImage := rfl
@[simp] theorem Tile.spWrite_q (tl : Tile) (a : Nat) (l : List Byte) : (tl.spWrite a l).q = tl.q := rfl
@[simp] theorem Tile.spWrite_n (tl : Tile) (a : Nat) (l : List Byte) : (tl.spWrite a l).n = tl.n := rfl
@[simp] theorem Tile.spWrite_ctr (tl : Tile) (a : Nat) (l : List Byte) : (tl.spWrite a l).ctr = tl.ctr := rfl
@[simp] theorem Tile.spWrite_ibuf (tl : Tile) (a : Nat) (l : List Byte) : (tl.spWrite a l).ibuf = tl.ibuf := rfl
@[simp] theorem Tile.spWrite_ibufPar (tl : Tile) (a : Nat) (l : List Byte) : (tl.spWrite a l).ibufPar = tl.ibufPar := rfl
@[simp] theorem Tile.spWrite_qInit (tl : Tile) (a : Nat) (l : List Byte) : (tl.spWrite a l).qInit = tl.qInit := rfl
@[simp] theorem Tile.spWrite_nInit (tl : Tile) (a : Nat) (l : List Byte) : (tl.spWrite a l).nInit = tl.nInit := rfl
@[simp] theorem Tile.spWrite_macros (tl : Tile) (a : Nat) (l : List Byte) : (tl.spWrite a l).macros = tl.macros := rfl
@[simp] theorem Tile.spWrite_map (tl : Tile) (a : Nat) (l : List Byte) : (tl.spWrite a l).map = tl.map := rfl
@[simp] theorem Tile.spWrite_slots (tl : Tile) (a : Nat) (l : List Byte) : (tl.spWrite a l).slots = tl.slots := rfl
@[simp] theorem Tile.spWrite_psets (tl : Tile) (a : Nat) (l : List Byte) : (tl.spWrite a l).psets = tl.psets := rfl
@[simp] theorem Tile.spWrite_num (tl : Tile) (a : Nat) (l : List Byte) : (tl.spWrite a l).num = tl.num := rfl
@[simp] theorem Tile.spWrite_check (tl : Tile) (a : Nat) (l : List Byte) : (tl.spWrite a l).check = tl.check := rfl
@[simp] theorem Tile.spWrite_stat (tl : Tile) (a : Nat) (l : List Byte) : (tl.spWrite a l).stat = tl.stat := rfl
@[simp] theorem Tile.spWrite_statUntil (tl : Tile) (a : Nat) (l : List Byte) : (tl.spWrite a l).statUntil = tl.statUntil := rfl
@[simp] theorem Tile.spWrite_samples (tl : Tile) (a : Nat) (l : List Byte) : (tl.spWrite a l).samples = tl.samples := rfl
@[simp] theorem Tile.spWrite_passes (tl : Tile) (a : Nat) (l : List Byte) : (tl.spWrite a l).passes = tl.passes := rfl
@[simp] theorem Tile.spWrite_streams (tl : Tile) (a : Nat) (l : List Byte) : (tl.spWrite a l).streams = tl.streams := rfl
@[simp] theorem Tile.spWrite_landings (tl : Tile) (a : Nat) (l : List Byte) : (tl.spWrite a l).landings = tl.landings := rfl
@[simp] theorem Tile.spWrite_replay (tl : Tile) (a : Nat) (l : List Byte) : (tl.spWrite a l).replay = tl.replay := rfl
@[simp] theorem Tile.spWrite_ops (tl : Tile) (a : Nat) (l : List Byte) : (tl.spWrite a l).ops = tl.ops := rfl
@[simp] theorem Tile.spWrite_opSeq (tl : Tile) (a : Nat) (l : List Byte) : (tl.spWrite a l).opSeq = tl.opSeq := rfl
@[simp] theorem Tile.spWrite_paths (tl : Tile) (a : Nat) (l : List Byte) : (tl.spWrite a l).paths = tl.paths := rfl
@[simp] theorem Tile.spWrite_unitsUntil (tl : Tile) (a : Nat) (l : List Byte) : (tl.spWrite a l).unitsUntil = tl.unitsUntil := rfl
@[simp] theorem Tile.spWrite_pageHold (tl : Tile) (a : Nat) (l : List Byte) : (tl.spWrite a l).pageHold = tl.pageHold := rfl
@[simp] theorem Tile.spWrite_late (tl : Tile) (a : Nat) (l : List Byte) : (tl.spWrite a l).late = tl.late := rfl
@[simp] theorem Tile.spWrite_spBanks (tl : Tile) (a : Nat) (l : List Byte) : (tl.spWrite a l).spBanks = tl.spBanks := rfl
@[simp] theorem Tile.spWrite_handles (tl : Tile) (a : Nat) (l : List Byte) : (tl.spWrite a l).handles = tl.handles := rfl
@[simp] theorem Tile.spWrite_epochSeed (tl : Tile) (a : Nat) (l : List Byte) : (tl.spWrite a l).epochSeed = tl.epochSeed := rfl
@[simp] theorem Tile.spWrite_windows (tl : Tile) (a : Nat) (l : List Byte) : (tl.spWrite a l).windows = tl.windows := rfl
@[simp] theorem Tile.spWrite_writes (tl : Tile) (a : Nat) (l : List Byte) : (tl.spWrite a l).writes = tl.writes := rfl
@[simp] theorem Tile.spWrite_held (tl : Tile) (a : Nat) (l : List Byte) : (tl.spWrite a l).held = tl.held := rfl
@[simp] theorem Tile.spWrite_cur (tl : Tile) (a : Nat) (l : List Byte) : (tl.spWrite a l).cur = tl.cur := rfl
@[simp] theorem Tile.spWrite_nxt (tl : Tile) (a : Nat) (l : List Byte) : (tl.spWrite a l).nxt = tl.nxt := rfl
@[simp] theorem Tile.spWrite_nacks (tl : Tile) (a : Nat) (l : List Byte) : (tl.spWrite a l).nacks = tl.nacks := rfl
@[simp] theorem Tile.spWrite_lastReason (tl : Tile) (a : Nat) (l : List Byte) : (tl.spWrite a l).lastReason = tl.lastReason := rfl
@[simp] theorem Tile.spWrite_discards (tl : Tile) (a : Nat) (l : List Byte) : (tl.spWrite a l).discards = tl.discards := rfl
@[simp] theorem Tile.spWrite_busyCount (tl : Tile) (a : Nat) (l : List Byte) : (tl.spWrite a l).busyCount = tl.busyCount := rfl
@[simp] theorem Tile.spWrite_twin (tl : Tile) (a : Nat) (l : List Byte) : (tl.spWrite a l).twin = tl.twin := rfl
@[simp] theorem Tile.spWrite_step (tl : Tile) (a : Nat) (l : List Byte) : (tl.spWrite a l).step = tl.step := rfl
@[simp] theorem Tile.spWrite_bankSteps (tl : Tile) (a : Nat) (l : List Byte) : (tl.spWrite a l).bankSteps = tl.bankSteps := rfl
@[simp] theorem Tile.spWrite_tw (tl : Tile) (a : Nat) (l : List Byte) : (tl.spWrite a l).tw = tl.tw := rfl
@[simp] theorem Tile.spWrite_verify (tl : Tile) (a : Nat) (l : List Byte) : (tl.spWrite a l).verify = tl.verify := rfl
@[simp] theorem Tile.spWrite_wp (tl : Tile) (a : Nat) (l : List Byte) : (tl.spWrite a l).wp = tl.wp := rfl
@[simp] theorem Tile.spWrite_repair (tl : Tile) (a : Nat) (l : List Byte) : (tl.spWrite a l).repair = tl.repair := rfl

/-! ### What the readers see -/

@[simp] theorem State.modTile_tile_same (s : State) (t : TileId) (f : Tile → Tile) :
    (s.modTile t f).tile t = f (s.tile t) := by
  simp [State.modTile, State.tile, State.setTile]

theorem State.modTile_tile_other (s : State) {t x : TileId} (f : Tile → Tile) (h : x ≠ t) :
    (s.modTile t f).tile x = s.tile x := by
  have : x.val ≠ t.val := fun e => h (Fin.ext e)
  simp [State.modTile, State.tile, State.setTile, Store.get_set_other _ _ _ this]

@[simp] theorem State.modCluster_tile (s : State) (c : ClusterId) (f : Cluster → Cluster) (i : TileId) : (s.modCluster c f).tile i = s.tile i := rfl
@[simp] theorem State.modDie_tile (s : State) (d : DieId) (f : Die → Die) (i : TileId) : (s.modDie d f).tile i = s.tile i := rfl
@[simp] theorem State.modCtrl_tile (s : State) (k : CtrlId) (f : Ctrl → Ctrl) (i : TileId) : (s.modCtrl k f).tile i = s.tile i := rfl
@[simp] theorem State.modBand_tile (s : State) (b : BandId) (f : Band → Band) (i : TileId) : (s.modBand b f).tile i = s.tile i := rfl
@[simp] theorem State.setDom_tile (s : State) (n : Nat) (v : DomSt) (i : TileId) : (s.setDom n v).tile i = s.tile i := rfl
@[simp] theorem State.modEngine_tile (s : State) (e : EngineId) (f : Engine → Engine) (i : TileId) : (s.modEngine e f).tile i = s.tile i := rfl
@[simp] theorem State.modPort_tile (s : State) (p : PortId) (f : Port → Port) (i : TileId) : (s.modPort p f).tile i = s.tile i := rfl
@[simp] theorem State.modGroup_tile (s : State) (g : GroupId) (f : Group → Group) (i : TileId) : (s.modGroup g f).tile i = s.tile i := rfl
@[simp] theorem State.modPart_tile (s : State) (p : PartId) (f : Part → Part) (i : TileId) : (s.modPart p f).tile i = s.tile i := rfl
@[simp] theorem State.hbmWrite_tile (s : State) (a : Nat) (l : List Byte) (i : TileId) : (s.hbmWrite a l).tile i = s.tile i := rfl
@[simp] theorem State.emit_tile (s : State) (d : Dest) (m : Msg) (i : TileId) : (s.emit d m).tile i = s.tile i := rfl
@[simp] theorem State.drawn_tile (s : State) (i : TileId) : (s.drawn).tile i = s.tile i := rfl
@[simp] theorem State.idle_tile (s : State) (i : TileId) : (s.idle).tile i = s.tile i := rfl
@[simp] theorem State.reach_tile (s : State) (x : Stamp) (i : TileId) : (s.reach x).tile i = s.tile i := rfl

@[simp] theorem State.modCluster_cluster_same (s : State) (c : ClusterId) (f : Cluster → Cluster) :
    (s.modCluster c f).cluster c = f (s.cluster c) := by
  simp [State.modCluster, State.cluster]

theorem State.modCluster_cluster_other (s : State) {c x : ClusterId} (f : Cluster → Cluster) (h : x ≠ c) :
    (s.modCluster c f).cluster x = s.cluster x := by
  have : x.val ≠ c.val := fun e => h (Fin.ext e)
  simp [State.modCluster, State.cluster, Store.get_set_other _ _ _ this]

@[simp] theorem State.setTile_cluster (s : State) (t : TileId) (v : Tile) (i : ClusterId) : (s.setTile t v).cluster i = s.cluster i := rfl
@[simp] theorem State.modTile_cluster (s : State) (t : TileId) (f : Tile → Tile) (i : ClusterId) : (s.modTile t f).cluster i = s.cluster i := rfl
@[simp] theorem State.modDie_cluster (s : State) (d : DieId) (f : Die → Die) (i : ClusterId) : (s.modDie d f).cluster i = s.cluster i := rfl
@[simp] theorem State.modCtrl_cluster (s : State) (k : CtrlId) (f : Ctrl → Ctrl) (i : ClusterId) : (s.modCtrl k f).cluster i = s.cluster i := rfl
@[simp] theorem State.modBand_cluster (s : State) (b : BandId) (f : Band → Band) (i : ClusterId) : (s.modBand b f).cluster i = s.cluster i := rfl
@[simp] theorem State.setDom_cluster (s : State) (n : Nat) (v : DomSt) (i : ClusterId) : (s.setDom n v).cluster i = s.cluster i := rfl
@[simp] theorem State.modEngine_cluster (s : State) (e : EngineId) (f : Engine → Engine) (i : ClusterId) : (s.modEngine e f).cluster i = s.cluster i := rfl
@[simp] theorem State.modPort_cluster (s : State) (p : PortId) (f : Port → Port) (i : ClusterId) : (s.modPort p f).cluster i = s.cluster i := rfl
@[simp] theorem State.modGroup_cluster (s : State) (g : GroupId) (f : Group → Group) (i : ClusterId) : (s.modGroup g f).cluster i = s.cluster i := rfl
@[simp] theorem State.modPart_cluster (s : State) (p : PartId) (f : Part → Part) (i : ClusterId) : (s.modPart p f).cluster i = s.cluster i := rfl
@[simp] theorem State.hbmWrite_cluster (s : State) (a : Nat) (l : List Byte) (i : ClusterId) : (s.hbmWrite a l).cluster i = s.cluster i := rfl
@[simp] theorem State.emit_cluster (s : State) (d : Dest) (m : Msg) (i : ClusterId) : (s.emit d m).cluster i = s.cluster i := rfl
@[simp] theorem State.drawn_cluster (s : State) (i : ClusterId) : (s.drawn).cluster i = s.cluster i := rfl
@[simp] theorem State.idle_cluster (s : State) (i : ClusterId) : (s.idle).cluster i = s.cluster i := rfl
@[simp] theorem State.reach_cluster (s : State) (x : Stamp) (i : ClusterId) : (s.reach x).cluster i = s.cluster i := rfl

@[simp] theorem State.modDie_die_same (s : State) (d : DieId) (f : Die → Die) :
    (s.modDie d f).die d = f (s.die d) := by
  simp [State.modDie, State.die]

theorem State.modDie_die_other (s : State) {d x : DieId} (f : Die → Die) (h : x ≠ d) :
    (s.modDie d f).die x = s.die x := by
  have : x.val ≠ d.val := fun e => h (Fin.ext e)
  simp [State.modDie, State.die, Store.get_set_other _ _ _ this]

@[simp] theorem State.setTile_die (s : State) (t : TileId) (v : Tile) (i : DieId) : (s.setTile t v).die i = s.die i := rfl
@[simp] theorem State.modTile_die (s : State) (t : TileId) (f : Tile → Tile) (i : DieId) : (s.modTile t f).die i = s.die i := rfl
@[simp] theorem State.modCluster_die (s : State) (c : ClusterId) (f : Cluster → Cluster) (i : DieId) : (s.modCluster c f).die i = s.die i := rfl
@[simp] theorem State.modCtrl_die (s : State) (k : CtrlId) (f : Ctrl → Ctrl) (i : DieId) : (s.modCtrl k f).die i = s.die i := rfl
@[simp] theorem State.modBand_die (s : State) (b : BandId) (f : Band → Band) (i : DieId) : (s.modBand b f).die i = s.die i := rfl
@[simp] theorem State.setDom_die (s : State) (n : Nat) (v : DomSt) (i : DieId) : (s.setDom n v).die i = s.die i := rfl
@[simp] theorem State.modEngine_die (s : State) (e : EngineId) (f : Engine → Engine) (i : DieId) : (s.modEngine e f).die i = s.die i := rfl
@[simp] theorem State.modPort_die (s : State) (p : PortId) (f : Port → Port) (i : DieId) : (s.modPort p f).die i = s.die i := rfl
@[simp] theorem State.modGroup_die (s : State) (g : GroupId) (f : Group → Group) (i : DieId) : (s.modGroup g f).die i = s.die i := rfl
@[simp] theorem State.modPart_die (s : State) (p : PartId) (f : Part → Part) (i : DieId) : (s.modPart p f).die i = s.die i := rfl
@[simp] theorem State.hbmWrite_die (s : State) (a : Nat) (l : List Byte) (i : DieId) : (s.hbmWrite a l).die i = s.die i := rfl
@[simp] theorem State.emit_die (s : State) (d : Dest) (m : Msg) (i : DieId) : (s.emit d m).die i = s.die i := rfl
@[simp] theorem State.drawn_die (s : State) (i : DieId) : (s.drawn).die i = s.die i := rfl
@[simp] theorem State.idle_die (s : State) (i : DieId) : (s.idle).die i = s.die i := rfl
@[simp] theorem State.reach_die (s : State) (x : Stamp) (i : DieId) : (s.reach x).die i = s.die i := rfl

@[simp] theorem State.modCtrl_ctrl_same (s : State) (k : CtrlId) (f : Ctrl → Ctrl) :
    (s.modCtrl k f).ctrl k = f (s.ctrl k) := by
  simp [State.modCtrl, State.ctrl]

theorem State.modCtrl_ctrl_other (s : State) {k x : CtrlId} (f : Ctrl → Ctrl) (h : x ≠ k) :
    (s.modCtrl k f).ctrl x = s.ctrl x := by
  have : x.val ≠ k.val := fun e => h (Fin.ext e)
  simp [State.modCtrl, State.ctrl, Store.get_set_other _ _ _ this]

@[simp] theorem State.setTile_ctrl (s : State) (t : TileId) (v : Tile) (i : CtrlId) : (s.setTile t v).ctrl i = s.ctrl i := rfl
@[simp] theorem State.modTile_ctrl (s : State) (t : TileId) (f : Tile → Tile) (i : CtrlId) : (s.modTile t f).ctrl i = s.ctrl i := rfl
@[simp] theorem State.modCluster_ctrl (s : State) (c : ClusterId) (f : Cluster → Cluster) (i : CtrlId) : (s.modCluster c f).ctrl i = s.ctrl i := rfl
@[simp] theorem State.modDie_ctrl (s : State) (d : DieId) (f : Die → Die) (i : CtrlId) : (s.modDie d f).ctrl i = s.ctrl i := rfl
@[simp] theorem State.modBand_ctrl (s : State) (b : BandId) (f : Band → Band) (i : CtrlId) : (s.modBand b f).ctrl i = s.ctrl i := rfl
@[simp] theorem State.setDom_ctrl (s : State) (n : Nat) (v : DomSt) (i : CtrlId) : (s.setDom n v).ctrl i = s.ctrl i := rfl
@[simp] theorem State.modEngine_ctrl (s : State) (e : EngineId) (f : Engine → Engine) (i : CtrlId) : (s.modEngine e f).ctrl i = s.ctrl i := rfl
@[simp] theorem State.modPort_ctrl (s : State) (p : PortId) (f : Port → Port) (i : CtrlId) : (s.modPort p f).ctrl i = s.ctrl i := rfl
@[simp] theorem State.modGroup_ctrl (s : State) (g : GroupId) (f : Group → Group) (i : CtrlId) : (s.modGroup g f).ctrl i = s.ctrl i := rfl
@[simp] theorem State.modPart_ctrl (s : State) (p : PartId) (f : Part → Part) (i : CtrlId) : (s.modPart p f).ctrl i = s.ctrl i := rfl
@[simp] theorem State.hbmWrite_ctrl (s : State) (a : Nat) (l : List Byte) (i : CtrlId) : (s.hbmWrite a l).ctrl i = s.ctrl i := rfl
@[simp] theorem State.emit_ctrl (s : State) (d : Dest) (m : Msg) (i : CtrlId) : (s.emit d m).ctrl i = s.ctrl i := rfl
@[simp] theorem State.drawn_ctrl (s : State) (i : CtrlId) : (s.drawn).ctrl i = s.ctrl i := rfl
@[simp] theorem State.idle_ctrl (s : State) (i : CtrlId) : (s.idle).ctrl i = s.ctrl i := rfl
@[simp] theorem State.reach_ctrl (s : State) (x : Stamp) (i : CtrlId) : (s.reach x).ctrl i = s.ctrl i := rfl

@[simp] theorem State.modBand_band_same (s : State) (b : BandId) (f : Band → Band) :
    (s.modBand b f).band b = f (s.band b) := by
  simp [State.modBand, State.band]

theorem State.modBand_band_other (s : State) {b x : BandId} (f : Band → Band) (h : x ≠ b) :
    (s.modBand b f).band x = s.band x := by
  have : x.val ≠ b.val := fun e => h (Fin.ext e)
  simp [State.modBand, State.band, Store.get_set_other _ _ _ this]

@[simp] theorem State.setTile_band (s : State) (t : TileId) (v : Tile) (i : BandId) : (s.setTile t v).band i = s.band i := rfl
@[simp] theorem State.modTile_band (s : State) (t : TileId) (f : Tile → Tile) (i : BandId) : (s.modTile t f).band i = s.band i := rfl
@[simp] theorem State.modCluster_band (s : State) (c : ClusterId) (f : Cluster → Cluster) (i : BandId) : (s.modCluster c f).band i = s.band i := rfl
@[simp] theorem State.modDie_band (s : State) (d : DieId) (f : Die → Die) (i : BandId) : (s.modDie d f).band i = s.band i := rfl
@[simp] theorem State.modCtrl_band (s : State) (k : CtrlId) (f : Ctrl → Ctrl) (i : BandId) : (s.modCtrl k f).band i = s.band i := rfl
@[simp] theorem State.setDom_band (s : State) (n : Nat) (v : DomSt) (i : BandId) : (s.setDom n v).band i = s.band i := rfl
@[simp] theorem State.modEngine_band (s : State) (e : EngineId) (f : Engine → Engine) (i : BandId) : (s.modEngine e f).band i = s.band i := rfl
@[simp] theorem State.modPort_band (s : State) (p : PortId) (f : Port → Port) (i : BandId) : (s.modPort p f).band i = s.band i := rfl
@[simp] theorem State.modGroup_band (s : State) (g : GroupId) (f : Group → Group) (i : BandId) : (s.modGroup g f).band i = s.band i := rfl
@[simp] theorem State.modPart_band (s : State) (p : PartId) (f : Part → Part) (i : BandId) : (s.modPart p f).band i = s.band i := rfl
@[simp] theorem State.hbmWrite_band (s : State) (a : Nat) (l : List Byte) (i : BandId) : (s.hbmWrite a l).band i = s.band i := rfl
@[simp] theorem State.emit_band (s : State) (d : Dest) (m : Msg) (i : BandId) : (s.emit d m).band i = s.band i := rfl
@[simp] theorem State.drawn_band (s : State) (i : BandId) : (s.drawn).band i = s.band i := rfl
@[simp] theorem State.idle_band (s : State) (i : BandId) : (s.idle).band i = s.band i := rfl
@[simp] theorem State.reach_band (s : State) (x : Stamp) (i : BandId) : (s.reach x).band i = s.band i := rfl

@[simp] theorem State.modEngine_engine_same (s : State) (e : EngineId) (f : Engine → Engine) :
    (s.modEngine e f).engine e = f (s.engine e) := by
  simp [State.modEngine, State.engine]

theorem State.modEngine_engine_other (s : State) {e x : EngineId} (f : Engine → Engine) (h : x ≠ e) :
    (s.modEngine e f).engine x = s.engine x := by
  have : x.val ≠ e.val := fun e => h (Fin.ext e)
  simp [State.modEngine, State.engine, Store.get_set_other _ _ _ this]

@[simp] theorem State.setTile_engine (s : State) (t : TileId) (v : Tile) (i : EngineId) : (s.setTile t v).engine i = s.engine i := rfl
@[simp] theorem State.modTile_engine (s : State) (t : TileId) (f : Tile → Tile) (i : EngineId) : (s.modTile t f).engine i = s.engine i := rfl
@[simp] theorem State.modCluster_engine (s : State) (c : ClusterId) (f : Cluster → Cluster) (i : EngineId) : (s.modCluster c f).engine i = s.engine i := rfl
@[simp] theorem State.modDie_engine (s : State) (d : DieId) (f : Die → Die) (i : EngineId) : (s.modDie d f).engine i = s.engine i := rfl
@[simp] theorem State.modCtrl_engine (s : State) (k : CtrlId) (f : Ctrl → Ctrl) (i : EngineId) : (s.modCtrl k f).engine i = s.engine i := rfl
@[simp] theorem State.modBand_engine (s : State) (b : BandId) (f : Band → Band) (i : EngineId) : (s.modBand b f).engine i = s.engine i := rfl
@[simp] theorem State.setDom_engine (s : State) (n : Nat) (v : DomSt) (i : EngineId) : (s.setDom n v).engine i = s.engine i := rfl
@[simp] theorem State.modPort_engine (s : State) (p : PortId) (f : Port → Port) (i : EngineId) : (s.modPort p f).engine i = s.engine i := rfl
@[simp] theorem State.modGroup_engine (s : State) (g : GroupId) (f : Group → Group) (i : EngineId) : (s.modGroup g f).engine i = s.engine i := rfl
@[simp] theorem State.modPart_engine (s : State) (p : PartId) (f : Part → Part) (i : EngineId) : (s.modPart p f).engine i = s.engine i := rfl
@[simp] theorem State.hbmWrite_engine (s : State) (a : Nat) (l : List Byte) (i : EngineId) : (s.hbmWrite a l).engine i = s.engine i := rfl
@[simp] theorem State.emit_engine (s : State) (d : Dest) (m : Msg) (i : EngineId) : (s.emit d m).engine i = s.engine i := rfl
@[simp] theorem State.drawn_engine (s : State) (i : EngineId) : (s.drawn).engine i = s.engine i := rfl
@[simp] theorem State.idle_engine (s : State) (i : EngineId) : (s.idle).engine i = s.engine i := rfl
@[simp] theorem State.reach_engine (s : State) (x : Stamp) (i : EngineId) : (s.reach x).engine i = s.engine i := rfl

@[simp] theorem State.modPort_port_same (s : State) (p : PortId) (f : Port → Port) :
    (s.modPort p f).port p = f (s.port p) := by
  simp [State.modPort, State.port]

theorem State.modPort_port_other (s : State) {p x : PortId} (f : Port → Port) (h : x ≠ p) :
    (s.modPort p f).port x = s.port x := by
  have : x.val ≠ p.val := fun e => h (Fin.ext e)
  simp [State.modPort, State.port, Store.get_set_other _ _ _ this]

@[simp] theorem State.setTile_port (s : State) (t : TileId) (v : Tile) (i : PortId) : (s.setTile t v).port i = s.port i := rfl
@[simp] theorem State.modTile_port (s : State) (t : TileId) (f : Tile → Tile) (i : PortId) : (s.modTile t f).port i = s.port i := rfl
@[simp] theorem State.modCluster_port (s : State) (c : ClusterId) (f : Cluster → Cluster) (i : PortId) : (s.modCluster c f).port i = s.port i := rfl
@[simp] theorem State.modDie_port (s : State) (d : DieId) (f : Die → Die) (i : PortId) : (s.modDie d f).port i = s.port i := rfl
@[simp] theorem State.modCtrl_port (s : State) (k : CtrlId) (f : Ctrl → Ctrl) (i : PortId) : (s.modCtrl k f).port i = s.port i := rfl
@[simp] theorem State.modBand_port (s : State) (b : BandId) (f : Band → Band) (i : PortId) : (s.modBand b f).port i = s.port i := rfl
@[simp] theorem State.setDom_port (s : State) (n : Nat) (v : DomSt) (i : PortId) : (s.setDom n v).port i = s.port i := rfl
@[simp] theorem State.modEngine_port (s : State) (e : EngineId) (f : Engine → Engine) (i : PortId) : (s.modEngine e f).port i = s.port i := rfl
@[simp] theorem State.modGroup_port (s : State) (g : GroupId) (f : Group → Group) (i : PortId) : (s.modGroup g f).port i = s.port i := rfl
@[simp] theorem State.modPart_port (s : State) (p : PartId) (f : Part → Part) (i : PortId) : (s.modPart p f).port i = s.port i := rfl
@[simp] theorem State.hbmWrite_port (s : State) (a : Nat) (l : List Byte) (i : PortId) : (s.hbmWrite a l).port i = s.port i := rfl
@[simp] theorem State.emit_port (s : State) (d : Dest) (m : Msg) (i : PortId) : (s.emit d m).port i = s.port i := rfl
@[simp] theorem State.drawn_port (s : State) (i : PortId) : (s.drawn).port i = s.port i := rfl
@[simp] theorem State.idle_port (s : State) (i : PortId) : (s.idle).port i = s.port i := rfl
@[simp] theorem State.reach_port (s : State) (x : Stamp) (i : PortId) : (s.reach x).port i = s.port i := rfl

@[simp] theorem State.modGroup_group_same (s : State) (g : GroupId) (f : Group → Group) :
    (s.modGroup g f).group g = f (s.group g) := by
  simp [State.modGroup, State.group]

theorem State.modGroup_group_other (s : State) {g x : GroupId} (f : Group → Group) (h : x ≠ g) :
    (s.modGroup g f).group x = s.group x := by
  have : x.val ≠ g.val := fun e => h (Fin.ext e)
  simp [State.modGroup, State.group, Store.get_set_other _ _ _ this]

@[simp] theorem State.setTile_group (s : State) (t : TileId) (v : Tile) (i : GroupId) : (s.setTile t v).group i = s.group i := rfl
@[simp] theorem State.modTile_group (s : State) (t : TileId) (f : Tile → Tile) (i : GroupId) : (s.modTile t f).group i = s.group i := rfl
@[simp] theorem State.modCluster_group (s : State) (c : ClusterId) (f : Cluster → Cluster) (i : GroupId) : (s.modCluster c f).group i = s.group i := rfl
@[simp] theorem State.modDie_group (s : State) (d : DieId) (f : Die → Die) (i : GroupId) : (s.modDie d f).group i = s.group i := rfl
@[simp] theorem State.modCtrl_group (s : State) (k : CtrlId) (f : Ctrl → Ctrl) (i : GroupId) : (s.modCtrl k f).group i = s.group i := rfl
@[simp] theorem State.modBand_group (s : State) (b : BandId) (f : Band → Band) (i : GroupId) : (s.modBand b f).group i = s.group i := rfl
@[simp] theorem State.setDom_group (s : State) (n : Nat) (v : DomSt) (i : GroupId) : (s.setDom n v).group i = s.group i := rfl
@[simp] theorem State.modEngine_group (s : State) (e : EngineId) (f : Engine → Engine) (i : GroupId) : (s.modEngine e f).group i = s.group i := rfl
@[simp] theorem State.modPort_group (s : State) (p : PortId) (f : Port → Port) (i : GroupId) : (s.modPort p f).group i = s.group i := rfl
@[simp] theorem State.modPart_group (s : State) (p : PartId) (f : Part → Part) (i : GroupId) : (s.modPart p f).group i = s.group i := rfl
@[simp] theorem State.hbmWrite_group (s : State) (a : Nat) (l : List Byte) (i : GroupId) : (s.hbmWrite a l).group i = s.group i := rfl
@[simp] theorem State.emit_group (s : State) (d : Dest) (m : Msg) (i : GroupId) : (s.emit d m).group i = s.group i := rfl
@[simp] theorem State.drawn_group (s : State) (i : GroupId) : (s.drawn).group i = s.group i := rfl
@[simp] theorem State.idle_group (s : State) (i : GroupId) : (s.idle).group i = s.group i := rfl
@[simp] theorem State.reach_group (s : State) (x : Stamp) (i : GroupId) : (s.reach x).group i = s.group i := rfl

@[simp] theorem State.modPart_part_same (s : State) (p : PartId) (f : Part → Part) :
    (s.modPart p f).part p = f (s.part p) := by
  simp [State.modPart, State.part]

theorem State.modPart_part_other (s : State) {p x : PartId} (f : Part → Part) (h : x ≠ p) :
    (s.modPart p f).part x = s.part x := by
  have : x.val ≠ p.val := fun e => h (Fin.ext e)
  simp [State.modPart, State.part, Store.get_set_other _ _ _ this]

@[simp] theorem State.setTile_part (s : State) (t : TileId) (v : Tile) (i : PartId) : (s.setTile t v).part i = s.part i := rfl
@[simp] theorem State.modTile_part (s : State) (t : TileId) (f : Tile → Tile) (i : PartId) : (s.modTile t f).part i = s.part i := rfl
@[simp] theorem State.modCluster_part (s : State) (c : ClusterId) (f : Cluster → Cluster) (i : PartId) : (s.modCluster c f).part i = s.part i := rfl
@[simp] theorem State.modDie_part (s : State) (d : DieId) (f : Die → Die) (i : PartId) : (s.modDie d f).part i = s.part i := rfl
@[simp] theorem State.modCtrl_part (s : State) (k : CtrlId) (f : Ctrl → Ctrl) (i : PartId) : (s.modCtrl k f).part i = s.part i := rfl
@[simp] theorem State.modBand_part (s : State) (b : BandId) (f : Band → Band) (i : PartId) : (s.modBand b f).part i = s.part i := rfl
@[simp] theorem State.setDom_part (s : State) (n : Nat) (v : DomSt) (i : PartId) : (s.setDom n v).part i = s.part i := rfl
@[simp] theorem State.modEngine_part (s : State) (e : EngineId) (f : Engine → Engine) (i : PartId) : (s.modEngine e f).part i = s.part i := rfl
@[simp] theorem State.modPort_part (s : State) (p : PortId) (f : Port → Port) (i : PartId) : (s.modPort p f).part i = s.part i := rfl
@[simp] theorem State.modGroup_part (s : State) (g : GroupId) (f : Group → Group) (i : PartId) : (s.modGroup g f).part i = s.part i := rfl
@[simp] theorem State.hbmWrite_part (s : State) (a : Nat) (l : List Byte) (i : PartId) : (s.hbmWrite a l).part i = s.part i := rfl
@[simp] theorem State.emit_part (s : State) (d : Dest) (m : Msg) (i : PartId) : (s.emit d m).part i = s.part i := rfl
@[simp] theorem State.drawn_part (s : State) (i : PartId) : (s.drawn).part i = s.part i := rfl
@[simp] theorem State.idle_part (s : State) (i : PartId) : (s.idle).part i = s.part i := rfl
@[simp] theorem State.reach_part (s : State) (x : Stamp) (i : PartId) : (s.reach x).part i = s.part i := rfl

end Sys2Proof.Machine
end

