-- ==== Sys2Proof/Laws/Ops.lean ====
section
/-! SUPPORT. Laws of the shared operations: changes of one unit fuse, changes of different units commute, and what a
reader of the dictionary, the layout or the power state sees after a change elsewhere. -/

namespace Sys2Proof.Machine

/-! ### Fusing and commuting -/

@[simp] theorem State.modTile_modTile (s : State) (t : TileId) (f g : Tile → Tile) :
    (s.modTile t f).modTile t g = s.modTile t fun tl => g (f tl) := by
  simp [State.modTile, State.setTile, State.tile]

@[simp] theorem State.modPart_modPart (s : State) (p : PartId) (f g : Part → Part) :
    (s.modPart p f).modPart p g = s.modPart p fun pt => g (f pt) := by
  simp [State.modPart, State.part]

@[simp] theorem State.modCluster_modCluster (s : State) (c : ClusterId) (f g : Cluster → Cluster) :
    (s.modCluster c f).modCluster c g = s.modCluster c fun x => g (f x) := by
  simp [State.modCluster, State.cluster]

@[simp] theorem State.count_zero (s : State) (c : ClusterId) (w : Nat) : s.count c w 0 = s := rfl

/-- The count of a cluster's word commutes with a change of a tile. -/
theorem State.count_modTile (s : State) (c : ClusterId) (w n : Nat) (t : TileId) (f : Tile → Tile) :
    (s.count c w n).modTile t f = (s.modTile t f).count c w n := by
  unfold State.count
  split <;> rfl

@[simp] theorem State.count_tile (s : State) (c : ClusterId) (w n : Nat) (t : TileId) :
    (s.count c w n).tile t = s.tile t := by
  unfold State.count
  split <;> rfl

@[simp] theorem State.count_parts (s : State) (c : ClusterId) (w n : Nat) : (s.count c w n).parts = s.parts := by
  unfold State.count
  split <;> rfl

@[simp] theorem State.count_part (s : State) (c : ClusterId) (w n : Nat) (p : PartId) :
    (s.count c w n).part p = s.part p := by
  unfold State.count
  split <;> rfl

@[simp] theorem State.count_now (s : State) (c : ClusterId) (w n : Nat) : (s.count c w n).now = s.now := by
  unfold State.count
  split <;> rfl

@[simp] theorem State.count_dict (s : State) (c : ClusterId) (w n : Nat) : (s.count c w n).dict = s.dict := by
  unfold State.count
  split <;> rfl

@[simp] theorem State.count_hbm (s : State) (c : ClusterId) (w n : Nat) : (s.count c w n).hbm = s.hbm := by
  unfold State.count
  split <;> rfl

@[simp] theorem State.count_tiles (s : State) (c : ClusterId) (w n : Nat) : (s.count c w n).tiles = s.tiles := by
  unfold State.count
  split <;> rfl

/-- What a count does: the cluster's word rises by `n` modulo 2^64. -/
theorem State.count_counters (s : State) (c : ClusterId) (w n : Nat) :
    Store.get 0 ((s.count c w n).cluster c).counters w = Store.get 0 (s.cluster c).counters w + BitVec.ofNat 64 n := by
  unfold State.count
  split
  · subst_vars; simp
  · simp

/-! ### Readers of the dictionary and the layout -/

@[simp] theorem State.modTile_tileOwner? (s : State) (t x : TileId) (f : Tile → Tile) :
    (s.modTile t f).tileOwner? x = s.tileOwner? x := rfl

@[simp] theorem State.modPart_tileOwner? (s : State) (p : PartId) (x : TileId) (f : Part → Part) :
    (s.modPart p f).tileOwner? x = s.tileOwner? x := rfl

@[simp] theorem State.count_tileOwner? (s : State) (c : ClusterId) (w n : Nat) (x : TileId) :
    (s.count c w n).tileOwner? x = s.tileOwner? x := by
  unfold State.count
  split <;> rfl

@[simp] theorem State.modTile_tileUp (s : State) (t x : TileId) (f : Tile → Tile) :
    (s.modTile t f).tileUp x = s.tileUp x := rfl

@[simp] theorem State.modTile_pointTable (s : State) (t : TileId) (f : Tile → Tile) (p : PartId) :
    (s.modTile t f).pointTable p = s.pointTable p := rfl

@[simp] theorem State.modTile_dieCycle (s : State) (t : TileId) (f : Tile → Tile) :
    (s.modTile t f).dieCycle t = 16 * (t.val / 16 % 16) + (f (s.tile t)).seq.cycle := by
  simp [State.dieCycle]

/-! ### Micro-ops -/

theorem State.issue_accepted (s : State) (t : TileId) (w : BitVec 128) (eff : State → State)
    (h : s.verdict t w = .accepted) : s.issue t w eff = eff (s.due t) := by
  simp [State.issue, h]

theorem State.issue_absent (s : State) (t : TileId) (w : BitVec 128) (eff : State → State)
    (h : s.verdict t w = .absent) : s.issue t w eff = s := by
  simp [State.issue, h]

/-- A micro-op that begins with no page being written: the tile stands at its cycle with the new tags, and the cluster
counts the issue. -/
theorem State.begin_free (s : State) (t : TileId) (id : Ids) (h : (s.tile t).pageHold = none) :
    s.begin_ t id = (s.modTile t fun tl => tl.settle.modSeq fun q =>
      { q with layer := id.layer, opid := id.opid, ahead := 0 }).count (clusterOf t) 14 1 := by
  simp [State.begin_, h]

/-! ### The tile at its cycle -/

/-- What every step of a fold keeps, the fold keeps. -/
theorem foldl_keeps {α β : Type} {P : β → Prop} {f : β → α → β} (l : List α) {x : β} (h : P x)
    (hf : ∀ y a, P y → P (f y a)) : P (l.foldl f x) := by
  induction l generalizing x with
  | nil => exact h
  | cons a l ih => exact ih (hf x a h)

theorem Tile.settleSlots_shape (tl : Tile) : tl.settleSlots = { tl with slots := tl.settleSlots.slots } := by
  unfold Tile.settleSlots
  generalize List.range 8 = l
  refine foldl_keeps (P := fun x : Tile => x = { tl with slots := x.slots }) l rfl fun x a h => ?_
  dsimp only
  split
  · split
    · rw [h]; rfl
    · rw [h]; rfl
  · exact h

theorem Tile.settle_shape (tl : Tile) : tl.settle = { tl with macros := tl.settle.macros, slots := tl.settle.slots } := by
  have h := Tile.settleSlots_shape tl.settleFills
  unfold Tile.settle
  generalize tl.settleFills.settleSlots = x at h ⊢
  rw [h]
  rfl

@[simp] theorem Tile.settle_seq (tl : Tile) : tl.settle.seq = tl.seq := by rw [Tile.settle_shape]
@[simp] theorem Tile.settle_hasImage (tl : Tile) : tl.settle.hasImage = tl.hasImage := by rw [Tile.settle_shape]
@[simp] theorem Tile.settle_q (tl : Tile) : tl.settle.q = tl.q := by rw [Tile.settle_shape]
@[simp] theorem Tile.settle_n (tl : Tile) : tl.settle.n = tl.n := by rw [Tile.settle_shape]
@[simp] theorem Tile.settle_ctr (tl : Tile) : tl.settle.ctr = tl.ctr := by rw [Tile.settle_shape]
@[simp] theorem Tile.settle_ibuf (tl : Tile) : tl.settle.ibuf = tl.ibuf := by rw [Tile.settle_shape]
@[simp] theorem Tile.settle_ibufPar (tl : Tile) : tl.settle.ibufPar = tl.ibufPar := by rw [Tile.settle_shape]
@[simp] theorem Tile.settle_qInit (tl : Tile) : tl.settle.qInit = tl.qInit := by rw [Tile.settle_shape]
@[simp] theorem Tile.settle_nInit (tl : Tile) : tl.settle.nInit = tl.nInit := by rw [Tile.settle_shape]
@[simp] theorem Tile.settle_map (tl : Tile) : tl.settle.map = tl.map := by rw [Tile.settle_shape]
@[simp] theorem Tile.settle_psets (tl : Tile) : tl.settle.psets = tl.psets := by rw [Tile.settle_shape]
@[simp] theorem Tile.settle_num (tl : Tile) : tl.settle.num = tl.num := by rw [Tile.settle_shape]
@[simp] theorem Tile.settle_check (tl : Tile) : tl.settle.check = tl.check := by rw [Tile.settle_shape]
@[simp] theorem Tile.settle_stat (tl : Tile) : tl.settle.stat = tl.stat := by rw [Tile.settle_shape]
@[simp] theorem Tile.settle_statUntil (tl : Tile) : tl.settle.statUntil = tl.statUntil := by rw [Tile.settle_shape]
@[simp] theorem Tile.settle_samples (tl : Tile) : tl.settle.samples = tl.samples := by rw [Tile.settle_shape]
@[simp] theorem Tile.settle_passes (tl : Tile) : tl.settle.passes = tl.passes := by rw [Tile.settle_shape]
@[simp] theorem Tile.settle_streams (tl : Tile) : tl.settle.streams = tl.streams := by rw [Tile.settle_shape]
@[simp] theorem Tile.settle_landings (tl : Tile) : tl.settle.landings = tl.landings := by rw [Tile.settle_shape]
@[simp] theorem Tile.settle_replay (tl : Tile) : tl.settle.replay = tl.replay := by rw [Tile.settle_shape]
@[simp] theorem Tile.settle_ops (tl : Tile) : tl.settle.ops = tl.ops := by rw [Tile.settle_shape]
@[simp] theorem Tile.settle_opSeq (tl : Tile) : tl.settle.opSeq = tl.opSeq := by rw [Tile.settle_shape]
@[simp] theorem Tile.settle_paths (tl : Tile) : tl.settle.paths = tl.paths := by rw [Tile.settle_shape]
@[simp] theorem Tile.settle_unitsUntil (tl : Tile) : tl.settle.unitsUntil = tl.unitsUntil := by rw [Tile.settle_shape]
@[simp] theorem Tile.settle_pageHold (tl : Tile) : tl.settle.pageHold = tl.pageHold := by rw [Tile.settle_shape]
@[simp] theorem Tile.settle_late (tl : Tile) : tl.settle.late = tl.late := by rw [Tile.settle_shape]
@[simp] theorem Tile.settle_sp (tl : Tile) : tl.settle.sp = tl.sp := by rw [Tile.settle_shape]
@[simp] theorem Tile.settle_spPar (tl : Tile) : tl.settle.spPar = tl.spPar := by rw [Tile.settle_shape]
@[simp] theorem Tile.settle_spBanks (tl : Tile) : tl.settle.spBanks = tl.spBanks := by rw [Tile.settle_shape]
@[simp] theorem Tile.settle_handles (tl : Tile) : tl.settle.handles = tl.handles := by rw [Tile.settle_shape]
@[simp] theorem Tile.settle_epochSeed (tl : Tile) : tl.settle.epochSeed = tl.epochSeed := by rw [Tile.settle_shape]
@[simp] theorem Tile.settle_windows (tl : Tile) : tl.settle.windows = tl.windows := by rw [Tile.settle_shape]
@[simp] theorem Tile.settle_writes (tl : Tile) : tl.settle.writes = tl.writes := by rw [Tile.settle_shape]
@[simp] theorem Tile.settle_held (tl : Tile) : tl.settle.held = tl.held := by rw [Tile.settle_shape]
@[simp] theorem Tile.settle_cur (tl : Tile) : tl.settle.cur = tl.cur := by rw [Tile.settle_shape]
@[simp] theorem Tile.settle_nxt (tl : Tile) : tl.settle.nxt = tl.nxt := by rw [Tile.settle_shape]
@[simp] theorem Tile.settle_nacks (tl : Tile) : tl.settle.nacks = tl.nacks := by rw [Tile.settle_shape]
@[simp] theorem Tile.settle_lastReason (tl : Tile) : tl.settle.lastReason = tl.lastReason := by rw [Tile.settle_shape]
@[simp] theorem Tile.settle_discards (tl : Tile) : tl.settle.discards = tl.discards := by rw [Tile.settle_shape]
@[simp] theorem Tile.settle_busyCount (tl : Tile) : tl.settle.busyCount = tl.busyCount := by rw [Tile.settle_shape]
@[simp] theorem Tile.settle_twin (tl : Tile) : tl.settle.twin = tl.twin := by rw [Tile.settle_shape]
@[simp] theorem Tile.settle_step (tl : Tile) : tl.settle.step = tl.step := by rw [Tile.settle_shape]
@[simp] theorem Tile.settle_bankSteps (tl : Tile) : tl.settle.bankSteps = tl.bankSteps := by rw [Tile.settle_shape]
@[simp] theorem Tile.settle_tw (tl : Tile) : tl.settle.tw = tl.tw := by rw [Tile.settle_shape]
@[simp] theorem Tile.settle_verify (tl : Tile) : tl.settle.verify = tl.verify := by rw [Tile.settle_shape]
@[simp] theorem Tile.settle_wp (tl : Tile) : tl.settle.wp = tl.wp := by rw [Tile.settle_shape]
@[simp] theorem Tile.settle_repair (tl : Tile) : tl.settle.repair = tl.repair := by rw [Tile.settle_shape]

end Sys2Proof.Machine
end

