-- ==== Sys2Proof/Laws/Events.lean ====
section
/-! SUPPORT. What an event, a ring record, a mark and a message can change. -/

namespace Sys2Proof.Machine

/-- A fold of HBM writes is the fold of the writes of the memory. -/
theorem State.foldl_hbmWrite {α : Type} (l : List α) (f : α → Nat) (g : α → List Byte) (s : State) :
    l.foldl (fun s x => s.hbmWrite (f x) (g x)) s =
      { s with hbm := l.foldl (fun m x => Mem.writeBytes m (f x) (g x)) s.hbm } := by
  induction l generalizing s with
  | nil => cases s; rfl
  | cons a l ih => exact ih _

/-- A record offered to a ring changes HBM, the count of observation bytes and the ring's words alone. -/
theorem State.offer_shape (s : State) (p : PartId) (kind : Nat) (src : BitVec 24) (ts : Stamp) (ids : Ids)
    (flags : BitVec 8) (payload : List Byte) :
    ∃ m w b st, s.offer p kind src ts ids flags payload =
      ({ s with hbm := m, obsWindow := w, obsBytes := b } : State).setStrand p st := by
  unfold State.offer
  dsimp only
  split
  · exact ⟨s.hbm, s.obsWindow, s.obsBytes, _, rfl⟩
  · split
    · exact ⟨s.hbm, s.obsWindow, s.obsBytes, _, rfl⟩
    · rw [State.foldl_hbmWrite]
      exact ⟨_, _, _, _, rfl⟩

/-- A ring's words are words of its partition. -/
theorem State.setStrand_part (s : State) (p q : PartId) (st : Strand) :
    (s.setStrand p st).part q = if q = p then { s.part q with strand := st } else s.part q := by
  unfold State.setStrand
  split
  · subst_vars; simp
  · exact State.modPart_part_other _ _ ‹_›

/-- Counting a class changes words of the partition alone. -/
theorem State.noteClass_shape (s : State) (p : PartId) (cls : BitVec 3) :
    s.noteClass p cls = { s with parts := (s.noteClass p cls).parts } := by
  unfold State.noteClass
  split <;> rfl

/-- An event is recorded; beyond that only HBM, the count of observation bytes and partitions change. -/
theorem State.raise_shape (s : State) (code : BitVec 16) (cls : BitVec 3) (src : BitVec 24) (ids : Ids)
    (part : Option PartId) (detail : List Byte) :
    ∃ m w b ps, s.raise code cls src ids part detail = { s with
      events := s.events ++ [{
        code, cls, src, ts := s.now, layer := ids.layer, opid := ids.opid
        frame := match part with | some p => (s.part p).frame | none => 0, part, detail }]
      hbm := m, obsWindow := w, obsBytes := b, parts := ps } := by
  cases part with
  | none => exact ⟨s.hbm, s.obsWindow, s.obsBytes, s.parts, rfl⟩
  | some p =>
    simp only [State.raise]
    rw [State.noteClass_shape]
    split
    · obtain ⟨m, w, b, st, h⟩ := State.offer_shape _ p 1 src _ ids 0 _
      rw [h]
      exact ⟨_, _, _, _, rfl⟩
    · exact ⟨_, _, _, _, rfl⟩

/-- What an event without a class leaves of a partition: everything but the ring's words. -/
theorem State.raise_part (s : State) (code : BitVec 16) (src : BitVec 24) (ids : Ids) (part : Option PartId)
    (detail : List Byte) (q : PartId) :
    ∃ st, (s.raise code clsNone src ids part detail).part q = { s.part q with strand := st } := by
  cases part with
  | none => exact ⟨(s.part q).strand, rfl⟩
  | some p =>
    simp only [State.raise, clsNone, State.noteClass, if_true]
    split
    · obtain ⟨m, w, b, st, h⟩ := State.offer_shape _ p 1 src _ ids 0 _
      rw [h, State.setStrand_part]
      split
      · exact ⟨st, rfl⟩
      · exact ⟨(s.part q).strand, rfl⟩
    · exact ⟨(s.part q).strand, rfl⟩

/-! ### Field by field -/

@[simp] theorem State.raise_pending (s : State) (code : BitVec 16) (cls : BitVec 3) (src : BitVec 24) (ids : Ids) (pt : Option PartId)
    (d : List Byte) : (s.raise code cls src ids pt d).pending = s.pending := by
  obtain ⟨m, w, b, ps, h⟩ := State.raise_shape s code cls src ids pt d; rw [h]

@[simp] theorem State.raise_now (s : State) (code : BitVec 16) (cls : BitVec 3) (src : BitVec 24) (ids : Ids) (pt : Option PartId)
    (d : List Byte) : (s.raise code cls src ids pt d).now = s.now := by
  obtain ⟨m, w, b, ps, h⟩ := State.raise_shape s code cls src ids pt d; rw [h]

@[simp] theorem State.raise_devNum (s : State) (code : BitVec 16) (cls : BitVec 3) (src : BitVec 24) (ids : Ids) (pt : Option PartId)
    (d : List Byte) : (s.raise code cls src ids pt d).devNum = s.devNum := by
  obtain ⟨m, w, b, ps, h⟩ := State.raise_shape s code cls src ids pt d; rw [h]

@[simp] theorem State.raise_freeCtr (s : State) (code : BitVec 16) (cls : BitVec 3) (src : BitVec 24) (ids : Ids) (pt : Option PartId)
    (d : List Byte) : (s.raise code cls src ids pt d).freeCtr = s.freeCtr := by
  obtain ⟨m, w, b, ps, h⟩ := State.raise_shape s code cls src ids pt d; rw [h]

@[simp] theorem State.raise_epochBase (s : State) (code : BitVec 16) (cls : BitVec 3) (src : BitVec 24) (ids : Ids) (pt : Option PartId)
    (d : List Byte) : (s.raise code cls src ids pt d).epochBase = s.epochBase := by
  obtain ⟨m, w, b, ps, h⟩ := State.raise_shape s code cls src ids pt d; rw [h]

@[simp] theorem State.raise_tagCtr (s : State) (code : BitVec 16) (cls : BitVec 3) (src : BitVec 24) (ids : Ids) (pt : Option PartId)
    (d : List Byte) : (s.raise code cls src ids pt d).tagCtr = s.tagCtr := by
  obtain ⟨m, w, b, ps, h⟩ := State.raise_shape s code cls src ids pt d; rw [h]

@[simp] theorem State.raise_sent (s : State) (code : BitVec 16) (cls : BitVec 3) (src : BitVec 24) (ids : Ids) (pt : Option PartId)
    (d : List Byte) : (s.raise code cls src ids pt d).sent = s.sent := by
  obtain ⟨m, w, b, ps, h⟩ := State.raise_shape s code cls src ids pt d; rw [h]

@[simp] theorem State.raise_wire (s : State) (code : BitVec 16) (cls : BitVec 3) (src : BitVec 24) (ids : Ids) (pt : Option PartId)
    (d : List Byte) : (s.raise code cls src ids pt d).wire = s.wire := by
  obtain ⟨m, w, b, ps, h⟩ := State.raise_shape s code cls src ids pt d; rw [h]

@[simp] theorem State.raise_datagrams (s : State) (code : BitVec 16) (cls : BitVec 3) (src : BitVec 24) (ids : Ids) (pt : Option PartId)
    (d : List Byte) : (s.raise code cls src ids pt d).datagrams = s.datagrams := by
  obtain ⟨m, w, b, ps, h⟩ := State.raise_shape s code cls src ids pt d; rw [h]

@[simp] theorem State.raise_discarded (s : State) (code : BitVec 16) (cls : BitVec 3) (src : BitVec 24) (ids : Ids) (pt : Option PartId)
    (d : List Byte) : (s.raise code cls src ids pt d).discarded = s.discarded := by
  obtain ⟨m, w, b, ps, h⟩ := State.raise_shape s code cls src ids pt d; rw [h]

@[simp] theorem State.raise_phase (s : State) (code : BitVec 16) (cls : BitVec 3) (src : BitVec 24) (ids : Ids) (pt : Option PartId)
    (d : List Byte) : (s.raise code cls src ids pt d).phase = s.phase := by
  obtain ⟨m, w, b, ps, h⟩ := State.raise_shape s code cls src ids pt d; rw [h]

@[simp] theorem State.raise_startWord (s : State) (code : BitVec 16) (cls : BitVec 3) (src : BitVec 24) (ids : Ids) (pt : Option PartId)
    (d : List Byte) : (s.raise code cls src ids pt d).startWord = s.startWord := by
  obtain ⟨m, w, b, ps, h⟩ := State.raise_shape s code cls src ids pt d; rw [h]

@[simp] theorem State.raise_tiles (s : State) (code : BitVec 16) (cls : BitVec 3) (src : BitVec 24) (ids : Ids) (pt : Option PartId)
    (d : List Byte) : (s.raise code cls src ids pt d).tiles = s.tiles := by
  obtain ⟨m, w, b, ps, h⟩ := State.raise_shape s code cls src ids pt d; rw [h]

@[simp] theorem State.raise_clusters (s : State) (code : BitVec 16) (cls : BitVec 3) (src : BitVec 24) (ids : Ids) (pt : Option PartId)
    (d : List Byte) : (s.raise code cls src ids pt d).clusters = s.clusters := by
  obtain ⟨m, w, b, ps, h⟩ := State.raise_shape s code cls src ids pt d; rw [h]

@[simp] theorem State.raise_dies (s : State) (code : BitVec 16) (cls : BitVec 3) (src : BitVec 24) (ids : Ids) (pt : Option PartId)
    (d : List Byte) : (s.raise code cls src ids pt d).dies = s.dies := by
  obtain ⟨m, w, b, ps, h⟩ := State.raise_shape s code cls src ids pt d; rw [h]

@[simp] theorem State.raise_ctrls (s : State) (code : BitVec 16) (cls : BitVec 3) (src : BitVec 24) (ids : Ids) (pt : Option PartId)
    (d : List Byte) : (s.raise code cls src ids pt d).ctrls = s.ctrls := by
  obtain ⟨m, w, b, ps, h⟩ := State.raise_shape s code cls src ids pt d; rw [h]

@[simp] theorem State.raise_bands (s : State) (code : BitVec 16) (cls : BitVec 3) (src : BitVec 24) (ids : Ids) (pt : Option PartId)
    (d : List Byte) : (s.raise code cls src ids pt d).bands = s.bands := by
  obtain ⟨m, w, b, ps, h⟩ := State.raise_shape s code cls src ids pt d; rw [h]

@[simp] theorem State.raise_domains (s : State) (code : BitVec 16) (cls : BitVec 3) (src : BitVec 24) (ids : Ids) (pt : Option PartId)
    (d : List Byte) : (s.raise code cls src ids pt d).domains = s.domains := by
  obtain ⟨m, w, b, ps, h⟩ := State.raise_shape s code cls src ids pt d; rw [h]

@[simp] theorem State.raise_engines (s : State) (code : BitVec 16) (cls : BitVec 3) (src : BitVec 24) (ids : Ids) (pt : Option PartId)
    (d : List Byte) : (s.raise code cls src ids pt d).engines = s.engines := by
  obtain ⟨m, w, b, ps, h⟩ := State.raise_shape s code cls src ids pt d; rw [h]

@[simp] theorem State.raise_ports (s : State) (code : BitVec 16) (cls : BitVec 3) (src : BitVec 24) (ids : Ids) (pt : Option PartId)
    (d : List Byte) : (s.raise code cls src ids pt d).ports = s.ports := by
  obtain ⟨m, w, b, ps, h⟩ := State.raise_shape s code cls src ids pt d; rw [h]

@[simp] theorem State.raise_groups (s : State) (code : BitVec 16) (cls : BitVec 3) (src : BitVec 24) (ids : Ids) (pt : Option PartId)
    (d : List Byte) : (s.raise code cls src ids pt d).groups = s.groups := by
  obtain ⟨m, w, b, ps, h⟩ := State.raise_shape s code cls src ids pt d; rw [h]

@[simp] theorem State.raise_badAccess (s : State) (code : BitVec 16) (cls : BitVec 3) (src : BitVec 24) (ids : Ids) (pt : Option PartId)
    (d : List Byte) : (s.raise code cls src ids pt d).badAccess = s.badAccess := by
  obtain ⟨m, w, b, ps, h⟩ := State.raise_shape s code cls src ids pt d; rw [h]

@[simp] theorem State.raise_hardNow (s : State) (code : BitVec 16) (cls : BitVec 3) (src : BitVec 24) (ids : Ids) (pt : Option PartId)
    (d : List Byte) : (s.raise code cls src ids pt d).hardNow = s.hardNow := by
  obtain ⟨m, w, b, ps, h⟩ := State.raise_shape s code cls src ids pt d; rw [h]

@[simp] theorem State.raise_transients (s : State) (code : BitVec 16) (cls : BitVec 3) (src : BitVec 24) (ids : Ids) (pt : Option PartId)
    (d : List Byte) : (s.raise code cls src ids pt d).transients = s.transients := by
  obtain ⟨m, w, b, ps, h⟩ := State.raise_shape s code cls src ids pt d; rw [h]

@[simp] theorem State.raise_rowRepairs (s : State) (code : BitVec 16) (cls : BitVec 3) (src : BitVec 24) (ids : Ids) (pt : Option PartId)
    (d : List Byte) : (s.raise code cls src ids pt d).rowRepairs = s.rowRepairs := by
  obtain ⟨m, w, b, ps, h⟩ := State.raise_shape s code cls src ids pt d; rw [h]

@[simp] theorem State.raise_hardRepairs (s : State) (code : BitVec 16) (cls : BitVec 3) (src : BitVec 24) (ids : Ids) (pt : Option PartId)
    (d : List Byte) : (s.raise code cls src ids pt d).hardRepairs = s.hardRepairs := by
  obtain ⟨m, w, b, ps, h⟩ := State.raise_shape s code cls src ids pt d; rw [h]

@[simp] theorem State.raise_testing (s : State) (code : BitVec 16) (cls : BitVec 3) (src : BitVec 24) (ids : Ids) (pt : Option PartId)
    (d : List Byte) : (s.raise code cls src ids pt d).testing = s.testing := by
  obtain ⟨m, w, b, ps, h⟩ := State.raise_shape s code cls src ids pt d; rw [h]

@[simp] theorem State.raise_rootClk (s : State) (code : BitVec 16) (cls : BitVec 3) (src : BitVec 24) (ids : Ids) (pt : Option PartId)
    (d : List Byte) : (s.raise code cls src ids pt d).rootClk = s.rootClk := by
  obtain ⟨m, w, b, ps, h⟩ := State.raise_shape s code cls src ids pt d; rw [h]

@[simp] theorem State.raise_watchdog (s : State) (code : BitVec 16) (cls : BitVec 3) (src : BitVec 24) (ids : Ids) (pt : Option PartId)
    (d : List Byte) : (s.raise code cls src ids pt d).watchdog = s.watchdog := by
  obtain ⟨m, w, b, ps, h⟩ := State.raise_shape s code cls src ids pt d; rw [h]

@[simp] theorem State.raise_alert (s : State) (code : BitVec 16) (cls : BitVec 3) (src : BitVec 24) (ids : Ids) (pt : Option PartId)
    (d : List Byte) : (s.raise code cls src ids pt d).alert = s.alert := by
  obtain ⟨m, w, b, ps, h⟩ := State.raise_shape s code cls src ids pt d; rw [h]

@[simp] theorem State.raise_slack (s : State) (code : BitVec 16) (cls : BitVec 3) (src : BitVec 24) (ids : Ids) (pt : Option PartId)
    (d : List Byte) : (s.raise code cls src ids pt d).slack = s.slack := by
  obtain ⟨m, w, b, ps, h⟩ := State.raise_shape s code cls src ids pt d; rw [h]

@[simp] theorem State.raise_pins (s : State) (code : BitVec 16) (cls : BitVec 3) (src : BitVec 24) (ids : Ids) (pt : Option PartId)
    (d : List Byte) : (s.raise code cls src ids pt d).pins = s.pins := by
  obtain ⟨m, w, b, ps, h⟩ := State.raise_shape s code cls src ids pt d; rw [h]

@[simp] theorem State.raise_power (s : State) (code : BitVec 16) (cls : BitVec 3) (src : BitVec 24) (ids : Ids) (pt : Option PartId)
    (d : List Byte) : (s.raise code cls src ids pt d).power = s.power := by
  obtain ⟨m, w, b, ps, h⟩ := State.raise_shape s code cls src ids pt d; rw [h]

@[simp] theorem State.raise_rails (s : State) (code : BitVec 16) (cls : BitVec 3) (src : BitVec 24) (ids : Ids) (pt : Option PartId)
    (d : List Byte) : (s.raise code cls src ids pt d).rails = s.rails := by
  obtain ⟨m, w, b, ps, h⟩ := State.raise_shape s code cls src ids pt d; rw [h]

@[simp] theorem State.raise_thermal (s : State) (code : BitVec 16) (cls : BitVec 3) (src : BitVec 24) (ids : Ids) (pt : Option PartId)
    (d : List Byte) : (s.raise code cls src ids pt d).thermal = s.thermal := by
  obtain ⟨m, w, b, ps, h⟩ := State.raise_shape s code cls src ids pt d; rw [h]

@[simp] theorem State.raise_residual (s : State) (code : BitVec 16) (cls : BitVec 3) (src : BitVec 24) (ids : Ids) (pt : Option PartId)
    (d : List Byte) : (s.raise code cls src ids pt d).residual = s.residual := by
  obtain ⟨m, w, b, ps, h⟩ := State.raise_shape s code cls src ids pt d; rw [h]

@[simp] theorem State.raise_dump (s : State) (code : BitVec 16) (cls : BitVec 3) (src : BitVec 24) (ids : Ids) (pt : Option PartId)
    (d : List Byte) : (s.raise code cls src ids pt d).dump = s.dump := by
  obtain ⟨m, w, b, ps, h⟩ := State.raise_shape s code cls src ids pt d; rw [h]

@[simp] theorem State.raise_otp (s : State) (code : BitVec 16) (cls : BitVec 3) (src : BitVec 24) (ids : Ids) (pt : Option PartId)
    (d : List Byte) : (s.raise code cls src ids pt d).otp = s.otp := by
  obtain ⟨m, w, b, ps, h⟩ := State.raise_shape s code cls src ids pt d; rw [h]

@[simp] theorem State.raise_flash (s : State) (code : BitVec 16) (cls : BitVec 3) (src : BitVec 24) (ids : Ids) (pt : Option PartId)
    (d : List Byte) : (s.raise code cls src ids pt d).flash = s.flash := by
  obtain ⟨m, w, b, ps, h⟩ := State.raise_shape s code cls src ids pt d; rw [h]

@[simp] theorem State.raise_island (s : State) (code : BitVec 16) (cls : BitVec 3) (src : BitVec 24) (ids : Ids) (pt : Option PartId)
    (d : List Byte) : (s.raise code cls src ids pt d).island = s.island := by
  obtain ⟨m, w, b, ps, h⟩ := State.raise_shape s code cls src ids pt d; rw [h]

@[simp] theorem State.raise_dict (s : State) (code : BitVec 16) (cls : BitVec 3) (src : BitVec 24) (ids : Ids) (pt : Option PartId)
    (d : List Byte) : (s.raise code cls src ids pt d).dict = s.dict := by
  obtain ⟨m, w, b, ps, h⟩ := State.raise_shape s code cls src ids pt d; rw [h]

@[simp] theorem State.raise_devArea (s : State) (code : BitVec 16) (cls : BitVec 3) (src : BitVec 24) (ids : Ids) (pt : Option PartId)
    (d : List Byte) : (s.raise code cls src ids pt d).devArea = s.devArea := by
  obtain ⟨m, w, b, ps, h⟩ := State.raise_shape s code cls src ids pt d; rw [h]

@[simp] theorem State.raise_writers (s : State) (code : BitVec 16) (cls : BitVec 3) (src : BitVec 24) (ids : Ids) (pt : Option PartId)
    (d : List Byte) : (s.raise code cls src ids pt d).writers = s.writers := by
  obtain ⟨m, w, b, ps, h⟩ := State.raise_shape s code cls src ids pt d; rw [h]

@[simp] theorem State.raise_ecat (s : State) (code : BitVec 16) (cls : BitVec 3) (src : BitVec 24) (ids : Ids) (pt : Option PartId)
    (d : List Byte) : (s.raise code cls src ids pt d).ecat = s.ecat := by
  obtain ⟨m, w, b, ps, h⟩ := State.raise_shape s code cls src ids pt d; rw [h]

@[simp] theorem State.raise_mapping (s : State) (code : BitVec 16) (cls : BitVec 3) (src : BitVec 24) (ids : Ids) (pt : Option PartId)
    (d : List Byte) : (s.raise code cls src ids pt d).mapping = s.mapping := by
  obtain ⟨m, w, b, ps, h⟩ := State.raise_shape s code cls src ids pt d; rw [h]

@[simp] theorem State.raise_neighbours (s : State) (code : BitVec 16) (cls : BitVec 3) (src : BitVec 24) (ids : Ids) (pt : Option PartId)
    (d : List Byte) : (s.raise code cls src ids pt d).neighbours = s.neighbours := by
  obtain ⟨m, w, b, ps, h⟩ := State.raise_shape s code cls src ids pt d; rw [h]

@[simp] theorem State.raise_unresolved (s : State) (code : BitVec 16) (cls : BitVec 3) (src : BitVec 24) (ids : Ids) (pt : Option PartId)
    (d : List Byte) : (s.raise code cls src ids pt d).unresolved = s.unresolved := by
  obtain ⟨m, w, b, ps, h⟩ := State.raise_shape s code cls src ids pt d; rw [h]

@[simp] theorem State.raise_reads (s : State) (code : BitVec 16) (cls : BitVec 3) (src : BitVec 24) (ids : Ids) (pt : Option PartId)
    (d : List Byte) : (s.raise code cls src ids pt d).reads = s.reads := by
  obtain ⟨m, w, b, ps, h⟩ := State.raise_shape s code cls src ids pt d; rw [h]

@[simp] theorem State.raise_routes (s : State) (code : BitVec 16) (cls : BitVec 3) (src : BitVec 24) (ids : Ids) (pt : Option PartId)
    (d : List Byte) : (s.raise code cls src ids pt d).routes = s.routes := by
  obtain ⟨m, w, b, ps, h⟩ := State.raise_shape s code cls src ids pt d; rw [h]

@[simp] theorem State.raise_pathNs (s : State) (code : BitVec 16) (cls : BitVec 3) (src : BitVec 24) (ids : Ids) (pt : Option PartId)
    (d : List Byte) : (s.raise code cls src ids pt d).pathNs = s.pathNs := by
  obtain ⟨m, w, b, ps, h⟩ := State.raise_shape s code cls src ids pt d; rw [h]

@[simp] theorem State.raise_topology (s : State) (code : BitVec 16) (cls : BitVec 3) (src : BitVec 24) (ids : Ids) (pt : Option PartId)
    (d : List Byte) : (s.raise code cls src ids pt d).topology = s.topology := by
  obtain ⟨m, w, b, ps, h⟩ := State.raise_shape s code cls src ids pt d; rw [h]

@[simp] theorem State.raise_topoSeq (s : State) (code : BitVec 16) (cls : BitVec 3) (src : BitVec 24) (ids : Ids) (pt : Option PartId)
    (d : List Byte) : (s.raise code cls src ids pt d).topoSeq = s.topoSeq := by
  obtain ⟨m, w, b, ps, h⟩ := State.raise_shape s code cls src ids pt d; rw [h]

@[simp] theorem State.raise_topoSeen (s : State) (code : BitVec 16) (cls : BitVec 3) (src : BitVec 24) (ids : Ids) (pt : Option PartId)
    (d : List Byte) : (s.raise code cls src ids pt d).topoSeen = s.topoSeen := by
  obtain ⟨m, w, b, ps, h⟩ := State.raise_shape s code cls src ids pt d; rw [h]

@[simp] theorem State.raise_fabricUp (s : State) (code : BitVec 16) (cls : BitVec 3) (src : BitVec 24) (ids : Ids) (pt : Option PartId)
    (d : List Byte) : (s.raise code cls src ids pt d).fabricUp = s.fabricUp := by
  obtain ⟨m, w, b, ps, h⟩ := State.raise_shape s code cls src ids pt d; rw [h]

@[simp] theorem State.raise_lasersOn (s : State) (code : BitVec 16) (cls : BitVec 3) (src : BitVec 24) (ids : Ids) (pt : Option PartId)
    (d : List Byte) : (s.raise code cls src ids pt d).lasersOn = s.lasersOn := by
  obtain ⟨m, w, b, ps, h⟩ := State.raise_shape s code cls src ids pt d; rw [h]

@[simp] theorem State.raise_jtagOpen (s : State) (code : BitVec 16) (cls : BitVec 3) (src : BitVec 24) (ids : Ids) (pt : Option PartId)
    (d : List Byte) : (s.raise code cls src ids pt d).jtagOpen = s.jtagOpen := by
  obtain ⟨m, w, b, ps, h⟩ := State.raise_shape s code cls src ids pt d; rw [h]

@[simp] theorem State.raise_coreMap (s : State) (code : BitVec 16) (cls : BitVec 3) (src : BitVec 24) (ids : Ids) (pt : Option PartId)
    (d : List Byte) : (s.raise code cls src ids pt d).coreMap = s.coreMap := by
  obtain ⟨m, w, b, ps, h⟩ := State.raise_shape s code cls src ids pt d; rw [h]

@[simp] theorem State.raise_coreSpares (s : State) (code : BitVec 16) (cls : BitVec 3) (src : BitVec 24) (ids : Ids) (pt : Option PartId)
    (d : List Byte) : (s.raise code cls src ids pt d).coreSpares = s.coreSpares := by
  obtain ⟨m, w, b, ps, h⟩ := State.raise_shape s code cls src ids pt d; rw [h]

@[simp] theorem State.raise_lastTick (s : State) (code : BitVec 16) (cls : BitVec 3) (src : BitVec 24) (ids : Ids) (pt : Option PartId)
    (d : List Byte) : (s.raise code cls src ids pt d).lastTick = s.lastTick := by
  obtain ⟨m, w, b, ps, h⟩ := State.raise_shape s code cls src ids pt d; rw [h]

@[simp] theorem State.raise_opSince (s : State) (code : BitVec 16) (cls : BitVec 3) (src : BitVec 24) (ids : Ids) (pt : Option PartId)
    (d : List Byte) : (s.raise code cls src ids pt d).opSince = s.opSince := by
  obtain ⟨m, w, b, ps, h⟩ := State.raise_shape s code cls src ids pt d; rw [h]

theorem State.raise_events (s : State) (code : BitVec 16) (cls : BitVec 3) (src : BitVec 24) (ids : Ids) (pt : Option PartId)
    (d : List Byte) :
    (s.raise code cls src ids pt d).events = s.events ++ [{
      code, cls, src, ts := s.now, layer := ids.layer, opid := ids.opid
      frame := match pt with | some p => (s.part p).frame | none => 0, part := pt, detail := d }] := by
  obtain ⟨m, w, b, ps, h⟩ := State.raise_shape s code cls src ids pt d; rw [h]

@[simp] theorem State.raise_tile (s : State) (code : BitVec 16) (cls : BitVec 3) (src : BitVec 24) (ids : Ids) (pt : Option PartId)
    (d : List Byte) (t : TileId) :
    (s.raise code cls src ids pt d).tile t = s.tile t := by
  obtain ⟨m, w, b, ps, h⟩ := State.raise_shape s code cls src ids pt d; rw [h]; rfl


@[simp] theorem State.raise_none_st (s : State) (code : BitVec 16) (src : BitVec 24) (ids : Ids) (pt : Option PartId)
    (d : List Byte) (q : PartId) : ((s.raise code clsNone src ids pt d).part q).st = (s.part q).st := by
  obtain ⟨st, h⟩ := State.raise_part s code src ids pt d q; rw [h]

@[simp] theorem State.raise_none_ready (s : State) (code : BitVec 16) (src : BitVec 24) (ids : Ids) (pt : Option PartId)
    (d : List Byte) (q : PartId) : ((s.raise code clsNone src ids pt d).part q).ready = (s.part q).ready := by
  obtain ⟨st, h⟩ := State.raise_part s code src ids pt d q; rw [h]

@[simp] theorem State.raise_none_readyFrame (s : State) (code : BitVec 16) (src : BitVec 24) (ids : Ids) (pt : Option PartId)
    (d : List Byte) (q : PartId) : ((s.raise code clsNone src ids pt d).part q).readyFrame = (s.part q).readyFrame := by
  obtain ⟨st, h⟩ := State.raise_part s code src ids pt d q; rw [h]

@[simp] theorem State.raise_none_cls (s : State) (code : BitVec 16) (src : BitVec 24) (ids : Ids) (pt : Option PartId)
    (d : List Byte) (q : PartId) : ((s.raise code clsNone src ids pt d).part q).cls = (s.part q).cls := by
  obtain ⟨st, h⟩ := State.raise_part s code src ids pt d q; rw [h]

@[simp] theorem State.raise_none_wantCls (s : State) (code : BitVec 16) (src : BitVec 24) (ids : Ids) (pt : Option PartId)
    (d : List Byte) (q : PartId) : ((s.raise code clsNone src ids pt d).part q).wantCls = (s.part q).wantCls := by
  obtain ⟨st, h⟩ := State.raise_part s code src ids pt d q; rw [h]

@[simp] theorem State.raise_none_ff (s : State) (code : BitVec 16) (src : BitVec 24) (ids : Ids) (pt : Option PartId)
    (d : List Byte) (q : PartId) : ((s.raise code clsNone src ids pt d).part q).ff = (s.part q).ff := by
  obtain ⟨st, h⟩ := State.raise_part s code src ids pt d q; rw [h]

@[simp] theorem State.raise_none_div2 (s : State) (code : BitVec 16) (src : BitVec 24) (ids : Ids) (pt : Option PartId)
    (d : List Byte) (q : PartId) : ((s.raise code clsNone src ids pt d).part q).div2 = (s.part q).div2 := by
  obtain ⟨st, h⟩ := State.raise_part s code src ids pt d q; rw [h]

@[simp] theorem State.raise_none_nextDiv2 (s : State) (code : BitVec 16) (src : BitVec 24) (ids : Ids) (pt : Option PartId)
    (d : List Byte) (q : PartId) : ((s.raise code clsNone src ids pt d).part q).nextDiv2 = (s.part q).nextDiv2 := by
  obtain ⟨st, h⟩ := State.raise_part s code src ids pt d q; rw [h]

@[simp] theorem State.raise_none_armDiv2 (s : State) (code : BitVec 16) (src : BitVec 24) (ids : Ids) (pt : Option PartId)
    (d : List Byte) (q : PartId) : ((s.raise code clsNone src ids pt d).part q).armDiv2 = (s.part q).armDiv2 := by
  obtain ⟨st, h⟩ := State.raise_part s code src ids pt d q; rw [h]

@[simp] theorem State.raise_none_clockA (s : State) (code : BitVec 16) (src : BitVec 24) (ids : Ids) (pt : Option PartId)
    (d : List Byte) (q : PartId) : ((s.raise code clsNone src ids pt d).part q).clockA = (s.part q).clockA := by
  obtain ⟨st, h⟩ := State.raise_part s code src ids pt d q; rw [h]

@[simp] theorem State.raise_none_clockB (s : State) (code : BitVec 16) (src : BitVec 24) (ids : Ids) (pt : Option PartId)
    (d : List Byte) (q : PartId) : ((s.raise code clsNone src ids pt d).part q).clockB = (s.part q).clockB := by
  obtain ⟨st, h⟩ := State.raise_part s code src ids pt d q; rw [h]

@[simp] theorem State.raise_none_gen (s : State) (code : BitVec 16) (src : BitVec 24) (ids : Ids) (pt : Option PartId)
    (d : List Byte) (q : PartId) : ((s.raise code clsNone src ids pt d).part q).gen = (s.part q).gen := by
  obtain ⟨st, h⟩ := State.raise_part s code src ids pt d q; rw [h]

@[simp] theorem State.raise_none_frame (s : State) (code : BitVec 16) (src : BitVec 24) (ids : Ids) (pt : Option PartId)
    (d : List Byte) (q : PartId) : ((s.raise code clsNone src ids pt d).part q).frame = (s.part q).frame := by
  obtain ⟨st, h⟩ := State.raise_part s code src ids pt d q; rw [h]

@[simp] theorem State.raise_none_lastFrame (s : State) (code : BitVec 16) (src : BitVec 24) (ids : Ids) (pt : Option PartId)
    (d : List Byte) (q : PartId) : ((s.raise code clsNone src ids pt d).part q).lastFrame = (s.part q).lastFrame := by
  obtain ⟨st, h⟩ := State.raise_part s code src ids pt d q; rw [h]

@[simp] theorem State.raise_none_run (s : State) (code : BitVec 16) (src : BitVec 24) (ids : Ids) (pt : Option PartId)
    (d : List Byte) (q : PartId) : ((s.raise code clsNone src ids pt d).part q).run = (s.part q).run := by
  obtain ⟨st, h⟩ := State.raise_part s code src ids pt d q; rw [h]

@[simp] theorem State.raise_none_armed (s : State) (code : BitVec 16) (src : BitVec 24) (ids : Ids) (pt : Option PartId)
    (d : List Byte) (q : PartId) : ((s.raise code clsNone src ids pt d).part q).armed = (s.part q).armed := by
  obtain ⟨st, h⟩ := State.raise_part s code src ids pt d q; rw [h]

@[simp] theorem State.raise_none_startAt (s : State) (code : BitVec 16) (src : BitVec 24) (ids : Ids) (pt : Option PartId)
    (d : List Byte) (q : PartId) : ((s.raise code clsNone src ids pt d).part q).startAt = (s.part q).startAt := by
  obtain ⟨st, h⟩ := State.raise_part s code src ids pt d q; rw [h]

@[simp] theorem State.raise_none_pendingMissed (s : State) (code : BitVec 16) (src : BitVec 24) (ids : Ids) (pt : Option PartId)
    (d : List Byte) (q : PartId) : ((s.raise code clsNone src ids pt d).part q).pendingMissed = (s.part q).pendingMissed := by
  obtain ⟨st, h⟩ := State.raise_part s code src ids pt d q; rw [h]

@[simp] theorem State.raise_none_statusRec (s : State) (code : BitVec 16) (src : BitVec 24) (ids : Ids) (pt : Option PartId)
    (d : List Byte) (q : PartId) : ((s.raise code clsNone src ids pt d).part q).statusRec = (s.part q).statusRec := by
  obtain ⟨st, h⟩ := State.raise_part s code src ids pt d q; rw [h]

@[simp] theorem State.raise_none_timingRec (s : State) (code : BitVec 16) (src : BitVec 24) (ids : Ids) (pt : Option PartId)
    (d : List Byte) (q : PartId) : ((s.raise code clsNone src ids pt d).part q).timingRec = (s.part q).timingRec := by
  obtain ⟨st, h⟩ := State.raise_part s code src ids pt d q; rw [h]

@[simp] theorem State.raise_none_lastClass (s : State) (code : BitVec 16) (src : BitVec 24) (ids : Ids) (pt : Option PartId)
    (d : List Byte) (q : PartId) : ((s.raise code clsNone src ids pt d).part q).lastClass = (s.part q).lastClass := by
  obtain ⟨st, h⟩ := State.raise_part s code src ids pt d q; rw [h]

@[simp] theorem State.raise_none_unacked (s : State) (code : BitVec 16) (src : BitVec 24) (ids : Ids) (pt : Option PartId)
    (d : List Byte) (q : PartId) : ((s.raise code clsNone src ids pt d).part q).unacked = (s.part q).unacked := by
  obtain ⟨st, h⟩ := State.raise_part s code src ids pt d q; rw [h]

@[simp] theorem State.raise_none_lastCause (s : State) (code : BitVec 16) (src : BitVec 24) (ids : Ids) (pt : Option PartId)
    (d : List Byte) (q : PartId) : ((s.raise code clsNone src ids pt d).part q).lastCause = (s.part q).lastCause := by
  obtain ⟨st, h⟩ := State.raise_part s code src ids pt d q; rw [h]

@[simp] theorem State.raise_none_dumpHeld (s : State) (code : BitVec 16) (src : BitVec 24) (ids : Ids) (pt : Option PartId)
    (d : List Byte) (q : PartId) : ((s.raise code clsNone src ids pt d).part q).dumpHeld = (s.part q).dumpHeld := by
  obtain ⟨st, h⟩ := State.raise_part s code src ids pt d q; rw [h]

@[simp] theorem State.raise_none_withheld (s : State) (code : BitVec 16) (src : BitVec 24) (ids : Ids) (pt : Option PartId)
    (d : List Byte) (q : PartId) : ((s.raise code clsNone src ids pt d).part q).withheld = (s.part q).withheld := by
  obtain ⟨st, h⟩ := State.raise_part s code src ids pt d q; rw [h]

@[simp] theorem State.raise_none_minor (s : State) (code : BitVec 16) (src : BitVec 24) (ids : Ids) (pt : Option PartId)
    (d : List Byte) (q : PartId) : ((s.raise code clsNone src ids pt d).part q).minor = (s.part q).minor := by
  obtain ⟨st, h⟩ := State.raise_part s code src ids pt d q; rw [h]

@[simp] theorem State.raise_none_lastAlert (s : State) (code : BitVec 16) (src : BitVec 24) (ids : Ids) (pt : Option PartId)
    (d : List Byte) (q : PartId) : ((s.raise code clsNone src ids pt d).part q).lastAlert = (s.part q).lastAlert := by
  obtain ⟨st, h⟩ := State.raise_part s code src ids pt d q; rw [h]

@[simp] theorem State.raise_none_kind4 (s : State) (code : BitVec 16) (src : BitVec 24) (ids : Ids) (pt : Option PartId)
    (d : List Byte) (q : PartId) : ((s.raise code clsNone src ids pt d).part q).kind4 = (s.part q).kind4 := by
  obtain ⟨st, h⟩ := State.raise_part s code src ids pt d q; rw [h]

@[simp] theorem State.raise_none_alertCount (s : State) (code : BitVec 16) (src : BitVec 24) (ids : Ids) (pt : Option PartId)
    (d : List Byte) (q : PartId) : ((s.raise code clsNone src ids pt d).part q).alertCount = (s.part q).alertCount := by
  obtain ⟨st, h⟩ := State.raise_part s code src ids pt d q; rw [h]

@[simp] theorem State.raise_none_overBudgetCount (s : State) (code : BitVec 16) (src : BitVec 24) (ids : Ids) (pt : Option PartId)
    (d : List Byte) (q : PartId) : ((s.raise code clsNone src ids pt d).part q).overBudgetCount = (s.part q).overBudgetCount := by
  obtain ⟨st, h⟩ := State.raise_part s code src ids pt d q; rw [h]

@[simp] theorem State.raise_none_ownerRsa (s : State) (code : BitVec 16) (src : BitVec 24) (ids : Ids) (pt : Option PartId)
    (d : List Byte) (q : PartId) : ((s.raise code clsNone src ids pt d).part q).ownerRsa = (s.part q).ownerRsa := by
  obtain ⟨st, h⟩ := State.raise_part s code src ids pt d q; rw [h]

@[simp] theorem State.raise_none_ownerSlh (s : State) (code : BitVec 16) (src : BitVec 24) (ids : Ids) (pt : Option PartId)
    (d : List Byte) (q : PartId) : ((s.raise code clsNone src ids pt d).part q).ownerSlh = (s.part q).ownerSlh := by
  obtain ⟨st, h⟩ := State.raise_part s code src ids pt d q; rw [h]

@[simp] theorem State.raise_none_ownerSeq (s : State) (code : BitVec 16) (src : BitVec 24) (ids : Ids) (pt : Option PartId)
    (d : List Byte) (q : PartId) : ((s.raise code clsNone src ids pt d).part q).ownerSeq = (s.part q).ownerSeq := by
  obtain ⟨st, h⟩ := State.raise_part s code src ids pt d q; rw [h]

@[simp] theorem State.raise_none_result (s : State) (code : BitVec 16) (src : BitVec 24) (ids : Ids) (pt : Option PartId)
    (d : List Byte) (q : PartId) : ((s.raise code clsNone src ids pt d).part q).result = (s.part q).result := by
  obtain ⟨st, h⟩ := State.raise_part s code src ids pt d q; rw [h]

@[simp] theorem State.raise_none_admission (s : State) (code : BitVec 16) (src : BitVec 24) (ids : Ids) (pt : Option PartId)
    (d : List Byte) (q : PartId) : ((s.raise code clsNone src ids pt d).part q).admission = (s.part q).admission := by
  obtain ⟨st, h⟩ := State.raise_part s code src ids pt d q; rw [h]

@[simp] theorem State.raise_none_loadAsked (s : State) (code : BitVec 16) (src : BitVec 24) (ids : Ids) (pt : Option PartId)
    (d : List Byte) (q : PartId) : ((s.raise code clsNone src ids pt d).part q).loadAsked = (s.part q).loadAsked := by
  obtain ⟨st, h⟩ := State.raise_part s code src ids pt d q; rw [h]

@[simp] theorem State.raise_none_readmit (s : State) (code : BitVec 16) (src : BitVec 24) (ids : Ids) (pt : Option PartId)
    (d : List Byte) (q : PartId) : ((s.raise code clsNone src ids pt d).part q).readmit = (s.part q).readmit := by
  obtain ⟨st, h⟩ := State.raise_part s code src ids pt d q; rw [h]

@[simp] theorem State.raise_none_image (s : State) (code : BitVec 16) (src : BitVec 24) (ids : Ids) (pt : Option PartId)
    (d : List Byte) (q : PartId) : ((s.raise code clsNone src ids pt d).part q).image = (s.part q).image := by
  obtain ⟨st, h⟩ := State.raise_part s code src ids pt d q; rw [h]

@[simp] theorem State.raise_none_eligible (s : State) (code : BitVec 16) (src : BitVec 24) (ids : Ids) (pt : Option PartId)
    (d : List Byte) (q : PartId) : ((s.raise code clsNone src ids pt d).part q).eligible = (s.part q).eligible := by
  obtain ⟨st, h⟩ := State.raise_part s code src ids pt d q; rw [h]

@[simp] theorem State.raise_none_fromZero (s : State) (code : BitVec 16) (src : BitVec 24) (ids : Ids) (pt : Option PartId)
    (d : List Byte) (q : PartId) : ((s.raise code clsNone src ids pt d).part q).fromZero = (s.part q).fromZero := by
  obtain ⟨st, h⟩ := State.raise_part s code src ids pt d q; rw [h]

@[simp] theorem State.raise_none_copyLost (s : State) (code : BitVec 16) (src : BitVec 24) (ids : Ids) (pt : Option PartId)
    (d : List Byte) (q : PartId) : ((s.raise code clsNone src ids pt d).part q).copyLost = (s.part q).copyLost := by
  obtain ⟨st, h⟩ := State.raise_part s code src ids pt d q; rw [h]

@[simp] theorem State.raise_none_refillTries (s : State) (code : BitVec 16) (src : BitVec 24) (ids : Ids) (pt : Option PartId)
    (d : List Byte) (q : PartId) : ((s.raise code clsNone src ids pt d).part q).refillTries = (s.part q).refillTries := by
  obtain ⟨st, h⟩ := State.raise_part s code src ids pt d q; rw [h]

@[simp] theorem State.raise_none_points (s : State) (code : BitVec 16) (src : BitVec 24) (ids : Ids) (pt : Option PartId)
    (d : List Byte) (q : PartId) : ((s.raise code clsNone src ids pt d).part q).points = (s.part q).points := by
  obtain ⟨st, h⟩ := State.raise_part s code src ids pt d q; rw [h]

@[simp] theorem State.raise_none_area (s : State) (code : BitVec 16) (src : BitVec 24) (ids : Ids) (pt : Option PartId)
    (d : List Byte) (q : PartId) : ((s.raise code clsNone src ids pt d).part q).area = (s.part q).area := by
  obtain ⟨st, h⟩ := State.raise_part s code src ids pt d q; rw [h]

@[simp] theorem State.raise_none_planDiv2 (s : State) (code : BitVec 16) (src : BitVec 24) (ids : Ids) (pt : Option PartId)
    (d : List Byte) (q : PartId) : ((s.raise code clsNone src ids pt d).part q).planDiv2 = (s.part q).planDiv2 := by
  obtain ⟨st, h⟩ := State.raise_part s code src ids pt d q; rw [h]

@[simp] theorem State.raise_none_planCls (s : State) (code : BitVec 16) (src : BitVec 24) (ids : Ids) (pt : Option PartId)
    (d : List Byte) (q : PartId) : ((s.raise code clsNone src ids pt d).part q).planCls = (s.part q).planCls := by
  obtain ⟨st, h⟩ := State.raise_part s code src ids pt d q; rw [h]

@[simp] theorem State.raise_none_meas (s : State) (code : BitVec 16) (src : BitVec 24) (ids : Ids) (pt : Option PartId)
    (d : List Byte) (q : PartId) : ((s.raise code clsNone src ids pt d).part q).meas = (s.part q).meas := by
  obtain ⟨st, h⟩ := State.raise_part s code src ids pt d q; rw [h]

@[simp] theorem State.raise_none_skipK (s : State) (code : BitVec 16) (src : BitVec 24) (ids : Ids) (pt : Option PartId)
    (d : List Byte) (q : PartId) : ((s.raise code clsNone src ids pt d).part q).skipK = (s.part q).skipK := by
  obtain ⟨st, h⟩ := State.raise_part s code src ids pt d q; rw [h]

@[simp] theorem State.raise_none_fireK (s : State) (code : BitVec 16) (src : BitVec 24) (ids : Ids) (pt : Option PartId)
    (d : List Byte) (q : PartId) : ((s.raise code clsNone src ids pt d).part q).fireK = (s.part q).fireK := by
  obtain ⟨st, h⟩ := State.raise_part s code src ids pt d q; rw [h]

@[simp] theorem State.raise_none_passed (s : State) (code : BitVec 16) (src : BitVec 24) (ids : Ids) (pt : Option PartId)
    (d : List Byte) (q : PartId) : ((s.raise code clsNone src ids pt d).part q).passed = (s.part q).passed := by
  obtain ⟨st, h⟩ := State.raise_part s code src ids pt d q; rw [h]

@[simp] theorem State.raise_none_skipFrom (s : State) (code : BitVec 16) (src : BitVec 24) (ids : Ids) (pt : Option PartId)
    (d : List Byte) (q : PartId) : ((s.raise code clsNone src ids pt d).part q).skipFrom = (s.part q).skipFrom := by
  obtain ⟨st, h⟩ := State.raise_part s code src ids pt d q; rw [h]

@[simp] theorem State.raise_none_capHalt (s : State) (code : BitVec 16) (src : BitVec 24) (ids : Ids) (pt : Option PartId)
    (d : List Byte) (q : PartId) : ((s.raise code clsNone src ids pt d).part q).capHalt = (s.part q).capHalt := by
  obtain ⟨st, h⟩ := State.raise_part s code src ids pt d q; rw [h]

@[simp] theorem State.raise_none_predictW (s : State) (code : BitVec 16) (src : BitVec 24) (ids : Ids) (pt : Option PartId)
    (d : List Byte) (q : PartId) : ((s.raise code clsNone src ids pt d).part q).predictW = (s.part q).predictW := by
  obtain ⟨st, h⟩ := State.raise_part s code src ids pt d q; rw [h]

@[simp] theorem State.raise_none_energy (s : State) (code : BitVec 16) (src : BitVec 24) (ids : Ids) (pt : Option PartId)
    (d : List Byte) (q : PartId) : ((s.raise code clsNone src ids pt d).part q).energy = (s.part q).energy := by
  obtain ⟨st, h⟩ := State.raise_part s code src ids pt d q; rw [h]

@[simp] theorem State.raise_none_batch (s : State) (code : BitVec 16) (src : BitVec 24) (ids : Ids) (pt : Option PartId)
    (d : List Byte) (q : PartId) : ((s.raise code clsNone src ids pt d).part q).batch = (s.part q).batch := by
  obtain ⟨st, h⟩ := State.raise_part s code src ids pt d q; rw [h]

@[simp] theorem State.raise_none_guestBooted (s : State) (code : BitVec 16) (src : BitVec 24) (ids : Ids) (pt : Option PartId)
    (d : List Byte) (q : PartId) : ((s.raise code clsNone src ids pt d).part q).guestBooted = (s.part q).guestBooted := by
  obtain ⟨st, h⟩ := State.raise_part s code src ids pt d q; rw [h]

@[simp] theorem State.raise_none_guestFailed (s : State) (code : BitVec 16) (src : BitVec 24) (ids : Ids) (pt : Option PartId)
    (d : List Byte) (q : PartId) : ((s.raise code clsNone src ids pt d).part q).guestFailed = (s.part q).guestFailed := by
  obtain ⟨st, h⟩ := State.raise_part s code src ids pt d q; rw [h]

@[simp] theorem State.raise_none_boundaryDue (s : State) (code : BitVec 16) (src : BitVec 24) (ids : Ids) (pt : Option PartId)
    (d : List Byte) (q : PartId) : ((s.raise code clsNone src ids pt d).part q).boundaryDue = (s.part q).boundaryDue := by
  obtain ⟨st, h⟩ := State.raise_part s code src ids pt d q; rw [h]

@[simp] theorem State.raise_none_residents (s : State) (code : BitVec 16) (src : BitVec 24) (ids : Ids) (pt : Option PartId)
    (d : List Byte) (q : PartId) : ((s.raise code clsNone src ids pt d).part q).residents = (s.part q).residents := by
  obtain ⟨st, h⟩ := State.raise_part s code src ids pt d q; rw [h]

@[simp] theorem State.raise_none_repairs (s : State) (code : BitVec 16) (src : BitVec 24) (ids : Ids) (pt : Option PartId)
    (d : List Byte) (q : PartId) : ((s.raise code clsNone src ids pt d).part q).repairs = (s.part q).repairs := by
  obtain ⟨st, h⟩ := State.raise_part s code src ids pt d q; rw [h]

@[simp] theorem State.raise_none_retire (s : State) (code : BitVec 16) (src : BitVec 24) (ids : Ids) (pt : Option PartId)
    (d : List Byte) (q : PartId) : ((s.raise code clsNone src ids pt d).part q).retire = (s.part q).retire := by
  obtain ⟨st, h⟩ := State.raise_part s code src ids pt d q; rw [h]

@[simp] theorem State.raise_none_dlLen (s : State) (code : BitVec 16) (src : BitVec 24) (ids : Ids) (pt : Option PartId)
    (d : List Byte) (q : PartId) : ((s.raise code clsNone src ids pt d).part q).dlLen = (s.part q).dlLen := by
  obtain ⟨st, h⟩ := State.raise_part s code src ids pt d q; rw [h]

@[simp] theorem State.raise_none_pageReload (s : State) (code : BitVec 16) (src : BitVec 24) (ids : Ids) (pt : Option PartId)
    (d : List Byte) (q : PartId) : ((s.raise code clsNone src ids pt d).part q).pageReload = (s.part q).pageReload := by
  obtain ⟨st, h⟩ := State.raise_part s code src ids pt d q; rw [h]

@[simp] theorem State.raise_none_restoreDue (s : State) (code : BitVec 16) (src : BitVec 24) (ids : Ids) (pt : Option PartId)
    (d : List Byte) (q : PartId) : ((s.raise code clsNone src ids pt d).part q).restoreDue = (s.part q).restoreDue := by
  obtain ⟨st, h⟩ := State.raise_part s code src ids pt d q; rw [h]

@[simp] theorem State.raise_none_restoreFailed (s : State) (code : BitVec 16) (src : BitVec 24) (ids : Ids) (pt : Option PartId)
    (d : List Byte) (q : PartId) : ((s.raise code clsNone src ids pt d).part q).restoreFailed = (s.part q).restoreFailed := by
  obtain ⟨st, h⟩ := State.raise_part s code src ids pt d q; rw [h]

@[simp] theorem State.raise_none_verifyAt (s : State) (code : BitVec 16) (src : BitVec 24) (ids : Ids) (pt : Option PartId)
    (d : List Byte) (q : PartId) : ((s.raise code clsNone src ids pt d).part q).verifyAt = (s.part q).verifyAt := by
  obtain ⟨st, h⟩ := State.raise_part s code src ids pt d q; rw [h]

@[simp] theorem State.raise_none_verifyTile (s : State) (code : BitVec 16) (src : BitVec 24) (ids : Ids) (pt : Option PartId)
    (d : List Byte) (q : PartId) : ((s.raise code clsNone src ids pt d).part q).verifyTile = (s.part q).verifyTile := by
  obtain ⟨st, h⟩ := State.raise_part s code src ids pt d q; rw [h]

@[simp] theorem State.raise_none_verifyFrame (s : State) (code : BitVec 16) (src : BitVec 24) (ids : Ids) (pt : Option PartId)
    (d : List Byte) (q : PartId) : ((s.raise code clsNone src ids pt d).part q).verifyFrame = (s.part q).verifyFrame := by
  obtain ⟨st, h⟩ := State.raise_part s code src ids pt d q; rw [h]

@[simp] theorem State.raise_none_layoutNew (s : State) (code : BitVec 16) (src : BitVec 24) (ids : Ids) (pt : Option PartId)
    (d : List Byte) (q : PartId) : ((s.raise code clsNone src ids pt d).part q).layoutNew = (s.part q).layoutNew := by
  obtain ⟨st, h⟩ := State.raise_part s code src ids pt d q; rw [h]

@[simp] theorem State.raise_none_enrolDue (s : State) (code : BitVec 16) (src : BitVec 24) (ids : Ids) (pt : Option PartId)
    (d : List Byte) (q : PartId) : ((s.raise code clsNone src ids pt d).part q).enrolDue = (s.part q).enrolDue := by
  obtain ⟨st, h⟩ := State.raise_part s code src ids pt d q; rw [h]

@[simp] theorem State.raise_none_rearmDue (s : State) (code : BitVec 16) (src : BitVec 24) (ids : Ids) (pt : Option PartId)
    (d : List Byte) (q : PartId) : ((s.raise code clsNone src ids pt d).part q).rearmDue = (s.part q).rearmDue := by
  obtain ⟨st, h⟩ := State.raise_part s code src ids pt d q; rw [h]

@[simp] theorem State.raise_none_slackStopped (s : State) (code : BitVec 16) (src : BitVec 24) (ids : Ids) (pt : Option PartId)
    (d : List Byte) (q : PartId) : ((s.raise code clsNone src ids pt d).part q).slackStopped = (s.part q).slackStopped := by
  obtain ⟨st, h⟩ := State.raise_part s code src ids pt d q; rw [h]

@[simp] theorem State.raise_none_channel (s : State) (code : BitVec 16) (src : BitVec 24) (ids : Ids) (pt : Option PartId)
    (d : List Byte) (q : PartId) : ((s.raise code clsNone src ids pt d).part q).channel = (s.part q).channel := by
  obtain ⟨st, h⟩ := State.raise_part s code src ids pt d q; rw [h]

@[simp] theorem State.raise_none_chanDropped (s : State) (code : BitVec 16) (src : BitVec 24) (ids : Ids) (pt : Option PartId)
    (d : List Byte) (q : PartId) : ((s.raise code clsNone src ids pt d).part q).chanDropped = (s.part q).chanDropped := by
  obtain ⟨st, h⟩ := State.raise_part s code src ids pt d q; rw [h]

@[simp] theorem State.raise_none_graphRec (s : State) (code : BitVec 16) (src : BitVec 24) (ids : Ids) (pt : Option PartId)
    (d : List Byte) (q : PartId) : ((s.raise code clsNone src ids pt d).part q).graphRec = (s.part q).graphRec := by
  obtain ⟨st, h⟩ := State.raise_part s code src ids pt d q; rw [h]

end Sys2Proof.Machine
end

