-- ==== Sys2Proof/Laws/Memory.lean ====
section
/-! SUPPORT. The canonical form of the block's memories under the operations of Machine/Ops.lean and the copies of
Machine/Fatal.lean: what the proof that every step keeps it cites. -/

namespace Sys2Proof.Machine

/-- A copy between memories keeps the canonical form. -/
theorem Mem.wf_copy (src : Store Byte) (a n : Nat) {dst : Store Byte} (b : Nat) (h : Mem.wf dst = true) :
    Mem.wf (Mem.copy src a n dst b) = true :=
  Mem.wf_foldl _ _ (fun _ _ hm => Mem.wf_write hm _ _) (Mem.wf_filter h _)

/-- A range cleared keeps the canonical form. -/
theorem Mem.wf_clear {m : Store Byte} (a n : Nat) (h : Mem.wf m = true) : Mem.wf (Mem.clear m a n) = true :=
  Mem.wf_filter h _

/-- The form, memory by memory. -/
theorem State.memOk_iff (s : State) :
    s.memOk = true ↔ Mem.wf s.hbm = true ∧ ∀ x ∈ s.tiles, Mem.wf x.2.sp = true := by
  simp [State.memOk, State.hbmOk, State.spOk]

/-- A state with the same tiles and HBM has the form too. -/
theorem State.memOk_congr {s s' : State} (ht : s'.tiles = s.tiles) (hh : s'.hbm = s.hbm) :
    s'.memOk = s.memOk := by
  simp [State.memOk, State.hbmOk, State.spOk, ht, hh]

theorem Store.get_mem_or {α : Type} (d : α) (m : Store α) (k : Nat) :
    Store.get d m k = d ∨ (k, Store.get d m k) ∈ m := by
  induction m with
  | nil => exact .inl rfl
  | cons c m ih =>
    obtain ⟨k', v⟩ := c
    by_cases h : k' = k
    · subst h; simp [Store.get]
    · simp only [Store.get, h, if_false, List.mem_cons]
      exact ih.imp id .inr

/-- The scratchpad of every tile has the form, listed or not. -/
theorem State.wf_sp {s : State} (h : s.memOk = true) (t : TileId) : Mem.wf (s.tile t).sp = true := by
  rw [State.memOk_iff] at h
  rcases Store.get_mem_or { epochSeed := s.epochBase } s.tiles t.val with e | e
  · rw [State.tile, e]; rfl
  · exact h.2 _ e

/-- A tile put in whose scratchpad has the form. -/
theorem State.memOk_setTile {s : State} (h : s.memOk = true) (t : TileId) (v : Tile) (hv : Mem.wf v.sp = true) :
    (s.setTile t v).memOk = true := by
  rw [State.memOk_iff] at h ⊢
  refine ⟨h.1, fun x hx => ?_⟩
  rcases Store.mem_set hx with rfl | hx
  · exact hv
  · exact h.2 x hx

/-- A change of a tile that keeps the form of its scratchpad. -/
theorem State.memOk_modTile {s : State} (h : s.memOk = true) (t : TileId) (f : Tile → Tile)
    (hf : ∀ tl : Tile, Mem.wf tl.sp = true → Mem.wf (f tl).sp = true) : (s.modTile t f).memOk = true :=
  State.memOk_setTile h t _ (hf _ (State.wf_sp h t))

/-- A change of a tile that leaves its scratchpad alone. -/
theorem State.memOk_modTile_same {s : State} (h : s.memOk = true) (t : TileId) (f : Tile → Tile)
    (hf : ∀ tl : Tile, (f tl).sp = tl.sp) : (s.modTile t f).memOk = true :=
  State.memOk_modTile h t f fun tl hm => by rw [hf]; exact hm

/-- Bytes written to the scratchpad. -/
theorem Tile.wf_spWrite {tl : Tile} (h : Mem.wf tl.sp = true) (a : Nat) (l : List Byte) :
    Mem.wf (tl.spWrite a l).sp = true := Mem.wf_writeBytes h a l

/-- Late writes that land keep the form. -/
theorem Tile.wf_putLate (l : List LateWrite) {tl : Tile} (h : Mem.wf tl.sp = true) : Mem.wf (tl.putLate l).sp = true := by
  induction l generalizing tl with
  | nil => exact h
  | cons w l ih => exact ih (Tile.wf_spWrite h _ _)

/-- The writes of the cycles before one land. -/
theorem Tile.wf_landLate {tl : Tile} (h : Mem.wf tl.sp = true) (c : Nat) : Mem.wf (tl.landLate c).sp = true := by
  unfold Tile.landLate
  split
  · exact h
  · exact Tile.wf_putLate _ h

/-- All late writes land. -/
theorem Tile.wf_landAll {tl : Tile} (h : Mem.wf tl.sp = true) : Mem.wf tl.landAll.sp = true := by
  unfold Tile.landAll
  split
  · exact h
  · exact Tile.wf_putLate _ h

/-- A write that is to come leaves the scratchpad as it stands. -/
@[simp] theorem Tile.writeLate_sp (tl : Tile) (c a : Nat) (l : List Byte) : (tl.writeLate c a l).sp = tl.sp := rfl

/-- Bytes written to HBM. -/
theorem State.memOk_hbmWrite {s : State} (h : s.memOk = true) (a : Nat) (l : List Byte) :
    (s.hbmWrite a l).memOk = true := by
  rw [State.memOk_iff] at h ⊢
  exact ⟨Mem.wf_writeBytes h.1 a l, h.2⟩

/-- Bytes written at a partition's addresses. -/
theorem State.memOk_partWrite {s : State} (h : s.memOk = true) (p : PartId) (a : Nat) (l : List Byte) :
    (s.partWrite p a l).memOk = true := by
  rw [State.memOk_iff] at h ⊢
  refine ⟨Mem.wf_foldl _ _ (fun m x hm => ?_) h.1, h.2⟩
  split <;> first | exact Mem.wf_write hm _ _ | exact hm

/-- What each member of a list does keeps the form, so all of them in turn keep it. -/
theorem State.memOk_each {α : Type} {s : State} (l : List α) (f : State → α → State)
    (hf : ∀ s x, s.memOk = true → (f s x).memOk = true) (h : s.memOk = true) : (s.each l f).memOk = true := by
  unfold State.each
  induction l generalizing s with
  | nil => exact h
  | cons x l ih => exact ih (hf s x h)

end Sys2Proof.Machine
end

