-- ==== Sys2Proof/Laws/Micro.lean ====
section
/-! SUPPORT. What an issued micro-op does, once: the verdict that lets it issue, its begin, its retirement, and the end of
a wait. -/

namespace Sys2Proof.Machine

/-- What issuing asks: the verdict and no page in hand. -/
theorem State.issues_iff {s : State} {t : TileId} {i : Instr} {w : BitVec 128} (hw : encode i = some w) :
    s.issues t i = true ↔ s.verdict t w = .accepted ∧ ((s.due t).tile t).pageHold = none := by
  simp [State.issues, hw]

theorem State.modTile_const (s : State) (t : TileId) (f : Tile → Tile) :
    s.modTile t f = s.modTile t fun _ => f (s.tile t) := rfl

theorem State.begin_issued {s : State} {t : TileId} (id : Ids) (h : (s.tile t).pageHold = none) :
    s.begin_ t id = s.issued t ((s.tile t).begun id) := by
  rw [State.begin_free _ _ _ h, State.modTile_const]
  rfl

theorem State.issued_modTile (s : State) (t : TileId) (x : Tile) (f : Tile → Tile) :
    (s.issued t x).modTile t f = s.issued t (f x) := by
  rw [State.issued, State.count_modTile, State.modTile_modTile]
  rfl

theorem State.issued_retire (s : State) (t : TileId) (x : Tile) : (s.issued t x).retire t = s.issued t x.next := by
  rw [State.retire, State.issued_modTile]
  rfl

@[simp] theorem State.issued_tile (s : State) (t : TileId) (x : Tile) : (s.issued t x).tile t = x := by
  simp [State.issued]

/-- An issued micro-op does its effect on the state in which what was due at its tile has come about. -/
theorem State.issue_issues {s : State} {t : TileId} {i : Instr} {w : BitVec 128} (eff : State → State)
    (hw : encode i = some w) (h : s.issues t i = true) : s.issue t w eff = eff (s.due t) :=
  s.issue_accepted t w eff ((State.issues_iff hw).mp h).1

/-- A control micro-op that issues. -/
theorem State.control_issues {s : State} {t : TileId} {i : Instr} {w : BitVec 128} (id : Ids) (f : Tile → Tile)
    (hw : encode i = some w) (h : s.issues t i = true) :
    s.issue t w (fun s => s.control t id f) = (s.due t).issued t (f (((s.due t).tile t).begun id)).next := by
  rw [State.issue_issues _ hw h, State.control, State.begin_issued id ((State.issues_iff hw).mp h).2,
    State.issued_modTile, State.issued_retire]

/-- With nothing due at the tile, a micro-op meets the state as it stands. -/
theorem State.due_idle {s : State} {t : TileId} (h : s.idleAt t = true) : s.due t = s := by
  simp only [State.idleAt, Bool.and_eq_true, List.isEmpty_iff] at h
  obtain ⟨⟨h1, h2⟩, h3⟩ := h
  simp [State.due, State.flushSamples, State.settleDma, State.serveAll, State.serveSome, State.each, h1, h2, h3]

/-- The end of a wait. -/
theorem State.release_eq (s : State) (t : TileId) (w : Nat) :
    s.release t w = (s.modTile t fun _ => { s.tile t with seq := { (s.tile t).seq with
      st := if (s.tile t).hasImage then .issuing else .idle, why := .none, waitArg := 0, overBudget := false
      waitUop := none, ac := max (s.tile t).seq.ac ((s.tile t).seq.waitFrom + w) + 1
      pc := (s.tile t).seq.pc + 1 } }).count (clusterOf t) 12 w := rfl

@[simp] theorem Tile.begun_hasImage (tl : Tile) (id : Ids) : (tl.begun id).hasImage = tl.hasImage := by simp [Tile.begun]
@[simp] theorem Tile.begun_q (tl : Tile) (id : Ids) : (tl.begun id).q = tl.q := by simp [Tile.begun]
@[simp] theorem Tile.begun_n (tl : Tile) (id : Ids) : (tl.begun id).n = tl.n := by simp [Tile.begun]
@[simp] theorem Tile.begun_ctr (tl : Tile) (id : Ids) : (tl.begun id).ctr = tl.ctr := by simp [Tile.begun]
@[simp] theorem Tile.begun_ibuf (tl : Tile) (id : Ids) : (tl.begun id).ibuf = tl.ibuf := by simp [Tile.begun]
@[simp] theorem Tile.begun_ibufPar (tl : Tile) (id : Ids) : (tl.begun id).ibufPar = tl.ibufPar := by simp [Tile.begun]
@[simp] theorem Tile.begun_qInit (tl : Tile) (id : Ids) : (tl.begun id).qInit = tl.qInit := by simp [Tile.begun]
@[simp] theorem Tile.begun_nInit (tl : Tile) (id : Ids) : (tl.begun id).nInit = tl.nInit := by simp [Tile.begun]
@[simp] theorem Tile.begun_map (tl : Tile) (id : Ids) : (tl.begun id).map = tl.map := by simp [Tile.begun]
@[simp] theorem Tile.begun_psets (tl : Tile) (id : Ids) : (tl.begun id).psets = tl.psets := by simp [Tile.begun]
@[simp] theorem Tile.begun_num (tl : Tile) (id : Ids) : (tl.begun id).num = tl.num := by simp [Tile.begun]
@[simp] theorem Tile.begun_check (tl : Tile) (id : Ids) : (tl.begun id).check = tl.check := by simp [Tile.begun]
@[simp] theorem Tile.begun_stat (tl : Tile) (id : Ids) : (tl.begun id).stat = tl.stat := by simp [Tile.begun]
@[simp] theorem Tile.begun_statUntil (tl : Tile) (id : Ids) : (tl.begun id).statUntil = tl.statUntil := by simp [Tile.begun]
@[simp] theorem Tile.begun_samples (tl : Tile) (id : Ids) : (tl.begun id).samples = tl.samples := by simp [Tile.begun]
@[simp] theorem Tile.begun_passes (tl : Tile) (id : Ids) : (tl.begun id).passes = tl.passes := by simp [Tile.begun]
@[simp] theorem Tile.begun_streams (tl : Tile) (id : Ids) : (tl.begun id).streams = tl.streams := by simp [Tile.begun]
@[simp] theorem Tile.begun_landings (tl : Tile) (id : Ids) : (tl.begun id).landings = tl.landings := by simp [Tile.begun]
@[simp] theorem Tile.begun_replay (tl : Tile) (id : Ids) : (tl.begun id).replay = tl.replay := by simp [Tile.begun]
@[simp] theorem Tile.begun_ops (tl : Tile) (id : Ids) : (tl.begun id).ops = tl.ops := by simp [Tile.begun]
@[simp] theorem Tile.begun_opSeq (tl : Tile) (id : Ids) : (tl.begun id).opSeq = tl.opSeq := by simp [Tile.begun]
@[simp] theorem Tile.begun_paths (tl : Tile) (id : Ids) : (tl.begun id).paths = tl.paths := by simp [Tile.begun]
@[simp] theorem Tile.begun_unitsUntil (tl : Tile) (id : Ids) : (tl.begun id).unitsUntil = tl.unitsUntil := by simp [Tile.begun]
@[simp] theorem Tile.begun_pageHold (tl : Tile) (id : Ids) : (tl.begun id).pageHold = tl.pageHold := by simp [Tile.begun]
@[simp] theorem Tile.begun_late (tl : Tile) (id : Ids) : (tl.begun id).late = tl.late := by simp [Tile.begun]
@[simp] theorem Tile.begun_sp (tl : Tile) (id : Ids) : (tl.begun id).sp = tl.sp := by simp [Tile.begun]
@[simp] theorem Tile.begun_spPar (tl : Tile) (id : Ids) : (tl.begun id).spPar = tl.spPar := by simp [Tile.begun]
@[simp] theorem Tile.begun_spBanks (tl : Tile) (id : Ids) : (tl.begun id).spBanks = tl.spBanks := by simp [Tile.begun]
@[simp] theorem Tile.begun_handles (tl : Tile) (id : Ids) : (tl.begun id).handles = tl.handles := by simp [Tile.begun]
@[simp] theorem Tile.begun_epochSeed (tl : Tile) (id : Ids) : (tl.begun id).epochSeed = tl.epochSeed := by simp [Tile.begun]
@[simp] theorem Tile.begun_windows (tl : Tile) (id : Ids) : (tl.begun id).windows = tl.windows := by simp [Tile.begun]
@[simp] theorem Tile.begun_writes (tl : Tile) (id : Ids) : (tl.begun id).writes = tl.writes := by simp [Tile.begun]
@[simp] theorem Tile.begun_held (tl : Tile) (id : Ids) : (tl.begun id).held = tl.held := by simp [Tile.begun]
@[simp] theorem Tile.begun_cur (tl : Tile) (id : Ids) : (tl.begun id).cur = tl.cur := by simp [Tile.begun]
@[simp] theorem Tile.begun_nxt (tl : Tile) (id : Ids) : (tl.begun id).nxt = tl.nxt := by simp [Tile.begun]
@[simp] theorem Tile.begun_nacks (tl : Tile) (id : Ids) : (tl.begun id).nacks = tl.nacks := by simp [Tile.begun]
@[simp] theorem Tile.begun_lastReason (tl : Tile) (id : Ids) : (tl.begun id).lastReason = tl.lastReason := by simp [Tile.begun]
@[simp] theorem Tile.begun_discards (tl : Tile) (id : Ids) : (tl.begun id).discards = tl.discards := by simp [Tile.begun]
@[simp] theorem Tile.begun_busyCount (tl : Tile) (id : Ids) : (tl.begun id).busyCount = tl.busyCount := by simp [Tile.begun]
@[simp] theorem Tile.begun_twin (tl : Tile) (id : Ids) : (tl.begun id).twin = tl.twin := by simp [Tile.begun]
@[simp] theorem Tile.begun_step (tl : Tile) (id : Ids) : (tl.begun id).step = tl.step := by simp [Tile.begun]
@[simp] theorem Tile.begun_bankSteps (tl : Tile) (id : Ids) : (tl.begun id).bankSteps = tl.bankSteps := by simp [Tile.begun]
@[simp] theorem Tile.begun_tw (tl : Tile) (id : Ids) : (tl.begun id).tw = tl.tw := by simp [Tile.begun]
@[simp] theorem Tile.begun_verify (tl : Tile) (id : Ids) : (tl.begun id).verify = tl.verify := by simp [Tile.begun]
@[simp] theorem Tile.begun_wp (tl : Tile) (id : Ids) : (tl.begun id).wp = tl.wp := by simp [Tile.begun]
@[simp] theorem Tile.begun_repair (tl : Tile) (id : Ids) : (tl.begun id).repair = tl.repair := by simp [Tile.begun]

@[simp] theorem Tile.begun_seq_st (tl : Tile) (id : Ids) : (tl.begun id).seq.st = tl.seq.st := by simp [Tile.begun, Tile.modSeq]
@[simp] theorem Tile.begun_seq_why (tl : Tile) (id : Ids) : (tl.begun id).seq.why = tl.seq.why := by simp [Tile.begun, Tile.modSeq]
@[simp] theorem Tile.begun_seq_waitArg (tl : Tile) (id : Ids) : (tl.begun id).seq.waitArg = tl.seq.waitArg := by simp [Tile.begun, Tile.modSeq]
@[simp] theorem Tile.begun_seq_waitFrom (tl : Tile) (id : Ids) : (tl.begun id).seq.waitFrom = tl.seq.waitFrom := by simp [Tile.begun, Tile.modSeq]
@[simp] theorem Tile.begun_seq_waitK (tl : Tile) (id : Ids) : (tl.begun id).seq.waitK = tl.seq.waitK := by simp [Tile.begun, Tile.modSeq]
@[simp] theorem Tile.begun_seq_pc (tl : Tile) (id : Ids) : (tl.begun id).seq.pc = tl.seq.pc := by simp [Tile.begun, Tile.modSeq]
@[simp] theorem Tile.begun_seq_start (tl : Tile) (id : Ids) : (tl.begun id).seq.start = tl.seq.start := by simp [Tile.begun, Tile.modSeq]
@[simp] theorem Tile.begun_seq_ac (tl : Tile) (id : Ids) : (tl.begun id).seq.ac = tl.seq.ac := by simp [Tile.begun, Tile.modSeq]
@[simp] theorem Tile.begun_seq_frozen (tl : Tile) (id : Ids) : (tl.begun id).seq.frozen = tl.seq.frozen := by simp [Tile.begun, Tile.modSeq]
@[simp] theorem Tile.begun_seq_soft (tl : Tile) (id : Ids) : (tl.begun id).seq.soft = tl.seq.soft := by simp [Tile.begun, Tile.modSeq]
@[simp] theorem Tile.begun_seq_started (tl : Tile) (id : Ids) : (tl.begun id).seq.started = tl.seq.started := by simp [Tile.begun, Tile.modSeq]
@[simp] theorem Tile.begun_seq_done (tl : Tile) (id : Ids) : (tl.begun id).seq.done = tl.seq.done := by simp [Tile.begun, Tile.modSeq]
@[simp] theorem Tile.begun_seq_overBudget (tl : Tile) (id : Ids) : (tl.begun id).seq.overBudget = tl.seq.overBudget := by simp [Tile.begun, Tile.modSeq]
@[simp] theorem Tile.begun_seq_parTries (tl : Tile) (id : Ids) : (tl.begun id).seq.parTries = tl.seq.parTries := by simp [Tile.begun, Tile.modSeq]
@[simp] theorem Tile.begun_seq_parWord (tl : Tile) (id : Ids) : (tl.begun id).seq.parWord = tl.seq.parWord := by simp [Tile.begun, Tile.modSeq]
@[simp] theorem Tile.begun_seq_parIds (tl : Tile) (id : Ids) : (tl.begun id).seq.parIds = tl.seq.parIds := by simp [Tile.begun, Tile.modSeq]
@[simp] theorem Tile.begun_seq_parBack (tl : Tile) (id : Ids) : (tl.begun id).seq.parBack = tl.seq.parBack := by simp [Tile.begun, Tile.modSeq]
@[simp] theorem Tile.begun_seq_waitUop (tl : Tile) (id : Ids) : (tl.begun id).seq.waitUop = tl.seq.waitUop := by simp [Tile.begun, Tile.modSeq]
@[simp] theorem Tile.begun_seq_parity (tl : Tile) (id : Ids) : (tl.begun id).seq.parity = tl.seq.parity := by simp [Tile.begun, Tile.modSeq]
@[simp] theorem Tile.begun_seq_chkReplay (tl : Tile) (id : Ids) : (tl.begun id).seq.chkReplay = tl.seq.chkReplay := by simp [Tile.begun, Tile.modSeq]
@[simp] theorem Tile.begun_seq_wake (tl : Tile) (id : Ids) : (tl.begun id).seq.wake = tl.seq.wake := by simp [Tile.begun, Tile.modSeq]
@[simp] theorem Tile.begun_seq_twalk (tl : Tile) (id : Ids) : (tl.begun id).seq.twalk = tl.seq.twalk := by simp [Tile.begun, Tile.modSeq]

@[simp] theorem Tile.begun_counter (tl : Tile) (id : Ids) (i : Nat) : (tl.begun id).counter i = tl.counter i := by
  simp [Tile.counter]

end Sys2Proof.Machine
end

