-- ==== Sys2Proof/WellFormed.lean ====
section
/-! DEFINITION. The commands whose operands fit together: micro-ops that no refusal of R511 meets on their own fields,
messages whose data have the length their header gives. -/

namespace Sys2Proof

/-- A put segment that is not malformed, with at most the 8,192 B of the transport (R254, R297). -/
def putWf (h : PutHdr) (data : List Byte) : Bool :=
  decide (data.length = h.slm1.toNat + 1) && decide (data.length ≤ 8192) &&
    decide (h.sofs.toNat + h.slm1.toNat ≤ h.wlm1.toNat)

/-- A read data segment holds the units of 64 B that SLM1 counts, the last one perhaps in part (R254). -/
def readSegWf (r : ReadSeg) (data : List Byte) : Bool :=
  decide (data.length ≤ 64 * (r.slm1.toNat + 1)) && decide (64 * r.slm1.toNat < data.length)

/-- A micro-op that no check on its own fields refuses, with the largest rendezvous table (R511, R175). -/
def uopWf (w : BitVec 128) : Bool := !uopRefused 1024 w

/-- The form of a command. -/
def Instr.wellFormed (i : Instr) : Bool :=
  match encode i with
  | some w => uopWf w
  | none =>
    match i with
    | .putSegmentReceive _ h data _ => putWf h data
    | .readDataSegmentReceive r data => readSegWf r data
    | .readList _ _ _ items => decide (1 ≤ items.length) && decide (items.length ≤ 64)
    | _ => true

end Sys2Proof
end

