-- ==== Sys2Proof/Tests/Slice0.lean ====
section
/-! SUPPORT. Own tests: witnesses that meet the hypotheses of the statements, ill-formed commands that each check
refuses, worked examples of the chapters, single steps. A theorem witness_<statement> or witness_<statement>_<part>
shows states and operands that meet the hypotheses of every clause of that statement, or of the clauses of that part. -/

namespace Sys2Proof.Tests

set_option maxRecDepth 20000
set_option Elab.async false

open Machine

/-! ### States of the witnesses -/

/-- A device in service with every domain on; the default layout gives partition 0 all of it. -/
def up : State := { phase := .service, domains := (List.range 30).map fun n => (n, DomSt.on) }

/-- The device with tile 0 as given. -/
def with0 (tl : Tile) : State := { up with tiles := [(0, tl)] }

/-- The device with partition 0 as given. -/
def withP (pt : Part) : State := { up with parts := [(0, pt)] }

/-- The device with tile 0 and partition 0 as given. -/
def withTP (tl : Tile) (pt : Part) : State := { up with tiles := [(0, tl)], parts := [(0, pt)] }

/-- Tags of the example of chapter 05. -/
def ids : Ids := { layer := 3, opid := 0x31 }

/-- A tile whose sequencer waits. -/
def waits (w : WaitWhy) : Tile := { seq := { st := .waiting, why := w } }

/-- A rendezvous point: SCOPE, LOCAL, REMOTE, GROUP, NCRED (R173). -/
def pointOf (scope loc rem grp ncred : Nat) : BitVec 128 :=
  BitVec.ofNat 128 (scope * 2 ^ 126 + loc * 2 ^ 104 + rem * 2 ^ 96 + grp * 2 ^ 88 + ncred * 2 ^ 80)

/-- Partition 0 with an image of one point, of two local arrivals, and the point's counts. -/
def pointPart (e : BitVec 128) (x : Point) : Part := { image := some { points := [e] }, points := [(0, x)] }

/-! ### Sequencer -/

theorem witness_ControlMicroOpsAdvance_NopAndWaitcCountAdvance :
    up.issues 0 (.nop 0 ids 0) = true ∧ up.issues 0 (.waitcCount 0 ids { count := 1, rsvd := 0 }) = true ∧
    up.issues 0 (.waitcCount 0 ids { count := 0xFFFFF, rsvd := 0 }) = true := by decide +kernel

theorem witness_ControlMicroOpsAdvance_LoopModesWriteAndBranch :
    up.issues 0 (.loopSetn 0 ids { n := 3, value := 0xFFFFF, rsvd := 0 }) = true ∧
    up.issues 0 (.loopSetq 0 ids { q := 7, rsvd := 0, value := 0x8000000000000001 }) = true ∧
    up.issues 0 (.loopBranch 0 ids { n := 0, rsvd1 := 0, target := 4095, rsvd0 := 0 }) = true ∧
    Store.get 0 ((up.due 0).tile 0).n 0 = (0 : BitVec 20) ∧
    (with0 { n := [(0, 1)] }).issues 0 (.loopBranch 0 ids { n := 0, rsvd1 := 0, target := 0, rsvd0 := 0 }) = true ∧
    Store.get 0 (((with0 { n := [(0, 1)] }).due 0).tile 0).n 0 ≠ (0 : BitVec 20) ∧
    up.issues 0 (.loopJump 0 ids { rsvd1 := 0, target := 4095, rsvd0 := 0 }) = true := by decide +kernel

/-- One operation of counter 0 is not complete. -/
def busyCounter : Tile := { ctr := [(0, { issued := 1, done := 0 })] }

theorem witness_ControlMicroOpsAdvance_WaitGateAndTestWindow :
    up.issues 0 (.waitcDone 0 ids { cnt := 3, k := 0, rsvd := 0 }) = true ∧ (((up.due 0).tile 0).counter 3).open_ ≤ 0 ∧
    (with0 busyCounter).issues 0 (.waitcDone 0 ids { cnt := 0, k := 0, rsvd := 0 }) = true ∧
    0 < ((((with0 busyCounter).due 0).tile 0).counter 0).open_ ∧
    up.issues 0 (.gate 0 ids { start := 4095, rsvd := 0 }) = true ∧
    up.issues 0 (.twin 0 ids { macros := 1, spbanks := 8, wlen := 1, rsvd := 0 }) = true ∧ ((up.due 0).tile 0).twinMeets 8 = [] := by
  decide +kernel

/-- A tile that waits at a point which is done from die cycle 5 on. -/
def rdvDone : State := withTP (waits .rdv) (pointPart (pointOf 0 1 0 0 0) { locals := 1, doneA := 5 })

theorem witness_ControlMicroOpsAdvance_WaitsEndOneAcBeforeNextIssue :
    (with0 (waits .bank)).tileUp 0 = true ∧ ((with0 (waits .bank)).tile 0).seq.st = .waiting ∧
    ((with0 (waits .bank)).tile 0).seq.why = .bank ∧ (((with0 (waits .bank)).tile 0).counter 0).open_ ≤ 0 ∧
    rdvDone.tileUp 0 = true ∧ (rdvDone.tile 0).seq.st = .waiting ∧ (rdvDone.tile 0).seq.why = .rdv ∧
    rdvDone.tileOwner? 0 = some 0 ∧ rdvDone.pointDone 0 0 = true ∧
    max 0 (rdvDone.latencyLeft 0 0 0) ≤ rdvDone.budgetAc 0 0 := by decide +kernel

theorem witness_ControlMicroOpsAdvance_HintAnnouncesPhase :
    up.issues 0 (.hint 0 ids { level := 15, dist := 0xFFFFF, plen := 0, rsvd := 0 }) = true := by decide +kernel

/-! ### Rendezvous -/

/-- Tile 0 of a partition whose point 0 is of fabric scope and misses its last local arrival. -/
def atPoint : State := withTP {} (pointPart (pointOf 3 2 1 5 0) { locals := 1 })

theorem witness_RendezvousCountsAndWaits_ArrivalIsCountedAtItsPoint :
    (atPoint.due 0).tileOwner? 0 = some 0 ∧ ((atPoint.due 0).pointTable 0)[0]? = some (pointOf 3 2 1 5 0) ∧
    (((atPoint.due 0).part 0).point 0).locals < hf (pointOf 3 2 1 5 0) 113 104 ∧
    atPoint.issues 0 (.rdvArrive 0 ids { rid := 0, grant := 1, rsvd := 0 }) = true ∧
    atPoint.issues 0 (.rdvArriveWait 0 ids { rid := 0, grant := 0, rsvd := 0 }) = true := by decide +kernel

/-- Tile 0 before a point that is complete. -/
def donePoint : State := withTP {} (pointPart (pointOf 0 1 0 0 0) { locals := 1 })

theorem witness_RendezvousCountsAndWaits_RdvWaitEndsOrWaits :
    donePoint.issues 0 (.rdvWait 0 ids { rid := 0, grant := 0, rsvd := 0 }) = true ∧
    (donePoint.due 0).tileOwner? 0 = some 0 ∧ (donePoint.due 0).pointDone 0 0 = true ∧
    (((donePoint.due 0).part 0).point 0).cancelled = false ∧
    (((donePoint.due 0).part 0).point 0).doneOn (dieOf 0) ≤ (donePoint.due 0).tileTime 0 0 ∧
    atPoint.issues 0 (.rdvWait 0 ids { rid := 0, grant := 0, rsvd := 0 }) = true ∧
    (atPoint.due 0).pointDone 0 0 = false := by
  decide +kernel

theorem witness_RendezvousCountsAndWaits_OverBudgetIsCountedAndNoFault :
    rdvDone.tileOwner? 0 = some 0 ∧ (rdvDone.tile 0).seq.st = .waiting ∧ (rdvDone.tile 0).seq.why = .rdv ∧
    (rdvDone.tile 0).seq.overBudget = false ∧ rdvDone.budgetAc 0 0 < 100000 := by decide +kernel

/-! ### Frames of a tile -/

/-- Tile 0 at its gate in a frame of partition 0 that is in progress. -/
def atGate : State := withTP { waits .gate with hasImage := true } { run := { active := true } }

/-- The same when its done report is due. -/
def atGateDue : State := (atGate.modTile 0 fun tl => tl.modSeq fun q => { q with ac := max q.ac (q.waitFrom + 0) }).due 0

theorem witness_FrameOfTileStartsAndEnds_QuietTileReportsDone :
    atGate.tileUp 0 = true ∧ (atGate.tile 0).seq.st = .waiting ∧ (atGate.tile 0).seq.why = .gate ∧
    (atGate.tile 0).seq.done = false ∧ atGate.tileOwner? 0 = some 0 ∧ (atGateDue.part 0).run.active = true ∧
    (atGateDue.tile 0).settle.quiet = true ∧ ∀ a < 8, ((atGateDue.tile 0).settle.slot a).st = .free := by
  decide +kernel

theorem witness_FrameOfTileStartsAndEnds_ClusterStartsAllItsTiles :
    atGate.owner? 0 = some 0 ∧ (atGate.part 0).run.active = true ∧ (atGate.part 0).run.stopped = false := by
  decide +kernel

theorem witness_FrameOfTileStartsAndEnds_FrameStartLoadsRegisters :
    (withP { armed := true }).live = true ∧ ((withP { armed := true }).part 0).armed = true ∧
    ((withP { armed := true }).part 0).slackStopped = false := by decide +kernel

theorem witness_FrameOfTileStartsAndEnds_SoftStartEndsAfter64Cycles : up.tileUp 0 = true ∧ (up.tile 0).seq.soft = true := by decide +kernel

/-- Tile 0 issues, with an image. -/
def issuing : State := with0 { hasImage := true, seq := { st := .issuing } }

/-- Tile 0 replays a word that failed its parity. -/
def replays (n : Nat) : State := with0 { hasImage := true, seq := { st := .frozen, parTries := n } }

/-- A waiting tile with a micro-op in flight that reads words 4 to 19 of its scratchpad. -/
def readerTile : State := with0 { waits .bank with paths := [{ form := 0, write := false, start := 0, addr := 16, step := 64, len := 64, ids }] }

theorem witness_FetchParityReplays :
    issuing.tileUp 0 = true ∧ (issuing.tile 0).seq.st = .issuing ∧ readerTile.tileUp 0 = true ∧
    (readerTile.tile 0).seq.st ≠ .frozen ∧ (readerTile.tile 0).reader? 5 = some ids ∧ ((replays 1).tile 0).seq.st = .frozen ∧
    ((replays 1).tile 0).seq.parTries ≠ 0 ∧ ((replays 1).tile 0).seq.parTries = 1 ∧
    ((replays 2).tile 0).seq.parTries = 2 ∧ (replays 2).tileOwner? 0 = some 0 := by decide +kernel

/-! ### The array and the accumulator -/

/-- A handle (R237): KIND, the flags XR XW TW TR, BANK, OFFSET, length, EPOCH. -/
def handleOf (kind flags bank ofs len epoch : Nat) : BitVec 128 :=
  BitVec.ofNat 128 (2 ^ 127 + kind * 2 ^ 125 + flags * 2 ^ 120 + bank * 2 ^ 108 + ofs * 2 ^ 89 + (len - 1) * 2 ^ 70 +
    epoch * 2 ^ 32)

/-- Tile 0 with a buffer in each of banks 0 and 1, which q0 and q1 address, q2 on HBM descriptor 0, and macro 0 with
valid banks of all row groups. -/
def work : Tile :=
  { handles := [(0, handleOf 0 3 0 0 327680 0), (1, handleOf 0 3 1 0 327680 0)]
    q := [(1, BitVec.ofNat 64 (2 ^ 56)), (2, BitVec.ofNat 64 (2 ^ 63))]
    macros := [(0, { bank0 := { st := .valid, groups := 15 }, bank1 := { st := .valid, groups := 15, layer := 4 } })] }

/-- An image whose HBM descriptor 0 covers the first MiB of the partition's addresses (R263). -/
def descPart : Part := { image := some { descs := [BitVec.ofNat 256 (3 * 2 ^ 128 + 2 ^ 20 * 2 ^ 64)] } }

/-- That tile in that partition. -/
def atWork : State := withTP work descPart

/-- A MACP on macro 0. -/
def macp0 (bfp : BitVec 1) : MacpF :=
  { macros := 1, half := 0, rgmask := 0xF, bm1 := 7, asgn := bfp, mode := bfp, grp := 2, sk := 0, partner := 0, rsvd := 0 }

theorem witness_MacpStartsPassOnEveryNamedMacro :
    atWork.issues 0 (.macp 0 ids (macp0 0)) = true ∧ (macp0 0).macros ≠ 0 ∧
    (∀ m ∈ onesOf (macp0 0).macros, passOk (((atWork.due 0).tile 0).begun ids) 0xF m = true) ∧
    (∀ m ∈ onesOf (macp0 0).macros, ((((atWork.due 0).tile 0).begun ids).mac m).fill 0 = none) ∧ (macp0 0).sk = 0 := by
  decide +kernel

/-- A pass on macro 0, and an upset of its checksum partial. -/
def pass0 : Pass :=
  { issue := 0, due := 11, busy := 8, macros := [(0, 0)], half := 0, rgmask := 0xF, bm1 := 7, asgn := 0, bfp := false
    s := 16, sk := 0, partner := 0, ids := ids }

def upset0 : Upset := { mac := 0, out := 0, rowGroup := 0, data := 0, slice := 0, check := 1 }

/-- Tile 0 as it waits for that pass. -/
def passing : State := with0 { work with passes := [pass0] }

theorem witness_PassesPresentReplayAndLand_PassPresentsOrReplays :
    passing.tileUp 0 = true ∧ (passing.tile 0).frozenNow = false ∧ (passing.tile 0).seq.st ≠ .frozen ∧
    (passing.tile 0).passes = [pass0] ∧
    (let tl := ({ (passing.tile 0).modSeq (·.reach pass0.due) with passes := [] } : Tile).settle
     (evalPass tl pass0 []).2 = [] ∧ (evalPass tl pass0 [upset0]).2 ≠ []) := by decide +kernel

/-- The replay of macro 0. -/
def replay0 : Replay := { pass := pass0, again := [0], miss := [(0, false)], good := [] }

/-- Tile 0 as it waits for that replay. -/
def replaying : State := with0 { work with replay := [replay0] }

theorem witness_PassesPresentReplayAndLand_ReplaySucceedsOrAborts :
    (replaying.tile 0).replay = [replay0] ∧ replay0.miss = [(0, false)] ∧ replaying.tileOwner? 0 = some 0 ∧ pass0.sk = 0 ∧
    (let ev (u : List Upset) := evalPass { replaying.tile 0 with replay := [] } pass0 (u.filter fun u => replay0.again.contains u.mac.val)
     ((ev []).2.filter fun x => replay0.again.contains x.1) = [] ∧
      ((ev [upset0]).2.filter fun x => replay0.again.contains x.1) = [(0, false)]) := by decide +kernel

/-- A group sum on its way into slot 7. -/
def landing0 : Landing :=
  { slot := 7, pres := 11, base := 0, sz := 1, due := 16, bfp := false
    parts := [{ issue := 0, elems := [{ out := 0, val := -5, exp := 0 }] }] }

theorem witness_PassesPresentReplayAndLand_GroupSumLandsInSlot :
    (with0 { landings := [landing0] }).tileUp 0 = true ∧ ((with0 { landings := [landing0] }).tile 0).frozenNow = false ∧
    ((with0 { landings := [landing0] }).tile 0).seq.st ≠ .frozen ∧
    (((with0 { landings := [landing0] }).tile 0).landings.find? fun l => decide (l.slot = 7)) = some landing0 := by
  decide +kernel

-- An entry at the largest value, and a sum that wraps on its way and fits at its end (R89). -/
theorem witness_IntegerSumIsExactInAnyOrder :
    -(2 ^ 63) ≤ ({ a := 0x7FFFFFFFFFFFFFFF } : Entry).a.toInt + [1, -1].sum ∧
    ({ a := 0x7FFFFFFFFFFFFFFF } : Entry).a.toInt + ([1, -1] : List Int).sum ≤ 2 ^ 63 - 1 := by decide +kernel

theorem witness_ExponentFFMarksNonFinite :
    (Mem.read [(256, 255)] (0 + 260 * (0 / 64 / 4) + 256 + 0 / 64 % 4)).toNat = 255 ∧
    (Mem.read [(519, 255)] (0 + 260 * (511 / 64 / 4) + 256 + 511 / 64 % 4)).toNat = 255 := by decide +kernel

theorem witness_FixedAlignmentDoesNotDependOnOrder : 254 ≤ 254 ∧ ∀ x ∈ [((3 : Int), 254), (-1, 0)], x.2 ≤ 254 := by
  decide +kernel

theorem witness_RunningAlignmentSaturates :
    (254 : Int) ≠ 255 ∧ (1 : Int) ≠ 0 ∧ ({ used := true, x := 1, a := 0x7FFFFFFFFFFFFFFF } : Entry).used = true := by decide

theorem witness_IntegerPreloadRoundsToNearestEven_IntegerPreloadRoundsAndSaturates :
    (({} : Tile).slot 0).mode = 0 ∧ preElem { sp := [(0, 5)] } 0 0 0 = .fin 5 0 ∧
    preElem { sp := [(256, 255)] } 6 0 0 = .bad := by decide +kernel

theorem witness_IntegerPreloadRoundsToNearestEven_RoundingIsNearestTiesToEven : 0 < 1 := by decide

/-- A bank with one row as the port writes it for INT8 weights. -/
def rowBank : Bank :=
  { st := .valid, groups := 15, pm1 := 7, wsgn := 1
    cells := [(0, steeredRow 0xFFFFFFFF (rowCells 0xFFFFFFFF 0x80FF01 (rowSum 0x80FF01 8 true)))] }

theorem witness_SoundPassPassesResidueCheck :
    ∀ c ∈ rowBank.cells, rowCheck (steeredRow rowBank.steer c.2) =
      rowSum (rowData (steeredRow rowBank.steer c.2)) (rowBank.pm1.toNat + 1) (rowBank.wsgn = 1) := by decide +kernel

theorem witness_StoredRowReadsBack : 2 ^ 128 - 1 < 2 ^ 128 ∧ 255 < 256 := by decide

theorem witness_SwapExchangesBanks :
    atWork.issues 0 (.swap 0 ids { macros := 1, rsvd := 0 }) = true ∧
    (∀ m ∈ onesOf (1 : BitVec 16), swapBlocked (((atWork.due 0).tile 0).begun ids) m = false) ∧
    ({ macros := 0, rsvd := 0 } : SwapF).macros = 0 ∧ ({ macros := 1, rsvd := 1 } : SwapF).rsvd ≠ 0 := by decide +kernel

/-- An LDW of row group 0 into macro 0. -/
def ldw0 (src : BitVec 1) (q : BitVec 3) : LdwF :=
  { macros := 1, src, rgmask := 1, pm1 := 7, wsgn := 1, chkgen := 1, fin := 0, qsrc := q, inc := 1, cnt := 0, rsvd := 0 }

/-- The path use of an access of `n` bytes at `a`. -/
def use0 (write : Bool) (start addr step len : Nat) : PathUse := { form := 0, write, start, addr, step, len }

theorem witness_LdwLoadsShadowBanks_LdwFromScratchpadLoadsRows :
    atWork.issues 0 (.ldw 0 ids (ldw0 0 0)) = true ∧ (atWork.due 0).calm 0 = true ∧ (ldw0 0 0).src = 0 ∧
    (atWork.due 0).spOp? 0 0 (64 * 16) false = some 0 ∧
    ((atWork.due 0).tile 0).accessOk [use0 false 0 0 16 (64 * 16)] = true ∧ ({} : Macro).shadow.st ≠ .loading ∧
    (let b := (({} : Macro).loadRows 1 7 1 3 true fun _ => some [1, 2, 3, 4]).1.shadow
     b.pm1 = 7 ∧ b.wsgn = 1) := by decide +kernel

/-- The HBM load of row group 0 into macro 0 at its end. -/
def ldwOp : AsyncOp :=
  { cnt := 3, due := 100, ids := ids, frame := 0, xfer := .ldw 1 1 1 7 1 1 0 0 }

/-- Tile 0 at the end of that load. -/
def ldwEnds : State := with0 { work with ops := [ldwOp] }

/-- The same when the load has counted in DONE. -/
def ldwEnded : State := (ldwEnds.modTile 0 fun tl =>
  ({ tl.modSeq (fun q => { q with ac := 100 }) with ops := [] } : Tile).countDone ldwOp).count 0 6 1024

theorem witness_LdwLoadsShadowBanks_LdwFromHbmStartsAndEnds :
    atWork.issues 0 (.ldw 0 ids (ldw0 1 2)) = true ∧ (atWork.due 0).calm 0 = true ∧
    (atWork.due 0).hbmOp? 0 2 (64 * 1 * 16) false = some 0 ∧ (ldwEnds.tile 0).ops = [ldwOp] ∧
    ldwEnds.tileOwner? 0 = some 0 ∧ ldwOp.cnt = (3 : Fin 4).val ∧ ldwOp.dropped = false ∧
    ((ldwEnded.tile 0).mac 0).portUntil ≤ max 100 (ldwEnded.liveAc 0) + 1 - 64 ∧
    rowsInvalidate (ldwEnded.tile 0) 7 1 (max 100 (ldwEnded.liveAc 0) + 1 - 64) 0 = false := by
  decide +kernel

/-- An ACLR of slot 7. -/
def aclr0 : AclrF := { macros := 0xFFFF, slot := 7, amode := 1, obase := 0, ostep := 1, oper := 3, rsvd := 0 }

theorem witness_SlotsOpenPreloadAndPrescan_AclrOpensSlot :
    up.issues 0 (.aclr 0 ids aclr0) = true ∧ (((up.due 0).tile 0).begun ids).mayOpen 7 1 = true := by decide +kernel

theorem witness_MapBytesTakeOffsets :
    0 ∈ onesOf (1 : BitVec 16) ∧ 15 ∈ onesOf (0x8000 : BitVec 16) ∧ 7 < 7 + 1 * (15 % 2 ^ 4) ∧
    (({ map := [(0, { en := true, slot := 0, ofs := 7 })] } : Tile).mapOf 0).en = true ∧ 128 ≤ 16 * 7 + 16 := by decide +kernel

/-- An APRE of slot 0 with 128 INT32 elements. -/
def apre0 : ApreF :=
  { macros := 1, slot := 0, amode := 0, obase := 0, ostep := 0, oper := 0, fmt := 1, psh := 0, qsrc := 0, inc := 1
    nm1 := 127, rsvd := 0 }

theorem witness_SlotsOpenPreloadAndPrescan_ApreOpensAndPreloads :
    atWork.issues 0 (.apre 0 ids apre0) = true ∧ (atWork.due 0).calm 0 = true ∧
    (atWork.due 0).spOp? 0 0 (fmtSpan 1 128) false = some 0 ∧
    ((atWork.due 0).tile 0).accessOk [preloadUse 0 1 128 0] = true ∧
    ((atWork.due 0).tile 0).settle.mayOpen 0 0 = true ∧ ((atWork.due 0).tile 0).settle.rawModes apre0 0 128 = true := by
  decide +kernel

theorem witness_SlotsOpenPreloadAndPrescan_PrescanRecordsLargestExponent :
    atWork.issues 0 (.prescan 0 ids { slot := 2, qsrc := 0, inc := 0, nbm1 := 3, rsvd := 0 }) = true ∧
    (atWork.due 0).calm 0 = true ∧ (atWork.due 0).spOp? 0 0 (260 * ceilDiv 4 4) false = some 0 ∧
    ((atWork.due 0).tile 0).accessOk [{ form := 1, write := false, start := 0, addr := 0, step := 64, len := 4 }] = true ∧
    (((atWork.due 0).tile 0).settle.slot 2).st = .free ∧
    (((atWork.due 0).tile 0).settle.slot 2).busyUntil ≤ ((atWork.due 0).tile 0).seq.ac ∧
    ((atWork.due 0).tile 0).absorbing 2 = false := by decide +kernel

/-- Tile 0 with slot 1 OPEN and parameter sets 0 (RAW) and 1 (FP32 with scales). -/
def drains : State := withTP { work with
  slots := [(1, { st := .opened, entries := [(0, { a := 5, used := true })] })]
  psets := [(0, { loaded := true, fmt := 7 }), (1, { loaded := true, fmt := 5, scaleAddr := 1024, scaleLen := 512 })] } descPart

/-- An ADRN of slot 1 to bank 1. -/
def adrn0 (pset : BitVec 2) : AdrnF := { slot := 1, pset, qdst := 1, inc := 1, nm1 := 127, cbase := 0, rsvd := 0 }

/-- The same when what was due at the tile has come about. -/
def drainsDue : State := drains.due 0

theorem witness_AdrnDrainsAndDelivers_AdrnDrainsSlot :
    (∀ p : BitVec 2, drains.issues 0 (.adrn 0 ids (adrn0 p)) = true) ∧ ((drainsDue.tile 0).settle.slot 1).st = .opened ∧
    (drainsDue.tile 0).settle.absorbing 1 = false ∧ ((drainsDue.tile 0).settle.pset 2).loaded = false ∧ drainsDue.calm 0 = true ∧
    ((drainsDue.tile 0).settle.pset 0).loaded = true ∧ ((drainsDue.tile 0).settle.pset 0).readyAt ≤ (drainsDue.tile 0).seq.ac ∧
    drainsDue.spOp? 0 1 (fmtSpan 7 128) true = some 327680 ∧ ((drainsDue.tile 0).settle.slot 1).mode ≠ 2 ∧
    (drainsDue.tile 0).accessOk (drainUses 0 7 128 327680 ++ []) = true ∧ drainsDue.spOp? 0 1 (fmtSpan 5 128) true = some 327680 ∧
    4 * (0 + 128) ≤ ((drainsDue.tile 0).settle.pset 1).scaleLen ∧
    (drainsDue.tile 0).accessOk (drainUses 0 5 128 327680 ++ [use0 false 0 1024 64 512]) = true := by decide +kernel

theorem witness_AdrnDrainsAndDelivers_DeliveredValueByMode : ({ used := true } : Entry).used = true ∧ ({} : Entry).used = false ∧ ({} : Entry).a = 0 := by
  decide

/-- A PPU of set 3. -/
def ppu0 (fmt : BitVec 4) (func : BitVec 2) : PpuF :=
  { fmt, func, pset := 3, zp := 0, qmin := 0, qmax := 0, qscale := 0, qpar := if func = 0 then 0 else 1, rsvd := 0 }

theorem witness_PpuLoadsAndStatObserves_PpuLoadsParameterSet :
    atWork.issues 0 (.ppu 0 ids (ppu0 5 0)) = true ∧ (atWork.due 0).calm 0 = true ∧
    (atWork.due 0).spBuf? 0 0 false = some { base := 0, len := 327680, ofs := 0, isSealed := false } ∧
    (((atWork.due 0).tile 0).pset 3).busyUntil ≤ ((atWork.due 0).tile 0).seq.ac ∧ atWork.issues 0 (.ppu 0 ids (ppu0 5 2)) = true ∧
    (atWork.due 0).spOp? 0 1 8 false = some 327680 ∧ ((atWork.due 0).tile 0).accessOk [use0 false 0 327680 8 8] = true ∧
    paramsBad 2 0 0 = false ∧
    up.issues 0 (.ppu 0 ids { ppu0 7 0 with qscale := 0 }) = true := by decide +kernel

/-- A STAT of channels 0 to 15 with q0. -/
def stat0 : StatF := { q := 0, inc := 1, c0 := 0, nm1 := 15, rsvd := 0 }

/-- The close of a table of 16 channels. -/
def statTile : Tile := { work with stat := some { layer := 3, c0 := 0, n := 16, visibleAt := 0, recs := [] } }

theorem witness_PpuLoadsAndStatObserves_StatOpensAndCloses :
    atWork.issues 0 (.statOpen 0 ids stat0) = true ∧ (atWork.due 0).spOp? 0 0 512 false = some 0 ∧
    ((atWork.due 0).tile 0).accessOk [use0 false 0 0 512 512] = true ∧ ((atWork.due 0).tile 0).stat = none ∧ ((atWork.due 0).tile 0).statUntil ≤ ((atWork.due 0).tile 0).seq.ac ∧
    (∀ i < 16, envelopeBad (((atWork.due 0).tile 0).spRead (0 + 32 * i) 32) = false) ∧
    (with0 statTile).issues 0 (.statClose 0 ids { stat0 with inc := 0, nm1 := 0 }) = true ∧ ((with0 statTile).due 0).calm 0 = true ∧
    ((with0 statTile).due 0).spOp? 0 0 512 true = some 0 ∧ (((with0 statTile).due 0).tile 0).accessOk [use0 true 7 0 512 512] = true := by
  decide +kernel

/-! ### Outlier engine and moves -/

/-- An outlier entry, with the parity that its store keeps. -/
def entryOf (res : BitVec 16) (row : BitVec 8) (out : BitVec 7) : OutEntry := { res, row, out, par := 0 }

/-- Tile 0 with a set of two entries for macro 0, after a MACP. -/
def outliers : Tile := { work with macros := [(0, {
  bank0 := { st := .valid, groups := 15 }, bank1 := { st := .valid, groups := 15 }, lastS := some 4
  set0 := { valid := true, layer := 3, entries := [entryOf (-2) 0 1, entryOf 300 255 15] } })] }

/-- An OUTP pass on macro 0. -/
def outp0 : OutpPassF := { macros := 1, half := 0, rgmask := 9, bm1 := 7, asgn := 0, rsvd := 0 }

/-- Partials of macro 0 on their way. -/
def stream0 : Stream := { mac := 0, nout := 16, issue := 0, due := 4, s := 4, partials := [(1, -2)], ids := ids }

theorem witness_OutliersLoadAndStream_OutlierStreamsPresentTheirSums :
    (with0 outliers).issues 0 (.outpPass 0 ids outp0 []) = true ∧
    (∀ m ∈ onesOf outp0.macros, outpBlocked ((((with0 outliers).due 0).tile 0).begun ids) m = false ∧
      (((((with0 outliers).due 0).tile 0).begun ids).mac m).fill 0 = none) ∧
    (with0 { streams := [stream0] }).tileUp 0 = true ∧ ((with0 { streams := [stream0] }).tile 0).frozenNow = false ∧
    ((with0 { streams := [stream0] }).tile 0).seq.st ≠ .frozen ∧
    (((with0 { streams := [stream0] }).tile 0).streams.find? fun x => decide (x.mac = 0)) = some stream0 := by decide +kernel

/-- Tile 0 with an outlier section of one entry at the buffer's first byte (R104). -/
def sectionTile : Tile := { work with sp := Mem.writeBytes [] 0 (leBytes 4 (4 * 65536 + 1) ++ leBytes 4 (7 * 65536 + 3 * 256 + 2)) }

theorem witness_OutliersLoadAndStream_OutlierLoadFillsShadowSets :
    (with0 sectionTile).issues 0 (.outpLoad 0 ids { macros := 1, qsrc := 0, inc := 1, rsvd := 0 }) = true ∧
    ((with0 sectionTile).due 0).calm 0 = true ∧
    ((with0 sectionTile).due 0).spBuf? 0 0 false = some { base := 0, len := 327680, ofs := 0, isSealed := false } ∧
    readSections (((with0 sectionTile).due 0).tile 0) [0] ((((with0 sectionTile).due 0).tile 0).spRead 0 65600) =
      some (2, [(0, some { valid := true, layer := 4, entries := [entryOf 7 3 2] })]) ∧
    ((((with0 sectionTile).due 0).tile 0).mac 0).setUntil ≤ 0 + 1 ∧
    (((with0 sectionTile).due 0).tile 0).accessOk [use0 false 0 0 512 8] = true := by decide +kernel

/-- A MOVE of 16 bytes, or of a staging fill, from q0. -/
def move0 (dsel : BitVec 1) (dmacros : BitVec 16) (lm1 : BitVec 16) : MoveF :=
  { qsrc := 0, sinc := 1, qdst := if dmacros = 0 then 1 else 0, dinc := 0, dsel, dmacros, cw := 0, lm1, rsvd := 0 }

theorem witness_MoveCopiesBytes :
    atWork.issues 0 (.moveToScratchpad 0 ids (move0 0 0 15)) = true ∧ (atWork.due 0).calm 0 = true ∧
    (atWork.due 0).spOp? 0 0 16 false = some 0 ∧ (atWork.due 0).spOp? 0 1 16 true = some 327680 ∧
    ((atWork.due 0).tile 0).accessOk [use0 false 0 0 512 16, use0 true 2 327680 512 16] = true ∧ 0 + 16 ≤ 327680 ∧
    (atWork.due 0).spOp? 0 0 65536 true = some 0 ∧ 0 ≤ 0 := by decide +kernel

/-- Tile 0 with bytes of two micro-ops on their way: of the cycle before, and of a later one. -/
def landing2 : Tile := { work with
  seq := { work.seq with ac := 5 }, late := [{ cycle := 4, addr := 0, bytes := [1, 2] }, { cycle := 9, addr := 1, bytes := [3] }] }

theorem witness_MoveCopiesBytes_LateWritesStand :
    ((with0 landing2).due 0).tile 0 ≠ (with0 landing2).tile 0 ∧ (((with0 landing2).due 0).tile 0).late.length = 1 ∧
    Mem.wf landing2.sp = true ∧ 0 < 4 ∧ (landing2.readView [{ form := 0, write := false, start := 10, addr := 0, step := 4, len := 4 }]).spRead 0 4 =
      [1, 3, 0, 0] := by decide +kernel

theorem witness_MoveFillsStagingAndPages :
    atWork.issues 0 (.moveToStaging 0 ids (move0 1 1 0)) = true ∧ (atWork.due 0).calm 0 = true ∧ (atWork.due 0).spOp? 0 0 256 false = some 0 ∧
    ((atWork.due 0).tile 0).accessOk [use0 false 0 0 512 256] = true ∧
    (∀ m ∈ onesOf (1 : BitVec 16), ((((atWork.due 0).tile 0).begun ids).mac m).halfUntil 1 ≤ 0 + 2) ∧
    ({ fill0 := some { due := 2, half := {}, ids := ids } } : Macro).fill0 = some { due := 2, half := {}, ids := ids } ∧
    atWork.issues 0 (.moveToInstructionPage 0 ids { move0 1 0 15 with qdst := 0 }) = true ∧
    ((atWork.due 0).tile 0).accessOk [use0 false 0 0 512 16] = true ∧ ((atWork.due 0).tile 0).hasImage = false := by decide +kernel

/-- A credit for bytes 0 to 4095 of window 2 of device 9 (R247). -/
def credit0 : BitVec 128 := BitVec.ofNat 128 (2 ^ 127 + (9 * 65536 + 2) * 2 ^ 96 + 4095 * 2 ^ 24)

/-- An RPUT of 4,096 bytes with that credit in entry 31. -/
def rput0 : RputF := { qsrc := 0, sinc := 0, cred := 31, dofs := 0, lm1 := 4095, urg := 0, cnt := 1, rsvd := 0 }

/-- Tile 0 with that credit, and without it, waiting. -/
def credited : State := with0 { work with cur := [(31, credit0)] }
def awaiting (c : Store (BitVec 128)) : State := with0 { work with
  cur := c, seq := { st := .waiting, why := .credit, waitUop := some (uopWord ids 0x31 (rputBits rput0)) } }

theorem witness_RputSendsOrWaits :
    credited.issues 0 (.rput 0 ids rput0) = true ∧ creditCovers (Store.get 0 ((credited.due 0).tile 0).cur 31) 0 4096 = true ∧
    (credited.due 0).calm 0 = true ∧ (credited.due 0).spOpOpen? 0 0 4096 false = some 0 ∧
    ((credited.due 0).tile 0).accessOk [use0 false 0 0 512 4096] = true ∧
    atWork.issues 0 (.rput 0 ids rput0) = true ∧ creditCovers (Store.get 0 ((atWork.due 0).tile 0).cur 31) 0 4096 = false ∧
    ((awaiting [(31, credit0)]).due 0).tileUp 0 = true ∧ (((awaiting [(31, credit0)]).due 0).tile 0).frozenNow = false ∧
    (((awaiting [(31, credit0)]).due 0).tile 0).pageHold = none ∧
    (((awaiting [(31, credit0)]).due 0).tile 0).seq.st = .waiting ∧ (((awaiting [(31, credit0)]).due 0).tile 0).seq.why = .credit ∧ ((awaiting [(31, credit0)]).due 0).calm 0 = true ∧
    (((awaiting [(31, credit0)]).due 0).tile 0).seq.waitUop = some (uopWord ids 0x31 (rputBits rput0)) ∧
    ((awaiting [(31, credit0)]).due 0).spOpOpen? 0 0 4096 false = some 0 := by decide +kernel

/-- A DMAH of 64 bytes between q2 and q0. -/
def dmah0 : DmahF := { qhbm := 2, hinc := 1, qsp := 0, sinc := 1, l32m1 := 1, cnt := 2, rsvd := 0 }

/-- That transfer at its end. -/
def dmahOp (toHbm : Bool) : AsyncOp :=
  { cnt := 2, due := 9, ids := ids, frame := 0, xfer := .dmah toHbm 0 0 64 (List.replicate 64 7) }

theorem witness_DmahTransfersAndCounts :
    (atWork.due 0).calm 0 = true ∧ dmahAligned ((atWork.due 0).tile 0) dmah0 = true ∧
    atWork.issues 0 (.dmahToScratchpad 0 ids dmah0) = true ∧ (atWork.due 0).hbmOp? 0 2 64 false = some 0 ∧
    (atWork.due 0).spOp? 0 0 64 true = some 0 ∧ atWork.issues 0 (.dmahToHbm 0 ids dmah0) = true ∧
    (atWork.due 0).hbmOp? 0 2 64 true = some 0 ∧ (atWork.due 0).spOpOpen? 0 0 64 false = some 0 ∧
    ((atWork.due 0).tile 0).accessOk [use0 false 0 0 512 64] = true ∧
    (∀ b : Bool, ((with0 { ops := [dmahOp b] }).tile 0).ops = [dmahOp b] ∧
      (with0 { ops := [dmahOp b] }).tileOwner? 0 = some 0 ∧ (dmahOp b).cnt = (2 : Fin 4).val ∧ (dmahOp b).counted = true ∧
      (dmahOp b).landing = false ∧ ((with0 { ops := [dmahOp b] }).tile 0).held = [] ∧
      ((with0 { ops := [dmahOp b] }).tile 0).paths = [] ∧
      (∀ i ∈ unitOffsets 64, (with0 { ops := [dmahOp b] }).partHard 0 (0 + i) 32 b = false) ∧
      ((with0 { ops := [dmahOp b] }).tile 0).step = none ∧
      ((List.range 3).all fun k => (((with0 { ops := [dmahOp b] }).tile 0).spBank k).power == .on) = true) ∧
    64 % 32 = 0 ∧ 0 + 64 ≤ 983040 := by decide +kernel

/-! ### Windows -/

/-- A grant entry for host slot 3 on bytes 0 to 4095 of handle 2 of tile 0 (R248). -/
def grant0 : BitVec 128 := BitVec.ofNat 128 (2 ^ 124 + 3 * 2 ^ 92 + 2 * 2 ^ 76 + 4095 * 2 ^ 36)

/-- Partition 0 with that entry. -/
def grantPart : Part := { image := some { grants := [grant0] } }

/-- Handle 2 of tile 0 is a write window in its epoch 9, and the grant was issued in it. -/
def winTile (granted : List Nat) : Tile :=
  { handles := [(2, handleOf 1 15 0 0 4096 9)], windows := [(2, { granted })] }

/-- The device with that window, and the domain state of its band. -/
def winDev (granted : List Nat) (d : DomSt) : State :=
  { withTP (winTile granted) grantPart with domains := [(0, d)] }

/-- A put of 64 bytes of slot 3 to that window, with an epoch. -/
def put0 (epoch : BitVec 32) : PutHdr :=
  { window := 2, epoch, wofs := 0, wlm1 := 63, grant := 0, host := true, writer := 0, tag := 5, sofs := 0, slm1 := 63
    first := true, last := true, rsvd := 0 }

/-- A write window that is of no type in the image in force: handle 2 is free. -/
def noWin : State := withTP { handles := [(2, handleOf 0 15 0 0 4096 9)] } grantPart

def slot3 : Via := .transport 0 3 1
def bytes64 : List Byte := List.replicate 64 0xAA

/-- That write when all its bytes have landed. -/
def write0 : PutWrite :=
  { handle := 2, epoch := 9, window := 2, via := slot3, writer := 2 ^ 24 + 3, tag := 5, base := 0, len := 64, got := 64
    lastSeen := true }

theorem witness_PutsLandOrAreRefused_PutLandsAndIsAcknowledged :
    (winDev [0] .on).live = true ∧ (∀ p, (winDev [0] .on).windowOwner? 2 = some p → ((winDev [0] .on).part p).slackStopped = false) ∧
    malformed (put0 9) bytes64 = false ∧ (winDev [0] .on).window? 2 = some (0, 2) ∧ (winDev [0] .on).putCheck slot3 (put0 9) = none ∧
    (winDev [0] .on).bufBase 0 ((winDev [0] .on).handle 0 2) true = 0 ∧ ((winDev [0] .on).tile 0).dmaHold ((winDev [0] .on).dmaCycle 0) 0 64 false = none ∧
    ((winDev [0] .on).tile 0).held = [] ∧ ((winDev [0] .on).tile 0).late = [] ∧ ((winDev [0] .on).tile 0).seq.st ≠ .issuing ∧ bankOf 0 < 3 ∧ (winDev [0] .on).bandDark (bandOf (clusterOf 0)) = false ∧
    tileOfBits? (2 % 65536) = some 0 ∧ ((with0 { writes := [write0] }).tile 0).writes = [write0] ∧
    ((with0 { writes := [write0] }).tile 0).writeWhole write0 = true ∧ ((with0 { writes := [write0] }).tile 0).held = [] := by decide +kernel

theorem witness_PutsLandOrAreRefused_PutRefusedWithFirstReason :
    noWin.window? 2 = none ∧ (∀ t, tileOfBits? (2 % 65536) = some t → noWin.bandDark (bandOf (clusterOf t)) = false) ∧
    (winDev [0] .on).window? 2 = some (0, 2) ∧ (winDev [0] .on).belongs (.transport 1 3 1) 0 = false ∧
    hf ((winDev [0] .on).handle 0 2) 63 32 ≠ (8 : BitVec 32).toNat ∧ hf ((winDev [0] .on).handle 0 2) 63 32 = (9 : BitVec 32).toNat ∧
    (winDev [] .on).grantFits 0 2 slot3 (put0 9) = false ∧ (winDev [0] .ret).grantFits 0 2 slot3 (put0 9) = true ∧
    (winDev [0] .ret).bandShut 0 = true ∧ (winDev [0] .ret).bandDark (bandOf (clusterOf 0)) = false := by decide +kernel

/-- An RPUT in flight. -/
def rputOp : AsyncOp := { cnt := 1, due := 8, ids := ids, frame := 7, xfer := .rput 2 9 5 0 }

/-- Tile 0 with it, in the frame that issued it. -/
def sending : State := withTP { ops := [rputOp] } { frame := 7, run := { active := true } }

theorem witness_AnswersCompleteAndEpochsClose_AnswersCompleteRputs :
    rputOp.xfer = .rput 2 9 5 0 ∧ rputOp.counted = true ∧ (sending.tile 0).ops = [rputOp] ∧
    (∀ x : TileId, x ≠ 0 → (sending.tile x).ops = []) ∧ sending.live = true ∧
    (∀ p, sending.tileOwner? 0 = some p → (sending.part p).slackStopped = false) ∧ sending.tileOwner? 0 = some 0 ∧
    (sending.part 0).frame = rputOp.frame ∧ (sending.part 0).run.active = true ∧ (sending.part 0).run.marked = false := by
  decide +kernel

/-- A credit request of slot 3 for that window, and a read request. -/
def read0 : ReadReq := { window := 2, offset := 0, lm1 := 63, tag := 1, rsvd := 0 }

/-- A read window. -/
def readDev : State := with0 { handles := [(2, handleOf 2 15 0 0 4096 9)] }

theorem witness_CreditsAndReadsAreServed :
    up.live = true ∧ up.tileOwner? 0 = some 0 ∧ (up.part 0).slackStopped = false ∧
    (winDev [] .on).window? 2 = some (0, 2) ∧ (winDev [] .on).grantList 0 = [grant0] ∧ hf grant0 127 126 = 0 ∧ hf grant0 125 124 = 1 ∧
    hf grant0 95 92 = 3 ∧ hf grant0 91 76 = tileBits 0 + 2 ∧ (((winDev [] .on).tile 0).win 2).granted.contains 0 = false ∧
    (∀ p, readDev.windowOwner? 2 = some p → (readDev.part p).slackStopped = false) ∧ readDev.window? 2 = some (0, 2) ∧
    readDev.readCheck (.fabric 1 false) read0 = none ∧ (readDev.tile 0).dmaHold (readDev.dmaCycle 0) 0 64 true = none ∧ (readDev.tile 0).held = [] ∧
    (readDev.tile 0).late = [] ∧ (readDev.tile 0).seq.st ≠ .issuing ∧ 64 ≤ 4032 := by decide +kernel

/-- The window's old epoch closes, with a write outstanding or not. -/
def closing0 (l : List PutWrite) : State :=
  with0 { handles := [(2, handleOf 1 15 0 0 4096 10)], windows := [(2, { closing := true })], writes := l }

theorem witness_AnswersCompleteAndEpochsClose_AdvanceClosesEpoch :
    (closing0 []).window? 2 = some (0, 2) ∧ (((closing0 []).tile 0).win 2).closing = true ∧ (closing0 []).oldWrites 0 2 = [] ∧ ((closing0 []).tile 0).held = [] ∧ ((closing0 [write0]).tile 0).held = [] ∧
    (closing0 [write0]).oldWrites 0 2 = [write0] ∧ write0.window = 2 ∧ ((closing0 [write0]).tile 0).writes.count write0 = 1 := by
  decide +kernel

/-! ### The scratchpad's own events -/

/-- A held access, and a bank in a power state. -/
def heldAt (why : HoldWhy) (addr tries : Nat) (req : Option HeldRead) : HeldAccess :=
  { why, addr, len := 4, data := [1, 2, 3, 4], tries, land := none, req }

def holding (a : HeldAccess) : State := with0 { held := [a] }

/-- Tile 0 in an ac in which its stream issues. -/
def issuing1 : State := with0 { work with seq := { st := .issuing, ac := 1 } }

def heldRead : HeldRead := { via := slot3, r := read0, epoch := 0, parityErr := true, after := none }

def bankTile (p : BankPower) (fr : Bool) : Tile := { spBanks := [(3, { power := p, freezes := fr })] }

theorem witness_ScratchpadEventsAndTidewalk_ScratchpadWaitsWakesAndRetries :
    (∀ a, (holding a).dmaUp 0 = true) ∧ (issuing1.tile 0).seq.st = .issuing ∧ issuing1.dmaUp 0 = true ∧
    (issuing1.tile 0).held = [] ∧ ((holding (heldAt .subbank 4 0 none)).tile 0).held = [heldAt .subbank 4 0 none] ∧
    bankOf 4 = (0 : SpBank).val ∧ ((holding (heldAt .busy 983040 1 none)).tile 0).held = [heldAt .busy 983040 1 none] ∧
    (heldAt .parity 4 1 (some heldRead)).req = some heldRead ∧ (heldAt .parity 4 1 (some heldRead)).tries < 2 ∧
    2 ≤ (heldAt .parity 4 2 (some heldRead)).tries ∧ up.tileUp 0 = true ∧ ((up.tile 0).spBank 0).power = .on ∧
    up.sleepIdle 0 ≠ 0 ∧ ({ up with now := 100000000 } : State).sleepIdle 0 ≤ ({ up with now := 100000000 } : State).idleTime 0 0 ∧
    (((with0 (bankTile .sleep false)).tile 0).spBank 3).power = .sleep ∧ (with0 (bankTile .sleep false)).tileUp 0 = true ∧
    (((with0 (bankTile .waking true)).tile 0).spBank 3).power = .waking ∧ ((with0 (bankTile .waking true)).tile 0).held = [] := by
  refine ⟨fun a => ?_, ?_⟩
  · rfl
  · decide +kernel

/-- An open test window over macro 0's bank regions and bank 0, and a step in progress. -/
def testing : State := with0 { twin := [{ macros := 1, spbanks := 1, stopAt := 64 }] }
def inStep : State := with0 { step := some { region := 64, start := 0, saved := [], failed := false, freezes := true } }

theorem witness_ScratchpadEventsAndTidewalk_TidewalkStepRestoresItsRegion :
    testing.tileUp 0 = true ∧ (testing.tile 0).step = none ∧ (testing.tile 0).nextRegion? = some 0 ∧
    (testing.tile 0).paths = [] ∧ (testing.tile 0).regionParity 0 = [] ∧
    ((testing.tile 0).mac (0 / 4)).portUntil ≤ (testing.tile 0).seq.ac ∧
    (inStep.tile 0).step = some { region := 64, start := 0, saved := [], failed := false, freezes := true } ∧
    (inStep.tile 0).held = [] := by
  decide +kernel

/-! ### HBM -/

/-- An access that has failed one replay, and a hard error of a slice's access. -/
def failedOnce : State := { up with ctrls := [((ctrlOf 64).val, { tries := [((accessOf 64, 0, .other 0, false), 1)] })] }
def hardErr (a : HbmAddr) : State := { up with hardNow := [(accessOf a, false)] }

theorem witness_HbmErrorsReplayAndRepair_HbmReplaysRecoverOrAreHard :
    288 * 2 ^ 30 ≤ (288 * 2 ^ 30 : BitVec 39).toNat ∧ (288 * 2 ^ 30 - 1 : BitVec 39).toNat < 288 * 2 ^ 30 ∧
    up.inHand 0 (.op 0 0) 64 = false ∧ up.inHand 0 (.other 0) 64 = true ∧ failedOnce.inHand 0 (.other 0) 64 = true ∧
    assocGet 0 (up.ctrl (ctrlOf 64)).tries (accessOf 64, (0 : BitVec 7), .other 0, false) = 0 ∧
    assocGet 0 (failedOnce.ctrl (ctrlOf 64)).tries (accessOf 64, (0 : BitVec 7), .other 0, false) ≠ 0 := by decide +kernel

theorem witness_HbmErrorsReplayAndRepair_HardErrorsAreRepairedOrKept :
    (∀ a, (accessOf a, false) ∈ (hardErr a).hardNow) ∧ ¬ (3 ≤ [true, true, false].length ∧ ([true, true, false].take 3).all id = true) ∧
    (3 ≤ [true, true, true].length ∧ ([true, true, true].take 3).all id = true) ∧ (accessOf 64).toNat / 2 ^ 32 < 62 ∧
    (accessOf 64).toNat / 2 ^ 32 ≠ 70 ∧ (accessOf (BitVec.ofNat 39 (70 * 2 ^ 32))).toNat / 2 ^ 32 = 70 ∧
    (hardErr 64).sliceOwner? ((accessOf 64).toNat / 2 ^ 32) = some 0 ∧ 62 ≤ (accessOf (BitVec.ofNat 39 (62 * 2 ^ 32))).toNat / 2 ^ 32 ∧
    (accessOf (BitVec.ofNat 39 (62 * 2 ^ 32))).toNat / 2 ^ 32 ≠ 70 := by
  refine ⟨fun a => ?_, ?_⟩
  · simp [hardErr]
  · decide +kernel

/-! ### Verify and repair of weights -/

/-- Tile 0, with a verify. -/
def verifying (v : Verify) : State := with0 { verify := v }

theorem witness_VerifyAndRepairOfWeights_VerifyReadsBackAndReports :
    (0x80000000 : Word).getLsbD 31 = true ∧ (up.tile 0).verify.busy = false ∧
    ((verifying { busy := true }).tile 0).verify.busy = true ∧ ((verifying { busy := true }).tile 0).verify.held = false ∧
    ((verifying { busy := true, held := true }).tile 0).verify.held = true ∧
    ((verifying { busy := true, held := true }).tile 0).atRest = true ∧
    (verifying { busy := true, held := true }).dom (bandOf (clusterOf 0)).val = .on ∧
    (∀ p, (verifying { busy := true, held := true }).tileOwner? 0 = some p →
      ((verifying { busy := true, held := true }).part p).run.active = false ∧
      ((verifying { busy := true, held := true }).part p).armed = false ∧
      ((verifying { busy := true, held := true }).part p).ready = false ∧
      ((verifying { busy := true, held := true }).part p).slackStopped = false) := by decide +kernel

/-- Partition 0 with macro 0 of tile 0 condemned for a reason. -/
def condemned (why : RepairWhy) : State := withP { repairs := [{ key := macKey 0 0, why }] }

/-- Partition 0, whose periodic verify is due. -/
def verifyDue : State := { withP { residents := [0, 17] } with dict := [(dkey 0x2500 0, 1)], now := 1000000000 }

theorem witness_VerifyAndRepairOfWeights_RepairsAndPeriodicVerifyRun :
    (condemned .checksum).tileOwner? 0 = some 0 ∧ (condemned .checksum).live = true ∧
    ((condemned .checksum).part 0).run.active = false ∧
    (((condemned .checksum).part 0).repairs.find? fun x => decide (x.key = macKey 0 (0 : MacroId).val)) =
      some { key := macKey 0 0, why := .checksum } ∧
    verifyDue.live = true ∧ (verifyDue.part 0).run.active = false ∧ (verifyDue.part 0).armed = false ∧
    (verifyDue.part 0).ready = false ∧ (verifyDue.part 0).slackStopped = false ∧ 0 < verifyDue.verifyNs ∧
    (verifyDue.part 0).verifyFrame ≠ some (verifyDue.part 0).frame ∧
    ((verifyDue.part 0).verifyTile ≠ 0 ∨ (verifyDue.part 0).verifyAt.toNat + verifyDue.verifyNs ≤ verifyDue.now.toNat) ∧
    (verifyDue.residentTiles 0)[(verifyDue.part 0).verifyTile]? = some (0 : TileId).val ∧ (verifyDue.tile 0).verify.busy = false := by
  decide +kernel

/-! ### Admission -/

/-- Numbers in little-endian bytes at offsets of partition 0's download area. -/
def areaBytes (l : List (Nat × Nat × Nat)) : List Host.Cell :=
  l.foldl (fun m x => Mem.writeBytes m (downloadBase 0 + x.1) (leBytes x.2.1 x.2.2)) []

/-- The device in life cycle state `lc`, with a download area and an ImageLoad asked for. -/
def loading (lc : BitVec 3) (pt : Part) (l : List (Nat × Nat × Nat)) : State :=
  { withP { pt with guestBooted := true, loadAsked := true } with
    hbm := areaBytes l, otp := { journal := [{ target := lc, complete := true, keys := (0, 0) }] } }

/-- An image of one claim and one section that stage 1 passes, and its PART. -/
def imageBytes (part : Nat) : List (Nat × Nat × Nat) :=
  [(0, 4, 0x314A544A), (4, 2, 1), (8, 8, 17536), (16, 8, 64), (24, 4, 384), (28, 4, 17044), (32, 8, 448), (87, 1, 1), (88, 4, part)
   , (96, 4, 1), (116, 4, 1), (120, 4, 1), (320, 2, 1), (328, 8, 1), (336, 2, 3), (340, 4, 0xC000), (344, 8, 17536)]

/-- Partition 0's admission runs. -/
def admitting (at8 : Bool) (im : Image) : Part := { admission := some { atStage8 := at8, image := im, eligible := 1 } }

theorem witness_AdmissionStopsOrFills_AdmissionStopsAtFirstFailure :
    (loading 2 (admitting true {}) []).mayLoad 0 = true ∧ (loading 2 (admitting true {}) []).loadBusy 0 = true ∧
    (loading 0 {} [(0, 4, 0x314A544A)]).mayLoad 0 = true ∧ (loading 0 {} [(0, 4, 0x314A544A)]).loadBusy 0 = false ∧
    (loading 0 {} [(0, 4, 0x314A544A)]).isControl 0 = false ∧ (loading 0 {} [(0, 4, 0x314A544A)]).img 0 0 4 = 0x314A544A ∧
    (loading 0 {} [(0, 4, 0x314A544A)]).lcState ≠ 2 ∧
    (loading 0 {} []).mayLoad 0 = true ∧ (loading 0 {} []).loadBusy 0 = false ∧ (loading 0 {} []).isControl 0 = false ∧
    (loading 0 {} []).img 0 0 4 ≠ 0x314A544A ∧
    ((loading 0 {} []).finishRaise.modPart 0 fun pt => { pt with loadAsked := false }).stage1 0 =
      some { locus := 1, sect := noSect, ofs := 0, bit := 0 } ∧
    (loading 2 { dlLen := 17536 } (imageBytes 0x9601)).mayLoad 0 = true ∧
    (loading 2 { dlLen := 17536 } (imageBytes 0x9601)).loadBusy 0 = false ∧
    (loading 2 { dlLen := 17536 } (imageBytes 0x9601)).isControl 0 = false ∧
    (loading 2 { dlLen := 17536 } (imageBytes 0x9601)).lcState = 2 ∧
    ((loading 2 { dlLen := 17536 } (imageBytes 0x9601)).finishRaise.modPart 0 fun pt => { pt with loadAsked := false }).stage1 0 = none ∧
    ((loading 2 { dlLen := 17536 } (imageBytes 0x9601)).finishRaise.modPart 0 fun pt => { pt with loadAsked := false }).stages2to7 0 =
      some (plainResult stPart 2) := by decide +kernel

/-- An image of one variant that fits its deadline, and one that claims more than 1,024 points. -/
def fits1 : Image := { variants := 1, nominal := [1], deadline := 1 }
def claims7 : Image := { fits1 with claims := [(7, 1025)] }

/-- The waiting admission of such an image. -/
def at8 (im : Image) (active : Bool) : State := withP { admitting true im with run := { active } }

/-- Partition 0 at stage 9, and before another variant's pages. -/
def at9 : State := withP { admitting false fits1 with result := { stage := 9 } }
def refilling : State := withP { image := some fits1, wantCls := 1, eligible := 3 }

/-- What stage 9 fills from that image. -/
def filled : State × Bool := State.settleFill 0 fits1 [] ((at9.copyImages 0 fits1).firstClass 0 1) 2048
  ((at9.copyImages 0 fits1).fillAll 0 fits1 [] ((at9.copyImages 0 fits1).firstClass 0 1))

theorem witness_AdmissionStopsOrFills_AdmissionFillsAndRecords :
    (∀ b, ((at8 fits1 b).part 0).admission = some { atStage8 := true, image := fits1, eligible := 1 } ∧ (at8 fits1 b).phase = .service ∧
      ((claimedBands fits1).any fun x => (at8 fits1 b).dom x.val == .switching && !((at8 fits1 b).band x).draining) = false ∧
      (at8 fits1 b).claimShorts 0 fits1 ++ (at8 fits1 b).unservedShorts 0 fits1 [] ++ (at8 fits1 b).triggerShorts 0 fits1 = [] ∧
      fits1.eligible ((at8 fits1 b).pinned 0) fits1.deadline.toNat fits1.reserve.toNat ≠ 0) ∧
    ((at8 fits1 true).part 0).run.active = true ∧ ((at8 fits1 false).part 0).run.active = false ∧ ((at8 fits1 false).part 0).armed = false ∧
    ((at8 fits1 false).part 0).ready = false ∧ ((at8 fits1 false).part 0).slackStopped = false ∧
    ((at8 claims7 false).part 0).admission = some { atStage8 := true, image := claims7, eligible := 1 } ∧
    (at8 claims7 false).claimShorts 0 claims7 ++ (at8 claims7 false).unservedShorts 0 claims7 [] ++
      (at8 claims7 false).triggerShorts 0 claims7 ≠ [] ∧
    (at9.part 0).admission = some { atStage8 := false, image := fits1, eligible := 1 } ∧ at9.phase = .service ∧
    (at9.part 0).result.stage = 9 ∧ (at9.part 0).slackStopped = false ∧
    (∀ x ∈ fits1.sections.zipIdx, at9.stage9Hard 0 fits1 x = false) ∧
    (at9.copyImages 0 fits1).decrypt 0 fits1 = .ok [] ∧ (at9.copyImages 0 fits1).plainFault 0 fits1 [] = none ∧
    filled.2 = true ∧ (filled.1.part 0).st ≠ .halted ∧
    (refilling.part 0).image = some fits1 ∧ refilling.live = true ∧ (refilling.part 0).run.active = false ∧
    (refilling.part 0).armed = false ∧ (refilling.part 0).ready = false ∧ (refilling.part 0).slackStopped = false ∧
    (refilling.part 0).wantCls = 1 ∧ (refilling.part 0).cls ≠ 1 ∧
    (refilling.part 0).eligible.getLsbD (1 : BitVec 2).toNat = true ∧ (refilling.part 0).copyLost = false := by decide +kernel

/-! ### Control records, JTAG, tamper -/

/-- An attestation request (R402), for the device of serial number 0. -/
def asks : State := loading 2 {} [(0, 4, 0x3141544A), (4, 2, 1), (16, 8, 77)]

theorem witness_ControlRecordsAndTransitions_ControlRecordsTakeEffect :
    asks.mayLoad 0 = true ∧ asks.loadBusy 0 = false ∧ asks.img 0 0 4 = 0x3141544A ∧
    (asks.modPart 0 fun pt => { pt with loadAsked := false }).attestFault 0 = none ∧
    (List.replicate 32 (7 : Byte)).length = 32 := by decide +kernel

/-- A transition to INSTALLED waits for its second half. -/
def halfway : State := { up with otp := { journal := [{ target := 2, complete := false, keys := (5, 6) }] } }

theorem witness_ControlRecordsAndTransitions_TransitionErasesAndCompletes : halfway.phase = .service ∧ halfway.transition = true := by decide +kernel

/-- The tamper latch is set; the device is open for the networks, and closed. -/
def tampered : State := { up with island := { tamper := true } }
def closed : State := { up with otp := { journal := [{ target := 2, complete := true, keys := (0, 0) }] } }

theorem witness_TamperWipesAndJtagGates :
    up.island.tamper = false ∧ up.dom (bandOf (clusterOf 0)).val = .on ∧ tampered.island.tamper = true ∧ up.networksOpen = true ∧
    closed.networksOpen = false := by decide +kernel

/-! ### The end of a frame -/

/-- The key of an entry of partition 0's view. -/
def vk (ofs sub : Nat) : Nat := dkey (0x3000 + ofs) sub

/-- Partition 0 in a frame of one tile, with the OverrunAction `a`, at the Slack level `lvl`. -/
def inFrame (a lvl : Nat) (run : FrameRun) : State :=
  { withTP { waits .gate with hasImage := true } { st := .idle, frame := 7, image := some {}, run := { run with active := true } } with
    dict := [(vk 0x10 3, a), (vk 0x50 1, lvl)] }

/-- Its tile has not reported; has; and the frame is marked. -/
def lateRun : FrameRun := {}
def doneRun : FrameRun := { tilesDone := [0] }
def markedRun : FrameRun := { marked := true, cause := 4 }

theorem witness_FrameOverrunsStopsOrCommits :
    (∀ a ∈ [0, 1, 2], (inFrame a 0 lateRun).live = true ∧ ((inFrame a 0 lateRun).part 0).run.active = true ∧
      ((inFrame a 0 lateRun).part 0).slackStopped = false ∧ ((inFrame a 0 lateRun).part 0).run.overrun = false ∧
      (inFrame a 0 lateRun).allDone 0 = false ∧ (inFrame a 0 lateRun).armed 0 = false ∧ (inFrame a 0 lateRun).vval 0 0x10 3 = a) ∧
    (inFrame 0 0 markedRun).live = true ∧ ((inFrame 0 0 markedRun).part 0).run.active = true ∧
    ((inFrame 0 0 markedRun).part 0).slackStopped = false ∧ ((inFrame 0 0 markedRun).part 0).run.marked = true ∧
    (inFrame 0 0 markedRun).armed 0 = false ∧ (0 : TileId) ∈ (inFrame 0 0 markedRun).tilesOf 0 ∧
    ((inFrame 0 0 markedRun).tile 0).hasImage = true ∧ (inFrame 0 0 doneRun).live = true ∧
    ((inFrame 0 0 doneRun).part 0).run.active = true ∧ ((inFrame 0 0 doneRun).part 0).slackStopped = false ∧
    ((inFrame 0 0 doneRun).part 0).run.marked = false ∧ (inFrame 0 0 doneRun).allDone 0 = true := by decide +kernel

/-- A device arrival at point 0 of group 0 in frame 7. -/
def arrival0 : ArrivalMsg := { frame := 7, rid := 0, group := 0 }

/-- Partition 0, whose tile waits at that point or not. -/
def remotePoint (w : WaitWhy) : State :=
  withTP { waits w with hasImage := true } { pointPart (pointOf 3 2 1 0 0) { locals := 1 } with frame := 7, run := { active := true } }

theorem witness_ArrivalsAndBoundary_ArrivalsOfOtherDevices :
    ∀ w ∈ [WaitWhy.gate, .rdv], (remotePoint w).live = true ∧ (remotePoint w).groupParts arrival0.group = [0] ∧
      ((remotePoint w).part 0).slackStopped = false ∧ (remotePoint w).pointIn 0 arrival0 = some (pointOf 3 2 1 0 0) ∧
      arrival0.frame = ((remotePoint w).part 0).frame ∧
      (((remotePoint w).part 0).point arrival0.rid.toNat).remotes < hf (pointOf 3 2 1 0 0) 103 96 ∧
      (9 : BitVec 8) ≠ (remotePoint w).devNum ∧ (remotePoint w).pointDone 0 arrival0.rid.toNat = false ∧
      (remotePoint w).waitsAt 0 arrival0.rid.toNat = (w == .rdv) ∧ ((remotePoint w).part 0).run.active = true := by decide +kernel

/-- Partition 0 with a layout record that waits for the boundary: it disables the partition. -/
def layoutWaits : State := withP { boundaryDue := true, layoutNew := some 0 }

theorem witness_ArrivalsAndBoundary_BoundaryAppliesInOrder :
    layoutWaits.live = true ∧ (layoutWaits.part 0).run.active = false ∧ (layoutWaits.part 0).armed = false ∧
    (layoutWaits.part 0).rearmDue = false ∧ (layoutWaits.part 0).boundaryDue = true ∧
    (layoutWaits.part 0).layoutNew = some 0 ∧
    up.live = true ∧ (up.part 0).run.active = false ∧ (up.part 0).armed = false ∧
    ((withP { boundaryDue := true }).part 0).rearmDue = false ∧ ((withP { boundaryDue := true }).part 0).boundaryDue = true ∧
    ((withP { boundaryDue := true }).part 0).layoutNew = none ∧ (withP { boundaryDue := true }).live = true ∧
    ((withP { boundaryDue := true }).part 0).run.active = false ∧ ((withP { boundaryDue := true }).part 0).armed = false ∧
    (withP { rearmDue := true }).live = true ∧ ((withP { rearmDue := true }).part 0).run.active = false ∧
    ((withP { rearmDue := true }).part 0).armed = false ∧ ((withP { rearmDue := true }).part 0).rearmDue = true ∧
    (withP { rearmDue := true }).slack.scanning = false := by decide +kernel

/-! ### Gates -/

/-- Group 0 as given, whose source is DC; partition 0 is ready for frame 1. -/
def gated (x : Group) : State :=
  { withP { ready := true, readyFrame := 1 } with groups := [(0, x)], dict := [(dkey 0x2200 1, 1)], ecat := { st := .op, dc := some 1000000 } }

/-- A member led by device 9; a leader that misses its member's ready; and one that has it. -/
def member0 : Group := { role := 1, leader := 9, members := [0, 9], fired := true }
def leader0 (ready : List (BitVec 8 × BitVec 32)) : Group := { role := 2, members := [0], ready, fired := true }

theorem witness_GatesCollectReadyAndFire_GateReadyIsReportedAndCounted :
    (gated member0).live = true ∧ ((gated member0).group 0).role ≠ 0 ∧ (gated member0).deviceReady 0 = true ∧
    ((gated member0).group 0).leader ≠ (gated member0).devNum ∧ (gated (leader0 [])).live = true ∧
    ((gated (leader0 [])).group 0).role = 2 ∧ ((gated (leader0 [])).group 0).fired = true ∧
    (1 : BitVec 32) = ((gated (leader0 [])).group 0).frame + 1 := by decide +kernel

/-- A fire of frame 1. -/
def fire1 : FireMsg := { frame := 1, group := 0, source := 1, missed := 0, lead := 5000, corr := 200, tf := 0 }

theorem witness_GatesCollectReadyAndFire_GateFiresNextFrame :
    (∀ l ∈ [[], [((0 : BitVec 8), (1 : BitVec 32))]], (gated (leader0 l)).live = true ∧ (gated (leader0 l)).sourceAt 0 1 77 = true ∧
      ((gated (leader0 l)).group 0).role = 2 ∧ ((gated (leader0 l)).group 0).allReady = !l.isEmpty ∧
      ((gated (leader0 l)).group 0).fired = true) ∧ (1 : BitVec 2) ≠ 0 ∧
    (0 : PartId) ∈ (gated (leader0 [])).groupParts 0 ∧ ((gated (leader0 [])).part 0).ready = true ∧
    ((gated (leader0 [])).part 0).slackStopped = false ∧ (gated member0).live = true ∧ fire1.group = 0 ∧
    ((gated member0).group 0).role = 1 ∧ ((gated member0).group 0).leader = 9 ∧
    later fire1.frame ((gated member0).group 0).frame = true ∧ (0 : PartId) ∈ (gated member0).groupParts 0 ∧
    ((gated member0).part 0).ready = true ∧ (0 : Stamp).toNat + fire1.lead.toNat + 4000 < 2 ^ 64 ∧
    (BitVec.ofNat 64 (2 ^ 64 - 9001)).toNat + fire1.lead.toNat + 4000 < 2 ^ 64 := by decide +kernel

/-! ### Topology and frames on the fabric -/

/-- The fabric is up and ring 0 runs. -/
def onRing : State := { up with fabricUp := true, ports := [(0, { st := 2 })] }

/-- Device 9's announcement. -/
def announce9 : Announcement := { seq := 1, dev := 9, groups := 1, partners := [(0, 0, 100)] }

theorem witness_TopologyFloodsOnceAndLeads :
    onRing.live = true ∧ onRing.fabricUp = true ∧ onRing.ringUp 0 = true ∧ announce9.dev ≠ onRing.devNum ∧
    (announce9.dev, announce9.seq) ∉ onRing.topoSeen ∧
    (announce9.dev, announce9.seq) ∈ ({ onRing with topoSeen := [(9, 1)] } : State).topoSeen ∧
    ({ onRing with topoSeen := [(9, 1)] } : State).ringUp 0 = true ∧ up.announcers 0 ≠ [] := by decide +kernel

/-- A frame of 36 bytes: class 1, TYPE 0x04 (a credit), one route word, no payload, its CRC-32C at the end. -/
def frame36 (word : Nat) : List Byte :=
  let l : List Byte := [0x11, 0x04, 0, 0, 0, 0, 9, 0, 0, 0, 0, 0] ++ leBytes 2 word ++ List.replicate 22 0
  patch l 32 (leBytes 4 (crc32c (frameCovered l)).toNat)

/-- The same with its reserved byte 23 set. -/
def dirty36 : List Byte :=
  let l := (frame36 2).set 23 1
  patch l 32 (leBytes 4 (crc32c (frameCovered l)).toNat)

/-- Both ports of engine 0 are up. -/
def twoPorts : State := { up with ports := [(0, { st := 2 }), ((oppositePort 0).val, { st := 2 })] }

theorem witness_FramesAndDatagramsAreServed_FramesAreCheckedForwardedDelivered :
    twoPorts.live = true ∧ (twoPorts.port 0).st = 2 ∧ (twoPorts.port 0).eth = false ∧ (twoPorts.port (oppositePort 0)).st = 2 ∧
    (twoPorts.port (oppositePort 0)).eth = false ∧ ¬ (36 ≤ (frame36 1).tail.length) ∧ ¬ (frameSound ((frame36 1).set 35 0) = true) ∧
    36 ≤ dirty36.length ∧ frameSound dirty36 = true ∧ frameClean dirty36 = false ∧
    (classesOf (leAt dirty36 1 1)).contains (leAt dirty36 0 1 / 16 % 4) = true ∧
    (∀ w ∈ [0, 1, 2, 255], 36 ≤ (frame36 w).length ∧ frameSound (frame36 w) = true ∧ frameClean (frame36 w) = true ∧
      (classesOf (leAt (frame36 w) 1 1)).contains (leAt (frame36 w) 0 1 / 16 % 4) = true ∧ leAt (frame36 w) 20 1 % 4 = 0 ∧
      leAt (frame36 w) 12 2 % 256 = w ∧ leAt (frame36 w) 9 1 % 2 = 0 ∧
      leAt (patch (frame36 w) 12 (leBytes 2 (leAt (frame36 w) 12 2 - 1))) 14 2 % 256 = 0 ∧
      leAt (patch (frame36 w) 12 (leBytes 2 (leAt (frame36 w) 12 2 - 1))) 8 1 = twoPorts.devNum.toNat) := by decide +kernel

/-- Slot 0 of partition 0 is registered at address 5, port 6; link 0 runs. -/
def linked : State :=
  { up with ports := [(0, { st := 2, eth := true })], engines := [((engineOf 0).val, { ethMode := true })]
            dict := [(vk 0x30 1, 5), (vk 0x30 2, 6), (vk 0x30 3, 1)] }

/-- A datagram of no payload for it. -/
def datagram0 : List Byte :=
  let l : List Byte := [1, 0x11] ++ List.replicate 14 0
  l ++ leBytes 4 (crc32c l).toNat

/-- It is addressed to the link-local address of a port whose MAC address is 0, and to the transport's default port. -/
def udpTo : UdpHead := { dst := BitVec.ofNat 128 (linkLocal 0), dstPort := 40960, sumOk := true, plain := true }

theorem witness_FramesAndDatagramsAreServed_TransportServesRegisteredSlots :
    linked.udpOk 0 udpTo = true ∧ linked.udpOk 0 { udpTo with plain := false } = false ∧
    linked.ownAddress 0 udpTo.dst = true ∧ linked.ownAddress 0 7 = false ∧
    linked.dictReady = true ∧ linked.linkUp 0 = true ∧ (0 : HostSlot).val = leAt datagram0 4 1 % 16 ∧
    (0 : PartId).val = leAt datagram0 5 1 % 8 ∧
    20 ≤ datagram0.length ∧ datagramSound datagram0 = true ∧
    datagramSound (datagram0.set 19 0) = false ∧ linked.slotRegistered 0 (0 : HostSlot).val = true ∧
    linked.slotPair 0 (0 : HostSlot).val = ((5 : BitVec 128).toNat, (6 : BitVec 16).toNat) ∧
    linked.slotPair 0 (0 : HostSlot).val ≠ ((5 : BitVec 128).toNat, (7 : BitVec 16).toNat) := by decide +kernel

/-! ### Optical engines -/

/-- Engine 0 and port 0 as given. -/
def optic (e : Engine) (x : Port) : State := { up with engines := [(0, e)], ports := [(0, x)], fabricUp := true }

/-- An engine at THROUGH with a good laser, and a port that is up on lanes 0 to 7. -/
def through0 : Engine := { switch := .through, holdupOk := true, laser := 0, l0Ok := true, mod0 := true }
def upPort (spareFor : BitVec 4) : Port := { st := 2, lanes := 8, spareFor, laneMap := List.finRange 9 }

/-- What the engine's inputs show: input 0 is fit, input 1 as given. -/
def inputs0 (l1 : Bool) : EngineIn := { holdup := true, l0Ok := true, l1Ok := l1, mod0 := true, mod1 := l1 }

/-- Measurements of a training that ends at stage `n`, or passes. -/
def trained (n : Fin 8) : Training :=
  { failed := n, fast := false, lanesBest := List.finRange 9, rtt := 640, txpwr := 0, rxpwr := 0xB5, inputs := inputs0 false }

/-- A partner's record. -/
def partnerRec (fabver : BitVec 16) : CapRec :=
  { fabver, portid := 1, lanes := 8, spareOk := true, srcnum := 0x090000, groups := 1, txpwr := 0, rxloss := 0, rsvd := 0 }

/-- A port that failed at stage 3 and has its partner's record. -/
def failedPort : Port := { stage := 3, partner := some (partnerRec 1) }

theorem witness_OpticalEnginesTrainAndSwitch_LanesLasersAndTraining :
    (∀ k ∈ [(0xF : BitVec 4), 3], ((optic through0 (upPort k)).port 0).st = 2 ∧ ((optic through0 (upPort k)).port 0).eth = false ∧
      ((optic through0 (upPort k)).port 0).laneMap.length = 9 ∧ ((optic through0 (upPort k)).port 0).spareFor = k) ∧
    (∀ b, (inputs0 b).l1Ok = b) ∧
    (let s := optic through0 (upPort 0xF)
     (s.engine (engineOf 0)).laser = 0 ∧ (s.engine (engineOf 0)).ethMode = false ∧ (s.engine (engineOf 0)).ethHeld = false) ∧
    (let s := optic through0 failedPort
     (s.engine (engineOf 0)).switch = .through ∧ s.engineOn (engineOf 0) = true ∧ (s.engine (engineOf 0)).ethMode = false ∧
      ((s.engine (engineOf 0)).take (trained 0).inputs).pickLaser ≠ 2 ∧ (s.port (oppositePort 0)).st ≠ 2 ∧
      (s.port 0).st = 0 ∧ (s.port 0).stage ≠ 0 ∧ (s.port 0).partner ≠ none) ∧
    (trained 0).fast = false ∧ (trained 0).failed.val = 0 ∧ 8 ≤ (trained 0).lanesBest.eraseDups.length ∧
    0 ≤ marginOf (trained 0).rxpwr ∧ marginOf (trained 0).rxpwr ≤ 127 ∧ 640 ≤ (trained 0).rtt.toNat ∧
    (∀ n ∈ [(4 : Fin 8), 7], (trained n).failed.val ≠ 0 ∧ (trained n).fast = false) ∧
    (partnerRec 1).rsvd = 0 ∧ ¬ ((partnerRec 1).fabver ≠ 1 ∨ (partnerRec 1).portid.toNat % 2 = (0 : PortId).val % 2) ∧
    (partnerRec 1).srcnum.extractLsb' 16 8 ≠ (optic through0 {}).devNum ∧
    ((partnerRec 2).fabver ≠ 1 ∨ (partnerRec 2).portid.toNat % 2 = (0 : PortId).val % 2) := by decide +kernel

/-- Engine 0 as given with the inputs that a command has met. -/
def taken (e : Engine) (i : EngineIn) : State := (optic e {}).modEngine 0 fun x => x.take i

theorem witness_OpticalEnginesTrainAndSwitch_SwitchesMoveByTheirConditions :
    (∀ c ∈ [(1 : BitVec 8), 2, 4], (taken through0 (inputs0 true)).causePresent 0 c.toNat = true ∧ c ≠ 7) ∧
    ((optic through0 {}).engine 0).ethMode = false ∧ ((optic through0 {}).engine 0).ethHeld = false ∧
    (taken { through0 with ethMode := true } (inputs0 true)).causePresent 0 (1 : BitVec 8).toNat = true ∧
    ((optic { through0 with ethMode := true } {}).engine 0).ethMode = true ∧
    (taken {} { inputs0 true with holdup := false }).causePresent 0 (7 : BitVec 8).toNat = true ∧
    ((optic {} {}).engine 0).switch = .bypass ∧
    ((optic { through0 with switch := .bypass } {}).engine 0).switch = .bypass ∧
    (taken { through0 with switch := .bypass } (inputs0 true)).mayThrough 0 = true ∧
    ({ inputs0 true with holdup := false } : EngineIn).holdup = false ∧
    ((optic { through0 with switch := .toBypass } {}).engine 0).switch = .toBypass ∧
    ((optic { through0 with switch := .toThrough } {}).engine 0).switch = .toThrough ∧
    (optic { through0 with switch := .toThrough } {}).engineOn 0 = true ∧ (onRing.port 0).st = 2 ∧ (onRing.port 0).eth = false ∧
    ({ onRing with dict := [(vk 0x50 1, 2)] } : State).tracing ≠ [] := by decide +kernel

/-! ### Alerts -/

/-- An alert of partition 0. -/
def alert0 : AlertMsg :=
  { frame := 1, src := 2, layer := 3, opid := 4, channel := 5, kind := 1, precommit := true, part := 0, ts := 6 }

/-- It is in cluster 0. -/
def alerting : State := { up with alert := { inCluster := [(0, alert0)] } }

theorem witness_AlertsPulseAndAreKept :
    alerting.live = true ∧ alerting.alert.inCluster = ((0 : ClusterId).val, alert0) :: [] ∧
    (alerting.part alert0.part.toFin).slackStopped = false ∧ (alerting.part alert0.part.toFin).kind4 = none ∧ up.live = true ∧
    ({ up with pins := { up.pins with alertLow := true } } : State).pins.alertLow = true ∧
    (∀ b, ({ up with pins := { up.pins with alertLow := true }, alert := { fatal := b } } : State).alert.fatal = b) := by decide +kernel

/-! ### Fatal faults -/

/-- Partition 0 boots its guest. -/
def booting : State := withP { st := .resetting }

/-- A dump that waits for partition 0. -/
def dumped : State :=
  { up with dump := some { cls := 1, parts := 1, source := 0, detail := 17, complete := true, flashOnly := false, dropped := 0
                           ts := 0, frames := [], waiting := 1 } }

theorem witness_FatalFaultsResetOrStop_PartitionFatalResetsItsPartition :
    (∀ l ∈ [0, 3], (inFrame 0 l lateRun).live = true ∧ ((inFrame 0 l lateRun).part 0).st ≠ .disabled ∧
      (inFrame 0 l lateRun).armed 0 = (l == 3) ∧ ((inFrame 0 l lateRun).part 0).slackStopped = false) ∧
    16 ≤ (16 : BitVec 8).toNat ∧ (20 : BitVec 8).toNat ≤ 20 ∧ (inFrame 0 0 lateRun).enabled 0 = true ∧
    ((inFrame 0 0 lateRun).part 0).run.active = true ∧ (withP { guestBooted := true, st := .empty }).live = true ∧
    ((withP { guestBooted := true, st := .empty }).part 0).guestBooted = true ∧ (withP { guestBooted := true, st := .empty }).armed 0 = false ∧
    (withP { guestBooted := true, st := .empty }).guestMaps 0 { addr := BitVec.ofNat 39 (70 * 2 ^ 32), write := true } = false ∧ booting.live = true ∧
    booting.phase = .service ∧ booting.enabled 0 = true ∧ (booting.part 0).guestBooted = false ∧ booting.coresUp 0 = true ∧
    dumped.live = true ∧ (dumped.dump.map fun d => d.waiting.getLsbD (0 : PartId).val) = some true := by decide +kernel

theorem witness_FatalFaultsResetOrStop_DeviceFatalStopsTheDevice :
    up.running = true ∧ 1 ≤ (1 : BitVec 8).toNat ∧ (3 : BitVec 8).toNat < 4 ∧ (7 : BitVec 8).toNat ≤ 7 ∧ (∀ p, up.armed p = false) ∧
    (inFrame 0 3 lateRun).running = true ∧ (inFrame 0 3 lateRun).armed 0 = true := by decide +kernel

/-! ### The dictionary -/

/-- The EtherCAT state machine stands at `st`. -/
def atEcat (st : EcatState) : State := { up with ecat := { st := st } }

/-- Firmware has 256 entries staged for the device area. -/
def full256 : State := { up with devArea := { staged := [(.firmware, (List.range 256).map fun i => (i + 1, 0))] } }

theorem witness_WritesStageAndReadsAnswer_WritesAreStagedOrRefused :
    (∀ w ∈ [Writer.firmware], up.mayAsk w = true ∧ full256.mayAsk w = true) ∧ (atEcat .preop).mayAsk .coe = true ∧
    ((writeParts 0x2310 0 false [101]).findSome? fun x => up.writeFault .firmware 0x2310 x.1 x.2).isSome = true ∧
    ((writeParts 0x1600 1 false [0, 0, 0, 0]).findSome? fun x => (atEcat .preop).writeFault .coe 0x1600 x.1 x.2) = none ∧
    (0x1600 : BitVec 16).toNat < 0x2000 ∧ writeParts 0x2010 1 false [1] = [(1, [1])] ∧
    ((writeParts 0x2010 1 false [1]).findSome? fun x => up.writeFault .firmware 0x2010 x.1 x.2) = none ∧
    dkey 0x2010 1 = commitKey (areaOf 0x2010) ∧ 0x2000 ≤ (0x2310 : BitVec 16).toNat ∧
    (∀ x ∈ writeParts 0x2310 0 false [100], dkey 0x2310 x.1 ≠ commitKey (areaOf 0x2310)) ∧
    (∀ s ∈ [up, full256],
      ((writeParts 0x2310 0 false [100]).findSome? fun x => s.writeFault .firmware 0x2310 x.1 x.2) = none) ∧
    setFits (assocSet ((up.area .device).setOf .firmware) (dkey 0x2310 0) 100) = true ∧
    setFits (assocSet ((full256.area .device).setOf .firmware) (dkey 0x2310 0) 100) = false ∧
    (atEcat .preop).writeFault .coe 0x1600 1 (leBytes 4 0) = none ∧ (0 : BitVec 32).toNat < 2 ^ (8 * entrySize 0x1600 1) ∧
    ((atEcat .op).mayAsk .coe = true ∧ ((atEcat .op).writeFault .coe 0x1600 1 (leBytes 4 0)).isSome = true) := by decide +kernel

/-- Two items of a read list. -/
def items2 : List ListItem := [{ index := 0x2310, sub := 0, rsvd := 0 }, { index := 0x2400, sub := 1, rsvd := 0 }]

/-- Their keys. -/
def keys2 : List (Nat × Nat) := items2.map fun x => (x.index.toNat, x.sub.toNat)

theorem witness_WritesStageAndReadsAnswer_ReadsAreAnsweredFromSnapshots :
    up.mayAsk .firmware = true ∧ ([0].findSome? (up.readFault .firmware 0x4000)).isSome = true ∧
    [0].findSome? (up.readFault .firmware 0x2310) = none ∧ subsOf 0x2400 ≠ [] ∧
    (subsOf 0x2400).findSome? (up.readFault .firmware 0x2400) = none ∧
    linked.mayAsk (.host 0 0) = true ∧ items2 ≠ [] ∧ items2.length ≤ 64 ∧ (∀ x ∈ items2, x.rsvd = 0) ∧
    (keys2.findSome? fun x => linked.readFault (.host 0 0) x.1 x.2) = none ∧
    ([(0x4000, 0)].findSome? fun x => linked.readFault (.host 0 0) x.1 x.2).isSome = true ∧
    ¬ (([] : List ListItem) ≠ []) ∧ (atEcat .op).mayAsk .coe = true ∧ subsOf 0x4000 = [] ∧ subsOf 0x2310 ≠ [] ∧
    entry? 0x2310 3 = none ∧ (entry? 0x2310 0).isSome = true := by decide +kernel

/-- Firmware's set `l` is staged for an area; partition 0 as given. -/
def stagedDev (l : List (Nat × Nat)) : State := { up with devArea := { staged := [(.firmware, l)] } }
def stagedView (st : PartSt) (l : List (Nat × Nat)) : State :=
  withP { st, guestBooted := true, image := some {}, area := { staged := [(.firmware, l)] } }

theorem witness_CommitsQueueAndApply_CommitsAreCheckedAndQueued :
    up.mayAsk .firmware = true ∧ up.writeFault .firmware (commitKey .device / 256) (commitKey .device % 256) [1] = none ∧
    (stagedView .halted [(vk 0 3, 1)]).mayAsk .firmware = true ∧
    (stagedView .halted [(vk 0 3, 1)]).writeFault .firmware (commitKey (.view 0) / 256) (commitKey (.view 0) % 256) [1] = none ∧
    ((stagedView .halted [(vk 0 3, 1)]).part 0).st = .halted ∧
    rearms (((stagedView .halted [(vk 0 3, 1)]).part 0).area.setOf .firmware) = true ∧
    ((stagedView .idle [(vk 0x10 4, 5)]).part 0).st ≠ .halted ∧ ((stagedView .idle [(vk 0x10 4, 5)]).part 0).image ≠ none ∧
    ((stagedView .idle [(vk 0x10 4, 5)]).area (.view 0)).queue.length < 15 ∧
    (stagedView .idle [(vk 0x10 4, 5)]).setFault (.view 0) [(vk 0x10 4, 5)] = none ∧
    ((stagedDev [(dkey 0x2100 0, 1)]).area .device).queue.length < 15 ∧
    (stagedDev [(dkey 0x2100 0, 1)]).setFault .device [(dkey 0x2100 0, 1)] =
      some (dkey 0x2100 0, 0) := by decide +kernel

/-- A commit of one entry waits in the device area. -/
def commit1 : PendCommit := { seq := 1, writer := .firmware, set := [(dkey 0x2310 0, 20)] }
def queued : State := { up with devArea := { queue := [commit1], results := [(.firmware, { seq := 1, status := stAccepted })] } }

/-- Partition 0 is to be disabled. -/
def relaid : State := withP { layoutNew := some 0, st := .empty }

theorem witness_CommitsQueueAndApply_DeviceCommitsAndLayoutsApply :
    queued.phase = .service ∧ queued.devArea.queue = [commit1] ∧ (∀ p, (queued.part p).layoutNew = none) ∧
    (∀ x ∈ commit1.set, x.1 / 256 < 0x2100 ∨ 0x2107 < x.1 / 256) ∧
    ((entry? (dkey 0x2310 0 / 256) (dkey 0x2310 0 % 256)).map fun e => e.acc.1) = some .w ∧ (commit1.set.map fun x => x.1).Nodup ∧
    (assocGet {} queued.devArea.results commit1.writer).seq = commit1.seq ∧ relaid.live = true ∧ (relaid.part 0).layoutNew = some 0 ∧
    (relaid.part 0).run.active = false ∧ (relaid.part 0).armed = false ∧
    (relaid.part 0).image = none := by decide +kernel

/-! ### EtherCAT -/

/-- RxPDO 0x1600 maps 0x2310:0. -/
def mapping1 : State :=
  { atEcat .op with mapping := [(dkey 0x1600 0, 1), (dkey 0x1600 1, 0x23100008), (dkey 0x1A00 0, 1), (dkey 0x1A00 1, 0x23100008)] }

/-- Its sync event of the TxPDO has come. -/
def txDue1 : State := { mapping1 with ecat := { st := .op, txDue := true } }

theorem witness_EcatStatesAndProcessData :
    (atEcat .init).ecatServed = true ∧ (atEcat .init).ecatLegal .preop = true ∧ EcatState.preop ≠ .init ∧
    (atEcat .init).ecatLegal .op = false ∧ (atEcat .init).ecatLegal .boot = true ∧ (atEcat .op).ecat.st = .op ∧
    mapping1.dictReady = true ∧ mapping1.ecat.st = .op ∧
    ([20] : List Byte).length = (mapping1.mapped 0x1C12 0x1600).foldl (fun n x => n + entrySize x.1 x.2) 0 ∧
    (cutImage (mapping1.mapped 0x1C12 0x1600) [15]) = [(0x2310, 0, [15])] ∧ mapping1.pdoHas 0x2310 0 = leNat [15] ∧
    mapping1.mapped 0x1C13 0x1A00 = [(0x2310, 0)] ∧ ¬ (100000 ≤ (99999 : BitVec 32).toNat) ∧ 100000 ≤ (100000 : BitVec 32).toNat ∧
    mapping1.syncMet false .sync1 = false ∧ mapping1.syncMet false .sm2 = true ∧ txDue1.dictReady = true ∧
    txDue1.ecat.txDue = true ∧ txDue1.ecat.st = .op ∧ mapping1.ecat.txDue = false := by decide +kernel

/-- FoE may write partition 0's download area; the device is in BOOT; a slot is written; a trial runs. -/
def foeOpen : State := { atEcat .op with dict := [(dkey 0x2110 0, 1)] }
def writtenSlot : State := { up with flash := { slotB := { mark := .written, ended := true } } }
def trialRuns : State := { onRing with island := { trial := true }, flash := { slotA := { mark := .trial, order := 2 } } }

theorem witness_FilesAndFirmwareSlots :
    foeOpen.phase = .service ∧ foeOpen.coeOpen = true ∧ bitN (foeOpen.dval 0x2110 0) (0 : PartId).val = true ∧
    (2 ^ 32 - 4) + ([1, 2, 3, 4] : List Byte).length ≤ 2 ^ 32 ∧ (1 : BitVec 32) ≠ 0 ∧ (atEcat .boot).phase = .service ∧
    (atEcat .boot).ecat.st = .boot ∧ 67108860 + ([1, 2, 3, 4] : List Byte).length ≤ 67108864 ∧ writtenSlot.spareSlot.mark = .written ∧
    writtenSlot.spareSlot.ended = true ∧ trialRuns.live = true ∧ trialRuns.island.trial = true ∧
    trialRuns.bootedSlot.mark = .trial ∧ trialRuns.fabricUp = true := by decide +kernel

/-! ### Power, droop, heat, clocks -/

theorem witness_PowerTicksAndLevers_TickAttributesAllEnergy :
    up.live = true ∧ (allParts.map fun p => [1, 2].getD p.val 0).sum ≤ 3 ∧ (allParts.map fun p => ([] : List Nat).getD p.val 0).sum ≤ 0 := by
  decide +kernel

/-- Partition 0 with an image that has room for a slower setting, and one more class. -/
def roomy : State :=
  { withP { image := some { variants := 3, nominal := [1, 1], deadline := 100 }, eligible := 3 } with dict := [(vk 0x10 1, 100)] }

theorem witness_PowerTicksAndLevers_LeversLowerOnlyWhatMayMove :
    up.predict [] ≤ up.guardMw ∧ (roomy.pull (List.replicate 8 (16, 0))).isSome = true ∧
    (roomy.pull (List.replicate 8 (32, 0))).isSome = true := by decide +kernel

/-- Four samples have been kept; an alert is in cluster 0. -/
def sampled : State := { up with power := { up.power with samples := [1, 2, 3, 4] } }

/-- Partition 0 runs on the die, pinned to its settings or not. -/
def dieRuns (pinned : Bool) : State :=
  withP { image := some {}, ff := pinned, run := { active := true } }

theorem witness_SensorsDroopHeatAndClocks :
    up.live = true ∧ up.power.samples.length ≤ 4 ∧ sampled.live = true ∧ sampled.power.samples.length ≤ 4 ∧
    (up.die 0).stretching = false ∧ up.dieRunning 0 = [] ∧ (∀ x ∈ up.alert.inCluster, x.1 / 16 ≠ (0 : DieId).val) ∧
    (∀ b, (dieRuns b).live = true ∧ ((dieRuns b).die 0).stretching = false ∧ (dieRuns b).dieRunning 0 = [0] ∧
      ((dieRuns b).part 0).ff = b ∧ (dieRuns b).alert.inCluster = []) ∧
    alerting.live = true ∧ (alerting.die 0).stretching = false ∧
    (∃ x ∈ alerting.alert.inCluster, x.1 / 16 = (0 : DieId).val) ∧
    (List.replicate 3 ([some 1000] : List (Option Int))).length = 3 ∧ hottest [none, some 1029, some 1050] = some (2, 1050) ∧
    hottest [some 1030] = some (0, 1030) ∧ ({ throttle := true } : Thermal).throttle = true ∧ hottest [some 1049] = some (0, 1049) ∧
    ({} : Thermal).throttle = false ∧ up.running = true ∧ (-300 : Int) ≤ -300 ∧ (300 : Int) ≤ 300 := by decide +kernel

/-- Band 0 in a power state, with a draining order, or with a write to tile 0 on its way. -/
def band0 (d : DomSt) (x : Band) (l : List PutWrite) : State :=
  { with0 { writes := l } with domains := (List.range 30).map fun n => (n, if n = 0 then d else .on), bands := [(0, x)] }

theorem witness_BandsDrainAndReturn :
    (∀ l ∈ [[], [write0]], (band0 .on {} l).live = true ∧ (band0 .on {} l).dom (0 : BandId).val = .on ∧
      (band0 .on {} l).bandFree 0 = true ∧ ((band0 .on {} l).bandWrites 0 = [] ↔ l = [])) ∧
    (band0 .switching { draining := true } [write0]).dom (0 : BandId).val = .switching ∧
    ((band0 .switching { draining := true } [write0]).band 0).draining = true ∧
    ((band0 .switching { draining := true } [write0]).band 0).toRet = false ∧ (band0 .off {} []).live = true ∧
    (band0 .off {} []).startWord.failmap.getLsbD (0 : BandId).val = false ∧ (band0 .off {} []).dom (0 : BandId).val = .off ∧
    (band0 .switching {} []).live = true ∧ (band0 .switching {} []).startWord.failmap.getLsbD (0 : BandId).val = false ∧
    (band0 .switching {} []).dom (0 : BandId).val = .switching ∧ ((band0 .switching {} []).band 0).draining = false ∧
    (∀ p ∈ (band0 .switching {} []).bandOwners 0,
      (((band0 .switching {} []).setDom (0 : BandId).val .on).modBand 0 fun x =>
        { x with onAt := (band0 .switching {} []).bandClocks 0 }).strands p 0 = false) ∧
    (∀ l ∈ [[], [write0]], (band0 .on {} l).mustRet 0 = false) ∧ (band0 .switching { draining := true } [write0]).mustRet 0 = false ∧
    (∀ p, ((band0 .switching {} []).part p).pageReload = []) ∧ (band0 .ret {} []).live = true ∧
    (band0 .ret {} []).dom (0 : BandId).val = .ret ∧ (∀ p, ((band0 .ret {} []).part p).pageReload = []) := by decide +kernel

/-! ### Resets, start, shutdown -/

theorem witness_ResetsStartsAndShutdown_ResetsKeepWhatTheyMust :
    ({ up with watchdog := { running := true } } : State).watchdog.running = true ∧
    ({ up with watchdog := { running := true } } : State).watchdog.paused = false ∧
    (∀ d, up.dump = some d → 100000000 ≤ nsSince d.ts up.now) := by decide +kernel

/-- What a start meets: slot A's verdict, the stacks' training. -/
def startIn (a trains : Bool) : StartIn :=
  { refOk := true, tampers := 0, temps := [250], slotAOk := a, slotBOk := false, mapOk := 3, signatures := [], plls := true
    stacksOk := trains, findings := [], lasersOk := 0xFFFF, modulesOk := 0xFFFF, holdup := 0xFF, forms := [], octal := 3 }

/-- The device in a shutdown's stage. -/
def closingAt (ph : PhaseSt) (t : Bool) : State := { up with phase := ph, testing := t }

theorem witness_ResetsStartsAndShutdown_StartsAndShutsDown :
    State.reset.phase = .inReset ∧ State.reset.island.tamper = false ∧ State.reset.transition = false ∧
    startHolds { startIn true true with refOk := false } = true ∧ startHolds { startIn true true with temps := [950] } = true ∧
    (∀ a b, startHolds (startIn a b) = false) ∧
    ({ halfway with phase := .inReset } : State).transition = true ∧
    ({ State.reset with island := { tamper := true } } : State).phase = .inReset ∧
    ({ State.reset with island := { tamper := true } } : State).transition = false ∧
    ({ State.reset with island := { tamper := true } } : State).island.tamper = true ∧
    ((((State.reset.stepOne (startIn false true)).deriveKeys.finishRaise.pickSlot false false).2 = none)) ∧
    (∀ b, ((State.reset.stepOne (startIn true b)).deriveKeys.finishRaise.pickSlot true false).2 ≠ none) ∧
    (startIn true false).stacksOk = false ∧ (closingAt .ebbWrite false).phase = .ebbWrite ∧
    (∀ b, (closingAt .ebb b).phase = .ebb ∧ (closingAt .ebb b).testing = b) ∧ up.phase = .service ∧
    (∀ p, (up.part p).run.active = false) ∧ (inFrame 0 0 lateRun).phase = .service ∧
    ((inFrame 0 0 lateRun).part 0).run.active = true := by decide +kernel

/-! ### The Strandline ring -/

/-- Partition 0 traces at level `lvl`, with a batch of one beacon record. -/
def traces (lvl : Nat) : State := { withP { batch := [List.replicate 16 1] } with dict := [(vk 0x50 1, lvl)] }

/-- This device leads group 0 of itself and device 9, and device 9's batch. -/
def leads : State := { traces 2 with groups := [(0, { role := 2, members := [0, 9] })] }
def batch9 : List Byte := [9, 0, 1, 0] ++ List.replicate 12 0 ++ List.replicate 16 1

/-- Partition 0 traces in a group that device 9 leads; port 0 leads there, or nothing does. -/
def awayFrom9 (r : Bool) : State :=
  { traces 1 with groups := [(0, { role := 1, leader := 9 })], dict := [(vk 0x50 1, 1), (dkey 0x2200 1, 1)]
                  ports := [(0, { st := 2 })], routes := if r then [(9, [0x1000])] else [] }

theorem witness_RingOffersAndPointers :
    (1 : PartId) ≠ 0 ∧ (traces 1).live = true ∧ (traces 1).enabled 0 = true ∧ 1 ≤ (traces 1).level 0 ∧
    ((traces 1).part 0).slackStopped = false ∧ ((traces 1).part 0).batch ≠ [] ∧ (traces 1).leaderOfPart 0 = (traces 1).devNum ∧
    (awayFrom9 true).leaderOfPart 0 ≠ (awayFrom9 true).devNum ∧ (awayFrom9 true).routeUp? 9 = some (0, [0x1000]) ∧
    leads.live = true ∧ (leads.group 0).role = 2 ∧ (9 : BitVec 8) ≠ leads.devNum ∧ (9 : BitVec 8) ∈ (leads.group 0).members ∧
    batchOk 9 batch9 = true := by decide +kernel

/-! ### Slack -/

/-- Partition 0 is armed (Slack level 3), with the Slack state given. -/
def slacked (x : Slack) : State := { withP { st := .idle } with dict := [(vk 0x50 1, 3)], slack := x }

/-- A stop message of device 9. -/
def stop9 : StopMsg := { stopid := 0x09000001, origin := 9, target := 100 }

theorem witness_SlackStopsArmedPartitions :
    (slacked {}).live = true ∧ (slacked {}).slack.pending = false ∧ (0 : PartId) ∈ (slacked {}).armedParts ∧
    1 ≤ (1 : Fin 7).val ∧ (4 : Fin 7).val ≤ 4 ∧ (slacked {}).slack.stopped = false ∧ (slacked {}).armedParts ≠ [] ∧
    (slacked {}).slack.awaitId = false ∧ stop9.stopid ∉ (slacked {}).slack.seen ∧
    stop9.stopid ∈ (slacked { seen := [0x09000001] }).slack.seen ∧ (slacked { seen := [0x09000001] }).live = true ∧
    (slacked { awaitId := true }).slack.awaitId = true ∧ (slacked { pending := true }).live = true ∧
    (slacked { pending := true }).slack.pending = true ∧ (slacked { pending := true }).armedParts ≠ [] ∧
    (∀ p ∈ (slacked { pending := true }).armedParts, ((slacked { pending := true }).part p).strand.capHeld = false) ∧
    (slacked { scanning := true }).slack.scanning = true ∧ (slacked { scanning := true }).slack.after = none := by decide +kernel

/-! ### The queue, the memories, the decoder -/

/-- A NOP waits for tile 0. -/
def pendingNop : State := { up with pending := [.nop 0 ids 0] }

theorem witness_StepRunsFrontCommand : pendingNop.pending = .nop 0 ids 0 :: [] ∧ up.pending = [] := by decide +kernel

theorem witness_CommandsLeaveTheQueue : ∃ s', exec .watchdogRestart pendingNop = .next s' := ⟨_, rfl⟩

theorem witness_StepsKeepMemoryCanonical :
    pendingNop.memOk = true ∧ ({ pendingNop with hbm := Mem.writeBytes [] 5 [1, 0, 2] } : State).memOk = true ∧
    (match step pendingNop with | .next s => s.memOk | _ => false) = true := by decide +kernel

theorem witness_EveryCommandCompletes :
    (288 * 2 ^ 30 - 1 : BitVec 39).toNat < 288 * 2 ^ 30 ∧ 288 * 2 ^ 30 ≤ (288 * 2 ^ 30 : BitVec 39).toNat := by decide +kernel

theorem witness_DecodeUndoesEncode :
    encode (.nop 0 ids 0) = some 0x00030031000000000000000000000000 ∧
    decodeUop 0 0x0003003108FFFF7F2000000000000000 = some (.macp 0 ids
      { macros := 0xFFFF, half := 0, rgmask := 0xF, bm1 := 7, asgn := 0, mode := 0, grp := 2, sk := 0, partner := 0, rsvd := 0 }) ∧
    uopRefused 0 0x00030031000000000000000000000000 = false := by decide +kernel

/-! ### Well-formed commands: an ill-formed term for each check -/

def wPut : PutHdr :=
  { window := 2, epoch := 9, wofs := 0, wlm1 := 63, grant := 0, host := true, writer := 0, tag := 5, sofs := 0, slm1 := 63
    first := true, last := true, rsvd := 0 }

theorem test_wf_put_segment :
    putWf wPut (List.replicate 64 0) = true ∧ putWf wPut (List.replicate 63 0) = false ∧
    putWf { wPut with wlm1 := 8192, slm1 := 8192 } (List.replicate 8193 0) = false ∧
    putWf { wPut with sofs := 1 } (List.replicate 64 0) = false := by decide +kernel

theorem test_wf_read_segment :
    readSegWf { window := 2, frame := 0, tag := 0, sofs := 0, slm1 := 1, last := true, rsvd := 0 } (List.replicate 65 0) = true ∧
    readSegWf { window := 2, frame := 0, tag := 0, sofs := 0, slm1 := 1, last := true, rsvd := 0 } (List.replicate 64 0) = false ∧
    readSegWf { window := 2, frame := 0, tag := 0, sofs := 0, slm1 := 0, last := true, rsvd := 0 } (List.replicate 65 0) = false := by
  decide +kernel

theorem test_wf_read_list :
    (Instr.readList 0 0 1 [{ index := 0x2310, sub := 0, rsvd := 0 }]).wellFormed = true ∧ (Instr.readList 0 0 1 []).wellFormed = false ∧
    (Instr.readList 0 0 1 (List.replicate 65 { index := 0x2310, sub := 0, rsvd := 0 })).wellFormed = false := by decide +kernel

def wMacp : MacpF :=
  { macros := 0x00FF, half := 0, rgmask := 0xF, bm1 := 7, asgn := 1, mode := 1, grp := 2, sk := 0, partner := 0, rsvd := 0 }

/-- R140: no macro, no row group, BFP of other than 8 signed bits, GRP 3, PARTNER without slices or not named or the
first named, a reserved bit. -/
theorem test_wf_macp :
    (Instr.macp 0 ids wMacp).wellFormed = true ∧ (Instr.macp 0 ids { wMacp with macros := 0 }).wellFormed = false ∧
    (Instr.macp 0 ids { wMacp with rgmask := 0 }).wellFormed = false ∧ (Instr.macp 0 ids { wMacp with bm1 := 6 }).wellFormed = false ∧
    (Instr.macp 0 ids { wMacp with asgn := 0 }).wellFormed = false ∧ (Instr.macp 0 ids { wMacp with grp := 3 }).wellFormed = false ∧
    (Instr.macp 0 ids { wMacp with partner := 1 }).wellFormed = false ∧
    (Instr.macp 0 ids { wMacp with sk := 1, partner := 8 }).wellFormed = false ∧
    (Instr.macp 0 ids { wMacp with sk := 1, partner := 0 }).wellFormed = false ∧
    (Instr.macp 0 ids { wMacp with sk := 1, partner := 4 }).wellFormed = true ∧
    (Instr.macp 0 ids { wMacp with rsvd := 1 }).wellFormed = false := by decide +kernel

/-- R138, R137: LAYER or OPID 0xFFFF, and an opcode that no row has. -/
theorem test_wf_ids_and_opcode :
    (Instr.nop 0 { ids with layer := 0xFFFF } 0).wellFormed = false ∧ (Instr.nop 0 { ids with opid := 0xFFFF } 0).wellFormed = false ∧
    uopWf 0x00030031030000000000000000000000 = false ∧ uopWf 0x00030031490000000000000000000000 = false := by decide +kernel

/-- R139: LOOP, WAITC and NOP with a reserved bit, WAITC of no cycles and of no mode. -/
theorem test_wf_control :
    (Instr.nop 0 ids 1).wellFormed = false ∧ (Instr.waitcCount 0 ids { count := 0, rsvd := 0 }).wellFormed = false ∧
    (Instr.waitcCount 0 ids { count := 1, rsvd := 1 }).wellFormed = false ∧
    (Instr.waitcDone 0 ids { cnt := 3, k := 0, rsvd := 1 }).wellFormed = false ∧ uopWf 0x00030031028000000000000000000000 = false ∧
    (Instr.loopSetn 0 ids { n := 3, value := 0, rsvd := 1 }).wellFormed = false ∧
    (Instr.loopSetq 0 ids { q := 7, rsvd := 1, value := 0 }).wellFormed = false ∧
    (Instr.loopSetq 0 ids { q := 7, rsvd := 0, value := 2 ^ 62 }).wellFormed = false ∧
    (Instr.loopBranch 0 ids { n := 0, rsvd1 := 1, target := 0, rsvd0 := 0 }).wellFormed = false ∧
    (Instr.loopJump 0 ids { rsvd1 := 0, target := 0, rsvd0 := 1 }).wellFormed = false := by decide +kernel

def wLdw : LdwF :=
  { macros := 3, src := 1, rgmask := 0xF, pm1 := 7, wsgn := 1, chkgen := 1, fin := 0, qsrc := 2, inc := 1, cnt := 2, rsvd := 0 }

/-- R142, R143: LDW and SWAP name a macro, LDW a row group, CNT is 0 for the scratchpad. -/
theorem test_wf_weights :
    (Instr.ldw 0 ids wLdw).wellFormed = true ∧ (Instr.ldw 0 ids { wLdw with macros := 0 }).wellFormed = false ∧
    (Instr.ldw 0 ids { wLdw with rgmask := 0 }).wellFormed = false ∧ (Instr.ldw 0 ids { wLdw with src := 0 }).wellFormed = false ∧
    (Instr.ldw 0 ids { wLdw with rsvd := 1 }).wellFormed = false ∧ (Instr.swap 0 ids { macros := 0, rsvd := 0 }).wellFormed = false ∧
    (Instr.swap 0 ids { macros := 1, rsvd := 1 }).wellFormed = false := by decide +kernel

def wAclr : AclrF := { macros := 0x00FF, slot := 1, amode := 1, obase := 2, ostep := 2, oper := 1, rsvd := 0 }
def wApre : ApreF :=
  { macros := 0x00FF, slot := 1, amode := 0, obase := 2, ostep := 2, oper := 1, fmt := 1, psh := 3, qsrc := 0, inc := 0, nm1 := 0
    rsvd := 0 }

/-- R144, R145, R146: AMODE 3, fixed alignment in an odd slot, OPER above 4, OFS above 7, FMT above 7, BFP in fixed
alignment, a shift in a BFP mode, a reserved bit. -/
theorem test_wf_slots :
    (Instr.aclr 0 ids wAclr).wellFormed = true ∧ (Instr.aclr 0 ids { wAclr with amode := 3 }).wellFormed = false ∧
    (Instr.aclr 0 ids { wAclr with amode := 2 }).wellFormed = false ∧ (Instr.aclr 0 ids { wAclr with oper := 5 }).wellFormed = false ∧
    (Instr.aclr 0 ids { wAclr with obase := 7 }).wellFormed = false ∧ (Instr.aclr 0 ids { wAclr with rsvd := 1 }).wellFormed = false ∧
    (Instr.apre 0 ids wApre).wellFormed = true ∧ (Instr.apre 0 ids { wApre with fmt := 8 }).wellFormed = false ∧
    (Instr.apre 0 ids { wApre with fmt := 7, slot := 2, amode := 2, psh := 0 }).wellFormed = false ∧
    (Instr.apre 0 ids { wApre with amode := 1 }).wellFormed = false ∧ (Instr.apre 0 ids { wApre with obase := 7 }).wellFormed = false ∧
    (Instr.apre 0 ids { wApre with rsvd := 1 }).wellFormed = false ∧
    (Instr.prescan 0 ids { slot := 0, qsrc := 0, inc := 0, nbm1 := 0, rsvd := 1 }).wellFormed = false ∧
    (Instr.adrn 0 ids { slot := 0, pset := 0, qdst := 0, inc := 0, nm1 := 0, cbase := 0, rsvd := 1 }).wellFormed = false := by
  decide +kernel

def wPpu : PpuF :=
  { fmt := 0, func := 2, pset := 0, zp := 0, qmin := 0xFF80, qmax := 127, qscale := 0, qpar := 0, rsvd := 0 }

/-- R147, R148, R100: FMT 2 and above 0xA, QMAX below QMIN or outside the range of QMIN's sign, QPAR without a function that
reads it, fields written 0 for RAW, STAT close with a range. -/
theorem test_wf_ppu :
    (Instr.ppu 0 ids wPpu).wellFormed = true ∧ (Instr.ppu 0 ids { wPpu with fmt := 2 }).wellFormed = false ∧
    (Instr.ppu 0 ids { wPpu with fmt := 11 }).wellFormed = false ∧ (Instr.ppu 0 ids { wPpu with qmin := 127, qmax := 126 }).wellFormed = false ∧
    (Instr.ppu 0 ids { wPpu with qmax := 128 }).wellFormed = false ∧ (Instr.ppu 0 ids { wPpu with qmin := 0xFF7F }).wellFormed = false ∧
    (Instr.ppu 0 ids { wPpu with func := 0, qpar := 1 }).wellFormed = false ∧ (Instr.ppu 0 ids { wPpu with rsvd := 1 }).wellFormed = false ∧
    (Instr.ppu 0 ids { wPpu with fmt := 7 }).wellFormed = false ∧
    (Instr.statClose 0 ids { q := 0, inc := 0, c0 := 1, nm1 := 0, rsvd := 0 }).wellFormed = false ∧
    (Instr.statClose 0 ids { q := 0, inc := 0, c0 := 0, nm1 := 1, rsvd := 0 }).wellFormed = false ∧
    (Instr.statOpen 0 ids { q := 0, inc := 0, c0 := 0, nm1 := 0, rsvd := 1 }).wellFormed = false := by decide +kernel

def wOutp : OutpPassF := { macros := 1, half := 0, rgmask := 1, bm1 := 7, asgn := 0, rsvd := 0 }
def wMove : MoveF := { qsrc := 0, sinc := 1, qdst := 1, dinc := 0, dsel := 0, dmacros := 0, cw := 0, lm1 := 15, rsvd := 0 }

/-- R149 to R153: OUTP without a macro or a row group, MOVE to no macro, of CW above 4, with a destination it does not
serve, a page of a length that is no multiple of 16, RPUT and DMAH with a reserved bit. -/
theorem test_wf_moves :
    (Instr.outpPass 0 ids wOutp []).wellFormed = true ∧ (Instr.outpPass 0 ids { wOutp with macros := 0 } []).wellFormed = false ∧
    (Instr.outpPass 0 ids { wOutp with rgmask := 0 } []).wellFormed = false ∧
    (Instr.outpPass 0 ids { wOutp with rsvd := 1 } []).wellFormed = false ∧
    (Instr.outpLoad 0 ids { macros := 1, qsrc := 0, inc := 0, rsvd := 1 }).wellFormed = false ∧
    (Instr.moveToScratchpad 0 ids wMove).wellFormed = true ∧ (Instr.moveToScratchpad 0 ids { wMove with cw := 5 }).wellFormed = false ∧
    (Instr.moveToScratchpad 0 ids { wMove with dmacros := 1 }).wellFormed = false ∧
    (Instr.moveToStaging 0 ids { wMove with qdst := 0, lm1 := 0 }).wellFormed = false ∧
    (Instr.moveToStaging 0 ids { wMove with qdst := 0, dmacros := 1 }).wellFormed = false ∧
    (Instr.moveToStaging 0 ids { wMove with dmacros := 1, lm1 := 0 }).wellFormed = false ∧
    (Instr.moveToInstructionPage 0 ids { wMove with qdst := 0, lm1 := 16 }).wellFormed = false ∧
    (Instr.moveToInstructionPage 0 ids { wMove with qdst := 0 }).wellFormed = true ∧
    (Instr.rput 0 ids { qsrc := 0, sinc := 0, cred := 0, dofs := 0, lm1 := 0, urg := 0, cnt := 0, rsvd := 1 }).wellFormed = false ∧
    (Instr.dmahToHbm 0 ids { qhbm := 0, hinc := 0, qsp := 0, sinc := 0, l32m1 := 0, cnt := 0, rsvd := 1 }).wellFormed = false := by
  decide +kernel

/-- R154 to R159: RDV of no ACT or with GRANT on a wait, GATE, HINT with a reserved bit, TWIN of no window. -/
theorem test_wf_sync :
    uopWf 0x00030031380058000000000000000000 = false ∧ (Instr.rdvWait 0 ids { rid := 5, grant := 0, rsvd := 0 }).wellFormed = true ∧
    (Instr.rdvWait 0 ids { rid := 5, grant := 1, rsvd := 0 }).wellFormed = false ∧
    (Instr.rdvArrive 0 ids { rid := 5, grant := 1, rsvd := 1 }).wellFormed = false ∧ uopRefused 5 0x00030031380050000000000000000000 = true ∧
    uopRefused 6 0x00030031384058000000000000000000 = false ∧ uopRefused 5 0x00030031384058000000000000000000 = true ∧
    (Instr.gate 0 ids { start := 0, rsvd := 1 }).wellFormed = false ∧
    (Instr.hint 0 ids { level := 0, dist := 0, plen := 0, rsvd := 1 }).wellFormed = false ∧
    (Instr.twin 0 ids { macros := 0, spbanks := 1, wlen := 0, rsvd := 0 }).wellFormed = false ∧
    (Instr.twin 0 ids { macros := 0, spbanks := 1, wlen := 64, rsvd := 1 }).wellFormed = false := by decide +kernel

/-! ### Worked examples of the chapters -/

/-- Chapter 01: the PPU of die B, cluster 9, tile 3 on device 2, and HBM controller 1 of die A. -/
theorem test_source_numbers :
    ({ devNum := 2 } : State).srcTile ⟨256 + 16 * 9 + 3, by decide⟩ 18 = 0x26472 ∧ ({ devNum := 2 } : State).srcCtrl 1 = 0x203E1 := by
  decide +kernel

/-- Chapter 02: data column 77 is physical column 83, checksum column 5 is physical column 103. -/
theorem test_column_layout :
    (rowCells 0xFFFFFFFF (2 ^ 77) 0).getLsbD 83 = true ∧ (rowCells 0xFFFFFFFF 0 (2 ^ 5)).getLsbD 103 = true ∧
    onesOf (rowCells 0xFFFFFFFF (2 ^ 77) 0) = [83, 104] := by decide +kernel

/-- Chapter 02, a small pass worked through: the partial is −5, the checksums 253, 1, 254, both residues 250. -/
theorem test_small_pass :
    (outSums { pm1 := 1, wsgn := 1 } [(3, (rowCells 0xFFFFFFFF 2 253).toNat), (2, (rowCells 0xFFFFFFFF 1 1).toNat),
      (1, (rowCells 0xFFFFFFFF 3 254).toNat)] id).head? = some (-5) ∧
    checkSum [(3, (rowCells 0xFFFFFFFF 2 253).toNat), (2, (rowCells 0xFFFFFFFF 1 1).toNat), (1, (rowCells 0xFFFFFFFF 3 254).toNat)] =
      1015 ∧ (1015 : Int) % 255 = 250 ∧ (-5 : Int) % 255 = 250 ∧ rowSum 2 2 true = 253 ∧ rowSum 1 2 true = 1 ∧ rowSum 3 2 true = 254 := by
  decide +kernel

/-- Chapter 03, stage 11 of Gorse-12 in running alignment: X = 124, A = −1,747,983 × 2^20 + 5. -/
theorem test_running_alignment :
    let en := (((({} : Entry).addRunning 300001 120).addRunning (-512000) 122).addRunning 77 96).addRunning 1 124
    en.x = 124 ∧ en.a.toInt = -1747983 * 2 ^ 20 + 5 ∧ en.ovf = false := by decide +kernel

/-- The same in fixed alignment with EMAX = 124: nothing is lost. -/
theorem test_fixed_alignment :
    let a := addFixed {} {} (some 124) 300001 120
    let b := addFixed a.1 a.2.1 (some 124) (-512000) 122
    let c := addFixed b.1 b.2.1 (some 124) 77 96
    let d := addFixed c.1 c.2.1 (some 124) 1 124
    wideOf d.1 d.2.1 = 300001 * 2 ^ 60 - 512000 * 2 ^ 62 + 77 * 2 ^ 36 + 2 ^ 64 ∧ d.1.x = 124 ∧
    (a.2.2 || b.2.2 || c.2.2 || d.2.2) = false := by decide +kernel

/-- Chapter 03, Output conversion: 22,794 and 31,000 at scale 10,952,167 × 2^-31 become 116 and 127 with SAT; the stage 11
value at scale 0.25 becomes 0xD2AB in FP16. -/
theorem test_output_conversion :
    toIntFmt 0 (-128) 127 (mulF32 (toF32 false 22794 0).1 0x3BA71DE7).1 = (116, false, false) ∧
    toIntFmt 0 (-128) 127 (mulF32 (toF32 false 31000 0).1 0x3BA71DE7).1 = (127, true, false) ∧
    toF16 (mulF32 (toF32 true 1747983 (-13)).1 0x3E800000).1 = (0xD2AB, false) := by decide +kernel

/-- The check value of CRC-32C for the nine digits. -/
theorem test_crc32c : crc32c [0x31, 0x32, 0x33, 0x34, 0x35, 0x36, 0x37, 0x38, 0x39] = 0xE3069283 := by decide +kernel

/-! ### Steps -/

/-- R139: a NOP in front of the queue issues, the next AC follows, and the command behind it stays. -/
theorem test_step_nop :
    (match step { up with pending := [.nop 0 ids 0, .watchdogRestart] } with | .next s => s.pending == [.watchdogRestart] | _ => false) =
      true := by decide +kernel

/-- No table row has bits. -/
theorem test_table_words :
    decodeTableWord 128 0x00030031000000000000000000000000 = none ∧ State.reset.withFetchWord 8 5 = State.reset := by decide +kernel

/-- R417: a power-on reset from reset ends before the start, with every domain but D28 off. -/
theorem test_power_on_reset :
    (match exec .powerOnReset State.reset with | .next s => s.phase == .inReset && s.dom 28 == .on && s.dom 0 == .off | _ => false) =
      true := by decide +kernel

/-- R426: without a slot that passes, the start ends in the recovery loader. -/
theorem test_start_in_loader :
    (match exec (.startSequence (startIn false true)) State.reset with
     | .next s => s.phase == .loader && s.watchdog.running | _ => false) = true := by decide +kernel

/-- R258: a device address at or above 288 GiB does not exist. -/
theorem test_no_such_hbm_address :
    (match exec (.hbmReadReplay (288 * 2 ^ 30) ⟨0, .other 0⟩ true ⟨true, true⟩) up with | .fault f => f == .noSuchHbmAddress (288 * 2 ^ 30) | _ => false) =
      true := by decide +kernel

/-- A frame measured at D = 8, class 0. -/
def measured16 (arr log : Nat × Nat) : BandMeas := { frame := 1, div2 := 16, cls := 0, mv := (750, 750), arr, log }

/-- Chapter 16, a cap of 800 W on device 2: both partitions with clusters on both dies, at the measured powers. -/
def capped : State := { up with
  dict := [(dkey 0x2100 0, 1 + 0x0FFF03FF * 2 ^ 32), (dkey 0x2101 0, 1 + 0xF000FC00 * 2 ^ 32), (dkey 0x2400 1, 800)]
  parts := [(0, { image := some {}, meas := [measured16 (105000, 105000) (70000, 70000)] }),
            (1, { image := some {}, meas := [measured16 (63000, 63000) (42000, 42000)] })]
  power := { up.power with other := 490000 } }

/-- Chapter 16: the guard is 784.0 W, the floor 945.0 W, and both partitions at D = 14 draw 763.9 W. -/
theorem test_cap_of_800_W :
    capped.guardMw = 784000 ∧ capped.predict [(16, 0), (32, 0)] = 945000 ∧
    capped.predict [(28, 0), (28, 0)] / 100 = 7639 := by decide +kernel

end Sys2Proof.Tests
end

section
/-! ### Exponent 0xFF (R72)

The rules of the accumulation's operations for an element whose exponent marks it as not finite. -/

namespace Sys2Proof.Machine

/-- R72, R90: running alignment takes no value from an element with exponent 0xFF, whatever its mantissa. -/
@[simp] theorem Entry.addRunning_nonfinite (en : Entry) (v : Int) : en.addRunning v 255 = { en with nonfin := true } :=
  if_pos rfl

/-- R72, R95: fixed alignment takes no value from an element with exponent 0xFF, be EMAX valid or not: the partner's half
stays, and the exponent is no miss of EMAX. -/
@[simp] theorem addFixed_nonfinite (en lo : Entry) (emax : Option Nat) (v : Int) :
    addFixed en lo emax v 255 = ({ en with nonfin := true }, lo, false) :=
  if_pos rfl

/-- R72, R73, R86: an element of a BFP8/64 preload whose block's exponent byte is 0xFF is not finite. -/
theorem preElem_bfp_nonfinite {tl : Tile} {a i : Nat}
    (h : (Mem.read tl.sp (a + 260 * (i / 64 / 4) + 256 + i / 64 % 4)).toNat = 255) : preElem tl 6 a i = .bad :=
  if_pos h

end Sys2Proof.Machine

namespace Sys2Proof
open Machine

/-- Settles O14: each of the three operations looks at the exponent first, and 0xFF takes its non-finite branch. -/
theorem exponentFFMarksNonFinite : Obligations.ExponentFFMarksNonFinite := by
  refine ⟨fun en v => ?running, fun en lo m v => ?fixed, fun tl a i hExp => ?preload⟩
  case running => exact en.addRunning_nonfinite v
  case fixed => exact addFixed_nonfinite en lo m v
  case preload => exact preElem_bfp_nonfinite hExp

end Sys2Proof
end

section
/-! ### Fields of micro-op words (R7, R136, R511)

What a bit field of an encoded word holds, and how a fault of a field refuses the micro-op. Words are concatenations, so a
field is read by walking to the part that holds it. -/

namespace Sys2Proof.Machine

theorem mem_onesOf {w : Nat} {x : BitVec w} {i : Nat} : i ∈ onesOf x ↔ x.getLsbD i = true := by
  simp only [onesOf, List.mem_filter, List.mem_range, and_iff_right_iff_imp]
  exact BitVec.lt_of_getLsbD

theorem nodup_onesOf {w : Nat} (x : BitVec w) : (onesOf x).Nodup := List.nodup_range.filter _

/-- The value of a slice of a word is the field of its number. -/
theorem toNat_extractLsb'_eq_fieldN {w : Nat} (x : BitVec w) (lo n : Nat) :
    (x.extractLsb' lo (n + 1)).toNat = fieldN x.toNat (lo + n) lo := by
  rw [BitVec.extractLsb'_toNat, Nat.shiftRight_eq_div_pow, fieldN, show lo + n + 1 - lo = n + 1 by omega]

theorem testBit_fieldN (v hi lo i : Nat) :
    (fieldN v hi lo).testBit i = (decide (i < hi + 1 - lo) && v.testBit (lo + i)) := by
  rw [fieldN, Nat.testBit_mod_two_pow, Nat.testBit_div_two_pow, Nat.add_comm i]

/-- A field of one bit holds a one exactly where the bit is set. -/
theorem fieldN_bit_eq_one (v i : Nat) : fieldN v i i = 1 ↔ v.testBit i = true := by
  simp [fieldN, Nat.testBit_eq_decide_div_mod_eq]

/-- A field within the low part of a concatenation. -/
theorem fieldN_append_low {v w hi lo : Nat} (x : BitVec v) (y : BitVec w) (h : hi < w) :
    fieldN (x ++ y).toNat hi lo = fieldN y.toNat hi lo := by
  refine Nat.eq_of_testBit_eq fun i => ?_
  rw [testBit_fieldN, testBit_fieldN, BitVec.testBit_toNat, BitVec.testBit_toNat, BitVec.getLsbD_append]
  by_cases hi' : i < hi + 1 - lo
  · rw [if_pos (by omega)]
  · simp [hi']

/-- A field within the high part of a concatenation. -/
theorem fieldN_append_high {v w hi lo : Nat} (x : BitVec v) (y : BitVec w) (h : w ≤ lo) (hLo : lo ≤ hi) :
    fieldN (x ++ y).toNat hi lo = fieldN x.toNat (hi - w) (lo - w) := by
  refine Nat.eq_of_testBit_eq fun i => ?_
  rw [testBit_fieldN, testBit_fieldN, BitVec.testBit_toNat, BitVec.testBit_toNat, BitVec.getLsbD_append,
    if_neg (by omega), show lo + i - w = lo - w + i by omega, show hi - w + 1 - (lo - w) = hi + 1 - lo by omega]

/-- The field that is the whole word. -/
theorem fieldN_whole {w hi : Nat} (x : BitVec w) (h : hi + 1 = w) : fieldN x.toNat hi 0 = x.toNat := by
  subst h
  simp [fieldN, Nat.mod_eq_of_lt x.isLt]

end Sys2Proof.Machine

namespace Sys2Proof
open Machine

/-- R11, R509: a reserved field meets no fault exactly when it is zero. -/
theorem rsBits_eq_nil_iff (x hi lo : Nat) : rsBits x hi lo = [] ↔ fieldN x hi lo = 0 := by
  simp only [rsBits, List.filter_eq_nil_iff, List.mem_map, List.mem_range, forall_exists_index, and_imp,
    forall_apply_eq_imp_iff₂]
  refine ⟨fun h => Nat.zero_of_testBit_eq_false fun i => ?_, fun h i hi' => ?_⟩
  · rw [testBit_fieldN]
    by_cases hi' : i < hi + 1 - lo
    · simp [h i hi']
    · simp [hi']
  · have hBit := testBit_fieldN x hi lo i
    rw [h, Nat.zero_testBit] at hBit
    simpa [hi'] using hBit.symm

theorem badAt_eq_nil_iff (lo : Nat) (c : Bool) : badAt lo c = [] ↔ c = false := by
  cases c <;> simp [badAt]

/-- R136: the opcode of a word. -/
theorem fieldN_uopWord_opcode (id : Ids) (op : BitVec 8) (x : BitVec 88) :
    fieldN (uopWord id op x).toNat 95 88 = op.toNat := by
  calc fieldN (uopWord id op x).toNat 95 88
    _ = fieldN (id.layer ++ id.opid ++ op).toNat 7 0 := fieldN_append_high _ _ (by decide) (by decide)
    _ = fieldN op.toNat 7 0 := fieldN_append_low _ _ (by decide)
    _ = op.toNat := fieldN_whole op rfl

/-- R136: an operand field of a word is that of its operands. -/
theorem fieldN_uopWord_operand (id : Ids) (op : BitVec 8) (x : BitVec 88) {hi lo : Nat} (h : hi < 88) :
    fieldN (uopWord id op x).toNat hi lo = fieldN x.toNat hi lo :=
  fieldN_append_low _ x h

/-- R511: a fault of the operands refuses the micro-op, whatever its tags. -/
theorem uopRefused_of_operandFaults {points : Nat} {id : Ids} {op : BitVec 8} {x : BitVec 88}
    (h : operandFaults points op.toNat x.toNat ≠ []) : uopRefused points (uopWord id op x) = true := by
  have hOperands : fieldN (uopWord id op x).toNat 87 0 = x.toNat := by
    rw [fieldN_uopWord_operand id op x (by decide), fieldN_whole x rfl]
  simp [uopRefused, uopFaults, fieldN_uopWord_opcode, hOperands, h]

end Sys2Proof
end

section
/-! ### SWAP (R61, R105, R143) -/

namespace Sys2Proof.Machine

/-! #### Macros of a tile -/

theorem Tile.mac_modMac (tl : Tile) (k m : Nat) (g : Macro → Macro) :
    (tl.modMac k g).mac m = if m = k then g (tl.mac k) else tl.mac m := by
  rw [Tile.mac, Tile.modMac, Store.get_set]
  rfl

theorem Tile.modMacs_cons (tl : Tile) (k : Nat) (l : List Nat) (g : Nat → Macro → Macro) :
    tl.modMacs (k :: l) g = (tl.modMac k (g k)).modMacs l g := rfl

/-- A change of a mask's macros reaches each of them once, and no other. -/
theorem Tile.mac_modMacs {l : List Nat} (hl : l.Nodup) (tl : Tile) (g : Nat → Macro → Macro) (m : Nat) :
    (tl.modMacs l g).mac m = if m ∈ l then g m (tl.mac m) else tl.mac m := by
  induction l generalizing tl with
  | nil => rfl
  | cons k l ih =>
    obtain ⟨hk, hl⟩ := List.nodup_cons.mp hl
    rw [Tile.modMacs_cons, ih hl, Tile.mac_modMac]
    by_cases hm : m = k
    · simp [hm, hk]
    · simp [hm]

/-- A change of macros leaves the rest of the tile. -/
theorem Tile.modMacs_shape (tl : Tile) (l : List Nat) (g : Nat → Macro → Macro) :
    tl.modMacs l g = { tl with macros := (tl.modMacs l g).macros } := by
  induction l generalizing tl with
  | nil => rfl
  | cons k l ih =>
    rw [Tile.modMacs_cons, ih]
    rfl

/-! #### Outlier sets of a `Macro` -/

@[simp] theorem Macro.putSet_activePhys (mc : Macro) (p : BitVec 1) (v : OutSet) :
    (mc.putSet p v).activePhys = mc.activePhys := by
  unfold Macro.putSet
  split <;> rfl

@[simp] theorem Macro.putSet_bank (mc : Macro) (p q : BitVec 1) (v : OutSet) : (mc.putSet p v).bank q = mc.bank q := by
  unfold Macro.putSet
  split <;> rfl

@[simp] theorem Macro.putSet_outSet_same (mc : Macro) (p : BitVec 1) (v : OutSet) : (mc.putSet p v).outSet p = v := by
  unfold Macro.putSet Macro.outSet
  split <;> rfl

theorem Macro.putSet_outSet_other (mc : Macro) {p q : BitVec 1} (v : OutSet) (h : q ≠ p) :
    (mc.putSet p v).outSet q = mc.outSet q := by
  unfold Macro.putSet Macro.outSet
  rcases BitVec.eq_zero_or_eq_one p with rfl | rfl
  · simp [h]
  · simp [(BitVec.eq_zero_or_eq_one q).resolve_right h]

/-- The shadow bank is the other one (R37). -/
theorem Macro.activePhys_ne_shadowPhys (mc : Macro) : mc.activePhys ≠ mc.shadowPhys := by
  unfold Macro.shadowPhys
  generalize mc.activePhys = p
  revert p
  decide

/-! #### The exchange -/

/-- R61, R105: a `Macro` after its SWAP. -/
def Macro.swapped (mc : Macro) : Macro :=
  let set := mc.outSet mc.shadowPhys
  let mc := mc.putSet mc.shadowPhys { set with valid := set.valid && set.layer == mc.shadow.layer }
  { mc with activePhys := mc.shadowPhys }

@[simp] theorem Macro.swapped_activePhys (mc : Macro) : mc.swapped.activePhys = mc.shadowPhys :=
  congrArg (~~~ ·) (mc.putSet_activePhys ..)

@[simp] theorem Macro.swapped_shadowPhys (mc : Macro) : mc.swapped.shadowPhys = mc.activePhys := by
  rw [Macro.shadowPhys, swapped_activePhys, Macro.shadowPhys, BitVec.not_not]

@[simp] theorem Macro.swapped_bank (mc : Macro) (p : BitVec 1) : mc.swapped.bank p = mc.bank p :=
  mc.putSet_bank ..

theorem Macro.swapped_active (mc : Macro) : mc.swapped.active = mc.shadow := by
  rw [Macro.active, swapped_activePhys, swapped_bank, Macro.shadow]

theorem Macro.swapped_shadow (mc : Macro) : mc.swapped.shadow = mc.active := by
  rw [Macro.shadow, swapped_shadowPhys, swapped_bank, Macro.active]

theorem Macro.swapped_outSet_active (mc : Macro) :
    mc.swapped.outSet mc.swapped.activePhys = { mc.outSet mc.shadowPhys with
      valid := (mc.outSet mc.shadowPhys).valid && (mc.outSet mc.shadowPhys).layer == mc.shadow.layer } := by
  rw [swapped_activePhys]
  exact mc.putSet_outSet_same ..

theorem Macro.swapped_outSet_shadow (mc : Macro) : mc.swapped.outSet mc.swapped.shadowPhys = mc.outSet mc.activePhys := by
  rw [swapped_shadowPhys]
  exact mc.putSet_outSet_other _ mc.activePhys_ne_shadowPhys

/-! #### The micro-op -/

theorem State.count_cluster_other (s : State) {c x : ClusterId} (w n : Nat) (h : x ≠ c) :
    (s.count c w n).cluster x = s.cluster x := by
  unfold State.count
  split
  · rfl
  · exact s.modCluster_cluster_other _ h

/-- A count leaves every cluster but for its counters. -/
theorem State.count_cluster_shape (s : State) (c x : ClusterId) (w n : Nat) :
    { (s.count c w n).cluster x with counters := [] } = { s.cluster x with counters := [] } := by
  by_cases h : x = c
  · subst h
    unfold State.count
    split
    · rfl
    · rw [State.modCluster_cluster_same]
  · rw [s.count_cluster_other w n h]

/-- An issued micro-op that works within its tile changes that tile and the counters of its cluster. -/
theorem State.onlyTile_issued (s : State) (t : TileId) (tl : Tile) : OnlyTile t s (s.issued t tl) := by
  refine ⟨rfl, fun x hx => ?tiles, fun c => ⟨?counters, fun hc => ?clusters⟩⟩
  case tiles => rw [State.issued, State.count_tile, State.modTile_tile_other _ _ hx]
  case counters => rw [State.issued, State.count_cluster_shape, State.modTile_cluster]
  case clusters => rw [State.issued, State.count_cluster_other _ _ _ hc, State.modTile_cluster]

/-- The tile after a SWAP that meets no conflict. -/
def Tile.swap (tl : Tile) (f : SwapF) : Tile := tl.modMacs (onesOf f.macros) fun _ => Macro.swapped

/-- R143: a SWAP none of whose macros is blocked swaps all of them, and the next micro-op follows. -/
theorem exec_swap_of_unblocked {s : State} {t : TileId} {id : Ids} {f : SwapF} (h : s.issues t (.swap t id f) = true)
    (hFree : ∀ m ∈ onesOf f.macros, swapBlocked (((s.due t).tile t).begun id) m = false) :
    exec (.swap t id f) s = .next ((s.due t).issued t ((((s.due t).tile t).begun id).swap f).next) := by
  have hBad : (onesOf f.macros).filter (swapBlocked (((s.due t).tile t).begun id)) = [] :=
    List.filter_eq_nil_iff.mpr fun m hm => by simp [hFree m hm]
  have hGo : ((onesOf f.macros).filter fun m => !([] : List Nat).contains m) = onesOf f.macros :=
    List.filter_eq_self.mpr fun _ _ => rfl
  have hPage := ((State.issues_iff rfl).mp h).2
  calc exec (.swap t id f) s = execSwap t id f s := rfl
    _ = .next ((s.due t).issued t ((((s.due t).tile t).begun id).swap f).next) := by
      rw [execSwap, State.issue_issues _ rfl h, State.begin_issued id hPage]
      dsimp only
      rw [State.issued_tile, hBad, if_pos rfl, hGo, State.issued_modTile, State.issued_retire]
      rfl

end Sys2Proof.Machine

namespace Sys2Proof
open Machine

/-- R143: MACROS stands in bits [87:72] of the operands. -/
theorem fieldN_swapBits_macros (f : SwapF) : fieldN (swapBits f).toNat 87 72 = f.macros.toNat := by
  calc fieldN (swapBits f).toNat 87 72 = fieldN f.macros.toNat 15 0 := fieldN_append_high _ _ (by decide) (by decide)
    _ = f.macros.toNat := fieldN_whole _ rfl

/-- R143: the bits below MACROS are reserved. -/
theorem fieldN_swapBits_rsvd (f : SwapF) : fieldN (swapBits f).toNat 71 0 = f.rsvd.toNat := by
  calc fieldN (swapBits f).toNat 71 0 = fieldN f.rsvd.toNat 71 0 := fieldN_append_low _ _ (by decide)
    _ = f.rsvd.toNat := fieldN_whole _ rfl

/-- R143, R509: a SWAP that names no macros, or that sets a reserved bit, is refused. -/
theorem uopRefused_swap {f : SwapF} (h : f.macros = 0 ∨ f.rsvd ≠ 0) (points : Nat) (id : Ids) :
    uopRefused points (uopWord id 0x11 (swapBits f)) = true := by
  refine uopRefused_of_operandFaults fun hNone => ?_
  have hNone : badAt 72 (fieldN (swapBits f).toNat 87 72 == 0) ++ rsBits (swapBits f).toNat 71 0 = [] := hNone
  rw [List.append_eq_nil_iff, badAt_eq_nil_iff, rsBits_eq_nil_iff, fieldN_swapBits_macros, fieldN_swapBits_rsvd] at hNone
  obtain ⟨hMacros, hRsvd⟩ := hNone
  rcases h with h | h
  · simp [h] at hMacros
  · exact h (BitVec.eq_of_toNat_eq hRsvd)

/-- Settles O20: the exchange is that of each of the named macros alone, and the refusals are read off the two fields of SWAP. -/
theorem swapExchangesBanks : Obligations.SwapExchangesBanks := by
  unfold Obligations.SwapExchangesBanks
  refine ⟨?exchange, fun id f t n h => ?refusal⟩
  case exchange =>
    rintro s₀ _ t id f rfl h tl hFree
    have hMac := tl.mac_modMacs (nodup_onesOf f.macros) fun _ => Macro.swapped
    refine ⟨_, exec_swap_of_unblocked h hFree, State.onlyTile_issued .., ?_⟩
    rw [State.issued_tile]
    refine ⟨?frame, fun m hm => ?named, fun m hm => ?unnamed⟩
    case frame =>
      rw [Tile.swap, Tile.modMacs_shape]
      rfl
    case named =>
      have hm : ((tl.swap f).next).mac m = (tl.mac m).swapped := (hMac m).trans (if_pos hm)
      rw [hm]
      exact ⟨Macro.swapped_active _, Macro.swapped_shadow _, Macro.swapped_activePhys _, Macro.swapped_outSet_active _,
        Macro.swapped_outSet_shadow _⟩
    case unnamed => exact (hMac m).trans (if_neg hm)
  case refusal =>
    refine ⟨_, rfl, uopRefused_swap h n id, BitVec.eq_of_toNat_eq ?_⟩
    rw [toNat_extractLsb'_eq_fieldN, fieldN_uopWord_operand _ _ _ (by decide)]
    exact fieldN_swapBits_macros f

end Sys2Proof
end

section
/-! ### Map bytes (R75, R76, R144, R145) -/

namespace Sys2Proof.Machine

/-- The keys of a list hold what they were set to, each a value of its own. -/
theorem Store.get_foldl_set {α : Type} (d : α) (g : Nat → α) (l : List Nat) (st : Store α) (k : Nat) :
    Store.get d (l.foldl (fun st i => Store.set st i (g i)) st) k = if k ∈ l then g k else Store.get d st k := by
  induction l generalizing st with
  | nil => rfl
  | cons i l ih =>
    rw [List.foldl_cons, ih, Store.get_set]
    by_cases hk : k = i <;> simp [hk]

/-- R145: the map bytes of the named macros take the slot and their OFS, the others stay. -/
theorem Tile.mapOf_mapMacros (tl : Tile) (macros : BitVec 16) (slot obase : BitVec 3) (ostep : BitVec 2) (oper : BitVec 3)
    (m : Nat) :
    (tl.mapMacros macros slot obase ostep oper).mapOf m = if m ∈ onesOf macros then
      { en := true, slot, ofs := BitVec.ofNat 3 (ofsOf obase.toNat ostep.toNat oper.toNat m) } else tl.mapOf m :=
  Store.get_foldl_set ..

/-- R76, R83: partials of an enabled map byte that would pass output 128 of the slot are a conflict on it. -/
theorem Tile.routeOf_beyond {tl : Tile} {x : MacPres} (bfp : Bool) (issue due : Nat) (hEn : (tl.mapOf x.mac).en = true)
    (hBound : 128 < 16 * (tl.mapOf x.mac).ofs.toNat + x.nout) :
    tl.routeOf x bfp issue due = .conflict (tl.mapOf x.mac).slot.toNat := by
  simp [Tile.routeOf, hEn, hBound]

end Sys2Proof.Machine

namespace Sys2Proof
open Machine

/-- R145: an OFS above 7 of one of the macros that MACROS names is a fault of what ACLR and APRE share. -/
theorem openFaults_ne_nil_of_ofs {x m : Nat} {macros : BitVec 16} (hMacros : fieldN x 87 72 = macros.toNat)
    (hm : m ∈ onesOf macros) (hOfs : 7 < ofsOf (fieldN x 66 64) (fieldN x 63 62) (fieldN x 61 59) m) :
    openFaults x ≠ [] := by
  rw [mem_onesOf, ← BitVec.testBit_toNat, ← hMacros, testBit_fieldN, Bool.and_eq_true, decide_eq_true_iff] at hm
  obtain ⟨hLt, hBit⟩ := hm
  have hNamed : fieldN x (72 + m) (72 + m) = 1 := (fieldN_bit_eq_one _ _).mpr hBit
  have hAny : ((List.range 16).any fun m => fieldN x (72 + m) (72 + m) == 1 &&
      decide (7 < ofsOf (fieldN x 66 64) (fieldN x 63 62) (fieldN x 61 59) m)) = true :=
    List.any_eq_true.mpr ⟨m, List.mem_range.mpr hLt, by simp [hNamed, hOfs]⟩
  simp [openFaults, hAny, badAt]

/-- R144: the fields of ACLR by which it maps. The parts' widths are sums of numerals, which the index of `simp` does not
match. -/
theorem fieldN_aclrBits (f : AclrF) :
    fieldN (aclrBits f).toNat 87 72 = f.macros.toNat ∧ fieldN (aclrBits f).toNat 66 64 = f.obase.toNat ∧
    fieldN (aclrBits f).toNat 63 62 = f.ostep.toNat ∧ fieldN (aclrBits f).toNat 61 59 = f.oper.toNat := by
  have hParts : (aclrBits f).toNat =
    (f.macros ++ f.slot ++ f.amode ++ f.obase ++ f.ostep ++ f.oper ++ f.rsvd).toNat := rfl
  simp -index only [hParts, fieldN_append_high, fieldN_append_low, fieldN_whole,
    Nat.reduceLeDiff, Nat.reduceSub, Nat.reduceLT, Nat.reduceAdd, and_self]

/-- R144: APRE has them in the same places. -/
theorem fieldN_apreBits (f : ApreF) :
    fieldN (apreBits f).toNat 87 72 = f.macros.toNat ∧ fieldN (apreBits f).toNat 66 64 = f.obase.toNat ∧
    fieldN (apreBits f).toNat 63 62 = f.ostep.toNat ∧ fieldN (apreBits f).toNat 61 59 = f.oper.toNat := by
  have hParts : (apreBits f).toNat =
    (f.macros ++ f.slot ++ f.amode ++ f.obase ++ f.ostep ++ f.oper ++ f.fmt ++ f.psh ++ f.qsrc ++ f.inc ++ f.nm1 ++
      f.rsvd).toNat := rfl
  simp -index only [hParts, fieldN_append_high, fieldN_append_low, fieldN_whole,
    Nat.reduceLeDiff, Nat.reduceSub, Nat.reduceLT, Nat.reduceAdd, and_self]

/-- R145: ACLR with an OFS above 7 is refused. -/
theorem uopRefused_aclr_of_ofs {f : AclrF} {m : Nat} (hm : m ∈ onesOf f.macros)
    (hOfs : 7 < ofsOf f.obase.toNat f.ostep.toNat f.oper.toNat m) (points : Nat) (id : Ids) :
    uopRefused points (uopWord id 0x18 (aclrBits f)) = true := by
  obtain ⟨hMacros, hBase, hStep, hPer⟩ := fieldN_aclrBits f
  have hOpen : openFaults (aclrBits f).toNat ≠ [] :=
    openFaults_ne_nil_of_ofs hMacros hm (by rwa [hBase, hStep, hPer])
  exact uopRefused_of_operandFaults (List.append_ne_nil_of_left_ne_nil hOpen _)

/-- R145: APRE with an OFS above 7 is refused. -/
theorem uopRefused_apre_of_ofs {f : ApreF} {m : Nat} (hm : m ∈ onesOf f.macros)
    (hOfs : 7 < ofsOf f.obase.toNat f.ostep.toNat f.oper.toNat m) (points : Nat) (id : Ids) :
    uopRefused points (uopWord id 0x19 (apreBits f)) = true := by
  obtain ⟨hMacros, hBase, hStep, hPer⟩ := fieldN_apreBits f
  have hOpen : openFaults (apreBits f).toNat ≠ [] :=
    openFaults_ne_nil_of_ofs hMacros hm (by rwa [hBase, hStep, hPer])
  exact uopRefused_of_operandFaults (List.append_ne_nil_of_left_ne_nil (List.append_ne_nil_of_left_ne_nil
    (List.append_ne_nil_of_left_ne_nil hOpen _) _) _)

/-- Settles O23: OFS is the model's `ofsOf`, in the map byte and in the check that ACLR and APRE share. -/
theorem mapBytesTakeOffsets : Obligations.MapBytesTakeOffsets := by
  unfold Obligations.MapBytesTakeOffsets
  refine ⟨?mapped, ?refused, ?bound⟩
  case mapped => exact Tile.mapOf_mapMacros
  case refused =>
    intro id t f g n m hMacros _ hBase hStep hPer hm hOfs
    have hOfs : 7 < ofsOf f.obase.toNat f.ostep.toNat f.oper.toNat m := hOfs
    have hmApre : m ∈ onesOf g.macros := by rwa [hMacros]
    have hOfsApre : 7 < ofsOf g.obase.toNat g.ostep.toNat g.oper.toNat m := by rwa [hBase, hStep, hPer]
    exact ⟨⟨_, rfl, uopRefused_aclr_of_ofs hm hOfs n id⟩, ⟨_, rfl, uopRefused_apre_of_ofs hmApre hOfsApre n id⟩⟩
  case bound =>
    intro tl x issue due bfp hEn hBound
    exact Tile.routeOf_beyond bfp issue due hEn hBound

end Sys2Proof
end

section
/-! ### Decoder and encoder (R136 to R159, R511)

A row's bits are a concatenation and its fields are slices of it, so each undoes the other by walking the concatenation. -/

namespace Sys2Proof
open Machine

/-! #### Fields of the rows -/

@[simp] theorem loopSetnBits_mode (f : LoopSetnF) : (loopSetnBits f).extractLsb' 86 2 = 0#2 := by
  unfold loopSetnBits
  simp -index only [BitVec.extractLsb'_append_eq_of_le,
    BitVec.extractLsb'_eq_self, Nat.reduceLeDiff, Nat.reduceSub, Nat.reduceAdd]

@[simp] theorem loopSetnFields_loopSetnBits (f : LoopSetnF) : loopSetnFields (loopSetnBits f) = f := by
  unfold loopSetnFields loopSetnBits
  simp -index only [BitVec.extractLsb'_append_eq_of_add_le, BitVec.extractLsb'_append_eq_of_le,
    BitVec.extractLsb'_eq_self, Nat.reduceLeDiff, Nat.reduceSub, Nat.reduceAdd]

theorem loopSetnBits_loopSetnFields {x : BitVec 88} (h : x.extractLsb' 86 2 = 0#2) : loopSetnBits (loopSetnFields x) = x := by
  unfold loopSetnBits loopSetnFields
  simp -index only [← h, BitVec.extractLsb'_append_extractLsb'_eq_extractLsb', BitVec.extractLsb'_eq_self, Nat.reduceAdd]

@[simp] theorem loopSetqBits_mode (f : LoopSetqF) : (loopSetqBits f).extractLsb' 86 2 = 1#2 := by
  unfold loopSetqBits
  simp -index only [BitVec.extractLsb'_append_eq_of_le,
    BitVec.extractLsb'_eq_self, Nat.reduceLeDiff, Nat.reduceSub, Nat.reduceAdd]

@[simp] theorem loopSetqFields_loopSetqBits (f : LoopSetqF) : loopSetqFields (loopSetqBits f) = f := by
  unfold loopSetqFields loopSetqBits
  simp -index only [BitVec.extractLsb'_append_eq_of_add_le, BitVec.extractLsb'_append_eq_of_le,
    BitVec.extractLsb'_eq_self, Nat.reduceLeDiff, Nat.reduceSub, Nat.reduceAdd]

theorem loopSetqBits_loopSetqFields {x : BitVec 88} (h : x.extractLsb' 86 2 = 1#2) : loopSetqBits (loopSetqFields x) = x := by
  unfold loopSetqBits loopSetqFields
  simp -index only [← h, BitVec.extractLsb'_append_extractLsb'_eq_extractLsb', BitVec.extractLsb'_eq_self, Nat.reduceAdd]

@[simp] theorem loopBranchBits_mode (f : LoopBranchF) : (loopBranchBits f).extractLsb' 86 2 = 2#2 := by
  unfold loopBranchBits
  simp -index only [BitVec.extractLsb'_append_eq_of_le,
    BitVec.extractLsb'_eq_self, Nat.reduceLeDiff, Nat.reduceSub, Nat.reduceAdd]

@[simp] theorem loopBranchFields_loopBranchBits (f : LoopBranchF) : loopBranchFields (loopBranchBits f) = f := by
  unfold loopBranchFields loopBranchBits
  simp -index only [BitVec.extractLsb'_append_eq_of_add_le, BitVec.extractLsb'_append_eq_of_le,
    BitVec.extractLsb'_eq_self, Nat.reduceLeDiff, Nat.reduceSub, Nat.reduceAdd]

theorem loopBranchBits_loopBranchFields {x : BitVec 88} (h : x.extractLsb' 86 2 = 2#2) : loopBranchBits (loopBranchFields x) = x := by
  unfold loopBranchBits loopBranchFields
  simp -index only [← h, BitVec.extractLsb'_append_extractLsb'_eq_extractLsb', BitVec.extractLsb'_eq_self, Nat.reduceAdd]

@[simp] theorem loopJumpBits_mode (f : LoopJumpF) : (loopJumpBits f).extractLsb' 86 2 = 3#2 := by
  unfold loopJumpBits
  simp -index only [BitVec.extractLsb'_append_eq_of_le,
    BitVec.extractLsb'_eq_self, Nat.reduceLeDiff, Nat.reduceSub, Nat.reduceAdd]

@[simp] theorem loopJumpFields_loopJumpBits (f : LoopJumpF) : loopJumpFields (loopJumpBits f) = f := by
  unfold loopJumpFields loopJumpBits
  simp -index only [BitVec.extractLsb'_append_eq_of_add_le, BitVec.extractLsb'_append_eq_of_le,
    BitVec.extractLsb'_eq_self, Nat.reduceLeDiff, Nat.reduceSub, Nat.reduceAdd]

theorem loopJumpBits_loopJumpFields {x : BitVec 88} (h : x.extractLsb' 86 2 = 3#2) : loopJumpBits (loopJumpFields x) = x := by
  unfold loopJumpBits loopJumpFields
  simp -index only [← h, BitVec.extractLsb'_append_extractLsb'_eq_extractLsb', BitVec.extractLsb'_eq_self, Nat.reduceAdd]

@[simp] theorem waitcCountBits_mode (f : WaitcCountF) : (waitcCountBits f).extractLsb' 86 2 = 0#2 := by
  unfold waitcCountBits
  simp -index only [BitVec.extractLsb'_append_eq_of_le,
    BitVec.extractLsb'_eq_self, Nat.reduceLeDiff, Nat.reduceSub, Nat.reduceAdd]

@[simp] theorem waitcCountFields_waitcCountBits (f : WaitcCountF) : waitcCountFields (waitcCountBits f) = f := by
  unfold waitcCountFields waitcCountBits
  simp -index only [BitVec.extractLsb'_append_eq_of_add_le, BitVec.extractLsb'_append_eq_of_le,
    BitVec.extractLsb'_eq_self, Nat.reduceLeDiff, Nat.reduceSub, Nat.reduceAdd]

theorem waitcCountBits_waitcCountFields {x : BitVec 88} (h : x.extractLsb' 86 2 = 0#2) : waitcCountBits (waitcCountFields x) = x := by
  unfold waitcCountBits waitcCountFields
  simp -index only [← h, BitVec.extractLsb'_append_extractLsb'_eq_extractLsb', BitVec.extractLsb'_eq_self, Nat.reduceAdd]

@[simp] theorem waitcDoneBits_mode (f : WaitcDoneF) : (waitcDoneBits f).extractLsb' 86 2 = 1#2 := by
  unfold waitcDoneBits
  simp -index only [BitVec.extractLsb'_append_eq_of_le,
    BitVec.extractLsb'_eq_self, Nat.reduceLeDiff, Nat.reduceSub, Nat.reduceAdd]

@[simp] theorem waitcDoneFields_waitcDoneBits (f : WaitcDoneF) : waitcDoneFields (waitcDoneBits f) = f := by
  unfold waitcDoneFields waitcDoneBits
  simp -index only [BitVec.extractLsb'_append_eq_of_add_le, BitVec.extractLsb'_append_eq_of_le,
    BitVec.extractLsb'_eq_self, Nat.reduceLeDiff, Nat.reduceSub, Nat.reduceAdd]

theorem waitcDoneBits_waitcDoneFields {x : BitVec 88} (h : x.extractLsb' 86 2 = 1#2) : waitcDoneBits (waitcDoneFields x) = x := by
  unfold waitcDoneBits waitcDoneFields
  simp -index only [← h, BitVec.extractLsb'_append_extractLsb'_eq_extractLsb', BitVec.extractLsb'_eq_self, Nat.reduceAdd]

@[simp] theorem macpFields_macpBits (f : MacpF) : macpFields (macpBits f) = f := by
  unfold macpFields macpBits
  simp -index only [BitVec.extractLsb'_append_eq_of_add_le, BitVec.extractLsb'_append_eq_of_le,
    BitVec.extractLsb'_eq_self, Nat.reduceLeDiff, Nat.reduceSub, Nat.reduceAdd]

theorem macpBits_macpFields (x : BitVec 88) : macpBits (macpFields x) = x := by
  unfold macpBits macpFields
  simp -index only [BitVec.extractLsb'_append_extractLsb'_eq_extractLsb', BitVec.extractLsb'_eq_self, Nat.reduceAdd]

@[simp] theorem ldwFields_ldwBits (f : LdwF) : ldwFields (ldwBits f) = f := by
  unfold ldwFields ldwBits
  simp -index only [BitVec.extractLsb'_append_eq_of_add_le, BitVec.extractLsb'_append_eq_of_le,
    BitVec.extractLsb'_eq_self, Nat.reduceLeDiff, Nat.reduceSub, Nat.reduceAdd]

theorem ldwBits_ldwFields (x : BitVec 88) : ldwBits (ldwFields x) = x := by
  unfold ldwBits ldwFields
  simp -index only [BitVec.extractLsb'_append_extractLsb'_eq_extractLsb', BitVec.extractLsb'_eq_self, Nat.reduceAdd]

@[simp] theorem swapFields_swapBits (f : SwapF) : swapFields (swapBits f) = f := by
  unfold swapFields swapBits
  simp -index only [BitVec.extractLsb'_append_eq_of_add_le, BitVec.extractLsb'_append_eq_of_le,
    BitVec.extractLsb'_eq_self, Nat.reduceLeDiff, Nat.reduceSub, Nat.reduceAdd]

theorem swapBits_swapFields (x : BitVec 88) : swapBits (swapFields x) = x := by
  unfold swapBits swapFields
  simp -index only [BitVec.extractLsb'_append_extractLsb'_eq_extractLsb', BitVec.extractLsb'_eq_self, Nat.reduceAdd]

@[simp] theorem aclrFields_aclrBits (f : AclrF) : aclrFields (aclrBits f) = f := by
  unfold aclrFields aclrBits
  simp -index only [BitVec.extractLsb'_append_eq_of_add_le, BitVec.extractLsb'_append_eq_of_le,
    BitVec.extractLsb'_eq_self, Nat.reduceLeDiff, Nat.reduceSub, Nat.reduceAdd]

theorem aclrBits_aclrFields (x : BitVec 88) : aclrBits (aclrFields x) = x := by
  unfold aclrBits aclrFields
  simp -index only [BitVec.extractLsb'_append_extractLsb'_eq_extractLsb', BitVec.extractLsb'_eq_self, Nat.reduceAdd]

@[simp] theorem apreFields_apreBits (f : ApreF) : apreFields (apreBits f) = f := by
  unfold apreFields apreBits
  simp -index only [BitVec.extractLsb'_append_eq_of_add_le, BitVec.extractLsb'_append_eq_of_le,
    BitVec.extractLsb'_eq_self, Nat.reduceLeDiff, Nat.reduceSub, Nat.reduceAdd]

theorem apreBits_apreFields (x : BitVec 88) : apreBits (apreFields x) = x := by
  unfold apreBits apreFields
  simp -index only [BitVec.extractLsb'_append_extractLsb'_eq_extractLsb', BitVec.extractLsb'_eq_self, Nat.reduceAdd]

@[simp] theorem adrnFields_adrnBits (f : AdrnF) : adrnFields (adrnBits f) = f := by
  unfold adrnFields adrnBits
  simp -index only [BitVec.extractLsb'_append_eq_of_add_le, BitVec.extractLsb'_append_eq_of_le,
    BitVec.extractLsb'_eq_self, Nat.reduceLeDiff, Nat.reduceSub, Nat.reduceAdd]

theorem adrnBits_adrnFields (x : BitVec 88) : adrnBits (adrnFields x) = x := by
  unfold adrnBits adrnFields
  simp -index only [BitVec.extractLsb'_append_extractLsb'_eq_extractLsb', BitVec.extractLsb'_eq_self, Nat.reduceAdd]

@[simp] theorem prescanFields_prescanBits (f : PrescanF) : prescanFields (prescanBits f) = f := by
  unfold prescanFields prescanBits
  simp -index only [BitVec.extractLsb'_append_eq_of_add_le, BitVec.extractLsb'_append_eq_of_le,
    BitVec.extractLsb'_eq_self, Nat.reduceLeDiff, Nat.reduceSub, Nat.reduceAdd]

theorem prescanBits_prescanFields (x : BitVec 88) : prescanBits (prescanFields x) = x := by
  unfold prescanBits prescanFields
  simp -index only [BitVec.extractLsb'_append_extractLsb'_eq_extractLsb', BitVec.extractLsb'_eq_self, Nat.reduceAdd]

@[simp] theorem ppuFields_ppuBits (f : PpuF) : ppuFields (ppuBits f) = f := by
  unfold ppuFields ppuBits
  simp -index only [BitVec.extractLsb'_append_eq_of_add_le, BitVec.extractLsb'_append_eq_of_le,
    BitVec.extractLsb'_eq_self, Nat.reduceLeDiff, Nat.reduceSub, Nat.reduceAdd]

theorem ppuBits_ppuFields (x : BitVec 88) : ppuBits (ppuFields x) = x := by
  unfold ppuBits ppuFields
  simp -index only [BitVec.extractLsb'_append_extractLsb'_eq_extractLsb', BitVec.extractLsb'_eq_self, Nat.reduceAdd]

@[simp] theorem statBits_mode (c : BitVec 1) (f : StatF) : (statBits c f).extractLsb' 87 1 = c := by
  unfold statBits
  simp -index only [BitVec.extractLsb'_append_eq_of_le,
    BitVec.extractLsb'_eq_self, Nat.reduceLeDiff, Nat.reduceSub, Nat.reduceAdd]

@[simp] theorem statFields_statBits (c : BitVec 1) (f : StatF) : statFields (statBits c f) = f := by
  unfold statFields statBits
  simp -index only [BitVec.extractLsb'_append_eq_of_add_le, BitVec.extractLsb'_append_eq_of_le,
    BitVec.extractLsb'_eq_self, Nat.reduceLeDiff, Nat.reduceSub, Nat.reduceAdd]

theorem statBits_statFields {c : BitVec 1} {x : BitVec 88} (h : x.extractLsb' 87 1 = c) : statBits c (statFields x) = x := by
  unfold statBits statFields
  simp -index only [← h, BitVec.extractLsb'_append_extractLsb'_eq_extractLsb', BitVec.extractLsb'_eq_self, Nat.reduceAdd]

@[simp] theorem outpPassBits_mode (f : OutpPassF) : (outpPassBits f).extractLsb' 71 1 = 0#1 := by
  unfold outpPassBits
  simp -index only [BitVec.extractLsb'_append_eq_of_add_le, BitVec.extractLsb'_append_eq_of_le,
    BitVec.extractLsb'_eq_self, Nat.reduceLeDiff, Nat.reduceSub, Nat.reduceAdd]

@[simp] theorem outpPassFields_outpPassBits (f : OutpPassF) : outpPassFields (outpPassBits f) = f := by
  unfold outpPassFields outpPassBits
  simp -index only [BitVec.extractLsb'_append_eq_of_add_le, BitVec.extractLsb'_append_eq_of_le,
    BitVec.extractLsb'_eq_self, Nat.reduceLeDiff, Nat.reduceSub, Nat.reduceAdd]

theorem outpPassBits_outpPassFields {x : BitVec 88} (h : x.extractLsb' 71 1 = 0#1) : outpPassBits (outpPassFields x) = x := by
  unfold outpPassBits outpPassFields
  simp -index only [← h, BitVec.extractLsb'_append_extractLsb'_eq_extractLsb', BitVec.extractLsb'_eq_self, Nat.reduceAdd]

@[simp] theorem outpLoadBits_mode (f : OutpLoadF) : (outpLoadBits f).extractLsb' 71 1 = 1#1 := by
  unfold outpLoadBits
  simp -index only [BitVec.extractLsb'_append_eq_of_add_le, BitVec.extractLsb'_append_eq_of_le,
    BitVec.extractLsb'_eq_self, Nat.reduceLeDiff, Nat.reduceSub, Nat.reduceAdd]

@[simp] theorem outpLoadFields_outpLoadBits (f : OutpLoadF) : outpLoadFields (outpLoadBits f) = f := by
  unfold outpLoadFields outpLoadBits
  simp -index only [BitVec.extractLsb'_append_eq_of_add_le, BitVec.extractLsb'_append_eq_of_le,
    BitVec.extractLsb'_eq_self, Nat.reduceLeDiff, Nat.reduceSub, Nat.reduceAdd]

theorem outpLoadBits_outpLoadFields {x : BitVec 88} (h : x.extractLsb' 71 1 = 1#1) : outpLoadBits (outpLoadFields x) = x := by
  unfold outpLoadBits outpLoadFields
  simp -index only [← h, BitVec.extractLsb'_append_extractLsb'_eq_extractLsb', BitVec.extractLsb'_eq_self, Nat.reduceAdd]

@[simp] theorem moveBits_mode (k : BitVec 2) (f : MoveF) : (moveBits k f).extractLsb' 82 2 = k := by
  unfold moveBits
  simp -index only [BitVec.extractLsb'_append_eq_of_add_le, BitVec.extractLsb'_append_eq_of_le,
    BitVec.extractLsb'_eq_self, Nat.reduceLeDiff, Nat.reduceSub, Nat.reduceAdd]

@[simp] theorem moveFields_moveBits (k : BitVec 2) (f : MoveF) : moveFields (moveBits k f) = f := by
  unfold moveFields moveBits
  simp -index only [BitVec.extractLsb'_append_eq_of_add_le, BitVec.extractLsb'_append_eq_of_le,
    BitVec.extractLsb'_eq_self, Nat.reduceLeDiff, Nat.reduceSub, Nat.reduceAdd]

theorem moveBits_moveFields {k : BitVec 2} {x : BitVec 88} (h : x.extractLsb' 82 2 = k) : moveBits k (moveFields x) = x := by
  unfold moveBits moveFields
  simp -index only [← h, BitVec.extractLsb'_append_extractLsb'_eq_extractLsb', BitVec.extractLsb'_eq_self, Nat.reduceAdd]

@[simp] theorem rputFields_rputBits (f : RputF) : rputFields (rputBits f) = f := by
  unfold rputFields rputBits
  simp -index only [BitVec.extractLsb'_append_eq_of_add_le, BitVec.extractLsb'_append_eq_of_le,
    BitVec.extractLsb'_eq_self, Nat.reduceLeDiff, Nat.reduceSub, Nat.reduceAdd]

theorem rputBits_rputFields (x : BitVec 88) : rputBits (rputFields x) = x := by
  unfold rputBits rputFields
  simp -index only [BitVec.extractLsb'_append_extractLsb'_eq_extractLsb', BitVec.extractLsb'_eq_self, Nat.reduceAdd]

@[simp] theorem dmahBits_mode (d : BitVec 1) (f : DmahF) : (dmahBits d f).extractLsb' 87 1 = d := by
  unfold dmahBits
  simp -index only [BitVec.extractLsb'_append_eq_of_le,
    BitVec.extractLsb'_eq_self, Nat.reduceLeDiff, Nat.reduceSub, Nat.reduceAdd]

@[simp] theorem dmahFields_dmahBits (d : BitVec 1) (f : DmahF) : dmahFields (dmahBits d f) = f := by
  unfold dmahFields dmahBits
  simp -index only [BitVec.extractLsb'_append_eq_of_add_le, BitVec.extractLsb'_append_eq_of_le,
    BitVec.extractLsb'_eq_self, Nat.reduceLeDiff, Nat.reduceSub, Nat.reduceAdd]

theorem dmahBits_dmahFields {d : BitVec 1} {x : BitVec 88} (h : x.extractLsb' 87 1 = d) : dmahBits d (dmahFields x) = x := by
  unfold dmahBits dmahFields
  simp -index only [← h, BitVec.extractLsb'_append_extractLsb'_eq_extractLsb', BitVec.extractLsb'_eq_self, Nat.reduceAdd]

@[simp] theorem rdvBits_mode (a : BitVec 2) (f : RdvF) : (rdvBits a f).extractLsb' 86 2 = a := by
  unfold rdvBits
  simp -index only [BitVec.extractLsb'_append_eq_of_le,
    BitVec.extractLsb'_eq_self, Nat.reduceLeDiff, Nat.reduceSub, Nat.reduceAdd]

@[simp] theorem rdvFields_rdvBits (a : BitVec 2) (f : RdvF) : rdvFields (rdvBits a f) = f := by
  unfold rdvFields rdvBits
  simp -index only [BitVec.extractLsb'_append_eq_of_add_le, BitVec.extractLsb'_append_eq_of_le,
    BitVec.extractLsb'_eq_self, Nat.reduceLeDiff, Nat.reduceSub, Nat.reduceAdd]

theorem rdvBits_rdvFields {a : BitVec 2} {x : BitVec 88} (h : x.extractLsb' 86 2 = a) : rdvBits a (rdvFields x) = x := by
  unfold rdvBits rdvFields
  simp -index only [← h, BitVec.extractLsb'_append_extractLsb'_eq_extractLsb', BitVec.extractLsb'_eq_self, Nat.reduceAdd]

@[simp] theorem gateFields_gateBits (f : GateF) : gateFields (gateBits f) = f := by
  unfold gateFields gateBits
  simp -index only [BitVec.extractLsb'_append_eq_of_add_le, BitVec.extractLsb'_append_eq_of_le,
    BitVec.extractLsb'_eq_self, Nat.reduceLeDiff, Nat.reduceSub, Nat.reduceAdd]

theorem gateBits_gateFields (x : BitVec 88) : gateBits (gateFields x) = x := by
  unfold gateBits gateFields
  simp -index only [BitVec.extractLsb'_append_extractLsb'_eq_extractLsb', BitVec.extractLsb'_eq_self, Nat.reduceAdd]

@[simp] theorem hintFields_hintBits (f : HintF) : hintFields (hintBits f) = f := by
  unfold hintFields hintBits
  simp -index only [BitVec.extractLsb'_append_eq_of_add_le, BitVec.extractLsb'_append_eq_of_le,
    BitVec.extractLsb'_eq_self, Nat.reduceLeDiff, Nat.reduceSub, Nat.reduceAdd]

theorem hintBits_hintFields (x : BitVec 88) : hintBits (hintFields x) = x := by
  unfold hintBits hintFields
  simp -index only [BitVec.extractLsb'_append_extractLsb'_eq_extractLsb', BitVec.extractLsb'_eq_self, Nat.reduceAdd]

@[simp] theorem twinFields_twinBits (f : TwinF) : twinFields (twinBits f) = f := by
  unfold twinFields twinBits
  simp -index only [BitVec.extractLsb'_append_eq_of_add_le, BitVec.extractLsb'_append_eq_of_le,
    BitVec.extractLsb'_eq_self, Nat.reduceLeDiff, Nat.reduceSub, Nat.reduceAdd]

theorem twinBits_twinFields (x : BitVec 88) : twinBits (twinFields x) = x := by
  unfold twinBits twinFields
  simp -index only [BitVec.extractLsb'_append_extractLsb'_eq_extractLsb', BitVec.extractLsb'_eq_self, Nat.reduceAdd]

/-! #### Parts of a word -/

@[simp] theorem uopWord_layer (id : Ids) (op : BitVec 8) (x : BitVec 88) :
    (uopWord id op x).extractLsb' 112 16 = id.layer := by
  unfold uopWord
  simp -index only [BitVec.extractLsb'_append_eq_of_le, BitVec.extractLsb'_eq_self, Nat.reduceLeDiff, Nat.reduceSub, Nat.reduceAdd]

@[simp] theorem uopWord_opid (id : Ids) (op : BitVec 8) (x : BitVec 88) :
    (uopWord id op x).extractLsb' 96 16 = id.opid := by
  unfold uopWord
  simp -index only [BitVec.extractLsb'_append_eq_of_add_le, BitVec.extractLsb'_append_eq_of_le,
    BitVec.extractLsb'_eq_self, Nat.reduceLeDiff, Nat.reduceSub, Nat.reduceAdd]

@[simp] theorem uopWord_opcode (id : Ids) (op : BitVec 8) (x : BitVec 88) :
    (uopWord id op x).extractLsb' 88 8 = op := by
  unfold uopWord
  simp -index only [BitVec.extractLsb'_append_eq_of_add_le, BitVec.extractLsb'_append_eq_of_le,
    BitVec.extractLsb'_eq_self, Nat.reduceLeDiff, Nat.reduceSub, Nat.reduceAdd]

@[simp] theorem uopWord_operands (id : Ids) (op : BitVec 8) (x : BitVec 88) :
    (uopWord id op x).extractLsb' 0 88 = x :=
  BitVec.extractLsb'_append_eq_right

/-- R136: a word is made of its tags, its opcode and its operands. -/
theorem uopWord_fields (w : BitVec 128) :
    uopWord ⟨w.extractLsb' 112 16, w.extractLsb' 96 16⟩ (w.extractLsb' 88 8) (w.extractLsb' 0 88) = w := by
  unfold uopWord
  simp -index only [BitVec.extractLsb'_append_extractLsb'_eq_extractLsb', BitVec.extractLsb'_eq_self, Nat.reduceAdd]

/-- A mode of one bit. -/
theorem extractLsb'_one_eq_iff {w i : Nat} {x : BitVec w} {b : BitVec 1} :
    x.extractLsb' i 1 = b ↔ x.getLsbD i = b.getLsbD 0 := by
  refine ⟨fun h => by simp [← h], fun h => BitVec.eq_of_getLsbD_eq fun j hj => ?_⟩
  obtain rfl : j = 0 := by omega
  simpa using h

/-! #### The decoder on the words of the encoder -/

theorem decodeUop_stat (t : TileId) (id : Ids) (c : BitVec 1) (f : StatF) :
    decodeUop t (uopWord id 0x21 (statBits c f)) = some (if c.getLsbD 0 then .statClose t id f else .statOpen t id f) := by
  have hMode := extractLsb'_one_eq_iff.mp (statBits_mode c f)
  simp [decodeUop, hMode, -BitVec.getLsbD_eq_getElem]

theorem decodeUop_dmah (t : TileId) (id : Ids) (d : BitVec 1) (f : DmahF) :
    decodeUop t (uopWord id 0x32 (dmahBits d f)) =
      some (if d.getLsbD 0 then .dmahToHbm t id f else .dmahToScratchpad t id f) := by
  have hMode := extractLsb'_one_eq_iff.mp (dmahBits_mode d f)
  simp [decodeUop, hMode, -BitVec.getLsbD_eq_getElem]

theorem decodeUop_outpPass (t : TileId) (id : Ids) (f : OutpPassF) :
    decodeUop t (uopWord id 0x28 (outpPassBits f)) = some (.outpPass t id f []) := by
  have hMode := extractLsb'_one_eq_iff.mp (outpPassBits_mode f)
  simp [decodeUop, hMode, -BitVec.getLsbD_eq_getElem]

theorem decodeUop_outpLoad (t : TileId) (id : Ids) (f : OutpLoadF) :
    decodeUop t (uopWord id 0x28 (outpLoadBits f)) = some (.outpLoad t id f) := by
  have hMode := extractLsb'_one_eq_iff.mp (outpLoadBits_mode f)
  simp [decodeUop, hMode, -BitVec.getLsbD_eq_getElem]

/-- Every micro-op is read back from its word, an OUTP pass as one that met no parity error. -/
theorem exists_decodeUop_of_encode {i : Instr} {w : BitVec 128} (h : encode i = some w)
    (hPass : ∀ t id f e, e ≠ [] → i ≠ .outpPass t id f e) : ∃ t, decodeUop t w = some i := by
  cases i with
  | outpPass t id f e =>
    obtain rfl : e = [] := Classical.byContradiction fun he => hPass t id f e he rfl
    cases h
    exact ⟨t, decodeUop_outpPass t id f⟩
  | outpLoad t id f =>
    cases h
    exact ⟨t, decodeUop_outpLoad t id f⟩
  | statOpen t id f | statClose t id f =>
    cases h
    exact ⟨t, decodeUop_stat t id _ f⟩
  | dmahToScratchpad t id f | dmahToHbm t id f =>
    cases h
    exact ⟨t, decodeUop_dmah t id _ f⟩
  | nop t id f | loopSetn t id f | loopSetq t id f | loopBranch t id f | loopJump t id f | waitcCount t id f
  | waitcDone t id f | macp t id f | ldw t id f | swap t id f | aclr t id f | apre t id f | adrn t id f
  | prescan t id f | ppu t id f | moveToScratchpad t id f | moveToStaging t id f | moveToInstructionPage t id f
  | rput t id f | rdvArrive t id f | rdvWait t id f | rdvArriveWait t id f | gate t id f | hint t id f
  | twin t id f =>
    cases h
    exact ⟨t, by simp [decodeUop]⟩
  | _ => cases h

/-! #### The encoder on what the decoder reads -/

/-- A word is the one encoded when the opcode and the operands are those it holds. -/
theorem some_uopWord_eq {w : BitVec 128} {op : BitVec 8} {x : BitVec 88} (hOp : (w.extractLsb' 88 8).toNat = op.toNat)
    (hx : x = w.extractLsb' 0 88) : some (uopWord ⟨w.extractLsb' 112 16, w.extractLsb' 96 16⟩ op x) = some w := by
  rw [hx, ← BitVec.eq_of_toNat_eq hOp, uopWord_fields]

/-- The last of the four values of a mode. -/
theorem eq_three_of_toNat_ne {k : BitVec 2} (h0 : k.toNat ≠ 0) (h1 : k.toNat ≠ 1) (h2 : k.toNat ≠ 2) : k = 3#2 :=
  BitVec.eq_of_toNat_eq (show k.toNat = 3 by have := k.isLt; omega)

/-- The first of the four values of a mode. -/
theorem eq_zero_of_toNat_ne {k : BitVec 2} (h1 : k.toNat ≠ 1) (h2 : k.toNat ≠ 2) (h3 : k.toNat ≠ 3) : k = 0#2 :=
  BitVec.eq_of_toNat_eq (show k.toNat = 0 by have := k.isLt; omega)

theorem encode_of_decodeUop {t : TileId} {w : BitVec 128} {i : Instr} (h : decodeUop t w = some i) :
    encode i = some w := by
  unfold decodeUop at h
  dsimp only at h
  split at h
  case h_1 hOp => cases h; exact some_uopWord_eq hOp rfl
  case h_2 hOp =>
    split at h
    case h_1 hTop => cases h; exact some_uopWord_eq hOp (loopSetnBits_loopSetnFields (BitVec.eq_of_toNat_eq hTop))
    case h_2 hTop => cases h; exact some_uopWord_eq hOp (loopSetqBits_loopSetqFields (BitVec.eq_of_toNat_eq hTop))
    case h_3 hTop => cases h; exact some_uopWord_eq hOp (loopBranchBits_loopBranchFields (BitVec.eq_of_toNat_eq hTop))
    case h_4 h0 h1 h2 =>
      cases h
      exact some_uopWord_eq hOp (loopJumpBits_loopJumpFields (eq_three_of_toNat_ne h0 h1 h2))
  case h_3 hOp =>
    split at h
    case h_1 hTop => cases h; exact some_uopWord_eq hOp (waitcCountBits_waitcCountFields (BitVec.eq_of_toNat_eq hTop))
    case h_2 hTop => cases h; exact some_uopWord_eq hOp (waitcDoneBits_waitcDoneFields (BitVec.eq_of_toNat_eq hTop))
    case h_3 => cases h
  case h_4 hOp => cases h; exact some_uopWord_eq hOp (macpBits_macpFields _)
  case h_5 hOp => cases h; exact some_uopWord_eq hOp (ldwBits_ldwFields _)
  case h_6 hOp => cases h; exact some_uopWord_eq hOp (swapBits_swapFields _)
  case h_7 hOp => cases h; exact some_uopWord_eq hOp (aclrBits_aclrFields _)
  case h_8 hOp => cases h; exact some_uopWord_eq hOp (apreBits_apreFields _)
  case h_9 hOp => cases h; exact some_uopWord_eq hOp (adrnBits_adrnFields _)
  case h_10 hOp => cases h; exact some_uopWord_eq hOp (prescanBits_prescanFields _)
  case h_11 hOp => cases h; exact some_uopWord_eq hOp (ppuBits_ppuFields _)
  case h_12 hOp =>
    cases h
    split
    case isTrue hMode => exact some_uopWord_eq hOp (statBits_statFields (extractLsb'_one_eq_iff.mpr hMode))
    case isFalse hMode =>
      exact some_uopWord_eq hOp (statBits_statFields (extractLsb'_one_eq_iff.mpr (Bool.eq_false_iff.mpr hMode)))
  case h_13 hOp =>
    cases h
    split
    case isTrue hMode => exact some_uopWord_eq hOp (outpLoadBits_outpLoadFields (extractLsb'_one_eq_iff.mpr hMode))
    case isFalse hMode =>
      exact some_uopWord_eq hOp
        (outpPassBits_outpPassFields (extractLsb'_one_eq_iff.mpr (Bool.eq_false_iff.mpr hMode)))
  case h_14 hOp =>
    split at h
    case h_4 => cases h
    all_goals
      rename_i hKind
      cases h
      exact some_uopWord_eq hOp (moveBits_moveFields (BitVec.eq_of_toNat_eq hKind))
  case h_15 hOp => cases h; exact some_uopWord_eq hOp (rputBits_rputFields _)
  case h_16 hOp =>
    cases h
    split
    case isTrue hMode => exact some_uopWord_eq hOp (dmahBits_dmahFields (extractLsb'_one_eq_iff.mpr hMode))
    case isFalse hMode =>
      exact some_uopWord_eq hOp (dmahBits_dmahFields (extractLsb'_one_eq_iff.mpr (Bool.eq_false_iff.mpr hMode)))
  case h_17 hOp =>
    split at h
    case h_4 => cases h
    all_goals
      rename_i hAct
      cases h
      exact some_uopWord_eq hOp (rdvBits_rdvFields (BitVec.eq_of_toNat_eq hAct))
  case h_18 hOp => cases h; exact some_uopWord_eq hOp (gateBits_gateFields _)
  case h_19 hOp => cases h; exact some_uopWord_eq hOp (hintBits_hintFields _)
  case h_20 hOp => cases h; exact some_uopWord_eq hOp (twinBits_twinFields _)
  case h_21 => cases h

/-! #### Words that no row has -/

/-- R159: WAITC has two modes. -/
theorem operandFaults_waitc_ne_nil (points : Nat) {x : BitVec 88} (h0 : (x.extractLsb' 86 2).toNat ≠ 0)
    (h1 : (x.extractLsb' 86 2).toNat ≠ 1) : operandFaults points 0x02 x.toNat ≠ [] := by
  rw [toNat_extractLsb'_eq_fieldN] at h0 h1
  have hFaults : operandFaults points 0x02 x.toNat = [86] := by simp only [operandFaults]
  simp [hFaults]

/-- R151: MOVE has no DKIND 3. -/
theorem operandFaults_move_ne_nil (points : Nat) {x : BitVec 88} (h : x.extractLsb' 82 2 = 3#2) :
    operandFaults points 0x30 x.toNat ≠ [] := by
  have hKind : fieldN x.toNat 83 82 = 3 := by rw [← toNat_extractLsb'_eq_fieldN x 82 1, h]; rfl
  simp [operandFaults, hKind, badAt]

/-- R154: RDV has no ACT 0. -/
theorem operandFaults_rdv_ne_nil (points : Nat) {x : BitVec 88} (h : x.extractLsb' 86 2 = 0#2) :
    operandFaults points 0x38 x.toNat ≠ [] := by
  have hAct : fieldN x.toNat 87 86 = 0 := by rw [← toNat_extractLsb'_eq_fieldN x 86 1, h]; rfl
  simp [operandFaults, hAct, badAt]

/-- R138, R151, R154, R159: a word that no row of the encoding tables has meets a fault. -/
theorem operandFaults_ne_nil_of_decodeUop {t : TileId} {w : BitVec 128} (h : decodeUop t w = none) (points : Nat) :
    operandFaults points (w.extractLsb' 88 8).toNat (w.extractLsb' 0 88).toNat ≠ [] := by
  unfold decodeUop at h
  dsimp only at h
  split at h
  case h_2 =>
    split at h
    all_goals cases h
  case h_3 hOp =>
    split at h
    case h_3 h0 h1 => rw [hOp]; exact operandFaults_waitc_ne_nil points h0 h1
    all_goals cases h
  case h_14 hOp =>
    split at h
    case h_4 h0 h1 h2 => rw [hOp]; exact operandFaults_move_ne_nil points (eq_three_of_toNat_ne h0 h1 h2)
    all_goals cases h
  case h_17 hOp =>
    split at h
    case h_4 h1 h2 h3 =>
      rw [hOp]
      exact operandFaults_rdv_ne_nil points (eq_zero_of_toNat_ne h1 h2 h3)
    all_goals cases h
  case h_21 =>
    unfold operandFaults
    split
    case h_21 => simp
    all_goals contradiction
  all_goals cases h

/-- R511: a word without faults on its own fields decodes. -/
theorem exists_decodeUop_of_not_refused {w : BitVec 128} {points : Nat} (h : uopRefused points w = false) (t : TileId) :
    ∃ i, decodeUop t w = some i := by
  refine Option.ne_none_iff_exists'.mp fun hNone => ?_
  have hFaults := operandFaults_ne_nil_of_decodeUop hNone points
  rw [toNat_extractLsb'_eq_fieldN, toNat_extractLsb'_eq_fieldN] at hFaults
  simp [uopRefused, uopFaults, hFaults] at h

/-- Settles O5: a row's fields are cut out where its bits put them, so decoder and encoder undo each other row by row; and
where no row decodes a word, the check of its operands finds a fault. -/
theorem decodeUndoesEncode : Obligations.DecodeUndoesEncode :=
  ⟨fun _ _ h hPass => exists_decodeUop_of_encode h hPass, fun _ _ _ h => encode_of_decodeUop h,
    fun t _ _ h => exists_decodeUop_of_not_refused h t⟩

/-- Settles O6: the decoder is evaluated on each of the words. -/
theorem writtenOutWordsDecode : Obligations.WrittenOutWordsDecode := by
  intro t
  dsimp only
  exact ⟨rfl, rfl, rfl, rfl, rfl, rfl, rfl, rfl, rfl, rfl, rfl, rfl, rfl, rfl, rfl⟩

end Sys2Proof
end

section
-- Hundreds of declarations elaborated side by side start more threads than there is memory for their stacks.
set_option Elab.async false
/-! ### What every command keeps: the queue behind it and the canonical form of the memories (log entries 8 and 20)

`State.Keeps` and `Tile.SpOk` are the two invariants; each operation has one lemma that carries them through it, and the
lemma of an operation is the chain of the lemmas of those it calls. -/

namespace Sys2Proof.Machine

/-- A state reached from `s₀`: the commands that wait are the same, and the memories stay canonical if they were. -/
structure State.Keeps (s₀ s : State) : Prop where
  pending : s.pending = s₀.pending
  memOk : s₀.memOk = true → s.memOk = true

/-- A tile whose scratchpad is canonical. -/
def Tile.SpOk (tl : Tile) : Prop := Mem.wf tl.sp = true

/-- A command that completes, with what every command keeps. -/
def State.Completes (s₀ : State) (o : Host.Outcome State Fault Refusal) : Prop := ∃ s, o = .next s ∧ s₀.Keeps s

theorem Tile.SpOk.of_eq {tl tl' : Tile} (h : tl.SpOk) (hSp : tl'.sp = tl.sp := by rfl) : tl'.SpOk := by
  rw [Tile.SpOk, hSp]
  exact h

theorem Tile.SpOk.foldl {α : Type} {l : List α} {f : Tile → α → Tile} {tl : Tile} (h : tl.SpOk)
    (hf : ∀ x a, x.SpOk → (f x a).SpOk) : (l.foldl f tl).SpOk :=
  foldl_keeps l h hf

theorem State.Completes.next {s₀ s : State} (h : s₀.Keeps s) : s₀.Completes (.next s) := ⟨s, rfl, h⟩

namespace State.Keeps

theorem refl (s : State) : s.Keeps s := ⟨rfl, id⟩

theorem next {s₀ s : State} (h : s₀.Keeps s) : s₀.Completes (.next s) := .next h

/-- A change of what is neither the queue nor a memory. -/
theorem of_eq {s₀ s s' : State} (h : s₀.Keeps s) (hPending : s'.pending = s.pending := by with_reducible rfl)
    (hTiles : s'.tiles = s.tiles := by with_reducible rfl) (hHbm : s'.hbm = s.hbm := by with_reducible rfl) :
    s₀.Keeps s' :=
  ⟨hPending.trans h.pending, fun hOk => (State.memOk_congr hTiles hHbm).trans (h.memOk hOk)⟩

/-- The state of a pair. -/
theorem of_pair {α : Type} {s₀ s : State} {a : α} {p : State × α} (h : s₀.Keeps p.1) (hp : p = (s, a)) : s₀.Keeps s := by
  rwa [hp] at h

theorem foldl {α : Type} {s₀ s : State} {l : List α} {f : State → α → State} (h : s₀.Keeps s)
    (hf : ∀ x a, s₀.Keeps x → s₀.Keeps (f x a)) : s₀.Keeps (l.foldl f s) :=
  foldl_keeps l h hf

theorem each {α : Type} {s₀ s : State} {l : List α} {f : State → α → State} (h : s₀.Keeps s)
    (hf : ∀ x a, s₀.Keeps x → s₀.Keeps (f x a)) : s₀.Keeps (s.each l f) :=
  h.foldl hf

/-- HBM takes a content that is canonical if what it held was. -/
theorem setHbm {s₀ s s' : State} {m : Store Byte} (h : s₀.Keeps s) (hm : Mem.wf s.hbm = true → Mem.wf m = true)
    (hPending : s'.pending = s.pending := by with_reducible rfl)
    (hTiles : s'.tiles = s.tiles := by with_reducible rfl) (hHbm : s'.hbm = m := by with_reducible rfl) :
    s₀.Keeps s' := by
  refine ⟨hPending.trans h.pending, fun hOk => ?_⟩
  obtain ⟨hWf, hSp⟩ := (State.memOk_iff s).mp (h.memOk hOk)
  rw [State.memOk_iff, hTiles, hHbm]
  exact ⟨hm hWf, hSp⟩

theorem hbmWrite {s₀ s : State} (h : s₀.Keeps s) {a : Nat} {l : List Byte} : s₀.Keeps (s.hbmWrite a l) :=
  h.setHbm (fun hm => Mem.wf_writeBytes hm a l) rfl rfl rfl

theorem partWrite {s₀ s : State} (h : s₀.Keeps s) {p : PartId} {a : Nat} {l : List Byte} :
    s₀.Keeps (s.partWrite p a l) :=
  ⟨h.pending, fun hOk => State.memOk_partWrite (h.memOk hOk) p a l⟩

/-- A tile takes a content that is canonical if the memories were. -/
theorem setTile {s₀ s : State} (h : s₀.Keeps s) {t : TileId} {tl : Tile} (hTl : (s.tile t).SpOk → tl.SpOk) :
    s₀.Keeps (s.setTile t tl) :=
  ⟨h.pending, fun hOk => State.memOk_setTile (h.memOk hOk) t tl (hTl (State.wf_sp (h.memOk hOk) t))⟩

theorem modTile {s₀ s : State} (h : s₀.Keeps s) {t : TileId} {f : Tile → Tile} (hf : (s.tile t).SpOk → (f (s.tile t)).SpOk) :
    s₀.Keeps (s.modTile t f) :=
  h.setTile hf

/-- A change of a tile that leaves its scratchpad alone. -/
theorem modTile_same {s₀ s : State} (h : s₀.Keeps s) {t : TileId} {f : Tile → Tile}
    (hf : ∀ tl, (f tl).sp = tl.sp := by intro _; rfl) : s₀.Keeps (s.modTile t f) :=
  h.modTile fun hOk => hOk.of_eq (hf _)

/-- A tile gets back the scratchpad that it had in an earlier state. -/
theorem modTile_from {s₀ s s' : State} (h : s₀.Keeps s) (h' : s₀.Keeps s') {t : TileId} {f : Tile → Tile}
    (hf : (f (s.tile t)).sp = (s'.tile t).sp) : s₀.Keeps (s.modTile t f) :=
  ⟨h.pending, fun hOk => State.memOk_setTile (h.memOk hOk) t _ (by rw [hf]; exact State.wf_sp (h'.memOk hOk) t)⟩

/-- A fold over pairs. -/
theorem foldl_fst {α β : Type} {s₀ : State} {l : List α} {y : State × β} {f : State × β → α → State × β}
    (h : s₀.Keeps y.1) (hf : ∀ y a, s₀.Keeps y.1 → s₀.Keeps (f y a).1) : s₀.Keeps (l.foldl f y).1 :=
  foldl_keeps (P := fun y : State × β => s₀.Keeps y.1) l h hf

end State.Keeps

end Sys2Proof.Machine
end

section
-- Hundreds of declarations elaborated side by side start more threads than there is memory for their stacks.
set_option Elab.async false
namespace Sys2Proof.Machine

theorem Tile.SpOk.modSlot {tl : Tile} (hs : tl.SpOk) {a : Nat} {f : Slot → Slot} : (tl.modSlot a f).SpOk := by
  unfold Tile.modSlot
  exact hs.of_eq

theorem Tile.SpOk.modMac {tl : Tile} (hs : tl.SpOk) {m : Nat} {f : Macro → Macro} : (tl.modMac m f).SpOk := by
  unfold Tile.modMac
  exact hs.of_eq

theorem Tile.SpOk.modMacs {tl : Tile} (hs : tl.SpOk) {ms : List Nat} {f : Nat → Macro → Macro} :
    (tl.modMacs ms f).SpOk := by
  unfold Tile.modMacs
  exact hs.foldl fun _ _ htl1 => htl1.modMac

theorem State.Keeps.modPart {s₀ s : State} (hs : s₀.Keeps s) {p : PartId} {f : Part → Part} : s₀.Keeps
    (s.modPart p f) := by
  unfold State.modPart
  exact hs.of_eq

theorem State.Keeps.noteClass {s₀ s : State} (hs : s₀.Keeps s) {p : PartId} {cls : BitVec 3} : s₀.Keeps
    (s.noteClass p cls) := by
  unfold State.noteClass
  split
  · exact hs
  · exact hs.modPart

theorem State.Keeps.setStrand {s₀ s : State} (hs : s₀.Keeps s) {p : PartId} {st : Strand} : s₀.Keeps
    (s.setStrand p st) := by
  unfold State.setStrand
  exact hs.modPart

theorem State.Keeps.loseRecord {s₀ s : State} (hs : s₀.Keeps s) {p : PartId} {ts : Stamp} {reason : BitVec 8}
    : s₀.Keeps (s.loseRecord p ts reason) := by
  unfold State.loseRecord
  exact hs.setStrand

theorem State.Keeps.observe {s₀ s : State} (hs : s₀.Keeps s) {n : Nat} : s₀.Keeps (s.observe n) := by
  unfold State.observe
  exact hs.of_eq

theorem State.Keeps.offer {s₀ s : State} (hs : s₀.Keeps s) {p : PartId} {kind : Nat} {src : BitVec 24} {ts : Stamp}
    {ids : Ids} {flags : BitVec 8} {payload : List Byte} : s₀.Keeps (s.offer p kind src ts ids flags payload) := by
  unfold State.offer
  extract_lets st w busy s1
  have hs1 : s₀.Keeps s1 := hs.observe
  split
  · exact hs.loseRecord
  · split
    · exact hs.loseRecord
    · refine .setStrand ?_
      exact hs1.foldl fun _ _ hs2 => hs2.hbmWrite

theorem State.Keeps.raise {s₀ s : State} (hs : s₀.Keeps s) {code : BitVec 16} {cls : BitVec 3} {src : BitVec 24}
    {ids : Ids} {part : Option PartId} {detail : List Byte} : s₀.Keeps (s.raise code cls src ids part detail) := by
  unfold State.raise
  extract_lets frame s1
  have hs1 : s₀.Keeps s1 := hs.of_eq
  split
  · exact hs1
  · extract_lets s2
    have hs2 : s₀.Keeps s2 := hs1.noteClass
    split
    · exact hs2.offer
    · exact hs2

theorem State.Keeps.markFrame {s₀ s : State} (hs : s₀.Keeps s) {p : PartId} {cause : BitVec 4} {layer : BitVec 16}
    : s₀.Keeps (s.markFrame p cause layer) := by
  unfold State.markFrame
  exact hs.modPart

theorem State.Keeps.abortTile {s₀ s : State} (hs : s₀.Keeps s) {t : TileId} {code : BitVec 16} {cause : BitVec 4}
    {unit : Nat} {ids : Ids} {detail : List Byte} : s₀.Keeps (s.abortTile t code cause unit ids detail) := by
  unfold State.abortTile
  extract_lets owner s1
  have hs1 : s₀.Keeps s1 := hs.raise
  clear_value owner
  split
  · exact hs1.markFrame
  · exact hs1

theorem State.Keeps.conflict {s₀ s : State} (hs : s₀.Keeps s) {t : TileId} {ids : Ids} {macs slots : List Nat}
    {unit : Nat} : s₀.Keeps (s.conflict t ids macs slots unit) := by
  unfold State.conflict
  extract_lets s1 units
  have hs1 : s₀.Keeps s1 := hs.modTile fun hTl => hTl.modMacs.foldl fun _ _ htl => htl.modSlot
  exact hs1.foldl fun _ _ hs2 => hs2.abortTile

theorem Tile.SpOk.modSeq {tl : Tile} (hs : tl.SpOk) {f : Seq → Seq} : (tl.modSeq f).SpOk := by
  unfold Tile.modSeq
  exact hs.of_eq

theorem State.Keeps.refuseUop {s₀ s : State} (hs : s₀.Keeps s) {t : TileId} {w : BitVec 128} : s₀.Keeps
    (s.refuseUop t w) := by
  unfold State.refuseUop
  extract_lets s1
  have hs1 : s₀.Keeps s1 := hs.conflict
  refine hs1.modTile fun hTl => ?_
  split
  · exact hTl.modSeq
  · exact hTl

theorem Tile.SpOk.spWrite {tl : Tile} (hs : tl.SpOk) {a : Nat} {l : List Byte} : (tl.spWrite a l).SpOk := by
  exact Tile.wf_spWrite hs a l

theorem Tile.SpOk.putLate {tl : Tile} (hs : tl.SpOk) {l : List LateWrite} : (tl.putLate l).SpOk := by
  unfold Tile.putLate
  exact hs.foldl fun _ _ htl1 => htl1.spWrite

theorem Tile.SpOk.landAll {tl : Tile} (hs : tl.SpOk) : tl.landAll.SpOk := by
  unfold Tile.landAll
  split
  · exact hs
  · extract_lets tl1
    have htl1 : tl1.SpOk := hs.putLate
    exact htl1.of_eq

theorem Tile.SpOk.landLate {tl : Tile} (hs : tl.SpOk) {c : Nat} : (tl.landLate c).SpOk := by
  unfold Tile.landLate
  split
  · exact hs
  · extract_lets tl1
    have htl1 : tl1.SpOk := hs.putLate
    exact htl1.of_eq

theorem Tile.SpOk.landFor {tl : Tile} (hs : tl.SpOk) {cycle : Nat} : (tl.landFor cycle).SpOk := by
  unfold Tile.landFor
  split
  · exact hs.landAll
  · exact hs.landLate

theorem Tile.SpOk.modSpBank {tl : Tile} (hs : tl.SpOk) {b : Nat} {f : SpBankSt → SpBankSt} : (tl.modSpBank b f).SpOk
    := by
  unfold Tile.modSpBank
  exact hs.of_eq

theorem Tile.SpOk.startWake {tl : Tile} (hs : tl.SpOk) {b : Nat} {freezes : Bool} : (tl.startWake b freezes).SpOk
    := by
  unfold Tile.startWake
  split
  · exact hs.modSpBank
  · exact hs

theorem Tile.SpOk.holdAt {tl : Tile} (hs : tl.SpOk) {place cycle : Nat} {a : HeldAccess} :
    (tl.holdAt place cycle a).SpOk := by
  unfold Tile.holdAt
  extract_lets tl1
  have htl1 : tl1.SpOk := by
    unfold tl1
    split
    · exact hs.startWake
    · exact hs.of_eq
    · exact hs
  exact htl1.of_eq

theorem State.Keeps.modCluster {s₀ s : State} (hs : s₀.Keeps s) {c : ClusterId} {f : Cluster → Cluster} : s₀.Keeps
    (s.modCluster c f) := by
  unfold State.modCluster
  exact hs.of_eq

theorem State.Keeps.count {s₀ s : State} (hs : s₀.Keeps s) {c : ClusterId} {word n : Nat} : s₀.Keeps
    (s.count c word n) := by
  unfold State.count
  split
  · exact hs
  · exact hs.modCluster

theorem Tile.SpOk.touch {tl : Tile} (hs : tl.SpOk) {banks : List Nat} {now : Nat} : (tl.touch banks now).SpOk := by
  unfold Tile.touch
  exact hs.foldl fun _ _ htl1 => htl1.modSpBank

theorem Tile.SpOk.modWin {tl : Tile} (hs : tl.SpOk) {h : Nat} {f : WinSt → WinSt} : (tl.modWin h f).SpOk := by
  unfold Tile.modWin
  exact hs.of_eq

theorem State.Keeps.landed {s₀ s : State} (hs : s₀.Keeps s) {t : TileId} {k : LandKey} {n : Nat} : s₀.Keeps
    (s.landed t k n) := by
  unfold State.landed
  extract_lets h cur upd s1
  have hs1 : s₀.Keeps s1 := hs.modTile_same
  exact hs1.count

theorem State.Keeps.dmaKeep {s₀ s : State} (hs : s₀.Keeps s) {t : TileId} {a : HeldAccess} {addr : Nat}
    {data : List Byte} : s₀.Keeps (s.dmaKeep t a addr data) := by
  unfold State.dmaKeep
  extract_lets s1
  have hs1 : s₀.Keeps s1 := hs.modTile fun hTl => hTl.spWrite
  split
  · exact hs1.landed
  · exact hs1

theorem State.Keeps.undefinedRead {s₀ s : State} (hs : s₀.Keeps s) {t : TileId} {id : Ids} {w : Nat} : s₀.Keeps
    (s.undefinedRead t id w) := by
  unfold State.undefinedRead
  exact hs.abortTile

theorem Tile.SpOk.modCounter {tl : Tile} (hs : tl.SpOk) {i : Nat} {f : Counter → Counter} : (tl.modCounter i f).SpOk
    := by
  unfold Tile.modCounter
  exact hs.of_eq

theorem Tile.SpOk.countDone {tl : Tile} (hs : tl.SpOk) {o : AsyncOp} : (tl.countDone o).SpOk := by
  unfold Tile.countDone
  split
  · exact hs.modCounter
  · exact hs

theorem State.Keeps.dmahLanded {s₀ s : State} (hs : s₀.Keeps s) {t : TileId} {key : Nat} : s₀.Keeps
    (s.dmahLanded t key) := by
  unfold State.dmahLanded
  refine hs.modTile fun hTl => ?_
  split
  · exact hTl
  · split
    · extract_lets tl
      have htl : tl.SpOk := hTl.countDone
      exact htl.of_eq
    · exact hTl

theorem State.Keeps.dmaPut {s₀ s : State} (hs : s₀.Keeps s) {t : TileId} {place cycle : Nat} {a : HeldAccess}
    : s₀.Keeps (s.dmaPut t place cycle a) := by
  unfold State.dmaPut
  extract_lets tl rd wr s1 met s2
  have hs1 : s₀.Keeps s1 := hs.count.modTile_same
  have hs2 : s₀.Keeps s2 := by
    unfold s2
    split
    · exact hs1.dmaKeep
    · refine State.Keeps.foldl_fst hs1 fun y w hy => ?_
      extract_lets s x s3 s4
      split
      · have hs3 : s₀.Keeps s3 := hy.modTile fun hTl => hTl.holdAt
        unfold s4
        split
        · split
          · exact hs3.undefinedRead
          · exact hs3
        · exact hs3
      · exact hy.dmaKeep
  split
  · exact hs2.dmahLanded
  · exact hs2

theorem State.Keeps.emit {s₀ s : State} (hs : s₀.Keeps s) {d : Dest} {m : Msg} : s₀.Keeps (s.emit d m) := by
  unfold State.emit
  exact hs.of_eq

theorem State.Keeps.modPort {s₀ s : State} (hs : s₀.Keeps s) {p : PortId} {f : Port → Port} : s₀.Keeps
    (s.modPort p f) := by
  unfold State.modPort
  exact hs.of_eq

theorem State.Keeps.handOver {s₀ s : State} (hs : s₀.Keeps s) {f : WireFrame} : s₀.Keeps (s.handOver f) := by
  unfold State.handOver
  split
  · exact hs.of_eq
  · exact hs.modPort

theorem State.Keeps.putFrame {s₀ s : State} (hs : s₀.Keeps s) {port : PortId} {peer : BitVec 8} {route : Route}
    {bcast urgent : Bool} {m : Msg} : s₀.Keeps (s.putFrame port peer route bcast urgent m).1 := by
  unfold State.putFrame
  split
  · exact hs
  · extract_lets vc make ts s1
    have hs1 : s₀.Keeps s1 := by
      unfold s1
      split
      · exact hs.of_eq
      · exact hs
    exact hs1.modPort.handOver

theorem State.Keeps.modEngine {s₀ s : State} (hs : s₀.Keeps s) {e : EngineId} {f : Engine → Engine} : s₀.Keeps
    (s.modEngine e f) := by
  unfold State.modEngine
  exact hs.of_eq

theorem State.Keeps.closeBatch {s₀ s : State} (hs : s₀.Keeps s) {p : PartId} : s₀.Keeps (s.closeBatch p) := by
  unfold State.closeBatch
  extract_lets l payload s1 s2 leader
  have hs2 : s₀.Keeps s2 := hs.modPart.offer
  split
  · exact hs
  · split
    · exact hs2
    · split
      · exact hs2.putFrame.emit
      · exact hs2.modEngine

theorem State.Keeps.noteFrame {s₀ s : State} (hs : s₀.Keeps s) {p : PartId} {sent : Bool} {ty : Nat}
    {peer : BitVec 8} {port : Nat} {ts key : Stamp} : s₀.Keeps (s.noteFrame p sent ty peer port ts key) := by
  unfold State.noteFrame
  split
  · extract_lets entry s1
    have hs1 : s₀.Keeps s1 := hs.modPart
    split
    · exact hs1.closeBatch
    · exact hs1
  · exact hs

theorem State.Keeps.stampSent {s₀ s : State} (hs : s₀.Keeps s) {port : PortId} {peer : BitVec 8} {route : Route}
    {bcast urgent : Bool} {m : Msg} : s₀.Keeps (s.stampSent port peer route bcast urgent m) := by
  unfold State.stampSent
  split
  · rename_i s1 _ hp
    have hs1 : s₀.Keeps s1 := hs.putFrame.of_pair hp
    split
    · exact hs1
    · exact hs1.each fun _ _ hs2 => hs2.noteFrame

theorem State.Keeps.sendDevice {s₀ s : State} (hs : s₀.Keeps s) {d : BitVec 8} {dest : Dest} {urgent : Bool}
    {m : Msg} : s₀.Keeps (s.sendDevice d dest urgent m) := by
  unfold State.sendDevice
  split
  · exact hs.emit
  · split
    · split
      · exact hs
      · exact hs.stampSent.emit
    · exact hs.modEngine

theorem State.Keeps.solicit {s₀ s : State} (hs : s₀.Keeps s) {a : BitVec 128} {n : Nat} : s₀.Keeps (s.solicit a n)
    := by
  unfold State.solicit
  extract_lets s1
  have hs1 : s₀.Keeps s1 := hs.of_eq
  exact hs1.each fun _ _ hs2 => hs2.emit

theorem State.Keeps.resolve {s₀ s : State} (hs : s₀.Keeps s) {a : BitVec 128} {n : Nat} : s₀.Keeps (s.resolve a n)
    := by
  unfold State.resolve
  split
  · exact hs.solicit
  · split
    · exact hs
    · extract_lets rest
      split
      · exact hs.of_eq.emit
      · split
        · exact hs
        · exact hs.of_eq.solicit

theorem State.Keeps.stampDatagram {s₀ s : State} (hs : s₀.Keeps s) {p : PartId} {slot : HostSlot} {seq : BitVec 32}
    {m : Msg} : s₀.Keeps (s.stampDatagram p slot seq m) := by
  unfold State.stampDatagram
  split
  · exact hs
  · exact hs.of_eq.resolve

theorem State.Keeps.send {s₀ s : State} (hs : s₀.Keeps s) {d : Dest} {m : Msg} : s₀.Keeps (s.send d m) := by
  unfold State.send
  split
  · exact hs.sendDevice
  · exact hs.sendDevice
  · exact hs.sendDevice
  · exact hs.stampDatagram.emit
  · exact hs.stampDatagram.emit
  · exact hs.each fun _ _ hs1 => hs1.sendDevice
  · extract_lets port
    exact hs.stampSent.emit
  · exact hs.stampSent.emit
  · exact hs.emit

theorem State.Keeps.answerRead {s₀ s : State} (hs : s₀.Keeps s) {q : HeldRead} : s₀.Keeps (s.answerRead q) := by
  unfold State.answerRead
  extract_lets r gone n k sent
  have hgone : s₀.Keeps gone := hs.send
  split
  · exact hgone
  · extract_lets addr data frame s1 s2
    have hs1 : s₀.Keeps s1 := hs.count.modTile_same
    have hs2 : s₀.Keeps s2 := by
      unfold s2
      refine hs1.foldl fun s3 x hs3 => ?_
      extract_lets seg
      exact hs3.send
    split
    · exact hgone
    · split
      · exact hs2.send
      · exact hs2

theorem State.Keeps.dmaAt {s₀ s : State} (hs : s₀.Keeps s) {t : TileId} {place cycle : Nat} {a : HeldAccess}
    : s₀.Keeps (s.dmaAt t place cycle a) := by
  unfold State.dmaAt
  extract_lets s1 wait
  have hs1 : s₀.Keeps s1 := hs.modTile fun hTl => hTl.landFor
  have hwait : ∀ (a : HeldAccess), s₀.Keeps (wait a) := fun a1 => hs1.modTile fun hTl => hTl.holdAt
  split
  · exact (hwait _)
  · split
    · exact hs1.dmaPut
    · split
      · exact (hwait _)
      · exact hs1.answerRead

theorem State.Keeps.dmaTry {s₀ s : State} (hs : s₀.Keeps s) {t : TileId} {place : Nat} {a : HeldAccess} : s₀.Keeps
    (s.dmaTry t place a) := by
  unfold State.dmaTry
  extract_lets cycle wait
  have hwait : ∀ (why : HoldWhy), s₀.Keeps (wait why) := fun why => hs.modTile fun hTl => hTl.holdAt
  split
  · exact (hwait _)
  · split
    · exact (hwait _)
    · exact hs.dmaAt

theorem State.Keeps.serveHeld {s₀ s : State} (hs : s₀.Keeps s) {t : TileId} {a : HeldAccess} : s₀.Keeps
    (s.serveHeld t a) := by
  unfold State.serveHeld
  extract_lets place
  exact hs.modTile_same.dmaTry

theorem State.Keeps.serveSome {s₀ s : State} (hs : s₀.Keeps s) {t : TileId} {f : HeldAccess → Bool} : s₀.Keeps
    (s.serveSome t f) := by
  unfold State.serveSome
  exact hs.each fun _ _ hs1 => hs1.serveHeld

theorem State.Keeps.serveAll {s₀ s : State} (hs : s₀.Keeps s) {t : TileId} {f : HeldAccess → Bool} : s₀.Keeps
    (s.serveAll t f) := by
  unfold State.serveAll
  exact hs.serveSome.serveSome

theorem State.Keeps.settleDma {s₀ s : State} (hs : s₀.Keeps s) {t : TileId} : s₀.Keeps (s.settleDma t) := by
  unfold State.settleDma
  extract_lets over_ s1
  have hs1 : s₀.Keeps s1 := by
    unfold s1
    refine hs.each fun s2 x hs2 => ?_
    extract_lets place
    exact hs2.modTile_same.dmaAt
  exact hs1.serveAll

theorem State.Keeps.violation {s₀ s : State} (hs : s₀.Keeps s) {t : TileId} {ids : Ids} {channel : Nat}
    {kind : Kind} {policy : BitVec 2} : s₀.Keeps (s.violation t ids channel kind policy) := by
  unfold State.violation
  split
  · exact hs
  · extract_lets s1 m s2 s3
    have hs1 : s₀.Keeps s1 := hs.modPart
    have hs3 : s₀.Keeps s3 := hs1.of_eq
    split
    · exact hs1.raise
    · exact hs3.modPart
    · exact hs1

theorem State.Keeps.sampleOut {s₀ s : State} (hs : s₀.Keeps s) {t : TileId} {x : Sample} : s₀.Keeps
    (s.sampleOut t x) := by
  unfold State.sampleOut
  split
  · exact hs
  · split
    · extract_lets i
      split
      · extract_lets s1
        have hs1 : s₀.Keeps s1 := hs.modTile_same
        split
        · exact hs1.violation
        · exact hs1
    · exact hs

theorem State.Keeps.flushSamples {s₀ s : State} (hs : s₀.Keeps s) {t : TileId} : s₀.Keeps (s.flushSamples t) := by
  unfold State.flushSamples
  extract_lets tl due
  split
  · exact hs
  · exact hs.modTile_same.each fun _ _ hs1 => hs1.sampleOut

theorem State.Keeps.due {s₀ s : State} (hs : s₀.Keeps s) {t : TileId} : s₀.Keeps (s.due t) := by
  unfold State.due
  extract_lets s1
  have hs1 : s₀.Keeps s1 := hs.flushSamples.settleDma
  split
  · exact hs1
  · exact hs1.modTile fun hTl => hTl.landLate

theorem State.Keeps.issue {s₀ s : State} (hs : s₀.Keeps s) {t : TileId} {w : BitVec 128} {eff : State → State}
    (heff : ∀ (a : State), s₀.Keeps a → s₀.Keeps (eff a)) : s₀.Keeps (s.issue t w eff) := by
  unfold State.issue
  split
  · exact hs
  · exact hs.refuseUop
  · exact (heff _ hs.due)

theorem State.Keeps.retire {s₀ s : State} (hs : s₀.Keeps s) {t : TileId} : s₀.Keeps (s.retire t) := by
  unfold State.retire
  exact hs.modTile_same

theorem Tile.SpOk.settleSlots {tl : Tile} (hs : tl.SpOk) : tl.settleSlots.SpOk := by
  unfold Tile.settleSlots
  refine hs.foldl fun tl1 x htl1 => ?_
  extract_lets sl tl2
  have htl2 : tl2.SpOk := htl1.modSlot
  split
  · split
    · exact htl2.modSlot
    · exact htl2
  · exact htl1

theorem Tile.SpOk.settleFills {tl : Tile} (hs : tl.SpOk) : tl.settleFills.SpOk := by
  unfold Tile.settleFills
  exact hs.of_eq

theorem Tile.SpOk.settle {tl : Tile} (hs : tl.SpOk) : tl.settle.SpOk := by
  unfold Tile.settle
  exact hs.settleFills.settleSlots

theorem State.Keeps.begin_ {s₀ s : State} (hs : s₀.Keeps s) {t : TileId} {id : Ids} : s₀.Keeps (s.begin_ t id) := by
  unfold State.begin_
  extract_lets hold s1 s2
  have hs1 : s₀.Keeps s1 := hs.modTile fun hTl => hTl.settle.modSeq
  have hs2 : s₀.Keeps s2 := hs1.count
  clear_value hold
  split
  · split
    · exact hs2.modTile_same.conflict
    · exact hs2
  · exact hs2

theorem State.Keeps.control {s₀ s : State} (hs : s₀.Keeps s) {t : TileId} {id : Ids} {f : Tile → Tile}
    (hf : ∀ tl, (f tl).sp = tl.sp := by intro _; rfl) : s₀.Keeps (s.control t id f) := by
  unfold State.control
  exact (hs.begin_.modTile_same hf).retire

theorem State.Keeps.execNop {s₀ s : State} (hs : s₀.Keeps s) {t : TileId} {id : Ids} {r : BitVec 88} : s₀.Completes
    (Machine.execNop t id r s) := by
  unfold Machine.execNop
  refine .next (hs.issue fun _ h => ?_)
  exact h.control

theorem State.Keeps.execLoopSetn {s₀ s : State} (hs : s₀.Keeps s) {t : TileId} {id : Ids} {f : LoopSetnF}
    : s₀.Completes (Machine.execLoopSetn t id f s) := by
  unfold Machine.execLoopSetn
  refine .next (hs.issue fun _ h => ?_)
  exact h.control

theorem State.Keeps.execLoopSetq {s₀ s : State} (hs : s₀.Keeps s) {t : TileId} {id : Ids} {f : LoopSetqF}
    : s₀.Completes (Machine.execLoopSetq t id f s) := by
  unfold Machine.execLoopSetq
  refine .next (hs.issue fun _ h => ?_)
  exact h.control

theorem State.Keeps.execLoopBranch {s₀ s : State} (hs : s₀.Keeps s) {t : TileId} {id : Ids} {f : LoopBranchF}
    : s₀.Completes (Machine.execLoopBranch t id f s) := by
  unfold Machine.execLoopBranch
  refine .next (hs.issue fun _ h => h.control fun tl => ?_)
  extract_lets v
  split
  · rfl
  · rfl

theorem State.Keeps.execLoopJump {s₀ s : State} (hs : s₀.Keeps s) {t : TileId} {id : Ids} {f : LoopJumpF}
    : s₀.Completes (Machine.execLoopJump t id f s) := by
  unfold Machine.execLoopJump
  refine .next (hs.issue fun _ h => ?_)
  exact h.control

theorem State.Keeps.execWaitcCount {s₀ s : State} (hs : s₀.Keeps s) {t : TileId} {id : Ids} {f : WaitcCountF}
    : s₀.Completes (Machine.execWaitcCount t id f s) := by
  unfold Machine.execWaitcCount
  refine .next (hs.issue fun _ h => ?_)
  exact h.control

theorem State.Keeps.wait_ {s₀ s : State} (hs : s₀.Keeps s) {t : TileId} {why : WaitWhy} {arg : BitVec 11} : s₀.Keeps
    (s.wait_ t why arg) := by
  unfold State.wait_
  exact hs.modTile_same

theorem State.Keeps.execWaitcDone {s₀ s : State} (hs : s₀.Keeps s) {t : TileId} {id : Ids} {f : WaitcDoneF}
    : s₀.Completes (Machine.execWaitcDone t id f s) := by
  unfold Machine.execWaitcDone
  refine .next ?_
  refine .issue ?_ ?_
  · exact hs
  · intro a ha
    extract_lets s1
    have hs1 : s₀.Keeps s1 := ha.begin_
    split
    · exact hs1.retire
    · exact hs1.wait_.modTile_same

theorem State.Keeps.release {s₀ s : State} (hs : s₀.Keeps s) {t : TileId} {waited : Nat} : s₀.Keeps
    (s.release t waited) := by
  unfold State.release
  extract_lets s1
  have hs1 : s₀.Keeps s1 := hs.modTile_same
  exact hs1.count

theorem State.Keeps.execWaitcDoneRelease {s₀ s : State} (hs : s₀.Keeps s) {t : TileId} {waited : Nat} : s₀.Completes
    (Machine.execWaitcDoneRelease t waited s) := by
  unfold Machine.execWaitcDoneRelease
  extract_lets q
  refine .next ?_
  split
  · exact hs.release
  · exact hs

theorem State.Keeps.meetFill {s₀ s : State} (hs : s₀.Keeps s) {t : TileId} {h : BitVec 1} {m stop : Nat} : s₀.Keeps
    (s.meetFill t h m stop) := by
  unfold State.meetFill
  split
  · split
    · exact hs.modTile_same.conflict
    · exact hs
  · exact hs

theorem State.Keeps.execMacp {s₀ s : State} (hs : s₀.Keeps s) {t : TileId} {id : Ids} {f : MacpF} : s₀.Completes
    (Machine.execMacp t id f s) := by
  unfold Machine.execMacp
  refine .next ?_
  refine .issue ?_ ?_
  · exact hs
  · intro a ha
    extract_lets s1 tl macs k sz runs fails busy pass s2 s3 s4 s5
    have hs1 : s₀.Keeps s1 := ha.begin_
    have hs2 : s₀.Keeps s2 := hs1.each fun _ _ hs6 => hs6.meetFill
    have hs3 : s₀.Keeps s3 := by
      unfold s3
      refine hs2.modTile fun hTl => ?_
      extract_lets tl1 tl2
      have htl1 : tl1.SpOk := hTl.modMacs
      have htl2 : tl2.SpOk := htl1.modMacs
      split
      · exact htl2
      · exact htl2.of_eq
    have hs4 : s₀.Keeps s4 := hs3.count.count
    have hs5 : s₀.Keeps s5 := by
      unfold s5
      split
      · exact hs4
      · exact hs4.conflict
    exact hs5.retire

theorem Tile.SpOk.landIn {tl : Tile} (hs : tl.SpOk) {a pres : Nat} {bfp : Bool} {new : List (Nat × Nat × LandPart)}
    : (tl.landIn a pres bfp new).SpOk := by
  unfold Tile.landIn
  extract_lets sl base mine all lands tl1
  have htl1 : tl1.SpOk := hs.modSlot
  exact htl1.of_eq

theorem State.Keeps.present {s₀ s : State} (hs : s₀.Keeps s) {t : TileId} {ids : Ids} {pres issue sz : Nat}
    {bfp : Bool} {macs : List MacPres} : s₀.Keeps (s.present t ids pres issue sz bfp macs) := by
  unfold State.present
  extract_lets tl due routed bad ins s1
  have hs1 : s₀.Keeps s1 := hs.foldl fun _ _ hs2 => hs2.conflict
  refine hs1.each fun s2 x hs2 => ?_
  extract_lets here parts
  exact hs2.modTile_same

theorem State.Keeps.mismatch {s₀ s : State} (hs : s₀.Keeps s) {t : TileId} {ids : Ids} {x : Nat × Bool} : s₀.Keeps
    (s.mismatch t ids x) := by
  unfold State.mismatch
  extract_lets s1
  have hs1 : s₀.Keeps s1 := hs.modTile_same
  exact hs1.raise

theorem State.Keeps.execPassPresentation {s₀ s : State} (hs : s₀.Keeps s) {t : TileId} {upsets : List Upset}
    : s₀.Completes (Machine.execPassPresentation t upsets s) := by
  unfold Machine.execPassPresentation
  refine .next ?_
  extract_lets tl0
  split
  · split
    · exact hs
    · split
      · exact hs
      · extract_lets s1 s2 tl reps bad freeze s3 s4
        have hs1 : s₀.Keeps s1 := hs.modTile_same
        have hs2 : s₀.Keeps s2 := hs1.modTile fun hTl => hTl.settle
        have hs3 : s₀.Keeps s3 := hs2.modTile_same
        have hs4 : s₀.Keeps s4 := hs3.count
        split
        · exact hs2.each fun _ _ hs5 => hs5.present
        · exact hs4.each fun _ _ hs5 => hs5.each fun _ _ hs6 => hs6.mismatch

theorem State.Keeps.clearedMismatch {s₀ s : State} (hs : s₀.Keeps s) {t : TileId} {p : Pass} {x : Nat × Bool}
    : s₀.Keeps (s.clearedMismatch t p x) := by
  unfold State.clearedMismatch
  extract_lets s1
  have hs1 : s₀.Keeps s1 := hs.modTile_same
  exact hs1.raise

theorem State.Keeps.checksumEvent {s₀ s : State} (hs : s₀.Keeps s) {t : TileId} {p : Pass} {x : Nat × Bool}
    : s₀.Keeps (s.checksumEvent t p x) := by
  unfold State.checksumEvent
  extract_lets s1 s2
  have hs1 : s₀.Keeps s1 := hs.mismatch.modTile_same
  have hs2 : s₀.Keeps s2 := hs1.abortTile
  split
  · exact hs2.modPart
  · exact hs2

theorem State.Keeps.execReplayPresentation {s₀ s : State} (hs : s₀.Keeps s) {t : TileId} {upsets : List Upset}
    : s₀.Completes (Machine.execReplayPresentation t upsets s) := by
  unfold Machine.execReplayPresentation
  refine .next ?_
  extract_lets reps s1 tl
  have hs1 : s₀.Keeps s1 := hs.modTile_same
  split
  · exact hs
  · refine hs1.each fun s2 x hs2 => ?_
    extract_lets ev still again all s3 s4
    have hs3 : s₀.Keeps s3 := hs2.each fun _ _ hs5 => hs5.clearedMismatch
    have hs4 : s₀.Keeps s4 := hs3.each fun _ _ hs5 => hs5.checksumEvent
    exact hs4.present

theorem Tile.SpOk.addElem {tl : Tile} (hs : tl.SpOk) {a o : Nat} {v e : ℤ} {counted : Bool} :
    (tl.addElem a o v e counted).SpOk := by
  unfold Tile.addElem
  extract_lets sl en0 en01 limit past lo
  split
  · extract_lets tl1
    have htl1 : tl1.SpOk := hs.modSlot
    split
    · exact htl1.modSlot
    · exact htl1

theorem State.Keeps.execGroupSumLanding {s₀ s : State} (hs : s₀.Keeps s) {t : TileId} {a : AccSlot} : s₀.Completes
    (Machine.execGroupSumLanding t a s) := by
  unfold Machine.execGroupSumLanding
  refine .next ?_
  extract_lets tl
  split
  · exact hs
  · split
    · exact hs
    · refine hs.modTile fun hTl => ?_
      extract_lets tl1 tl2
      have htl1 : tl1.SpOk := hTl.modSeq
      have htl2 : tl2.SpOk := htl1.of_eq
      exact htl2.foldl fun _ _ htl3 => htl3.addElem

theorem State.Keeps.conflictOn {s₀ s : State} (hs : s₀.Keeps s) {t : TileId} {id : Ids} {u : Units} : s₀.Keeps
    (s.conflictOn t id u) := by
  unfold State.conflictOn
  exact hs.conflict

theorem Tile.SpOk.incQ {tl : Tile} (hs : tl.SpOk) {l : List (BitVec 3 × BitVec 1)} : (tl.incQ l).SpOk := by
  unfold Tile.incQ
  extract_lets regs
  exact hs.of_eq

theorem State.Keeps.meetStep {s₀ s : State} (hs : s₀.Keeps s) {t : TileId} : s₀.Keeps (s.meetStep t) := by
  unfold State.meetStep
  exact hs.modTile_same

theorem Tile.SpOk.touchUses {tl : Tile} (hs : tl.SpOk) {l : List PathUse} {now : Nat} : (tl.touchUses l now).SpOk
    := by
  unfold Tile.touchUses
  exact hs.foldl fun _ _ htl1 => htl1.touch

theorem Tile.SpOk.addPaths {tl : Tile} (hs : tl.SpOk) {l : List PathUse} : (tl.addPaths l).SpOk := by
  unfold Tile.addPaths
  exact hs.of_eq

theorem Tile.SpOk.wakeFor {tl : Tile} (hs : tl.SpOk) {l : List PathUse} : (tl.wakeFor l).SpOk := by
  unfold Tile.wakeFor
  refine hs.foldl fun tl1 x htl1 => ?_
  extract_lets wake
  have hwake : ∀ (n : Nat), (wake n).SpOk := fun n => htl1.modSeq.modSpBank
  split
  · exact (hwake _)
  · exact (hwake _)
  · exact htl1

theorem State.Keeps.drawn {s₀ s : State} (hs : s₀.Keeps s) : s₀.Keeps s.drawn := by
  unfold State.drawn
  exact hs.of_eq

theorem State.Keeps.freeWords {s₀ s : State} (hs : s₀.Keeps s) {t : TileId} {us : List PathUse} : s₀.Keeps
    (s.freeWords t us) := by
  unfold State.freeWords
  refine hs.foldl fun s1 x hs1 => ?_
  extract_lets free
  refine .drawn ?_
  exact hs1.modTile fun hTl => hTl.spWrite

theorem State.Keeps.readClosed {s₀ s : State} (hs : s₀.Keeps s) {t : TileId} {id : Ids} {us : List PathUse}
    : s₀.Keeps (s.readClosed t id us) := by
  unfold State.readClosed
  exact hs.each fun _ _ hs1 => hs1.modTile_same.abortTile

theorem Tile.SpOk.readView {tl : Tile} (hs : tl.SpOk) {us : List PathUse} : (tl.readView us).SpOk := by
  unfold Tile.readView
  split
  · exact hs
  · refine hs.foldl fun tl1 x htl1 => ?_
    split
    · exact htl1
    · exact htl1.foldl fun _ _ htl2 => htl2.foldl fun _ _ htl3 => htl3.putLate

theorem State.Keeps.access {s₀ s : State} (hs : s₀.Keeps s) {t : TileId} {id : Ids} {us : Option (List PathUse)}
    {incs : List (BitVec 3 × BitVec 1)} {units : Units} {ok : State → State}
    (hok : ∀ (a : State), s₀.Keeps a → s₀.Keeps (ok a)) : s₀.Keeps (s.access t id us incs units ok) := by
  unfold State.access
  extract_lets fails also s1 us1 s2 kept s3
  have hs1 : s₀.Keeps s1 := hs.begin_.conflictOn.each fun _ _ hs4 => hs4.conflict
  have hs2 : s₀.Keeps s2 := hs.begin_.modTile fun hTl => hTl.wakeFor.addPaths.touchUses
  have hs3 : s₀.Keeps s3 := hok _ (hs2.readClosed.modTile fun hTl => hTl.readView).freeWords
  split
  · exact (hs1.modTile_same).retire
  · split
    · exact hs.meetStep
    · exact (hs3.modTile_from hs2 rfl).retire

theorem State.Keeps.loadConflicts {s₀ s : State} (hs : s₀.Keeps s) {t : TileId} {id : Ids} {macs : List Nat}
    {block inval : Nat → Bool} : s₀.Keeps (s.loadConflicts t id macs block inval).1 := by
  unfold State.loadConflicts
  extract_lets bad s1
  have hs1 : s₀.Keeps s1 := hs.modTile fun hTl => hTl.modMacs
  dsimp only
  split
  · exact hs1
  · exact hs1.conflict

theorem Tile.SpOk.busyTo {tl : Tile} (hs : tl.SpOk) {n : Nat} : (tl.busyTo n).SpOk := by
  unfold Tile.busyTo
  exact hs.of_eq

theorem State.Keeps.finishLoad {s₀ s : State} (hs : s₀.Keeps s) {t : TileId} {id : Ids} {m : Nat}
    {badRows : List Nat} {fin : Bool} : s₀.Keeps (s.finishLoad t id m badRows fin) := by
  unfold State.finishLoad
  extract_lets s1 b part s2
  have hs1 : s₀.Keeps s1 := by
    unfold s1
    refine hs.each fun s3 x hs3 => ?_
    extract_lets s4
    have hs4 : s₀.Keeps s4 := hs3.modTile_same
    exact hs4.abortTile
  have hs2 : s₀.Keeps s2 := hs1.modTile_same
  split
  · split
    · exact hs2.conflict
    · exact hs2
  · exact hs1

theorem State.Keeps.ldwScratch {s₀ s : State} (hs : s₀.Keeps s) {t : TileId} {id : Ids} {f : LdwF} {a : Nat}
    : s₀.Keeps (s.ldwScratch t id f a) := by
  unfold State.ldwScratch
  extract_lets macs rows sz isSealed tl0
  split
  · rename_i s1 _ hp
    have hs1 : s₀.Keeps s1 := hs.loadConflicts.of_pair hp
    extract_lets s2
    have hs2 : s₀.Keeps s2 := hs1.count
    refine hs2.each fun s3 x hs3 => ?_
    extract_lets tl
    split
    · extract_lets s4 mc s5
      have hs5 : s₀.Keeps s5 := hs3.modTile_same.count
      exact hs5.finishLoad

theorem Tile.SpOk.startOp {tl : Tile} (hs : tl.SpOk) {o : AsyncOp} : (tl.startOp o).SpOk := by
  unfold Tile.startOp
  extract_lets tl1
  have htl1 : tl1.SpOk := hs.modCounter
  exact htl1.of_eq

theorem State.Keeps.ldwHbm {s₀ s : State} (hs : s₀.Keeps s) {t : TileId} {id : Ids} {f : LdwF} {a : Nat} : s₀.Keeps
    (s.ldwHbm t id f a) := by
  unfold State.ldwHbm
  extract_lets tl0
  split
  · rename_i s1 _ hp
    have hs1 : s₀.Keeps s1 := hs.loadConflicts.of_pair hp
    exact hs1.modTile fun hTl => hTl.modMacs.startOp

theorem State.Keeps.execLdw {s₀ s : State} (hs : s₀.Keeps s) {t : TileId} {id : Ids} {f : LdwF} : s₀.Completes
    (Machine.execLdw t id f s) := by
  unfold Machine.execLdw
  refine .next ?_
  refine .issue ?_ ?_
  · exact hs
  · intro a ha
    extract_lets macs sz total units src us src1
    split
    · refine .access ?_ ?_
      · exact ha
      · exact fun a1 ha1 => ha1.ldwScratch
    · refine .access ?_ ?_
      · exact ha
      · exact fun a1 ha1 => ha1.ldwHbm

theorem State.Keeps.ldwArrive {s₀ s : State} (hs : s₀.Keeps s) {t : TileId} {p : PartId} {ids : Ids} {n : Nat}
    {rgmask : BitVec 4} {pm1 : BitVec 3} {wsgn chkgen fin : BitVec 1} {a : Nat} {x : Nat × Nat} : s₀.Keeps
    (s.ldwArrive t p ids n rgmask pm1 wsgn chkgen fin a x) := by
  unfold State.ldwArrive
  extract_lets rows sz at_
  split
  · extract_lets mc
    exact hs.modTile_same.count.finishLoad

theorem State.Keeps.execLdwHbmDone {s₀ s : State} (hs : s₀.Keeps s) {t : TileId} {cnt : Fin 4} : s₀.Completes
    (Machine.execLdwHbmDone t cnt s) := by
  unfold Machine.execLdwHbmDone
  refine .next ?_
  extract_lets isLdw
  split
  · split
    · extract_lets macs n first s1 s2 tl
      have hs1 : s₀.Keeps s1 := by
        unfold s1
        refine hs.modTile fun hTl => ?_
        extract_lets tl1 tl2
        have htl1 : tl1.SpOk := hTl.modSeq
        have htl2 : tl2.SpOk := htl1.of_eq
        exact htl2.countDone.modMacs
      have hs2 : s₀.Keeps s2 := hs1.count
      split
      · exact hs2
      · split
        · rename_i s11 _ hp
          have hs11 : s₀.Keeps s11 := hs2.loadConflicts.of_pair hp
          exact hs11.each fun _ _ hs3 => hs3.ldwArrive
    · exact hs
  · exact hs

theorem State.Keeps.execSwap {s₀ s : State} (hs : s₀.Keeps s) {t : TileId} {id : Ids} {f : SwapF} : s₀.Completes
    (Machine.execSwap t id f s) := by
  unfold Machine.execSwap
  refine .next ?_
  refine .issue ?_ ?_
  · exact hs
  · intro a ha
    extract_lets s1 tl macs bad go s2 s3
    have hs1 : s₀.Keeps s1 := ha.begin_
    have hs2 : s₀.Keeps s2 := hs1.modTile fun hTl => hTl.modMacs
    have hs3 : s₀.Keeps s3 := by
      unfold s3
      split
      · exact hs2
      · exact hs2.conflict
    exact hs3.retire

theorem Tile.SpOk.mapMacros {tl : Tile} (hs : tl.SpOk) {macros : BitVec 16} {slot obase : BitVec 3}
    {ostep : BitVec 2} {oper : BitVec 3} : (tl.mapMacros macros slot obase ostep oper).SpOk := by
  unfold Tile.mapMacros
  exact hs.of_eq

theorem Tile.SpOk.openSlot {tl : Tile} (hs : tl.SpOk) {a : Nat} {mode : BitVec 2} {openAt : Nat} :
    (tl.openSlot a mode openAt).SpOk := by
  unfold Tile.openSlot
  extract_lets was tl1
  have htl1 : tl1.SpOk := hs.modSlot
  split
  · exact htl1.modSlot
  · split
    · exact htl1.modSlot
    · exact htl1

theorem State.Keeps.execAclr {s₀ s : State} (hs : s₀.Keeps s) {t : TileId} {id : Ids} {f : AclrF} : s₀.Completes
    (Machine.execAclr t id f s) := by
  unfold Machine.execAclr
  refine .next ?_
  refine .issue ?_ ?_
  · exact hs
  · intro a ha
    extract_lets s1 s2
    have hs1 : s₀.Keeps s1 := ha.begin_
    have hs2 : s₀.Keeps s2 := by
      unfold s2
      split
      · exact hs1.modTile fun hTl => hTl.openSlot.mapMacros
      · exact hs1.conflict
    exact hs2.retire

theorem Tile.SpOk.preload {tl : Tile} (hs : tl.SpOk) {a o fmt : Nat} {psh : ℤ} {src : Nat} :
    (tl.preload a o fmt psh src).SpOk := by
  unfold Tile.preload
  extract_lets v put
  have hput : ∀ (en : Entry), (put en).SpOk := fun en => hs.modSlot
  split
  · clear_value v
    split
    · extract_lets r lim
      exact (hput _)
    · exact (hput _)
  · clear_value v
    split
    · extract_lets x
      split
      · exact hs
      · exact hs.addElem
    · exact hs.addElem

theorem Tile.SpOk.preloadAll {tl : Tile} (hs : tl.SpOk) {f : ApreF} {addr n : Nat} : (tl.preloadAll f addr n).SpOk
    := by
  unfold Tile.preloadAll
  extract_lets a recs ents
  split
  · exact hs.modSlot
  · exact hs.foldl fun _ _ htl1 => htl1.preload

theorem State.Keeps.execApre {s₀ s : State} (hs : s₀.Keeps s) {t : TileId} {id : Ids} {f : ApreF} : s₀.Completes
    (Machine.execApre t id f s) := by
  unfold Machine.execApre
  refine .next ?_
  refine .issue ?_ ?_
  · exact hs
  · intro a ha
    extract_lets n a1 src tl us
    refine .access ?_ ?_
    · exact ha
    · intro a2 ha2
      extract_lets s1
      have hs1 : s₀.Keeps s1 := by
        unfold s1
        refine ha2.modTile fun hTl => ?_
        extract_lets tl1
        have htl1 : tl1.SpOk := hTl.openSlot.mapMacros
        exact htl1.preloadAll.busyTo
      exact hs1.count

theorem Tile.SpOk.startDrain {tl : Tile} (hs : tl.SpOk) {a n : Nat} : (tl.startDrain a n).SpOk := by
  unfold Tile.startDrain
  extract_lets tl1
  have htl1 : tl1.SpOk := hs.modSlot
  exact htl1.of_eq

theorem Tile.SpOk.noteDrain {tl : Tile} (hs : tl.SpOk) {layer : BitVec 16} {a n : Nat} {nan : Bool} {sat : Nat} :
    (tl.noteDrain layer a n nan sat).SpOk := by
  unfold Tile.noteDrain
  extract_lets sl ents num
  exact hs.of_eq

theorem Tile.SpOk.writeLate {tl : Tile} (hs : tl.SpOk) {cycle a : Nat} {l : List Byte} :
    (tl.writeLate cycle a l).SpOk := by
  unfold Tile.writeLate
  exact hs.of_eq

theorem Tile.SpOk.writeRows {tl : Tile} (hs : tl.SpOk) {first step a : Nat} {l : List Byte} :
    (tl.writeRows first step a l).SpOk := by
  unfold Tile.writeRows
  exact hs.foldl fun _ _ htl1 => htl1.writeLate

theorem State.Keeps.drainRaw {s₀ s : State} (hs : s₀.Keeps s) {t : TileId} {id : Ids} {f : AdrnF} {ps : PSet}
    {dst : Nat} : s₀.Keeps (s.drainRaw t id f ps dst) := by
  unfold State.drainRaw
  extract_lets n a s1
  have hs1 : s₀.Keeps s1 := by
    unfold s1
    refine hs.modTile fun hTl => ?_
    extract_lets sl recs tl tl1
    have htl : tl.SpOk := hTl.writeRows.noteDrain
    have htl1 : tl1.SpOk := htl.startDrain.busyTo
    exact htl1.of_eq
  exact hs1.count

theorem State.Keeps.drainPpu {s₀ s : State} (hs : s₀.Keeps s) {t : TileId} {id : Ids} {f : AdrnF} {ps : PSet}
    {dst : Nat} : s₀.Keeps (s.drainPpu t id f ps dst) := by
  unfold State.drainPpu
  extract_lets n a tl ac
  split
  · extract_lets samples s1 blocks sat conv s2 s3 s4 s5
    have hs1 : s₀.Keeps s1 := hs.modTile_same
    have hs2 : s₀.Keeps s2 := by
      unfold s2
      split
      · refine hs1.modTile fun hTl => ?_
        extract_lets tl1
        have htl1 : tl1.SpOk := by
          unfold tl1
          refine hTl.foldl fun tl2 x htl2 => ?_
          extract_lets cycle
          exact htl2.writeLate.writeLate
        exact htl1.noteDrain
      · exact hs1.modTile fun hTl => hTl.writeRows.noteDrain
    have hs3 : s₀.Keeps s3 := hs2.modTile_same
    have hs4 : s₀.Keeps s4 := hs3.modTile_same
    have hs5 : s₀.Keeps s5 := hs4.count.count.count
    split
    · exact hs5.conflict
    · exact hs5

theorem State.Keeps.execAdrn {s₀ s : State} (hs : s₀.Keeps s) {t : TileId} {id : Ids} {f : AdrnF} : s₀.Completes
    (Machine.execAdrn t id f s) := by
  unfold Machine.execAdrn
  refine .next ?_
  refine .issue ?_ ?_
  · exact hs
  · intro a ha
    extract_lets n a1 tl ps sl runs s1 dst us
    have hs1 : s₀.Keeps s1 := ha.begin_.modTile_same
    split
    · exact hs1.conflict.retire
    · refine .access ?_ ?_
      · exact ha
      · intro a2 ha2
        split
        · exact ha2.drainRaw
        · exact ha2.drainPpu

theorem State.Keeps.execPrescan {s₀ s : State} (hs : s₀.Keeps s) {t : TileId} {id : Ids} {f : PrescanF}
    : s₀.Completes (Machine.execPrescan t id f s) := by
  unfold Machine.execPrescan
  refine .next ?_
  refine .issue ?_ ?_
  · exact hs
  · intro a ha
    extract_lets nb a1 src tl us
    refine .access ?_ ?_
    · exact ha
    · intro a2 ha2
      extract_lets s1
      have hs1 : s₀.Keeps s1 := ha2.modTile_same
      exact hs1.count

theorem State.Keeps.execPpu {s₀ s : State} (hs : s₀.Keeps s) {t : TileId} {id : Ids} {f : PpuF} : s₀.Completes
    (Machine.execPpu t id f s) := by
  unfold Machine.execPpu
  refine .next ?_
  refine .issue ?_ ?_
  · exact hs
  · intro a ha
    extract_lets i tl reads par sc us a1 b
    refine .access ?_ ?_
    · exact ha
    · intro a2 ha2
      extract_lets rd p0 p1 s1
      have hs1 : s₀.Keeps s1 := ha2.count
      split
      · exact hs1.modTile_same.conflict
      · exact hs1.modTile_same

theorem State.Keeps.execStatOpen {s₀ s : State} (hs : s₀.Keeps s) {t : TileId} {id : Ids} {f : StatF} : s₀.Completes
    (Machine.execStatOpen t id f s) := by
  unfold Machine.execStatOpen
  refine .next ?_
  refine .issue ?_ ?_
  · exact hs
  · intro a ha
    extract_lets n tl src us
    refine .access ?_ ?_
    · exact ha
    · intro a1 ha1
      extract_lets s1
      have hs1 : s₀.Keeps s1 := ha1.modTile_same
      exact hs1.count

theorem State.Keeps.execStatClose {s₀ s : State} (hs : s₀.Keeps s) {t : TileId} {id : Ids} {f : StatF}
    : s₀.Completes (Machine.execStatClose t id f s) := by
  unfold Machine.execStatClose
  refine .next ?_
  refine .issue ?_ ?_
  · exact hs
  · intro a ha
    extract_lets tl n dst us
    refine .access ?_ ?_
    · exact ha
    · intro a1 ha1
      split
      · exact ha1
      · extract_lets recs s1 s2 s3 ids
        have hs1 : s₀.Keeps s1 := ha1.modTile fun hTl => hTl.writeRows.busyTo
        have hs2 : s₀.Keeps s2 := hs1.modTile_same
        have hs3 : s₀.Keeps s3 := hs2.count
        refine hs3.each fun s4 x hs4 => ?_
        extract_lets s5
        have hs5 : s₀.Keeps s5 := by
          unfold s5
          split
          · exact hs4.violation
          · exact hs4
        split
        · exact hs5.violation
        · exact hs5

theorem State.Keeps.streamStart {s₀ s : State} (hs : s₀.Keeps s) {t : TileId} {id : Ids} {f : OutpPassF}
    {failed : Bool} {m : Nat} : s₀.Keeps (s.streamStart t id f failed m) := by
  unfold State.streamStart
  extract_lets mc l e s1
  have hs1 : s₀.Keeps s1 := hs.count.meetFill
  refine hs1.modTile fun hTl => ?_
  extract_lets tl st
  have htl : tl.SpOk := hTl.modMac
  split
  · exact htl
  · exact htl.of_eq

theorem State.Keeps.storeParity {s₀ s : State} (hs : s₀.Keeps s) {t : TileId} {id : Ids} {m cycle : Nat} : s₀.Keeps
    (s.storeParity t id m cycle) := by
  unfold State.storeParity
  extract_lets s1
  have hs1 : s₀.Keeps s1 := hs.modTile_same
  exact hs1.abortTile

theorem State.Keeps.execOutpPass {s₀ s : State} (hs : s₀.Keeps s) {t : TileId} {id : Ids} {f : OutpPassF}
    {parityErr : List (MacroId × Nat)} : s₀.Completes (Machine.execOutpPass t id f parityErr s) := by
  unfold Machine.execOutpPass
  refine .next ?_
  refine .issue ?_ ?_
  · exact hs
  · intro a ha
    extract_lets s1 tl macs bad go fails s2 s3 s4
    have hs1 : s₀.Keeps s1 := ha.begin_
    have hs2 : s₀.Keeps s2 := hs1.each fun _ _ hs5 => hs5.streamStart
    have hs3 : s₀.Keeps s3 := by
      unfold s3
      refine hs2.each fun s5 x hs5 => ?_
      split
      · exact hs5.storeParity
      · exact hs5
    have hs4 : s₀.Keeps s4 := by
      unfold s4
      split
      · exact hs3
      · exact hs3.conflict
    exact hs4.retire

theorem State.Keeps.execEnginePartialsPresent {s₀ s : State} (hs : s₀.Keeps s) {t : TileId} {m : MacroId}
    : s₀.Completes (Machine.execEnginePartialsPresent t m s) := by
  unfold Machine.execEnginePartialsPresent
  refine .next ?_
  split
  · exact hs
  · split
    · exact hs
    · extract_lets s1
      have hs1 : s₀.Keeps s1 := by
        unfold s1
        refine hs.modTile fun hTl => ?_
        refine .settle ?_
        extract_lets tl
        have htl : tl.SpOk := hTl.modSeq
        exact htl.of_eq
      exact hs1.present

theorem State.Keeps.execOutpLoad {s₀ s : State} (hs : s₀.Keeps s) {t : TileId} {id : Ids} {f : OutpLoadF}
    : s₀.Completes (Machine.execOutpLoad t id f s) := by
  unfold Machine.execOutpLoad
  refine .next ?_
  refine .issue ?_ ?_
  · exact hs
  · intro a ha
    extract_lets tl macs src read free us
    refine .access ?_ ?_
    · exact ha
    · intro a1 ha1
      clear_value read
      split
      · exact ha1
      · extract_lets w s1
        have hs1 : s₀.Keeps s1 := ha1.modTile fun hTl => hTl.modMacs.busyTo
        exact hs1.count

theorem State.Keeps.execMoveToScratchpad {s₀ s : State} (hs : s₀.Keeps s) {t : TileId} {id : Ids} {f : MoveF}
    : s₀.Completes (Machine.execMoveToScratchpad t id f s) := by
  unfold Machine.execMoveToScratchpad
  refine .next ?_
  refine .issue ?_ ?_
  · exact hs
  · intro a ha
    extract_lets n ac src dst us
    refine .access ?_ ?_
    · exact ha
    · intro a1 ha1
      extract_lets s1
      have hs1 : s₀.Keeps s1 := ha1.modTile fun hTl => hTl.writeRows.busyTo
      exact hs1.count.count

theorem State.Keeps.execMoveToStaging {s₀ s : State} (hs : s₀.Keeps s) {t : TileId} {id : Ids} {f : MoveF}
    : s₀.Completes (Machine.execMoveToStaging t id f s) := by
  unfold Machine.execMoveToStaging
  refine .next ?_
  refine .issue ?_ ?_
  · exact hs
  · intro a ha
    extract_lets cw n ac src us macs
    refine .access ?_ ?_
    · exact ha
    · intro a1 ha1
      extract_lets tl bad go half fl s1 s2
      have hs1 : s₀.Keeps s1 := ha1.modTile fun hTl => hTl.modMacs.busyTo
      have hs2 : s₀.Keeps s2 := hs1.count
      split
      · exact hs2
      · exact hs2.conflict

theorem Tile.SpOk.putUop {tl : Tile} (hs : tl.SpOk) {i : Nat} {w : BitVec 128} : (tl.putUop i w).SpOk := by
  unfold Tile.putUop
  exact hs.of_eq

theorem State.Keeps.execMoveToInstructionPage {s₀ s : State} (hs : s₀.Keeps s) {t : TileId} {id : Ids} {f : MoveF}
    : s₀.Completes (Machine.execMoveToInstructionPage t id f s) := by
  unfold Machine.execMoveToInstructionPage
  refine .next ?_
  refine .issue ?_ ?_
  · exact hs
  · intro a ha
    extract_lets n tl ac src us own
    refine .access ?_ ?_
    · exact ha
    · intro a1 ha1
      extract_lets s1 s2
      have hs1 : s₀.Keeps s1 := by
        unfold s1
        refine ha1.modTile fun hTl => ?_
        extract_lets new
        have hnew : new.SpOk := hTl.foldl fun _ _ htl1 => htl1.putUop
        exact hnew.of_eq.busyTo
      have hs2 : s₀.Keeps s2 := hs1.count
      split
      · exact hs2.conflict
      · exact hs2

theorem State.Keeps.rputGo {s₀ s : State} (hs : s₀.Keeps s) {t : TileId} {id : Ids} {f : RputF} : s₀.Keeps
    (s.rputGo t id f) := by
  unfold State.rputGo
  extract_lets n ac src us
  refine .access ?_ ?_
  · exact hs
  · intro a ha
    extract_lets tl c h dest frame s1 s2 now s3
    have hs1 : s₀.Keeps s1 := ha.foldl fun _ _ hs4 => hs4.send
    have hs2 : s₀.Keeps s2 := hs1.of_eq
    have hs3 : s₀.Keeps s3 := hs2.modTile_same
    exact hs3.count.count

theorem State.Keeps.execRput {s₀ s : State} (hs : s₀.Keeps s) {t : TileId} {id : Ids} {f : RputF} : s₀.Completes
    (Machine.execRput t id f s) := by
  unfold Machine.execRput
  refine .next ?_
  refine .issue ?_ ?_
  · exact hs
  · intro a ha
    split
    · exact ha.rputGo
    · exact ha.wait_.modTile_same

theorem State.Keeps.execRputCreditPresent {s₀ s : State} (hs : s₀.Keeps s) {t : TileId} {waited : Nat}
    : s₀.Completes (Machine.execRputCreditPresent t waited s) := by
  unfold Machine.execRputCreditPresent
  extract_lets tl s1
  have hs1 : s₀.Keeps s1 := hs.modTile_same
  refine .next ?_
  split
  · extract_lets f
    split
    · exact hs1.count.rputGo
    · exact hs
  · exact hs

theorem Tile.SpOk.dmahStart {tl : Tile} (hs : tl.SpOk) {f : DmahF} {id : Ids} {due : Nat} {x : Transfer} :
    (tl.dmahStart f id due x).SpOk := by
  unfold Tile.dmahStart
  exact hs.startOp

theorem State.Keeps.execDmahToScratchpad {s₀ s : State} (hs : s₀.Keeps s) {t : TileId} {id : Ids} {f : DmahF}
    : s₀.Completes (Machine.execDmahToScratchpad t id f s) := by
  unfold Machine.execDmahToScratchpad
  refine .next ?_
  refine .issue ?_ ?_
  · exact hs
  · intro a ha
    extract_lets n src dst us
    refine .access ?_ ?_
    · exact ha
    · exact fun a1 ha1 => ha1.modTile_same

theorem State.Keeps.execDmahToHbm {s₀ s : State} (hs : s₀.Keeps s) {t : TileId} {id : Ids} {f : DmahF}
    : s₀.Completes (Machine.execDmahToHbm t id f s) := by
  unfold Machine.execDmahToHbm
  refine .next ?_
  refine .issue ?_ ?_
  · exact hs
  · intro a ha
    extract_lets n ac src dst us
    refine .access ?_ ?_
    · exact ha
    · intro a1 ha1
      extract_lets s1
      have hs1 : s₀.Keeps s1 := ha1.modTile_same
      exact hs1.count

theorem State.Keeps.dmahRefused {s₀ s : State} (hs : s₀.Keeps s) {t : TileId} {ids : Ids} : s₀.Keeps
    (s.dmahRefused t ids) := by
  unfold State.dmahRefused
  exact hs.raise

theorem State.Keeps.dmaNew {s₀ s : State} (hs : s₀.Keeps s) {t : TileId} {a : HeldAccess} : s₀.Keeps (s.dmaNew t a)
    := by
  unfold State.dmaNew
  extract_lets s1
  have hs1 : s₀.Keeps s1 := hs.settleDma
  exact hs1.dmaTry

theorem State.Keeps.dmaWrite {s₀ s : State} (hs : s₀.Keeps s) {t : TileId} {addr : Nat} {data : List Byte}
    {land : Option LandKey} {op : Option Nat} : s₀.Keeps (s.dmaWrite t addr data land op) := by
  unfold State.dmaWrite
  exact hs.dmaNew

theorem State.Keeps.execDmahDone {s₀ s : State} (hs : s₀.Keeps s) {t : TileId} {x : DmahEnd} : s₀.Completes
    (Machine.execDmahDone t x s) := by
  unfold Machine.execDmahDone
  refine .next ?_
  extract_lets isDmah
  split
  · split
    · extract_lets s1 good s2
      have hs1 : s₀.Keeps s1 := hs.modTile_same
      have hs2 : s₀.Keeps s2 := by
        unfold s2
        split
        · refine .count ?_
          exact hs1.each fun _ _ hs3 => hs3.partWrite
        · split
          · exact hs1.dmahRefused
          · refine .count ?_
            exact hs1.each fun _ _ hs3 => hs3.dmaWrite
      exact hs2.modTile_same.dmahLanded
    · exact hs
  · exact hs

theorem State.Keeps.sendGrant {s₀ s : State} (hs : s₀.Keeps s) {p : PartId} {i : Nat} : s₀.Keeps (s.sendGrant p i)
    := by
  unfold State.sendGrant
  split
  · exact hs
  · extract_lets win h recip host
    split
    · exact hs
    · extract_lets m s1
      have hs1 : s₀.Keeps s1 := hs.modTile_same
      split
      · exact hs
      · exact hs1.send

theorem State.Keeps.arrive {s₀ s : State} (hs : s₀.Keeps s) {t : TileId} {ids : Ids} {rid : Nat} {grant : Bool}
    : s₀.Keeps (s.arrive t ids rid grant) := by
  unfold State.arrive
  split
  · exact hs
  · split
    · exact hs
    · extract_lets need have_ s1 s2
      have hs1 : s₀.Keeps s1 := hs.modPart
      have hs2 : s₀.Keeps s2 := by
        unfold s2
        split
        · exact hs1.each fun _ _ hs3 => hs3.sendGrant
        · exact hs1
      split
      · exact hs.conflict
      · split
        · exact hs2.send
        · exact hs2

theorem State.Keeps.execRdvArrive {s₀ s : State} (hs : s₀.Keeps s) {t : TileId} {id : Ids} {f : RdvF} : s₀.Completes
    (Machine.execRdvArrive t id f s) := by
  unfold Machine.execRdvArrive
  refine .next ?_
  refine .issue ?_ ?_
  · exact hs
  · exact fun a ha => ha.begin_.arrive.retire

theorem State.Keeps.cancelAt {s₀ s : State} (hs : s₀.Keeps s) {p : PartId} {rid : Nat} : s₀.Keeps (s.cancelAt p rid)
    := by
  unfold State.cancelAt
  split
  · exact hs.markFrame.modPart
  · exact hs

theorem State.Keeps.rdvWaitAt {s₀ s : State} (hs : s₀.Keeps s) {t : TileId} {rid : BitVec 10} : s₀.Keeps
    (s.rdvWaitAt t rid) := by
  unfold State.rdvWaitAt
  split
  · extract_lets x
    split
    · exact hs.cancelAt.retire
    · exact hs.wait_
  · exact hs.retire

theorem State.Keeps.execRdvWait {s₀ s : State} (hs : s₀.Keeps s) {t : TileId} {id : Ids} {f : RdvF} : s₀.Completes
    (Machine.execRdvWait t id f s) := by
  unfold Machine.execRdvWait
  refine .next ?_
  refine .issue ?_ ?_
  · exact hs
  · exact fun a ha => ha.begin_.rdvWaitAt

theorem State.Keeps.execRdvArriveWait {s₀ s : State} (hs : s₀.Keeps s) {t : TileId} {id : Ids} {f : RdvF}
    : s₀.Completes (Machine.execRdvArriveWait t id f s) := by
  unfold Machine.execRdvArriveWait
  refine .next ?_
  refine .issue ?_ ?_
  · exact hs
  · exact fun a ha => ha.begin_.arrive.rdvWaitAt

theorem State.Keeps.overBudget {s₀ s : State} (hs : s₀.Keeps s) {p : PartId} {t : TileId} {waited : Nat} : s₀.Keeps
    (s.overBudget p t waited) := by
  unfold State.overBudget
  extract_lets q s1 s2
  have hs1 : s₀.Keeps s1 := hs.modTile_same
  have hs2 : s₀.Keeps s2 := hs1.raise
  split
  · exact hs2.modPart
  · exact hs

theorem State.Keeps.execRdvWaitRelease {s₀ s : State} (hs : s₀.Keeps s) {t : TileId} {waited : Nat} : s₀.Completes
    (Machine.execRdvWaitRelease t waited s) := by
  unfold Machine.execRdvWaitRelease
  extract_lets q
  refine .next ?_
  split
  · split
    · extract_lets n
      exact hs.overBudget.release
    · exact hs
  · exact hs

theorem State.Keeps.execRdvOverBudget {s₀ s : State} (hs : s₀.Keeps s) {x : PointWait} : s₀.Completes
    (Machine.execRdvOverBudget x s) := by
  unfold Machine.execRdvOverBudget
  extract_lets q
  refine .next ?_
  split
  · split
    · exact hs.overBudget
    · exact hs
  · exact hs

theorem State.Keeps.execGate {s₀ s : State} (hs : s₀.Keeps s) {t : TileId} {id : Ids} {f : GateF} : s₀.Completes
    (Machine.execGate t id f s) := by
  unfold Machine.execGate
  refine .next ?_
  refine .issue ?_ ?_
  · exact hs
  · exact fun a ha => ha.begin_.wait_.modTile_same

theorem State.Keeps.execTileDoneReport {s₀ s : State} (hs : s₀.Keeps s) {t : TileId} {waited : Nat} : s₀.Completes
    (Machine.execTileDoneReport t waited s) := by
  unfold Machine.execTileDoneReport
  extract_lets q s1 busy s2 s3 s4
  have hs1 : s₀.Keeps s1 := hs.modTile_same.due.modTile fun hTl => hTl.settle
  have hs2 : s₀.Keeps s2 := hs1.modTile fun hTl => hTl.landAll
  have hs3 : s₀.Keeps s3 := by
    unfold s3
    split
    · exact hs2
    · exact hs2.conflict
  have hs4 : s₀.Keeps s4 := hs3.modTile_same.count
  refine .next ?_
  split
  · split
    · split
      · exact hs4.modPart
      · exact hs4
    · exact hs
  · exact hs

theorem State.Keeps.modDie {s₀ s : State} (hs : s₀.Keeps s) {d : DieId} {f : Die → Die} : s₀.Keeps (s.modDie d f)
    := by
  unfold State.modDie
  exact hs.of_eq

theorem State.Keeps.execHint {s₀ s : State} (hs : s₀.Keeps s) {t : TileId} {id : Ids} {f : HintF} : s₀.Completes
    (Machine.execHint t id f s) := by
  unfold Machine.execHint
  refine .next ?_
  refine .issue ?_ ?_
  · exact hs
  · intro a ha
    extract_lets s1 d first ph s2 s3
    have hs1 : s₀.Keeps s1 := ha.begin_
    have hs2 : s₀.Keeps s2 := hs1.modDie
    have hs3 : s₀.Keeps s3 := by
      unfold s3
      split
      · exact hs2.of_eq
      · exact hs2
    exact hs3.retire

theorem State.Keeps.execTwin {s₀ s : State} (hs : s₀.Keeps s) {t : TileId} {id : Ids} {f : TwinF} : s₀.Completes
    (Machine.execTwin t id f s) := by
  unfold Machine.execTwin
  exact (hs.issue fun _ h => h.control.each fun _ _ hs1 => hs1.conflict).next

theorem State.Keeps.parityReplay {s₀ s : State} (hs : s₀.Keeps s) {t : TileId} {tries : Nat} : s₀.Keeps
    (s.parityReplay t tries) := by
  unfold State.parityReplay
  extract_lets s1
  have hs1 : s₀.Keeps s1 := hs.modTile_same
  exact hs1.raise.count

theorem State.Keeps.firstReplay {s₀ s : State} (hs : s₀.Keeps s) {t : TileId} {word : Option Nat} {ids : Ids}
    : s₀.Keeps (s.firstReplay t word ids) := by
  unfold State.firstReplay
  exact hs.modTile_same.parityReplay

theorem State.Keeps.execFetchParityReplay {s₀ s : State} (hs : s₀.Keeps s) {x : ParityAt} : s₀.Completes
    (Machine.execFetchParityReplay x s) := by
  unfold Machine.execFetchParityReplay
  extract_lets tl
  refine .next ?_
  split
  · exact hs
  · split
    · split
      · exact hs.firstReplay
      · exact hs
    · split
      · exact hs.firstReplay
      · exact hs

theorem State.Keeps.execParityReplayEnd {s₀ s : State} (hs : s₀.Keeps s) {t : TileId} {good : Bool} : s₀.Completes
    (Machine.execParityReplayEnd t good s) := by
  unfold Machine.execParityReplayEnd
  extract_lets q s1 s2 s3
  have hs1 : s₀.Keeps s1 := hs.modTile_same
  have hs2 : s₀.Keeps s2 := hs.modTile_same
  have hs3 : s₀.Keeps s3 := hs2.abortTile
  refine .next ?_
  split
  · split
    · exact hs1.raise
    · split
      · exact hs.parityReplay
      · split
        · exact hs3.modPart
        · exact hs3
  · exact hs

theorem State.Keeps.restartClocks {s₀ s : State} (hs : s₀.Keeps s) {p : PartId} : s₀.Keeps (s.restartClocks p) := by
  unfold State.restartClocks
  exact hs.modPart

theorem State.Keeps.reach {s₀ s : State} (hs : s₀.Keeps s) {ts : Stamp} : s₀.Keeps (s.reach ts) := by
  unfold State.reach
  exact hs.of_eq

theorem State.Keeps.freeDma {s₀ s : State} (hs : s₀.Keeps s) {t : TileId} : s₀.Keeps (s.freeDma t) := by
  unfold State.freeDma
  exact hs.serveAll

theorem Tile.SpOk.clear {tl : Tile} (hs : tl.SpOk) : tl.clear.SpOk := by
  unfold Tile.clear
  extract_lets tl1
  have htl1 : tl1.SpOk := hs.landAll
  exact htl1.of_eq

theorem Tile.SpOk.atGate {tl : Tile} (hs : tl.SpOk) {zero : Bool} : (tl.atGate zero).SpOk := by
  unfold Tile.atGate
  extract_lets tl1 start open_ old begun cycle
  have htl1 : tl1.SpOk := hs.clear
  exact htl1.of_eq

theorem State.Keeps.execFrameStart {s₀ s : State} (hs : s₀.Keeps s) {p : PartId} : s₀.Completes (Machine.execFrameStart p s)
    := by
  unfold Machine.execFrameStart
  refine .next ?_
  extract_lets pt s1 s2 s3 stretched out s4 s5
  have hs1 : s₀.Keeps s1 := hs.reach.restartClocks
  have hs2 : s₀.Keeps s2 := by
    unfold s2
    refine hs1.each fun s6 x hs6 => ?_
    refine .freeDma ?_
    exact hs6.modTile fun hTl => hTl.atGate
  have hs3 : s₀.Keeps s3 := hs2.each fun _ _ hs6 => hs6.modCluster
  have hs5 : s₀.Keeps s5 := by
    unfold s5
    split
    · exact hs3.of_eq
    · exact hs3
  split
  · exact hs5.modPart
  · exact hs

theorem State.Keeps.execTileFirstIssue {s₀ s : State} (hs : s₀.Keeps s) {c : ClusterId} : s₀.Completes
    (Machine.execTileFirstIssue c s) := by
  unfold Machine.execTileFirstIssue
  refine .next ?_
  split
  · exact hs
  · split
    · refine hs.each fun s1 x hs1 => ?_
      extract_lets tl
      split
      · exact hs1.modTile_same
      · exact hs1
    · exact hs

theorem State.Keeps.execSoftStartEnd {s₀ s : State} (hs : s₀.Keeps s) {t : TileId} : s₀.Completes
    (Machine.execSoftStartEnd t s) := by
  unfold Machine.execSoftStartEnd
  refine .next ?_
  split
  · exact hs.modTile_same
  · exact hs

theorem State.Keeps.capture {s₀ s : State} (hs : s₀.Keeps s) {p : Option PartId} {host : Bool} {m : Msg}
    {serve : State → State} (hserve : ∀ (a : State), s₀.Keeps a → s₀.Keeps (serve a)) : s₀.Keeps
    (s.capture p host m serve) := by
  unfold State.capture
  split
  · split
    · exact hs.modPart
    · exact (hserve _ hs)
  · exact (hserve _ hs)

theorem State.Keeps.discard {s₀ s : State} (hs : s₀.Keeps s) : s₀.Keeps s.discard := by
  unfold State.discard
  exact hs.of_eq

theorem State.Keeps.refuse {s₀ s : State} (hs : s₀.Keeps s) {w : BitVec 24} {via : Via} {epoch : BitVec 32}
    {tag : BitVec 16} {reason : BitVec 8} {detail : BitVec 32} : s₀.Keeps (s.refuse w via epoch tag reason detail)
    := by
  unfold State.refuse
  extract_lets det s1
  have hs1 : s₀.Keeps s1 := by
    unfold s1
    split
    · extract_lets s2
      have hs2 : s₀.Keeps s2 := hs.modTile_same
      exact hs2.raise
    · split
      · exact hs.raise
      · exact hs.raise
  exact hs1.send

theorem Tile.SpOk.dropPut {tl : Tile} (hs : tl.SpOk) {w : PutWrite} : (tl.dropPut w).SpOk := by
  unfold Tile.dropPut
  exact hs.of_eq

theorem State.Keeps.putData {s₀ s : State} (hs : s₀.Keeps s) {t : TileId} {w : PutWrite} {m : PutHdr}
    {data : List Byte} : s₀.Keeps (s.putData t w m data) := by
  unfold State.putData
  extract_lets upd s1
  have hs1 : s₀.Keeps s1 := hs.modTile_same
  exact hs1.dmaWrite

theorem State.Keeps.putLand {s₀ s : State} (hs : s₀.Keeps s) {t : TileId} {w : PutWrite} {m : PutHdr}
    {data : List Byte} {parityErr : Bool} : s₀.Keeps (s.putLand t w m data parityErr) := by
  unfold State.putLand
  split
  · exact hs.modTile_same.refuse
  · exact hs.putData

theorem State.Keeps.putSegment {s₀ s : State} (hs : s₀.Keeps s) {via : Via} {m : PutHdr} {data : List Byte}
    {parityErr : Bool} : s₀.Keeps (s.putSegment via m data parityErr) := by
  unfold State.putSegment
  split
  · exact hs.discard
  · split
    · split
      · exact hs.modTile_same
      · exact hs
    · split
      · split
        · exact hs.refuse
        · split
          · exact hs
          · extract_lets w s1
            have hs1 : s₀.Keeps s1 := hs.modTile_same
            exact hs1.putLand
      · split
        · exact hs
        · exact hs.putLand

theorem State.Keeps.execPutSegmentReceive {s₀ s : State} (hs : s₀.Keeps s) {via : Via} {h : PutHdr}
    {data : List Byte} {mergeParityErr : Bool} : s₀.Completes (Machine.execPutSegmentReceive via h data mergeParityErr s)
    := by
  unfold Machine.execPutSegmentReceive
  refine .next ?_
  split
  · refine .capture ?_ ?_
    · exact hs
    · exact fun a ha => ha.putSegment
  · exact hs

theorem State.Keeps.execPutWriteLanded {s₀ s : State} (hs : s₀.Keeps s) {window : BitVec 24} {via : Via}
    {tag : BitVec 16} : s₀.Completes (Machine.execPutWriteLanded window via tag s) := by
  unfold Machine.execPutWriteLanded
  refine .next ?_
  split
  · exact hs
  · extract_lets s1 here
    have hs1 : s₀.Keeps s1 := hs.settleDma
    split
    · exact hs1
    · exact hs1.modTile_same.send

theorem State.Keeps.opDone {s₀ s : State} (hs : s₀.Keeps s) {t : TileId} {o : AsyncOp} : s₀.Keeps (s.opDone t o) := by
  unfold State.opDone
  refine hs.modTile fun hTl => ?_
  extract_lets tl
  have htl : tl.SpOk := hTl.countDone
  exact htl.of_eq

theorem State.Keeps.execAckReceive {s₀ s : State} (hs : s₀.Keeps s) {window : BitVec 24} {epoch : BitVec 32}
    {tag : BitVec 16} : s₀.Completes (Machine.execAckReceive window epoch tag s) := by
  unfold Machine.execAckReceive
  refine .next ?_
  split
  · split
    · refine .capture ?_ ?_
      · exact hs
      · exact fun a ha => ha.opDone
    · exact hs
  · exact hs

theorem State.Keeps.opFailed {s₀ s : State} (hs : s₀.Keeps s) {t : TileId} {o : AsyncOp} {reason : BitVec 8}
    : s₀.Keeps (s.opFailed t o reason) := by
  unfold State.opFailed
  extract_lets owner s1
  have hs1 : s₀.Keeps s1 := hs.raise
  clear_value owner
  split
  · split
    · exact hs1.markFrame
    · exact hs1
  · exact hs1

theorem State.Keeps.execNackReceive {s₀ s : State} (hs : s₀.Keeps s) {window : BitVec 24} {epoch : BitVec 32}
    {tag : BitVec 16} {reason : BitVec 8} {detail : BitVec 32} : s₀.Completes
    (Machine.execNackReceive window epoch tag reason detail s) := by
  unfold Machine.execNackReceive
  refine .next ?_
  split
  · split
    · refine .capture ?_ ?_
      · exact hs
      · intro a ha
        extract_lets s1
        have hs1 : s₀.Keeps s1 := ha.opDone.modTile_same
        exact hs1.opFailed
    · exact hs
  · exact hs

theorem State.Keeps.execGrantReceive {s₀ s : State} (hs : s₀.Keeps s) {t : TileId} {g : GrantMsg} : s₀.Completes
    (Machine.execGrantReceive t g s) := by
  unfold Machine.execGrantReceive
  refine .next ?_
  split
  · refine .capture ?_ ?_
    · exact hs
    · intro a ha
      split
      · exact ha.discard
      · split
        · exact ha.discard
        · extract_lets frame
          refine ha.modTile fun hTl => ?_
          split
          · exact hTl.of_eq
          · split
            · exact hTl.of_eq
            · exact hTl.of_eq
  · exact hs

theorem State.Keeps.creditAnswer {s₀ s : State} (hs : s₀.Keeps s) {p : PartId} {slot : HostSlot} {seq : BitVec 32}
    {window : BitVec 24} : s₀.Keeps (s.creditAnswer p slot seq window) := by
  unfold State.creditAnswer
  extract_lets via note
  split
  · exact hs.send
  · extract_lets active found s1
    have hs1 : s₀.Keeps s1 := hs.modTile_same
    split
    · exact hs.send
    · exact hs1.each fun _ _ hs2 => hs2.send

theorem State.Keeps.execCreditRequest {s₀ s : State} (hs : s₀.Keeps s) {p : PartId} {slot : HostSlot}
    {seq : BitVec 32} {window : BitVec 24} {paySlot : BitVec 4} : s₀.Completes
    (Machine.execCreditRequest p slot seq window paySlot s) := by
  unfold Machine.execCreditRequest
  refine .next ?_
  split
  · refine .capture ?_ ?_
    · exact hs
    · intro a ha
      split
      · exact ha.discard
      · exact ha.creditAnswer
  · exact hs

theorem State.Keeps.sealedRead {s₀ s : State} (hs : s₀.Keeps s) {via : Via} {r : ReadReq} : s₀.Keeps
    (s.sealedRead via r) := by
  unfold State.sealedRead
  split
  · extract_lets w
    split
    · exact hs.conflict
    · exact hs
  · exact hs

theorem State.Keeps.readRequest {s₀ s : State} (hs : s₀.Keeps s) {via : Via} {r : ReadReq} {parityErr : Bool}
    {after : Option Nat} : s₀.Keeps (s.readRequest via r parityErr after) := by
  unfold State.readRequest
  split
  · exact hs.discard
  · split
    · exact hs.sealedRead.refuse
    · split
      · exact hs
      · extract_lets w
        exact hs.dmaNew

theorem State.Keeps.execReadRequest {s₀ s : State} (hs : s₀.Keeps s) {via : Via} {r : ReadReq} {parityErr : Bool}
    {toggledAfter : Option Nat} : s₀.Completes (Machine.execReadRequest via r parityErr toggledAfter s) := by
  unfold Machine.execReadRequest
  refine .next ?_
  split
  · refine .capture ?_ ?_
    · exact hs
    · exact fun a ha => ha.readRequest
  · exact hs

theorem State.Keeps.execReadDataSegmentReceive {s₀ s : State} (hs : s₀.Keeps s) {r : ReadSeg} {data : List Byte}
    : s₀.Completes (Machine.execReadDataSegmentReceive r data s) := by
  unfold Machine.execReadDataSegmentReceive
  refine .next ?_
  split
  · split
    · exact hs.discard
    · extract_lets others
      exact hs.of_eq.send
  · exact hs

theorem State.Keeps.closeEpoch {s₀ s : State} (hs : s₀.Keeps s) {t : TileId} {h : Nat} {torn : Bool} : s₀.Keeps
    (s.closeEpoch t h torn) := by
  unfold State.closeEpoch
  extract_lets w
  exact hs.modTile_same

theorem State.Keeps.execAdvanceComplete {s₀ s : State} (hs : s₀.Keeps s) {window : BitVec 24} : s₀.Completes
    (Machine.execAdvanceComplete window s) := by
  unfold Machine.execAdvanceComplete
  refine .next ?_
  split
  · exact hs
  · extract_lets s1
    have hs1 : s₀.Keeps s1 := hs.settleDma
    split
    · exact hs1.closeEpoch
    · exact hs1

theorem State.Keeps.dropWrite {s₀ s : State} (hs : s₀.Keeps s) {t : TileId} {w : PutWrite} {reason : BitVec 8}
    : s₀.Keeps (s.dropWrite t w reason) := by
  unfold State.dropWrite
  exact hs.modTile_same.refuse

theorem State.Keeps.execAdvanceTimeout {s₀ s : State} (hs : s₀.Keeps s) {window : BitVec 24} : s₀.Completes
    (Machine.execAdvanceTimeout window s) := by
  unfold Machine.execAdvanceTimeout
  refine .next ?_
  split
  · exact hs
  · extract_lets s1 old
    have hs1 : s₀.Keeps s1 := hs.settleDma
    refine .closeEpoch ?_
    exact hs1.each fun _ _ hs2 => hs2.dropWrite

theorem State.Keeps.execFabricResponseTimeout {s₀ s : State} (hs : s₀.Keeps s) {tag : BitVec 16} : s₀.Completes
    (Machine.execFabricResponseTimeout tag s) := by
  unfold Machine.execFabricResponseTimeout
  refine .next ?_
  split
  · exact hs.opDone.opFailed
  · split
    · exact hs.of_eq.raise
    · exact hs

theorem State.Keeps.execDmaSubbankWait {s₀ s : State} (hs : s₀.Keeps s) {t : TileId} {bank : SpBank} : s₀.Completes
    (Machine.execDmaSubbankWait t bank s) := by
  unfold Machine.execDmaSubbankWait
  refine .next ?_
  extract_lets s1
  have hs1 : s₀.Keeps s1 := hs.settleDma
  split
  · exact hs1.raise
  · exact hs1

theorem State.Keeps.execDualPortBusyRetry {s₀ s : State} (hs : s₀.Keeps s) {t : TileId} : s₀.Completes
    (Machine.execDualPortBusyRetry t s) := by
  unfold Machine.execDualPortBusyRetry
  refine .next ?_
  split
  · split
    · exact hs.serveAll
    · exact hs
  · exact hs

theorem State.Keeps.execDmaReadParityRetry {s₀ s : State} (hs : s₀.Keeps s) {t : TileId} {good : Bool}
    : s₀.Completes (Machine.execDmaReadParityRetry t good s) := by
  unfold Machine.execDmaReadParityRetry
  refine .next ?_
  split
  · split
    · exact hs
    · split
      · exact hs.serveAll.raise
      · split
        · extract_lets again
          exact hs.modTile_same
        · extract_lets s1
          have hs1 : s₀.Keeps s1 := hs.modTile_same
          split
          · exact hs1.refuse
          · exact hs1
  · exact hs

theorem State.Keeps.execBankSleep {s₀ s : State} (hs : s₀.Keeps s) {t : TileId} {b : SpBank} : s₀.Completes
    (Machine.execBankSleep t b s) := by
  unfold Machine.execBankSleep
  refine .next ?_
  split
  · exact hs.modTile_same
  · exact hs

theorem State.Keeps.execBankWake {s₀ s : State} (hs : s₀.Keeps s) {t : TileId} {b : SpBank} {sequencer : Bool}
    : s₀.Completes (Machine.execBankWake t b sequencer s) := by
  unfold Machine.execBankWake
  refine .next ?_
  split
  · exact hs.modTile fun hTl => hTl.startWake
  · exact hs

theorem State.Keeps.execBankWakeDone {s₀ s : State} (hs : s₀.Keeps s) {t : TileId} {b : SpBank} : s₀.Completes
    (Machine.execBankWakeDone t b s) := by
  unfold Machine.execBankWakeDone
  extract_lets k serve s1
  have hserve : ∀ s, s₀.Keeps s → s₀.Keeps (serve s) := fun _ h => h.serveAll
  have hs1 : s₀.Keeps s1 := by
    refine hs.modTile fun hTl => ?_
    dsimp only
    split
    · exact hTl.modSpBank.modSeq
    · exact hTl.modSpBank
  refine .next ?_
  split
  · exact hs
  · split
    · refine hserve _ ?_
      split
      · exact hs1.count
      · exact hs1
    · split
      · exact hserve _ hs
      · exact hs

theorem State.Keeps.stepMeets {s₀ s : State} (hs : s₀.Keeps s) {t : TileId} {r : Nat} : s₀.Keeps (s.stepMeets t r)
    := by
  unfold State.stepMeets
  extract_lets tl m
  split
  · split
    · exact hs.modTile_same.conflict
    · exact hs
  · split
    · exact hs.meetStep
    · exact hs

theorem State.Keeps.stepParity {s₀ s : State} (hs : s₀.Keeps s) {t : TileId} {r word : Nat} : s₀.Keeps
    (s.stepParity t r word) := by
  unfold State.stepParity
  extract_lets s1 m row phys s2
  have hs1 : s₀.Keeps s1 := hs.modTile_same
  have hs2 : s₀.Keeps s2 := hs1.modTile_same
  split
  · exact hs2.raise
  · exact hs1

theorem State.Keeps.stepFault {s₀ s : State} (hs : s₀.Keeps s) {t : TileId} {r word : Nat} : s₀.Keeps
    (s.stepFault t r word) := by
  unfold State.stepFault
  extract_lets detail owner m s1 s2 s3 s4
  have hs1 : s₀.Keeps s1 := hs.modTile_same
  have hs2 : s₀.Keeps s2 := hs1.raise
  have hs3 : s₀.Keeps s3 := hs.modTile_same
  have hs4 : s₀.Keeps s4 := hs3.abortTile
  split
  · clear_value owner
    split
    · exact hs2.modPart
    · exact hs2
  · clear_value owner
    split
    · exact hs4.modPart
    · exact hs4

theorem State.Keeps.execTidewalkStep {s₀ s : State} (hs : s₀.Keeps s) {t : TileId} {parityErr : List Nat}
    {marchFail : Option Nat} : s₀.Completes (Machine.execTidewalkStep t parityErr marchFail s) := by
  unfold Machine.execTidewalkStep
  refine .next ?_
  extract_lets tl
  split
  · split
    · exact hs
    · extract_lets bad s1 s2 s3 s4
      have hs1 : s₀.Keeps s1 := hs.modTile_same
      have hs2 : s₀.Keeps s2 := by
        unfold s2
        split
        · exact hs1
        · exact hs1.modTile_same
      have hs3 : s₀.Keeps s3 := hs2.stepMeets
      have hs4 : s₀.Keeps s4 := hs3.each fun _ _ hs5 => hs5.stepParity
      split
      · exact hs4.stepFault
      · exact hs4
  · exact hs

theorem State.Keeps.modCtrl {s₀ s : State} (hs : s₀.Keeps s) {k : CtrlId} {f : Ctrl → Ctrl} : s₀.Keeps
    (s.modCtrl k f) := by
  unfold State.modCtrl
  exact hs.of_eq

theorem State.Keeps.hardError {s₀ s : State} (hs : s₀.Keeps s) {a : HbmAddr} {req : BitVec 7} {user : HbmUser}
    {write : Bool} : s₀.Keeps (s.hardError a req user write) := by
  unfold State.hardError
  extract_lets k s1 s2 by_ owner ids serves s3
  have hs2 : s₀.Keeps s2 := hs.modCtrl.of_eq
  have hs3 : s₀.Keeps s3 := hs2.raise
  clear_value owner serves
  split
  · cases serves
    · exact hs3
    · exact hs3.markFrame
  · exact hs3

theorem State.Keeps.hbmReplay {s₀ s : State} (hs : s₀.Keeps s) {a : HbmAddr} {req : BitVec 7} {user : HbmUser}
    {write good : Bool} : s₀.Keeps (s.hbmReplay a req user write good) := by
  unfold State.hbmReplay
  extract_lets k key owner x
  split
  · exact hs.modCtrl.raise
  · split
    · exact hs.modCtrl
    · exact hs.modCtrl.hardError

theorem State.Keeps.execHbmReadReplay {s₀ s : State} (hs : s₀.Keeps s) {a : HbmAddr} {r : HbmReq} {good : Bool}
    {ecc : EccVerdict} (ha : hbmExists a = true) : s₀.Completes (Machine.execHbmReadReplay a r good ecc s) := by
  unfold Machine.execHbmReadReplay
  rw [if_pos ha]
  refine .next ?_
  split
  · extract_lets ends n s1
    have hs1 : s₀.Keeps s1 := by
      unfold s1
      split
      · exact hs
      · exact hs.modCtrl
    exact hs1.hbmReplay
  · exact hs

theorem State.Keeps.execHbmWriteReplay {s₀ s : State} (hs : s₀.Keeps s) {a : HbmAddr} {r : HbmReq} {good : Bool}
    (ha : hbmExists a = true) : s₀.Completes (Machine.execHbmWriteReplay a r good s) := by
  unfold Machine.execHbmWriteReplay
  rw [if_pos ha]
  refine .next ?_
  split
  · exact hs.hbmReplay
  · exact hs

theorem State.Keeps.sendCancels {s₀ s : State} (hs : s₀.Keeps s) {p : PartId} {frame : BitVec 32} {fresh : Bool}
    : s₀.Keeps (s.sendCancels p frame fresh) := by
  unfold State.sendCancels
  extract_lets tbl
  refine hs.each fun s1 x hs1 => ?_
  extract_lets e x1 g
  split
  · exact hs1
  · split
    · exact hs1.send
    · split
      · exact hs1.modPart
      · exact hs1

theorem State.Keeps.modGroup {s₀ s : State} (hs : s₀.Keeps s) {g : GroupId} {f : Group → Group} : s₀.Keeps
    (s.modGroup g f) := by
  unfold State.modGroup
  exact hs.of_eq

theorem State.Keeps.takeReady {s₀ s : State} (hs : s₀.Keeps s) {src : BitVec 8} {m : ReadyMsg} : s₀.Keeps
    (s.takeReady src m) := by
  unfold State.takeReady
  extract_lets x others x'
  split
  · exact hs.of_eq
  · exact hs.modGroup

theorem State.Keeps.sendReady {s₀ s : State} (hs : s₀.Keeps s) {m : ReadyMsg} : s₀.Keeps (s.sendReady m) := by
  unfold State.sendReady
  split
  · exact hs.takeReady
  · exact hs.send

theorem State.Keeps.sendWithdraw {s₀ s : State} (hs : s₀.Keeps s) {p : PartId} : s₀.Keeps (s.sendWithdraw p) := by
  unfold State.sendWithdraw
  extract_lets pt
  split
  · exact hs.sendReady
  · exact hs

theorem State.Keeps.withdraw {s₀ s : State} (hs : s₀.Keeps s) {p : PartId} : s₀.Keeps (s.withdraw p) := by
  unfold State.withdraw
  extract_lets pt s1
  have hs1 : s₀.Keeps s1 := by
    unfold s1
    split
    · exact hs.sendWithdraw.sendCancels
    · exact hs
  exact hs1.modPart

theorem State.Keeps.sendAlert {s₀ s : State} (hs : s₀.Keeps s) {p : PartId} {m : AlertMsg} : s₀.Keeps
    (s.sendAlert p m) := by
  unfold State.sendAlert
  extract_lets s1
  have hs1 : s₀.Keeps s1 := hs.send
  exact hs1.each fun _ _ hs2 => hs2.send

theorem State.Keeps.sendKind4 {s₀ s : State} (hs : s₀.Keeps s) {p : PartId} : s₀.Keeps (s.sendKind4 p) := by
  unfold State.sendKind4
  split
  · exact hs
  · split
    · exact hs
    · exact hs.sendAlert.modPart

theorem State.Keeps.withheldAlert {s₀ s : State} (hs : s₀.Keeps s) {p : PartId} : s₀.Keeps (s.withheldAlert p) := by
  unfold State.withheldAlert
  split
  · extract_lets m
    exact hs.modPart.sendKind4
  · exact hs

theorem State.Keeps.withhold {s₀ s : State} (hs : s₀.Keeps s) {p : PartId} {elapsed : Nat} : s₀.Keeps
    (s.withhold p elapsed) := by
  unfold State.withhold
  extract_lets status timing s1
  have hs1 : s₀.Keeps s1 := hs.withheldAlert
  exact hs1.modPart

theorem Tile.SpOk.atStop {tl : Tile} (hs : tl.SpOk) {cycle : Nat} : (tl.atStop cycle).SpOk := by
  unfold Tile.atStop
  extract_lets tl1
  have htl1 : tl1.SpOk := hs.modSeq.clear
  split
  · exact htl1.modSeq
  · exact htl1

theorem State.Keeps.advance {s₀ s : State} (hs : s₀.Keeps s) {t : TileId} {h : Nat} {toggle : Bool} : s₀.Keeps
    (s.advance t h toggle) := by
  unfold State.advance
  extract_lets w epoch pub w' isWrite s1
  have hs1 : s₀.Keeps s1 := hs.modTile_same
  split
  · split
    · extract_lets idx
      exact hs1.each fun _ _ hs2 => hs2.sendGrant
    · exact hs1
  · exact hs1

theorem State.Keeps.advanceAll {s₀ s : State} (hs : s₀.Keeps s) {p : PartId} {kind : Nat} {f : BitVec 128 → Bool}
    {toggle : Bool} : s₀.Keeps (s.advanceAll p kind f toggle) := by
  unfold State.advanceAll
  exact hs.each fun _ _ hs1 => hs1.each fun _ _ hs2 => hs2.advance

theorem State.Keeps.stopTiles {s₀ s : State} (hs : s₀.Keeps s) {p : PartId} : s₀.Keeps (s.stopTiles p) := by
  unfold State.stopTiles
  extract_lets s1 s2
  have hs1 : s₀.Keeps s1 := by
    unfold s1
    refine hs.each fun s3 x hs3 => ?_
    refine .freeDma ?_
    exact hs3.modTile fun hTl => hTl.atStop
  have hs2 : s₀.Keeps s2 := hs1.advanceAll
  exact hs2.modPart

theorem State.Keeps.stopFrame {s₀ s : State} (hs : s₀.Keeps s) {p : PartId} {cause : BitVec 4} {layer : BitVec 16}
    {elapsed : Nat} : s₀.Keeps (s.stopFrame p cause layer elapsed) := by
  unfold State.stopFrame
  split
  · extract_lets s1
    have hs1 : s₀.Keeps s1 := hs.markFrame.modPart
    exact hs1.stopTiles.sendCancels.withhold
  · exact hs

theorem State.Keeps.haltAll {s₀ s : State} (hs : s₀.Keeps s) {cause : BitVec 4} : s₀.Keeps (s.haltAll cause) := by
  unfold State.haltAll
  exact hs.each fun _ _ hs1 => hs1.stopFrame.withdraw.modPart

theorem State.Keeps.emergency {s₀ s : State} (hs : s₀.Keeps s) {src : BitVec 24} : s₀.Keeps (s.emergency src) := by
  unfold State.emergency
  split
  · exact hs.send
  · exact hs

theorem State.Keeps.soon {s₀ s : State} (hs : s₀.Keeps s) {p : PartId} : s₀.Keeps (s.soon p) := by
  unfold State.soon
  exact hs.of_eq

theorem State.Keeps.keepHard {s₀ s : State} (hs : s₀.Keeps s) {old : State} {a n : Nat} : s₀.Keeps
    (s.keepHard old a n) := by
  unfold State.keepHard
  exact hs.foldl fun _ _ hs1 => hs1.hbmWrite

theorem State.Keeps.copyRing {s₀ s : State} (hs : s₀.Keeps s) {p : PartId} {n dst : Nat} : s₀.Keeps
    (s.copyRing p n dst) := by
  unfold State.copyRing
  exact hs.setHbm (fun hm => Mem.wf_copy _ _ _ _ (Mem.wf_copy _ _ _ _ hm))

theorem State.Keeps.putDump {s₀ s : State} (hs : s₀.Keeps s) {cls parts : BitVec 8} {src : BitVec 24}
    {detail : BitVec 8} {flashOnly : Bool} : s₀.Keeps (s.putDump cls parts src detail flashOnly) := by
  unfold State.putDump
  extract_lets words regs tiles rings n1 n2 n3 sizes n4 total sects d head old s1 s2 s3 s4 s5 s6
  have hs1 : s₀.Keeps s1 := hs.setHbm (Mem.wf_clear _ _)
  have hs2 : s₀.Keeps s2 := hs1.hbmWrite.hbmWrite.hbmWrite
  have hs3 : s₀.Keeps s3 := hs2.each fun _ _ h => h.setHbm (Mem.wf_copy _ _ _ _)
  have hs4 : s₀.Keeps s4 := by
    unfold s4
    split
    · exact hs
    · exact (hs3.each fun _ _ h => h.copyRing).keepHard
  have hs6 : s₀.Keeps s6 := hs4.of_eq
  exact hs6.each fun _ _ h => h.modPart

theorem State.Keeps.writeDump {s₀ s : State} (hs : s₀.Keeps s) {cls parts : BitVec 8} {src : BitVec 24}
    {detail : BitVec 8} {flashOnly : Bool} : s₀.Keeps (s.writeDump cls parts src detail flashOnly) := by
  unfold State.writeDump
  split
  · exact hs.putDump
  · split
    · exact hs.putDump
    · extract_lets d d1 flags old fields head s1 s'
      have hs' : s₀.Keeps s' := hs.of_eq
      split
      · exact hs'
      · exact hs'.hbmWrite.keepHard

theorem State.Keeps.portDown {s₀ s : State} (hs : s₀.Keeps s) {p : PortId} : s₀.Keeps (s.portDown p) := by
  unfold State.portDown
  extract_lets left s1
  have hs1 : s₀.Keeps s1 := hs.of_eq.modPort
  refine hs1.each fun s2 x hs2 => ?_
  split
  · extract_lets q way
    split
    · exact hs2.handOver
    · exact hs2.modEngine
  · exact hs2.modEngine

theorem State.Keeps.toBypass {s₀ s : State} (hs : s₀.Keeps s) {e : EngineId} {cause : BitVec 8} : s₀.Keeps
    (s.toBypass e cause) := by
  unfold State.toBypass
  split
  · exact hs
  · extract_lets s1
    have hs1 : s₀.Keeps s1 := hs.modEngine
    exact hs1.each fun _ _ hs2 => hs2.portDown

theorem State.Keeps.engineDark {s₀ s : State} (hs : s₀.Keeps s) {e : EngineId} : s₀.Keeps (s.engineDark e) := by
  unfold State.engineDark
  extract_lets s1
  have hs1 : s₀.Keeps s1 := hs.toBypass.modEngine
  exact hs1.each fun _ _ hs2 => hs2.portDown

theorem State.Keeps.setDom {s₀ s : State} (hs : s₀.Keeps s) {n : Nat} {v : DomSt} : s₀.Keeps (s.setDom n v) := by
  unfold State.setDom
  exact hs.of_eq

theorem State.Keeps.opticsOff {s₀ s : State} (hs : s₀.Keeps s) : s₀.Keeps s.opticsOff := by
  unfold State.opticsOff
  extract_lets s1
  have hs1 : s₀.Keeps s1 := hs.each fun _ _ hs2 => hs2.engineDark
  exact hs1.setDom.setDom.setDom.setDom

theorem State.Keeps.devFatalNow {s₀ s : State} (hs : s₀.Keeps s) {detail : BitVec 8} {src : BitVec 24} : s₀.Keeps
    (s.devFatalNow detail src) := by
  unfold State.devFatalNow
  extract_lets s1 s2 s3 s4 parts s5 s6
  have hs4 : s₀.Keeps s4 := hs.haltAll.raise.of_eq
  have hs6 : s₀.Keeps s6 := hs4.writeDump.emergency.opticsOff
  exact hs6.of_eq

theorem State.Keeps.devFatal {s₀ s : State} (hs : s₀.Keeps s) {detail : BitVec 8} {src : BitVec 24} : s₀.Keeps
    (s.devFatal detail src) := by
  unfold State.devFatal
  split
  · exact hs.of_eq
  · exact hs.devFatalNow

theorem State.Keeps.restoreAccess {s₀ s : State} (hs : s₀.Keeps s) {a : Nat} : s₀.Keeps (s.restoreAccess a).1 := by
  unfold State.restoreAccess
  extract_lets zero
  have hZero : s₀.Keeps zero := hs.setHbm (Mem.wf_clear _ _)
  split
  · exact hZero
  · extract_lets addr
    split
    · split
      · exact hZero
      · split
        · exact hs
        · exact hZero.hbmWrite
    · exact hZero

theorem State.Keeps.dropModelKey {s₀ s : State} (hs : s₀.Keeps s) {p : PartId} : s₀.Keeps (s.dropModelKey p) := by
  unfold State.dropModelKey
  exact hs.of_eq

theorem State.Keeps.abandon {s₀ s : State} (hs : s₀.Keeps s) {p : PartId} : s₀.Keeps (s.abandon p) := by
  unfold State.abandon
  exact hs.dropModelKey.modPart

theorem State.Keeps.abandonAll {s₀ s : State} (hs : s₀.Keeps s) {p : PartId} : s₀.Keeps (s.abandonAll p) := by
  unfold State.abandonAll
  extract_lets s1
  have hs1 : s₀.Keeps s1 := hs.abandon
  split
  · exact hs1
  · exact hs1.modPart.modPart

theorem State.Keeps.leaveStop {s₀ s : State} (hs : s₀.Keeps s) {p : PartId} : s₀.Keeps (s.leaveStop p) := by
  unfold State.leaveStop
  extract_lets s1 parts s2
  have hs1 : s₀.Keeps s1 := hs.modPart
  split
  · exact hs1.of_eq
  · exact hs1.of_eq

theorem State.Keeps.clearHandles {s₀ s : State} (hs : s₀.Keeps s) {t : TileId} : s₀.Keeps (s.clearHandles t) := by
  unfold State.clearHandles
  extract_lets s1 table shut
  have hs1 : s₀.Keeps s1 := hs.each fun _ _ hs2 => hs2.advance
  exact hs1.modTile_same

theorem Tile.SpOk.spZero {tl : Tile} (hs : tl.SpOk) {a n : Nat} : (tl.spZero a n).SpOk := by
  exact Mem.wf_filter hs _

theorem State.Keeps.wipeSealed {s₀ s : State} (hs : s₀.Keeps s) {t : TileId} : s₀.Keeps (s.wipeSealed t) := by
  unfold State.wipeSealed
  exact (hs.modTile fun hTl => hTl.landAll).each fun _ _ h => h.modTile fun hTl => hTl.spZero

theorem State.Keeps.unloadTile {s₀ s : State} (hs : s₀.Keeps s) {t : TileId} : s₀.Keeps (s.unloadTile t) := by
  unfold State.unloadTile
  extract_lets s1 s2
  have hs1 : s₀.Keeps s1 := hs.wipeSealed.clearHandles
  have hs2 : s₀.Keeps s2 := by
    unfold s2
    refine hs1.modTile fun hTl => ?_
    extract_lets tl tl1
    have htl : tl.SpOk := hTl.clear
    exact htl.of_eq
  exact hs2.freeDma

theorem State.Keeps.unload {s₀ s : State} (hs : s₀.Keeps s) {p : PartId} : s₀.Keeps (s.unload p) := by
  unfold State.unload
  extract_lets s1 own served idle s2
  have hs1 : s₀.Keeps s1 := hs.each fun _ _ hs3 => hs3.unloadTile
  have hs2 : s₀.Keeps s2 := hs1.of_eq
  exact hs2.modPart

theorem Tile.SpOk.fresh {tl : Tile} (_hs : tl.SpOk) {seed : Nat} : (tl.fresh seed).SpOk := by
  exact Mem.wf_nil

theorem Tile.SpOk.partFresh {tl : Tile} (hs : tl.SpOk) {seed now : Nat} : (tl.partFresh seed now).SpOk := by
  unfold Tile.partFresh
  extract_lets closing tl1 tl2
  have htl1 : tl1.SpOk := hs.landAll
  have htl2 : tl2.SpOk := htl1.fresh
  exact htl1.of_eq

theorem State.Keeps.modBand {s₀ s : State} (hs : s₀.Keeps s) {b : BandId} {f : Band → Band} : s₀.Keeps
    (s.modBand b f) := by
  unfold State.modBand
  exact hs.of_eq

theorem State.Keeps.owePages {s₀ s : State} (hs : s₀.Keeps s) {b : BandId} {all : Bool} : s₀.Keeps
    (s.owePages b all) := by
  unfold State.owePages
  refine hs.each fun s1 x hs1 => ?_
  extract_lets own
  exact hs1.modPart

theorem Tile.SpOk.retained {tl : Tile} (hs : tl.SpOk) : tl.retained.SpOk := by
  unfold Tile.retained
  extract_lets tl1 seq free
  have htl1 : tl1.SpOk := hs.clear
  exact htl1.of_eq

theorem State.Keeps.bandRet {s₀ s : State} (hs : s₀.Keeps s) {b : BandId} : s₀.Keeps (s.bandRet b) := by
  unfold State.bandRet
  extract_lets s1 s2 s3
  have hs1 : s₀.Keeps s1 := hs.owePages
  have hs2 : s₀.Keeps s2 := hs1.each fun _ _ hs4 => hs4.modTile fun hTl => hTl.retained
  have hs3 : s₀.Keeps s3 := hs2.each fun _ _ hs4 => hs4.modCluster
  exact hs3.setDom.modBand

theorem Tile.SpOk.dark {tl : Tile} (_hs : tl.SpOk) : tl.dark.SpOk := by
  exact Mem.wf_nil

theorem State.Keeps.bandOff {s₀ s : State} (hs : s₀.Keeps s) {b : BandId} : s₀.Keeps (s.bandOff b) := by
  unfold State.bandOff
  extract_lets s1 s2 s3
  have hs1 : s₀.Keeps s1 := hs.owePages
  have hs2 : s₀.Keeps s2 := hs1.each fun _ _ hs4 => hs4.modTile fun hTl => hTl.dark
  have hs3 : s₀.Keeps s3 := hs2.each fun _ _ hs4 => hs4.modCluster
  exact hs3.setDom.modBand

theorem State.Keeps.bandDown {s₀ s : State} (hs : s₀.Keeps s) {b : BandId} : s₀.Keeps (s.bandDown b) := by
  unfold State.bandDown
  split
  · exact hs.bandRet
  · exact hs.bandOff

theorem State.Keeps.bandOrder {s₀ s : State} (hs : s₀.Keeps s) {b : BandId} {toRet : Bool} : s₀.Keeps
    (s.bandOrder b toRet) := by
  unfold State.bandOrder
  split
  · extract_lets s1 s2
    have hs1 : s₀.Keeps s1 := hs.modBand
    have hs2 : s₀.Keeps s2 := hs1.setDom.modBand
    split
    · split
      · exact hs2.bandDown
      · exact hs2
    · exact hs1
  · split
    · exact hs.bandDown
    · exact hs

theorem State.Keeps.startOrders {s₀ s : State} (hs : s₀.Keeps s) {p : PartId} : s₀.Keeps (s.startOrders p) := by
  unfold State.startOrders
  refine hs.each fun s1 x hs1 => ?_
  split
  · exact hs1.bandOrder
  · exact hs1

theorem State.Keeps.restartBands {s₀ s : State} (hs : s₀.Keeps s) {p : PartId} : s₀.Keeps (s.restartBands p) := by
  unfold State.restartBands
  refine hs.each fun s1 x hs1 => ?_
  split
  · exact hs1.drawn.each fun _ _ hs2 => hs2.modTile fun hTl => hTl.fresh
  · exact hs1

theorem State.Keeps.partReset {s₀ s : State} (hs : s₀.Keeps s) {p : PartId} : s₀.Keeps (s.partReset p) := by
  unfold State.partReset
  extract_lets s1 s2 s3 s4
  have hs1 : s₀.Keeps s1 := hs.withdraw.stopFrame.abandonAll
  have hs2 : s₀.Keeps s2 := hs1.unload.modPart.leaveStop.drawn
  have hs3 : s₀.Keeps s3 := by
    unfold s3
    refine hs2.each fun s5 x hs5 => ?_
    refine .freeDma ?_
    exact hs5.modTile fun hTl => hTl.partFresh
  have hs4 : s₀.Keeps s4 := hs3.restartBands.startOrders
  exact hs4.modPart

theorem State.Keeps.partFatalNow {s₀ s : State} (hs : s₀.Keeps s) {p : PartId} {detail : BitVec 8} {src : BitVec 24}
    : s₀.Keeps (s.partFatalNow p detail src) := by
  unfold State.partFatalNow
  extract_lets s1 s2 s3 s4
  have hs1 : s₀.Keeps s1 := hs.stopFrame
  have hs2 : s₀.Keeps s2 := hs1.withdraw.modPart
  have hs3 : s₀.Keeps s3 := hs2.raise
  have hs4 : s₀.Keeps s4 := hs3.writeDump.emergency
  exact hs4.partReset

theorem State.Keeps.partFatal {s₀ s : State} (hs : s₀.Keeps s) {p : PartId} {detail : BitVec 8} {src : BitVec 24}
    : s₀.Keeps (s.partFatal p detail src) := by
  unfold State.partFatal
  split
  · extract_lets s1 s2
    have hs1 : s₀.Keeps s1 := hs.markFrame
    exact hs1.of_eq
  · exact hs.partFatalNow

theorem State.Keeps.repairRow {s₀ s : State} (hs : s₀.Keeps s) {accs : List Nat} {src : BitVec 24} : s₀.Keeps
    (s.repairRow accs src) := by
  unfold State.repairRow
  extract_lets s1 s2
  have hs1 : s₀.Keeps s1 := hs.of_eq
  have hs2 : s₀.Keeps s2 := hs1.raise
  refine hs2.foldl fun s3 x hs3 => ?_
  split
  · rename_i s11 _ hp
    have hs11 : s₀.Keeps s11 := hs3.restoreAccess.of_pair hp
    split
    · split
      · split
        · exact hs11.partFatal
        · exact hs11
      · exact hs11
    · exact hs11

theorem State.Keeps.finishRaise {s₀ s : State} (hs : s₀.Keeps s) : s₀.Keeps s.finishRaise := by
  unfold State.finishRaise
  split
  · exact hs.of_eq
  · exact hs

theorem State.Keeps.tryReady {s₀ s : State} (hs : s₀.Keeps s) {p : PartId} : s₀.Keeps (s.tryReady p) := by
  unfold State.tryReady
  split
  · exact hs.finishRaise.modPart
  · exact hs

theorem State.Keeps.askReadmit {s₀ s : State} (hs : s₀.Keeps s) {p : PartId} : s₀.Keeps (s.askReadmit p) := by
  unfold State.askReadmit
  exact hs.modPart

theorem State.Keeps.restoreFails {s₀ s : State} (hs : s₀.Keeps s) {p : PartId} {t : TileId} {all : Bool} : s₀.Keeps
    (s.restoreFails p t all) := by
  unfold State.restoreFails
  extract_lets again s1
  have hs1 : s₀.Keeps s1 := hs.modPart
  split
  · exact hs1.partFatal
  · exact hs1

theorem State.Keeps.fillTables {s₀ s : State} (hs : s₀.Keeps s) {p : PartId} {t : TileId} {all : List Sect}
    {plain : Plain} : s₀.Keeps (s.fillTables p t all plain) := by
  unfold State.fillTables
  extract_lets open_ s1
  have hs1 : s₀.Keeps s1 := by
    unfold s1
    refine hs.each fun s2 x hs2 => ?_
    extract_lets l
    exact hs2.modTile fun hTl => hTl.spWrite
  split
  · exact hs1
  · extract_lets l table
    exact hs1.modTile_same

theorem State.Keeps.fillPages {s₀ s : State} (hs : s₀.Keeps s) {p : PartId} {t : TileId} {all : List Sect}
    {cls : Nat} : s₀.Keeps (s.fillPages p t all cls) := by
  unfold State.fillPages
  split
  · extract_lets uops reg
    exact hs.modTile_same
  · exact hs

theorem Tile.SpOk.fromIndexZero {tl : Tile} (hs : tl.SpOk) : tl.fromIndexZero.SpOk := by
  unfold Tile.fromIndexZero
  split
  · exact hs.modSeq
  · exact hs

theorem State.Keeps.fillStream {s₀ s : State} (hs : s₀.Keeps s) {p : PartId} {t : TileId} {all : List Sect}
    {cls : Nat} : s₀.Keeps (s.fillStream p t all cls) := by
  unfold State.fillStream
  exact hs.fillPages.modTile fun hTl => hTl.fromIndexZero

theorem State.Keeps.fillSealed {s₀ s : State} (hs : s₀.Keeps s) {p : PartId} {t : TileId} {all : List Sect}
    {plain : Plain} : s₀.Keeps (s.fillSealed p t all plain) := by
  unfold State.fillSealed
  refine hs.each fun s1 x hs1 => ?_
  extract_lets l
  exact hs1.modTile fun hTl => hTl.spWrite

theorem Tile.SpOk.fillSets {fuel m : Nat} {l : List Byte} {tl : Tile} (hs : tl.SpOk) :
    (Machine.fillSets fuel m l tl).SpOk := by
  induction fuel generalizing m l tl with
  | zero => exact hs
  | succ fuel ih =>
    unfold Machine.fillSets
    split
    · exact hs
    · extract_lets b
      split
      refine ih ?_
      split
      · split
        · exact hs.modMac
        · exact hs
      · exact hs

theorem State.Keeps.fillLists {s₀ s : State} (hs : s₀.Keeps s) {p : PartId} {im : Image} {plain : Plain}
    {t : TileId} : s₀.Keeps (s.fillLists p im plain t) := by
  unfold State.fillLists
  extract_lets lists
  refine hs.each fun s1 x hs1 => ?_
  extract_lets l
  exact hs1.modTile fun hTl => hTl.fillSets

theorem State.Keeps.programBank {s₀ s : State} (hs : s₀.Keeps s) {t : TileId} {m : Nat} {phys : BitVec 1}
    {groups : BitVec 4} {pm1 : BitVec 3} {wsgn : BitVec 1} {layer : BitVec 16}
    {row : Nat → Option (List Byte × Bool)} {upd : Bank → Bank} : s₀.Keeps
    (s.programBank t m phys groups pm1 wsgn layer row upd) := by
  unfold State.programBank
  extract_lets mc
  split
  · extract_lets s1
    have hs1 : s₀.Keeps s1 := hs.modTile_same
    refine hs1.each fun s2 x hs2 => ?_
    extract_lets s3
    have hs3 : s₀.Keeps s3 := hs2.modTile_same
    exact hs3.raise

theorem State.Keeps.programFrom {s₀ s : State} (hs : s₀.Keeps s) {p : PartId} {t : TileId} {m : Nat}
    {phys : BitVec 1} {srcs : Store RecSrc} : s₀.Keeps (s.programFrom p t m phys srcs) := by
  unfold State.programFrom
  split
  · exact hs
  · extract_lets groups
    exact hs.programBank

theorem State.Keeps.fillBlocks {s₀ s : State} (hs : s₀.Keeps s) {p : PartId} {t : TileId} {home : Nat × Bool}
    {bs : List Block} {plain : Option (List Byte)} {only : Nat → Bool} : s₀.Keeps
    (s.fillBlocks p t home bs plain only) := by
  unfold State.fillBlocks
  refine hs.each fun s1 x hs1 => ?_
  refine hs1.each fun s2 x1 hs2 => ?_
  extract_lets srcs phys
  split
  · exact hs2.programFrom
  · extract_lets row
    exact hs2.programBank

theorem State.Keeps.fillResident {s₀ s : State} (hs : s₀.Keeps s) {p : PartId} {im : Image} {plain : Plain}
    {t : TileId} {only : Nat → Bool} : s₀.Keeps (s.fillResident p im plain t only) := by
  unfold State.fillResident
  extract_lets all weights
  refine hs.each fun s1 x hs1 => ?_
  extract_lets l
  exact hs1.fillBlocks

theorem State.Keeps.fillTile {s₀ s : State} (hs : s₀.Keeps s) {p : PartId} {im : Image} {plain : Plain} {cls : Nat}
    {t : TileId} : s₀.Keeps (s.fillTile p im plain cls t) := by
  unfold State.fillTile
  extract_lets all s1 s2
  have hs1 : s₀.Keeps s1 := hs.fillSealed.fillStream.fillTables
  have hs2 : s₀.Keeps s2 := hs1.fillResident.fillLists
  exact hs2.modTile_same

theorem State.Keeps.addRepair {s₀ s : State} (hs : s₀.Keeps s) {p : PartId} {x : RepairDue} : s₀.Keeps
    (s.addRepair p x) := by
  unfold State.addRepair
  exact hs.modPart

theorem State.Keeps.restored {s₀ s : State} (hs : s₀.Keeps s) {p : PartId} {t : TileId} : s₀.Keeps (s.restored p t)
    := by
  unfold State.restored
  exact hs.modPart

theorem State.Keeps.restoreTile {s₀ s : State} (hs : s₀.Keeps s) {p : PartId} {t : TileId} : s₀.Keeps
    (s.restoreTile p t) := by
  unfold State.restoreTile
  split
  · exact hs
  · split
    · exact hs.askReadmit
    · split
      · exact hs.restoreFails
      · extract_lets s1 s2 s3
        have hs1 : s₀.Keeps s1 := hs.fillTile
        have hs2 : s₀.Keeps s2 := hs1.each fun _ _ hs4 => hs4.advance
        have hs3 : s₀.Keeps s3 := hs2.each fun _ _ hs4 => hs4.addRepair
        exact hs3.restored

theorem State.Keeps.reloadPages {s₀ s : State} (hs : s₀.Keeps s) {p : PartId} {t : TileId} : s₀.Keeps
    (s.reloadPages p t) := by
  unfold State.reloadPages
  split
  · exact hs
  · split
    · exact hs.restoreFails
    · exact hs.fillPages.restored

theorem State.Keeps.retryRestores {s₀ s : State} (hs : s₀.Keeps s) : s₀.Keeps s.retryRestores := by
  unfold State.retryRestores
  refine hs.each fun s1 x hs1 => ?_
  extract_lets pt ts
  split
  · exact hs1
  · refine .tryReady ?_
    refine hs1.each fun s2 x1 hs2 => ?_
    split
    · exact hs2.restoreTile
    · exact hs2.reloadPages

theorem State.Keeps.execHbmHardErrorRepair {s₀ s : State} (hs : s₀.Keeps s) {a : HbmAddr} {rereads : List Bool}
    {spareRow : Bool} {rowBytes : List HbmAddr} (ha : hbmExists a = true) : s₀.Completes
    (Machine.execHbmHardErrorRepair a rereads spareRow rowBytes s) := by
  unfold Machine.execHbmHardErrorRepair
  rw [if_pos ha]
  refine .next ?_
  extract_lets acc sl src good s1 s2
  have hs1 : s₀.Keeps s1 := by
    unfold s1
    split
    · exact hs.of_eq
    · split
      · exact hs.devFatal
      · split
        · exact hs.repairRow
        · split
          · split
            · exact hs.partFatal
            · exact hs
          · exact hs.of_eq
  have hs2 : s₀.Keeps s2 := hs1.retryRestores
  split
  · exact hs
  · split
    · exact hs2.tryReady
    · exact hs2

theorem State.Keeps.execVerifyStart {s₀ s : State} (hs : s₀.Keeps s) {t : TileId} {w : Word} : s₀.Completes
    (Machine.execVerifyStart t w s) := by
  unfold Machine.execVerifyStart
  exact hs.modTile_same.next

theorem State.Keeps.execVerifyRun {s₀ s : State} (hs : s₀.Keeps s) {t : TileId} : s₀.Completes (Machine.execVerifyRun t s)
    := by
  unfold Machine.execVerifyRun
  refine .next ?_
  extract_lets v quiet s1
  have hs1 : s₀.Keeps s1 := hs.modTile_same
  split
  · split
    · split
      · exact hs1.tryReady
      · exact hs1
    · exact hs.modTile_same
  · exact hs

theorem State.Keeps.shadowFinding {s₀ s : State} (hs : s₀.Keeps s) {t : TileId} {m : Nat} {phys : BitVec 1}
    {cols : List Nat} : s₀.Keeps (s.shadowFinding t m phys cols) := by
  unfold State.shadowFinding
  split
  · exact hs
  · extract_lets add
    exact hs.modPart

theorem State.Keeps.endVerify {s₀ s : State} (hs : s₀.Keeps s) {t : TileId} {v : Verify} {f : Findings} : s₀.Keeps
    (s.endVerify t v f) := by
  unfold State.endVerify
  extract_lets m mc phys parRows found v1 s1 owner s2 s3 cols blind s4
  have hs1 : s₀.Keeps s1 := hs.modTile_same
  have hs2 : s₀.Keeps s2 := by
    unfold s2
    split
    · exact hs1
    · extract_lets s5
      have hs5 : s₀.Keeps s5 := hs1.modTile_same
      exact hs5.raise
  have hs3 : s₀.Keeps s3 := by
    unfold s3
    split
    · exact hs2.raise
    · exact hs2
  have hs4 : s₀.Keeps s4 := hs2.shadowFinding
  split
  · split
    · exact hs2
    · clear_value owner
      split
      · exact hs3.addRepair
      · exact hs3
  · split
    · exact hs4
    · exact hs4.modTile_same

theorem State.Keeps.execVerifyEnd {s₀ s : State} (hs : s₀.Keeps s) {t : TileId}
    {parityRows diffCols : List (Nat × Nat)} : s₀.Completes (Machine.execVerifyEnd t parityRows diffCols s) := by
  unfold Machine.execVerifyEnd
  refine .next ?_
  extract_lets v mc b s1
  have hs1 : s₀.Keeps s1 := hs.endVerify
  split
  · split
    · exact hs1.tryReady.startOrders
    · exact hs1
  · exact hs

theorem State.Keeps.verifyActive {s₀ s : State} (hs : s₀.Keeps s) {p : PartId} {t : TileId} {m : Nat} : s₀.Keeps
    (s.verifyActive p t m) := by
  unfold State.verifyActive
  extract_lets b s1 v0 v v1
  exact hs.endVerify

theorem State.Keeps.execPeriodicVerify {s₀ s : State} (hs : s₀.Keeps s) {p : PartId} : s₀.Completes
    (Machine.execPeriodicVerify p s) := by
  unfold Machine.execPeriodicVerify
  refine .next ?_
  extract_lets pt due ts last s1
  have hs1 : s₀.Keeps s1 := hs.modPart
  split
  · split
    · exact hs.modPart
    · split
      · exact hs
      · split
        · exact hs
        · extract_lets macs
          refine .tryReady ?_
          exact hs1.each fun _ _ hs2 => hs2.verifyActive
  · exact hs

theorem State.Keeps.rewriteBank {s₀ s : State} (hs : s₀.Keeps s) {p : PartId} {t : TileId} {m : Nat}
    {phys : BitVec 1} : s₀.Keeps (s.rewriteBank p t m phys) := by
  unfold State.rewriteBank
  exact hs.programFrom

theorem State.Keeps.writeBank {s₀ s : State} (hs : s₀.Keeps s) {p : PartId} {t : TileId} {m : Nat} {phys : BitVec 1}
    : s₀.Keeps (s.writeBank p t m phys) := by
  unfold State.writeBank
  split
  · exact hs.modTile_same.askReadmit
  · exact hs.rewriteBank

theorem State.Keeps.reprogram {s₀ s : State} (hs : s₀.Keeps s) {p : PartId} {t : TileId} {m : Nat}
    {banks : List (BitVec 1)} : s₀.Keeps (s.reprogram p t m banks) := by
  unfold State.reprogram
  refine hs.each fun s1 x hs1 => ?_
  extract_lets s2
  have hs2 : s₀.Keeps s2 := hs1.writeBank
  split
  · exact hs2
  · exact hs2.addRepair

theorem State.Keeps.repairEvent {s₀ s : State} (hs : s₀.Keeps s) {t : TileId} {unit : Nat} : s₀.Keeps
    (s.repairEvent t unit) := by
  unfold State.repairEvent
  exact hs.raise

theorem Tile.SpOk.shiftMacros {tl : Tile} (hs : tl.SpOk) {m : Nat} : (tl.shiftMacros m).SpOk := by
  unfold Tile.shiftMacros
  extract_lets old
  have hold : old.SpOk := hs
  refine hs.foldl fun tl1 x htl1 => ?_
  split
  · exact htl1
  · extract_lets next
    exact htl1.modMac

theorem Tile.SpOk.takeSteering {tl : Tile} (hs : tl.SpOk) {from_ : Tile} : (tl.takeSteering from_).SpOk := by
  unfold Tile.takeSteering
  split
  · exact hs
  · exact hs.foldl fun _ _ htl1 => htl1.modMac

theorem State.Keeps.refillTile {s₀ s : State} (hs : s₀.Keeps s) {p : PartId} {t : TileId} : s₀.Keeps
    (s.refillTile p t) := by
  unfold State.refillTile
  split
  · exact hs
  · extract_lets s1 s2 s3
    have hs1 : s₀.Keeps s1 := hs.each fun _ _ h => h.dropWrite
    have hs2 : s₀.Keeps s2 := hs1.unloadTile.modTile fun _ => Mem.wf_nil
    have hs3 : s₀.Keeps s3 := hs2.fillTile
    split
    · exact hs2.askReadmit
    · split
      · exact hs2.restoreFails
      · exact hs3.each fun _ _ h => h.addRepair

theorem State.Keeps.retireTile {s₀ s : State} (hs : s₀.Keeps s) {t : TileId} : s₀.Keeps (s.retireTile t) := by
  unfold State.retireTile
  extract_lets c i ts old s1 s2 s3 key s4 s5
  have hold : s₀.Keeps old := hs
  have hs1 : s₀.Keeps s1 := hs.modCluster
  have hs2 : s₀.Keeps s2 := by
    unfold s2
    refine hs1.each fun s6 x hs6 => ?_
    extract_lets next s7
    refine hs6.modTile fun hTl => ?_
    extract_lets tl
    have htl : tl.SpOk := hTl.takeSteering
    exact htl.of_eq
  have hs3 : s₀.Keeps s3 := hs2.repairEvent
  have hs4 : s₀.Keeps s4 := hs.modCluster
  have hs5 : s₀.Keeps s5 := hs4.repairEvent
  split
  · split
    · extract_lets s6
      have hs6 : s₀.Keeps s6 := hs3.modPart
      exact hs6.each fun _ _ hs7 => hs7.refillTile
    · exact hs3
  · split
    · split
      · exact hs5.unload.partFatal
      · exact hs5
    · exact hs5

theorem State.Keeps.retireMacro {s₀ s : State} (hs : s₀.Keeps s) {t : TileId} {m : Nat} {failed : List (BitVec 1)}
    : s₀.Keeps (s.retireMacro t m failed) := by
  unfold State.retireMacro
  split
  · extract_lets moved lost s1 s2 key
    have hs1 : s₀.Keeps s1 := by
      unfold s1
      refine hs.modTile fun hTl => ?_
      extract_lets tl tl1
      have htl : tl.SpOk := hTl.shiftMacros.modMacs
      exact htl.of_eq
    have hs2 : s₀.Keeps s2 := hs1.repairEvent
    split
    · extract_lets s3 s4
      have hs3 : s₀.Keeps s3 := hs2.modPart
      have hs4 : s₀.Keeps s4 := hs3.each fun _ _ hs5 => hs5.reprogram
      split
      · exact hs4.askReadmit
      · exact hs4
    · exact hs2
  · exact hs.retireTile

theorem State.Keeps.repairMacro {s₀ s : State} (hs : s₀.Keeps s) {p : PartId} {t : TileId} {m : Nat}
    {cols0 cols1 : List Nat} {localised : Bool} : s₀.Keeps (s.repairMacro p t m cols0 cols1 localised) := by
  unfold State.repairMacro
  extract_lets mc both fits steered s1
  have hs1 : s₀.Keeps s1 := hs.modTile_same
  split
  · exact hs1.repairEvent.reprogram
  · exact hs.retireMacro

theorem State.Keeps.repairChecked {s₀ s : State} (hs : s₀.Keeps s) {p : PartId} {t : TileId} {m : Nat}
    {cols0 cols1 : List Nat} {localised : Bool} : s₀.Keeps (s.repairChecked p t m cols0 cols1 localised) := by
  unfold State.repairChecked
  exact hs.modTile_same.repairMacro

theorem State.Keeps.repairPair {s₀ s : State} (hs : s₀.Keeps s) {p : PartId} {t : TileId} {m : Nat} {primary : Bool}
    {other : Nat} {found : Option Bool} {alone : Bool} {cols0 cols1 : List Nat} {localised : Bool} : s₀.Keeps
    (s.repairPair p t m primary other found alone cols0 cols1 localised) := by
  unfold State.repairPair
  extract_lets own tell s1 clear
  have hs1 : s₀.Keeps s1 := hs.modPart
  split
  · exact hs1.repairChecked
  · split
    · refine .repairChecked ?_
      split
      · exact hs1.addRepair
      · exact hs1
    · split
      · exact hs1.repairChecked
      · exact hs1

theorem State.Keeps.writeAgain {s₀ s : State} (hs : s₀.Keeps s) {p : PartId} {t : TileId} {m : Nat}
    {banks : List (BitVec 1)} : s₀.Keeps (s.writeAgain p t m banks) := by
  unfold State.writeAgain
  extract_lets s1 failed
  have hs1 : s₀.Keeps s1 := hs.each fun _ _ hs2 => hs2.writeBank
  split
  · exact hs1
  · exact hs1.retireMacro

theorem State.Keeps.execWeightRepair {s₀ s : State} (hs : s₀.Keeps s) {t : TileId} {m : MacroId}
    {cols0 cols1 : List (BitVec 8)} {localised : Bool} : s₀.Completes (Machine.execWeightRepair t m cols0 cols1 localised s)
    := by
  unfold Machine.execWeightRepair
  refine .next ?_
  split
  · exact hs
  · split
    · exact hs
    · extract_lets mc s1 c0 c1 r0 r1 s2
      have hs1 : s₀.Keeps s1 := hs.modPart
      have hs2 : s₀.Keeps s2 := by
        unfold s2
        split
        · exact hs1.repairChecked
        · exact hs1.repairMacro
        · exact hs1.repairPair
        · split
          · exact hs1.reprogram
          · exact hs1.repairMacro
        · exact hs1.writeAgain
      split
      · exact hs2.tryReady
      · exact hs

theorem State.Keeps.takeModelKey {s₀ s : State} (hs : s₀.Keeps s) {p : PartId} {im : Image} : s₀.Keeps
    (s.takeModelKey p im) := by
  unfold State.takeModelKey
  split
  · exact hs.of_eq
  · exact hs

theorem State.Keeps.enterLoad {s₀ s : State} (hs : s₀.Keeps s) {p : PartId} : s₀.Keeps (s.enterLoad p) := by
  unfold State.enterLoad
  extract_lets pt
  split
  · split
    · exact hs.unload.takeModelKey.modPart
    · exact hs
  · exact hs

theorem State.Keeps.stage8 {s₀ s : State} (hs : s₀.Keeps s) {p : PartId} {im : Image} : s₀.Keeps (s.stage8 p im) := by
  unfold State.stage8
  split
  · exact hs.modPart
  · extract_lets eligible lack tiles trig s1 res status
    split
    · exact hs.modPart.enterLoad
    · exact hs.modPart

theorem State.Keeps.execImageLoad {s₀ s : State} (hs : s₀.Keeps s) {p : PartId} : s₀.Completes (Machine.execImageLoad p s)
    := by
  unfold Machine.execImageLoad
  refine .next ?_
  split
  · split
    · exact hs.modPart
    · split
      · exact hs
      · extract_lets s1 fail
        have hs1 : s₀.Keeps s1 := hs.finishRaise.modPart
        have hfail : ∀ (r : AdmResult), s₀.Keeps (fail r) := fun r => hs1.modPart
        split
        · exact (hfail _)
        · split
          · exact (hfail _)
          · split
            · exact (hfail _)
            · exact hs1.stage8
  · exact hs

theorem State.Keeps.execAdmissionStage8Resume {s₀ s : State} (hs : s₀.Keeps s) {p : PartId} : s₀.Completes
    (Machine.execAdmissionStage8Resume p s) := by
  unfold Machine.execAdmissionStage8Resume
  refine .next ?_
  split
  · split
    · exact hs.stage8
    · exact hs
  · exact hs

theorem State.Keeps.failLoad {s₀ s : State} (hs : s₀.Keeps s) {p : PartId} {r : AdmResult} : s₀.Keeps
    (s.failLoad p r) := by
  unfold State.failLoad
  exact hs.unload.dropModelKey.modPart

theorem State.Keeps.copyImages {s₀ s : State} (hs : s₀.Keeps s) {p : PartId} {im : Image} : s₀.Keeps
    (s.copyImages p im) := by
  unfold State.copyImages
  refine hs.each fun s1 x hs1 => ?_
  split
  · split
    · exact hs1.partWrite
    · exact hs1
  · exact hs1

theorem State.Keeps.settleFill {s₀ s : State} {p : PartId} {im : Image} {plain : Plain} {cls fuel : Nat}
    (hs : s₀.Keeps s) : s₀.Keeps (State.settleFill p im plain cls fuel s).1 := by
  induction fuel generalizing s with
  | zero => exact hs
  | succ fuel ih =>
    dsimp only [State.settleFill]
    split
    · exact hs
    · split
      · exact ih hs.fillResident
      · split
        · exact hs.fillResident.retireMacro
        · refine ih ?_
          split
          · exact hs.fillResident.retireMacro.fillResident
          · exact hs.fillResident.retireMacro.each fun _ _ h => h.fillTile

theorem State.Keeps.fillAll {s₀ s : State} (hs : s₀.Keeps s) {p : PartId} {im : Image} {plain : Plain} {cls : Nat}
    : s₀.Keeps (s.fillAll p im plain cls) := by
  unfold State.fillAll
  exact hs.each fun _ _ hs1 => hs1.fillTile

theorem State.Keeps.recordImage {s₀ s : State} (hs : s₀.Keeps s) {p : PartId} {im : Image} {eligible : BitVec 3}
    {cls : Nat} {residents : List Nat} : s₀.Keeps (s.recordImage p im eligible cls residents) := by
  unfold State.recordImage
  extract_lets s1 raised s2 s3 dict ns s4 div2 div21 s5
  have hs1 : s₀.Keeps s1 := hs.finishRaise
  have hs3 : s₀.Keeps s3 := by
    unfold s3
    split
    · exact hs1.of_eq
    · exact hs1
  have hs4 : s₀.Keeps s4 := hs3.of_eq.drawn.dropModelKey
  exact hs4.modPart

theorem State.Keeps.execAdmissionLoad {s₀ s : State} (hs : s₀.Keeps s) {p : PartId} : s₀.Completes
    (Machine.execAdmissionLoad p s) := by
  unfold Machine.execAdmissionLoad
  refine .next ?_
  refine .startOrders ?_
  extract_lets s1 pt s2
  have hs1 : s₀.Keeps s1 := hs.enterLoad
  split
  · exact hs1
  · split
    · extract_lets im s3 cls
      have hs3 : s₀.Keeps s3 := hs1.copyImages
      split
      · exact hs1.failLoad
      · split
        · exact hs3.failLoad
        · split
          · exact hs3.failLoad
          · extract_lets unserved
            split
            · exact hs3.failLoad
            · split
              · rename_i s11 hp
                have hs11 : s₀.Keeps s11 := hs3.fillAll.settleFill.of_pair hp
                exact hs11.failLoad
              · rename_i s11 hp
                have hs11 : s₀.Keeps s11 := hs3.fillAll.settleFill.of_pair hp
                exact hs11.recordImage.tryReady
    · exact hs1

theorem State.Keeps.execVariantRefill {s₀ s : State} (hs : s₀.Keeps s) {p : PartId} {cls : BitVec 2} : s₀.Completes
    (Machine.execVariantRefill p cls s) := by
  unfold Machine.execVariantRefill
  refine .next ?_
  extract_lets pt s1
  have hs1 : s₀.Keeps s1 := hs.modPart
  split
  · exact hs
  · split
    · extract_lets hard s2
      have hs2 : s₀.Keeps s2 := hs.each fun _ _ hs3 => hs3.fillStream
      split
      · split
        · exact hs1
        · exact hs1.partFatal
      · exact hs2.modPart.tryReady
    · exact hs

theorem State.Keeps.onRecord {s₀ s : State} (hs : s₀.Keeps s) {p : PartId} {magic : Nat} {mine : Bool}
    {serve : State → State} (hserve : ∀ (a : State), s₀.Keeps a → s₀.Keeps (serve a)) : s₀.Keeps
    (s.onRecord p magic mine serve) := by
  unfold State.onRecord
  split
  · extract_lets s1
    have hs1 : s₀.Keeps s1 := hs.modPart
    split
    · exact hs1.modPart
    · exact (hserve _ hs1)
  · exact hs

theorem State.Keeps.endRecord {s₀ s : State} (hs : s₀.Keeps s) {p : PartId} {r : AdmResult} : s₀.Keeps
    (s.endRecord p r) := by
  unfold State.endRecord
  extract_lets ns
  exact hs.drawn.modPart

theorem State.Keeps.enrolNow {s₀ s : State} (hs : s₀.Keeps s) {p : PartId} : s₀.Keeps (s.enrolNow p) := by
  unfold State.enrolNow
  split
  · exact hs
  · extract_lets ns s1 s2
    have hs1 : s₀.Keeps s1 := hs.withdraw.unload.drawn.modPart
    exact hs1.modPart

theorem State.Keeps.execEnrolment {s₀ s : State} (hs : s₀.Keeps s) {p : PartId} : s₀.Completes (Machine.execEnrolment p s)
    := by
  unfold Machine.execEnrolment
  refine .next ?_
  refine .onRecord ?_ ?_
  · exact hs
  · intro a ha
    split
    · exact ha.endRecord
    · extract_lets q due s1
      have hs1 : s₀.Keeps s1 := ha.modPart
      split
      · exact ha.modPart
      · split
        · exact hs1.enrolNow
        · exact hs1

theorem State.Keeps.erase {s₀ s : State} (hs : s₀.Keeps s) : s₀.Keeps s.erase := by
  unfold State.erase
  extract_lets seed tiles s1 island s2 s3 s4
  have hs4 : s₀.Keeps s4 := by
    refine ⟨hs.pending, fun _ => (State.memOk_iff s4).mpr ⟨Mem.wf_nil, fun x hx => ?_⟩⟩
    obtain ⟨y, _, rfl⟩ := List.mem_map.mp hx
    exact Mem.wf_nil
  exact hs4.each fun _ _ h => h.modPart

theorem State.Keeps.cutDump {s₀ s : State} (hs : s₀.Keeps s) : s₀.Keeps s.cutDump := by
  unfold State.cutDump
  split
  · split
    · extract_lets s'
      have hs' : s₀.Keeps s' := hs.of_eq
      exact hs'.hbmWrite.keepHard
    · exact hs
  · exact hs

theorem State.Keeps.putBootedSlot {s₀ s : State} (hs : s₀.Keeps s) {x : FwSlot} : s₀.Keeps (s.putBootedSlot x) := by
  unfold State.putBootedSlot
  exact hs.of_eq

theorem State.Keeps.endTrial {s₀ s : State} (hs : s₀.Keeps s) : s₀.Keeps s.endTrial := by
  unfold State.endTrial
  split
  · exact hs.putBootedSlot
  · exact hs

theorem State.Keeps.devReset {s₀ s : State} (hs : s₀.Keeps s) {cause : BitVec 3} : s₀.Keeps (s.devReset cause) := by
  unfold State.devReset
  extract_lets powerOn s1 old s2 failmap engines clusters thermal island s3 kept parts
  have hs2 : s₀.Keeps s2 := hs.cutDump.endTrial
  have hKept : s₀.Keeps kept := by
    refine ⟨hs2.pending, fun hOk => (State.memOk_iff kept).mpr ⟨?_, fun x hx => ?_⟩⟩
    · unfold kept
      dsimp only
      split
      · exact Mem.wf_nil
      · exact ((State.memOk_iff s2).mp (hs2.memOk hOk)).1
    · obtain ⟨y, _, rfl⟩ := List.mem_map.mp hx
      exact Mem.wf_nil
  exact hKept.of_eq

theorem State.Keeps.endTransition {s₀ s : State} (hs : s₀.Keeps s) : s₀.Keeps s.endTransition := by
  unfold State.endTransition
  extract_lets asker s1 s2
  have hs2 : s₀.Keeps s2 := (hs.erase.of_eq).devReset
  clear_value asker
  split
  · exact hs2.endRecord
  · exact hs2

theorem State.Keeps.beginTransition {s₀ s : State} (hs : s₀.Keeps s) {p : PartId} {target : BitVec 3}
    {keys : BitVec 384 × BitVec 384} : s₀.Keeps (s.beginTransition p target keys) := by
  unfold State.beginTransition
  extract_lets s1 s2 island s3 s4
  have hs4 : s₀.Keeps s4 := hs.of_eq
  refine hs4.each fun s5 x hs5 => ?_
  extract_lets s6 s7
  have hs6 : s₀.Keeps s6 := hs5.withdraw.stopFrame.abandonAll
  have hs7 : s₀.Keeps s7 := hs6.unload.leaveStop
  exact hs7.modPart

theorem State.Keeps.execLifeCycleTransition {s₀ s : State} (hs : s₀.Keeps s) {p : PartId} : s₀.Completes
    (Machine.execLifeCycleTransition p s) := by
  unfold Machine.execLifeCycleTransition
  refine .next ?_
  split
  · exact hs.endTransition
  · refine .onRecord ?_ ?_
    · exact hs
    · intro a ha
      split
      · exact ha.endRecord
      · exact ha.beginTransition

theorem State.Keeps.execDebugUnlock {s₀ s : State} (hs : s₀.Keeps s) {p : PartId} : s₀.Completes
    (Machine.execDebugUnlock p s) := by
  unfold Machine.execDebugUnlock
  refine .next ?_
  refine .onRecord ?_ ?_
  · exact hs
  · intro a ha
    split
    · exact ha.endRecord
    · exact ha.of_eq.endRecord

theorem State.Keeps.deliver {s₀ s : State} (hs : s₀.Keeps s) {p : PartId} {offset : Nat} {data : List Byte}
    : s₀.Keeps (s.deliver p offset data) := by
  unfold State.deliver
  extract_lets s1
  have hs1 : s₀.Keeps s1 := hs.abandon.hbmWrite.keepHard
  exact hs1.modPart

theorem State.Keeps.execAttestationRequest {s₀ s : State} (hs : s₀.Keeps s) {p : PartId} : s₀.Completes
    (Machine.execAttestationRequest p s) := by
  unfold Machine.execAttestationRequest
  refine .next ?_
  refine .onRecord ?_ ?_
  · exact hs
  · intro a ha
    split
    · exact ha.endRecord
    · extract_lets s1 s2 s11
      have hs11 : s₀.Keeps s11 := ha.of_eq
      exact hs11.deliver.endRecord

theorem State.Keeps.execFrameOverrun {s₀ s : State} (hs : s₀.Keeps s) {p : PartId} : s₀.Completes
    (Machine.execFrameOverrun p s) := by
  unfold Machine.execFrameOverrun
  refine .next ?_
  extract_lets pt d s1 late
  have hs1 : s₀.Keeps s1 := hs.reach
  have hlate : ∀ (action : BitVec 2), s₀.Keeps (late action) := fun action => hs1.modPart
  split
  · split
    · exact (hlate _).markFrame
    · split
      · exact (hlate _)
      · exact (hlate _).stopFrame.modPart
      · exact (hlate _).stopFrame
  · exact hs

theorem State.Keeps.eachInGroup {s₀ s : State} (hs : s₀.Keeps s) {m : ArrivalMsg} {msg : Msg}
    {f : State → PartId → State} (hf : ∀ (a : State), s₀.Keeps a → ∀ (a_1 : PartId), s₀.Keeps (f a a_1)) : s₀.Keeps
    (s.eachInGroup m msg f) := by
  unfold State.eachInGroup
  extract_lets ps
  split
  · exact hs.discard
  · refine hs.each fun s1 x hs1 => ?_
    refine .capture ?_ ?_
    · exact hs1
    · exact fun a ha => (hf _ ha _)

theorem State.Keeps.staleArrival {s₀ s : State} (hs : s₀.Keeps s) {p : PartId} {src : BitVec 8} {m : ArrivalMsg}
    : s₀.Keeps (s.staleArrival p src m) := by
  unfold State.staleArrival
  exact hs.discard.raise

theorem State.Keeps.cancelPoint {s₀ s : State} (hs : s₀.Keeps s) {p : PartId} {src : BitVec 8} {m : ArrivalMsg}
    : s₀.Keeps (s.cancelPoint p src m) := by
  unfold State.cancelPoint
  split
  · exact hs.discard
  · split
    · exact hs.staleArrival
    · split
      · exact hs
      · extract_lets s1
        have hs1 : s₀.Keeps s1 := hs.modPart
        split
        · exact hs1.modPart.stopFrame
        · exact hs1

theorem State.Keeps.execCancelArrivalReceive {s₀ s : State} (hs : s₀.Keeps s) {src : BitVec 8} {m : ArrivalMsg}
    : s₀.Completes (Machine.execCancelArrivalReceive src m s) := by
  unfold Machine.execCancelArrivalReceive
  refine .next ?_
  split
  · refine .eachInGroup ?_ ?_
    · exact hs
    · exact fun a ha a1 => ha.cancelPoint
  · exact hs

theorem State.Keeps.arriveDevice {s₀ s : State} (hs : s₀.Keeps s) {p : PartId} {src : BitVec 8} {m : ArrivalMsg}
    : s₀.Keeps (s.arriveDevice p src m) := by
  unfold State.arriveDevice
  split
  · exact hs.discard
  · split
    · exact hs.staleArrival
    · extract_lets x
      split
      · exact hs.raise.markFrame
      · exact hs.modPart

theorem State.Keeps.execDeviceArrivalReceive {s₀ s : State} (hs : s₀.Keeps s) {src : BitVec 8} {m : ArrivalMsg}
    : s₀.Completes (Machine.execDeviceArrivalReceive src m s) := by
  unfold Machine.execDeviceArrivalReceive
  refine .next ?_
  split
  · refine .eachInGroup ?_ ?_
    · exact hs
    · exact fun a ha a1 => ha.arriveDevice
  · exact hs

theorem State.Keeps.execFrameAbortReport {s₀ s : State} (hs : s₀.Keeps s) {p : PartId} {elapsed : BitVec 32}
    : s₀.Completes (Machine.execFrameAbortReport p elapsed s) := by
  unfold Machine.execFrameAbortReport
  refine .next ?_
  extract_lets pt
  split
  · exact hs.stopFrame
  · exact hs

theorem State.Keeps.commitFrame {s₀ s : State} (hs : s₀.Keeps s) {p : PartId} {elapsed : Nat} : s₀.Keeps
    (s.commitFrame p elapsed) := by
  unfold State.commitFrame
  extract_lets s1 status timing
  have hs1 : s₀.Keeps s1 := hs.advanceAll
  exact hs1.modPart

theorem State.Keeps.execFrameCommit {s₀ s : State} (hs : s₀.Keeps s) {p : PartId} {td : Stamp} : s₀.Completes
    (Machine.execFrameCommit p td s) := by
  unfold Machine.execFrameCommit
  refine .next ?_
  extract_lets run
  split
  · exact hs.reach.commitFrame
  · exact hs

theorem State.Keeps.endStop {s₀ s : State} (hs : s₀.Keeps s) {p : PartId} : s₀.Keeps (s.endStop p) := by
  unfold State.endStop
  extract_lets run s1 s2
  have hs1 : s₀.Keeps s1 := hs.markFrame
  have hs2 : s₀.Keeps s2 := by
    unfold s2
    split
    · exact hs1.stopTiles.withhold
    · exact hs
  exact hs2.leaveStop

theorem State.Keeps.putInForce {s₀ s : State} (hs : s₀.Keeps s) {set : List (Nat × Nat)} : s₀.Keeps
    (s.putInForce set) := by
  unfold State.putInForce
  refine hs.foldl fun s1 x hs1 => ?_
  split
  · split
    · extract_lets s2 s3
      have hs2 : s₀.Keeps s2 := hs1.of_eq
      split
      · exact hs2
      · exact hs2.of_eq
    · exact hs1
  · exact hs1

theorem State.Keeps.fixPair {s₀ s : State} (hs : s₀.Keeps s) {p : PartId} : s₀.Keeps (s.fixPair p) := by
  unfold State.fixPair
  extract_lets pt k cur x keep s1
  have hs1 : s₀.Keeps s1 := by
    unfold s1
    split
    · exact hs.restartClocks
    · exact hs
  exact hs1.modPart

theorem State.Keeps.refreshEligible {s₀ s : State} (hs : s₀.Keeps s) {p : PartId} : s₀.Keeps (s.refreshEligible p)
    := by
  unfold State.refreshEligible
  split
  · exact hs
  · exact hs.modPart

theorem State.Keeps.regroupOne {s₀ s : State} (hs : s₀.Keeps s) {g : GroupId} : s₀.Keeps (s.regroupOne g) := by
  unfold State.regroupOne
  extract_lets members leader role x y y1
  split
  · exact hs
  · exact hs.modGroup

theorem State.Keeps.regroup {s₀ s : State} (hs : s₀.Keeps s) : s₀.Keeps s.regroup := by
  unfold State.regroup
  exact hs.each fun _ _ hs1 => hs1.regroupOne

theorem State.Keeps.setD29 {s₀ s : State} (hs : s₀.Keeps s) : s₀.Keeps s.setD29 := by
  unfold State.setD29
  extract_lets want
  exact hs.setDom

theorem State.Keeps.viewEffects {s₀ s : State} (hs : s₀.Keeps s) {p : PartId} {set : List (Nat × Nat)} : s₀.Keeps
    (s.viewEffects p set) := by
  unfold State.viewEffects
  extract_lets s1 s2 s3
  have hs1 : s₀.Keeps s1 := by
    unfold s1
    split
    · exact hs.refreshEligible.fixPair
    · exact hs
  have hs2 : s₀.Keeps s2 := by
    unfold s2
    split
    · exact hs1.regroup
    · exact hs1
  have hs3 : s₀.Keeps s3 := by
    unfold s3
    split
    · exact hs2.setD29
    · exact hs2
  split
  · exact hs3.modPart
  · exact hs3

theorem State.Keeps.applyOne {s₀ s : State} (hs : s₀.Keeps s) {p : PartId} {c : PendCommit} : s₀.Keeps
    (s.applyOne p c) := by
  unfold State.applyOne
  extract_lets s1 s2 frame
  have hs1 : s₀.Keeps s1 := hs.putInForce.modPart
  have hs2 : s₀.Keeps s2 := hs1.viewEffects
  exact hs2.modPart

theorem State.Keeps.applyPending {s₀ s : State} (hs : s₀.Keeps s) {p : PartId} : s₀.Keeps (s.applyPending p) := by
  unfold State.applyPending
  extract_lets q
  exact hs.modPart.each fun _ _ hs1 => hs1.applyOne

theorem State.Keeps.frameSnapshot {s₀ s : State} (hs : s₀.Keeps s) {p : PartId} : s₀.Keeps (s.frameSnapshot p) := by
  unfold State.frameSnapshot
  split
  · exact hs
  · extract_lets snap
    exact hs.modPart

theorem State.Keeps.powerEvent {s₀ s : State} (hs : s₀.Keeps s) {detail : List Byte} : s₀.Keeps
    (s.powerEvent detail) := by
  unfold State.powerEvent
  exact hs.raise

theorem State.Keeps.orderBand {s₀ s : State} (hs : s₀.Keeps s) {b : BandId} {toRet : Bool} : s₀.Keeps
    (s.orderBand b toRet) := by
  unfold State.orderBand
  split
  · exact hs.bandOrder
  · exact hs

theorem State.Keeps.retBands {s₀ s : State} (hs : s₀.Keeps s) {p : PartId} : s₀.Keeps (s.retBands p) := by
  unfold State.retBands
  refine hs.each fun s1 x hs1 => ?_
  split
  · exact hs1.orderBand
  · exact hs1

theorem State.Keeps.leaveHalted {s₀ s : State} (hs : s₀.Keeps s) {p : PartId} : s₀.Keeps (s.leaveHalted p) := by
  unfold State.leaveHalted
  extract_lets s1 capped s2 s3
  have hs1 : s₀.Keeps s1 := by
    unfold s1
    split
    · exact hs.endStop
    · exact hs
  have hs2 : s₀.Keeps s2 := hs1.applyPending.modPart
  have hs3 : s₀.Keeps s3 := hs2.frameSnapshot
  split
  · exact hs3.modPart.retBands.powerEvent
  · exact hs3.tryReady

theorem State.Keeps.dropView {s₀ s : State} (hs : s₀.Keeps s) {p : PartId} {status : BitVec 16} : s₀.Keeps
    (s.dropView p status) := by
  unfold State.dropView
  exact hs.modPart

theorem State.Keeps.carryClocks {s₀ s : State} (hs : s₀.Keeps s) {old : State} : s₀.Keeps (s.carryClocks old) := by
  unfold State.carryClocks
  refine ⟨hs.pending, fun hOk => ?_⟩
  obtain ⟨hHbm, hSp⟩ := (State.memOk_iff s).mp (hs.memOk hOk)
  refine (State.memOk_iff _).mpr ⟨hHbm, fun x hx => ?_⟩
  obtain ⟨y, hy, rfl⟩ := List.mem_map.mp hx
  dsimp only
  split
  · split
    · exact hSp y hy
    · exact hSp y hy
  · exact hSp y hy

theorem State.Keeps.reroute {s₀ s : State} (hs : s₀.Keeps s) : s₀.Keeps s.reroute := by
  unfold State.reroute
  extract_lets start best pick devs
  exact hs.of_eq

theorem State.Keeps.fabricStart {s₀ s : State} (hs : s₀.Keeps s) : s₀.Keeps s.fabricStart := by
  unfold State.fabricStart
  extract_lets s1 s2
  have hs1 : s₀.Keeps s1 := hs.of_eq
  have hs2 : s₀.Keeps s2 := by
    unfold s2
    refine hs1.each fun s3 x hs3 => ?_
    extract_lets v on s4
    have hs4 : s₀.Keeps s4 := hs3.modEngine
    exact hs4.each fun _ _ hs5 => hs5.modPort
  exact hs2.reroute.regroup

theorem State.Keeps.fabricIfReady {s₀ s : State} (hs : s₀.Keeps s) : s₀.Keeps s.fabricIfReady := by
  unfold State.fabricIfReady
  split
  · exact hs.fabricStart
  · exact hs

theorem State.Keeps.coresOn {s₀ s : State} (hs : s₀.Keeps s) : s₀.Keeps s.coresOn := by
  unfold State.coresOn
  refine hs.each fun s1 x hs1 => ?_
  split
  · exact hs1
  · exact hs1.setDom

theorem State.Keeps.over {s₀ s : State} (hs : s₀.Keeps s) {l : List (Nat × Nat)} : s₀.Keeps (s.over l) := by
  unfold State.over
  exact hs.of_eq

theorem State.Keeps.takeLayout {s₀ s : State} (hs : s₀.Keeps s) {p : PartId} : s₀.Keeps (s.takeLayout p) := by
  unfold State.takeLayout
  split
  · exact hs
  · split
    · extract_lets s1
      have hs1 : s₀.Keeps s1 := hs.of_eq.carryClocks
      exact hs1.modPart
    · exact hs

theorem State.Keeps.changeLayout {s₀ s : State} (hs : s₀.Keeps s) {p : PartId} : s₀.Keeps (s.changeLayout p) := by
  unfold State.changeLayout
  extract_lets pt s1 s2 s3 s4
  have hs1 : s₀.Keeps s1 := hs.withdraw.abandon.unload.enrolNow.dropView
  have hs2 : s₀.Keeps s2 := by
    unfold s2
    split
    · exact hs1.leaveStop
    · exact hs1
  have hs3 : s₀.Keeps s3 := hs2.of_eq.carryClocks
  have hs4 : s₀.Keeps s4 := hs3.modPart
  split
  · exact hs
  · refine .fabricIfReady ?_
    refine .regroup ?_
    refine .coresOn ?_
    exact hs4.each fun _ _ hs5 => hs5.takeLayout

theorem State.Keeps.boundaryRepairs {s₀ s : State} (hs : s₀.Keeps s) {p : PartId} : s₀.Keeps (s.boundaryRepairs p)
    := by
  unfold State.boundaryRepairs
  extract_lets gone s1 pages
  have hs1 : s₀.Keeps s1 := hs.modPart.each fun _ _ hs2 => hs2.retireTile
  split
  · exact hs1.each fun _ _ hs2 => hs2.reloadPages
  · exact hs1

theorem State.Keeps.orderClass {s₀ s : State} (hs : s₀.Keeps s) {p : PartId} : s₀.Keeps (s.orderClass p) := by
  unfold State.orderClass
  extract_lets pt
  split
  · exact hs.modPart
  · exact hs

theorem State.Keeps.haltNow {s₀ s : State} (hs : s₀.Keeps s) {p : PartId} : s₀.Keeps (s.haltNow p) := by
  unfold State.haltNow
  extract_lets pt
  split
  · exact hs.modPart.retBands
  · exact hs

theorem State.Keeps.boundary {s₀ s : State} (hs : s₀.Keeps s) {p : PartId} : s₀.Keeps (s.boundary p) := by
  unfold State.boundary
  extract_lets s1 s2 s3 s4
  have hs1 : s₀.Keeps s1 := hs.modPart
  have hs2 : s₀.Keeps s2 := hs1.boundaryRepairs.enrolNow
  have hs3 : s₀.Keeps s3 := by
    unfold s3
    split
    · exact hs2
    · exact hs2.applyPending
  have hs4 : s₀.Keeps s4 := hs3.frameSnapshot.enterLoad.haltNow.orderClass
  exact hs4.tryReady.startOrders

theorem State.Keeps.execFrameBoundary {s₀ s : State} (hs : s₀.Keeps s) {p : PartId} : s₀.Completes
    (Machine.execFrameBoundary p s) := by
  unfold Machine.execFrameBoundary
  refine .next ?_
  extract_lets pt
  split
  · exact hs
  · split
    · split
      · exact hs
      · exact hs.leaveHalted
    · split
      · split
        · exact hs.changeLayout
        · exact hs.boundary
      · exact hs

theorem State.Keeps.reportReady {s₀ s : State} (hs : s₀.Keeps s) {g : GroupId} : s₀.Keeps (s.reportReady g) := by
  unfold State.reportReady
  extract_lets s1
  have hs1 : s₀.Keeps s1 := hs.each fun _ _ hs2 => hs2.tryReady
  split
  · exact hs1.sendReady
  · exact hs1

theorem State.Keeps.execGateReadySend {s₀ s : State} (hs : s₀.Keeps s) {g : GroupId} : s₀.Completes
    (Machine.execGateReadySend g s) := by
  unfold Machine.execGateReadySend
  exact hs.reportReady.next

theorem State.Keeps.execGateReadyRepeat {s₀ s : State} (hs : s₀.Keeps s) {g : GroupId} : s₀.Completes
    (Machine.execGateReadyRepeat g s) := by
  unfold Machine.execGateReadyRepeat
  exact hs.reportReady.next

theorem State.Keeps.execGateReadyReceive {s₀ s : State} (hs : s₀.Keeps s) {src : BitVec 8} {m : ReadyMsg}
    : s₀.Completes (Machine.execGateReadyReceive src m s) := by
  unfold Machine.execGateReadyReceive
  refine .next ?_
  split
  · exact hs.takeReady
  · exact hs

theorem State.Keeps.noteEvent {s₀ s : State} (hs : s₀.Keeps s) {g : GroupId} {t : Stamp} : s₀.Keeps
    (s.noteEvent g t) := by
  unfold State.noteEvent
  exact hs.modGroup

theorem Tile.SpOk.turnCredits {tl : Tile} (hs : tl.SpOk) : tl.turnCredits.SpOk := by
  unfold Tile.turnCredits
  exact hs.of_eq

theorem State.Keeps.firePart {s₀ s : State} (hs : s₀.Keeps s) {p : PartId} {f : BitVec 32} {ts : Stamp}
    {missed : Nat} : s₀.Keeps (s.firePart p f ts missed) := by
  unfold State.firePart
  extract_lets pt s1
  have hs1 : s₀.Keeps s1 := hs.modPart
  split
  · exact hs.modPart
  · split
    · exact hs1.advanceAll.each fun _ _ hs2 => hs2.modTile_same
    · exact hs

theorem State.Keeps.takeFire {s₀ s : State} (hs : s₀.Keeps s) {g : GroupId} {f : BitVec 32} {missed : Nat}
    {ts : Stamp} {late : Bool} : s₀.Keeps (s.takeFire g f missed ts late) := by
  unfold State.takeFire
  extract_lets s1 s2 eng
  have hs1 : s₀.Keeps s1 := hs.modGroup
  have hs2 : s₀.Keeps s2 := hs1.each fun _ _ hs3 => hs3.firePart
  split
  · exact hs2.each fun _ _ hs3 => hs3.raise
  · exact hs2

theorem State.Keeps.fire {s₀ s : State} (hs : s₀.Keeps s) {g : GroupId} {source : BitVec 2} {tf : Stamp} : s₀.Keeps
    (s.fire g source tf) := by
  unfold State.fire
  extract_lets x f lead missed s1 s2
  have hs1 : s₀.Keeps s1 := hs.modGroup
  have hs2 : s₀.Keeps s2 := hs1.each fun _ _ hs3 => hs3.send
  exact hs2.takeFire

theorem State.Keeps.passEvent {s₀ s : State} (hs : s₀.Keeps s) {g : GroupId} : s₀.Keeps (s.passEvent g) := by
  unfold State.passEvent
  split
  · exact hs
  · exact hs.each fun _ _ hs1 => hs1.modPart.tryReady

theorem State.Keeps.execGateSourceEvent {s₀ s : State} (hs : s₀.Keeps s) {g : GroupId} {source : BitVec 2}
    {tf : Stamp} : s₀.Completes (Machine.execGateSourceEvent g source tf s) := by
  unfold Machine.execGateSourceEvent
  refine .next ?_
  split
  · extract_lets s1 s2
    have hs1 : s₀.Keeps s1 := hs.reach.noteEvent
    have hs2 : s₀.Keeps s2 := hs1.passEvent
    split
    · exact hs1.fire
    · split
      · exact hs2.modGroup
      · exact hs2
  · exact hs

theorem State.Keeps.execGateFireReceive {s₀ s : State} (hs : s₀.Keeps s) {src : BitVec 8} {m : FireMsg}
    {trx : Stamp} : s₀.Completes (Machine.execGateFireReceive src m trx s) := by
  unfold Machine.execGateFireReceive
  refine .next ?_
  split
  · extract_lets x s1
    have hs1 : s₀.Keeps s1 := hs.reach.noteEvent
    split
    · split
      · exact hs1.takeFire
    · exact hs.discard
  · exact hs

theorem State.Keeps.execTopologyAnnounce {s₀ s : State} (hs : s₀.Keeps s) : s₀.Completes (Machine.execTopologyAnnounce s)
    := by
  unfold Machine.execTopologyAnnounce
  refine .next ?_
  split
  · extract_lets s1
    have hs1 : s₀.Keeps s1 := hs.of_eq
    refine .regroup ?_
    refine .reroute ?_
    exact hs1.each fun _ _ hs2 => hs2.send
  · exact hs

theorem State.Keeps.takeAnnouncement {s₀ s : State} (hs : s₀.Keeps s) {e : EngineId} {a : Announcement} : s₀.Keeps
    (s.takeAnnouncement e a) := by
  unfold State.takeAnnouncement
  split
  · exact hs
  · extract_lets s1
    have hs1 : s₀.Keeps s1 := hs.of_eq
    refine .regroup ?_
    refine .reroute ?_
    exact hs1.each fun _ _ hs2 => hs2.send

theorem State.Keeps.execTopologyAnnouncementReceive {s₀ s : State} (hs : s₀.Keeps s) {e : EngineId}
    {a : Announcement} : s₀.Completes (Machine.execTopologyAnnouncementReceive e a s) := by
  unfold Machine.execTopologyAnnouncementReceive
  refine .next ?_
  split
  · exact hs.takeAnnouncement
  · exact hs

theorem State.Keeps.stampGot {s₀ s : State} (hs : s₀.Keeps s) {port : PortId} {src : BitVec 8} {m : Msg}
    {trx key : Stamp} : s₀.Keeps (s.stampGot port src m trx key) := by
  unfold State.stampGot
  split
  · exact hs
  · exact hs.each fun _ _ hs1 => hs1.noteFrame

theorem State.Completes.nextOr {s₀ s : State} {o : Host.Outcome State Fault Refusal} (ho : s₀.Completes o)
    : s₀.Keeps (Machine.nextOr s o) := by
  obtain ⟨s', rfl, h⟩ := ho
  exact h

theorem State.Keeps.execAlertMessageReceive {s₀ s : State} (hs : s₀.Keeps s) {group : GroupId} {m : AlertMsg}
    : s₀.Completes (Machine.execAlertMessageReceive group m s) := by
  unfold Machine.execAlertMessageReceive
  refine .next ?_
  split
  · exact hs.each fun _ _ hs1 => hs1.modPart
  · exact hs

theorem State.Keeps.sendStop {s₀ s : State} (hs : s₀.Keeps s) {m : StopMsg} : s₀.Keeps (s.sendStop m) := by
  unfold State.sendStop
  exact hs.each fun _ _ hs1 => hs1.send

theorem State.Keeps.marker {s₀ s : State} (hs : s₀.Keeps s) {p : PartId} {payload : List Byte} : s₀.Keeps
    (s.marker p payload) := by
  unfold State.marker
  exact hs.offer

theorem State.Keeps.writeMarkers {s₀ s : State} (hs : s₀.Keeps s) : s₀.Keeps s.writeMarkers := by
  unfold State.writeMarkers
  extract_lets x bytes
  split
  · exact hs.marker
  · exact hs.each fun _ _ hs1 => hs1.marker

theorem State.Keeps.ignoreStop {s₀ s : State} (hs : s₀.Keeps s) {stopid : BitVec 32} {origin : BitVec 8}
    {trigger : Nat} {originT ownT : Stamp} : s₀.Keeps (s.ignoreStop stopid origin trigger originT ownT) := by
  unfold State.ignoreStop
  exact hs.each fun _ _ hs1 => hs1.marker

theorem State.Keeps.execSlackStopMessageReceive {s₀ s : State} (hs : s₀.Keeps s) {m : StopMsg} {trx : Stamp}
    : s₀.Completes (Machine.execSlackStopMessageReceive m trx s) := by
  unfold Machine.execSlackStopMessageReceive
  refine .next ?_
  split
  · split
    · exact hs.discard
    · extract_lets s1 s2 s3 target s4 s5
      have hs1 : s₀.Keeps s1 := hs.reach
      have hs3 : s₀.Keeps s3 := hs1.of_eq.sendStop
      have hs5 : s₀.Keeps s5 := hs3.of_eq
      split
      · split
        · exact hs5.writeMarkers
        · exact hs5
      · split
        · exact hs3.ignoreStop
        · split
          · exact hs3
          · split
            · exact hs3.marker
            · exact hs3.of_eq
  · exact hs

theorem State.Keeps.execBeaconReceive {s₀ s : State} (hs : s₀.Keeps s) {p : PortId} {b : Beacon} {ts trx : Stamp}
    : s₀.Completes (Machine.execBeaconReceive p b ts trx s) := by
  unfold Machine.execBeaconReceive
  refine .next ?_
  split
  · extract_lets s1 payload
    have hs1 : s₀.Keeps s1 := hs.reach.modPort
    exact hs1.each fun _ _ hs2 => hs2.offer
  · exact hs

theorem State.Keeps.takeBatch {s₀ s : State} (hs : s₀.Keeps s) {dev : BitVec 8} {group : GroupId}
    {batch : List Byte} : s₀.Keeps (s.takeBatch dev group batch) := by
  unfold State.takeBatch
  extract_lets x
  split
  · split
    · exact hs.each fun _ _ hs1 => hs1.offer
    · exact hs.discard
  · exact hs.discard

theorem State.Keeps.deliverFrame {s₀ s : State} (hs : s₀.Keeps s) {p : PortId} {cls ty : Nat} {src : BitVec 8}
    {key trx : Stamp} {l : List Byte} : s₀.Keeps (s.deliverFrame p cls ty src key trx l) := by
  unfold State.deliverFrame
  extract_lets fixed f16 h s1
  have hFixed {n clean m f} (hf : ∀ s, s₀.Keeps s → s₀.Keeps (f s)) : s₀.Keeps (fixed n clean m f) := by
    unfold fixed
    split
    · exact hf _ hs.stampGot
    · exact hs.discard
  clear_value fixed
  split
  · split
    · exact hs.discard
    · exact hs.stampGot.execPutSegmentReceive.nextOr
  · exact hFixed fun _ h => h.execAckReceive.nextOr
  · exact hFixed fun _ h => h.execNackReceive.nextOr
  · refine hFixed fun s h => ?_
    split
    · exact h.execGrantReceive.nextOr
    · exact h.emit
  · exact hFixed fun _ h => h.execReadRequest.nextOr
  · split
    · exact hs.discard
    · exact hs.execReadDataSegmentReceive.nextOr
  · exact hFixed fun _ h => h.execGateReadyReceive.nextOr
  · exact hFixed fun _ h => h.execGateFireReceive.nextOr
  · exact hFixed fun _ h => h.execDeviceArrivalReceive.nextOr
  · exact hFixed fun _ h => h.execCancelArrivalReceive.nextOr
  · exact hs.emit
  · exact hFixed fun _ h => h.each fun _ _ h => h.execAlertMessageReceive.nextOr
  · exact hFixed fun _ h => h.execSlackStopMessageReceive.nextOr
  · exact hFixed fun _ h => h.execBeaconReceive.nextOr
  · exact hs.each fun _ _ h => h.takeBatch
  · exact hs.discard

theorem State.Keeps.emitFrame {s₀ s : State} (hs : s₀.Keeps s) {l : List Byte} {out : PortId} {trx : Stamp}
    {ns : Nat} : s₀.Keeps (s.emitFrame l out trx ns) := by
  unfold State.emitFrame
  extract_lets cls f frame s1
  have hs1 : s₀.Keeps s1 := hs.modPort
  exact hs1.handOver.emit

theorem State.Keeps.forwardFrame {s₀ s : State} (hs : s₀.Keeps s) {l : List Byte} {out : PortId} {trx : Stamp}
    {ns : Nat} : s₀.Keeps (s.forwardFrame l out trx ns) := by
  unfold State.forwardFrame
  extract_lets up lost
  have hlost : s₀.Keeps lost := hs.modEngine
  split
  · exact hs.emitFrame
  · split
    · exact hlost
    · split
      · split
        · exact hs.emitFrame
        · exact hlost
      · exact hlost

theorem State.Keeps.routeFrame {s₀ s : State} (hs : s₀.Keeps s) {p : PortId} {l : List Byte} {trx : Stamp}
    : s₀.Keeps (s.routeFrame p l trx) := by
  unfold State.routeFrame
  extract_lets seg word hops src give bcast miss l1 s1 next
  have hgive : ∀ (s : State), s₀.Keeps s → s₀.Keeps (give s) := fun s2 hs2 => hs2.deliverFrame
  have hmiss : s₀.Keeps miss := hs.modEngine
  have hs1 : s₀.Keeps s1 := by
    unfold s1
    split
    · exact (hgive _ hs)
    · exact hs
  split
  · exact hmiss
  · split
    · exact hs1.forwardFrame
    · split
      · exact hs1.forwardFrame
      · split
        · exact (hgive _ hs)
        · exact hmiss

theorem State.Keeps.execFabricFrameReceive {s₀ s : State} (hs : s₀.Keeps s) {p : PortId} {frame : List Byte}
    {trx : Stamp} : s₀.Completes (Machine.execFabricFrameReceive p frame trx s) := by
  unfold Machine.execFabricFrameReceive
  refine .next ?_
  split
  · extract_lets s1
    have hs1 : s₀.Keeps s1 := hs.reach.modPort
    split
    · exact hs1.modEngine
    · split
      · exact hs1.discard
      · exact hs1.routeFrame
  · exact hs

theorem State.Keeps.modWriter {s₀ s : State} (hs : s₀.Keeps s) {w : Writer} {f : WriterSt → WriterSt} : s₀.Keeps
    (s.modWriter w f) := by
  unfold State.modWriter
  exact hs.of_eq

theorem State.Keeps.noteAbort {s₀ s : State} (hs : s₀.Keeps s) {w : Writer} {x : Abort} : s₀.Keeps (s.noteAbort w x)
    := by
  unfold State.noteAbort
  exact hs.modWriter

theorem State.Keeps.answer {s₀ s : State} (hs : s₀.Keeps s) {w : Writer} {to_ : Dest} {index sub : Nat}
    {r : Except Abort (List Byte)} {snap : BitVec 64} {tick : Bool} : s₀.Keeps
    (s.answer w to_ index sub r snap tick) := by
  unfold State.answer
  extract_lets code reason data s1
  have hs1 : s₀.Keeps s1 := by
    unfold s1
    split
    · exact hs.noteAbort
    · exact hs
  split
  · exact hs1.send
  · exact hs1.send

theorem State.Keeps.clearRc {s₀ s : State} (hs : s₀.Keeps s) {index sub v : Nat} : s₀.Keeps (s.clearRc index sub v)
    := by
  unfold State.clearRc
  split
  · exact hs.modPart
  · exact hs

theorem State.Keeps.readOne {s₀ s : State} (hs : s₀.Keeps s) {w : Writer} {index sub : Nat} : s₀.Keeps
    (s.readOne w index sub).1 := by
  exact hs.clearRc

theorem State.Keeps.readMany {s₀ s : State} (hs : s₀.Keeps s) {w : Writer} {l : List (Nat × Nat)} : s₀.Keeps
    (s.readMany w l).1 := by
  exact State.Keeps.foldl_fst hs fun _ _ h => h.readOne

theorem State.Keeps.noteSnap {s₀ s : State} (hs : s₀.Keeps s) {w : Writer} {a : AreaId} : s₀.Keeps (s.noteSnap w a)
    := by
  unfold State.noteSnap
  exact hs.modWriter

theorem State.Keeps.askRead {s₀ s : State} (hs : s₀.Keeps s) {w : Writer} {to_ : Dest} {i sub : Nat}
    {complete : Bool} : s₀.Keeps (s.askRead w to_ i sub complete) := by
  unfold State.askRead
  extract_lets subs a
  split
  · exact hs.answer
  · split
    · rename_i s1 _ hp
      have hs1 : s₀.Keeps s1 := hs.readMany.of_pair hp
      exact hs1.noteSnap.answer

theorem State.Keeps.modArea {s₀ s : State} (hs : s₀.Keeps s) {a : AreaId} {f : Area → Area} : s₀.Keeps
    (s.modArea a f) := by
  unfold State.modArea
  split
  · exact hs.of_eq
  · exact hs.modPart

theorem State.Keeps.setResult {s₀ s : State} (hs : s₀.Keeps s) {a : AreaId} {w : Writer} {r : CommitRes} : s₀.Keeps
    (s.setResult a w r) := by
  unfold State.setResult
  exact hs.modArea

theorem State.Keeps.submit {s₀ s : State} (hs : s₀.Keeps s) {w : Writer} {a : AreaId} : s₀.Keeps (s.submit w a) := by
  unfold State.submit
  extract_lets ar set part halted rearm seq s1 s2 s3
  have hs1 : s₀.Keeps s1 := hs.modArea
  have hs2 : s₀.Keeps s2 := hs1.setResult
  have hs3 : s₀.Keeps s3 := by
    unfold s3
    split
    · exact hs2.setD29
    · exact hs2
  split
  · exact hs.setResult
  · split
    · exact hs.setResult
    · clear_value part
      split
      · exact hs2
      · split
        · split
          · exact hs3.modPart
          · exact hs3.leaveHalted
        · split
          · exact hs3.applyPending
          · exact hs3

theorem State.Keeps.commAfter {s₀ s : State} (hs : s₀.Keeps s) {index : Nat} {l : List (Nat × List Byte)} : s₀.Keeps
    (s.commAfter index l) := by
  unfold State.commAfter
  exact hs.of_eq

theorem State.Keeps.enter {s₀ s s' : State} {w : Writer} {index : Nat} {l : List (Nat × Nat)} (hs : s₀.Keeps s)
    (h : s.enter w index l = .ok s') : s₀.Keeps s' := by
  unfold State.enter at h
  split at h
  · cases h
    exact hs.of_eq
  · extract_lets a set at h
    split at h
    · cases h
      exact hs.modArea
    · cases h

theorem State.Keeps.write {s₀ s s' : State} {w : Writer} {index : Nat} {l : List (Nat × List Byte)}
    (hs : s₀.Keeps s) (h : s.write w index l = .ok s') : s₀.Keeps s' := by
  unfold State.write at h
  split at h
  · cases h
  · split at h
    · cases h
      exact hs.submit
    · split at h
      · cases h
      · exact hs.enter h

theorem State.Keeps.askWrite {s₀ s : State} (hs : s₀.Keeps s) {w : Writer} {to_ : Dest} {index sub : Nat}
    {complete : Bool} {data : List Byte} : s₀.Keeps (s.askWrite w to_ index sub complete data) := by
  unfold State.askWrite
  split
  · rename_i h
    exact (hs.write h).answer
  · exact hs.answer

theorem State.Keeps.askList {s₀ s : State} (hs : s₀.Keeps s) {p : PartId} {slot : HostSlot} {to_ : Dest}
    {items : List ListItem} : s₀.Keeps (s.askList p slot to_ items) := by
  unfold State.askList
  extract_lets w keys first
  split
  · exact hs.discard
  · split
    · exact hs.answer
    · split
      · rename_i s1 _ hp
        have hs1 : s₀.Keeps s1 := hs.readMany.of_pair hp
        exact hs1.noteSnap.answer

theorem State.Keeps.dictRequest {s₀ s : State} (hs : s₀.Keeps s) {p : PartId} {slot : HostSlot} {to_ : Dest}
    {l : List Byte} : s₀.Keeps (s.dictRequest p slot to_ l) := by
  unfold State.dictRequest
  extract_lets w op complete index sub count n data clean items
  split
  · exact hs.discard
  · split
    · exact hs
    · clear_value op
      split
      · split
        · exact hs.askRead
        · exact hs.discard
      · split
        · exact hs.askWrite
        · exact hs.discard
      · split
        · exact hs.askList
        · exact hs.discard
      · exact hs.discard

theorem State.Keeps.takeDatagram {s₀ s : State} (hs : s₀.Keeps s) {p : PartId} {slot : HostSlot} {seq : BitVec 32}
    {ty : Nat} {l : List Byte} : s₀.Keeps (s.takeDatagram p slot seq ty l) := by
  unfold State.takeDatagram
  extract_lets via
  split
  · split
    · exact hs.discard
    · exact hs.execPutSegmentReceive.nextOr
  · split
    · exact hs.execCreditRequest.nextOr
    · exact hs.discard
  · split
    · exact hs.execReadRequest.nextOr
    · exact hs.discard
  · exact hs.dictRequest
  · exact hs.discard

theorem State.Keeps.execTransportDatagramReceive {s₀ s : State} (hs : s₀.Keeps s) {link : Nat} {addr : BitVec 128}
    {port : BitVec 16} {bytes : List Byte} {u : UdpHead} : s₀.Completes
    (Machine.execTransportDatagramReceive link addr port bytes u s) := by
  unfold Machine.execTransportDatagramReceive
  refine .next ?_
  split
  · extract_lets slot p seq
    split
    · exact hs.discard
    · split
      · exact hs.discard
      · exact hs.takeDatagram
  · exact hs

theorem State.Keeps.opticsEvent {s₀ s : State} (hs : s₀.Keeps s) {e : EngineId} {cls : BitVec 3} : s₀.Keeps
    (s.opticsEvent e cls) := by
  unfold State.opticsEvent
  exact hs.raise

theorem State.Keeps.retrain {s₀ s : State} (hs : s₀.Keeps s) {p : PortId} {stage : BitVec 3} : s₀.Keeps
    (s.retrain p stage) := by
  unfold State.retrain
  extract_lets open_ lost again left s1 s2
  have hs1 : s₀.Keeps s1 := hs.of_eq
  have hs2 : s₀.Keeps s2 := hs1.modPort
  exact hs2.modEngine

theorem State.Keeps.execLaneSwap {s₀ s : State} (hs : s₀.Keeps s) {p : PortId} {lane : Fin 8} : s₀.Completes
    (Machine.execLaneSwap p lane s) := by
  unfold Machine.execLaneSwap
  refine .next ?_
  extract_lets x spare old
  split
  · split
    · exact hs.modPort.opticsEvent
    · exact hs.retrain
  · exact hs

theorem State.Keeps.enableLaser {s₀ s : State} (hs : s₀.Keeps s) {e : EngineId} {i : BitVec 2} : s₀.Keeps
    (s.enableLaser e i) := by
  unfold State.enableLaser
  split
  · exact hs.of_eq
  · exact hs

theorem State.Keeps.execLaserFailover {s₀ s : State} (hs : s₀.Keeps s) {v : EngineAt} : s₀.Completes
    (Machine.execLaserFailover v s) := by
  unfold Machine.execLaserFailover
  extract_lets e x other s1 s2 s3
  have hs1 : s₀.Keeps s1 := hs.modEngine
  have hs2 : s₀.Keeps s2 := hs1.modEngine
  have hs3 : s₀.Keeps s3 := hs2.enableLaser.opticsEvent
  refine .next ?_
  split
  · split
    · refine hs3.each fun s4 x1 hs4 => ?_
      split
      · exact hs4.retrain.modPort
      · split
        · exact hs4.modPort
        · exact hs4
    · exact hs1.modEngine.toBypass
  · exact hs

theorem State.Keeps.portUp {s₀ s : State} (hs : s₀.Keeps s) {p : PortId} {lanes : List (Fin 9)} {eth : Bool}
    : s₀.Keeps (s.portUp p lanes eth) := by
  unfold State.portUp
  extract_lets l s1
  have hs1 : s₀.Keeps s1 := hs.modPort.each fun _ _ hs2 => hs2.handOver
  exact hs1.modEngine

theorem State.Keeps.measure {s₀ s : State} (hs : s₀.Keeps s) {p : PortId} {m : Training} : s₀.Keeps (s.measure p m)
    := by
  unfold State.measure
  extract_lets margin c spanLoss s1
  have hs1 : s₀.Keeps s1 := hs.modPort
  exact hs1.of_eq

theorem State.Keeps.lateStages {s₀ s : State} (hs : s₀.Keeps s) {p : PortId} {m : Training} : s₀.Keeps
    (s.lateStages p m) := by
  unfold State.lateStages
  extract_lets s1 s2 s3
  have hs1 : s₀.Keeps s1 := hs.modPort
  have hs2 : s₀.Keeps s2 := hs1.send
  have hs3 : s₀.Keeps s3 := hs2.measure
  split
  · exact hs2.modPort
  · split
    · exact hs2.modPort
    · split
      · exact hs3.modPort
      · exact hs3.portUp

theorem State.Keeps.execLinkTraining {s₀ s : State} (hs : s₀.Keeps s) {p : PortId} {m : Training} : s₀.Completes
    (Machine.execLinkTraining p m s) := by
  unfold Machine.execLinkTraining
  refine .next ?_
  extract_lets e s1 s2 fast eth laser s3 early
  have hs1 : s₀.Keeps s1 := hs.modEngine
  have hs2 : s₀.Keeps s2 := by
    unfold s2
    split
    · exact hs1.retrain
    · exact hs1
  have hs3 : s₀.Keeps s3 := hs2.modEngine.enableLaser
  split
  · split
    · exact hs3.modPort
    · split
      · exact hs3.portUp
      · exact hs3.lateStages
  · exact hs

theorem State.Keeps.execTrainingStageTimeout {s₀ s : State} (hs : s₀.Keeps s) {p : PortId} : s₀.Completes
    (Machine.execTrainingStageTimeout p s) := by
  unfold Machine.execTrainingStageTimeout
  refine .next ?_
  extract_lets x
  split
  · exact hs.modPort
  · exact hs

theorem State.Keeps.execCapabilityRecordReceive {s₀ s : State} (hs : s₀.Keeps s) {p : PortId} {r : CapRec}
    : s₀.Completes (Machine.execCapabilityRecordReceive p r s) := by
  unfold Machine.execCapabilityRecordReceive
  refine .next ?_
  extract_lets e bad dup s1 s2
  have hs1 : s₀.Keeps s1 := hs.modPort
  have hs2 : s₀.Keeps s2 := by
    unfold s2
    split
    · exact hs1.opticsEvent
    · exact hs1
  split
  · split
    · exact hs.discard
    · refine .regroup ?_
      refine .reroute ?_
      split
      · exact hs2.toBypass
      · exact hs2
  · exact hs

theorem State.Keeps.execBypassMove {s₀ s : State} (hs : s₀.Keeps s) {v : EngineAt} {cause : BitVec 8} : s₀.Completes
    (Machine.execBypassMove v cause s) := by
  unfold Machine.execBypassMove
  extract_lets e s1
  have hs1 : s₀.Keeps s1 := hs.modEngine
  refine .next ?_
  split
  · exact hs1.toBypass
  · exact hs1

theorem State.Keeps.execThroughMove {s₀ s : State} (hs : s₀.Keeps s) {v : EngineAt} : s₀.Completes
    (Machine.execThroughMove v s) := by
  unfold Machine.execThroughMove
  extract_lets e s1
  have hs1 : s₀.Keeps s1 := hs.modEngine
  refine .next ?_
  split
  · exact hs1.modEngine
  · exact hs1

theorem State.Keeps.pairPower {s₀ s : State} (hs : s₀.Keeps s) {e : EngineId} : s₀.Keeps (s.pairPower e) := by
  unfold State.pairPower
  extract_lets k pair idle
  split
  · exact hs
  · split
    · refine .setDom ?_
      exact hs.each fun _ _ hs1 => hs1.engineDark
    · split
      · exact hs.setDom
      · exact hs

theorem State.Keeps.execSwitchMoveDone {s₀ s : State} (hs : s₀.Keeps s) {e : EngineId} : s₀.Completes
    (Machine.execSwitchMoveDone e s) := by
  unfold Machine.execSwitchMoveDone
  refine .next ?_
  split
  · exact hs.modEngine.pairPower
  · extract_lets s1
    have hs1 : s₀.Keeps s1 := hs.modEngine
    split
    · exact hs1.each fun _ _ hs2 => hs2.modPort
    · exact hs1
  · exact hs
  · exact hs

theorem State.Keeps.execBeaconSend {s₀ s : State} (hs : s₀.Keeps s) {p : PortId} : s₀.Completes (Machine.execBeaconSend p s)
    := by
  unfold Machine.execBeaconSend
  refine .next ?_
  split
  · exact hs.send
  · exact hs

theorem State.Keeps.grantAlert {s₀ s : State} (hs : s₀.Keeps s) {p : PartId} {m : AlertMsg} : s₀.Keeps
    (s.grantAlert p m) := by
  unfold State.grantAlert
  extract_lets s1 s2 s3 s4
  have hs1 : s₀.Keeps s1 := hs.modPart
  have hs4 : s₀.Keeps s4 := hs1.of_eq
  exact hs4.raise.sendAlert

theorem State.Keeps.execAlertLeavesCluster {s₀ s : State} (hs : s₀.Keeps s) {c : ClusterId} : s₀.Completes
    (Machine.execAlertLeavesCluster c s) := by
  unfold Machine.execAlertLeavesCluster
  refine .next ?_
  split
  · exact hs
  · extract_lets p s1
    split
    · exact hs.of_eq.grantAlert.sendKind4
    · exact hs

theorem State.Keeps.execAlertPulseEnd {s₀ s : State} (hs : s₀.Keeps s) : s₀.Completes (Machine.execAlertPulseEnd s) := by
  unfold Machine.execAlertPulseEnd
  refine .next ?_
  split
  · extract_lets s1 s2
    have hs1 : s₀.Keeps s1 := by
      unfold s1
      split
      · exact hs
      · exact hs.reach
    exact hs1.of_eq
  · exact hs

theorem State.Keeps.execPartitionFatal {s₀ s : State} (hs : s₀.Keeps s) {p : PartId} {detail : BitVec 8}
    {src : BitVec 24} : s₀.Completes (Machine.execPartitionFatal p detail src s) := by
  unfold Machine.execPartitionFatal
  refine .next ?_
  split
  · exact hs.partFatal
  · exact hs

theorem State.Keeps.execDeviceFatal {s₀ s : State} (hs : s₀.Keeps s) {detail : BitVec 8} {src : BitVec 24}
    : s₀.Completes (Machine.execDeviceFatal detail src s) := by
  unfold Machine.execDeviceFatal
  refine .next ?_
  split
  · split
    · exact hs.devFatal
    · split
      · exact hs.writeDump
      · exact hs
  · exact hs

theorem State.Keeps.execDumpRelease {s₀ s : State} (hs : s₀.Keeps s) {p : PartId} : s₀.Completes
    (Machine.execDumpRelease p s) := by
  unfold Machine.execDumpRelease
  refine .next ?_
  split
  · split
    · extract_lets waiting s1
      have hs1 : s₀.Keeps s1 := hs.modPart
      exact hs1.of_eq
    · exact hs
  · exact hs

theorem State.Keeps.execPartitionReset {s₀ s : State} (hs : s₀.Keeps s) {p : PartId} : s₀.Completes
    (Machine.execPartitionReset p s) := by
  unfold Machine.execPartitionReset
  refine .next ?_
  split
  · exact hs.partReset
  · exact hs

theorem State.Keeps.execGuestUnanswered {s₀ s : State} (hs : s₀.Keeps s) {p : PartId} : s₀.Completes
    (Machine.execGuestUnanswered p s) := by
  unfold Machine.execGuestUnanswered
  refine .next ?_
  split
  · exact hs.partFatal
  · exact hs

theorem State.Keeps.execGuestPageFault {s₀ s : State} (hs : s₀.Keeps s) {p : PartId} {x : GuestAccess}
    : s₀.Completes (Machine.execGuestPageFault p x s) := by
  unfold Machine.execGuestPageFault
  refine .next ?_
  split
  · exact hs.raise
  · exact hs

theorem State.Keeps.recordGraph {s₀ s : State} (hs : s₀.Keeps s) {p : PartId} : s₀.Keeps (s.recordGraph p) := by
  unfold State.recordGraph
  extract_lets es cut payload
  exact hs.offer.modPart

theorem State.Keeps.execFrameWatchdog {s₀ s : State} (hs : s₀.Keeps s) {p : PartId} : s₀.Completes
    (Machine.execFrameWatchdog p s) := by
  unfold Machine.execFrameWatchdog
  refine .next ?_
  split
  · exact hs.reach.recordGraph.partFatal
  · exact hs

theorem State.Keeps.execSdoWrite {s₀ s : State} (hs : s₀.Keeps s) {w : Writer} {index : BitVec 16} {sub : BitVec 8}
    {complete : Bool} {data : List Byte} : s₀.Completes (Machine.execSdoWrite w index sub complete data s) := by
  unfold Machine.execSdoWrite
  refine .next ?_
  split
  · exact hs.askWrite
  · exact hs

theorem State.Keeps.execSdoRead {s₀ s : State} (hs : s₀.Keeps s) {w : Writer} {index : BitVec 16} {sub : BitVec 8}
    {complete : Bool} : s₀.Completes (Machine.execSdoRead w index sub complete s) := by
  unfold Machine.execSdoRead
  refine .next ?_
  split
  · exact hs.askRead
  · exact hs

theorem State.Keeps.execReadList {s₀ s : State} (hs : s₀.Keeps s) {p : PartId} {slot : HostSlot} {seq : BitVec 32}
    {items : List ListItem} : s₀.Completes (Machine.execReadList p slot seq items s) := by
  unfold Machine.execReadList
  refine .next ?_
  split
  · exact hs.askList
  · exact hs

theorem State.Keeps.execSdoInformation {s₀ s : State} (hs : s₀.Keeps s) {index : BitVec 16} {sub : BitVec 8}
    {what : Fin 3} : s₀.Completes (Machine.execSdoInformation index sub what s) := by
  unfold Machine.execSdoInformation
  refine .next ?_
  split
  · extract_lets i n
    split
    · exact hs.send
    · split
      · exact hs.answer
      · split
        · exact hs.send
        · split
          · exact hs.answer
          · exact hs.send
  · exact hs

theorem State.Keeps.execCommit {s₀ s : State} (hs : s₀.Keeps s) {w : Writer} {a : AreaId} : s₀.Completes
    (Machine.execCommit w a s) := by
  unfold Machine.execCommit
  refine .next ?_
  split
  · exact hs.askWrite
  · exact hs

theorem State.Keeps.execRearm {s₀ s : State} (hs : s₀.Keeps s) {w : Writer} {p : PartId} : s₀.Completes
    (Machine.execRearm w p s) := by
  unfold Machine.execRearm
  refine .next ?_
  split
  · exact hs.askWrite
  · exact hs

theorem State.Keeps.deviceEffect {s₀ s : State} (hs : s₀.Keeps s) {k v : Nat} : s₀.Keeps (s.deviceEffect k v) := by
  unfold State.deviceEffect
  extract_lets index sub e s1 s2 link
  have hs1 : s₀.Keeps s1 := hs.modEngine
  have hs2 : s₀.Keeps s2 := by
    unfold s2
    split
    · exact hs1.toBypass
    · exact hs1
  split
  · split
    · exact hs2.pairPower
    · exact hs2
  · split
    · exact hs.of_eq
    · exact hs

theorem State.Keeps.applyDevice {s₀ s : State} (hs : s₀.Keeps s) {c : PendCommit} : s₀.Keeps (s.applyDevice c) := by
  unfold State.applyDevice
  extract_lets isLayout s1 s2 s3 s4
  have hs1 : s₀.Keeps s1 := hs.putInForce
  have hs2 : s₀.Keeps s2 := by
    unfold s2
    refine hs1.each fun s5 x hs5 => ?_
    extract_lets p s6 s7
    have hs7 : s₀.Keeps s7 := hs5.of_eq
    exact hs7.modPart
  have hs3 : s₀.Keeps s3 := hs2.each fun _ _ hs5 => hs5.deviceEffect
  exact hs3.of_eq

theorem State.Keeps.execDeviceCommitApply {s₀ s : State} (hs : s₀.Keeps s) : s₀.Completes (Machine.execDeviceCommitApply s)
    := by
  unfold Machine.execDeviceCommitApply
  refine .next ?_
  split
  · extract_lets q s1 s2 idle
    have hs2 : s₀.Keeps s2 := hs.of_eq.each fun _ _ h => h.applyDevice
    exact hs2.each fun _ _ h => h.changeLayout
  · exact hs

theorem State.Keeps.execLayoutChange {s₀ s : State} (hs : s₀.Keeps s) {p : PartId} : s₀.Completes
    (Machine.execLayoutChange p s) := by
  unfold Machine.execLayoutChange
  refine .next ?_
  split
  · exact hs.changeLayout
  · exact hs

theorem State.Keeps.pdoStage {s₀ s : State} (hs : s₀.Keeps s) {x : Nat × Nat × List Byte} : s₀.Keeps (s.pdoStage x)
    := by
  unfold State.pdoStage
  split
  · exact hs
  · split
    · rename_i h
      exact hs.write h
    · exact hs.noteAbort

theorem State.Keeps.pdoSubmit {s₀ s : State} (hs : s₀.Keeps s) {x : Nat × Nat × List Byte} : s₀.Keeps
    (s.pdoSubmit x) := by
  unfold State.pdoSubmit
  extract_lets k v s1 s2
  have hs2 : s₀.Keeps s2 := hs.of_eq
  split
  · exact hs
  · split
    · exact hs2.noteAbort
    · exact hs2.submit

theorem State.Keeps.execRxpdoTake {s₀ s : State} (hs : s₀.Keeps s) {x : PdoEvent} : s₀.Completes (Machine.execRxpdoTake x s)
    := by
  unfold Machine.execRxpdoTake
  refine .next ?_
  extract_lets takes s1 s2 l n xs s3
  have hs2 : s₀.Keeps s2 := by
    unfold s2
    split
    · exact hs.of_eq
    · exact hs
  have hs3 : s₀.Keeps s3 := hs2.each fun _ _ hs4 => hs4.pdoStage
  split
  · exact hs3.each fun _ _ hs4 => hs4.pdoSubmit
  · exact hs2

theorem State.Keeps.execTxpdoFill {s₀ s : State} (hs : s₀.Keeps s) : s₀.Completes (Machine.execTxpdoFill s) := by
  unfold Machine.execTxpdoFill
  refine .next ?_
  split
  · split
    · rename_i s1 _ hp
      have hs1 : s₀.Keeps s1 := hs.readMany.of_pair hp
      exact hs1.of_eq.send
  · exact hs

theorem State.Keeps.execPdoMappingWrite {s₀ s : State} (hs : s₀.Keeps s) {index : BitVec 16} {sub : BitVec 8}
    {value : BitVec 32} : s₀.Completes (Machine.execPdoMappingWrite index sub value s) := by
  unfold Machine.execPdoMappingWrite
  refine .next ?_
  extract_lets i size data
  split
  · exact hs.askWrite
  · exact hs

theorem State.Keeps.execSmWatchdogExpiry {s₀ s : State} (hs : s₀.Keeps s) : s₀.Completes (Machine.execSmWatchdogExpiry s)
    := by
  unfold Machine.execSmWatchdogExpiry
  refine .next ?_
  split
  · exact hs.of_eq
  · exact hs

theorem State.Keeps.toInit {s₀ s : State} (hs : s₀.Keeps s) : s₀.Keeps s.toInit := by
  unfold State.toInit
  extract_lets s1 s2 s3
  have hs1 : s₀.Keeps s1 := hs.modArea
  have hs2 : s₀.Keeps s2 := hs1.each fun _ _ hs4 => hs4.modArea
  exact hs2.of_eq

theorem State.Keeps.execEcatStateTransition {s₀ s : State} (hs : s₀.Keeps s) {target : EcatState}
    {dc : Option (BitVec 32)} : s₀.Completes (Machine.execEcatStateTransition target dc s) := by
  unfold Machine.execEcatStateTransition
  refine .next ?_
  split
  · extract_lets dc1 s1 s2 s3
    have hs2 : s₀.Keeps s2 := by
      unfold s2
      split
      · exact hs.toInit
      · exact hs
    split
    · exact hs.of_eq
    · split
      · exact hs.of_eq
      · exact hs2.of_eq
  · exact hs

theorem State.Keeps.foe {s₀ s : State} (hs : s₀.Keeps s) {error : BitVec 16} {data : List Byte} : s₀.Keeps
    (s.foe error data) := by
  unfold State.foe
  exact hs.send

theorem State.Keeps.putSpareSlot {s₀ s : State} (hs : s₀.Keeps s) {x : FwSlot} : s₀.Keeps (s.putSpareSlot x) := by
  unfold State.putSpareSlot
  exact hs.of_eq

theorem State.Keeps.execFoeWrite {s₀ s : State} (hs : s₀.Keeps s) {file : FoeFile} {password : BitVec 32}
    {offset : Nat} {data : List Byte} {last : Bool} : s₀.Completes (Machine.execFoeWrite file password offset data last s)
    := by
  unfold Machine.execFoeWrite
  refine .next ?_
  split
  · exact hs
  · split
    · exact hs.foe
    · split
      · split
        · exact hs.foe
        · extract_lets s'
          have hs' : s₀.Keeps s' := hs.deliver
          exact hs'.foe
      · extract_lets old kept base slot
        exact hs.putSpareSlot.foe
      · exact hs.foe

theorem State.Keeps.foeImage {s₀ s : State} (hs : s₀.Keeps s) {p : PartId} {offset len : Nat} : s₀.Keeps
    (s.foeImage p offset len) := by
  unfold State.foeImage
  extract_lets n
  split
  · exact hs.drawn.foe
  · exact hs.foe

theorem State.Keeps.execFoeRead {s₀ s : State} (hs : s₀.Keeps s) {file : FoeFile} {password : BitVec 32}
    {offset len : Nat} : s₀.Completes (Machine.execFoeRead file password offset len s) := by
  unfold Machine.execFoeRead
  refine .next ?_
  split
  · exact hs
  · split
    · exact hs.foe
    · split
      · exact hs.foeImage
      · exact hs.foe
      · exact hs.foe

theorem State.Keeps.execFirmwareSlotCheck {s₀ s : State} (hs : s₀.Keeps s) : s₀.Completes (Machine.execFirmwareSlotCheck s)
    := by
  unfold Machine.execFirmwareSlotCheck
  refine .next ?_
  extract_lets x digest
  split
  · exact hs.putSpareSlot
  · exact hs

theorem State.Keeps.execFirmwareTrialGood {s₀ s : State} (hs : s₀.Keeps s) : s₀.Completes (Machine.execFirmwareTrialGood s)
    := by
  unfold Machine.execFirmwareTrialGood
  refine .next ?_
  extract_lets x ports y svn commit s1 s2 s3
  split
  · exact hs.of_eq
  · exact hs

theorem State.Keeps.measureBands {s₀ s : State} (hs : s₀.Keeps s) {m : PowerIn} {p : PartId} : s₀.Keeps
    (s.measureBands m p) := by
  unfold State.measureBands
  extract_lets pt x
  exact hs.modPart

theorem State.Keeps.stepCap {s₀ s : State} (hs : s₀.Keeps s) : s₀.Keeps s.stepCap := by
  unfold State.stepCap
  extract_lets cap hot low s1 put
  have hput : ∀ (e : Option Nat) (at_ : Stamp), s₀.Keeps (put e at_) := fun e at_ => hs.of_eq
  split
  · split
    · exact (hput _ _)
    · exact (hput _ _)
  · split
    · exact hs
    · split
      · exact hs
      · split
        · exact (hput _ _)
        · exact (hput _ _)

theorem State.Keeps.addEnergy {s₀ s : State} (hs : s₀.Keeps s) {p : PartId} {q n : Nat} : s₀.Keeps
    (s.addEnergy p q n) := by
  unfold State.addEnergy
  split
  · exact hs
  · exact hs.modPart

theorem State.Keeps.addResidual {s₀ s : State} (hs : s₀.Keeps s) {q n : Nat} : s₀.Keeps (s.addResidual q n) := by
  unfold State.addResidual
  split
  · exact hs
  · exact hs.of_eq

theorem State.Keeps.divide {s₀ s : State} (hs : s₀.Keeps s) {q e : Nat} {shares : List Nat} {total : Nat} : s₀.Keeps
    (s.divide q e shares total) := by
  unfold State.divide
  extract_lets part s1
  have hs1 : s₀.Keeps s1 := hs.each fun _ _ hs2 => hs2.addEnergy
  exact hs1.addResidual

theorem State.Keeps.attribute {s₀ s : State} (hs : s₀.Keeps s) {m : PowerIn} : s₀.Keeps (s.attribute m) := by
  unfold State.attribute
  extract_lets perCluster s1 s2
  have hperCluster : ∀ (s : State), s₀.Keeps s → ∀ (q : Nat) (l : List Nat), s₀.Keeps (perCluster s q l) := by
    unfold perCluster
    intro s3 hs3 q l
    refine hs3.each fun s4 x hs4 => ?_
    split
    · exact hs4.addEnergy
    · exact hs4.addResidual
  have hs1 : s₀.Keeps s1 := (hperCluster _ ((hperCluster _ hs _ _)) _ _)
  have hs2 : s₀.Keeps s2 := by
    unfold s2
    refine hs1.each fun s3 x hs3 => ?_
    extract_lets shares
    exact hs3.divide
  exact hs2.divide

theorem State.Keeps.stepOver {s₀ s : State} (hs : s₀.Keeps s) : s₀.Keeps s.stepOver.1 := by
  unfold State.stepOver
  split
  · split
    · exact hs.of_eq.powerEvent
    · exact hs.of_eq
  · exact hs.of_eq

theorem State.Keeps.floorView {s₀ s : State} (hs : s₀.Keeps s) : s₀.Keeps s.floorView := by
  unfold State.floorView
  extract_lets s1
  have hs1 : s₀.Keeps s1 := hs.each fun _ _ hs2 => hs2.modPart
  exact hs1.each fun _ _ hs2 => hs2.modBand

theorem State.Keeps.choose {s₀ s : State} (hs : s₀.Keeps s) {l : List Setting} {ks : List Nat} : s₀.Keeps
    (s.choose l ks) := by
  unfold State.choose
  refine hs.each fun s1 x hs1 => ?_
  extract_lets x1 k none_ cls d w
  exact hs1.modPart.orderClass

theorem State.Keeps.floorEvent {s₀ s : State} (hs : s₀.Keeps s) {action : BitVec 2} : s₀.Keeps (s.floorEvent action)
    := by
  unfold State.floorEvent
  extract_lets due s1
  split
  · exact hs.of_eq.powerEvent
  · exact hs

theorem State.Keeps.decide_ {s₀ s : State} (hs : s₀.Keeps s) {exceeded : Bool} : s₀.Keeps (s.decide_ exceeded) := by
  unfold State.decide_
  extract_lets least ks0 floorMw below under s1 s2 skipping state ps s3 start s4 l0 l1 l2 l3
  have hs2 : s₀.Keeps s2 := hs.of_eq
  have hstate : ∀ (c a : BitVec 2) (s : State), s₀.Keeps s → s₀.Keeps (state c a s) := fun c a s5 hs5 => hs5.of_eq
  have hs3 : s₀.Keeps s3 := hs2.floorEvent.each fun _ _ hs5 => hs5.modPart.haltNow
  have hs4 : s₀.Keeps s4 := hs2.each fun _ _ hs5 => hs5.modPart
  split
  · split
    · split
      · exact (hstate _ _ _ hs2.floorEvent.choose)
      · exact (hstate _ _ _ hs2.floorEvent.choose)
    · exact (hstate _ _ _ hs3.choose)
    · exact (hstate _ _ _ hs2.floorEvent.choose)
  · split
    · exact (hstate _ _ _ hs2.choose)
    · exact (hstate _ _ _ hs4.choose)

theorem State.Keeps.leverOne {s₀ s : State} (hs : s₀.Keeps s) : s₀.Keeps s.leverOne := by
  unfold State.leverOne
  extract_lets tight s1
  have hs1 : s₀.Keeps s1 := by
    unfold s1
    refine hs.each fun s2 x hs2 => ?_
    split
    · exact hs2.orderBand
    · exact hs2
  refine hs1.each fun s2 x hs2 => ?_
  split
  · exact hs2.setDom
  · exact hs2

theorem State.Keeps.powerTick {s₀ s : State} (hs : s₀.Keeps s) {m : PowerIn} : s₀.Keeps (s.powerTick m) := by
  unfold State.powerTick
  extract_lets s1 s2 s3 s4
  have hs2 : s₀.Keeps s2 := hs.of_eq
  have hs3 : s₀.Keeps s3 := hs2.each fun _ _ hs5 => hs5.measureBands
  have hs4 : s₀.Keeps s4 := hs3.attribute.stepCap
  split
  · rename_i s11 _ hp
    have hs11 : s₀.Keeps s11 := hs4.stepOver.of_pair hp
    exact hs11.leverOne.decide_

theorem State.Keeps.tickSnapshots {s₀ s : State} (hs : s₀.Keeps s) : s₀.Keeps s.tickSnapshots := by
  unfold State.tickSnapshots
  split
  · exact hs
  · refine hs.each fun s1 x hs1 => ?_
    extract_lets snap
    exact hs1.modArea

theorem State.Keeps.execPowerControlTick {s₀ s : State} (hs : s₀.Keeps s) {m : PowerIn} : s₀.Completes
    (Machine.execPowerControlTick m s) := by
  unfold Machine.execPowerControlTick
  refine .next ?_
  split
  · extract_lets s1
    have hs1 : s₀.Keeps s1 := hs.of_eq.powerTick
    exact hs1.tickSnapshots.each fun _ _ hs2 => hs2.tryReady
  · exact hs

theorem State.Keeps.takeSample {s₀ s : State} (hs : s₀.Keeps s) : s₀.Keeps s.takeSample := by
  unfold State.takeSample
  extract_lets sum s1
  exact hs.of_eq

theorem State.Keeps.railRead {s₀ s : State} (hs : s₀.Keeps s) {i : Nat} {x : Option Nat} : s₀.Keeps (s.railRead i x)
    := by
  unfold State.railRead
  extract_lets r s1
  have hs1 : s₀.Keeps s1 := hs.of_eq
  split
  · exact hs.of_eq
  · split
    · exact hs1.powerEvent
    · exact hs1

theorem State.Keeps.execPmbusSample {s₀ s : State} (hs : s₀.Keeps s) {readings : List (Option Nat)} : s₀.Completes
    (Machine.execPmbusSample readings s) := by
  unfold Machine.execPmbusSample
  refine .next ?_
  split
  · refine .takeSample ?_
    exact hs.each fun _ _ hs1 => hs1.railRead
  · exact hs

theorem State.Keeps.execPmbAlert {s₀ s : State} (hs : s₀.Keeps s) {status : List (BitVec 16)} : s₀.Completes
    (Machine.execPmbAlert status s) := by
  unfold Machine.execPmbAlert
  refine .next ?_
  split
  · refine .takeSample ?_
    refine hs.each fun s1 x hs1 => ?_
    extract_lets r s2
    have hs2 : s₀.Keeps s2 := hs1.of_eq
    split
    · exact hs2
    · exact hs2.powerEvent
  · exact hs

theorem State.Keeps.execStepAssert {s₀ s : State} (hs : s₀.Keeps s) {d : DieId} : s₀.Completes (Machine.execStepAssert d s)
    := by
  unfold Machine.execStepAssert
  refine .next ?_
  split
  · extract_lets on s1
    have hs1 : s₀.Keeps s1 := hs.modDie
    exact hs1.of_eq
  · exact hs

theorem State.Keeps.execDroopEvent {s₀ s : State} (hs : s₀.Keeps s) {d : DieId} {lastResort : Bool} : s₀.Completes
    (Machine.execDroopEvent d lastResort s) := by
  unfold Machine.execDroopEvent
  refine .next ?_
  extract_lets hold ps pinned all s1 s2
  have hs2 : s₀.Keeps s2 := hs.modDie
  split
  · exact hs
  · split
    · exact hs.of_eq
    · exact hs2.each fun _ _ hs3 => hs3.modPart

theorem State.Keeps.execDroopEventEnd {s₀ s : State} (hs : s₀.Keeps s) {x : StretchEnd} : s₀.Completes
    (Machine.execDroopEventEnd x s) := by
  unfold Machine.execDroopEventEnd
  exact hs.modDie.next

theorem State.Keeps.execThermalSample {s₀ s : State} (hs : s₀.Keeps s) {sensors : List (List (Option ℤ))}
    : s₀.Completes (Machine.execThermalSample sensors s) := by
  unfold Machine.execThermalSample
  refine .next ?_
  split
  · refine hs.each fun s1 x hs1 => ?_
    extract_lets t
    split
    · extract_lets s2 src
      have hs2 : s₀.Keeps s2 := hs1.of_eq
      split
      · exact hs2.raise
      · exact hs2
  · exact hs

theorem State.Keeps.writeCapture {s₀ s : State} (hs : s₀.Keeps s) {p : PartId} {complete : Bool} : s₀.Keeps
    (s.writeCapture p complete) := by
  unfold State.writeCapture
  extract_lets x sealed base onDie old
  split
  extract_lets n1 n2 n3 total ok head s1 s2 s3 s4
  have hs1 : s₀.Keeps s1 := hs.setHbm (Mem.wf_clear _ _)
  have hs3 : s₀.Keeps s3 := hs1.hbmWrite.hbmWrite.hbmWrite.hbmWrite
  exact hs3.keepHard.observe.modPart

theorem State.Keeps.cutScan {s₀ s : State} (hs : s₀.Keeps s) : s₀.Keeps s.cutScan := by
  unfold State.cutScan
  split
  · extract_lets s1 s2
    have hs1 : s₀.Keeps s1 := hs.each fun _ _ hs3 => hs3.writeCapture
    exact hs1.of_eq.setD29
  · exact hs

theorem State.Keeps.execThermalTrip {s₀ s : State} (hs : s₀.Keeps s) {i : Fin 3} : s₀.Completes
    (Machine.execThermalTrip i s) := by
  unfold Machine.execThermalTrip
  refine .next ?_
  split
  · extract_lets t s1 src
    have hs1 : s₀.Keeps s1 := hs.of_eq
    exact hs1.cutScan.cutDump.devFatalNow
  · exact hs.cutDump

theorem State.Keeps.dropDrain {s₀ s : State} (hs : s₀.Keeps s) {b : BandId} : s₀.Keeps (s.dropDrain b) := by
  unfold State.dropDrain
  split
  · exact hs.modBand
  · exact hs

theorem State.Keeps.execPllLockLoss {s₀ s : State} (hs : s₀.Keeps s) {which : Fin 3} : s₀.Completes
    (Machine.execPllLockLoss which s) := by
  unfold Machine.execPllLockLoss
  refine .next ?_
  split
  · extract_lets c c1 src
    have hLost : s₀.Keeps { s with rootClk := c1 } := hs.of_eq
    exact (hLost.cutScan.cutDump.each fun _ _ h => h.dropDrain).devFatalNow
  · exact hs

theorem State.Keeps.execRefclkLoss {s₀ s : State} (hs : s₀.Keeps s) {ppm : ℤ} : s₀.Completes (Machine.execRefclkLoss ppm s)
    := by
  unfold Machine.execRefclkLoss
  exact hs.of_eq.next

theorem State.Keeps.execBandSwitchOff {s₀ s : State} (hs : s₀.Keeps s) {b : BandId} : s₀.Completes
    (Machine.execBandSwitchOff b s) := by
  unfold Machine.execBandSwitchOff
  refine .next ?_
  split
  · split
    · split
      · exact hs
      · exact hs.bandOff
    · exact hs.bandOrder
  · exact hs

theorem State.Keeps.execBandDrainTimeout {s₀ s : State} (hs : s₀.Keeps s) {b : BandId} : s₀.Completes
    (Machine.execBandDrainTimeout b s) := by
  unfold Machine.execBandDrainTimeout
  refine .next ?_
  split
  · extract_lets old s1
    have hs1 : s₀.Keeps s1 := hs.each fun _ _ hs2 => hs2.dropWrite
    exact hs1.modBand.bandDown
  · exact hs

theorem State.Keeps.execBandRetEntry {s₀ s : State} (hs : s₀.Keeps s) {b : BandId} : s₀.Completes
    (Machine.execBandRetEntry b s) := by
  unfold Machine.execBandRetEntry
  refine .next ?_
  split
  · exact hs.bandOrder
  · exact hs

theorem State.Keeps.unserve {s₀ s : State} (hs : s₀.Keeps s) {c : ClusterId} : s₀.Keeps (s.unserve c) := by
  unfold State.unserve
  exact hs.modCluster

theorem State.Keeps.retireCore {s₀ s : State} (hs : s₀.Keeps s) {n : Nat} : s₀.Keeps (s.retireCore n) := by
  unfold State.retireCore
  exact hs.of_eq

theorem State.Keeps.applyFinding {s₀ s : State} (hs : s₀.Keeps s) {f : MemFinding} : s₀.Keeps (s.applyFinding f) := by
  unfold State.applyFinding
  split
  · split
    · exact hs
    · extract_lets phys steer
      split
      · split
        · exact hs
        · exact hs.modTile_same.repairEvent
      · exact hs.retireMacro
  · split
    · exact hs.retireMacro
    · exact hs
  · exact hs.retireTile
  · exact hs.unserve.modCluster
  · exact hs.retireCore
  · exact hs.modEngine.toBypass
  · exact hs
  · exact hs

theorem State.Keeps.restoreBand {s₀ s : State} (hs : s₀.Keeps s) {b : BandId} : s₀.Keeps (s.restoreBand b) := by
  unfold State.restoreBand
  refine hs.each fun s1 x hs1 => ?_
  extract_lets ts
  split
  · exact hs1.tryReady
  · split
    · exact hs1.partFatal
    · refine .tryReady ?_
      exact hs1.each fun _ _ hs2 => hs2.restoreTile

theorem State.Keeps.execBandSwitchOn {s₀ s : State} (hs : s₀.Keeps s) {b : BandId} {findings : List MemFinding}
    : s₀.Completes (Machine.execBandSwitchOn b findings s) := by
  unfold Machine.execBandSwitchOn
  refine .next ?_
  split
  · split
    · extract_lets s1
      have hs1 : s₀.Keeps s1 := hs.drawn
      refine .setDom ?_
      exact hs1.each fun _ _ hs2 => hs2.modTile fun hTl => hTl.fresh
    · split
      · extract_lets mine s1 s2 gone s3
        have hs1 : s₀.Keeps s1 := hs.setDom.modBand
        have hs2 : s₀.Keeps s2 := hs1.each fun _ _ hs4 => hs4.applyFinding
        have hs3 : s₀.Keeps s3 := hs2.each fun _ _ hs4 => hs4.unload.partFatal
        exact hs3.restoreBand
      · exact hs
  · exact hs

theorem State.Keeps.execBandRetExit {s₀ s : State} (hs : s₀.Keeps s) {b : BandId} : s₀.Completes
    (Machine.execBandRetExit b s) := by
  unfold Machine.execBandRetExit
  refine .next ?_
  split
  · extract_lets s1 s2
    have hs1 : s₀.Keeps s1 := hs.setDom.modBand
    have hs2 : s₀.Keeps s2 := hs1.each fun _ _ hs3 => hs3.modTile_same
    refine hs2.each fun s3 x hs3 => ?_
    extract_lets ts s4
    have hs4 : s₀.Keeps s4 := by
      unfold s4
      split
      · exact hs3.each fun _ _ hs5 => hs5.reloadPages
      · exact hs3
    exact hs4.tryReady
  · exact hs

theorem State.Keeps.tamperOptics {s₀ s : State} (hs : s₀.Keeps s) : s₀.Keeps s.tamperOptics := by
  unfold State.tamperOptics
  extract_lets s1
  have hs1 : s₀.Keeps s1 := hs.each fun s2 x hs2 => by
    extract_lets s3
    have hs3 : s₀.Keeps s3 := hs2.modEngine.toBypass
    split
    · exact hs3.each fun _ _ h => h.portDown
    · exact hs3
  exact hs1.of_eq

theorem State.Keeps.wipeTile {s₀ s : State} (hs : s₀.Keeps s) {t : TileId} : s₀.Keeps (s.wipeTile t) := by
  unfold State.wipeTile
  extract_lets s1 bare
  have hs1 : s₀.Keeps s1 := hs.wipeSealed.clearHandles
  exact hs1.modTile_same.freeDma

theorem State.Keeps.tamperBand {s₀ s : State} (hs : s₀.Keeps s) {b : BandId} : s₀.Keeps (s.tamperBand b) := by
  unfold State.tamperBand
  split
  · exact hs.each fun _ _ hs1 => hs1.wipeTile
  · exact hs
  · refine .modBand ?_
    refine .setDom ?_
    exact hs.each fun _ _ hs1 => hs1.modTile fun hTl => hTl.dark

theorem State.Keeps.execTamper {s₀ s : State} (hs : s₀.Keeps s) {source : Fin 5} : s₀.Completes
    (Machine.execTamper source s) := by
  unfold Machine.execTamper
  refine .next ?_
  split
  · exact hs
  · extract_lets s1 island s2 s3 s4 src
    have hs2 : s₀.Keeps s2 := hs.of_eq.haltAll
    have hs3 : s₀.Keeps s3 := hs2.each fun _ _ hs5 => hs5.abandonAll
    have hs4 : s₀.Keeps s4 := by
      unfold s4
      refine .tamperOptics ?_
      exact hs3.each fun _ _ hs5 => hs5.tamperBand
    split
    · exact hs4.devFatalNow
    · split
      · exact hs4.writeDump
      · exact hs4

theorem State.Keeps.execPowerOnReset {s₀ s : State} (hs : s₀.Keeps s) : s₀.Completes (Machine.execPowerOnReset s) := by
  unfold Machine.execPowerOnReset
  exact hs.devReset.next

theorem State.Keeps.execWarmReset {s₀ s : State} (hs : s₀.Keeps s) : s₀.Completes (Machine.execWarmReset s) := by
  unfold Machine.execWarmReset
  exact hs.devReset.next

theorem State.Keeps.execWatchdogRestart {s₀ s : State} (hs : s₀.Keeps s) : s₀.Completes (Machine.execWatchdogRestart s) := by
  unfold Machine.execWatchdogRestart
  refine .next ?_
  split
  · exact hs.of_eq
  · exact hs

theorem State.Keeps.execWatchdogExpiry {s₀ s : State} (hs : s₀.Keeps s) : s₀.Completes (Machine.execWatchdogExpiry s) := by
  unfold Machine.execWatchdogExpiry
  refine .next ?_
  split
  · exact hs.reach.devReset
  · exact hs

theorem State.Keeps.stepOne {s₀ s : State} (hs : s₀.Keeps s) {m : StartIn} : s₀.Keeps (s.stepOne m) := by
  unfold State.stepOne
  extract_lets ppm s1 s2 s3 s4 s5 s6
  have hs1 : s₀.Keeps s1 := hs.drawn
  have hs6 : s₀.Keeps s6 := hs1.of_eq
  exact hs6.each fun _ _ hs7 => hs7.modEngine

theorem State.Keeps.deriveKeys {s₀ s : State} (hs : s₀.Keeps s) : s₀.Keeps s.deriveKeys := by
  unfold State.deriveKeys
  extract_lets key sram s1
  exact hs.of_eq

theorem State.Keeps.domainsOn {s₀ s : State} (hs : s₀.Keeps s) : s₀.Keeps s.domainsOn := by
  unfold State.domainsOn
  extract_lets failmap doms s1 s2 s3
  have hs2 : s₀.Keeps s2 := hs.of_eq
  have hs3 : s₀.Keeps s3 := hs2.each fun _ _ hs4 => hs4.modBand
  exact hs3.each fun _ _ hs4 => hs4.modCluster

theorem State.Keeps.reapplyRows {s₀ s : State} (hs : s₀.Keeps s) : s₀.Keeps s.reapplyRows := by
  unfold State.reapplyRows
  extract_lets mended
  exact hs.of_eq

theorem Tile.SpOk.factoryTile {f : Factory} {t : TileId} {tl : Tile} (hs : tl.SpOk) :
    (Machine.factoryTile f t tl).SpOk := by
  unfold Machine.factoryTile
  exact hs.of_eq.foldl fun _ _ h => h.modMac

theorem State.Keeps.dropMap {s₀ s : State} (hs : s₀.Keeps s) : s₀.Keeps s.dropMap := by
  unfold State.dropMap
  extract_lets f ts s1 s2 s3
  have hs1 : s₀.Keeps s1 := hs.each fun _ _ hs4 => hs4.modTile fun hTl => hTl.factoryTile
  have hs2 : s₀.Keeps s2 := hs1.of_eq
  have hs3 : s₀.Keeps s3 := hs2.each fun _ _ hs4 => hs4.modCluster
  exact hs3.raise

theorem State.Keeps.memories {s₀ s : State} (hs : s₀.Keeps s) {m : StartIn} : s₀.Keeps (s.memories m).1 := by
  unfold State.memories
  split
  · exact hs
  · extract_lets s1 s2
    have hs1 : s₀.Keeps s1 := hs.domainsOn
    have hs2 : s₀.Keeps s2 := by
      refine .reapplyRows ?_
      split
      · exact hs1
      · exact hs1.dropMap
    split
    · exact hs2
    · exact hs2.each fun _ _ h => h.applyFinding

theorem State.Keeps.stopStart {s₀ s : State} (hs : s₀.Keeps s) : s₀.Keeps s.stopStart := by
  unfold State.stopStart
  exact hs.of_eq

theorem State.Keeps.pickSlot {s₀ s : State} (hs : s₀.Keeps s) {aOk bOk : Bool} : s₀.Keeps (s.pickSlot aOk bOk).1 := by
  unfold State.pickSlot
  extract_lets a b aGood bGood flash s1 island boot aRuns bRuns
  have hs1 : s₀.Keeps s1 := hs.of_eq
  have hBoot {slot trial} : s₀.Keeps (boot slot trial) := hs1.of_eq
  split
  · exact hBoot
  · split
    · exact hBoot
    · split
      · exact hBoot
      · split
        · exact hBoot
        · exact hs1

theorem State.Keeps.loader {s₀ s : State} (hs : s₀.Keeps s) : s₀.Keeps s.loader := by
  unfold State.loader
  extract_lets s1 s2
  have hs2 : s₀.Keeps s2 := hs.of_eq
  exact hs2.setDom

theorem State.Keeps.logicTest {s₀ s : State} (hs : s₀.Keeps s) {signatures : List (BitVec 64)} : s₀.Keeps
    (s.logicTest signatures) := by
  unfold State.logicTest
  split
  · extract_lets failmap s1
    exact hs.of_eq
  · extract_lets code body s1
    exact hs.of_eq

theorem State.Keeps.meetEngines {s₀ s : State} (hs : s₀.Keeps s) {m : StartIn} : s₀.Keeps (s.meetEngines m) := by
  unfold State.meetEngines
  refine hs.each fun s1 x hs1 => ?_
  extract_lets s2
  have hs2 : s₀.Keeps s2 := hs1.modEngine
  exact hs2.each fun _ _ hs3 => hs3.modPort

theorem State.Keeps.service {s₀ s : State} (hs : s₀.Keeps s) {m : StartIn} : s₀.Keeps (s.service m) := by
  unfold State.service
  extract_lets s1 s2 x s3
  have hs2 : s₀.Keeps s2 := hs.of_eq
  have hs3 : s₀.Keeps s3 := hs2.hbmWrite.meetEngines
  refine .fabricIfReady ?_
  exact hs3.each fun _ _ hs4 => hs4.fixPair

theorem State.Keeps.execStartSequence {s₀ s : State} (hs : s₀.Keeps s) {m : StartIn} : s₀.Completes
    (Machine.execStartSequence m s) := by
  unfold Machine.execStartSequence
  refine .next ?_
  split
  · extract_lets s1 s2 s3
    have hs1 : s₀.Keeps s1 := hs.stepOne
    have hs2 : s₀.Keeps s2 := hs1.deriveKeys
    split
    · exact hs1
    · split
      · split
        · rename_i s11 hp
          have hs11 : s₀.Keeps s11 := hs2.of_eq.memories.of_pair hp
          exact hs11.endTransition
        · rename_i s11 hp
          have hs11 : s₀.Keeps s11 := hs2.of_eq.memories.of_pair hp
          exact hs11.stopStart
      · split
        · exact hs2.stopStart
        · split
          · rename_i s11 hp
            have hs11 : s₀.Keeps s11 := hs2.finishRaise.pickSlot.of_pair hp
            exact hs11.loader
          · rename_i s11 _ hp
            have hs11 : s₀.Keeps s11 := hs2.finishRaise.pickSlot.of_pair hp
            split
            · rename_i s12 hp
              have hs12 : s₀.Keeps s12 := hs11.logicTest.memories.of_pair hp
              exact hs12.service
            · rename_i s12 hp
              have hs12 : s₀.Keeps s12 := hs11.logicTest.memories.of_pair hp
              exact hs12.stopStart
  · exact hs

theorem State.Keeps.ebbBegin {s₀ s : State} (hs : s₀.Keeps s) : s₀.Keeps s.ebbBegin := by
  unfold State.ebbBegin
  extract_lets wd s1 s2
  have hs1 : s₀.Keeps s1 := hs.of_eq
  have hs2 : s₀.Keeps s2 := hs1.each fun s4 x hs4 => by
    extract_lets s5 s6
    have hs5 : s₀.Keeps s5 := hs4.dropView.abandon
    have hs6 : s₀.Keeps s6 := by
      unfold s6
      split
      · exact hs5
      · exact hs5.withdraw
    exact hs6.modPart
  exact State.Keeps.setD29 (hs2.of_eq)

theorem State.Keeps.ebbTest {s₀ s : State} (hs : s₀.Keeps s) : s₀.Keeps s.ebbTest := by
  unfold State.ebbTest
  extract_lets s1 s2
  have hs1 : s₀.Keeps s1 := hs.each fun _ _ hs3 => hs3.unload.modPart
  have hs2 : s₀.Keeps s2 := hs1.each fun _ _ hs3 => hs3.bandOff
  exact hs2.of_eq

theorem State.Keeps.ebbWrite {s₀ s : State} (hs : s₀.Keeps s) {signatures : List (BitVec 64)} : s₀.Keeps
    (s.ebbWrite signatures) := by
  unfold State.ebbWrite
  extract_lets body s1 s2 doms
  have hs1 : s₀.Keeps s1 := hs.each fun _ _ h => h.modPart
  have hs2 : s₀.Keeps s2 := hs1.each fun _ _ h => h.engineDark
  exact hs2.of_eq

theorem State.Keeps.ebbStop {s₀ s : State} (hs : s₀.Keeps s) : s₀.Keeps s.ebbStop := by
  unfold State.ebbStop
  refine hs.each fun s1 x hs1 => ?_
  extract_lets d
  exact hs1.reach.stopFrame.withdraw

theorem State.Keeps.ebbEnd {s₀ s : State} (hs : s₀.Keeps s) : s₀.Keeps s.ebbEnd := by
  unfold State.ebbEnd
  extract_lets body s1
  exact hs.of_eq

theorem State.Keeps.execShutdown {s₀ s : State} (hs : s₀.Keeps s) {ns : Nat} {signatures : List (BitVec 64)}
    : s₀.Completes (Machine.execShutdown ns signatures s) := by
  unfold Machine.execShutdown
  refine .next ?_
  split
  · split
    · exact hs
    · extract_lets s1
      have hs1 : s₀.Keeps s1 := hs.ebbBegin
      split
      · exact hs1
      · exact hs1.ebbTest
  · split
    · exact hs.ebbWrite
    · exact hs.ebbStop.ebbTest
  · exact hs.ebbEnd
  · exact hs

theorem State.Keeps.execOperatingTimeWrite {s₀ s : State} (hs : s₀.Keeps s) : s₀.Completes
    (Machine.execOperatingTimeWrite s) := by
  exact (hs.reach.of_eq).next

theorem State.Keeps.offerTraces {s₀ s : State} {p : PartId} {c : ClusterId} {l : List TraceRec} (hs : s₀.Keeps s)
    : s₀.Keeps (s.offerTraces p c l) := by
  induction l generalizing s with
  | nil => exact hs.modCluster
  | cons r rest ih =>
    unfold State.offerTraces
    extract_lets payload src
    split
    · split
      · exact ih hs.offer
      · exact hs.modCluster
    · exact ih hs.offer

theorem State.Keeps.takeTrace {s₀ s : State} (hs : s₀.Keeps s) {p : PartId} {m : CoreTrace} : s₀.Keeps
    (s.takeTrace p m) := by
  unfold State.takeTrace
  split
  · extract_lets x s1 s2
    have hs1 : s₀.Keeps s1 := hs.modCluster
    have hs2 : s₀.Keeps s2 := hs1.each fun _ _ hs3 => hs3.loseRecord
    exact hs2.offerTraces
  · exact hs

theorem State.Keeps.execCounterSample {s₀ s : State} (hs : s₀.Keeps s) {p : PartId} {m : SampleIn} : s₀.Completes
    (Machine.execCounterSample p m s) := by
  unfold Machine.execCounterSample
  refine .next ?_
  split
  · extract_lets s1
    have hs1 : s₀.Keeps s1 := hs.offer
    exact hs1.each fun _ _ hs2 => hs2.takeTrace
  · exact hs

theorem State.Keeps.execTraceBatchClose {s₀ s : State} (hs : s₀.Keeps s) {p : PartId} : s₀.Completes
    (Machine.execTraceBatchClose p s) := by
  unfold Machine.execTraceBatchClose
  refine .next ?_
  split
  · exact hs.closeBatch
  · exact hs

theorem State.Keeps.execTraceBatchReceive {s₀ s : State} (hs : s₀.Keeps s) {dev : BitVec 8} {group : GroupId}
    {batch : List Byte} : s₀.Completes (Machine.execTraceBatchReceive dev group batch s) := by
  unfold Machine.execTraceBatchReceive
  refine .next ?_
  split
  · exact hs.takeBatch
  · exact hs

theorem State.Keeps.execRdptrWrite {s₀ s : State} (hs : s₀.Keeps s) {p : PartId} {value : BitVec 28} : s₀.Completes
    (Machine.execRdptrWrite p value s) := by
  unfold Machine.execRdptrWrite
  exact hs.modPart.next

theorem State.Keeps.execCapheldRelease {s₀ s : State} (hs : s₀.Keeps s) {p : PartId} : s₀.Completes
    (Machine.execCapheldRelease p s) := by
  unfold Machine.execCapheldRelease
  exact hs.modPart.next

theorem State.Keeps.afterStop {s₀ s : State} (hs : s₀.Keeps s) : s₀.Keeps s.afterStop := by
  unfold State.afterStop
  split
  · exact hs
  · extract_lets s1 s2
    have hs2 : s₀.Keeps s2 := hs.of_eq
    split
    · exact hs2.partFatalNow
    · exact hs2.devFatalNow

theorem State.Keeps.originate {s₀ s : State} (hs : s₀.Keeps s) {target : Stamp} : s₀.Keeps (s.originate target) := by
  unfold State.originate
  extract_lets id s1 s2
  have hs2 : s₀.Keeps s2 := hs.of_eq
  exact hs2.sendStop

theorem State.Keeps.execSlackTrigger {s₀ s : State} (hs : s₀.Keeps s) {p : PartId} {trigger : Fin 7} : s₀.Completes
    (Machine.execSlackTrigger p trigger s) := by
  unfold Machine.execSlackTrigger
  refine .next ?_
  split
  · extract_lets target s1 s2 s3 s4
    have hs2 : s₀.Keeps s2 := hs.originate
    split
    · exact hs.of_eq.ignoreStop.afterStop
    · exact hs2.of_eq
  · exact hs

theorem State.Keeps.execSlackNInput {s₀ s : State} (hs : s₀.Keeps s) : s₀.Completes (Machine.execSlackNInput s) := by
  unfold Machine.execSlackNInput
  refine .next ?_
  split
  · exact hs.of_eq
  · exact hs

theorem State.Keeps.leaveGate {s₀ s : State} (hs : s₀.Keeps s) {p : PartId} : s₀.Keeps (s.leaveGate p) := by
  unfold State.leaveGate
  exact hs.sendWithdraw.modPart

theorem State.Keeps.endScan {s₀ s : State} (hs : s₀.Keeps s) : s₀.Keeps s.endScan := by
  unfold State.endScan
  extract_lets s1 s2
  have hs2 : s₀.Keeps s2 := hs.of_eq
  refine .afterStop ?_
  exact hs2.setD29.each fun _ _ hs3 => hs3.recordGraph

theorem State.Keeps.execSlackStop {s₀ s : State} (hs : s₀.Keeps s) {stopA stopB : Stamp} {late : Bool}
    : s₀.Completes (Machine.execSlackStop stopA stopB late s) := by
  unfold Machine.execSlackStop
  refine .next ?_
  split
  · extract_lets s1 ps s2 mask noCap parts any s3 s4 s5
    have hs1 : s₀.Keeps s1 := hs.reach
    have hs2 : s₀.Keeps s2 := hs1.each fun _ _ hs6 => hs6.leaveGate.modPart
    have hs4 : s₀.Keeps s4 := hs2.of_eq
    have hs5 : s₀.Keeps s5 := by
      unfold s5
      split
      · exact hs4
      · exact hs4.writeMarkers
    split
    · exact hs5.setD29
    · exact hs5.endScan
  · exact hs

theorem State.Keeps.execSlackScanOut {s₀ s : State} (hs : s₀.Keeps s) {complete : Bool} : s₀.Completes
    (Machine.execSlackScanOut complete s) := by
  unfold Machine.execSlackScanOut
  refine .next ?_
  split
  · refine .endScan ?_
    exact hs.each fun _ _ hs1 => hs1.writeCapture
  · exact hs

theorem State.Keeps.reportBad {s₀ s : State} (hs : s₀.Keeps s) {r : Reg} : s₀.Keeps (s.reportBad r) := by
  unfold State.reportBad
  split
  · exact hs.emit
  · exact hs

theorem State.Keeps.putRc {s₀ s : State} (hs : s₀.Keeps s) {r : Reg} {w : BitVec 128} : s₀.Keeps (s.putRc r w) := by
  unfold State.putRc
  cases r with
  | checkStatus t | weightParity t | windowStatus t h | creditStatus t | tidewalkStatus t => exact hs.modTile_same
  | hbmStatus k => exact hs.modCtrl
  | portStatus p => exact hs.modPort
  | engineStatus e | fabricError e => exact hs.modEngine
  | dieClock d => exact hs.modDie
  | bandWord b => exact hs.modBand
  | partFault p | strandStatus p => exact hs.modPart
  | alertStatus | slackStatus => exact hs.of_eq
  | _ => exact hs

theorem State.Keeps.execRcRegisterRead {s₀ s : State} (hs : s₀.Keeps s) {r : Reg} {hwCounts : Nat} : s₀.Completes
    (Machine.execRcRegisterRead r hwCounts s) := by
  unfold Machine.execRcRegisterRead
  exact hs.putRc.emit.reportBad.next

theorem State.Keeps.writeEngine {s₀ s : State} (hs : s₀.Keeps s) {e : EngineId} {value : BitVec 64} : s₀.Keeps
    (s.writeEngine e value) := by
  unfold State.writeEngine
  extract_lets s1
  have hs1 : s₀.Keeps s1 := hs.modEngine
  split
  · exact hs1.toBypass
  · exact hs1

theorem State.Keeps.writeReg {s₀ s : State} (hs : s₀.Keeps s) {r : Reg} {value sets : BitVec 64} : s₀.Keeps
    (s.writeReg r value sets) := by
  unfold State.writeReg
  extract_lets bit
  split
  · exact hs.modTile_same
  · exact hs.modTile_same
  · exact hs.modTile_same
  · exact hs.modTile_same
  · exact hs.modTile_same
  · exact hs.modTile_same
  · exact hs.modCtrl
  · exact hs.writeEngine
  · exact hs.modPart
  · exact hs.modPart
  · exact hs

theorem State.Keeps.execRegisterWrite {s₀ s : State} (hs : s₀.Keeps s) {r : Reg} {value hwSets : BitVec 64}
    : s₀.Completes (Machine.execRegisterWrite r value hwSets s) := by
  unfold Machine.execRegisterWrite
  exact hs.writeReg.next

theorem State.Keeps.execTidewalkStepEnd {s₀ s : State} (hs : s₀.Keeps s) {t : TileId} {frozenAc : Nat}
    : s₀.Completes (Machine.execTidewalkStepEnd t frozenAc s) := by
  unfold Machine.execTidewalkStepEnd
  refine .next ?_
  split
  · exact hs
  · extract_lets n cycle ended s1 s2
    have hs1 : s₀.Keeps s1 := by
      unfold s1
      refine hs.modTile fun hTl => ?_
      extract_lets recent tl tl1
      have htl : tl.SpOk := hTl.of_eq
      have htl1 : tl1.SpOk := by
        unfold tl1
        split
        · exact htl
        · exact htl.touch
      split
      · exact htl1.modSeq
      · exact htl1
    have hs2 : s₀.Keeps s2 := by
      unfold s2
      split
      · exact hs1.count
      · exact hs1
    exact hs2.serveAll

theorem State.Keeps.execGuestBootComplete {s₀ s : State} (hs : s₀.Keeps s) {p : PartId} {good : Bool} : s₀.Completes
    (Machine.execGuestBootComplete p good s) := by
  unfold Machine.execGuestBootComplete
  refine .next ?_
  split
  · refine .fabricIfReady ?_
    split
    · exact hs.modPart
    · exact hs.modPart.raise
  · exact hs

theorem State.Keeps.execRefclkRecovery {s₀ s : State} (hs : s₀.Keeps s) {ppm : ℤ} : s₀.Completes
    (Machine.execRefclkRecovery ppm s) := by
  unfold Machine.execRefclkRecovery
  refine .next ?_
  split
  · exact hs.of_eq
  · exact hs

theorem State.Keeps.execFrameOutPulseEnd {s₀ s : State} (hs : s₀.Keeps s) : s₀.Completes (Machine.execFrameOutPulseEnd s)
    := by
  unfold Machine.execFrameOutPulseEnd
  exact hs.of_eq.next

theorem State.Keeps.execSlackNPulseEnd {s₀ s : State} (hs : s₀.Keeps s) : s₀.Completes (Machine.execSlackNPulseEnd s) := by
  unfold Machine.execSlackNPulseEnd
  exact hs.of_eq.next

theorem State.Keeps.execSlackStopMessageTimeout {s₀ s : State} (hs : s₀.Keeps s) : s₀.Completes
    (Machine.execSlackStopMessageTimeout s) := by
  unfold Machine.execSlackStopMessageTimeout
  refine .next ?_
  split
  · extract_lets s1
    have hs1 : s₀.Keeps s1 := hs.originate
    split
    · exact hs1.writeMarkers
    · exact hs1
  · exact hs

theorem State.Keeps.execIcmpv6Receive {s₀ s : State} (hs : s₀.Keeps s) {link : Nat} {src : BitVec 128}
    {mac : BitVec 48} {solicit : Option (BitVec 128)} {echo : Bool} : s₀.Completes
    (Machine.execIcmpv6Receive link src mac solicit echo s) := by
  unfold Machine.execIcmpv6Receive
  refine .next ?_
  split
  · split
    · exact hs.send
    · extract_lets others learned
      have hlearned : s₀.Keeps learned := hs.of_eq
      split
      · exact hlearned
      · split
        · exact hlearned.send
        · exact hs
  · exact hs

theorem State.Keeps.otpWrite {s₀ s : State} (hs : s₀.Keeps s) {x : OtpWrite} : s₀.Keeps (s.otpWrite x) := by
  unfold State.otpWrite
  extract_lets o fresh s1 s2 s3 s4
  have hs1 : s₀.Keeps s1 := hs.drawn
  split
  · exact hs.of_eq
  · exact hs.of_eq
  · split
    · exact hs
    · exact hs.of_eq
  · exact hs.of_eq
  · exact hs.of_eq
  · exact hs.of_eq
  · exact hs.of_eq
  · split
    · split
      · extract_lets ids
        exact hs1.of_eq
      · exact hs
  · exact hs.of_eq

theorem State.Keeps.jtagEffect {s₀ s : State} (hs : s₀.Keeps s) {net : JtagNet} : s₀.Keeps (s.jtagEffect net) := by
  unfold State.jtagEffect
  split
  · exact hs
  · exact hs
  · split
    · exact hs.otpWrite
    · exact hs
  · split
    · exact hs.of_eq
    · exact hs

theorem State.Keeps.execJtagAccess {s₀ s : State} (hs : s₀.Keeps s) {net : JtagNet} {data : BitVec 64}
    : s₀.Completes (Machine.execJtagAccess net data s) := by
  unfold Machine.execJtagAccess
  refine .next ?_
  split
  · exact hs
  · extract_lets out s1 s2
    have hs1 : s₀.Keeps s1 := hs.drawn
    have hs2 : s₀.Keeps s2 := hs1.of_eq.emit.jtagEffect
    split
    · exact hs2.setD29
    · exact hs2

end Sys2Proof.Machine
end

section
-- Hundreds of declarations elaborated side by side start more threads than there is memory for their stacks.
set_option Elab.async false
/-! ### Every command completes and keeps the queue and the memories (R258, log entries 1, 8 and 20) -/

namespace Sys2Proof.Machine

/-- The HBM address that a command names. -/
def hbmNamed? : Instr → Option HbmAddr
  | .hbmReadReplay a _ _ _ => some a
  | .hbmWriteReplay a _ _ => some a
  | .hbmHardErrorRepair a _ _ _ => some a
  | _ => none

theorem hbmExists_iff (a : HbmAddr) : hbmExists a = true ↔ a.toNat < 288 * 2 ^ 30 := decide_eq_true_iff

theorem hbmExists_eq_false_iff (a : HbmAddr) : hbmExists a = false ↔ 288 * 2 ^ 30 ≤ a.toNat := by
  rw [← Bool.not_eq_true, hbmExists_iff, Nat.not_lt]

/-- A command that names no address beyond the HBM completes. -/
theorem exec_completes (c : Instr) (s : State) (hc : ∀ a, hbmNamed? c = some a → hbmExists a = true) :
    s.Completes (exec c s) := by
  have h := State.Keeps.refl s
  cases c with
  | nop => exact h.execNop
  | loopSetn => exact h.execLoopSetn
  | loopSetq => exact h.execLoopSetq
  | loopBranch => exact h.execLoopBranch
  | loopJump => exact h.execLoopJump
  | waitcCount => exact h.execWaitcCount
  | waitcDone => exact h.execWaitcDone
  | waitcDoneRelease => exact h.execWaitcDoneRelease
  | macp => exact h.execMacp
  | passPresentation => exact h.execPassPresentation
  | replayPresentation => exact h.execReplayPresentation
  | groupSumLanding => exact h.execGroupSumLanding
  | ldw => exact h.execLdw
  | ldwHbmDone => exact h.execLdwHbmDone
  | swap => exact h.execSwap
  | aclr => exact h.execAclr
  | apre => exact h.execApre
  | adrn => exact h.execAdrn
  | prescan => exact h.execPrescan
  | ppu => exact h.execPpu
  | statOpen => exact h.execStatOpen
  | statClose => exact h.execStatClose
  | outpPass => exact h.execOutpPass
  | enginePartialsPresent => exact h.execEnginePartialsPresent
  | outpLoad => exact h.execOutpLoad
  | moveToScratchpad => exact h.execMoveToScratchpad
  | moveToStaging => exact h.execMoveToStaging
  | moveToInstructionPage => exact h.execMoveToInstructionPage
  | rput => exact h.execRput
  | rputCreditPresent => exact h.execRputCreditPresent
  | dmahToScratchpad => exact h.execDmahToScratchpad
  | dmahToHbm => exact h.execDmahToHbm
  | dmahDone => exact h.execDmahDone
  | rdvArrive => exact h.execRdvArrive
  | rdvWait => exact h.execRdvWait
  | rdvArriveWait => exact h.execRdvArriveWait
  | rdvWaitRelease => exact h.execRdvWaitRelease
  | rdvOverBudget => exact h.execRdvOverBudget
  | gate => exact h.execGate
  | tileDoneReport => exact h.execTileDoneReport
  | hint => exact h.execHint
  | twin => exact h.execTwin
  | fetchParityReplay => exact h.execFetchParityReplay
  | parityReplayEnd => exact h.execParityReplayEnd
  | frameStart => exact h.execFrameStart
  | tileFirstIssue => exact h.execTileFirstIssue
  | softStartEnd => exact h.execSoftStartEnd
  | putSegmentReceive => exact h.execPutSegmentReceive
  | putWriteLanded => exact h.execPutWriteLanded
  | ackReceive =>
    rw [exec]
    exact h.execAckReceive
  | nackReceive =>
    rw [exec]
    exact h.execNackReceive
  | grantReceive => exact h.execGrantReceive
  | creditRequest => exact h.execCreditRequest
  | readRequest => exact h.execReadRequest
  | readDataSegmentReceive => exact h.execReadDataSegmentReceive
  | advanceComplete => exact h.execAdvanceComplete
  | advanceTimeout => exact h.execAdvanceTimeout
  | fabricResponseTimeout =>
    rw [exec]
    exact h.execFabricResponseTimeout
  | dmaSubbankWait => exact h.execDmaSubbankWait
  | dualPortBusyRetry => exact h.execDualPortBusyRetry
  | dmaReadParityRetry => exact h.execDmaReadParityRetry
  | bankSleep => exact h.execBankSleep
  | bankWake => exact h.execBankWake
  | bankWakeDone => exact h.execBankWakeDone
  | tidewalkStep =>
    rw [exec]
    exact h.execTidewalkStep
  | hbmReadReplay a => exact h.execHbmReadReplay (hc a rfl)
  | hbmWriteReplay a => exact h.execHbmWriteReplay (hc a rfl)
  | hbmHardErrorRepair a => exact h.execHbmHardErrorRepair (hc a rfl)
  | verifyStart => exact h.execVerifyStart
  | verifyRun => exact h.execVerifyRun
  | verifyEnd => exact h.execVerifyEnd
  | periodicVerify => exact h.execPeriodicVerify
  | weightRepair => exact h.execWeightRepair
  | imageLoad => exact h.execImageLoad
  | admissionStage8Resume => exact h.execAdmissionStage8Resume
  | admissionLoad => exact h.execAdmissionLoad
  | variantRefill => exact h.execVariantRefill
  | enrolment => exact h.execEnrolment
  | lifeCycleTransition => exact h.execLifeCycleTransition
  | debugUnlock => exact h.execDebugUnlock
  | attestationRequest => exact h.execAttestationRequest
  | frameOverrun => exact h.execFrameOverrun
  | cancelArrivalReceive => exact h.execCancelArrivalReceive
  | deviceArrivalReceive => exact h.execDeviceArrivalReceive
  | frameAbortReport => exact h.execFrameAbortReport
  | frameCommit => exact h.execFrameCommit
  | frameBoundary => exact h.execFrameBoundary
  | gateReadySend => exact h.execGateReadySend
  | gateReadyRepeat => exact h.execGateReadyRepeat
  | gateReadyReceive => exact h.execGateReadyReceive
  | gateSourceEvent => exact h.execGateSourceEvent
  | gateFireReceive => exact h.execGateFireReceive
  | topologyAnnounce => exact h.execTopologyAnnounce
  | topologyAnnouncementReceive => exact h.execTopologyAnnouncementReceive
  | fabricFrameReceive => exact h.execFabricFrameReceive
  | transportDatagramReceive => exact h.execTransportDatagramReceive
  | laneSwap => exact h.execLaneSwap
  | laserFailover => exact h.execLaserFailover
  | linkTraining => exact h.execLinkTraining
  | trainingStageTimeout => exact h.execTrainingStageTimeout
  | capabilityRecordReceive => exact h.execCapabilityRecordReceive
  | bypassMove => exact h.execBypassMove
  | throughMove => exact h.execThroughMove
  | switchMoveDone => exact h.execSwitchMoveDone
  | beaconSend => exact h.execBeaconSend
  | beaconReceive => exact h.execBeaconReceive
  | alertLeavesCluster => exact h.execAlertLeavesCluster
  | alertMessageReceive => exact h.execAlertMessageReceive
  | alertPulseEnd => exact h.execAlertPulseEnd
  | partitionFatal => exact h.execPartitionFatal
  | deviceFatal => exact h.execDeviceFatal
  | dumpRelease => exact h.execDumpRelease
  | partitionReset => exact h.execPartitionReset
  | guestUnanswered => exact h.execGuestUnanswered
  | guestPageFault => exact h.execGuestPageFault
  | frameWatchdog => exact h.execFrameWatchdog
  | sdoWrite => exact h.execSdoWrite
  | sdoRead => exact h.execSdoRead
  | readList => exact h.execReadList
  | sdoInformation => exact h.execSdoInformation
  | commit => exact h.execCommit
  | rearm => exact h.execRearm
  | deviceCommitApply => exact h.execDeviceCommitApply
  | layoutChange => exact h.execLayoutChange
  | rxpdoTake => exact h.execRxpdoTake
  | txpdoFill => exact h.execTxpdoFill
  | pdoMappingWrite => exact h.execPdoMappingWrite
  | smWatchdogExpiry => exact h.execSmWatchdogExpiry
  | ecatStateTransition => exact h.execEcatStateTransition
  | foeWrite => exact h.execFoeWrite
  | foeRead => exact h.execFoeRead
  | firmwareSlotCheck => exact h.execFirmwareSlotCheck
  | firmwareTrialGood => exact h.execFirmwareTrialGood
  | powerControlTick => exact h.execPowerControlTick
  | pmbusSample => exact h.execPmbusSample
  | pmbAlert => exact h.execPmbAlert
  | stepAssert => exact h.execStepAssert
  | droopEvent => exact h.execDroopEvent
  | droopEventEnd => exact h.execDroopEventEnd
  | thermalSample => exact h.execThermalSample
  | thermalTrip => exact h.execThermalTrip
  | pllLockLoss => exact h.execPllLockLoss
  | refclkLoss => exact h.execRefclkLoss
  | bandSwitchOff => exact h.execBandSwitchOff
  | bandDrainTimeout => exact h.execBandDrainTimeout
  | bandRetEntry => exact h.execBandRetEntry
  | bandSwitchOn => exact h.execBandSwitchOn
  | bandRetExit => exact h.execBandRetExit
  | tamper => exact h.execTamper
  | powerOnReset => exact h.execPowerOnReset
  | warmReset => exact h.execWarmReset
  | watchdogRestart => exact h.execWatchdogRestart
  | watchdogExpiry => exact h.execWatchdogExpiry
  | startSequence => exact h.execStartSequence
  | shutdown => exact h.execShutdown
  | operatingTimeWrite => exact h.execOperatingTimeWrite
  | counterSample => exact h.execCounterSample
  | traceBatchClose => exact h.execTraceBatchClose
  | traceBatchReceive => exact h.execTraceBatchReceive
  | rdptrWrite => exact h.execRdptrWrite
  | capheldRelease => exact h.execCapheldRelease
  | slackTrigger => exact h.execSlackTrigger
  | slackNInput => exact h.execSlackNInput
  | slackStopMessageReceive => exact h.execSlackStopMessageReceive
  | slackStop => exact h.execSlackStop
  | slackScanOut => exact h.execSlackScanOut
  | rcRegisterRead => exact h.execRcRegisterRead
  | registerWrite => exact h.execRegisterWrite
  | tidewalkStepEnd => exact h.execTidewalkStepEnd
  | guestBootComplete => exact h.execGuestBootComplete
  | refclkRecovery => exact h.execRefclkRecovery
  | frameOutPulseEnd => exact h.execFrameOutPulseEnd
  | slackNPulseEnd => exact h.execSlackNPulseEnd
  | slackStopMessageTimeout => exact h.execSlackStopMessageTimeout
  | icmpv6Receive => exact h.execIcmpv6Receive
  | jtagAccess => exact h.execJtagAccess

/-- A command that names an address beyond the HBM is a fault. -/
theorem exec_eq_fault (c : Instr) (s : State) {a : HbmAddr} (hc : hbmNamed? c = some a) (ha : hbmExists a = false) :
    exec c s = .fault (.noSuchHbmAddress a) := by
  unfold hbmNamed? at hc
  split at hc
  case h_4 => cases hc
  all_goals
    cases hc
    exact if_neg (Bool.eq_false_iff.mp ha)

theorem keeps_of_exec {c : Instr} {s s' : State} (h : exec c s = .next s') : s.Keeps s' := by
  by_cases hc : ∀ a, hbmNamed? c = some a → hbmExists a = true
  · obtain ⟨t, ht, hKeeps⟩ := exec_completes c s hc
    cases ht.symm.trans h
    exact hKeeps
  · push Not at hc
    obtain ⟨a, hNamed, ha⟩ := hc
    cases (exec_eq_fault c s hNamed (Bool.eq_false_iff.mpr ha)).symm.trans h

/-- Settles O1: by the two cases of the queue. -/
theorem stepRunsFrontCommand : Obligations.StepRunsFrontCommand := by
  unfold Obligations.StepRunsFrontCommand
  constructor
  · intro s c rest hs
    rw [step, hs]
  · intro s hs
    have hIdle : step s = .next s.idle := by rw [step, hs]
    exact hIdle

/-- Settles O2: every command that completes keeps the queue. -/
theorem commandsLeaveTheQueue : Obligations.CommandsLeaveTheQueue := by
  unfold Obligations.CommandsLeaveTheQueue
  exact fun _ _ _ h => (keeps_of_exec h).pending

/-- Settles O3: the queue's front command keeps the memories, and so does an idle nanosecond. -/
theorem stepsKeepMemoryCanonical : Obligations.StepsKeepMemoryCanonical := by
  unfold Obligations.StepsKeepMemoryCanonical
  intro s s' hOk h
  cases hq : s.pending with
  | nil =>
    cases (stepRunsFrontCommand.2 s hq).symm.trans h
    exact hOk
  | cons c rest => exact (keeps_of_exec ((stepRunsFrontCommand.1 s c rest hq).symm.trans h)).memOk hOk

/-- Settles O60: a command completes unless the address it names lies beyond the HBM. -/
theorem everyCommandCompletes : Obligations.EveryCommandCompletes := by
  unfold Obligations.EveryCommandCompletes
  intro c s
  constructor
  · intro hc
    obtain ⟨t, ht, _⟩ := exec_completes c s fun a ha => (hbmExists_iff a).mpr (hc a ha)
    exact ⟨t, ht⟩
  · exact fun a ha hTop => exec_eq_fault c s ha ((hbmExists_eq_false_iff a).mpr hTop)

end Sys2Proof.Machine
end

section
/-! ### Sums and roundings of the tile accumulator (R85, R89, R90, R93, R95) -/

namespace Sys2Proof.Machine

theorem BitVec64.toInt_ofInt {v : Int} (hLo : -(2 ^ 63) ≤ v) (hHi : v ≤ 2 ^ 63 - 1) : (BitVec.ofInt 64 v).toInt = v :=
  BitVec.toInt_ofInt_eq_self (by decide) hLo (by omega)

/-! #### INT mode -/

theorem foldl_addInt_ovf (l : List Int) (pre : Entry) : (l.foldl Entry.addInt pre).ovf = pre.ovf := by
  induction l generalizing pre with
  | nil => rfl
  | cons v l ih => exact (ih (pre.addInt v)).trans rfl

theorem foldl_addInt_a (l : List Int) (pre : Entry) :
    (l.foldl Entry.addInt pre).a = BitVec.ofInt 64 (pre.a.toInt + l.sum) := by
  induction l generalizing pre with
  | nil => simp
  | cons v l ih =>
    rw [List.foldl_cons, ih, List.sum_cons, Entry.addInt]
    simp only [BitVec.ofInt_add, BitVec.ofInt_toInt]
    ac_rfl

/-- Settles O13: the container holds the sum modulo 2^64, which is the sum where it fits. -/
theorem integerSumIsExactInAnyOrder : Obligations.IntegerSumIsExactInAnyOrder := by
  unfold Obligations.IntegerSumIsExactInAnyOrder
  intro pre l hLo hHi
  refine ⟨?_, foldl_addInt_ovf l pre, fun l' hPerm => ?_⟩
  · rw [foldl_addInt_a, BitVec64.toInt_ofInt hLo hHi]
  · rw [foldl_addInt_a, foldl_addInt_a, hPerm.sum_eq]

/-! #### Rounding -/

theorem rneDiv_zero (b : Nat) : rneDiv 0 b = 0 := by
  simp [rneDiv]

theorem rneDiv_near (a : Int) {b : Nat} (hb : 0 < b) :
    2 * (a - rneDiv a b * b).natAbs ≤ b ∧ (2 * (a - rneDiv a b * b).natAbs = b → rneDiv a b % 2 = 0) := by
  have hMod : a % (b : Int) = a - a / (b : Int) * b := by
    rw [Int.emod_def, Int.mul_comm]
  have hNonneg : 0 ≤ a % (b : Int) := Int.emod_nonneg a (by omega)
  have hLt : a % (b : Int) < b := Int.emod_lt_of_pos a (by omega)
  have hNext : (a / (b : Int) + 1) * b = a / (b : Int) * b + b := by rw [Int.add_mul, Int.one_mul]
  unfold rneDiv
  dsimp only
  split
  · omega
  · split
    · rw [hNext]
      omega
    · split
      · omega
      · rw [hNext]
        omega

/-! #### Saturation -/

theorem clampI_eq {lo hi v : Int} : clampI lo hi v = if v < lo then lo else if hi < v then hi else v := rfl

theorem clampI_eq_self {lo hi v : Int} (hLo : lo ≤ v) (hHi : v ≤ hi) : clampI lo hi v = v := by
  rw [clampI, if_neg (by omega), if_neg (by omega)]

theorem ne_clampI_iff {lo hi v : Int} : v ≠ clampI lo hi v ↔ v < lo ∨ hi < v := by
  unfold clampI
  split
  · omega
  · split
    · omega
    · omega

theorem toInt_clamped (r : Int) :
    (BitVec.ofInt 64 (clampI (-(2 ^ 63)) (2 ^ 63 - 1) r)).toInt =
      if r < -(2 ^ 63) then -(2 ^ 63) else if 2 ^ 63 - 1 < r then 2 ^ 63 - 1 else r := by
  unfold clampI
  split
  · exact BitVec64.toInt_ofInt (by omega) (by omega)
  · split
    · exact BitVec64.toInt_ofInt (by omega) (by omega)
    · exact BitVec64.toInt_ofInt (by omega) (by omega)

/-- Settles O16: an aligned sum is stored clamped, and OVF says whether clamping changed it. -/
theorem runningAlignmentSaturates : Obligations.RunningAlignmentSaturates := by
  unfold Obligations.RunningAlignmentSaturates
  intro en v e he hv hUsed x a r
  have hAdd : en.addRunning v e = { en with
      a := BitVec.ofInt 64 (clampI (-(2 ^ 63)) (2 ^ 63 - 1) r), x := BitVec.ofInt 9 (max x e)
      ovf := en.ovf || decide (r ≠ clampI (-(2 ^ 63)) (2 ^ 63 - 1) r) } := by
    rw [Entry.addRunning, if_neg he, if_neg hv, if_neg (by simp [hUsed])]
  have hA : (en.addRunning v e).a.toInt = if r < -(2 ^ 63) then -(2 ^ 63) else if 2 ^ 63 - 1 < r then 2 ^ 63 - 1 else r := by
    rw [hAdd]
    exact toInt_clamped r
  refine ⟨?_, fun hLo hHi => ?_, fun hLow => ?_, fun hHigh => ?_⟩
  · rw [hAdd, Bool.or_eq_true, decide_eq_true_iff, ne_clampI_iff]
  · rw [hA, if_neg (by omega), if_neg (by omega)]
  · rw [hA, if_pos hLow]
  · rw [hA, if_neg (by omega), if_pos hHigh]

/-! #### Preload in INT mode -/

@[simp] theorem Tile.slot_modSlot_same (tl : Tile) (a : Nat) (f : Slot → Slot) : (tl.modSlot a f).slot a = f (tl.slot a) :=
  Store.get_set_same _ _ _ _

theorem preload_int_fin {tl : Tile} {a o fmt src : Nat} {psh m e : Int} (hMode : (tl.slot a).mode = 0)
    (hElem : preElem tl fmt src o = .fin m e) :
    Store.get {} ((tl.preload a o fmt psh src).slot a).entries o =
      { a := BitVec.ofInt 64 (clampI (-(2 ^ 63)) (2 ^ 63 - 1) (rneScale m (e + psh))), used := true
        ovf := decide (rneScale m (e + psh) ≠ clampI (-(2 ^ 63)) (2 ^ 63 - 1) (rneScale m (e + psh))) } := by
  simp [Tile.preload, hMode, hElem]

theorem preload_int_bad {tl : Tile} {a o fmt src : Nat} {psh : Int} (hMode : (tl.slot a).mode = 0)
    (hElem : preElem tl fmt src o = .bad) :
    Store.get {} ((tl.preload a o fmt psh src).slot a).entries o = { used := true, nonfin := true } := by
  simp [Tile.preload, hMode, hElem]

/-- Settles O17: the element is rounded and clamped, and the rounding leaves at most half a divisor. -/
theorem integerPreloadRoundsToNearestEven : Obligations.IntegerPreloadRoundsToNearestEven := by
  unfold Obligations.IntegerPreloadRoundsToNearestEven
  refine ⟨fun tl a o fmt psh src hMode => ?_, fun a b hb => rneDiv_near a hb⟩
  dsimp only
  refine ⟨fun m e hElem => ?_, fun hElem => ?_⟩
  · rw [preload_int_fin hMode hElem]
    refine ⟨rfl, ?_, toInt_clamped _⟩
    rw [decide_eq_true_iff, ne_clampI_iff]
  · rw [preload_int_bad hMode hElem]
    exact ⟨rfl, rfl⟩

/-! #### Fixed alignment -/

theorem halves_append (w : BitVec 128) : w.extractLsb' 64 64 ++ w.extractLsb' 0 64 = w :=
  (BitVec.extractLsb'_append_extractLsb'_eq_extractLsb' (start₁ := 0) (len₁ := 64) rfl).trans BitVec.extractLsb'_eq_self

/-- The two halves of a container hold the sum `t` of the elements so far, at the prescanned exponent `m`. -/
structure HoldsFixed (m : Nat) (y : Entry × Entry × Bool) (t : Int) : Prop where
  sum : y.1.a ++ y.2.1.a = BitVec.ofInt 128 t
  exponent : y.1.used = true → y.1.x.toInt = m
  empty : y.1.used = false → t = 0
  noMiss : y.2.2 = false

/-- The step of O15's fold. -/
def addFixedStep (m : Nat) (y : Entry × Entry × Bool) (x : Int × Nat) : Entry × Entry × Bool :=
  let r := addFixed y.1 y.2.1 (some m) x.1 x.2
  (r.1, r.2.1, y.2.2 || r.2.2)

theorem holdsFixed_step {m : Nat} {y : Entry × Entry × Bool} {t : Int} (h : HoldsFixed m y t) {x : Int × Nat}
    (hm : m ≤ 254) (hx : x.2 ≤ m) :
    HoldsFixed m (addFixedStep m y x) (t + rneDiv (x.1 * 2 ^ 64) (2 ^ (m - x.2))) := by
  obtain ⟨en, lo, miss⟩ := y
  obtain ⟨v, e⟩ := x
  obtain ⟨hSum, hExp, hEmpty, hMiss⟩ := h
  dsimp only at hSum hExp hEmpty hMiss hx
  subst hMiss
  unfold addFixedStep addFixed
  dsimp only
  rw [if_neg (by omega)]
  by_cases hv : v = 0
  · rw [if_pos hv, hv, Int.zero_mul, rneDiv_zero, Int.add_zero]
    exact ⟨hSum, hExp, hEmpty, rfl⟩
  · rw [if_neg hv]
    have hX0 : (if en.used then en.x.toInt else max (m : Int) e) = m := by
      split
      · exact hExp ‹_›
      · omega
    have hA0 : BitVec.ofInt 128 (if en.used then wideOf en lo else 0) = BitVec.ofInt 128 t := by
      split
      · rw [wideOf, BitVec.ofInt_toInt, hSum]
      · rw [hEmpty (by simpa using ‹¬ en.used = true›)]
    have hNoMiss : ¬ (m : Int) < e := by omega
    have hMax : max (m : Int) e = m := by omega
    have hShift : ((m : Int) - e).toNat = m - e := by omega
    simp only [hX0]
    simp only [hNoMiss, decide_false, Bool.false_eq_true, if_false, hMax, hShift, Bool.or_false]
    refine ⟨?_, fun _ => ?_, fun hUsed => by simp at hUsed, rfl⟩
    · dsimp only
      rw [halves_append, BitVec.ofInt_add, hA0, BitVec.ofInt_add]
    · exact BitVec.toInt_ofInt_eq_self (by decide) (by omega) (by omega)

theorem holdsFixed_foldl {m : Nat} (hm : m ≤ 254) (l : List (Int × Nat)) {y : Entry × Entry × Bool} {t : Int}
    (h : HoldsFixed m y t) (hl : ∀ x ∈ l, x.2 ≤ m) :
    HoldsFixed m (l.foldl (addFixedStep m) y) (t + (l.map fun x => rneDiv (x.1 * 2 ^ 64) (2 ^ (m - x.2))).sum) := by
  induction l generalizing y t with
  | nil => simpa using h
  | cons x l ih =>
    rw [List.foldl_cons, List.map_cons, List.sum_cons, ← Int.add_assoc]
    exact ih (holdsFixed_step h hm (hl x (by simp))) fun z hz => hl z (by simp [hz])

/-- Settles O15: the container's halves hold the sum of the rounded elements at every prefix. -/
theorem fixedAlignmentDoesNotDependOnOrder : Obligations.FixedAlignmentDoesNotDependOnOrder := by
  unfold Obligations.FixedAlignmentDoesNotDependOnOrder
  intro m l hm hl
  have hStart : HoldsFixed m ({}, {}, false) 0 := ⟨rfl, by simp, fun _ => rfl, rfl⟩
  have hEnd := holdsFixed_foldl hm l hStart hl
  rw [Int.zero_add] at hEnd
  exact ⟨hEnd.sum, hEnd.noMiss⟩

end Sys2Proof.Machine
end

section
/-! ### Residue check of a sound pass (R42, R49, R51, R110, R111) -/

namespace Sys2Proof.Machine

theorem foldl_add_eq_sum {α : Type} (f : α → Int) (l : List α) (a : Int) :
    l.foldl (fun n x => n + f x) a = a + (l.map f).sum := by
  induction l generalizing a with
  | nil => simp
  | cons x l ih => rw [List.foldl_cons, ih, List.map_cons, List.sum_cons, Int.add_assoc]

theorem sum_map_add_int {α : Type} (f g : α → Int) (l : List α) :
    (l.map fun x => f x + g x).sum = (l.map f).sum + (l.map g).sum := List.sum_map_add

/-- A sum over keys of the terms that bear the key is the sum of the terms whose key occurs. -/
theorem sum_map_ite_eq_of_nodup {L : List Nat} (hL : L.Nodup) (k : Nat) (v : Int) :
    (L.map fun g => if k = g then v else 0).sum = if L.contains k then v else 0 := by
  induction L with
  | nil => simp
  | cons g L ih =>
    obtain ⟨hg, hL⟩ := List.nodup_cons.mp hL
    rw [List.map_cons, List.sum_cons, ih hL, List.contains_cons]
    by_cases hk : k = g
    · subst hk
      simp [hg]
    · simp [hk]

/-- The sum of `f` over the rows that a pass drives, by cell: a row whose group is not enabled, or whose activation is 0,
adds nothing. -/
def cellTerm (b : Bank) (hf : Half) (p : Pass) (f : Int × Nat → Int) (c : Nat × BitVec 144) : Int :=
  let a := activationOf p.bfp p.bm1 p.asgn (Store.get 0 hf.acts c.1)
  if a = 0 then 0 else f (a, steeredRow b.steer c.2)

theorem sum_drivenRows (b : Bank) (hf : Half) (p : Pass) (groups : List Nat) (f : Int × Nat → Int) :
    ((drivenRows b hf p groups).map f).sum =
      (b.cells.map fun c => if groups.contains (c.1 / 64) then cellTerm b hf p f c else 0).sum := by
  unfold drivenRows
  induction b.cells with
  | nil => rfl
  | cons c cells ih =>
    rw [List.map_cons, List.sum_cons, ← ih, List.filter_cons]
    by_cases hg : groups.contains (c.1 / 64) = true
    · rw [if_pos hg, if_pos hg, List.filterMap_cons, cellTerm]
      by_cases ha : activationOf p.bfp p.bm1 p.asgn (Store.get 0 hf.acts c.1) = 0
      · simp only [if_pos ha, Int.zero_add]
      · simp only [if_neg ha, List.map_cons, List.sum_cons]
    · rw [if_neg hg, if_neg hg, Int.zero_add]

/-- The groups that a pass keeps apart add up to all rows that it drives. -/
theorem sum_parts_drivenRows (b : Bank) (hf : Half) (p : Pass) (f : Int × Nat → Int) :
    (p.parts.map fun part => ((drivenRows b hf p part.2).map f).sum).sum =
      ((drivenRows b hf p (onesOf p.rgmask)).map f).sum := by
  unfold Pass.parts
  split
  · simp only [List.map_map, Function.comp_def, sum_drivenRows]
    induction b.cells with
    | nil => simp
    | cons c cells ih =>
      simp only [List.map_cons, List.sum_cons, sum_map_add_int, ih]
      congr 1
      simpa using sum_map_ite_eq_of_nodup (nodup_onesOf p.rgmask) (c.1 / 64) (cellTerm b hf p f c)
  · simp

theorem sum_outSums (b : Bank) (rows : List (Int × Nat)) :
    (outSums b rows id).sum = (rows.map fun r => r.1 *
      ((List.range (outsOf b.pm1)).map (weightOf (rowData r.2) (b.pm1.toNat + 1) (b.wsgn = 1))).sum).sum := by
  simp only [outSums, foldl_add_eq_sum, Int.zero_add, id]
  induction rows with
  | nil => simp
  | cons r rows ih => simp only [List.map_cons, List.sum_cons, sum_map_add_int, ih, List.sum_map_mul_left]

theorem map_getD_range (l : List Int) : ((List.range l.length).map fun k => l.getD k 0) = l :=
  List.ext_getElem (by simp) fun k _ hk => by simp [hk]

theorem sum_presentMac (tl : Tile) (p : Pass) (m : Nat) (phys : BitVec 1) :
    ((presentMac tl p [] m phys).elems.map Elem.val).sum = (p.parts.map fun part =>
      (outSums ((tl.mac m).bank phys) (drivenRows ((tl.mac m).bank phys) ((tl.mac m).half p.half) p part.2) id).sum).sum := by
  unfold presentMac
  dsimp only
  induction p.parts with
  | nil => rfl
  | cons part parts ih =>
    rw [List.flatMap_cons, List.map_append, List.sum_append, ih, List.map_cons, List.sum_cons, List.map_map]
    simp only [Function.comp_def, upsetAt, List.foldl_nil, Int.add_zero, map_getD_range]

theorem rowSum_modEq (data p : Nat) (wsgn : Bool) :
    (rowSum data p wsgn : Int) ≡ ((List.range (128 / p)).map (weightOf data p wsgn)).sum [ZMOD 255] := by
  rw [rowSum, foldl_add_eq_sum, Int.zero_add, Int.toNat_of_nonneg (Int.emod_nonneg _ (by decide))]
  exact Int.mod_modEq _ _

/-- Sums of terms that agree modulo `n` agree modulo `n`. -/
theorem sum_modEq {α : Type} {n : Int} {f g : α → Int} {l : List α} (h : ∀ x ∈ l, f x ≡ g x [ZMOD n]) :
    (l.map f).sum ≡ (l.map g).sum [ZMOD n] := by
  induction l with
  | nil => rfl
  | cons x l ih =>
    exact (h x (by simp)).add (ih fun y hy => h y (by simp [hy]))

theorem mem_drivenRows {b : Bank} {hf : Half} {p : Pass} {groups : List Nat} {r : Int × Nat}
    (h : r ∈ drivenRows b hf p groups) : ∃ c ∈ b.cells, r.2 = steeredRow b.steer c.2 := by
  obtain ⟨c, hc, hr⟩ := List.mem_filterMap.mp h
  refine ⟨c, (List.mem_filter.mp hc).1, ?_⟩
  dsimp only at hr
  split at hr
  · cases hr
  · cases hr
    rfl

/-- Settles O18: each driven row adds its activation times its weights to the partials and times its checksum byte to the
checksum, and the two agree modulo 255. -/
theorem soundPassPassesResidueCheck : Obligations.SoundPassPassesResidueCheck := by
  unfold Obligations.SoundPassPassesResidueCheck
  intro tl p m phys b hRows
  have hSum : ((presentMac tl p [] m phys).elems.map Elem.val).sum ≡
      ((drivenRows b ((tl.mac m).half p.half) p (onesOf p.rgmask)).map fun r => r.1 * (rowCheck r.2 : Int)).sum
      [ZMOD 255] := by
    rw [sum_presentMac]
    simp only [sum_outSums]
    rw [sum_parts_drivenRows]
    refine sum_modEq fun r hr => ?_
    obtain ⟨c, hc, hRow⟩ := mem_drivenRows hr
    rw [hRow, hRows c hc]
    exact (rowSum_modEq _ _ _).symm.mul_left _
  unfold residueBad checkSum
  simp only [List.foldl_nil, foldl_add_eq_sum, Int.zero_add, Int.add_zero]
  exact bne_eq_false_iff_eq.mpr hSum

end Sys2Proof.Machine
end

section
/-! ### The write port and the steered row (R38 to R40) -/

namespace Sys2Proof.Machine

/-- Word `w` of a row with even parity: 32 bits of data, two of the checksum byte, one of parity (R38, R39). -/
def rowWord (data chk w : Nat) : Nat :=
  let v := fieldN data (32 * w + 31) (32 * w) + fieldN chk (2 * w + 1) (2 * w) * 2 ^ 32
  v + popcount (BitVec.ofNat 34 v) % 2 * 2 ^ 34

/-- The 140 columns of a row before steering. -/
def rowBits (data chk : Nat) : Nat :=
  rowWord data chk 0 + rowWord data chk 1 * 2 ^ 35 + rowWord data chk 2 * 2 ^ 70 + rowWord data chk 3 * 2 ^ 105

theorem range_four : List.range 4 = [0, 1, 2, 3] := rfl

theorem foldl_add_range_four (f : Nat → Nat) : (List.range 4).foldl (fun n w => n + f w) 0 = f 0 + f 1 + f 2 + f 3 := by
  simp [range_four]

theorem fieldN_lt (v hi lo : Nat) : fieldN v hi lo < 2 ^ (hi + 1 - lo) := Nat.mod_lt _ (Nat.two_pow_pos _)

theorem rowWord_lt (data chk w : Nat) : rowWord data chk w < 2 ^ 35 := by
  have hData : fieldN data (32 * w + 31) (32 * w) < 2 ^ 32 := by
    simpa [show 32 * w + 31 + 1 - 32 * w = 32 by omega] using fieldN_lt data (32 * w + 31) (32 * w)
  have hChk : fieldN chk (2 * w + 1) (2 * w) < 2 ^ 2 := by
    simpa [show 2 * w + 1 + 1 - 2 * w = 2 by omega] using fieldN_lt chk (2 * w + 1) (2 * w)
  unfold rowWord
  dsimp only
  omega

/-! #### Parity -/

theorem popcount_ofNat_succ (n u : Nat) :
    popcount (BitVec.ofNat (n + 1) u) = popcount (BitVec.ofNat n u) + b2n (u.testBit n) := by
  unfold popcount onesOf
  rw [List.range_succ, List.filter_append, List.length_append]
  congr 1
  · congr 1
    refine List.filter_congr fun i hi => ?_
    have hi : i < n := List.mem_range.mp hi
    simp only [BitVec.getLsbD_ofNat, hi, Nat.lt_succ_of_lt hi]
  · cases h : u.testBit n with
    | true => simp [BitVec.getLsbD_ofNat, h, b2n]
    | false => simp [BitVec.getLsbD_ofNat, h, b2n]

/-- A word with its parity bit on top holds an even number of ones. -/
theorem popcount_withParity {n v : Nat} (hv : v < 2 ^ n) :
    popcount (BitVec.ofNat (n + 1) (v + popcount (BitVec.ofNat n v) % 2 * 2 ^ n)) % 2 = 0 := by
  have hLow (k : Nat) : BitVec.ofNat n (v + k * 2 ^ n) = BitVec.ofNat n v := by
    apply BitVec.eq_of_toNat_eq
    simp
  have hTop {k : Nat} (hk : k < 2) : b2n ((v + k * 2 ^ n).testBit n) = k := by
    have hDiv : (v + k * 2 ^ n) / 2 ^ n = k := by
      rw [Nat.add_mul_div_right _ _ (Nat.two_pow_pos n), Nat.div_eq_of_lt hv, Nat.zero_add]
    rw [Nat.testBit_eq_decide_div_mod_eq, hDiv, Nat.mod_eq_of_lt hk, b2n]
    split
    · simp_all
    · simp_all
      omega
  rw [popcount_ofNat_succ, hLow, hTop (Nat.mod_lt _ (by decide))]
  omega

theorem popcount_rowWord (data chk w : Nat) : popcount (BitVec.ofNat 35 (rowWord data chk w)) % 2 = 0 := by
  refine popcount_withParity (n := 34) ?_
  have hData := fieldN_lt data (32 * w + 31) (32 * w)
  have hChk := fieldN_lt chk (2 * w + 1) (2 * w)
  rw [show 32 * w + 31 + 1 - 32 * w = 32 by omega] at hData
  rw [show 2 * w + 1 + 1 - 2 * w = 2 by omega] at hChk
  omega

/-! #### The fields of a row -/

theorem rowBits_lt (data chk : Nat) : rowBits data chk < 2 ^ 140 := by
  have h0 := rowWord_lt data chk 0
  have h1 := rowWord_lt data chk 1
  have h2 := rowWord_lt data chk 2
  have h3 := rowWord_lt data chk 3
  unfold rowBits
  omega

theorem rowBits_word (data chk : Nat) {w : Nat} (hw : w < 4) :
    rowBits data chk / 2 ^ (35 * w) % 2 ^ 35 = rowWord data chk w := by
  have h0 := rowWord_lt data chk 0
  have h1 := rowWord_lt data chk 1
  have h2 := rowWord_lt data chk 2
  have h3 := rowWord_lt data chk 3
  unfold rowBits
  interval_cases w <;> omega

theorem fieldN_rowBits (data chk : Nat) {w hi lo : Nat} (hw : w < 4) (hHi : hi < 35) :
    fieldN (rowBits data chk) (35 * w + hi) (35 * w + lo) = fieldN (rowWord data chk w) hi lo := by
  rw [← rowBits_word data chk hw]
  unfold fieldN
  rw [show 35 * w + hi + 1 - (35 * w + lo) = hi + 1 - lo by omega, Nat.pow_add, ← Nat.div_div_eq_div_mul]
  apply Nat.eq_of_testBit_eq
  intro i
  simp only [Nat.testBit_mod_two_pow, Nat.testBit_div_two_pow]
  by_cases hi' : i < hi + 1 - lo
  · simp [hi', show i + lo < 35 by omega]
  · simp [hi']

theorem fieldN_rowWord_data (data chk w : Nat) : fieldN (rowWord data chk w) 31 0 = data / 2 ^ (32 * w) % 2 ^ 32 := by
  have hData : fieldN data (32 * w + 31) (32 * w) = data / 2 ^ (32 * w) % 2 ^ 32 := by
    rw [fieldN, show 32 * w + 31 + 1 - 32 * w = 32 by omega]
  have hLt : data / 2 ^ (32 * w) % 2 ^ 32 < 2 ^ 32 := Nat.mod_lt _ (by decide)
  rw [rowWord, hData, fieldN]
  omega

theorem fieldN_rowWord_chk (data chk w : Nat) : fieldN (rowWord data chk w) 33 32 = chk / 2 ^ (2 * w) % 2 ^ 2 := by
  have hData : fieldN data (32 * w + 31) (32 * w) < 2 ^ 32 := by
    simpa [show 32 * w + 31 + 1 - 32 * w = 32 by omega] using fieldN_lt data (32 * w + 31) (32 * w)
  have hChk : fieldN chk (2 * w + 1) (2 * w) = chk / 2 ^ (2 * w) % 2 ^ 2 := by
    rw [fieldN, show 2 * w + 1 + 1 - 2 * w = 2 by omega]
  have hLt : chk / 2 ^ (2 * w) % 2 ^ 2 < 2 ^ 2 := Nat.mod_lt _ (by decide)
  rw [rowWord, hChk]
  generalize fieldN data (32 * w + 31) (32 * w) = d at *
  generalize chk / 2 ^ (2 * w) % 2 ^ 2 = c at *
  unfold fieldN
  omega

theorem rowData_rowBits {data : Nat} (chk : Nat) (h : data < 2 ^ 128) : rowData (rowBits data chk) = data := by
  have hWord {w : Nat} (hw : w < 4) := (fieldN_rowBits data chk (lo := 0) hw (by decide : 31 < 35)).trans
    (fieldN_rowWord_data data chk w)
  have h0 := hWord (by decide : 0 < 4)
  have h1 := hWord (by decide : 1 < 4)
  have h2 := hWord (by decide : 2 < 4)
  have h3 := hWord (by decide : 3 < 4)
  simp only [Nat.add_zero] at h0 h1 h2 h3
  rw [rowData, foldl_add_range_four, h0, h1, h2, h3]
  simp only [Nat.reduceMul, Nat.reducePow] at h ⊢
  omega

theorem rowCheck_rowBits (data : Nat) {chk : Nat} (h : chk < 256) : rowCheck (rowBits data chk) = chk := by
  have hWord {w : Nat} (hw : w < 4) := (fieldN_rowBits data chk (lo := 32) hw (by decide : 33 < 35)).trans
    (fieldN_rowWord_chk data chk w)
  have h0 := hWord (by decide : 0 < 4)
  have h1 := hWord (by decide : 1 < 4)
  have h2 := hWord (by decide : 2 < 4)
  have h3 := hWord (by decide : 3 < 4)
  rw [rowCheck, foldl_add_range_four, h0, h1, h2, h3]
  omega

theorem rowParityBad_rowBits (data chk : Nat) : rowParityBad (rowBits data chk) = [] := by
  refine List.filter_eq_nil_iff.mpr fun w hw => ?_
  have hField : fieldN (rowBits data chk) (35 * w + 34) (35 * w) = rowWord data chk w := by
    rw [← rowBits_word data chk (List.mem_range.mp hw), fieldN, show 35 * w + 34 + 1 - 35 * w = 35 by omega]
  rw [hField, beq_iff_eq, popcount_rowWord]
  decide

/-! #### Steering -/

/-- The spare column `n` of a row: the column that its field names, where it names one of the 140. -/
def spareBit (steer : BitVec 32) (r n : Nat) : Bool :=
  let f := fieldN steer.toNat (8 * n + 7) (8 * n)
  decide (f < 140) && r.testBit f

theorem rowCells_eq (steer : BitVec 32) (data chk : Nat) :
    rowCells steer data chk = BitVec.ofNat 144 (2 ^ 140 * (b2n (spareBit steer (rowBits data chk) 0) +
      b2n (spareBit steer (rowBits data chk) 1) * 2 + b2n (spareBit steer (rowBits data chk) 2) * 4 +
      b2n (spareBit steer (rowBits data chk) 3) * 8) + rowBits data chk) := by
  have hRow : (List.range 4).foldl (fun n w =>
      let v := fieldN data (32 * w + 31) (32 * w) + fieldN chk (2 * w + 1) (2 * w) * 2 ^ 32
      n + (v + popcount (BitVec.ofNat 34 v) % 2 * 2 ^ 34) * 2 ^ (35 * w)) 0 = rowBits data chk := by
    rw [foldl_add_range_four]
    simp [rowBits, rowWord]
  have hAdd (c : BitVec 144) (n : Nat) :
      (if fieldN steer.toNat (8 * n + 7) (8 * n) < 140
        then c + BitVec.ofNat 144 (b2n (bitN (rowBits data chk) (fieldN steer.toNat (8 * n + 7) (8 * n))) * 2 ^ (140 + n))
        else c) = c + BitVec.ofNat 144 (b2n (spareBit steer (rowBits data chk) n) * 2 ^ (140 + n)) := by
    unfold spareBit
    split
    · simp [bitN, *]
    · simp [b2n, *]
  unfold rowCells
  rw [hRow]
  simp only [hAdd, range_four, List.foldl_cons, List.foldl_nil, ← BitVec.ofNat_add]
  simp only [Nat.reduceAdd, Nat.reducePow]
  congr 1
  omega

theorem getLsbD_rowCells (steer : BitVec 32) (data chk : Nat) {p : Nat} (hp : p < 140) :
    (rowCells steer data chk).getLsbD p = (rowBits data chk).testBit p := by
  rw [rowCells_eq, BitVec.getLsbD_ofNat, Nat.testBit_two_pow_mul_add _ (rowBits_lt data chk), if_pos hp]
  simp [show p < 144 by omega]

theorem testBit_bits4 (b0 b1 b2 b3 : Bool) {n : Nat} (hn : n < 4) :
    (b2n b0 + b2n b1 * 2 + b2n b2 * 4 + b2n b3 * 8).testBit n = [b0, b1, b2, b3].getD n false := by
  revert b0 b1 b2 b3
  interval_cases n <;> decide

theorem getLsbD_rowCells_spare (steer : BitVec 32) (data chk : Nat) {n : Nat} (hn : n < 4) :
    (rowCells steer data chk).getLsbD (140 + n) = spareBit steer (rowBits data chk) n := by
  rw [rowCells_eq, BitVec.getLsbD_ofNat, Nat.testBit_two_pow_mul_add _ (rowBits_lt data chk), if_neg (by omega),
    Nat.add_sub_cancel_left, testBit_bits4 _ _ _ _ hn, decide_eq_true (by omega), Bool.true_and]
  interval_cases n <;> rfl

theorem getLsbD_physCol (steer : BitVec 32) (data chk : Nat) {p : Nat} (hp : p < 140) :
    (rowCells steer data chk).getLsbD (physCol steer p) = (rowBits data chk).testBit p := by
  unfold physCol
  split
  next n hFind =>
    have hField : fieldN steer.toNat (8 * n + 7) (8 * n) = p := by simpa using List.find?_some hFind
    have hn : n < 4 := List.mem_range.mp (List.mem_of_find?_eq_some hFind)
    rw [getLsbD_rowCells_spare steer data chk hn, spareBit]
    simp [hField, hp]
  next => exact getLsbD_rowCells steer data chk hp

theorem foldl_bits (f : Nat → Bool) (r k : Nat) (hf : ∀ p < k, f p = r.testBit p) :
    (List.range k).foldl (fun n p => n + b2n (f p) * 2 ^ p) 0 = r % 2 ^ k := by
  induction k with
  | zero => simp [Nat.mod_one]
  | succ k ih =>
    rw [List.range_succ, List.foldl_append, ih fun p hp => hf p (by omega), List.foldl_cons, List.foldl_nil,
      hf k (by omega), Nat.mod_pow_succ, Nat.testBit_eq_decide_div_mod_eq, Nat.mul_comm]
    congr 2
    unfold b2n
    split
    · simp_all
    · simp_all

/-- Under any steering word a stored row reads as the columns that were written. -/
theorem steeredRow_rowCells (steer : BitVec 32) (data chk : Nat) :
    steeredRow steer (rowCells steer data chk) = rowBits data chk := by
  have hMod : rowBits data chk % 2 ^ 140 = rowBits data chk := Nat.mod_eq_of_lt (rowBits_lt data chk)
  unfold steeredRow
  split
  · apply Nat.eq_of_testBit_eq
    intro i
    rw [Nat.testBit_mod_two_pow, BitVec.testBit_toNat]
    by_cases hi : i < 140
    · rw [decide_eq_true hi, Bool.true_and, getLsbD_rowCells steer data chk hi]
    · rw [decide_eq_false hi, Bool.false_and]
      exact (Nat.testBit_lt_two_pow ((rowBits_lt data chk).trans_le (Nat.pow_le_pow_right (by decide) (by omega)))).symm
  · rw [foldl_bits _ _ _ fun p hp => getLsbD_physCol steer data chk hp, hMod]

/-- Settles O19: the steered row is the row written, whose words hold the data, the checksum byte and even parity. -/
theorem storedRowReadsBack : Obligations.StoredRowReadsBack := by
  unfold Obligations.StoredRowReadsBack
  intro steer data chk hData hChk
  dsimp only
  rw [steeredRow_rowCells]
  exact ⟨rowData_rowBits chk hData, rowCheck_rowBits data hChk, rowParityBad_rowBits data chk⟩

end Sys2Proof.Machine
end

section
/-! ### Register reads, and records offered to a ring (R12, R13, R271, R460 to R470) -/

namespace Sys2Proof.Machine

/-- Refutes O59: a read of an HBM controller's status word also delivers its bad-access list (R271), so that two messages
leave, not one. -/
theorem not_readsClearAndWritesByCode : ¬ Obligations.ReadsClearAndWritesByCode := by
  unfold Obligations.ReadsClearAndWritesByCode
  rintro ⟨hRead, _⟩
  obtain ⟨s', hExec, hSent, _⟩ := hRead State.reset (.hbmStatus 0) 0
  cases hExec
  exact absurd (congrArg List.length hSent) (by decide)

/-! #### Records -/

theorem State.loseRecord_part_same (s : State) (p : PartId) (ts : Stamp) (why : BitVec 8) :
    (s.loseRecord p ts why).part p = { s.part p with strand := (s.part p).strand.lose ts why } := by
  rw [State.loseRecord, State.setStrand_part, if_pos rfl]

/-- What becomes of an offered record: it is lost, and surely so when no HBM slot is unused; or it is written, and the
losses in hand are recorded. -/
theorem State.offer_cases (s : State) (p : PartId) (kind : Nat) (src : BitVec 24) (ts : Stamp) (ids : Ids) (fl : BitVec 8)
    (l : List Byte) :
    (∃ why, s.offer p kind src ts ids fl l = s.loseRecord p ts why) ∨
    (Config.slotBusy p.val (s.part p).strand.seq = false ∧ ∃ m w b wr, s.offer p kind src ts ids fl l =
      ({ s with hbm := m, obsWindow := w, obsBytes := b } : State).setStrand p
        { (s.part p).strand with
          wrptr := wr, full := false, seq := (s.part p).strand.seq + 1, lossCount := 0, lossReasons := 0 }) := by
  unfold State.offer
  dsimp only
  split
  · exact .inl ⟨_, rfl⟩
  · split
    · exact .inl ⟨_, rfl⟩
    next hFree =>
      rw [State.foldl_hbmWrite]
      exact .inr ⟨Bool.eq_false_iff.mpr fun h => hFree (.inl h), _, _, _, _, rfl⟩

theorem State.offer_part_other (s : State) {p q : PartId} (kind : Nat) (src : BitVec 24) (ts : Stamp) (ids : Ids)
    (fl : BitVec 8) (l : List Byte) (h : q ≠ p) : (s.offer p kind src ts ids fl l).part q = s.part q := by
  obtain ⟨m, w, b, st, hOffer⟩ := s.offer_shape p kind src ts ids fl l
  rw [hOffer, State.setStrand_part, if_neg h]
  rfl

@[simp] theorem State.offer_tiles (s : State) (p : PartId) (kind : Nat) (src : BitVec 24) (ts : Stamp) (ids : Ids)
    (fl : BitVec 8) (l : List Byte) : (s.offer p kind src ts ids fl l).tiles = s.tiles := by
  obtain ⟨m, w, b, st, hOffer⟩ := s.offer_shape p kind src ts ids fl l
  rw [hOffer]
  rfl

@[simp] theorem State.offer_leaderOfPart (s : State) (p q : PartId) (kind : Nat) (src : BitVec 24) (ts : Stamp) (ids : Ids)
    (fl : BitVec 8) (l : List Byte) : (s.offer p kind src ts ids fl l).leaderOfPart q = s.leaderOfPart q := by
  obtain ⟨m, w, b, st, hOffer⟩ := s.offer_shape p kind src ts ids fl l
  rw [hOffer]
  rfl

@[simp] theorem State.offer_routeUp? (s : State) (p : PartId) (kind : Nat) (src : BitVec 24) (ts : Stamp) (ids : Ids)
    (fl : BitVec 8) (l : List Byte) (d : BitVec 8) : (s.offer p kind src ts ids fl l).routeUp? d = s.routeUp? d := by
  obtain ⟨m, w, b, st, hOffer⟩ := s.offer_shape p kind src ts ids fl l
  rw [hOffer]
  rfl

@[simp] theorem State.offer_devNum (s : State) (p : PartId) (kind : Nat) (src : BitVec 24) (ts : Stamp) (ids : Ids)
    (fl : BitVec 8) (l : List Byte) : (s.offer p kind src ts ids fl l).devNum = s.devNum := by
  obtain ⟨m, w, b, st, hOffer⟩ := s.offer_shape p kind src ts ids fl l
  rw [hOffer]
  rfl

theorem State.offer_strand (s : State) (p : PartId) (kind : Nat) (src : BitVec 24) (ts : Stamp) (ids : Ids) (fl : BitVec 8)
    (l : List Byte) :
    let s' := s.offer p kind src ts ids fl l
    (s'.part p).strand.seq = (s.part p).strand.seq + 1 ∧
    ((s'.part p).strand.dropped = satAdd (s.part p).strand.dropped 1 ∧ s'.hbm = s.hbm ∨
      (s'.part p).strand.dropped = (s.part p).strand.dropped ∧ (s'.part p).strand.lossCount = 0) ∧
    (Config.slotBusy p.val (s.part p).strand.seq = true →
      (s'.part p).strand.dropped = satAdd (s.part p).strand.dropped 1) := by
  intro s'
  obtain ⟨why, hLost⟩ | ⟨hFree, m, w, b, wr, hKept⟩ := s.offer_cases p kind src ts ids fl l
  · have hPart : s'.part p = { s.part p with strand := (s.part p).strand.lose ts why } :=
      (congrArg (State.part · p) hLost).trans (s.loseRecord_part_same p ts why)
    have hHbm : s'.hbm = s.hbm := (congrArg State.hbm hLost).trans rfl
    rw [hPart]
    exact ⟨rfl, .inl ⟨rfl, hHbm⟩, fun _ => rfl⟩
  · have hPart : s'.part p = { s.part p with strand := { (s.part p).strand with
        wrptr := wr, full := false, seq := (s.part p).strand.seq + 1, lossCount := 0, lossReasons := 0 } } :=
      (congrArg (State.part · p) hKept).trans ((State.setStrand_part _ _ _ _).trans (if_pos rfl))
    rw [hPart]
    exact ⟨rfl, .inr ⟨rfl, rfl⟩, fun hBusy => absurd (hFree.symm.trans hBusy) (by decide)⟩

theorem exec_traceBatchClose {s : State} {p : PartId} (hLive : s.live = true) (hBatch : (s.part p).batch ≠ []) :
    let l := (s.part p).batch
    let payload := [s.devNum, BitVec.ofNat 8 p.val] ++ leBytes 2 l.length ++ List.replicate 12 0 ++ l.flatten
    let s1 := (s.modPart p fun pt => { pt with batch := [] }).offer p 5 (s.srcH 7 0) s.now noIds 0 payload
    exec (.traceBatchClose p) s = .next (if s.leaderOfPart p = s.devNum then s1
      else match s.routeUp? (s.leaderOfPart p) with
        | some (port, route) => (s1.putFrame port (s.leaderOfPart p) route false false (.trace payload)).1.emit
            (.device (s.leaderOfPart p)) (.trace payload)
        | none => s1.modEngine 0 fun x => { x with unreach := satAdd x.unreach 1 }) := by
  intro l payload s1
  have hLeader : s1.leaderOfPart p = s.leaderOfPart p := State.offer_leaderOfPart ..
  have hNum : s1.devNum = s.devNum := State.offer_devNum ..
  have hRoute : s1.routeUp? (s.leaderOfPart p) = s.routeUp? (s.leaderOfPart p) := State.offer_routeUp? ..
  have hClose : exec (.traceBatchClose p) s = .next (s.closeBatch p) := congrArg Host.Outcome.next (if_pos hLive)
  rw [hClose, State.closeBatch]
  simp only [if_neg hBatch]
  generalize hOffer : State.offer _ _ _ _ _ _ _ _ = x
  have hx : x = s1 := hOffer.symm
  rw [hx, hLeader, hNum, hRoute] <;> rfl

theorem exec_traceBatchReceive {s : State} {dev : BitVec 8} {g : GroupId} {l : List Byte} (hLive : s.live = true)
    (hRole : (s.group g).role = 2) (hDev : dev ≠ s.devNum) (hMember : dev ∈ (s.group g).members)
    (hOk : batchOk dev l = true) : exec (.traceBatchReceive dev g l) s =
      .next (((s.groupParts g).filter fun p => decide (2 ≤ s.level p)).foldl
        (fun s p => s.offer p 5 (s.srcH 7 0) s.now noIds 0 l) s) := by
  have hTake : exec (.traceBatchReceive dev g l) s = .next (s.takeBatch dev g l) :=
    congrArg Host.Outcome.next (if_pos hLive)
  rw [hTake, State.takeBatch, if_pos ⟨hRole, hDev, List.contains_iff_mem.mpr hMember⟩, if_pos hOk, State.each]

theorem exec_rdptrWrite (s : State) (p : PartId) (v : BitVec 28) :
    let x := (s.part p).strand
    let ahead (v : Nat) : Nat := (v + recArea - x.rdptr.toNat) % recArea
    exec (.rdptrWrite p v) s = .next (s.modPart p fun pt => { pt with strand := { pt.strand with
      rdptr := if v.toNat % 64 = 0 ∧ v.toNat < recArea ∧ ahead v.toNat ≤ ahead x.wrptr.toNat then v else x.rdptr } }) := by
  intro x ahead
  have hAdvance : x.advance v = { x with rdptr :=
      if v.toNat % 64 = 0 ∧ v.toNat < recArea ∧ ahead v.toNat ≤ ahead x.wrptr.toNat then v else x.rdptr } := by
    unfold Strand.advance
    dsimp only
    split
    · rfl
    · rfl
  have hWrite : exec (.rdptrWrite p v) s = .next (s.modPart p fun pt => { pt with strand := pt.strand.advance v }) := rfl
  rw [hWrite, State.modPart, hAdvance]
  rfl

/-- Settles O57: an offered record is lost or written; the other clauses say what each command leads to. -/
theorem ringOffersAndPointers : Obligations.RingOffersAndPointers := by
  unfold Obligations.RingOffersAndPointers
  refine ⟨fun s p kind src ts ids fl l => ?_, fun s p hLive hEn hLevel hStop m => ?_, fun s p hLive hBatch => ?_,
    fun s dev g l => exec_traceBatchReceive, fun s p v => ⟨exec_rdptrWrite s p v, rfl⟩⟩
  · obtain ⟨hSeq, hKept, hBusy⟩ := s.offer_strand p kind src ts ids fl l
    exact ⟨hSeq, fun q hq => s.offer_part_other kind src ts ids fl l hq, s.offer_tiles p kind src ts ids fl l, hKept, hBusy⟩
  · exact congrArg Host.Outcome.next (if_pos ⟨hLive, hEn, hLevel, hStop⟩)
  · refine ⟨fun hLeader => ?_, fun port route hLeader hRoute => ?_⟩
    · rw [exec_traceBatchClose hLive hBatch, if_pos hLeader]
    · rw [exec_traceBatchClose hLive hBatch, if_neg hLeader, hRoute]

end Sys2Proof.Machine
end

section
/-! ### What sending a message leaves alone (R296 to R305, R465, R470)

A message that leaves changes the exits and their counters, the batches of time stamps with their records, and nothing
else. -/

namespace Sys2Proof.Machine

/-- A partition differs in its records at most: its ring's words but CAPHELD, and the time stamps that wait for a record. -/
structure Part.RecordsOnly (x y : Part) : Prop where
  rest : y = { x with strand := y.strand, batch := y.batch }
  capHeld : y.strand.capHeld = x.strand.capHeld

theorem Part.RecordsOnly.refl (x : Part) : x.RecordsOnly x := ⟨rfl, rfl⟩

theorem Part.RecordsOnly.trans {x y z : Part} (h : x.RecordsOnly y) (h' : y.RecordsOnly z) : x.RecordsOnly z :=
  ⟨h'.rest.trans (congrArg (fun x : Part => { x with strand := z.strand, batch := z.batch }) h.rest),
    h'.capHeld.trans h.capHeld⟩

/-- What does not look at the records is the same. -/
theorem Part.RecordsOnly.proj {α : Type} {x y : Part} (h : x.RecordsOnly y) (f : Part → α)
    (hf : f { x with strand := y.strand, batch := y.batch } = f x := by rfl) : f y = f x :=
  (congrArg f h.rest).trans hf

/-- `s'` differs from `s` in the traffic of messages at most. -/
structure State.TrafficOnly (s s' : State) : Prop where
  state : s' = { s with
    sent := s'.sent, wire := s'.wire, ports := s'.ports, engines := s'.engines, parts := s'.parts, hbm := s'.hbm
    obsWindow := s'.obsWindow, obsBytes := s'.obsBytes, datagrams := s'.datagrams, freeCtr := s'.freeCtr
    neighbours := s'.neighbours, unresolved := s'.unresolved }
  part : ∀ p, (s.part p).RecordsOnly (s'.part p)
  port : ∀ p, s'.port p = { s.port p with queue := (s'.port p).queue, bytes := (s'.port p).bytes }
  engine : ∀ e, s'.engine e = { s.engine e with unreach := (s'.engine e).unreach }

namespace State.TrafficOnly

theorem refl (s : State) : s.TrafficOnly s := ⟨rfl, fun _ => .refl _, fun _ => rfl, fun _ => rfl⟩

theorem trans {a b c : State} (h : a.TrafficOnly b) (h' : b.TrafficOnly c) : a.TrafficOnly c where
  state := h'.state.trans (congrArg (fun x : State => { x with
    sent := c.sent, wire := c.wire, ports := c.ports, engines := c.engines, parts := c.parts, hbm := c.hbm
    obsWindow := c.obsWindow, obsBytes := c.obsBytes, datagrams := c.datagrams, freeCtr := c.freeCtr
    neighbours := c.neighbours, unresolved := c.unresolved }) h.state)
  part p := (h.part p).trans (h'.part p)
  port p := (h'.port p).trans (congrArg (fun x : Port => { x with
    queue := (c.port p).queue, bytes := (c.port p).bytes }) (h.port p))
  engine e := (h'.engine e).trans (congrArg (fun x : Engine => { x with unreach := (c.engine e).unreach }) (h.engine e))

theorem foldl {α : Type} {s s' : State} (h : s.TrafficOnly s') {f : State → α → State} (hf : ∀ (x : State) a, x.TrafficOnly (f x a))
    (l : List α) : s.TrafficOnly (l.foldl f s') :=
  foldl_keeps l h fun y a hy => hy.trans (hf y a)

/-- A change of exits without ports, engines and partitions. -/
theorem of_eq {s s' : State} (h : s' = { s with
    sent := s'.sent, wire := s'.wire, datagrams := s'.datagrams, freeCtr := s'.freeCtr
    neighbours := s'.neighbours, unresolved := s'.unresolved }) : s.TrafficOnly s' := by
  have hParts : s'.parts = s.parts := (congrArg State.parts h).trans rfl
  have hPorts : s'.ports = s.ports := (congrArg State.ports h).trans rfl
  have hEngines : s'.engines = s.engines := (congrArg State.engines h).trans rfl
  refine ⟨?_, fun p => ?_, fun p => ?_, fun e => ?_⟩
  · rw [h]
  · rw [State.part, State.part, hParts]
    exact .refl _
  · rw [State.port, hPorts]
    rfl
  · rw [State.engine, hEngines]
    rfl

end State.TrafficOnly

theorem State.trafficOnly_emit (s : State) (d : Dest) (m : Msg) : s.TrafficOnly (s.emit d m) := .of_eq rfl

theorem State.trafficOnly_modPort (s : State) (p : PortId) {f : Port → Port}
    (hf : ∀ x, f x = { x with queue := (f x).queue, bytes := (f x).bytes }) : s.TrafficOnly (s.modPort p f) := by
  refine ⟨rfl, fun _ => .refl _, fun x => ?_, fun _ => rfl⟩
  by_cases hx : x = p
  · subst hx
    rw [State.modPort_port_same]
    exact hf _
  · rw [State.modPort_port_other _ _ hx]

theorem State.trafficOnly_modPart (s : State) (p : PartId) {f : Part → Part}
    (hf : ∀ x : Part, x.RecordsOnly (f x)) : s.TrafficOnly (s.modPart p f) := by
  refine ⟨rfl, fun x => ?_, fun _ => rfl, fun _ => rfl⟩
  by_cases hx : x = p
  · subst hx
    rw [State.modPart_part_same]
    exact hf _
  · rw [State.modPart_part_other _ _ hx]
    exact .refl _

theorem State.trafficOnly_modEngine (s : State) (e : EngineId) {f : Engine → Engine}
    (hf : ∀ x, f x = { x with unreach := (f x).unreach }) : s.TrafficOnly (s.modEngine e f) := by
  refine ⟨rfl, fun _ => .refl _, fun _ => rfl, fun x => ?_⟩
  by_cases hx : x = e
  · subst hx
    rw [State.modEngine_engine_same]
    exact hf _
  · rw [State.modEngine_engine_other _ _ hx]

theorem State.trafficOnly_setStrand (s : State) (p : PartId) {st : Strand}
    (hst : st.capHeld = (s.part p).strand.capHeld) : s.TrafficOnly (s.setStrand p st) := by
  refine ⟨rfl, fun q => ?_, fun _ => rfl, fun _ => rfl⟩
  rw [State.setStrand_part]
  split
  · subst_vars
    exact ⟨rfl, hst⟩
  · exact .refl _

theorem State.trafficOnly_offer (s : State) (p : PartId) (kind : Nat) (src : BitVec 24) (ts : Stamp) (ids : Ids)
    (fl : BitVec 8) (l : List Byte) : s.TrafficOnly (s.offer p kind src ts ids fl l) := by
  obtain ⟨why, hLost⟩ | ⟨_, m, w, b, wr, hKept⟩ := s.offer_cases p kind src ts ids fl l
  · rw [hLost]
    exact s.trafficOnly_setStrand p rfl
  · rw [hKept]
    have hMem : s.TrafficOnly { s with hbm := m, obsWindow := w, obsBytes := b } :=
      ⟨rfl, fun _ => .refl _, fun _ => rfl, fun _ => rfl⟩
    exact hMem.trans (State.trafficOnly_setStrand _ p rfl)

theorem State.trafficOnly_handOver (s : State) (f : WireFrame) : s.TrafficOnly (s.handOver f) := by
  unfold State.handOver
  split
  · exact .of_eq rfl
  · exact s.trafficOnly_modPort _ fun _ => rfl

theorem State.trafficOnly_putFrame (s : State) (port : PortId) (peer : BitVec 8) (route : Route) (bcast urgent : Bool)
    (m : Msg) : s.TrafficOnly (s.putFrame port peer route bcast urgent m).1 := by
  unfold State.putFrame
  split
  · exact .refl s
  · extract_lets vc make ts s1
    have hs1 : s.TrafficOnly s1 := by
      unfold s1
      split
      · exact .of_eq rfl
      · exact .refl s
    exact (hs1.trans (s1.trafficOnly_modPort port fun _ => rfl)).trans (State.trafficOnly_handOver _ _)

theorem State.trafficOnly_closeBatch (s : State) (p : PartId) : s.TrafficOnly (s.closeBatch p) := by
  unfold State.closeBatch
  extract_lets l payload s1 s2 leader
  have hs1 : s.TrafficOnly s1 := s.trafficOnly_modPart p fun _ => ⟨rfl, rfl⟩
  have hs2 : s.TrafficOnly s2 := hs1.trans (State.trafficOnly_offer ..)
  split
  · exact .refl s
  · split
    · exact hs2
    · split
      · exact (hs2.trans (State.trafficOnly_putFrame ..)).trans (State.trafficOnly_emit ..)
      · exact hs2.trans (s2.trafficOnly_modEngine 0 fun _ => rfl)

theorem State.trafficOnly_noteFrame (s : State) (p : PartId) (sent : Bool) (ty : Nat) (peer : BitVec 8) (port : Nat)
    (ts key : Stamp) : s.TrafficOnly (s.noteFrame p sent ty peer port ts key) := by
  unfold State.noteFrame
  split
  · extract_lets entry s1
    have hs1 : s.TrafficOnly s1 := s.trafficOnly_modPart p fun _ => ⟨rfl, rfl⟩
    split
    · exact hs1.trans (s1.trafficOnly_closeBatch p)
    · exact hs1
  · exact .refl s

theorem State.trafficOnly_stampSent (s : State) (port : PortId) (peer : BitVec 8) (route : Route) (bcast urgent : Bool)
    (m : Msg) : s.TrafficOnly (s.stampSent port peer route bcast urgent m) := by
  have hPut := s.trafficOnly_putFrame port peer route bcast urgent m
  unfold State.stampSent
  dsimp only
  split
  · exact hPut
  · exact hPut.foldl (fun x a => x.trafficOnly_noteFrame ..) _

theorem State.trafficOnly_sendDevice (s : State) (d : BitVec 8) (dest : Dest) (urgent : Bool) (m : Msg) :
    s.TrafficOnly (s.sendDevice d dest urgent m) := by
  unfold State.sendDevice
  split
  · exact s.trafficOnly_emit dest m
  · split
    · split
      · exact .refl s
      · exact (State.trafficOnly_stampSent ..).trans (State.trafficOnly_emit ..)
    · exact s.trafficOnly_modEngine 0 fun _ => rfl

theorem State.trafficOnly_solicit (s : State) (a : BitVec 128) (n : Nat) : s.TrafficOnly (s.solicit a n) := by
  have hWait : s.TrafficOnly { s with unresolved := s.unresolved ++ [(a, n)] } := .of_eq rfl
  exact hWait.foldl (fun x link => x.trafficOnly_emit ..) _

theorem State.trafficOnly_resolve (s : State) (a : BitVec 128) (n : Nat) : s.TrafficOnly (s.resolve a n) := by
  unfold State.resolve
  split
  · exact s.trafficOnly_solicit a n
  next x _ =>
    split
    · exact .refl s
    · extract_lets rest
      split
      · exact .of_eq rfl
      · split
        · exact .refl s
        · have hRest : s.TrafficOnly { s with neighbours := rest } := .of_eq rfl
          exact hRest.trans (State.trafficOnly_solicit ..)

theorem State.trafficOnly_stampDatagram (s : State) (p : PartId) (slot : HostSlot) (seq : BitVec 32) (m : Msg) :
    s.TrafficOnly (s.stampDatagram p slot seq m) := by
  unfold State.stampDatagram
  split
  · exact .refl s
  next ty l _ =>
    have hData : s.TrafficOnly { s with datagrams := s.datagrams ++ [(p, slot, datagramBytes ty p slot seq l)] } := .of_eq rfl
    exact hData.trans (State.trafficOnly_resolve ..)

/-- Sending a message changes the traffic at most. -/
theorem State.trafficOnly_send (s : State) (d : Dest) (m : Msg) : s.TrafficOnly (s.send d m) := by
  unfold State.send
  split
  · exact State.trafficOnly_sendDevice ..
  · exact State.trafficOnly_sendDevice ..
  · exact State.trafficOnly_sendDevice ..
  · exact (State.trafficOnly_stampDatagram ..).trans (State.trafficOnly_emit ..)
  · exact (State.trafficOnly_stampDatagram ..).trans (State.trafficOnly_emit ..)
  · exact (State.TrafficOnly.refl s).foldl (fun x a => x.trafficOnly_sendDevice ..) _
  · exact (State.trafficOnly_stampSent ..).trans (State.trafficOnly_emit ..)
  · exact (State.trafficOnly_stampSent ..).trans (State.trafficOnly_emit ..)
  · exact State.trafficOnly_emit ..

theorem State.trafficOnly_sendAlert (s : State) (p : PartId) (m : AlertMsg) : s.TrafficOnly (s.sendAlert p m) :=
  (State.trafficOnly_send ..).foldl (fun x _ => x.trafficOnly_send ..) _

end Sys2Proof.Machine
end

section
/-! ### Read-back of banks, topology and alerts (R39, R217, R221, R302, R307, R450 to R456) -/

namespace Sys2Proof.Machine

/-! #### What a compare reports -/

theorem mem_readBack_par (b : Bank) (rec : Nat → Option (List Byte × Bool)) (compare : Bool) (r w : Nat) :
    (r, w) ∈ (b.readBack compare rec [] []).par ↔ r < 256 ∧ w ∈ b.parityBad r := by
  unfold Bank.readBack
  simp

theorem mem_readBack_rows (b : Bank) (rec : Nat → Option (List Byte × Bool)) (r : Nat) :
    r ∈ (b.readBack true rec [] []).rows ↔
      r < 256 ∧ (rec r = none ∨ ∃ l f, rec r = some (l, f) ∧ b.diffCols r l f ≠ []) := by
  unfold Bank.readBack
  simp only [if_true, List.filter_nil, List.append_nil, List.mem_eraseDups, List.mem_append, List.mem_map,
    List.mem_flatMap, List.mem_filter, List.mem_range, Option.isNone_iff_eq_none]
  constructor
  · rintro (⟨_, ⟨a, ha, hCol⟩, rfl⟩ | hHard)
    · split at hCol
      next l f hRec =>
        obtain ⟨c, hc, rfl⟩ := List.mem_map.mp hCol
        exact ⟨ha, .inr ⟨l, f, hRec, List.ne_nil_of_mem hc⟩⟩
      next => cases hCol
    · exact ⟨hHard.1, .inl hHard.2⟩
  · rintro ⟨hr, hRec | ⟨l, f, hRec, hDiff⟩⟩
    · exact .inr ⟨hr, hRec⟩
    · obtain ⟨c, hc⟩ := List.exists_mem_of_ne_nil _ hDiff
      refine .inl ⟨(r, c), ⟨r, hr, ?_⟩, rfl⟩
      rw [hRec]
      exact List.mem_map.mpr ⟨c, hc, rfl⟩

/-- Settles O37: by what is a member of the findings' lists. -/
theorem readBackFindsWhatDiffers : Obligations.ReadBackFindsWhatDiffers := by
  unfold Obligations.ReadBackFindsWhatDiffers
  exact fun b rec r w => ⟨mem_readBack_rows b rec r, rfl, mem_readBack_par b rec true r w⟩

/-! #### Topology -/

/-- The devices are numbered in ascending order. -/
theorem pairwise_devices : ((List.range 256).map (BitVec.ofNat 8)).Pairwise fun a b => a.toNat ≤ b.toNat := by
  rw [List.pairwise_map]
  refine List.pairwise_lt_range.imp_of_mem fun {a b} ha hb h => ?_
  have ha : a < 256 := List.mem_range.mp ha
  have hb : b < 256 := List.mem_range.mp hb
  simp only [BitVec.toNat_ofNat]
  omega

/-- The first of a list in ascending order is its least. -/
theorem headD_le_of_pairwise {l : List (BitVec 8)} (h : l.Pairwise fun a b => a.toNat ≤ b.toNat) :
    ∀ d ∈ l, (l.headD 0).toNat ≤ d.toNat := by
  cases l with
  | nil => simp
  | cons a l =>
    intro d hd
    obtain rfl | hd := List.mem_cons.mp hd
    · exact le_rfl
    · exact (List.pairwise_cons.mp h).1 d hd

theorem headD_mem {l : List (BitVec 8)} (h : l ≠ []) : l.headD 0 ∈ l := by
  cases l with
  | nil => exact absurd rfl h
  | cons a l => simp

theorem State.regroupOne_group (s : State) (g : GroupId) (h : s.announcers g ≠ []) :
    ((s.regroupOne g).group g).members = s.announcers g ∧ ((s.regroupOne g).group g).leader = (s.announcers g).headD 0 ∧
    ((s.regroupOne g).group g).role = if (s.announcers g).contains s.devNum then
      (if (s.announcers g).headD 0 = s.devNum then 2 else 1) else 0 := by
  unfold State.regroupOne
  dsimp only
  rw [if_neg fun hNone => h hNone.1, State.modGroup_group_same, Group.settle]
  dsimp only
  generalize (if (s.announcers g).contains s.devNum = true then
    (if (s.announcers g).headD 0 = s.devNum then 2 else 1) else 0 : BitVec 2) = role
  split
  · exact ⟨rfl, rfl, rfl⟩
  · exact ⟨rfl, rfl, rfl⟩

/-- Settles O44: the two commands unfold to their floods; a group's members are its announcers in ascending order. -/
theorem topologyFloodsOnceAndLeads : Obligations.TopologyFloodsOnceAndLeads := by
  unfold Obligations.TopologyFloodsOnceAndLeads
  refine ⟨fun s hLive hUp => ?_, fun s e a hLive hUp hRing => ?_, fun s g hSome => ?_⟩
  · exact congrArg Host.Outcome.next (if_pos ⟨hLive, hUp⟩)
  · have hTake : exec (.topologyAnnouncementReceive e a) s = .next (s.takeAnnouncement e a) :=
      congrArg Host.Outcome.next (if_pos ⟨hLive, hUp, hRing⟩)
    rw [hTake, State.takeAnnouncement]
    refine ⟨fun hKnown => ?_, fun hDev hNew => ?_⟩
    · rw [if_pos (hKnown.imp id List.contains_iff_mem.mpr)]
    · rw [if_neg (not_or.mpr ⟨hDev, fun h => hNew (List.contains_iff_mem.mp h)⟩)]
      rfl
  · obtain ⟨hMembers, hLeader, hRole⟩ := s.regroupOne_group g hSome
    have hSorted : (s.announcers g).Pairwise fun a b => a.toNat ≤ b.toNat := pairwise_devices.filter _
    dsimp only
    rw [hMembers, hLeader, hRole]
    refine ⟨rfl, headD_mem hSome, headD_le_of_pairwise hSorted, ?_⟩
    simp only [List.contains_iff_mem]

/-! #### Alerts -/

theorem State.recordsOnly_offer {s s' : State} {p q : PartId} {kind : Nat} {src : BitVec 24} {ts : Stamp} {ids : Ids}
    {fl : BitVec 8} {l : List Byte} (h : s'.part q = s.part q) :
    (s.part q).RecordsOnly ((s'.offer p kind src ts ids fl l).part q) :=
  h ▸ (State.trafficOnly_offer ..).part q

theorem State.recordsOnly_raise_none (s : State) (code : BitVec 16) (src : BitVec 24) (ids : Ids) (part : Option PartId)
    (detail : List Byte) (q : PartId) : (s.part q).RecordsOnly ((s.raise code clsNone src ids part detail).part q) := by
  cases part with
  | none => exact .refl _
  | some p =>
    simp only [State.raise, clsNone, State.noteClass, if_true]
    split
    · exact State.recordsOnly_offer rfl
    · exact .refl _

/-- What a granted alert leads to. -/
structure State.Granted (s : State) (p : PartId) (m : AlertMsg) (s' : State) : Prop where
  alert : s'.alert = { s.alert with alerts := satAdd s.alert.alerts 1, pulseEnd := s.now + 2000 }
  pins : s'.pins = { s.pins with alertLow := true }
  tiles : s'.tiles = s.tiles
  part : Part.RecordsOnly { s.part p with lastAlert := some m, alertCount := (s.part p).alertCount + 1 } (s'.part p)
  others : ∀ q, q ≠ p → (s.part q).RecordsOnly (s'.part q)

theorem State.Granted.lastAlert {s s' : State} {p : PartId} {m : AlertMsg} (h : s.Granted p m s') :
    (s'.part p).lastAlert = some m := h.part.proj Part.lastAlert

theorem State.Granted.alertCount {s s' : State} {p : PartId} {m : AlertMsg} (h : s.Granted p m s') :
    (s'.part p).alertCount = (s.part p).alertCount + 1 := h.part.proj Part.alertCount

theorem State.Granted.kind4 {s s' : State} {p : PartId} {m : AlertMsg} (h : s.Granted p m s') :
    (s'.part p).kind4 = (s.part p).kind4 := h.part.proj Part.kind4

theorem State.Granted.run {s s' : State} {p : PartId} {m : AlertMsg} (h : s.Granted p m s') (q : PartId) :
    (s'.part q).run = (s.part q).run := by
  by_cases hq : q = p
  · subst hq
    exact h.part.proj Part.run
  · exact (h.others q hq).proj Part.run

/-- What stands after an alert has left its cluster. -/
theorem State.Granted.leaves {s s' : State} {p : PartId} {m : AlertMsg} {rest : List (Nat × AlertMsg)}
    (h : State.Granted { s with alert := { s.alert with inCluster := rest } } p m s') :
    s'.alert.inCluster = rest ∧ s'.pins.alertLow = true ∧ s'.alert.pulseEnd = s.now + 2000 ∧
      s'.alert.alerts = satAdd s.alert.alerts 1 ∧ (s'.part p).lastAlert = some m ∧
      (s'.part p).alertCount = (s.part p).alertCount + 1 ∧ s'.tiles = s.tiles ∧
      ∀ q, (s'.part q).run.marked = (s.part q).run.marked :=
  ⟨congrArg Alert.inCluster h.alert, congrArg Pins.alertLow h.pins, by rw [h.alert],
    congrArg Alert.alerts h.alert, h.lastAlert, h.alertCount, h.tiles, fun q => congrArg FrameRun.marked (h.run q)⟩

theorem State.granted_grantAlert (s : State) (p : PartId) (m : AlertMsg) : s.Granted p m (s.grantAlert p m) := by
  unfold State.grantAlert
  extract_lets s1 al pn s2
  have hSame : s2.part p = { s.part p with lastAlert := some m, alertCount := (s.part p).alertCount + 1 } :=
    State.modPart_part_same s p fun pt => { pt with lastAlert := some m, alertCount := pt.alertCount + 1 }
  have hOther {q : PartId} (hq : q ≠ p) : s2.part q = s.part q :=
    show s1.part q = s.part q from State.modPart_part_other s _ hq
  have hSend := State.trafficOnly_sendAlert (s2.raise 0x000D clsNone m.src { layer := m.layer, opid := m.opid } (some p)
    (alertBytes m)) p m
  have hPart (q : PartId) : (s2.part q).RecordsOnly _ := (State.recordsOnly_raise_none ..).trans (hSend.part q)
  refine ⟨?_, ?_, ?_, hSame ▸ hPart p, fun q hq => hOther hq ▸ hPart q⟩
  · exact (congrArg State.alert hSend.state).trans (State.raise_alert ..)
  · exact (congrArg State.pins hSend.state).trans (State.raise_pins ..)
  · exact (congrArg State.tiles hSend.state).trans (State.raise_tiles ..)

theorem State.grantAlert_kind4 (s : State) (p : PartId) (m : AlertMsg) :
    ((s.grantAlert p m).part p).kind4 = (s.part p).kind4 := (s.granted_grantAlert p m).kind4

theorem State.alertsPass_of_live {s : State} (h : s.live = true) : s.alertsPass = true := by
  rw [State.alertsPass, h, Bool.true_or]

theorem exec_alertLeavesCluster {s : State} {c : ClusterId} {m : AlertMsg} {rest : List (Nat × AlertMsg)}
    (hLive : s.live = true) (hFirst : s.alert.inCluster = (c.val, m) :: rest)
    (hGo : (s.part m.part.toFin).slackStopped = false) (hKind4 : (s.part m.part.toFin).kind4 = none) :
    exec (.alertLeavesCluster c) s =
      .next (({ s with alert := { s.alert with inCluster := rest } } : State).grantAlert m.part.toFin m) := by
  have hFind : (s.alert.inCluster.find? fun x => decide (x.1 = c.val)) = some (c.val, m) := by
    rw [hFirst, List.find?_cons_of_pos (by simp)]
  have hErase : s.alert.inCluster.erase (c.val, m) = rest := by
    rw [hFirst, List.erase_cons_head]
  have hLeaves : exec (.alertLeavesCluster c) s = execAlertLeavesCluster c s := rfl
  rw [hLeaves, execAlertLeavesCluster, hFind]
  dsimp only
  rw [if_pos ⟨State.alertsPass_of_live hLive, hGo⟩, hErase, State.sendKind4, State.grantAlert_kind4,
    show (State.part { s with alert := { s.alert with inCluster := rest } } m.part.toFin).kind4 = none from hKind4]

/-- A change that is made for each partition of a list, and made twice is made once. -/
theorem State.foldl_modPart_part {f : Part → Part} (l : List PartId) (hf : ∀ x, f (f x) = f x) (s : State) (p : PartId) :
    (l.foldl (fun s q => s.modPart q f) s).part p = if p ∈ l then f (s.part p) else s.part p := by
  induction l generalizing s with
  | nil => rfl
  | cons q l ih =>
    rw [List.foldl_cons, ih]
    by_cases hq : p = q
    · subst hq
      simp [hf]
    · simp [State.modPart_part_other s f hq, hq]

theorem State.foldl_modPart_frame (f : Part → Part) (l : List PartId) (s : State) :
    { l.foldl (fun s q => s.modPart q f) s with parts := s.parts } = s := by
  induction l generalizing s with
  | nil => rfl
  | cons q l ih => exact congrArg (fun x : State => { x with parts := s.parts }) (ih (s.modPart q f))

theorem exec_alertMessageReceive {s : State} {g : GroupId} {m : AlertMsg} (hLive : s.live = true) :
    exec (.alertMessageReceive g m) s =
      .next ((s.groupParts g).foldl (fun s p => s.modPart p fun pt => { pt with lastAlert := some m }) s) :=
  congrArg Host.Outcome.next (if_pos hLive)

theorem exec_alertPulseEnd {s : State} (hLow : s.pins.alertLow = true) : exec .alertPulseEnd s =
    .next { (if s.alert.fatal then s else s.reach s.alert.pulseEnd) with
      pins := { s.pins with alertLow := s.alert.fatal } } := by
  have hEnd : exec .alertPulseEnd s = execAlertPulseEnd s := rfl
  rw [hEnd, execAlertPulseEnd, if_pos hLow]
  dsimp only
  split
  · rfl
  · rfl

/-- Settles O47: a granted alert changes its partition, the pin and the alert words; a message changes LastAlert alone. -/
theorem alertsPulseAndAreKept : Obligations.AlertsPulseAndAreKept := by
  unfold Obligations.AlertsPulseAndAreKept
  intro s
  refine ⟨fun c m rest hLive hFirst hGo hKind4 => ?_, fun g m hLive => ?_, fun hLow => ⟨fun hFatal => ?_, fun hFatal => ?_⟩⟩
  · refine ⟨_, exec_alertLeavesCluster hLive hFirst hGo hKind4, ?_⟩
    have hGrant := State.granted_grantAlert { s with alert := { s.alert with inCluster := rest } } m.part.toFin m
    generalize State.grantAlert _ m.part.toFin m = s' at hGrant
    generalize m.part.toFin = p at hGrant
    exact hGrant.leaves
  · exact ⟨_, exec_alertMessageReceive hLive, fun p => State.foldl_modPart_part (f := fun pt => { pt with lastAlert := some m }) _ (fun _ => rfl) s p,
      State.foldl_modPart_frame _ _ s⟩
  · rw [exec_alertPulseEnd hLow, hFatal, if_pos rfl]
    have hPins : { s.pins with alertLow := true } = s.pins := by rw [← hLow]
    rw [hPins]
  · rw [exec_alertPulseEnd hLow, hFatal]
    rfl

end Sys2Proof.Machine
end

section
/-! ### EtherCAT states and process data (R336 to R338, R346) -/

namespace Sys2Proof.Machine

theorem dcCycleOk_iff (dc : Option (BitVec 32)) : dcCycleOk dc = true ↔ ∀ n, dc = some n → 100000 ≤ n.toNat := by
  cases dc with
  | none => simp [dcCycleOk]
  | some n => simp [dcCycleOk]

/-- A transition that is served, by its three outcomes. -/
theorem exec_ecatStateTransition {s : State} {t : EcatState} {dc : Option (BitVec 32)} (hServed : s.ecatServed = true) :
    exec (.ecatStateTransition t dc) s = .next (
      if s.ecatLegal t = false then { s with ecat := { s.ecat with err := true, al := 0x0011 } }
      else if dcCycleOk (if t = .init ∨ t = .boot then none else dc) = false then
        { s with ecat := { s.ecat with err := true, al := 0x0035 } }
      else
        { (if t = .init then s.toInit else s) with
          ecat := { (if t = .init then s.toInit else s).ecat with
            st := t, err := false, al := 0, dc := if t = .init ∨ t = .boot then none else dc } }) :=
  congrArg Host.Outcome.next (if_pos hServed)

theorem State.ecatLegal_init (s : State) : s.ecatLegal .init = true := by
  rw [State.ecatLegal]
  cases s.ecat.st with
  | init | preop | safeop | op | boot => simp

/-! #### The end of the sessions -/

theorem not_mem_endSessions {a : Area} {x : Writer × List (Nat × Nat)} (h : x ∈ a.endSessions.staged) :
    x.1 ≠ .coe ∧ x.1 ≠ .pdo := by
  simpa using (List.mem_filter.mp h).2

theorem State.foldl_modArea_view (l : List PartId) {f : Area → Area} (hf : ∀ x, f (f x) = f x) (s : State) (p : PartId) :
    ((l.foldl (fun s q => s.modArea (.view q) f) s).part p).area = if p ∈ l then f (s.part p).area else (s.part p).area := by
  have hPart := State.foldl_modPart_part (f := fun pt => { pt with area := f pt.area }) l (fun x => by rw [hf]) s p
  refine (congrArg Part.area hPart).trans ?_
  split
  · rfl
  · rfl

theorem State.foldl_modArea_view_frame (l : List PartId) (f : Area → Area) (s : State) :
    { l.foldl (fun s q => s.modArea (.view q) f) s with parts := s.parts } = s :=
  State.foldl_modPart_frame (fun pt => { pt with area := f pt.area }) l s

theorem endSessions_endSessions (a : Area) : a.endSessions.endSessions = a.endSessions := by
  simp [Area.endSessions]

theorem mem_allParts (p : PartId) : p ∈ allParts := by
  revert p
  decide

/-- After a transition to INIT no area holds a set of the two writers. -/
theorem State.toInit_staged (s : State) (a : AreaId) {x : Writer × List (Nat × Nat)} (h : x ∈ (s.toInit.area a).staged) :
    x.1 ≠ .coe ∧ x.1 ≠ .pdo := by
  cases a with
  | device =>
    have hFrame := State.foldl_modArea_view_frame (allParts.filter fun p => (s.part p).area.staged != []) Area.endSessions
      (s.modArea .device Area.endSessions)
    have hDevice : s.toInit.area .device = s.devArea.endSessions := congrArg State.devArea hFrame
    rw [hDevice] at h
    exact not_mem_endSessions h
  | view p =>
    have hView : s.toInit.area (.view p) = _ := State.foldl_modArea_view
      (allParts.filter fun p => (s.part p).area.staged != []) endSessions_endSessions (s.modArea .device Area.endSessions) p
    rw [hView] at h
    split at h
    · exact not_mem_endSessions h
    next hEmpty =>
      have hNone : (s.part p).area.staged = [] := by
        simpa [mem_allParts] using hEmpty
      have hNoneNow : ((s.modArea .device Area.endSessions).part p).area.staged = [] := hNone
      rw [hNoneNow] at h
      cases h

theorem exec_ecatStateTransition_init {s : State} {dc : Option (BitVec 32)} (hServed : s.ecatServed = true) :
    exec (.ecatStateTransition .init dc) s = .next { s.toInit with
      ecat := { s.toInit.ecat with st := .init, err := false, al := 0, dc := none } } := by
  rw [exec_ecatStateTransition hServed, s.ecatLegal_init]
  rfl

/-! #### Process data -/

theorem syncMet_modes {mode : Nat} {dc tx : Bool} {e : SyncEvent} (h : syncMet mode dc tx e = true) :
    (mode < 2 → e = .sm2 ∨ e = .timer) ∧ (mode = 2 → e = .sync0) ∧ (mode = 3 → e = if tx then .sync1 else .sync0) := by
  cases e with
  | sync0 =>
    have hMode : mode = 2 ∨ mode = 3 ∧ tx = false := by simpa [syncMet] using (Bool.and_eq_true_iff.mp h).2
    refine ⟨fun hLow => by omega, fun _ => rfl, fun h3 => ?_⟩
    rw [if_neg (by simp [(hMode.resolve_left (by omega)).2])]
  | sync1 =>
    obtain ⟨⟨_, h3⟩, hTx⟩ : (dc = true ∧ mode = 3) ∧ tx = true := by simpa [syncMet] using h
    exact ⟨fun hLow => by omega, fun h2 => by omega, fun _ => by rw [if_pos hTx]⟩
  | sm2 =>
    have hLow : mode < 2 := of_decide_eq_true h
    exact ⟨fun _ => .inl rfl, fun h2 => by omega, fun h3 => by omega⟩
  | timer =>
    have hLow : mode < 2 := of_decide_eq_true h
    exact ⟨fun _ => .inr rfl, fun h2 => by omega, fun h3 => by omega⟩

/-- The state in which process data are handled: the TxPDO is due where the event's mode fills it. -/
def State.txMarked (s : State) (e : SyncEvent) : State :=
  if s.syncMet true e = true then { s with ecat := { s.ecat with txDue := true } } else s

theorem State.txMarked_mapped (s : State) (e : SyncEvent) (assign obj : Nat) :
    (s.txMarked e).mapped assign obj = s.mapped assign obj := by
  unfold State.txMarked
  split
  · rfl
  · rfl

@[simp] theorem State.txMarked_dictReady (s : State) (e : SyncEvent) : (s.txMarked e).dictReady = s.dictReady := by
  unfold State.txMarked
  split
  · rfl
  · rfl

@[simp] theorem State.txMarked_ecat_st (s : State) (e : SyncEvent) : (s.txMarked e).ecat.st = s.ecat.st := by
  unfold State.txMarked
  split
  · rfl
  · rfl

theorem exec_rxpdoTake {s : State} {x : PdoEvent} (hReady : s.dictReady = true) :
    let l := s.mapped 0x1C12 0x1600
    let xs := cutImage l x.data
    exec (.rxpdoTake x) s = .next (
      if s.syncMet false x.event = true ∧ s.ecat.st = .op ∧
          x.data.length = l.foldl (fun n x => n + entrySize x.1 x.2) 0 then
        (xs.filter fun x => isPdoSeq x.1 x.2.1).foldl State.pdoSubmit
          ((xs.filter fun x => !isPdoSeq x.1 x.2.1).foldl State.pdoStage (s.txMarked x.event))
      else s.txMarked x.event) := by
  intro l xs
  have hTake : exec (.rxpdoTake x) s = execRxpdoTake x s := rfl
  have hMarked : (if s.dictReady && s.syncMet true x.event then { s with ecat := { s.ecat with txDue := true } } else s) =
      s.txMarked x.event := by
    rw [hReady, Bool.true_and]
    rfl
  rw [hTake, execRxpdoTake]
  dsimp only
  rw [hMarked, State.txMarked_mapped, State.txMarked_dictReady, State.txMarked_ecat_st, hReady]
  simp only [true_and]
  rfl

/-- Settles O51: each command by the branch that the hypotheses choose. -/
theorem ecatStatesAndProcessData : Obligations.EcatStatesAndProcessData := by
  unfold Obligations.EcatStatesAndProcessData
  intro s
  refine ⟨fun t dc hServed => ⟨fun hLegal hInit hRange => ?_, fun hLegal hInit hBoot hRange => ?_, fun hInit => ?_,
    fun hIllegal => ?_⟩, fun hOp => ?_, fun x hReady => ⟨fun hNot => ?_, ?_⟩, fun y hSame => ?_,
    fun tx e hMet => syncMet_modes hMet, fun hReady hDue hSt => ?_, fun hDue => ?_⟩
  · have hOk : dcCycleOk (if t = .init ∨ t = .boot then none else dc) = true := by
      rw [dcCycleOk_iff]
      intro n hn
      obtain hBoot | hAll := hRange
      · rw [if_pos (.inr hBoot)] at hn
        cases hn
      · split at hn
        · cases hn
        · exact hAll n hn
    rw [exec_ecatStateTransition hServed, if_neg (by simp [hLegal]), if_neg (by simp [hOk])]
    simp only [hInit, if_false, false_or]
  · have hBad : dcCycleOk (if t = .init ∨ t = .boot then none else dc) = false := by
      rw [if_neg (not_or.mpr ⟨hInit, hBoot⟩), Bool.eq_false_iff, Ne, dcCycleOk_iff]
      exact hRange
    rw [exec_ecatStateTransition hServed, if_neg (by simp [hLegal]), if_pos hBad]
  · subst hInit
    exact ⟨_, exec_ecatStateTransition_init hServed, rfl, rfl, rfl, rfl, fun a x hx => s.toInit_staged a hx⟩
  · rw [exec_ecatStateTransition hServed, if_pos hIllegal]
  · exact congrArg Host.Outcome.next (if_pos hOp)
  · rw [exec_rxpdoTake hReady, if_neg (by simp [hNot])]
    rfl
  · intro hMet hOp l hLen
    have hTakes := And.intro hMet (And.intro hOp hLen)
    rw [exec_rxpdoTake hReady, if_pos hTakes]
    rfl
  · exact if_pos hSame
  · exact congrArg Host.Outcome.next (if_pos ⟨hReady, hDue, hSt⟩)
  · exact congrArg Host.Outcome.next (if_neg fun h => absurd (hDue.symm.trans h.2.1) (by decide))

end Sys2Proof.Machine
end

section
/-! ### What an advance of windows leaves alone (R241, R246, R247) -/

namespace Sys2Proof.Machine

/-- A step of a fold that reaches `Q` from `P` for one element does so for the fold, when the others keep both. -/
theorem foldl_reaches {σ α : Type} {f : σ → α → σ} {P Q : σ → Prop} {a : α} {l : List α} (hl : l.Nodup) (ha : a ∈ l)
    (hP : ∀ s b, b ≠ a → P s → P (f s b)) (hQ : ∀ s b, b ≠ a → Q s → Q (f s b)) (hStep : ∀ s, P s → Q (f s a)) {s : σ}
    (h : P s) : Q (l.foldl f s) := by
  obtain ⟨before, after, rfl⟩ := List.append_of_mem ha
  obtain ⟨hBefore, hAfter, hDisjoint⟩ := List.nodup_append.mp hl
  have hNotAfter : a ∉ after := (List.nodup_cons.mp hAfter).1
  have hNotBefore : a ∉ before := fun h => hDisjoint a h a (by simp) rfl
  have keeps {R : σ → Prop} (hR : ∀ s b, b ≠ a → R s → R (f s b)) (l : List α) (hl : a ∉ l) {s : σ} (h : R s) :
      R (l.foldl f s) := by
    induction l generalizing s with
    | nil => exact h
    | cons b l ih =>
      obtain ⟨hb, hl⟩ := not_or.mp (mt List.mem_cons.mpr hl)
      exact ih hl (hR s b (Ne.symm hb) h)
  rw [List.foldl_append, List.foldl_cons]
  exact keeps hQ after hNotAfter (hStep _ (keeps hP before hNotBefore h))

/-- A tile differs in its windows and credits at most. -/
def Tile.WindowsOnly (x y : Tile) : Prop :=
  y = { x with handles := y.handles, windows := y.windows, cur := y.cur, nxt := y.nxt }

theorem Tile.WindowsOnly.trans {x y z : Tile} (h : x.WindowsOnly y) (h' : y.WindowsOnly z) : x.WindowsOnly z :=
  Eq.trans h' (congrArg (fun x : Tile => { x with
    handles := z.handles, windows := z.windows, cur := z.cur, nxt := z.nxt }) h)

theorem Tile.WindowsOnly.proj {α : Type} {x y : Tile} (h : x.WindowsOnly y) (f : Tile → α)
    (hf : f { x with handles := y.handles, windows := y.windows, cur := y.cur, nxt := y.nxt } = f x := by rfl) : f y = f x :=
  (congrArg f h).trans hf

/-- `s'` differs from `s` in windows, credits and the traffic of messages at most. -/
structure State.WindowsOnly (s s' : State) : Prop where
  state : s' = { s with
    tiles := s'.tiles, sent := s'.sent, wire := s'.wire, ports := s'.ports, engines := s'.engines, parts := s'.parts
    hbm := s'.hbm, obsWindow := s'.obsWindow, obsBytes := s'.obsBytes, datagrams := s'.datagrams, freeCtr := s'.freeCtr
    neighbours := s'.neighbours, unresolved := s'.unresolved }
  part : ∀ p, (s.part p).RecordsOnly (s'.part p)
  tile : ∀ t, (s.tile t).WindowsOnly (s'.tile t)

namespace State.WindowsOnly

theorem refl (s : State) : s.WindowsOnly s := ⟨rfl, fun _ => .refl _, fun _ => rfl⟩

theorem trans {a b c : State} (h : a.WindowsOnly b) (h' : b.WindowsOnly c) : a.WindowsOnly c where
  state := h'.state.trans (congrArg (fun x : State => { x with
    tiles := c.tiles, sent := c.sent, wire := c.wire, ports := c.ports, engines := c.engines, parts := c.parts
    hbm := c.hbm, obsWindow := c.obsWindow, obsBytes := c.obsBytes, datagrams := c.datagrams, freeCtr := c.freeCtr
    neighbours := c.neighbours, unresolved := c.unresolved }) h.state)
  part p := (h.part p).trans (h'.part p)
  tile t := (h.tile t).trans (h'.tile t)

theorem foldl {α : Type} {s s' : State} (h : s.WindowsOnly s') {f : State → α → State}
    (hf : ∀ (x : State) a, x.WindowsOnly (f x a)) (l : List α) : s.WindowsOnly (l.foldl f s') :=
  foldl_keeps l h fun y a hy => hy.trans (hf y a)

theorem of_traffic {s s' : State} (h : s.TrafficOnly s') : s.WindowsOnly s' := by
  have hTiles : s'.tiles = s.tiles := (congrArg State.tiles h.state).trans rfl
  have hBase : s'.epochBase = s.epochBase := (congrArg State.epochBase h.state).trans rfl
  refine ⟨?_, h.part, fun t => ?_⟩
  · rw [hTiles]
    exact h.state
  · rw [State.tile, State.tile, hTiles, hBase]
    rfl

/-- What looks at neither windows, traffic nor records is the same. -/
theorem proj {α : Type} {s s' : State} (h : s.WindowsOnly s') (f : State → α)
    (hf : f { s with
      tiles := s'.tiles, sent := s'.sent, wire := s'.wire, ports := s'.ports, engines := s'.engines, parts := s'.parts
      hbm := s'.hbm, obsWindow := s'.obsWindow, obsBytes := s'.obsBytes, datagrams := s'.datagrams, freeCtr := s'.freeCtr
      neighbours := s'.neighbours, unresolved := s'.unresolved } = f s := by rfl) : f s' = f s :=
  (congrArg f h.state).trans hf

end State.WindowsOnly

theorem State.windowsOnly_modTile (s : State) (t : TileId) {f : Tile → Tile} (hf : ∀ x : Tile, x.WindowsOnly (f x)) :
    s.WindowsOnly (s.modTile t f) := by
  refine ⟨rfl, fun _ => .refl _, fun x => ?_⟩
  by_cases hx : x = t
  · subst hx
    rw [State.modTile_tile_same]
    exact hf _
  · rw [State.modTile_tile_other _ _ hx]
    rfl

theorem State.windowsOnly_sendGrant (s : State) (p : PartId) (i : Nat) : s.WindowsOnly (s.sendGrant p i) := by
  unfold State.sendGrant
  split
  · exact .refl s
  · extract_lets win h recip host
    split
    · exact .refl s
    next t _ =>
      extract_lets m s1
      have hs1 : s.WindowsOnly s1 := s.windowsOnly_modTile t fun _ => rfl
      split
      · exact .refl s
      · exact hs1.trans (.of_traffic (State.trafficOnly_send ..))

theorem State.windowsOnly_advance (s : State) (t : TileId) (h : Nat) (toggle : Bool) :
    s.WindowsOnly (s.advance t h toggle) := by
  unfold State.advance
  extract_lets w epoch pub w' isWrite s1
  have hs1 : s.WindowsOnly s1 := s.windowsOnly_modTile t fun _ => rfl
  split
  · split
    · extract_lets idx
      exact hs1.foldl (fun x i => x.windowsOnly_sendGrant ..) _
    · exact hs1
  · exact hs1

theorem State.windowsOnly_advanceAll (s : State) (p : PartId) (kind : Nat) (f : BitVec 128 → Bool) (toggle : Bool) :
    s.WindowsOnly (s.advanceAll p kind f toggle) :=
  (State.WindowsOnly.refl s).foldl (fun x _ => (State.WindowsOnly.refl x).foldl (fun y _ => y.windowsOnly_advance ..) _) _

end Sys2Proof.Machine
end

section
/-! ### Frame gates (R308 to R311) -/

namespace Sys2Proof.Machine

theorem nodup_groupParts (s : State) (g : GroupId) : (s.groupParts g).Nodup :=
  List.Nodup.filter _ (by decide : allParts.Nodup)

/-! #### Reports -/

theorem State.tryReady_of_ready {s : State} {p : PartId} (h : (s.part p).ready = true) : s.tryReady p = s := by
  rw [State.tryReady, if_neg]
  simp [h]

theorem State.foldl_tryReady_of_ready {s : State} {l : List PartId} (h : ∀ p ∈ l, (s.part p).ready = true) :
    l.foldl State.tryReady s = s := by
  induction l with
  | nil => rfl
  | cons p l ih =>
    rw [List.foldl_cons, State.tryReady_of_ready (h p (by simp))]
    exact ih fun q hq => h q (by simp [hq])

theorem State.reportReady_of_deviceReady {s : State} {g : GroupId} (hLive : s.live = true)
    (hReady : s.deviceReady g = true) (hRole : (s.group g).role ≠ 0) : s.reportReady g =
      s.sendReady { frame := (s.group g).frame + 1, group := g, data := s.gateSource g = 0, withdraw := false } := by
  have hAll : ∀ p ∈ s.groupParts g, (s.part p).ready = true := by
    have hEvery := (Bool.and_eq_true_iff.mp hReady).2
    exact fun p hp => (Bool.and_eq_true_iff.mp (List.all_eq_true.mp hEvery p hp)).1
  rw [State.reportReady, State.each, State.foldl_tryReady_of_ready hAll, if_pos ⟨hLive, hReady, hRole⟩]

theorem State.takeReady_of_next {s : State} {src : BitVec 8} {m : ReadyMsg} (hRole : (s.group m.group).role = 2)
    (hFired : (s.group m.group).fired = true) (hNext : m.withdraw = true ∨ m.frame = (s.group m.group).frame + 1) :
    let others := (s.group m.group).ready.filter fun r => r.1 != src
    let x : Group := { s.group m.group with ready := if m.withdraw then others else others ++ [(src, m.frame)] }
    s.takeReady src m = s.modGroup m.group fun _ => { x with waiting := x.allReady } := by
  intro others x
  have hx : (if m.withdraw then { s.group m.group with ready := others }
      else if !(s.group m.group).fired && later m.frame ((s.group m.group).frame + 1) then
        { s.group m.group with ready := others ++ [(src, m.frame)], frame := m.frame - 1 }
      else if !(s.group m.group).fired || m.frame == (s.group m.group).frame + 1 then
        { s.group m.group with ready := others ++ [(src, m.frame)] }
      else if m.frame == (s.group m.group).frame && decide (100000 ≤ nsSince (s.group m.group).firedAt s.now) then
        { s.group m.group with ready := others ++ [(src, (s.group m.group).frame + 1)] }
      else s.group m.group) = x := by
    cases hW : m.withdraw with
    | true => simp [x, hW]
    | false =>
      have hFrame := hNext.resolve_left (by simp [hW])
      simp [x, hW, hFired, hFrame]
  rw [State.takeReady, if_neg (not_not.mpr hRole)]
  dsimp only
  rw [hx, Group.settle]
  have hTwo : x.role = 2 := hRole
  simp [hTwo]

/-! #### Fires -/

/-- The state in which a gate has fired for a partition. -/
structure Part.Armed (x : Part) (f : BitVec 32) (ts : Stamp) : Prop where
  armed : x.armed = true
  ready : x.ready = false
  frame : x.frame = f
  startAt : x.startAt = ts

theorem Part.Armed.of_records {x y : Part} {f : BitVec 32} {ts : Stamp} (h : x.Armed f ts) (hy : x.RecordsOnly y) :
    y.Armed f ts :=
  ⟨(hy.proj Part.armed).trans h.armed, (hy.proj Part.ready).trans h.ready, (hy.proj Part.frame).trans h.frame,
    (hy.proj Part.startAt).trans h.startAt⟩

theorem State.windowsOnly_turn (s : State) (p : PartId) : s.WindowsOnly
    ((s.advanceAll p 1 (fun _ => true) true).each (s.tilesOf p) fun s t => s.modTile t Tile.turnCredits) :=
  (s.windowsOnly_advanceAll p 1 (fun _ => true) true).foldl (f := fun s t => s.modTile t Tile.turnCredits) (fun x t => x.windowsOnly_modTile t fun _ => rfl) _

theorem State.firePart_groups (s : State) (p : PartId) (f : BitVec 32) (ts : Stamp) (missed : Nat) :
    (s.firePart p f ts missed).groups = s.groups := by
  unfold State.firePart
  dsimp only
  split
  · rfl
  · split
    · exact ((State.windowsOnly_turn _ p).proj State.groups).trans rfl
    · rfl

theorem State.firePart_other (s : State) {p q : PartId} (f : BitVec 32) (ts : Stamp) (missed : Nat) (h : q ≠ p) :
    (s.part q).RecordsOnly ((s.firePart p f ts missed).part q) := by
  unfold State.firePart
  dsimp only
  split
  · rw [State.modPart_part_other _ _ h]
    exact .refl _
  · split
    · refine Part.RecordsOnly.trans ?_ ((State.windowsOnly_turn _ p).part q)
      rw [State.modPart_part_other _ _ h]
      exact .refl _
    · exact .refl _

theorem State.firePart_same {s : State} {p : PartId} (f : BitVec 32) (ts : Stamp) (missed : Nat)
    (hGo : (s.part p).slackStopped = false) (hReady : (s.part p).ready = true) :
    ((s.firePart p f ts missed).part p).Armed f ts := by
  unfold State.firePart
  dsimp only
  rw [if_neg (by simp [hGo]), if_pos hReady]
  refine Part.Armed.of_records ?_ ((State.windowsOnly_turn _ p).part p)
  rw [State.modPart_part_same]
  exact ⟨rfl, rfl, rfl, rfl⟩

theorem State.foldl_firePart_groups (l : List PartId) (f : BitVec 32) (ts : Stamp) (missed : Nat) (s : State) :
    (l.foldl (fun s p => s.firePart p f ts missed) s).groups = s.groups :=
  foldl_keeps (P := fun x : State => x.groups = s.groups) l rfl fun x p h => (x.firePart_groups p f ts missed).trans h

theorem State.foldl_firePart_part {l : List PartId} (hl : l.Nodup) {p : PartId} (hp : p ∈ l) (f : BitVec 32) (ts : Stamp)
    (missed : Nat) {s : State} (hGo : (s.part p).slackStopped = false) (hReady : (s.part p).ready = true) :
    ((l.foldl (fun s p => s.firePart p f ts missed) s).part p).Armed f ts := by
  refine foldl_reaches (P := fun x : State => (x.part p).slackStopped = false ∧ (x.part p).ready = true)
    (Q := fun x : State => (x.part p).Armed f ts) hl hp (fun x q hq h => ?_) (fun x q hq h => ?_)
    (fun x h => State.firePart_same f ts missed h.1 h.2) ⟨hGo, hReady⟩
  · have hOther := x.firePart_other (p := q) f ts missed (Ne.symm hq)
    exact ⟨(hOther.proj Part.slackStopped).trans h.1, (hOther.proj Part.ready).trans h.2⟩
  · exact h.of_records (x.firePart_other (p := q) f ts missed (Ne.symm hq))

theorem State.foldl_raise_late (l : List PartId) (src : State → BitVec 24) (s : State) :
    (l.foldl (fun s p => s.raise 0x000F clsNone (src s) noIds (some p) []) s).groups = s.groups ∧
    ∀ q, (s.part q).RecordsOnly ((l.foldl (fun s p => s.raise 0x000F clsNone (src s) noIds (some p) []) s).part q) :=
  foldl_keeps (P := fun x : State => x.groups = s.groups ∧ ∀ q, (s.part q).RecordsOnly (x.part q)) l
    ⟨rfl, fun _ => .refl _⟩
    fun _ _ h => ⟨(State.raise_groups ..).trans h.1, fun q => (h.2 q).trans (State.recordsOnly_raise_none ..)⟩

/-- A fire that this device takes: its group stands at the frame, and every partition that was ready is armed. -/
theorem State.takeFire_spec (s : State) (g : GroupId) (f : BitVec 32) (missed : Nat) (ts : Stamp) (late : Bool) :
    (s.takeFire g f missed ts late).group g = { s.group g with frame := f, late, ready := [], waiting := false } ∧
    ∀ p ∈ s.groupParts g, (s.part p).slackStopped = false → (s.part p).ready = true →
      ((s.takeFire g f missed ts late).part p).Armed f ts := by
  unfold State.takeFire
  extract_lets s1 s2 eng
  have hGroups : s2.groups = s1.groups := State.foldl_firePart_groups ..
  have hs1 : s1.group g = { s.group g with frame := f, late, ready := [], waiting := false } :=
    State.modGroup_group_same s g fun x => { x with frame := f, late, ready := [], waiting := false }
  have hs2 : s2.group g = { s.group g with frame := f, late, ready := [], waiting := false } := by
    rw [State.group, hGroups]
    exact hs1
  have hArmed : ∀ p ∈ s.groupParts g, (s.part p).slackStopped = false → (s.part p).ready = true →
      (s2.part p).Armed f ts :=
    fun p hp hGo hReady => State.foldl_firePart_part (nodup_groupParts s1 g) hp f ts missed (s := s1) hGo hReady
  split
  · have hRaise := State.foldl_raise_late (s2.groupParts g) (fun s => s.srcH 7 eng) s2
    refine ⟨?_, fun p hp hGo hReady => (hArmed p hp hGo hReady).of_records (hRaise.2 p)⟩
    exact (congrArg (fun x => Store.get ({} : Group) x g.val) hRaise.1).trans hs2
  · exact ⟨hs2, hArmed⟩

theorem State.noteEvent_group (s : State) (g : GroupId) (t : Stamp) :
    ∃ gap, (s.noteEvent g t).group g = { s.group g with eventAt := t, gap := gap } := ⟨_, State.modGroup_group_same ..⟩

theorem Group.allReady_event (x : Group) (t : Stamp) (gap : Nat) :
    Group.allReady { x with eventAt := t, gap := gap } = x.allReady := rfl

/-- The leader's fire, from the group as it stood. -/
theorem State.fire_spec (s : State) (g : GroupId) (source : BitVec 2) (tf : Stamp) :
    let s' := s.fire g source tf
    (s'.group g).frame = (s.group g).frame + 1 ∧ (s'.group g).fired = true ∧ (s'.group g).missed = 0 ∧
    (s'.group g).ready = [] ∧ ∀ p ∈ s.groupParts g, (s.part p).slackStopped = false → (s.part p).ready = true →
      (s'.part p).Armed ((s.group g).frame + 1) (tf + (BitVec.ofNat 32 (s.dval (0x2200 + g.val) 3)).setWidth 64) := by
  intro s'
  unfold s' State.fire
  extract_lets x f lead missed s1 s2
  have hSend : s1.TrafficOnly s2 := (State.TrafficOnly.refl s1).foldl (fun y m => y.trafficOnly_send ..) _
  have hs1 : s1.group g = { s.group g with
      fired := true, firedAt := tf, t0 := if (s.group g).fired then (s.group g).t0 else tf, missed := 0 } :=
    State.modGroup_group_same s g fun x => { x with
      fired := true, firedAt := tf, t0 := if x.fired then x.t0 else tf, missed := 0 }
  have hs2 : s2.group g = s1.group g := (congrArg (State.group · g) hSend.state).trans rfl
  have hParts : s2.groupParts g = s.groupParts g := (congrArg (State.groupParts · g) hSend.state).trans rfl
  have hPart (p : PartId) : (s.part p).RecordsOnly (s2.part p) := hSend.part p
  obtain ⟨hGroup, hArmed⟩ := s2.takeFire_spec g f missed.toNat (tf + lead.setWidth 64) false
  rw [hs2, hs1] at hGroup
  rw [hGroup]
  refine ⟨rfl, rfl, rfl, rfl, fun p hp hGo hReady => hArmed p (hParts ▸ hp) ?_ ?_⟩
  · exact ((hPart p).proj Part.slackStopped).trans hGo
  · exact ((hPart p).proj Part.ready).trans hReady

theorem State.noteEvent_allReady (s : State) (g : GroupId) (t : Stamp) :
    ((s.noteEvent g t).group g).allReady = (s.group g).allReady := by
  obtain ⟨gap, h⟩ := s.noteEvent_group g t
  rw [h]
  rfl

/-! #### Events that pass -/

theorem State.tryReady_groups (s : State) (p : PartId) : (s.tryReady p).groups = s.groups := by
  unfold State.tryReady State.finishRaise
  split
  · split
    · rfl
    · rfl
  · rfl

theorem State.passEvent_groups (s : State) (g : GroupId) : (s.passEvent g).groups = s.groups := by
  unfold State.passEvent
  split
  · rfl
  · exact foldl_keeps (P := fun x : State => x.groups = s.groups) _ rfl fun x p h => (State.tryReady_groups ..).trans h

/-! #### The start stamp -/

theorem startStamp_late (m : FireMsg) (trx : Stamp) :
    (startStamp m trx).2 = true ↔ trx.toNat + m.lead.toNat < trx.toNat + 4000 + m.corr.toNat / 20 := by
  unfold startStamp
  dsimp only
  split
  · simp only [true_iff]
    omega
  · simp only [Bool.false_eq_true, false_iff]
    omega

theorem startStamp_time {m : FireMsg} {trx : Stamp} (h : trx.toNat + m.lead.toNat + 4000 < 2 ^ 64) :
    (startStamp m trx).1.toNat = max (trx.toNat + 4000) (trx.toNat + m.lead.toNat - m.corr.toNat / 20) := by
  unfold startStamp
  dsimp only
  split
  next hLate =>
    have hSum : (trx + 4000#64).toNat = trx.toNat + 4000 := by
      rw [BitVec.toNat_add_of_lt]
      · rfl
      · simp only [BitVec.reduceToNat]
        omega
    show (trx + 4000#64).toNat = _
    rw [hSum]
    omega
  next hLate =>
    rw [BitVec.toNat_ofInt]
    omega

/-- Settles O43: reports and fires by the lemmas above. -/
theorem gatesCollectReadyAndFire : Obligations.GatesCollectReadyAndFire := by
  unfold Obligations.GatesCollectReadyAndFire
  refine ⟨fun s g hLive => ⟨fun hRole hReady => ?_, fun src m hg hRole hFired hNext => ?_⟩, fun s g hLive =>
    ⟨fun source tf hSource hRole => ⟨fun hAll => ?_, fun hNot hPeriodic hFired => ?_⟩,
      fun src m trx hg hRole hLeader hLater => ?_, fun m trx h => ⟨startStamp_time h, startStamp_late m trx⟩⟩⟩
  · have hReport := State.reportReady_of_deviceReady hLive hReady hRole
    exact ⟨congrArg Host.Outcome.next hReport, congrArg Host.Outcome.next hReport, fun hOther => if_neg hOther⟩
  · subst hg
    have hTake : exec (.gateReadyReceive src m) s = .next (s.takeReady src m) := congrArg Host.Outcome.next (if_pos hLive)
    exact hTake.trans (congrArg Host.Outcome.next (State.takeReady_of_next hRole hFired hNext))
  · have hExec : exec (.gateSourceEvent g source tf) s = .next (((s.reach tf).noteEvent g tf).fire g source tf) :=
      congrArg Host.Outcome.next ((if_pos ⟨hLive, hSource⟩).trans
        (if_pos (((s.reach tf).noteEvent_allReady g tf).trans hAll)))
    obtain ⟨gap, hGroup⟩ := (s.reach tf).noteEvent_group g tf
    obtain ⟨hFrame, hFired, hMissed, hList, hArmed⟩ := ((s.reach tf).noteEvent g tf).fire_spec g source tf
    rw [hGroup] at hFrame hArmed
    refine ⟨_, hExec, hFrame, hFired, hMissed, hList, fun p hp hReady hGo => ?_⟩
    obtain ⟨h1, h2, h3, h4⟩ := hArmed p hp hGo hReady
    exact ⟨h1, h2, h3, h4⟩
  · obtain ⟨gap, hGroup⟩ := (s.reach tf).noteEvent_group g tf
    have hPass : (((s.reach tf).noteEvent g tf).passEvent g).group g = { s.group g with eventAt := tf, gap := gap } :=
      (congrArg (fun x => Store.get ({} : Group) x g.val) (State.passEvent_groups ..)).trans hGroup
    have hExec : exec (.gateSourceEvent g source tf) s = .next ((((s.reach tf).noteEvent g tf).passEvent g).modGroup g
        fun x => { x with missed := x.missed + 1 }) := by
      refine congrArg Host.Outcome.next ((if_pos ⟨hLive, hSource⟩).trans ((if_neg ?_).trans (if_pos ⟨hPeriodic, ?_⟩)))
      · rw [State.noteEvent_allReady]
        exact Bool.eq_false_iff.mp hNot
      · rw [hPass]
        exact hFired
    refine ⟨_, hExec, ?_, ?_⟩
    · rw [State.modGroup_group_same, hPass]
    · rw [State.modGroup_group_same, hPass]
  · subst hg
    obtain ⟨gap, hGroup⟩ := (s.reach trx).noteEvent_group m.group m.tf
    have hExec : exec (.gateFireReceive src m trx) s = .next (((s.reach trx).noteEvent m.group m.tf).takeFire m.group m.frame
        m.missed.toNat (startStamp m trx).1 (startStamp m trx).2) :=
      congrArg Host.Outcome.next ((if_pos hLive).trans (if_pos ⟨hRole, hLeader, hLater⟩))
    obtain ⟨hGroup', hArmed⟩ := ((s.reach trx).noteEvent m.group m.tf).takeFire_spec m.group m.frame m.missed.toNat
      (startStamp m trx).1 (startStamp m trx).2
    refine ⟨_, hExec, congrArg Group.frame hGroup', congrArg Group.late hGroup', fun p hp hReady hGo => ?_⟩
    obtain ⟨h1, h2, h3, h4⟩ := hArmed p hp hGo hReady
    exact ⟨h1, h3, h4⟩

end Sys2Proof.Machine
end

section
/-! ### Slack: triggers, stops and scan-out (R315, R471 to R478) -/

namespace Sys2Proof.Machine

theorem foldl_keeps_of_mem {α β : Type} {P : β → Prop} {f : β → α → β} (l : List α) {x : β} (h : P x)
    (hf : ∀ y a, a ∈ l → P y → P (f y a)) : P (l.foldl f x) := by
  induction l generalizing x with
  | nil => exact h
  | cons a l ih => exact ih (hf x a (by simp) h) fun y b hb => hf y b (by simp [hb])

/-- What looks at neither traffic nor records is the same. -/
theorem State.TrafficOnly.proj {α : Type} {s s' : State} (h : s.TrafficOnly s') (f : State → α)
    (hf : f { s with
      sent := s'.sent, wire := s'.wire, ports := s'.ports, engines := s'.engines, parts := s'.parts, hbm := s'.hbm
      obsWindow := s'.obsWindow, obsBytes := s'.obsBytes, datagrams := s'.datagrams, freeCtr := s'.freeCtr
      neighbours := s'.neighbours, unresolved := s'.unresolved } = f s := by rfl) : f s' = f s :=
  (congrArg f h.state).trans hf

/-! #### Armed partitions -/

theorem State.armedParts_congr {s s' : State} (hDict : s'.dict = s.dict)
    (hPart : ∀ p, (s'.part p).slackStopped = (s.part p).slackStopped) : s'.armedParts = s.armedParts := by
  have hVal : s'.dval = s.dval := by
    unfold State.dval
    rw [hDict]
  unfold State.armedParts State.armed State.enabled State.layout State.level State.vval
  refine List.filter_congr fun p _ => ?_
  rw [hVal, hPart]

theorem State.TrafficOnly.armedParts {s s' : State} (h : s.TrafficOnly s') : s'.armedParts = s.armedParts :=
  State.armedParts_congr (h.proj State.dict) fun p => (h.part p).proj Part.slackStopped

/-! #### Triggers and messages -/

theorem State.trafficOnly_sendStop (s : State) (m : StopMsg) : s.TrafficOnly (s.sendStop m) :=
  (State.TrafficOnly.refl s).foldl (fun x _ => x.trafficOnly_send ..) _

theorem State.trafficOnly_marker (s : State) (p : PartId) (l : List Byte) : s.TrafficOnly (s.marker p l) :=
  s.trafficOnly_offer ..

theorem State.trafficOnly_writeMarkers (s : State) : s.TrafficOnly s.writeMarkers := by
  unfold State.writeMarkers
  dsimp only
  split
  · exact s.trafficOnly_marker ..
  · exact (State.TrafficOnly.refl s).foldl (fun x p => x.trafficOnly_marker ..) _

/-- The Slack words of a stop that this device originates. -/
def State.ownStop (s : State) (target : Stamp) : Slack :=
  { s.slack with
    seq := s.slack.seq + 1, stopid := s.nextStopId, originDev := s.devNum, originT := target, origin := true
    awaitId := false, seen := s.slack.seen ++ [s.nextStopId] }

theorem State.trafficOnly_originate (s : State) (target : Stamp) :
    State.TrafficOnly { s with slack := s.ownStop target } (s.originate target) := State.trafficOnly_sendStop ..

theorem State.originate_slack (s : State) (target : Stamp) : (s.originate target).slack = s.ownStop target :=
  (s.trafficOnly_originate target).proj State.slack

theorem exec_slackTrigger {s : State} {p : PartId} {tr : Fin 7} (hLive : s.live = true) (hPending : s.slack.pending = false)
    (hArmed : p ∈ s.armedParts) (hLow : 1 ≤ tr.val) (hHigh : tr.val ≤ 4) (hGo : s.slack.stopped = false) :
    exec (.slackTrigger p tr) s = .next { s.originate (s.now + 64) with
      slack := { (s.originate (s.now + 64)).slack with
        pending := true, trigger := BitVec.ofNat 3 tr.val, ownT := s.now + 64, adopted := false }
      pins := { (s.originate (s.now + 64)).pins with slackLow := true } } :=
  congrArg Host.Outcome.next ((if_pos ⟨hLive, hLow, hHigh, List.contains_iff_mem.mpr hArmed, hPending⟩).trans
    (if_neg (Bool.eq_false_iff.mp hGo)))

theorem exec_slackStopMessageReceive {s : State} {m : StopMsg} {trx : Stamp} (hLive : s.live = true)
    (hPending : s.slack.pending = false) (hId : s.slack.awaitId = false) (hGo : s.slack.stopped = false)
    (hArmed : s.armedParts ≠ []) (hNew : m.stopid ∉ s.slack.seen) :
    let s1 := ({ s.reach trx with slack := { s.slack with seen := s.slack.seen ++ [m.stopid] } } : State).sendStop m
    exec (.slackStopMessageReceive m trx) s = .next { s1 with slack := { s1.slack with
      pending := true, trigger := 6, ownT := trx + 64, originT := m.target, stopid := m.stopid
      originDev := m.origin, origin := false, adopted := false } } := by
  intro s1
  have hs1 : State.TrafficOnly { s.reach trx with slack := { s.slack with seen := s.slack.seen ++ [m.stopid] } } s1 :=
    State.trafficOnly_sendStop ..
  have hSlack : s1.slack = { s.slack with seen := s.slack.seen ++ [m.stopid] } := hs1.proj State.slack
  have hParts : s1.armedParts = s.armedParts :=
    hs1.armedParts.trans (State.armedParts_congr rfl fun _ => rfl)
  have hNotSeen : ¬ s.slack.seen.contains m.stopid = true := fun h => hNew (List.contains_iff_mem.mp h)
  have hId1 : ¬ s1.slack.awaitId = true := by
    rw [hSlack]
    exact Bool.eq_false_iff.mp hId
  have hGo1 : ¬ s1.slack.stopped = true := by
    rw [hSlack]
    exact Bool.eq_false_iff.mp hGo
  have hPending1 : ¬ s1.slack.pending = true := by
    rw [hSlack]
    exact Bool.eq_false_iff.mp hPending
  have hArmed1 : ¬ s1.armedParts = [] := hParts ▸ hArmed
  exact congrArg Host.Outcome.next ((if_pos hLive).trans ((if_neg hNotSeen).trans ((if_neg hId1).trans ((if_neg hGo1).trans
    ((if_neg hPending1).trans (if_neg hArmed1))))))

/-! #### The stop -/

/-- `s'` differs from `s` in gate groups and the traffic of messages at most. -/
structure State.GateOnly (s s' : State) : Prop where
  state : s' = { s with
    groups := s'.groups, discarded := s'.discarded, sent := s'.sent, wire := s'.wire, ports := s'.ports
    engines := s'.engines, parts := s'.parts, hbm := s'.hbm, obsWindow := s'.obsWindow, obsBytes := s'.obsBytes
    datagrams := s'.datagrams, freeCtr := s'.freeCtr, neighbours := s'.neighbours, unresolved := s'.unresolved }
  part : ∀ p, (s.part p).RecordsOnly (s'.part p)

theorem State.gateOnly_sendReady (s : State) (m : ReadyMsg) : s.GateOnly (s.sendReady m) := by
  unfold State.sendReady
  split
  · unfold State.takeReady
    dsimp only
    split
    · exact ⟨rfl, fun _ => .refl _⟩
    · exact ⟨rfl, fun _ => .refl _⟩
  · have hSend := s.trafficOnly_send (.device (s.leaderOf m.group)) (.ready m)
    have hGroups : (s.send (.device (s.leaderOf m.group)) (.ready m)).groups = s.groups := hSend.proj State.groups
    have hCount : (s.send (.device (s.leaderOf m.group)) (.ready m)).discarded = s.discarded := hSend.proj State.discarded
    refine ⟨?_, hSend.part⟩
    rw [hGroups, hCount]
    exact hSend.state

theorem State.gateOnly_sendWithdraw (s : State) (p : PartId) : s.GateOnly (s.sendWithdraw p) := by
  unfold State.sendWithdraw
  dsimp only
  split
  · exact s.gateOnly_sendReady _
  · exact ⟨rfl, fun _ => .refl _⟩

/-- A partition stops: it leaves its gate and is HALTED. -/
def State.haltAtStop (s : State) (p : PartId) : State :=
  (s.leaveGate p).modPart p fun pt => { pt with slackStopped := true, st := .halted }

theorem State.haltAtStop_same (s : State) (p : PartId) : ∃ missed,
    Part.RecordsOnly { s.part p with
      ready := false, armed := false, pendingMissed := missed, slackStopped := true, st := .halted }
      ((s.haltAtStop p).part p) := by
  have hPart := (s.gateOnly_sendWithdraw p).part p
  unfold State.haltAtStop State.leaveGate
  rw [State.modPart_modPart, State.modPart_part_same]
  have hMissed : ((s.sendWithdraw p).part p).pendingMissed = (s.part p).pendingMissed := hPart.proj Part.pendingMissed
  refine ⟨((s.sendWithdraw p).part p).pendingMissed + b2n ((s.sendWithdraw p).part p).armed, ?_, hPart.capHeld⟩
  exact congrArg (fun x : Part => { x with
    ready := false, armed := false
    pendingMissed := ((s.sendWithdraw p).part p).pendingMissed + b2n ((s.sendWithdraw p).part p).armed
    slackStopped := true, st := .halted }) hPart.rest

theorem State.haltAtStop_other (s : State) {p q : PartId} (h : q ≠ p) :
    (s.part q).RecordsOnly ((s.haltAtStop p).part q) := by
  unfold State.haltAtStop State.leaveGate
  rw [State.modPart_part_other _ _ h, State.modPart_part_other _ _ h]
  exact (s.gateOnly_sendWithdraw p).part q

theorem State.haltAtStop_frame (s : State) (p : PartId) :
    (s.haltAtStop p).tiles = s.tiles ∧ (s.haltAtStop p).slack = s.slack :=
  ⟨(congrArg State.tiles (s.gateOnly_sendWithdraw p).state).trans rfl,
    (congrArg State.slack (s.gateOnly_sendWithdraw p).state).trans rfl⟩

/-- A partition as a stop leaves it. -/
structure Part.Stopped (x y : Part) : Prop where
  stopped : y.slackStopped = true
  st : y.st = .halted
  ready : y.ready = false
  armed : y.armed = false
  run : y.run = x.run
  capHeld : y.strand.capHeld = x.strand.capHeld

theorem Part.Stopped.of_records {x y z : Part} (h : x.Stopped y) (hz : y.RecordsOnly z) : x.Stopped z :=
  ⟨(hz.proj Part.slackStopped).trans h.stopped, (hz.proj Part.st).trans h.st, (hz.proj Part.ready).trans h.ready,
    (hz.proj Part.armed).trans h.armed, (hz.proj Part.run).trans h.run, hz.capHeld.trans h.capHeld⟩

theorem State.stopped_haltAtStop (s : State) (p : PartId) : (s.part p).Stopped ((s.haltAtStop p).part p) := by
  obtain ⟨missed, h⟩ := s.haltAtStop_same p
  exact ⟨h.proj Part.slackStopped, h.proj Part.st, h.proj Part.ready, h.proj Part.armed, h.proj Part.run, h.capHeld⟩

theorem State.foldl_haltAtStop_frame (l : List PartId) (s : State) :
    (l.foldl State.haltAtStop s).tiles = s.tiles ∧ (l.foldl State.haltAtStop s).slack = s.slack :=
  foldl_keeps (P := fun x : State => x.tiles = s.tiles ∧ x.slack = s.slack) l ⟨rfl, rfl⟩
    fun x p h => ⟨(x.haltAtStop_frame p).1.trans h.1, (x.haltAtStop_frame p).2.trans h.2⟩

theorem State.foldl_haltAtStop_mem {l : List PartId} (hl : l.Nodup) {p : PartId} (hp : p ∈ l) (s : State) :
    (s.part p).Stopped ((l.foldl State.haltAtStop s).part p) := by
  refine foldl_reaches (P := fun x : State => (s.part p).RecordsOnly (x.part p))
    (Q := fun x : State => (s.part p).Stopped (x.part p)) hl hp (fun x q hq h => h.trans (x.haltAtStop_other hq.symm))
    (fun x q hq h => h.of_records (x.haltAtStop_other hq.symm)) (fun x h => ?_) (.refl _)
  have hStop := x.stopped_haltAtStop p
  exact { hStop with run := hStop.run.trans (h.proj Part.run), capHeld := hStop.capHeld.trans h.capHeld }

theorem State.foldl_haltAtStop_not_mem {l : List PartId} {p : PartId} (hp : p ∉ l) (s : State) :
    (s.part p).RecordsOnly ((l.foldl State.haltAtStop s).part p) :=
  foldl_keeps_of_mem (P := fun x : State => (s.part p).RecordsOnly (x.part p)) l (.refl _)
    fun x _ hq h => h.trans (x.haltAtStop_other fun e => hp (e ▸ hq))

/-- The partitions of a list as a mask. -/
def partMask (l : List PartId) : BitVec 8 := BitVec.ofNat 8 (l.foldl (fun n p => n + 2 ^ p.val) 0)

theorem partMask_ne_zero {f : PartId → Bool} (h : allParts.filter f ≠ []) : partMask (allParts.filter f) ≠ 0 := by
  have hAll : ∀ l ∈ allParts.sublists, l ≠ [] → partMask l ≠ 0 := by decide +kernel
  exact hAll _ (List.mem_sublists.mpr List.filter_sublist) h

theorem exec_slackStop {s : State} {a b : Stamp} {late : Bool} (hLive : s.live = true) (hPending : s.slack.pending = true)
    (hSome : s.armedParts ≠ []) (hFree : ∀ p ∈ s.armedParts, (s.part p).strand.capHeld = false) :
    let s1 := s.armedParts.foldl State.haltAtStop (s.reach (if a < b then b else a))
    ∃ parts noCap trigger, ∃ s' : State, exec (.slackStop a b late) s = .next s'.setD29 ∧ State.TrafficOnly { s1 with
      slack := { s.slack with
        pending := false, stopped := true, scanning := true, late, parts := parts, noCapture := noCap, stopA := a, stopB := b
        trigger := trigger, origin := s.slack.origin, stops := satAdd s.slack.stops 1 } } s' := by
  intro s1
  have hExec : exec (.slackStop a b late) s = execSlackStop a b late s := rfl
  rw [hExec, execSlackStop, if_pos ⟨hLive, hPending⟩]
  extract_lets s2 ps s3 mask noCap parts any sl s4 s5
  have hs3 : s3 = s1 := rfl
  have hps : ps = s.armedParts := rfl
  have hAny : any = true := by
    cases h : ps with
    | nil => exact absurd h hSome
    | cons p l => simp [any, h]
  have hNoCap : noCap = 0 := by
    have hNone : (ps.filter fun p => (s3.part p).strand.capHeld) = [] := by
      refine List.filter_eq_nil_iff.mpr fun p hp => ?_
      have hStop := State.foldl_haltAtStop_mem (List.Nodup.filter _ (by decide : allParts.Nodup)) hp s2
      rw [show (s3.part p).strand.capHeld = (s.part p).strand.capHeld from hStop.capHeld, hFree p hp]
      decide
    show partMask (ps.filter fun p => (s3.part p).strand.capHeld) = 0
    rw [hNone]
    rfl
  have hParts : parts ≠ 0 := by
    have hAll : parts = partMask ps := congrArg partMask (List.filter_true ps)
    rw [hAll]
    exact partMask_ne_zero hSome
  have hSlack : sl = s.slack := (State.foldl_haltAtStop_frame ..).2
  have hs4 : s4 = { s1 with slack := { s.slack with
      pending := false, stopped := true, scanning := true, late, parts := parts, noCapture := noCap, stopA := a, stopB := b
      trigger := s.slack.trigger, origin := s.slack.origin, stops := satAdd s.slack.stops 1 } } := by
    have hScan : (parts != noCap) = true := by
      rw [hNoCap]
      exact bne_iff_ne.mpr hParts
    unfold s4
    rw [show s3.slack = s.slack from hSlack, hSlack, hAny, hScan]
    rfl
  have hs5 : s4.TrafficOnly s5 := by
    unfold s5
    split
    · exact .refl _
    · exact s4.trafficOnly_writeMarkers
  have hScanning : s5.slack.scanning = true := by
    rw [hs5.proj State.slack, hs4]
  refine ⟨parts, noCap, s.slack.trigger, s5, ?_, hs4 ▸ hs5⟩
  rw [if_pos hScanning]

/-! #### Scan-out -/

/-- `s'` differs from `s` in the contents of HBM at most. -/
def State.HbmOnly (s s' : State) : Prop := s' = { s with hbm := s'.hbm }

theorem State.HbmOnly.trans {a b c : State} (h : a.HbmOnly b) (h' : b.HbmOnly c) : a.HbmOnly c :=
  Eq.trans h' (congrArg (fun x : State => { x with hbm := c.hbm }) h)

theorem State.HbmOnly.proj {α : Type} {s s' : State} (h : s.HbmOnly s') (f : State → α)
    (hf : f { s with hbm := s'.hbm } = f s := by rfl) : f s' = f s := (congrArg f h).trans hf

theorem State.hbmOnly_hbmWrite (s : State) (a : Nat) (l : List Byte) : s.HbmOnly (s.hbmWrite a l) := rfl

theorem State.hbmOnly_keepHard (s old : State) (a n : Nat) : s.HbmOnly (s.keepHard old a n) :=
  foldl_keeps (P := fun x : State => s.HbmOnly x) _ rfl fun x _ h => h.trans (x.hbmOnly_hbmWrite ..)

/-- A capture is written: HBM, what is observed, and CAPHELD of the partition. -/
theorem State.writeCapture_shape (s : State) (p : PartId) (complete : Bool) : ∃ m w b, s.writeCapture p complete =
    ({ s with hbm := m, obsWindow := w, obsBytes := b } : State).modPart p fun pt =>
      { pt with strand := { pt.strand with capHeld := true } } := by
  unfold State.writeCapture
  extract_lets x sealed base onDie old
  split
  extract_lets n1 n2 n3 total ok head s1 s2 s3 s4
  have hs1 : s.HbmOnly s1 := rfl
  have hs3 : s.HbmOnly s3 := ((hs1.trans (s1.hbmOnly_hbmWrite ..)).trans (State.hbmOnly_hbmWrite ..)).trans
    ((State.hbmOnly_hbmWrite ..).trans (State.hbmOnly_hbmWrite ..))
  have hKeep : s.HbmOnly (s3.keepHard old base total) := hs3.trans (s3.hbmOnly_keepHard ..)
  have hs4 : s4 = { s with hbm := s4.hbm, obsWindow := s4.obsWindow, obsBytes := s4.obsBytes } :=
    congrArg (fun x : State => { x with obsWindow := s4.obsWindow, obsBytes := s4.obsBytes }) hKeep
  clear_value s4
  exact ⟨s4.hbm, s4.obsWindow, s4.obsBytes, by rw [← hs4]⟩

/-- What a scan-out keeps in a state that started as `s`: tiles, Slack words, and each partition's place among the stopped. -/
structure State.Scans (s s' : State) : Prop where
  tiles : s'.tiles = s.tiles
  slack : s'.slack = s.slack
  stopped : ∀ p, (s'.part p).slackStopped = (s.part p).slackStopped

theorem State.scans_writeCapture (s : State) (p : PartId) (complete : Bool) : s.Scans (s.writeCapture p complete) ∧
    ((s.writeCapture p complete).part p).strand.capHeld = true ∧
    ∀ q, q ≠ p → (s.writeCapture p complete).part q = s.part q := by
  obtain ⟨m, w, b, h⟩ := s.writeCapture_shape p complete
  rw [h]
  refine ⟨⟨rfl, rfl, fun q => ?_⟩, by rw [State.modPart_part_same], fun q hq => State.modPart_part_other _ _ hq⟩
  by_cases hq : q = p
  · subst hq
    rw [State.modPart_part_same]
    rfl
  · rw [State.modPart_part_other _ _ hq]
    rfl

theorem State.scans_recordGraph (s : State) (p : PartId) : s.Scans (s.recordGraph p) ∧
    ∀ q, ((s.recordGraph p).part q).strand.capHeld = (s.part q).strand.capHeld := by
  unfold State.recordGraph
  extract_lets es cut payload
  have hOffer := s.trafficOnly_offer p 8 (s.srcH 1 0) s.now noIds (if 4094 < es.length then 2 else 0) payload
  have hPart (q : PartId) {α : Type} (f : Part → α) (hf : ∀ x l, f { x with graphRec := l } = f x) :
      f (((s.offer p 8 (s.srcH 1 0) s.now noIds (if 4094 < es.length then 2 else 0) payload).modPart p fun pt =>
        { pt with graphRec := payload }).part q) =
      f ((s.offer p 8 (s.srcH 1 0) s.now noIds (if 4094 < es.length then 2 else 0) payload).part q) := by
    by_cases hq : q = p
    · subst hq
      rw [State.modPart_part_same]
      exact hf _ _
    · rw [State.modPart_part_other _ _ hq]
  refine ⟨⟨hOffer.proj State.tiles, hOffer.proj State.slack, fun q => ?_⟩, fun q => ?_⟩
  · exact (hPart q Part.slackStopped fun _ _ => rfl).trans ((hOffer.part q).proj Part.slackStopped)
  · exact (hPart q (fun x => x.strand.capHeld) fun _ _ => rfl).trans (hOffer.part q).capHeld

theorem State.Scans.trans {a b c : State} (h : a.Scans b) (h' : b.Scans c) : a.Scans c :=
  ⟨h'.tiles.trans h.tiles, h'.slack.trans h.slack, fun p => (h'.stopped p).trans (h.stopped p)⟩

theorem State.Scans.stoppedParts {s s' : State} (h : s.Scans s') : s'.stoppedParts = s.stoppedParts := by
  unfold State.stoppedParts
  exact List.filter_congr fun p _ => h.stopped p

theorem State.foldl_writeCapture (l : List PartId) (hl : l.Nodup) (complete : Bool) (s : State) (p : PartId) :
    s.Scans (l.foldl (fun s p => s.writeCapture p complete) s) ∧
    ((l.foldl (fun s p => s.writeCapture p complete) s).part p).strand.capHeld =
      if p ∈ l then true else (s.part p).strand.capHeld := by
  refine ⟨foldl_keeps (P := fun x : State => s.Scans x) l ⟨rfl, rfl, fun _ => rfl⟩
    fun x q h => h.trans (x.scans_writeCapture q complete).1, ?_⟩
  split
  next hp =>
    exact foldl_reaches (P := fun _ => True) (Q := fun x : State => (x.part p).strand.capHeld = true) hl hp
      (fun _ _ _ _ => trivial)
      (fun x q hq h => by rw [(x.scans_writeCapture q complete).2.2 p hq.symm, h])
      (fun x _ => (x.scans_writeCapture p complete).2.1) trivial
  next hp =>
    exact foldl_keeps_of_mem (P := fun x : State => (x.part p).strand.capHeld = (s.part p).strand.capHeld) l rfl
      fun x q hq h => by rw [(x.scans_writeCapture q complete).2.2 p fun e => hp (e ▸ hq), h]

theorem State.foldl_recordGraph (l : List PartId) (s : State) : s.Scans (l.foldl State.recordGraph s) ∧
    ∀ q, ((l.foldl State.recordGraph s).part q).strand.capHeld = (s.part q).strand.capHeld :=
  foldl_keeps (P := fun x : State => s.Scans x ∧ ∀ q, (x.part q).strand.capHeld = (s.part q).strand.capHeld) l
    ⟨⟨rfl, rfl, fun _ => rfl⟩, fun _ => rfl⟩
    fun x p h => ⟨h.1.trans (x.scans_recordGraph p).1, fun q => ((x.scans_recordGraph p).2 q).trans (h.2 q)⟩

/-- Scan-out ends without a fault that waits for it. -/
theorem State.endScan_spec {s : State} (hNone : s.slack.after = none) :
    State.Scans { s with slack := { s.slack with scanning := false } } s.endScan ∧
    ∀ q, (s.endScan.part q).strand.capHeld = (s.part q).strand.capHeld := by
  unfold State.endScan
  extract_lets sl s1
  obtain ⟨hScan, hCap⟩ := State.foldl_recordGraph s1.stoppedParts s1.setD29
  have hAfter : (s1.setD29.each s1.stoppedParts fun s p => s.recordGraph p).slack.after = none :=
    (congrArg Slack.after hScan.slack).trans hNone
  rw [State.afterStop, hAfter]
  exact ⟨⟨hScan.tiles, hScan.slack, hScan.stopped⟩, hCap⟩

theorem slackScanOut_spec {s : State} (c : Bool) (hScan : s.slack.scanning = true) (hNone : s.slack.after = none) :
    ∃ s', exec (.slackScanOut c) s = .next s' ∧ s'.slack.scanning = false ∧ s'.slack.stopped = s.slack.stopped ∧
      s'.tiles = s.tiles ∧ ∀ p, p ∈ s.stoppedParts →
        (s'.part p).strand.capHeld = ((s.part p).strand.capHeld || !s.slack.noCapture.getLsbD p.val) := by
  let l := s.stoppedParts.filter fun p => !s.slack.noCapture.getLsbD p.val
  have hl : l.Nodup := List.Nodup.filter _ (List.Nodup.filter _ (by decide : allParts.Nodup))
  let s1 := l.foldl (fun s p => s.writeCapture p c) s
  have hs1 : s.Scans s1 := (State.foldl_writeCapture l hl c s 0).1
  have hExec : exec (.slackScanOut c) s = .next s1.endScan := congrArg Host.Outcome.next (if_pos hScan)
  obtain ⟨hEnd, hCap⟩ := s1.endScan_spec ((congrArg Slack.after hs1.slack).trans hNone)
  refine ⟨_, hExec, ?_, ?_, hEnd.tiles.trans hs1.tiles, fun p hp => ?_⟩
  · rw [hEnd.slack]
  · rw [hEnd.slack, hs1.slack]
  · rw [hCap p, (State.foldl_writeCapture l hl c s p).2]
    have hMem : p ∈ l ↔ s.slack.noCapture.getLsbD p.val = false := by
      simp [l, hp]
    cases hBit : s.slack.noCapture.getLsbD p.val with
    | true =>
      rw [if_neg fun h => absurd (hBit.symm.trans (hMem.mp h)) (by decide)]
      exact (congrArg (fun x => x) (Bool.or_false _).symm).trans rfl
    | false =>
      rw [if_pos (hMem.mpr hBit)]
      exact (Bool.or_true _).symm

/-- Settles O58: the Slack words of each event, with the traffic of its messages. -/
theorem slackStopsArmedPartitions : Obligations.SlackStopsArmedPartitions := by
  unfold Obligations.SlackStopsArmedPartitions
  intro s
  refine ⟨fun hLive hPending => ⟨fun p tr hArmed hLow hHigh hGo => ?_, fun hGo hSome => ?_,
    fun m trx hId hGo hSome hNew => ?_⟩, fun m trx hLive hSeen => ?_, fun hId => ?_, rfl,
    fun a b late hLive hPending hSome hFree => ?_, fun c hScan hNone => slackScanOut_spec c hScan hNone⟩
  · have hSlack := s.originate_slack (s.now + 64)
    refine ⟨_, exec_slackTrigger hLive hPending hArmed hLow hHigh hGo, rfl, rfl, rfl, ?_, rfl, ?_, ?_⟩
    · exact congrArg Slack.origin hSlack
    · exact congrArg Slack.stopid hSlack
    · exact (s.trafficOnly_originate (s.now + 64)).proj State.tiles
  · exact ⟨_, congrArg Host.Outcome.next (if_pos ⟨hLive, hPending, hGo, hSome⟩), rfl, rfl, rfl, rfl, rfl, rfl⟩
  · exact ⟨_, exec_slackStopMessageReceive hLive hPending hId hGo hSome hNew, rfl, rfl, rfl, rfl, rfl, rfl,
      (State.trafficOnly_sendStop ..).proj State.tiles⟩
  · exact congrArg Host.Outcome.next ((if_pos hLive).trans (if_pos (List.contains_iff_mem.mpr hSeen)))
  · let s1 := s.originate s.slack.ownT
    have hMark : s1.TrafficOnly (if s1.slack.stopped then s1.writeMarkers else s1) := by
      split
      · exact s1.trafficOnly_writeMarkers
      · exact .refl s1
    have hSlack : (if s1.slack.stopped then s1.writeMarkers else s1).slack = s.ownStop s.slack.ownT :=
      (hMark.proj State.slack).trans (s.originate_slack s.slack.ownT)
    exact ⟨_, congrArg Host.Outcome.next (if_pos hId), congrArg Slack.awaitId hSlack, congrArg Slack.origin hSlack,
      congrArg Slack.stopid hSlack⟩
  · obtain ⟨parts, noCap, trigger, s', hExec, hTraffic⟩ := exec_slackStop hLive hPending hSome hFree (a := a) (b := b)
      (late := late)
    have hSlack := hTraffic.proj State.slack
    have hTiles : s'.tiles = s.tiles := (hTraffic.proj State.tiles).trans (State.foldl_haltAtStop_frame ..).1
    refine ⟨_, hExec, congrArg Slack.pending hSlack, congrArg Slack.stopped hSlack, congrArg Slack.scanning hSlack,
      congrArg Slack.late hSlack, congrArg Slack.stops hSlack, hTiles, fun p => ⟨fun hp => ?_, fun hp => ?_⟩⟩
    · have hStop := (State.foldl_haltAtStop_mem (List.Nodup.filter _ (by decide : allParts.Nodup)) hp
        (s.reach (if a < b then b else a))).of_records (hTraffic.part p)
      exact ⟨hStop.stopped, hStop.st, hStop.ready, hStop.armed, hStop.run⟩
    · have hRec := (State.foldl_haltAtStop_not_mem hp (s.reach (if a < b then b else a))).trans (hTraffic.part p)
      exact ⟨hRec.proj Part.st, hRec.proj Part.slackStopped⟩

end Sys2Proof.Machine
end

section
/-! ### What a power tick attributes and what the levers move (R373 to R382, R390, R391) -/

namespace Sys2Proof.Machine

@[simp] theorem State.addEnergy_residual (s : State) (p : PartId) (q n : Nat) : (s.addEnergy p q n).residual = s.residual := by
  unfold State.addEnergy
  split <;> rfl

theorem State.addEnergy_energy_same (s : State) (p : PartId) (q n : Nat) :
    Store.get 0 ((s.addEnergy p q n).part p).energy q = Store.get 0 (s.part p).energy q + BitVec.ofNat 64 n := by
  unfold State.addEnergy
  split
  · subst_vars
    exact (BitVec.add_zero _).symm
  · simp

theorem State.addEnergy_part_other (s : State) {p p' : PartId} (h : p' ≠ p) (q n : Nat) :
    (s.addEnergy p q n).part p' = s.part p' := by
  unfold State.addEnergy
  split
  · rfl
  · exact State.modPart_part_other _ _ h

theorem State.addResidual_part (s : State) (q n : Nat) (p : PartId) : (s.addResidual q n).part p = s.part p := by
  unfold State.addResidual
  split <;> rfl

theorem State.addResidual_residual_same (s : State) (q n : Nat) :
    Store.get 0 (s.addResidual q n).residual q = Store.get 0 s.residual q + BitVec.ofNat 64 n := by
  unfold State.addResidual
  split
  · subst_vars
    exact (BitVec.add_zero _).symm
  · exact Store.get_set_same ..

theorem State.foldl_addEnergy_residual (l : List PartId) (q : Nat) (part : PartId → Nat) (s : State) :
    (l.foldl (fun s p => s.addEnergy p q (part p)) s).residual = s.residual :=
  foldl_keeps (P := fun x : State => x.residual = s.residual) l rfl fun x _ h => (State.addEnergy_residual x ..).trans h

theorem State.foldl_addEnergy_energy {l : List PartId} (hl : l.Nodup) {p : PartId} (hp : p ∈ l) (q : Nat) (part : PartId → Nat)
    (s : State) : Store.get 0 ((l.foldl (fun s p => s.addEnergy p q (part p)) s).part p).energy q =
      Store.get 0 (s.part p).energy q + BitVec.ofNat 64 (part p) :=
  foldl_reaches (P := fun x : State => x.part p = s.part p)
    (Q := fun x : State => Store.get 0 (x.part p).energy q = Store.get 0 (s.part p).energy q + BitVec.ofNat 64 (part p))
    hl hp (fun x b hb h => (x.addEnergy_part_other hb.symm q _).trans h)
    (fun x b hb h => (congrArg (fun y : Part => Store.get 0 y.energy q) (x.addEnergy_part_other hb.symm q _)).trans h)
    (fun x h => (x.addEnergy_energy_same p q _).trans (by rw [h])) rfl

theorem foldl_add_eq_sum_nat {α : Type} (f : α → Nat) (l : List α) (n : Nat) :
    l.foldl (fun n x => n + f x) n = n + (l.map f).sum := by
  induction l generalizing n with
  | nil => rfl
  | cons x l ih => simp only [List.foldl_cons, List.map_cons, List.sum_cons, ih, Nat.add_assoc]

/-- Parts rounded down out of a total that covers the shares are no more than the whole. -/
theorem sum_mul_div_le {α : Type} (e total : Nat) (f : α → Nat) (l : List α) :
    (l.map fun x => e * f x / total).sum ≤ e * (l.map f).sum / total := by
  induction l with
  | nil => simp
  | cons x l ih =>
    calc (List.map (fun x => e * f x / total) (x :: l)).sum
        ≤ e * f x / total + e * (l.map f).sum / total := Nat.add_le_add_left ih _
      _ ≤ (e * f x + e * (l.map f).sum) / total := Nat.div_add_div_le_add_div ..
      _ = e * ((x :: l).map f).sum / total := by rw [← Nat.mul_add]; rfl

theorem sum_shared_le {α : Type} (e total : Nat) (f : α → Nat) {l : List α} (h : (l.map f).sum ≤ total) :
    (l.map fun x => if total = 0 then 0 else e * f x / total).sum ≤ e := by
  split
  · simp
  · refine (sum_mul_div_le e total f l).trans ?_
    exact (Nat.div_le_div_right (Nat.mul_le_mul_left e h)).trans (Nat.mul_div_cancel e (by omega)).le

theorem State.reduce_of_guarded {s : State} {l : List (Nat × Nat)} (h : s.predict l ≤ s.guardMw) (n : Nat) :
    s.reduce n l = l := by
  cases n with
  | zero => rfl
  | succ n => exact if_pos h

/-- A step from setting `x` to the lower setting `y`: a slower divider, or a lower class at the same one. -/
def LowerSetting (x y : Nat × Nat) : Prop := x.1 < y.1 ∧ y.2 = x.2 ∨ y.1 = x.1 ∧ x.2 < y.2

theorem State.slower_spec {s : State} {l : List (Nat × Nat)} {p : PartId} {x : Nat × Nat} (h : s.slower l p = some x) :
    s.passes p (s.part p).skipK.toNat x = true ∧ LowerSetting (setOf l p) x := by
  obtain ⟨d, hd, hx⟩ := Option.bind_eq_some_iff.mp h
  obtain ⟨hPasses, hx⟩ := Option.ite_none_right_eq_some.mp hx
  obtain rfl : _ = x := Option.some.inj hx
  exact ⟨hPasses, .inl ⟨of_decide_eq_true (List.find?_some hd :), rfl⟩⟩

theorem State.lower_spec {s : State} {l : List (Nat × Nat)} {p : PartId} {x : Nat × Nat} (h : s.lower l p = some x) :
    s.passes p (s.part p).skipK.toNat x = true ∧ LowerSetting (setOf l p) x := by
  obtain ⟨c, hc, rfl⟩ := Option.map_eq_some_iff.mp h
  obtain ⟨hLower, hPasses⟩ := Bool.and_eq_true_iff.mp (List.find?_some hc :)
  exact ⟨hPasses, .inr ⟨rfl, of_decide_eq_true hLower⟩⟩

theorem State.largest_mem {s : State} {l : List (Nat × Nat)} {ps : List PartId} {p : PartId} (h : s.largest l ps = some p) :
    p ∈ ps := by
  refine foldl_keeps_of_mem (P := fun acc => ∀ p, acc = some p → p ∈ ps) ps (by rintro p ⟨⟩) (fun acc q hq hAcc p hp => ?_) p h
  cases acc with
  | none => exact Option.some.inj hp ▸ hq
  | some r =>
    simp only at hp
    split at hp
    · exact Option.some.inj hp ▸ hq
    · exact hAcc p hp

/-- What one of the two levers takes: the largest movable partition it can move, and its lowered setting. -/
theorem State.lever_spec {s : State} {l l' : List (Nat × Nat)} {p : PartId} {f : PartId → Option (Nat × Nat)}
    (hp : s.largest l (allParts.filter fun p => s.movable p && (f p).isSome) = some p)
    (h : (f p).map (putSetting l p) = some l') : ∃ x, l' = l.set p.val x ∧ s.movable p = true ∧ f p = some x := by
  obtain ⟨x, hx, rfl⟩ := Option.map_eq_some_iff.mp h
  exact ⟨x, rfl, (Bool.and_eq_true_iff.mp (List.mem_filter.mp (State.largest_mem hp)).2).1, hx⟩

theorem State.pull_spec {s : State} {l l' : List (Nat × Nat)} (h : s.pull l = some l') : ∃ p x, l' = l.set p.val x ∧
    s.movable p = true ∧ s.passes p (s.part p).skipK.toNat x = true ∧ LowerSetting (setOf l p) x := by
  unfold State.pull at h
  split at h
  · next p hp =>
    obtain ⟨x, hl, hMovable, hx⟩ := State.lever_spec hp h
    exact ⟨p, x, hl, hMovable, State.slower_spec hx⟩
  · split at h
    · next p hp =>
      obtain ⟨x, hl, hMovable, hx⟩ := State.lever_spec hp h
      exact ⟨p, x, hl, hMovable, State.lower_spec hx⟩
    · cases h

/-- Settles O53: each partition's increment of a division is its share rounded down, which together are at most the
energy, and the residual takes the rest; a lever takes the largest of the movable partitions that it can lower. -/
theorem powerTicksAndLevers : Obligations.PowerTicksAndLevers := by
  refine ⟨⟨fun s m hLive => congrArg Host.Outcome.next (if_pos hLive), ?_⟩,
    fun s n l h => State.reduce_of_guarded h n, fun s l l' => State.pull_spec⟩
  intro s q e total shares part hShares
  have hSum : allParts.foldl (fun n p => n + part p) 0 = (allParts.map part).sum := by
    rw [foldl_add_eq_sum_nat, Nat.zero_add]
  refine ⟨sum_shared_le e total (fun p : PartId => shares.getD p.val 0) hShares, fun p => ?_, ?_⟩
  · rw [State.divide, State.addResidual_part]
    exact State.foldl_addEnergy_energy (by decide) (mem_allParts p) q part s
  · rw [State.divide, State.addResidual_residual_same]
    exact congrArg₂ (fun m n => Store.get 0 m q + BitVec.ofNat 64 (e - n))
      (State.foldl_addEnergy_residual allParts q part s) hSum

end Sys2Proof.Machine
end

section
/-! ### Bands that leave ON and come back (R226, R235, R366 to R371) -/

namespace Sys2Proof.Machine

@[simp] theorem State.setDom_dom_same (s : State) (n : Nat) (v : DomSt) : (s.setDom n v).dom n = v := Store.get_set_same ..

@[simp] theorem State.modBand_dom (s : State) (b : BandId) (f : Band → Band) (n : Nat) : (s.modBand b f).dom n = s.dom n := rfl

@[simp] theorem State.modBand_bandWrites (s : State) (b : BandId) (f : Band → Band) (c : BandId) :
    (s.modBand b f).bandWrites c = s.bandWrites c := rfl

@[simp] theorem State.setDom_bandWrites (s : State) (n : Nat) (v : DomSt) (c : BandId) :
    (s.setDom n v).bandWrites c = s.bandWrites c := rfl

@[simp] theorem State.modBand_bandFree (s : State) (b : BandId) (f : Band → Band) (c : BandId) :
    (s.modBand b f).bandFree c = s.bandFree c := rfl

theorem State.bandOwners_congr {s s' : State} (hDict : s'.dict = s.dict) (b : BandId) : s'.bandOwners b = s.bandOwners b := by
  have hVal : s'.dval = s.dval := by
    unfold State.dval
    rw [hDict]
  unfold State.bandOwners State.clusterMask State.enabled State.layout
  rw [hVal]

theorem State.mustRet_congr {s s' : State} (hDict : s'.dict = s.dict) (hPart : ∀ p, (s.part p).RecordsOnly (s'.part p))
    (b : BandId) : s'.mustRet b = s.mustRet b := by
  unfold State.mustRet
  rw [State.bandOwners_congr hDict]
  exact congrArg (s.bandOwners b).any (funext fun p => by rw [(hPart p).proj Part.copyLost, (hPart p).proj Part.image])

theorem mem_bandTiles {t : TileId} {b : BandId} : t ∈ bandTiles b ↔ bandOf (clusterOf t) = b := by
  simp [bandTiles]

theorem nodup_bandTiles (b : BandId) : (bandTiles b).Nodup := (List.nodup_finRange 512).filter _

/-! #### What each tile of a band becomes -/

theorem State.foldl_modTile_tile {l : List TileId} (hl : l.Nodup) (f : Tile → Tile) {t : TileId} (ht : t ∈ l) (s : State) :
    (l.foldl (fun s t => s.modTile t f) s).tile t = f (s.tile t) :=
  foldl_reaches (P := fun x : State => x.tile t = s.tile t) (Q := fun x : State => x.tile t = f (s.tile t)) hl ht
    (fun x _ hb h => (State.modTile_tile_other x f hb.symm).trans h)
    (fun x _ hb h => (State.modTile_tile_other x f hb.symm).trans h)
    (fun x h => (State.modTile_tile_same x t f).trans (congrArg f h)) rfl

theorem State.owePages_tiles (s : State) (b : BandId) (all : Bool) : (s.owePages b all).tiles = s.tiles :=
  foldl_keeps (P := fun x : State => x.tiles = s.tiles) _ rfl fun _ _ h => h

theorem State.owePages_tile (s : State) (b : BandId) (all : Bool) (t : TileId) : (s.owePages b all).tile t = s.tile t :=
  foldl_keeps (P := fun x : State => x.tile t = s.tile t) _ rfl fun _ _ h => h

theorem State.owePages_band (s : State) (b : BandId) (all : Bool) (c : BandId) : (s.owePages b all).band c = s.band c :=
  foldl_keeps (P := fun x : State => x.band c = s.band c) _ rfl fun _ _ h => h

theorem State.foldl_modTile_band (l : List TileId) (f : Tile → Tile) (s : State) (b : BandId) :
    (l.foldl (fun s t => s.modTile t f) s).band b = s.band b :=
  foldl_keeps (P := fun x : State => x.band b = s.band b) _ rfl fun _ _ h => h

theorem State.foldl_modCluster_tile (l : List ClusterId) (f : Cluster → Cluster) (s : State) (t : TileId) :
    (l.foldl (fun s c => s.modCluster c f) s).tile t = s.tile t :=
  foldl_keeps (P := fun x : State => x.tile t = s.tile t) _ rfl fun _ _ h => h

theorem State.foldl_modCluster_band (l : List ClusterId) (f : Cluster → Cluster) (s : State) (b : BandId) :
    (l.foldl (fun s c => s.modCluster c f) s).band b = s.band b :=
  foldl_keeps (P := fun x : State => x.band b = s.band b) _ rfl fun _ _ h => h

theorem State.bandOff_tile (s : State) {b : BandId} {t : TileId} (ht : bandOf (clusterOf t) = b) :
    (s.bandOff b).tile t = (s.tile t).dark := by
  unfold State.bandOff State.each
  simp only [State.modBand_tile, State.setDom_tile, State.foldl_modCluster_tile,
    State.foldl_modTile_tile (nodup_bandTiles b) _ (mem_bandTiles.mpr ht), State.owePages_tile]

theorem State.bandOff_dom (s : State) (b : BandId) : (s.bandOff b).dom b.val = .off := by
  unfold State.bandOff
  simp only [State.modBand_dom, State.setDom_dom_same]

theorem State.bandOff_discards (s : State) (b : BandId) : ((s.bandOff b).band b).discards = (s.band b).discards := by
  unfold State.bandOff State.each
  simp only [State.modBand_band_same, State.setDom_band, State.foldl_modCluster_band, State.foldl_modTile_band,
    State.owePages_band]

theorem State.bandOff_bandWrites (s : State) (b : BandId) : (s.bandOff b).bandWrites b = [] := by
  unfold State.bandWrites
  refine List.flatMap_eq_nil_iff.mpr fun t ht => ?_
  rw [State.bandOff_tile s (mem_bandTiles.mp ht)]
  rfl

theorem State.bandRet_tile (s : State) {b : BandId} {t : TileId} (ht : bandOf (clusterOf t) = b) :
    (s.bandRet b).tile t = (s.tile t).retained := by
  unfold State.bandRet State.each
  simp only [State.modBand_tile, State.setDom_tile, State.foldl_modCluster_tile,
    State.foldl_modTile_tile (nodup_bandTiles b) _ (mem_bandTiles.mpr ht), State.owePages_tile]

theorem State.bandRet_dom (s : State) (b : BandId) : (s.bandRet b).dom b.val = .ret := by
  unfold State.bandRet
  simp only [State.modBand_dom, State.setDom_dom_same]

theorem Tile.landAll_handles (tl : Tile) : tl.landAll.handles = tl.handles := by
  unfold Tile.landAll
  split
  · rfl
  · exact foldl_keeps (P := fun x : Tile => x.handles = tl.handles) tl.late rfl fun _ _ h => h

theorem Store.get_map_snd {α β : Type} (d : α) (f : α → β) (m : Store α) (k : Nat) :
    Store.get (f d) (m.map fun x => (x.1, f x.2)) k = f (Store.get d m k) := by
  induction m with
  | nil => rfl
  | cons x m ih =>
    simp only [List.map_cons, Store.get]
    split
    · rfl
    · exact ih

/-- A macro with its steering words alone. -/
def Macro.steered (mc : Macro) : Macro := { bank0 := { steer := mc.bank0.steer }, bank1 := { steer := mc.bank1.steer } }

theorem Store.get_steering (tl : Tile) (m : Nat) : Store.get {} tl.steering m = (tl.mac m).steered :=
  Store.get_map_snd ({} : Macro) Macro.steered tl.macros m

theorem Tile.dark_mac (tl : Tile) (m : Nat) : tl.dark.mac m = (tl.mac m).steered := Store.get_steering tl m

theorem Tile.fresh_mac (tl : Tile) (seed m : Nat) : (tl.fresh seed).mac m = (tl.mac m).steered := Store.get_steering tl m

/-! #### Orders and drains -/

/-- A band of this state that drains: ordered towards OFF or RET, with its owners at rest. -/
def State.draining (s : State) (b : BandId) (toRet : Bool) : State :=
  ((s.modBand b fun x => { x with ordered := true, toRet }).setDom b.val .switching).modBand b fun x =>
    { x with draining := true, orderedAt := s.now }

theorem State.bandOrder_of_on {s : State} {b : BandId} (hOn : s.dom b.val = .on) (hFree : s.bandFree b = true) (toRet : Bool) :
    s.bandOrder b toRet = if s.bandWrites b = [] then (s.draining b toRet).bandDown b else s.draining b toRet := by
  unfold State.bandOrder
  exact (if_pos hOn).trans (if_pos hFree)

theorem State.draining_band (s : State) (b : BandId) (toRet : Bool) :
    ((s.draining b toRet).band b).draining = true ∧ ((s.draining b toRet).band b).toRet = toRet := by
  simp [State.draining]

theorem State.draining_dom (s : State) (b : BandId) (toRet : Bool) : (s.draining b toRet).dom b.val = .switching :=
  State.setDom_dom_same ..

theorem State.draining_mustRet (s : State) (b : BandId) (toRet : Bool) : (s.draining b toRet).mustRet b = s.mustRet b := rfl

theorem State.draining_tile (s : State) (b : BandId) (toRet : Bool) (t : TileId) : (s.draining b toRet).tile t = s.tile t := rfl

theorem State.bandDown_of_off {s : State} {b : BandId} (hTo : (s.band b).toRet = false) (hMust : s.mustRet b = false) :
    s.bandDown b = s.bandOff b := by
  unfold State.bandDown
  exact if_neg (by simp [hTo, hMust])

theorem State.bandDown_of_ret {s : State} {b : BandId} (h : (s.band b).toRet = true ∨ s.mustRet b = true) :
    s.bandDown b = s.bandRet b := by
  unfold State.bandDown
  exact if_pos (Bool.or_eq_true_iff.mpr h)

theorem exec_bandSwitchOff_of_on {s : State} {b : BandId} (hLive : s.live = true) (hOn : s.dom b.val = .on) :
    exec (.bandSwitchOff b) s = .next (s.bandOrder b false) :=
  congrArg Host.Outcome.next ((if_pos hLive).trans (if_neg (by simp [hOn])))

theorem exec_bandRetEntry {s : State} {b : BandId} (hLive : s.live = true) :
    exec (.bandRetEntry b) s = .next (s.bandOrder b true) :=
  congrArg Host.Outcome.next (if_pos hLive)

/-! #### The discards of a drain that takes too long -/

/-- `s'` keeps the dictionary, the bands and the partitions of `s`, but for records. -/
structure State.BandsKept (s s' : State) : Prop where
  dict : s'.dict = s.dict
  bands : s'.bands = s.bands
  part : ∀ p, (s.part p).RecordsOnly (s'.part p)

theorem State.BandsKept.refl (s : State) : s.BandsKept s := ⟨rfl, rfl, fun _ => .refl _⟩

theorem State.BandsKept.trans {a b c : State} (h : a.BandsKept b) (h' : b.BandsKept c) : a.BandsKept c :=
  ⟨h'.dict.trans h.dict, h'.bands.trans h.bands, fun p => (h.part p).trans (h'.part p)⟩

theorem State.bandsKept_of_traffic {s s' : State} (h : s.TrafficOnly s') : s.BandsKept s' :=
  ⟨h.proj State.dict, h.proj State.bands, h.part⟩

theorem State.bandsKept_raise_none (s : State) (code : BitVec 16) (src : BitVec 24) (ids : Ids) (part : Option PartId)
    (detail : List Byte) : s.BandsKept (s.raise code clsNone src ids part detail) :=
  ⟨State.raise_dict .., State.raise_bands .., s.recordsOnly_raise_none code src ids part detail⟩

theorem State.bandsKept_modTile (s : State) (t : TileId) (f : Tile → Tile) : s.BandsKept (s.modTile t f) :=
  ⟨rfl, rfl, fun _ => .refl _⟩

theorem State.bandsKept_refuse (s : State) (w : BitVec 24) (via : Via) (epoch : BitVec 32) (tag : BitVec 16)
    (reason : BitVec 8) (detail : BitVec 32) : s.BandsKept (s.refuse w via epoch tag reason detail) := by
  unfold State.refuse
  extract_lets det s1
  have hs1 : s.BandsKept s1 := by
    subst s1
    split
    · exact State.BandsKept.trans (State.bandsKept_modTile s _ _) (State.bandsKept_raise_none ..)
    · split
      · exact State.bandsKept_raise_none ..
      · exact State.bandsKept_raise_none ..
  exact hs1.trans (State.bandsKept_of_traffic (State.trafficOnly_send ..))

theorem State.bandsKept_dropWrite (s : State) (t : TileId) (w : PutWrite) (reason : BitVec 8) :
    s.BandsKept (s.dropWrite t w reason) :=
  (s.bandsKept_modTile t _).trans (State.bandsKept_refuse ..)

theorem State.BandsKept.band {s s' : State} (h : s.BandsKept s') (b : BandId) : s'.band b = s.band b := by
  rw [State.band, State.band, h.bands]

/-- A band goes OFF once its discards are counted. -/
theorem State.BandsKept.bandDown {s s' : State} (h : s.BandsKept s') {b : BandId} {f : Band → Band}
    (hf : ∀ x, (f x).toRet = x.toRet) (hTo : (s.band b).toRet = false) (hMust : s.mustRet b = false) :
    (s'.modBand b f).bandDown b = (s'.modBand b f).bandOff b := by
  refine State.bandDown_of_off ?_ ((State.mustRet_congr (s' := s'.modBand b f) h.dict h.part b).trans hMust)
  rw [State.modBand_band_same, hf, h.band, hTo]

theorem exec_bandDrainTimeout {s : State} {b : BandId} (hLive : s.live = true) (hDrain : (s.band b).draining = true)
    (hTo : (s.band b).toRet = false) (hMust : s.mustRet b = false) :
    ∃ s1, s.BandsKept s1 ∧ exec (.bandDrainTimeout b) s = .next ((s1.modBand b fun x =>
      { x with discards := satAdd x.discards (s.bandWrites b).length }).bandOff b) := by
  have hKept : s.BandsKept ((s.bandWrites b).foldl (fun s x => s.dropWrite x.1 x.2 rBandOff) s) :=
    foldl_keeps _ (.refl s) fun x w h => h.trans (x.bandsKept_dropWrite w.1 w.2 rBandOff)
  exact ⟨_, hKept, congrArg Host.Outcome.next ((if_pos (And.intro hLive hDrain)).trans
    (hKept.bandDown (fun _ => rfl) hTo hMust))⟩

/-! #### The return -/

theorem State.finishRaise_part (s : State) (q : PartId) : s.finishRaise.part q = s.part q := by
  unfold State.finishRaise
  split
  · rfl
  · rfl

theorem State.tryReady_part_other (s : State) {p q : PartId} (h : q ≠ p) : (s.tryReady p).part q = s.part q := by
  unfold State.tryReady
  split
  · exact (State.modPart_part_other _ _ h).trans (s.finishRaise_part q)
  · rfl

theorem State.tryReady_pageReload (s : State) (p q : PartId) : ((s.tryReady p).part q).pageReload = (s.part q).pageReload := by
  by_cases h : q = p
  · subst h
    unfold State.tryReady
    split
    · rw [State.modPart_part_same, ← s.finishRaise_part q]
    · rfl
  · rw [State.tryReady_part_other s h]

/-- No tile of the band waits for what its partition's image brings. -/
def State.NothingLost (s : State) (b : BandId) (l : List PartId) : Prop :=
  ∀ p ∈ l, ∀ t : TileId, bandOf (clusterOf t) = b → t.val ∉ (s.part p).pageReload

theorem State.NothingLost.lost {s : State} {b : BandId} {l : List PartId} (h : s.NothingLost b l) {p : PartId} (hp : p ∈ l) :
    ((bandTiles b).filter fun t => (s.part p).pageReload.contains t.val) = [] := by
  simp only [List.filter_eq_nil_iff, List.contains_iff_mem]
  exact fun t ht => h p hp t (mem_bandTiles.mp ht)

theorem State.NothingLost.of_pageReload {s s' : State} {b : BandId} {l : List PartId} (h : s.NothingLost b l)
    (hPart : ∀ p, (s'.part p).pageReload = (s.part p).pageReload) : s'.NothingLost b l :=
  fun p hp t ht => by rw [hPart]; exact h p hp t ht

/-- A fold whose step on each owner is its readiness, as long as nothing of the band is lost. -/
theorem State.foldl_eq_tryReady {b : BandId} {f : State → PartId → State} (l : List PartId) {s : State} (h : s.NothingLost b l)
    (hf : ∀ s p, ((bandTiles b).filter fun t => (s.part p).pageReload.contains t.val) = [] → f s p = s.tryReady p) :
    l.foldl f s = l.foldl State.tryReady s := by
  induction l generalizing s with
  | nil => rfl
  | cons p l ih =>
    rw [List.foldl_cons, List.foldl_cons, hf s p (h.lost (by simp))]
    refine ih (State.NothingLost.of_pageReload (fun q hq => h q (by simp [hq])) fun q => s.tryReady_pageReload p q)

theorem State.restoreBand_of_nothingLost {s : State} {b : BandId} (h : s.NothingLost b (s.bandOwners b)) :
    s.restoreBand b = (s.bandOwners b).foldl State.tryReady s :=
  State.foldl_eq_tryReady _ h fun _ _ hNone => if_pos hNone

theorem exec_bandSwitchOn_of_off {s : State} {b : BandId} (hLive : s.live = true)
    (hFail : s.startWord.failmap.getLsbD b.val = false) (hOff : s.dom b.val = .off) (l : List MemFinding) :
    exec (.bandSwitchOn b l) s = .next (((bandTiles b).foldl (fun s t => s.modTile t fun tl => tl.fresh s.freeCtr)
      s.drawn).setDom b.val .switching) :=
  congrArg Host.Outcome.next ((if_pos (And.intro hLive hFail)).trans (if_pos hOff))

theorem State.foldl_fresh_tile {l : List TileId} (hl : l.Nodup) {t : TileId} (ht : t ∈ l) (s : State) :
    ∃ seed, (l.foldl (fun s t => s.modTile t fun tl => tl.fresh s.freeCtr) s).tile t = (s.tile t).fresh seed :=
  foldl_reaches (P := fun x : State => x.tile t = s.tile t) (Q := fun x : State => ∃ seed, x.tile t = (s.tile t).fresh seed)
    hl ht (fun x _ hb h => (State.modTile_tile_other x _ hb.symm).trans h)
    (fun x _ hb h => h.imp fun _ h => (State.modTile_tile_other x _ hb.symm).trans h)
    (fun x h => ⟨x.freeCtr, (State.modTile_tile_same x t _).trans (congrArg (·.fresh x.freeCtr) h)⟩) rfl

/-- A state whose band is on again. -/
def State.bandOn (s : State) (b : BandId) : State :=
  (s.setDom b.val .on).modBand b fun x => { x with onAt := s.bandClocks b }

theorem exec_bandSwitchOn_end {s : State} {b : BandId} (hLive : s.live = true)
    (hFail : s.startWord.failmap.getLsbD b.val = false) (hDom : s.dom b.val = .switching) (hDrain : (s.band b).draining = false)
    (hLost : s.NothingLost b (s.bandOwners b)) (hStrands : ∀ p ∈ s.bandOwners b, (s.bandOn b).strands p b = false) :
    exec (.bandSwitchOn b []) s = .next ((s.bandOwners b).foldl State.tryReady (s.bandOn b)) := by
  have hGone : ((s.bandOwners b).filter fun p => (s.bandOn b).strands p b) = [] :=
    List.filter_eq_nil_iff.mpr fun p hp => by simp [hStrands p hp]
  have hOwners : (s.bandOn b).bandOwners b = s.bandOwners b := State.bandOwners_congr rfl b
  have hRestore : (s.bandOn b).restoreBand b = (s.bandOwners b).foldl State.tryReady (s.bandOn b) :=
    hOwners ▸ State.restoreBand_of_nothingLost (s := s.bandOn b) (by rw [hOwners]; exact hLost)
  have hEnd : (((((s.bandOn b).bandOwners b).filter fun p => (s.bandOn b).strands p b).foldl (fun s p =>
      (s.unload p).partFatal p 16 (s.srcH 0 p.val)) (s.bandOn b)).restoreBand b) =
        (s.bandOwners b).foldl State.tryReady (s.bandOn b) := by
    rw [hOwners, hGone]
    exact hRestore
  refine congrArg Host.Outcome.next ((if_pos (And.intro hLive hFail)).trans ((if_neg ?_).trans
    ((if_pos (And.intro hDom hDrain)).trans hEnd)))
  simp [hDom]

theorem exec_bandRetExit {s : State} {b : BandId} (hLive : s.live = true) (hRet : s.dom b.val = .ret)
    (hLost : s.NothingLost b (s.bandOwners b)) : exec (.bandRetExit b) s = .next ((s.bandOwners b).foldl State.tryReady
      ((bandTiles b).foldl (fun s t => s.modTile t fun tl => { tl with spBanks := freshBanks (s.tileAc t) }) (s.bandOn b))) := by
  refine congrArg Host.Outcome.next ((if_pos (And.intro hLive hRet)).trans ?_)
  extract_lets _ s1
  have hKept : s1.dict = s.dict ∧ ∀ p, s1.part p = s.part p :=
    foldl_keeps (P := fun x : State => x.dict = s.dict ∧ ∀ p, x.part p = s.part p) (bandTiles b)
      ⟨rfl, fun _ => rfl⟩ fun _ _ h => h
  change _ = (s.bandOwners b).foldl State.tryReady s1
  have hOwners : s1.bandOwners b = s.bandOwners b := State.bandOwners_congr hKept.1 b
  rw [hOwners]
  refine State.foldl_eq_tryReady _ (hLost.of_pageReload fun p => congrArg Part.pageReload (hKept.2 p)) fun x p hNone => ?_
  dsimp only
  rw [hNone]
  split
  · rfl
  · rfl

/-- Settles O55: switching off, entering RET, the end of a drain, and the two steps of switching on each rewrite the tiles
of the band; the owners are restored as ready where nothing was lost. -/
theorem bandsDrainAndReturn : Obligations.BandsDrainAndReturn := by
  intro s b
  refine ⟨fun hLive hOn hFree => ⟨fun hNone => ⟨fun hMust => ?_, ?_, fun hMust => ?_⟩, fun hSome => ?_⟩,
    fun hLive _ hDrain hTo hMust => ?_, fun hLive hFail => ⟨fun hOff l => ?_, fun hDom hDrain hLost => ?_⟩,
    fun hLive hRet hLost => exec_bandRetExit hLive hRet hLost⟩
  · refine ⟨_, (exec_bandSwitchOff_of_on hLive hOn).trans (congrArg _ ((State.bandOrder_of_on hOn hFree false).trans
      ((if_pos hNone).trans (State.bandDown_of_off (s.draining_band b false).2 hMust)))), State.bandOff_dom .., fun t ht => ?_⟩
    rw [State.bandOff_tile _ ht, State.draining_tile]
    refine ⟨rfl, rfl, rfl, fun m => ?_⟩
    rw [Tile.dark_mac]
    exact ⟨rfl, rfl⟩
  · refine ⟨_, (exec_bandRetEntry hLive).trans (congrArg _ ((State.bandOrder_of_on hOn hFree true).trans
      ((if_pos hNone).trans (State.bandDown_of_ret (.inl (s.draining_band b true).2))))), State.bandRet_dom .., fun t ht => ?_⟩
    rw [State.bandRet_tile _ ht, State.draining_tile]
    exact ⟨rfl, rfl, (s.tile t).landAll_handles⟩
  · exact ⟨_, (exec_bandSwitchOff_of_on hLive hOn).trans (congrArg _ ((State.bandOrder_of_on hOn hFree false).trans
      ((if_pos hNone).trans (State.bandDown_of_ret (.inr hMust))))), State.bandRet_dom ..⟩
  · exact ⟨_, (exec_bandSwitchOff_of_on hLive hOn).trans (congrArg _ ((State.bandOrder_of_on hOn hFree false).trans
      (if_neg hSome))), s.draining_dom b false, (s.draining_band b false).1, rfl⟩
  · obtain ⟨s1, hKept, hExec⟩ := exec_bandDrainTimeout hLive hDrain hTo hMust
    refine ⟨_, hExec, State.bandOff_dom .., State.bandOff_bandWrites .., ?_⟩
    rw [State.bandOff_discards, State.modBand_band_same, hKept.band]
  · refine ⟨_, exec_bandSwitchOn_of_off hLive hFail hOff l, State.setDom_dom_same .., fun t ht => ?_⟩
    obtain ⟨seed, hSeed⟩ := State.foldl_fresh_tile (nodup_bandTiles b) (mem_bandTiles.mpr ht) s.drawn
    rw [State.setDom_tile, hSeed, State.drawn_tile]
    refine ⟨rfl, fun m => ?_⟩
    rw [Tile.fresh_mac]
    rfl
  · exact exec_bandSwitchOn_end hLive hFail hDom hDrain hLost

end Sys2Proof.Machine
end

section
/-! ### What the cluster DMA leaves alone when it serves accesses that wait (R229 to R236, R252) -/

namespace Sys2Proof.Machine

/-- A tile differs in what the cluster DMA writes at most: scratchpad and its banks, windows, writes, accesses that wait,
completion counters and asynchronous operations. -/
def Tile.ServedOnly (x y : Tile) : Prop :=
  y = { x with
    ctr := y.ctr, ops := y.ops, late := y.late, sp := y.sp, spPar := y.spPar, spBanks := y.spBanks, windows := y.windows
    writes := y.writes, held := y.held, busyCount := y.busyCount }

namespace Tile.ServedOnly

theorem refl (x : Tile) : x.ServedOnly x := rfl

theorem trans {x y z : Tile} (h : x.ServedOnly y) (h' : y.ServedOnly z) : x.ServedOnly z :=
  Eq.trans h' (congrArg (fun x : Tile => { x with
    ctr := z.ctr, ops := z.ops, late := z.late, sp := z.sp, spPar := z.spPar, spBanks := z.spBanks, windows := z.windows
    writes := z.writes, held := z.held, busyCount := z.busyCount }) h)

theorem foldl {α : Type} {x y : Tile} (h : x.ServedOnly y) {f : Tile → α → Tile} (hf : ∀ (z : Tile) a, z.ServedOnly (f z a))
    (l : List α) : x.ServedOnly (l.foldl f y) :=
  foldl_keeps l h fun z a hz => hz.trans (hf z a)

/-- What looks at nothing that the DMA writes is the same. -/
theorem proj {α : Type} {x y : Tile} (h : x.ServedOnly y) (f : Tile → α)
    (hf : f { x with
      ctr := y.ctr, ops := y.ops, late := y.late, sp := y.sp, spPar := y.spPar, spBanks := y.spBanks, windows := y.windows
      writes := y.writes, held := y.held, busyCount := y.busyCount } = f x := by rfl) : f y = f x :=
  (congrArg f h).trans hf

end Tile.ServedOnly

theorem Tile.servedOnly_spWrite (tl : Tile) (a : Nat) (l : List Byte) : tl.ServedOnly (tl.spWrite a l) := rfl

theorem Tile.servedOnly_modSpBank (tl : Tile) (b : Nat) (f : SpBankSt → SpBankSt) : tl.ServedOnly (tl.modSpBank b f) := rfl

theorem Tile.servedOnly_putLate (tl : Tile) (l : List LateWrite) : tl.ServedOnly (tl.putLate l) :=
  foldl_keeps l (.refl tl) fun x w h => h.trans (x.servedOnly_spWrite w.addr w.bytes)

theorem Tile.servedOnly_landLate (tl : Tile) (c : Nat) : tl.ServedOnly (tl.landLate c) := by
  unfold Tile.landLate
  split
  · exact .refl tl
  · exact (tl.servedOnly_putLate _).trans rfl

theorem Tile.servedOnly_landAll (tl : Tile) : tl.ServedOnly tl.landAll := by
  unfold Tile.landAll
  split
  · exact .refl tl
  · exact (tl.servedOnly_putLate _).trans rfl

theorem Tile.servedOnly_landFor (tl : Tile) (c : Nat) : tl.ServedOnly (tl.landFor c) := by
  unfold Tile.landFor
  split
  · exact tl.servedOnly_landAll
  · exact tl.servedOnly_landLate c

theorem Tile.servedOnly_touch (tl : Tile) (banks : List Nat) (now : Nat) : tl.ServedOnly (tl.touch banks now) :=
  (Tile.ServedOnly.refl tl).foldl (fun x b => x.servedOnly_modSpBank b _) banks

theorem Tile.servedOnly_startWake (tl : Tile) (b : Nat) (freezes : Bool) : tl.ServedOnly (tl.startWake b freezes) := by
  unfold Tile.startWake
  split
  · exact rfl
  · exact .refl tl

theorem Tile.servedOnly_holdAt (tl : Tile) (place cycle : Nat) (a : HeldAccess) : tl.ServedOnly (tl.holdAt place cycle a) := by
  unfold Tile.holdAt
  extract_lets tl1
  have h1 : tl.ServedOnly tl1 := by
    subst tl1
    split
    · exact tl.servedOnly_startWake ..
    · exact rfl
    · exact .refl tl
  exact h1.trans rfl

theorem Tile.servedOnly_countDone (tl : Tile) (o : AsyncOp) : tl.ServedOnly (tl.countDone o) := by
  unfold Tile.countDone
  split
  · exact rfl
  · exact .refl tl

/-- A partition differs in its records and in what its faults leave at most; a frame that is marked keeps its first cause. -/
structure Part.FaultsOnly (x y : Part) : Prop where
  rest : y = { x with
    strand := y.strand, batch := y.batch, lastClass := y.lastClass, unacked := y.unacked, minor := y.minor
    run := { x.run with
      corrected := y.run.corrected, replayed := y.run.replayed, marked := y.run.marked, cause := y.run.cause
      causeLayer := y.run.causeLayer } }
  capHeld : y.strand.capHeld = x.strand.capHeld
  mark : x.run.marked = true → y.run.marked = true ∧ y.run.cause = x.run.cause ∧ y.run.causeLayer = x.run.causeLayer

namespace Part.FaultsOnly

theorem refl (x : Part) : x.FaultsOnly x := ⟨rfl, rfl, fun h => ⟨h, rfl, rfl⟩⟩

theorem trans {x y z : Part} (h : x.FaultsOnly y) (h' : y.FaultsOnly z) : x.FaultsOnly z where
  rest := h'.rest.trans (congrArg (fun x : Part => { x with
    strand := z.strand, batch := z.batch, lastClass := z.lastClass, unacked := z.unacked, minor := z.minor
    run := { x.run with
      corrected := z.run.corrected, replayed := z.run.replayed, marked := z.run.marked, cause := z.run.cause
      causeLayer := z.run.causeLayer } }) h.rest)
  capHeld := h'.capHeld.trans h.capHeld
  mark hx := by
    obtain ⟨hy, hCause, hLayer⟩ := h.mark hx
    obtain ⟨hz, hCause', hLayer'⟩ := h'.mark hy
    exact ⟨hz, hCause'.trans hCause, hLayer'.trans hLayer⟩

theorem of_records {x y : Part} (h : x.RecordsOnly y) : x.FaultsOnly y := by
  have hRun : y.run = x.run := h.proj Part.run
  refine ⟨?_, h.capHeld, fun hx => by rw [hRun]; exact ⟨hx, rfl, rfl⟩⟩
  rw [h.rest]

/-- What looks at neither records nor faults is the same. -/
theorem proj {α : Type} {x y : Part} (h : x.FaultsOnly y) (f : Part → α)
    (hf : f { x with
      strand := y.strand, batch := y.batch, lastClass := y.lastClass, unacked := y.unacked, minor := y.minor
      run := { x.run with
        corrected := y.run.corrected, replayed := y.run.replayed, marked := y.run.marked, cause := y.run.cause
        causeLayer := y.run.causeLayer } } = f x := by rfl) : f y = f x :=
  (congrArg f h.rest).trans hf

end Part.FaultsOnly

/-- `s'` differs from `s` in what the cluster DMA writes, in faults and in the traffic of messages at most. -/
structure State.ServedOnly (s s' : State) : Prop where
  state : s' = { s with
    tiles := s'.tiles, clusters := s'.clusters, events := s'.events, sent := s'.sent, wire := s'.wire, ports := s'.ports
    engines := s'.engines, parts := s'.parts, hbm := s'.hbm, obsWindow := s'.obsWindow, obsBytes := s'.obsBytes
    datagrams := s'.datagrams, freeCtr := s'.freeCtr, neighbours := s'.neighbours, unresolved := s'.unresolved }
  part : ∀ p, (s.part p).FaultsOnly (s'.part p)
  tile : ∀ t, (s.tile t).ServedOnly (s'.tile t)

namespace State.ServedOnly

theorem refl (s : State) : s.ServedOnly s := ⟨rfl, fun _ => .refl _, fun _ => .refl _⟩

theorem trans {a b c : State} (h : a.ServedOnly b) (h' : b.ServedOnly c) : a.ServedOnly c where
  state := h'.state.trans (congrArg (fun x : State => { x with
    tiles := c.tiles, clusters := c.clusters, events := c.events, sent := c.sent, wire := c.wire, ports := c.ports
    engines := c.engines, parts := c.parts, hbm := c.hbm, obsWindow := c.obsWindow, obsBytes := c.obsBytes
    datagrams := c.datagrams, freeCtr := c.freeCtr, neighbours := c.neighbours, unresolved := c.unresolved }) h.state)
  part p := (h.part p).trans (h'.part p)
  tile t := (h.tile t).trans (h'.tile t)

theorem foldl {α : Type} {s s' : State} (h : s.ServedOnly s') {f : State → α → State}
    (hf : ∀ (x : State) a, x.ServedOnly (f x a)) (l : List α) : s.ServedOnly (l.foldl f s') :=
  foldl_keeps l h fun y a hy => hy.trans (hf y a)

theorem of_traffic {s s' : State} (h : s.TrafficOnly s') : s.ServedOnly s' := by
  have hTiles : s'.tiles = s.tiles := h.proj State.tiles
  have hClusters : s'.clusters = s.clusters := h.proj State.clusters
  have hEvents : s'.events = s.events := h.proj State.events
  have hBase : s'.epochBase = s.epochBase := h.proj State.epochBase
  refine ⟨?_, fun p => .of_records (h.part p), fun t => ?_⟩
  · rw [hTiles, hClusters, hEvents]
    exact h.state
  · rw [State.tile, State.tile, hTiles, hBase]
    exact .refl _

/-- What looks at nothing of this is the same. -/
theorem proj {α : Type} {s s' : State} (h : s.ServedOnly s') (f : State → α)
    (hf : f { s with
      tiles := s'.tiles, clusters := s'.clusters, events := s'.events, sent := s'.sent, wire := s'.wire, ports := s'.ports
      engines := s'.engines, parts := s'.parts, hbm := s'.hbm, obsWindow := s'.obsWindow, obsBytes := s'.obsBytes
      datagrams := s'.datagrams, freeCtr := s'.freeCtr, neighbours := s'.neighbours, unresolved := s'.unresolved } = f s :=
        by rfl) : f s' = f s :=
  (congrArg f h.state).trans hf

end State.ServedOnly

theorem State.servedOnly_modTile (s : State) (t : TileId) {f : Tile → Tile} (hf : ∀ x : Tile, x.ServedOnly (f x)) :
    s.ServedOnly (s.modTile t f) := by
  refine ⟨rfl, fun _ => .refl _, fun x => ?_⟩
  by_cases hx : x = t
  · subst hx
    rw [State.modTile_tile_same]
    exact hf _
  · rw [State.modTile_tile_other _ _ hx]
    exact .refl _

theorem State.servedOnly_count (s : State) (c : ClusterId) (w n : Nat) : s.ServedOnly (s.count c w n) := by
  unfold State.count
  split
  · exact .refl s
  · exact ⟨rfl, fun _ => .refl _, fun _ => .refl _⟩

theorem State.servedOnly_modPart (s : State) (p : PartId) {f : Part → Part} (hf : ∀ x : Part, x.FaultsOnly (f x)) :
    s.ServedOnly (s.modPart p f) := by
  refine ⟨rfl, fun x => ?_, fun _ => .refl _⟩
  by_cases hx : x = p
  · subst hx
    rw [State.modPart_part_same]
    exact hf _
  · rw [State.modPart_part_other _ _ hx]
    exact .refl _

theorem State.servedOnly_noteClass (s : State) (p : PartId) (cls : BitVec 3) : s.ServedOnly (s.noteClass p cls) := by
  unfold State.noteClass
  split
  · exact .refl s
  · exact s.servedOnly_modPart p fun _ => ⟨rfl, rfl, fun h => ⟨h, rfl, rfl⟩⟩

theorem State.servedOnly_raise (s : State) (code : BitVec 16) (cls : BitVec 3) (src : BitVec 24) (ids : Ids)
    (part : Option PartId) (detail : List Byte) : s.ServedOnly (s.raise code cls src ids part detail) := by
  unfold State.raise
  extract_lets frame s1
  have hs1 : s.ServedOnly s1 := ⟨rfl, fun _ => .refl _, fun _ => .refl _⟩
  split
  · exact hs1
  next p =>
    extract_lets s2
    have hs2 : s.ServedOnly s2 := hs1.trans (s1.servedOnly_noteClass p cls)
    split
    · exact hs2.trans (.of_traffic (State.trafficOnly_offer ..))
    · exact hs2

theorem Part.faultsOnly_mark (x : Part) (cause : BitVec 4) (layer : BitVec 16) : x.FaultsOnly
    (if x.run.active && !x.run.marked then { x with run := { x.run with marked := true, cause, causeLayer := layer } }
      else x) := by
  split
  · refine ⟨rfl, rfl, fun hx => ?_⟩
    simp_all
  · exact .refl x

theorem State.servedOnly_markFrame (s : State) (p : PartId) (cause : BitVec 4) (layer : BitVec 16) :
    s.ServedOnly (s.markFrame p cause layer) :=
  s.servedOnly_modPart p fun x => x.faultsOnly_mark cause layer

theorem State.servedOnly_abortTile (s : State) (t : TileId) (code : BitVec 16) (cause : BitVec 4) (unit : Nat) (ids : Ids)
    (detail : List Byte) : s.ServedOnly (s.abortTile t code cause unit ids detail) := by
  unfold State.abortTile
  extract_lets owner s1
  have hs1 : s.ServedOnly s1 := s.servedOnly_raise ..
  clear_value owner
  split
  · exact hs1.trans (State.servedOnly_markFrame ..)
  · exact hs1

theorem State.servedOnly_landed (s : State) (t : TileId) (k : LandKey) (n : Nat) : s.ServedOnly (s.landed t k n) := by
  unfold State.landed
  dsimp only
  refine State.ServedOnly.trans ?_ (State.servedOnly_count ..)
  exact s.servedOnly_modTile t fun _ => Eq.refl _

theorem State.servedOnly_dmaKeep (s : State) (t : TileId) (a : HeldAccess) (addr : Nat) (data : List Byte) :
    s.ServedOnly (s.dmaKeep t a addr data) := by
  unfold State.dmaKeep
  extract_lets s1
  have hs1 : s.ServedOnly s1 := s.servedOnly_modTile t fun _ => rfl
  split
  · exact hs1.trans (State.servedOnly_landed ..)
  · exact hs1

theorem State.servedOnly_dmahLanded (s : State) (t : TileId) (key : Nat) : s.ServedOnly (s.dmahLanded t key) := by
  refine s.servedOnly_modTile t fun x => ?_
  split
  · exact .refl x
  · split
    · exact (x.servedOnly_countDone _).trans rfl
    · exact .refl x

theorem State.servedOnly_dmaPut (s : State) (t : TileId) (place cycle : Nat) (a : HeldAccess) :
    s.ServedOnly (s.dmaPut t place cycle a) := by
  unfold State.dmaPut
  extract_lets tl rd wr s1 met s2
  have hs1 : s.ServedOnly s1 := (s.servedOnly_count ..).trans (State.servedOnly_modTile _ t fun x => x.servedOnly_touch ..)
  have hs2 : s.ServedOnly s2 := by
    subst s2
    split
    · exact hs1.trans (State.servedOnly_dmaKeep ..)
    · refine foldl_keeps (P := fun y : State × Nat => s.ServedOnly y.1) _ hs1 fun y w hy => ?_
      extract_lets s3 x s4 s5
      have hs4 : s.ServedOnly s4 := hy.trans (State.servedOnly_modTile _ t fun x => x.servedOnly_holdAt ..)
      split
      · show s.ServedOnly s5
        subst s5
        split
        · split
          · exact hs4.trans (State.servedOnly_abortTile ..)
          · exact hs4
        · exact hs4
      · exact hy.trans (State.servedOnly_dmaKeep ..)
  split
  · exact hs2.trans (State.servedOnly_dmahLanded ..)
  · exact hs2

theorem State.servedOnly_answerRead (s : State) (q : HeldRead) : s.ServedOnly (s.answerRead q) := by
  unfold State.answerRead
  extract_lets r gone
  have hGone : s.ServedOnly gone := .of_traffic (s.trafficOnly_send ..)
  split
  · exact hGone
  next t h _ =>
    extract_lets addr data frame s1 s2
    split
    · exact hGone
    · have hs1 : s.ServedOnly s1 :=
        (s.servedOnly_count ..).trans (State.servedOnly_modTile _ t fun x => x.servedOnly_touch ..)
      have hs2 : s.ServedOnly s2 := hs1.foldl (fun x i => .of_traffic (x.trafficOnly_send ..)) _
      split
      · exact hs2.trans (.of_traffic (State.trafficOnly_send ..))
      · exact hs2

theorem State.servedOnly_dmaAt (s : State) (t : TileId) (place cycle : Nat) (a : HeldAccess) :
    s.ServedOnly (s.dmaAt t place cycle a) := by
  unfold State.dmaAt
  extract_lets s1 wait
  have hs1 : s.ServedOnly s1 := s.servedOnly_modTile t fun x => x.servedOnly_landFor cycle
  have hWait (a : HeldAccess) : s.ServedOnly (wait a) :=
    hs1.trans (State.servedOnly_modTile _ t fun x => x.servedOnly_holdAt place cycle a)
  split
  · exact hWait _
  · split
    · exact hs1.trans (State.servedOnly_dmaPut ..)
    · split
      · exact hWait _
      · exact hs1.trans (State.servedOnly_answerRead ..)

theorem State.servedOnly_dmaTry (s : State) (t : TileId) (place : Nat) (a : HeldAccess) : s.ServedOnly (s.dmaTry t place a) := by
  unfold State.dmaTry
  extract_lets cycle wait
  have hWait (why : HoldWhy) : s.ServedOnly (wait why) := s.servedOnly_modTile t fun x => x.servedOnly_holdAt place cycle _
  split
  · exact hWait _
  · split
    · exact hWait _
    · exact s.servedOnly_dmaAt ..

theorem State.servedOnly_serveHeld (s : State) (t : TileId) (a : HeldAccess) : s.ServedOnly (s.serveHeld t a) := by
  unfold State.serveHeld
  extract_lets place
  have hs1 : s.ServedOnly (s.modTile t fun tl => { tl with held := tl.held.erase a }) := s.servedOnly_modTile t fun _ => rfl
  exact hs1.trans (State.servedOnly_dmaTry ..)

theorem State.servedOnly_serveSome (s : State) (t : TileId) (f : HeldAccess → Bool) : s.ServedOnly (s.serveSome t f) :=
  (State.ServedOnly.refl s).foldl (fun x a => x.servedOnly_serveHeld t a) _

theorem State.servedOnly_serveAll (s : State) (t : TileId) (f : HeldAccess → Bool) : s.ServedOnly (s.serveAll t f) :=
  (s.servedOnly_serveSome t f).trans (State.servedOnly_serveSome ..)

theorem State.servedOnly_freeDma (s : State) (t : TileId) : s.ServedOnly (s.freeDma t) := s.servedOnly_serveAll t _

theorem State.serveSome_of_none {s : State} {t : TileId} {f : HeldAccess → Bool} (h : (s.tile t).held.filter f = []) :
    s.serveSome t f = s := by
  unfold State.serveSome
  rw [h]
  rfl

theorem State.serveAll_of_none {s : State} {t : TileId} (h : (s.tile t).held = []) (f : HeldAccess → Bool) :
    s.serveAll t f = s := by
  unfold State.serveAll
  have hNone : s.serveSome t f = s := State.serveSome_of_none (by rw [h]; rfl)
  rw [hNone]
  exact State.serveSome_of_none (by rw [h]; rfl)

theorem State.freeDma_of_none {s : State} {t : TileId} (h : (s.tile t).held = []) : s.freeDma t = s :=
  State.serveAll_of_none h _

end Sys2Proof.Machine
end

section
/-! ### How a frame ends: overrun, stop and commit (R178, R179, R182, R241, R439 to R445) -/

namespace Sys2Proof.Machine

/-! #### The overrun rule -/

/-- What OverrunAction does to a frame at its deadline. -/
def State.overrunBy (s : State) (p : PartId) (action : Nat) : State :=
  let d := s.deadline p
  let s := s.reach ((s.part p).run.ts + BitVec.ofNat 64 d)
  let late (action : BitVec 2) : State := s.modPart p fun pt => { pt with run := { pt.run with overrun := true, action } }
  match action with
  | 1 => late 2
  | 2 => ((late 3).stopFrame p 0xB 0xFFFF d).modPart p fun pt => { pt with st := .halted }
  | _ => (late 1).stopFrame p 0xB 0xFFFF d

theorem exec_frameOverrun {s : State} {p : PartId} (hLive : s.live = true) (hActive : (s.part p).run.active = true)
    (hOverrun : (s.part p).run.overrun = false) (hStopped : (s.part p).slackStopped = false) (hDone : s.allDone p = false)
    (hArmed : s.armed p = false) :
    exec (.frameOverrun p) s = .next (s.overrunBy p (if s.phase = .ebb then 0 else s.vval p 0x10 3)) :=
  congrArg Host.Outcome.next ((if_pos ⟨hLive, hActive, hOverrun, hStopped, hDone⟩).trans
    (if_neg (Bool.not_eq_true _ ▸ hArmed)))

/-! #### What a stop leaves of a partition -/

/-- A partition whose frame is being stopped: what the stop, its messages and its faults may change. -/
structure Part.StopsOnly (x y : Part) : Prop where
  rest : y = { x with
    strand := y.strand, batch := y.batch, lastClass := y.lastClass, unacked := y.unacked, minor := y.minor
    points := y.points, lastAlert := y.lastAlert, kind4 := y.kind4
    run := { x.run with
      corrected := y.run.corrected, replayed := y.run.replayed, marked := y.run.marked, cause := y.run.cause
      causeLayer := y.run.causeLayer, overrun := y.run.overrun, action := y.run.action, stopped := y.run.stopped } }
  mark : x.run.marked = true → y.run.marked = true ∧ y.run.cause = x.run.cause
  stopped : x.run.stopped = true → y.run.stopped = true

namespace Part.StopsOnly

theorem refl (x : Part) : x.StopsOnly x := ⟨rfl, fun h => ⟨h, rfl⟩, id⟩

theorem trans {x y z : Part} (h : x.StopsOnly y) (h' : y.StopsOnly z) : x.StopsOnly z where
  rest := h'.rest.trans (congrArg (fun x : Part => { x with
    strand := z.strand, batch := z.batch, lastClass := z.lastClass, unacked := z.unacked, minor := z.minor
    points := z.points, lastAlert := z.lastAlert, kind4 := z.kind4
    run := { x.run with
      corrected := z.run.corrected, replayed := z.run.replayed, marked := z.run.marked, cause := z.run.cause
      causeLayer := z.run.causeLayer, overrun := z.run.overrun, action := z.run.action, stopped := z.run.stopped } }) h.rest)
  mark hx := by
    obtain ⟨hy, hCause⟩ := h.mark hx
    obtain ⟨hz, hCause'⟩ := h'.mark hy
    exact ⟨hz, hCause'.trans hCause⟩
  stopped hx := h'.stopped (h.stopped hx)

theorem of_faults {x y : Part} (h : x.FaultsOnly y) : x.StopsOnly y := by
  refine ⟨?_, fun hx => ?_, fun hx => ?_⟩
  · rw [h.rest]
  · obtain ⟨hy, hCause, _⟩ := h.mark hx
    exact ⟨hy, hCause⟩
  · exact (h.proj fun z => z.run.stopped).trans hx

theorem of_records {x y : Part} (h : x.RecordsOnly y) : x.StopsOnly y := of_faults (.of_records h)

/-- What looks at nothing that a stop changes is the same. -/
theorem proj {α : Type} {x y : Part} (h : x.StopsOnly y) (f : Part → α)
    (hf : f { x with
      strand := y.strand, batch := y.batch, lastClass := y.lastClass, unacked := y.unacked, minor := y.minor
      points := y.points, lastAlert := y.lastAlert, kind4 := y.kind4
      run := { x.run with
        corrected := y.run.corrected, replayed := y.run.replayed, marked := y.run.marked, cause := y.run.cause
        causeLayer := y.run.causeLayer, overrun := y.run.overrun, action := y.run.action, stopped := y.run.stopped } } = f x :=
          by rfl) : f y = f x :=
  (congrArg f h.rest).trans hf

end Part.StopsOnly

/-- `s'` differs from `s` in what the stop of a frame changes at most; no sequencer moves. -/
structure State.Stops (s s' : State) : Prop where
  part : ∀ p, (s.part p).StopsOnly (s'.part p)
  seq : ∀ t, (s'.tile t).seq = (s.tile t).seq

namespace State.Stops

theorem refl (s : State) : s.Stops s := ⟨fun _ => .refl _, fun _ => rfl⟩

theorem trans {a b c : State} (h : a.Stops b) (h' : b.Stops c) : a.Stops c :=
  ⟨fun p => (h.part p).trans (h'.part p), fun t => (h'.seq t).trans (h.seq t)⟩

theorem of_served {s s' : State} (h : s.ServedOnly s') : s.Stops s' :=
  ⟨fun p => .of_faults (h.part p), fun t => (h.tile t).proj Tile.seq⟩

theorem of_windows {s s' : State} (h : s.WindowsOnly s') : s.Stops s' :=
  ⟨fun p => .of_records (h.part p), fun t => (h.tile t).proj Tile.seq⟩

theorem of_traffic {s s' : State} (h : s.TrafficOnly s') : s.Stops s' := of_served (.of_traffic h)

end State.Stops

theorem State.stops_modPart (s : State) (p : PartId) {f : Part → Part} (hf : ∀ x : Part, x.StopsOnly (f x)) :
    s.Stops (s.modPart p f) := by
  refine ⟨fun x => ?_, fun _ => rfl⟩
  by_cases hx : x = p
  · subst hx
    rw [State.modPart_part_same]
    exact hf _
  · rw [State.modPart_part_other _ _ hx]
    exact .refl _

theorem State.stops_sendCancels (s : State) (p : PartId) (frame : BitVec 32) (fresh : Bool) :
    s.Stops (s.sendCancels p frame fresh) := by
  unfold State.sendCancels
  extract_lets tbl
  refine foldl_keeps _ (.refl s) fun y rid hy => ?_
  extract_lets e x g
  split
  · exact hy
  · split
    · exact hy.trans (.of_traffic (y.trafficOnly_send ..))
    · split
      · exact hy.trans (y.stops_modPart p fun _ => ⟨rfl, fun h => ⟨h, rfl⟩, id⟩)
      · exact hy

theorem State.stops_sendKind4 (s : State) (p : PartId) : s.Stops (s.sendKind4 p) := by
  unfold State.sendKind4
  split
  · exact .refl s
  · split
    · exact .refl s
    · exact State.Stops.trans (.of_traffic (s.trafficOnly_sendAlert p _))
        (State.stops_modPart _ p fun _ => ⟨rfl, fun h => ⟨h, rfl⟩, id⟩)

theorem State.stops_withheldAlert (s : State) (p : PartId) : s.Stops (s.withheldAlert p) := by
  unfold State.withheldAlert
  split
  · extract_lets m
    have hNote : s.Stops (s.modPart p fun pt => { pt with kind4 := some m }) :=
      s.stops_modPart p fun _ => ⟨rfl, fun h => ⟨h, rfl⟩, id⟩
    exact hNote.trans (State.stops_sendKind4 ..)
  · exact .refl s

/-! #### The stop of the tiles -/

/-- A sequencer waits at the gate with its stream at START. -/
def Seq.Parked (q : Seq) (start : BitVec 12) : Prop := q.pc = start ∧ q.st = .waiting ∧ q.why = .gate

theorem Tile.clear_hasImage (tl : Tile) : tl.clear.hasImage = tl.hasImage := tl.servedOnly_landAll.proj Tile.hasImage

theorem Tile.clear_seq (tl : Tile) : tl.clear.seq = tl.seq := tl.servedOnly_landAll.proj Tile.seq

theorem Tile.atStop_parked {tl : Tile} (h : tl.hasImage = true) (cycle : Nat) :
    (tl.atStop cycle).seq.Parked tl.seq.start := by
  unfold Tile.atStop
  extract_lets tl1
  have hClear : tl1.hasImage = true := (Tile.clear_hasImage _).trans h
  have hSeq : tl1.seq.start = tl.seq.start := by rw [Tile.clear_seq]; rfl
  rw [if_pos hClear]
  exact ⟨hSeq, rfl, rfl⟩

theorem State.nodup_tilesOf (s : State) (p : PartId) : (s.tilesOf p).Nodup := (List.nodup_finRange 512).filter _

/-- One tile stops, and the accesses that waited for its stream are served. -/
def State.stopTile (s : State) (t : TileId) : State := (s.modTile t fun tl => tl.atStop (s.liveAc t)).freeDma t

theorem State.stopTile_other (s : State) {b t : TileId} (h : t ≠ b) : (s.tile t).ServedOnly ((s.stopTile b).tile t) := by
  have hFree := (State.servedOnly_freeDma (s.modTile b fun tl => tl.atStop (s.liveAc b)) b).tile t
  rwa [State.modTile_tile_other _ _ h] at hFree

theorem State.stopTile_same (s : State) (t : TileId) :
    ((s.stopTile t).tile t).seq = ((s.tile t).atStop (s.liveAc t)).seq := by
  have hFree := (State.servedOnly_freeDma (s.modTile t fun tl => tl.atStop (s.liveAc t)) t).tile t
  rw [State.modTile_tile_same] at hFree
  exact hFree.proj Tile.seq

theorem State.stopTile_part (s : State) (t : TileId) (p : PartId) : (s.part p).FaultsOnly ((s.stopTile t).part p) :=
  (State.servedOnly_freeDma (s.modTile t fun tl => tl.atStop (s.liveAc t)) t).part p

theorem State.stopTiles_eq (s : State) (p : PartId) : s.stopTiles p =
    (((s.tilesOf p).foldl State.stopTile s).advanceAll p 1 (fun w => !bitN w.toNat 119) false).modPart p fun pt =>
      { pt with run := { pt.run with stopped := true } } := by
  unfold State.stopTiles State.each State.stopTile
  rfl

theorem State.stopTiles_parked {s : State} {p : PartId} {t : TileId} (ht : t ∈ s.tilesOf p) (hImage : (s.tile t).hasImage = true) :
    ((s.stopTiles p).tile t).seq.Parked (s.tile t).seq.start := by
  have hFold : (((s.tilesOf p).foldl State.stopTile s).tile t).seq.Parked (s.tile t).seq.start := by
    refine foldl_reaches (P := fun x : State => (s.tile t).ServedOnly (x.tile t)) (Q := fun x : State =>
      (x.tile t).seq.Parked (s.tile t).seq.start) (s.nodup_tilesOf p) ht
      (fun x b hb h => h.trans (x.stopTile_other hb.symm)) (fun x b hb h => ?_) (fun x h => ?_) (.refl _)
    · have hSeq : ((x.stopTile b).tile t).seq = (x.tile t).seq := (x.stopTile_other hb.symm).proj Tile.seq
      rw [hSeq]
      exact h
    · have hStart : (x.tile t).seq.start = (s.tile t).seq.start := h.proj fun y => y.seq.start
      rw [x.stopTile_same, ← hStart]
      exact Tile.atStop_parked ((h.proj Tile.hasImage).trans hImage) _
  have hWindows := ((s.tilesOf p).foldl State.stopTile s).windowsOnly_advanceAll p 1 (fun w => !bitN w.toNat 119) false
  rw [State.stopTiles_eq, State.modPart_tile, (State.Stops.of_windows hWindows).seq t]
  exact hFold

theorem State.stopTiles_part (s : State) (p : PartId) : (s.part p).StopsOnly ((s.stopTiles p).part p) ∧
    ((s.stopTiles p).part p).run.stopped = true := by
  have hFold : (s.part p).StopsOnly (((s.tilesOf p).foldl State.stopTile s).part p) :=
    foldl_keeps (P := fun x : State => (s.part p).StopsOnly (x.part p)) _ (.refl _) fun x t h =>
      h.trans (.of_faults (x.stopTile_part t p))
  have hWindows := ((s.tilesOf p).foldl State.stopTile s).windowsOnly_advanceAll p 1 (fun w => !bitN w.toNat 119) false
  have hNote (x : State) : x.Stops (x.modPart p fun pt => { pt with run := { pt.run with stopped := true } }) :=
    x.stops_modPart p fun _ => ⟨rfl, fun h => ⟨h, rfl⟩, fun _ => rfl⟩
  rw [State.stopTiles_eq]
  refine ⟨(hFold.trans (.of_records (hWindows.part p))).trans ((hNote _).part p), ?_⟩
  rw [State.modPart_part_same]

/-- What a withheld frame leaves of its partition. -/
structure Part.Withheld (x y : Part) : Prop where
  active : y.run.active = false
  stopped : y.run.stopped = true
  cause : y.lastCause = x.run.cause
  withheld : y.withheld = satAdd x.withheld 1
  lastFrame : y.lastFrame = x.lastFrame
  boundary : y.boundaryDue = true

theorem State.withhold_tile (s : State) (p : PartId) (elapsed : Nat) (t : TileId) :
    ((s.withhold p elapsed).tile t).seq = (s.tile t).seq :=
  (s.stops_withheldAlert p).seq t

theorem State.withhold_part {s : State} {p : PartId} (elapsed : Nat) (hMark : (s.part p).run.marked = true)
    (hStopped : (s.part p).run.stopped = true) : (s.part p).Withheld ((s.withhold p elapsed).part p) := by
  have hAlert := (s.stops_withheldAlert p).part p
  unfold State.withhold
  rw [State.modPart_part_same]
  exact ⟨rfl, hAlert.stopped hStopped, (hAlert.mark hMark).2, congrArg (satAdd · 1) (hAlert.proj Part.withheld),
    hAlert.proj Part.lastFrame, rfl⟩

theorem Part.Withheld.of_stops {x y z : Part} (hz : y.Withheld z) (h : x.StopsOnly y) (hMark : x.run.marked = true) :
    x.Withheld z :=
  ⟨hz.active, hz.stopped, hz.cause.trans (h.mark hMark).2,
    hz.withheld.trans (congrArg (satAdd · 1) (h.proj Part.withheld)), hz.lastFrame.trans (h.proj Part.lastFrame), hz.boundary⟩

/-- The stop of a frame that is marked withholds it and parks its tiles. -/
theorem State.stopFrame_of_marked {s : State} {p : PartId} (hActive : (s.part p).run.active = true)
    (hMark : (s.part p).run.marked = true) (cause : BitVec 4) (layer : BitVec 16) (elapsed : Nat) :
    (s.part p).Withheld ((s.stopFrame p cause layer elapsed).part p) ∧
      ∀ t ∈ s.tilesOf p, (s.tile t).hasImage = true →
        ((s.stopFrame p cause layer elapsed).tile t).seq.Parked (s.tile t).seq.start := by
  unfold State.stopFrame
  rw [if_pos hActive]
  extract_lets s1
  have hs1 : (s.part p).StopsOnly (s1.part p) := by
    refine ((s.servedOnly_markFrame p cause layer).part p |> Part.StopsOnly.of_faults).trans ?_
    refine (State.stops_modPart _ p fun x => ?_).part p
    dsimp only
    by_cases hFault : (decide (1 ≤ x.run.cause.toNat) && decide (x.run.cause.toNat ≤ 10)) = true
    · rw [if_pos hFault]
      exact ⟨rfl, fun h => ⟨h, rfl⟩, id⟩
    · rw [if_neg hFault]
      exact .refl x
  have hTiles : s1.tilesOf p = s.tilesOf p := rfl
  have hTile (t : TileId) : s1.tile t = s.tile t := rfl
  obtain ⟨hs2, hStopped⟩ := s1.stopTiles_part p
  have hCancels := (s1.stopTiles p).stops_sendCancels p (s1.part p).frame false
  have hs3 := (hs1.trans hs2).trans (hCancels.part p)
  have hWithheld := State.withhold_part elapsed (hs3.mark hMark).1 ((hCancels.part p).stopped hStopped)
  refine ⟨hWithheld.of_stops hs3 hMark, fun t ht hImage => ?_⟩
  rw [State.withhold_tile, hCancels.seq, ← hTile]
  exact State.stopTiles_parked (hTiles ▸ ht) hImage

/-! #### The handles of a commit -/

theorem State.TrafficOnly.handle {s s' : State} (h : s.TrafficOnly s') (t : TileId) (n : Nat) : s'.handle t n = s.handle t n :=
  h.proj fun s => s.handle t n

theorem State.sendGrant_handle (s : State) (p : PartId) (i : Nat) (t : TileId) (n : Nat) :
    (s.sendGrant p i).handle t n = s.handle t n := by
  unfold State.sendGrant
  split
  · rfl
  · extract_lets win h recip host
    split
    · rfl
    next t' _ =>
      extract_lets m s1
      have hs1 : s1.handle t n = s.handle t n := by
        subst s1
        unfold State.handle
        by_cases ht : t = t'
        · subst ht
          rw [State.modTile_tile_same]
          rfl
        · rw [State.modTile_tile_other _ _ ht]
      split
      · rfl
      · exact ((State.trafficOnly_send ..).handle t n).trans hs1

/-- The word of a window after an advance: EPOCH rises, and PUB toggles where it may (R241). -/
def advancedWord (w : Nat) (toggle : Bool) : Nat :=
  let epoch := (fieldN w 63 32 + 1) % 2 ^ 32
  let pub := if toggle then (bitN w 119 != bitN w 113) else bitN w 113
  w - fieldN w 63 32 * 2 ^ 32 + epoch * 2 ^ 32 - b2n (bitN w 113) * 2 ^ 113 + b2n pub * 2 ^ 113

theorem State.modTile_handle_other (s : State) {t t' : TileId} (f : Tile → Tile) (h : t' ≠ t) (n : Nat) :
    (s.modTile t f).handle t' n = s.handle t' n := by
  unfold State.handle
  rw [State.modTile_tile_other _ _ h]

theorem State.advance_handle (s : State) (t : TileId) (h : Nat) (toggle : Bool) (t' : TileId) (n : Nat) :
    (s.advance t h toggle).handle t' n = if t' = t ∧ n = h then BitVec.ofNat 128 (advancedWord (s.handle t h).toNat toggle)
      else s.handle t' n := by
  unfold State.advance
  extract_lets w epoch pub w' isWrite s1
  have hs1 : s1.handle t' n = if t' = t ∧ n = h then BitVec.ofNat 128 (advancedWord (s.handle t h).toNat toggle)
      else s.handle t' n := by
    by_cases ht : t' = t
    · subst ht
      unfold State.handle
      rw [State.modTile_tile_same]
      refine (Store.get_set ..).trans ?_
      simp only [true_and]
      rfl
    · rw [State.modTile_handle_other _ _ ht, if_neg fun h => ht h.1]
  split
  · split
    · extract_lets idx
      exact foldl_keeps (P := fun x : State => x.handle t' n = _) idx hs1 fun x i h => (x.sendGrant_handle ..).trans h
    · exact hs1
  · exact hs1

theorem State.advance_handle_same (s : State) (t : TileId) (h : Nat) (toggle : Bool) :
    (s.advance t h toggle).handle t h = BitVec.ofNat 128 (advancedWord (s.handle t h).toNat toggle) :=
  (s.advance_handle t h toggle t h).trans (if_pos ⟨rfl, rfl⟩)

theorem State.advance_handle_other (s : State) {t t' : TileId} {h n : Nat} (toggle : Bool) (hne : ¬(t' = t ∧ n = h)) :
    (s.advance t h toggle).handle t' n = s.handle t' n :=
  (s.advance_handle t h toggle t' n).trans (if_neg hne)

theorem State.nodup_windowsOf (s : State) (t : TileId) (kind : Nat) : (s.windowsOf t kind).Nodup := List.nodup_range.filter _

theorem State.windowsOf_congr {s s' : State} {t : TileId} (h : ∀ n, s'.handle t n = s.handle t n) (kind : Nat) :
    s'.windowsOf t kind = s.windowsOf t kind := by
  unfold State.windowsOf
  exact List.filter_congr fun n _ => by rw [h]

/-- Every window of the kind on the partition's tiles advances once. -/
theorem State.advanceAll_handle {s : State} {p : PartId} {t : TileId} (ht : t ∈ s.tilesOf p) {kind h : Nat}
    (hh : h ∈ s.windowsOf t kind) (toggle : Bool) : (s.advanceAll p kind (fun _ => true) toggle).handle t h =
      BitVec.ofNat 128 (advancedWord (s.handle t h).toNat toggle) := by
  have hFilter (x : State) (b : TileId) : (x.windowsOf b kind).filter (fun _ => true) = x.windowsOf b kind :=
    List.filter_eq_self.mpr fun _ _ => rfl
  unfold State.advanceAll State.each
  refine foldl_reaches (P := fun x : State => ∀ n, x.handle t n = s.handle t n) (Q := fun x : State =>
    x.handle t h = BitVec.ofNat 128 (advancedWord (s.handle t h).toNat toggle)) (s.nodup_tilesOf p) ht
    (fun x b hb hx n => ?_) (fun x b hb hx => ?_) (fun x hx => ?_) fun _ => rfl
  · exact foldl_keeps (P := fun y : State => y.handle t n = s.handle t n) _ (hx n) fun y a hy =>
      (y.advance_handle_other toggle fun h => hb h.1.symm).trans hy
  · exact foldl_keeps (P := fun y : State => y.handle t h = _) _ hx fun y a hy =>
      (y.advance_handle_other toggle fun h => hb h.1.symm).trans hy
  · rw [hFilter, State.windowsOf_congr hx]
    refine foldl_reaches (P := fun y : State => y.handle t h = s.handle t h) (s.nodup_windowsOf t kind) hh
      (fun y a ha hy => (y.advance_handle_other toggle fun h => ha h.2.symm).trans hy)
      (fun y a ha hy => (y.advance_handle_other toggle fun h => ha h.2.symm).trans hy)
      (fun y hy => ?_) (hx h)
    rw [y.advance_handle_same, hy]

theorem bitN_eq_decide (v i : Nat) : bitN v i = decide (v / 2 ^ i % 2 = 1) := Nat.testBit_eq_decide_div_mod_eq

/-- A word as its bits above 113, bit 113, those between EPOCH and it, EPOCH, and those below. -/
theorem advancedWord_fields {w : Nat} (hw : w < 2 ^ 128) (toggle : Bool) : advancedWord w toggle < 2 ^ 128 ∧
    fieldN (advancedWord w toggle) 63 32 = (fieldN w 63 32 + 1) % 2 ^ 32 ∧
    bitN (advancedWord w toggle) 113 = if toggle then (bitN w 119 != bitN w 113) else bitN w 113 := by
  unfold advancedWord
  extract_lets epoch pub
  have hEpoch : epoch < 2 ^ 32 := Nat.mod_lt _ (by decide)
  have hOld : b2n (bitN w 113) = w / 2 ^ 113 % 2 := by
    rw [bitN_eq_decide, b2n]
    split <;> simp_all
  have hNew : b2n pub ≤ 1 := by
    unfold b2n
    split <;> omega
  have hPub : pub = decide (b2n pub = 1) := by
    cases pub <;> rfl
  generalize b2n pub = n at hNew hPub
  change _ ∧ _ = epoch ∧ _ = pub
  rw [hPub, hOld, bitN_eq_decide]
  clear_value epoch
  clear hPub hOld pub
  unfold fieldN
  simp only [Nat.reducePow, Nat.reduceAdd, Nat.reduceSub] at *
  refine ⟨by omega, by omega, ?_⟩
  congr 1
  refine propext ⟨fun h => by omega, fun h => by omega⟩

theorem State.WindowsOnly.sp {s s' : State} (h : s.WindowsOnly s') (t : TileId) : (s'.tile t).sp = (s.tile t).sp :=
  (h.tile t).proj Tile.sp

/-- What a committed frame leaves of its partition. -/
structure Part.Committed (x y : Part) : Prop where
  lastFrame : y.lastFrame = x.frame
  active : y.run.active = false
  withheld : y.withheld = x.withheld
  boundary : y.boundaryDue = true
  status : y.statusRec.extractLsb' 96 32 = x.frame

theorem State.status_frame (s : State) (p : PartId) (committed : Bool) :
    (s.status p committed).extractLsb' 96 32 = (s.part p).frame := by
  unfold State.status
  extract_lets pt nums any sat layer cause
  repeat rw [BitVec.extractLsb'_append_eq_of_le (by decide)]
  exact BitVec.extractLsb'_eq_self

theorem State.commitFrame_part (s : State) (p : PartId) (elapsed : Nat) :
    (s.part p).Committed ((s.commitFrame p elapsed).part p) := by
  unfold State.commitFrame
  extract_lets s1 status timing
  have hWindows : (s.part p).RecordsOnly (s1.part p) := (s.windowsOnly_advanceAll p 2 (fun _ => true) true).part p
  have hStatus : status.extractLsb' 96 32 = (s1.part p).frame := State.status_frame ..
  clear_value s1 status timing
  rw [State.modPart_part_same]
  exact ⟨hWindows.proj Part.frame, rfl, hWindows.proj Part.withheld, rfl, hStatus.trans (hWindows.proj Part.frame)⟩

theorem State.WindowsOnly.now {s s' : State} (h : s.WindowsOnly s') : s'.now = s.now := h.proj State.now

/-- What a commit keeps: time, scratchpads, and the words of handles but for the advance. -/
theorem State.commitFrame_keeps (s : State) (p : PartId) (elapsed : Nat) : (s.commitFrame p elapsed).now = s.now ∧
    (∀ t, ((s.commitFrame p elapsed).tile t).sp = (s.tile t).sp) ∧
    ∀ t n, (s.commitFrame p elapsed).handle t n = (s.advanceAll p 2 (fun _ => true) true).handle t n := by
  unfold State.commitFrame
  extract_lets s1 status timing
  have hWindows : s.WindowsOnly s1 := s.windowsOnly_advanceAll p 2 (fun _ => true) true
  change _ ∧ _ ∧ ∀ t n, _ = s1.handle t n
  clear_value s1 status timing
  exact ⟨hWindows.now, hWindows.sp, fun t n => rfl⟩

theorem exec_frameCommit {s : State} {p : PartId} (td : Stamp) (hLive : s.live = true) (hActive : (s.part p).run.active = true)
    (hMark : (s.part p).run.marked = false) (hStopped : (s.part p).slackStopped = false) (hDone : s.allDone p = true) :
    ∃ elapsed, exec (.frameCommit p td) s = .next ((s.reach (td + 200)).commitFrame p elapsed) :=
  ⟨_, congrArg Host.Outcome.next (if_pos ⟨hLive, hActive, hMark, hStopped, hDone⟩)⟩

/-- Settles O41: the overrun rule by its three actions; a marked frame by what a stop leaves of a partition and its tiles;
a commit by the advance of each read window. -/
theorem frameOverrunsStopsOrCommits : Obligations.FrameOverrunsStopsOrCommits := by
  intro s p hLive hActive hStopped
  refine ⟨fun hOverrun hDone hArmed => ?_, fun e hMark hArmed => ?_, fun td hMark hDone => ?_⟩
  · have hExec := exec_frameOverrun hLive hActive hOverrun hStopped hDone hArmed
    exact ⟨fun hAction => hExec.trans (congrArg (fun n => Host.Outcome.next (s.overrunBy p n)) hAction),
      fun hAction => hExec.trans (congrArg (fun n => Host.Outcome.next (s.overrunBy p n)) hAction),
      fun hAction => hExec.trans (congrArg (fun n => Host.Outcome.next (s.overrunBy p n)) hAction)⟩
  · have hExec : exec (.frameAbortReport p e) s =
        .next (s.stopFrame p (s.part p).run.cause (s.part p).run.causeLayer e.toNat) :=
      congrArg Host.Outcome.next (if_pos ⟨hLive, hActive, hMark, hStopped, hArmed⟩)
    obtain ⟨hPart, hTiles⟩ := State.stopFrame_of_marked hActive hMark (s.part p).run.cause (s.part p).run.causeLayer e.toNat
    exact ⟨_, hExec, hPart.active, hPart.stopped, hPart.cause, hPart.withheld, hPart.lastFrame, hPart.boundary, hTiles⟩
  · obtain ⟨elapsed, hExec⟩ := exec_frameCommit td hLive hActive hMark hStopped hDone
    obtain ⟨hLast, hEnd, hWithheld, hBoundary, hStatus⟩ := (s.reach (td + 200)).commitFrame_part p elapsed
    obtain ⟨hNow, hSp, hHandles⟩ := (s.reach (td + 200)).commitFrame_keeps p elapsed
    refine ⟨_, hExec, hLast, hEnd, hWithheld, hBoundary, hStatus, hNow, fun t ht =>
      ⟨hSp t, fun h hh => ?_⟩⟩
    have hHandle : ((s.reach (td + 200)).commitFrame p elapsed).handle t h =
        BitVec.ofNat 128 (advancedWord (s.handle t h).toNat true) :=
      (hHandles t h).trans (State.advanceAll_handle (s := s.reach (td + 200)) ht hh true)
    obtain ⟨hLt, hEpoch, hPub⟩ := advancedWord_fields (s.handle t h).isLt true
    rw [hHandle, hf, BitVec.toNat_ofNat, Nat.mod_eq_of_lt hLt]
    refine ⟨hEpoch, fun hAltv => ?_⟩
    rw [hPub, hAltv]
    simp

end Sys2Proof.Machine
end

section
/-! ### A frame start that reaches a tile outside the partition (R131, R252)

A read that waits at one tile may name a window of another: its answer touches the scratchpad banks of the tile that the
window names. -/

namespace Sys2Proof.Machine

/-- A read request that waits at a tile and names window 0 of tile 16. -/
def strayRead : HeldAccess :=
  { why := .cycle, addr := 0, len := 4, data := [], tries := 0, land := none
    req := some { via := .fabric 1 false, r := { window := 1024, offset := 0, lm1 := 0, tag := 0, rsvd := 0 }, epoch := 0
                  parityErr := false, after := none } }

/-- Partition 0 owns cluster 0 and is armed; tile 0 has its image, and the stray read waits there; tile 16, in another
cluster, has the read window. -/
def strayState : State :=
  { phase := .service, dict := [(dkey 0x2100 0, 2 ^ 32 + 1)], parts := [(0, { armed := true })]
    tiles := [(0, { hasImage := true, held := [strayRead] }), (16, { handles := [(0, 3 * 2 ^ 126)] })] }

/-- The scratchpad banks of tile 16 that a command has touched. -/
def banksOfTile16 (o : Host.Outcome State Fault Refusal) : Nat :=
  match o with | .next s => (s.tile 16).spBanks.length | _ => 0

theorem banksOfTile16_frameStart : banksOfTile16 (exec (.frameStart 0) strayState) = 1 := by decide +kernel

theorem strayState_imageTiles : (16 : TileId) ∉ strayState.imageTiles 0 := by decide +kernel

/-- Refutes O9: the start of a frame serves the accesses that wait at the partition's tiles, and the answer to a read whose
window stands at tile 16 touches a bank of that tile, which is no tile of the partition. -/
theorem not_frameOfTileStartsAndEnds : ¬ Obligations.FrameOfTileStartsAndEnds := by
  unfold Obligations.FrameOfTileStartsAndEnds
  rintro ⟨_, _, hStart, _⟩
  obtain ⟨s', hExec, _, hOther, _⟩ := hStart strayState 0 rfl rfl rfl
  have hTouched : (s'.tile 16).spBanks.length = 1 :=
    (congrArg banksOfTile16 hExec).symm.trans banksOfTile16_frameStart
  have hUntouched : (s'.tile 16).spBanks.length = 0 := congrArg (fun tl : Tile => tl.spBanks.length)
    (hOther 16 strayState_imageTiles)
  exact absurd (hTouched.symm.trans hUntouched) (by decide)

end Sys2Proof.Machine
end

section
/-! ### Presentations, replays and landings (R52, R79, R110 to R117) -/

namespace Sys2Proof.Machine

theorem dueNow_single (p : Pass) : dueNow [p] = ([p], []) := by
  simp [dueNow]

theorem dropSet_nil (tl : Tile) (p : Pass) : dropSet tl p [] = [] := by
  unfold dropSet
  split
  · rfl
  · simp

/-- The tile at the cycle of its only pass in flight. -/
def Tile.atPass (tl : Tile) (p : Pass) : Tile := ({ tl.modSeq (·.reach p.due) with passes := [] } : Tile).settle

theorem Tile.atPass_passes (tl : Tile) (p : Pass) : (tl.atPass p).passes = [] := by
  rw [Tile.atPass, Tile.settle_passes]

theorem Tile.atPass_landings (tl : Tile) (p : Pass) : (tl.atPass p).landings = tl.landings := by
  rw [Tile.atPass, Tile.settle_landings]
  rfl

theorem Tile.atPass_frozen (tl : Tile) (p : Pass) : (tl.atPass p).seq.frozen = tl.seq.frozen := by
  rw [Tile.atPass, Tile.settle_seq]
  rfl

/-- What a presentation makes of its only pass. -/
def Pass.replayOf (p : Pass) (tl : Tile) (ups : List Upset) : Replay :=
  let ev := evalPass tl p ups
  let again := dropSet tl p (ev.2.map fun x => x.1)
  { pass := p, again, miss := ev.2, good := ev.1.filter fun m => !again.contains m.mac }

/-- A presentation waits for its replay: the tile freezes. -/
def State.awaitReplay (s : State) (t : TileId) (p : Pass) (r : Replay) : State :=
  (s.modTile t fun tl => { tl.modSeq (fun q => { q.freeze (max 0 (p.busy + 4)) with chkReplay := satAdd q.chkReplay 1 }) with
    replay := [r] }).count (clusterOf t) 11 (max 0 (p.busy + 4))

theorem State.awaitReplay_tile_same (s : State) (t : TileId) (tl : Tile) (p : Pass) (r : Replay) :
    ((s.modTile t fun _ => tl).awaitReplay t p r).tile t = { tl.modSeq (fun q => { q.freeze (max 0 (p.busy + 4)) with
      chkReplay := satAdd q.chkReplay 1 }) with replay := [r] } := by
  unfold State.awaitReplay
  rw [State.count_tile, State.modTile_modTile, State.modTile_tile_same]

theorem State.awaitReplay_tile_other (s : State) {t u : TileId} (hu : u ≠ t) (tl : Tile) (p : Pass) (r : Replay) :
    ((s.modTile t fun _ => tl).awaitReplay t p r).tile u = s.tile u := by
  unfold State.awaitReplay
  rw [State.count_tile, State.modTile_modTile, State.modTile_tile_other _ _ hu]

/-- The passes of one cycle present, or those with a mismatch wait for their replay. -/
def State.presentReps (s : State) (t : TileId) (due : Nat) (reps : List Replay) : State :=
  let bad := reps.filter fun r => !r.miss.isEmpty
  if bad.isEmpty then
    s.each reps fun s r => s.present t r.pass.ids due r.pass.issue r.pass.s r.pass.bfp r.good
  else
    let freeze := bad.foldl (fun n r => max n (r.pass.busy + 4)) 0
    let s := s.modTile t fun tl => { tl.modSeq (fun q => { q.freeze freeze with
      chkReplay := satAdd q.chkReplay 1 }) with replay := reps }
    let s := s.count (clusterOf t) 11 freeze
    s.each bad fun s r => s.each r.miss fun s x => s.mismatch t r.pass.ids x

theorem State.presentReps_clean (s : State) (t : TileId) (due : Nat) {r : Replay} (h : r.miss = []) :
    s.presentReps t due [r] = s.present t r.pass.ids due r.pass.issue r.pass.s r.pass.bfp r.good := by
  simp [State.presentReps, State.each, h]

theorem State.presentReps_mismatch (s : State) (t : TileId) (due : Nat) {r : Replay} (h : r.miss ≠ []) :
    s.presentReps t due [r] = r.miss.foldl (fun s x => s.mismatch t r.pass.ids x) (s.awaitReplay t r.pass r) := by
  have hBad : [r].filter (fun r => !r.miss.isEmpty) = [r] := by simp [h]
  unfold State.presentReps
  rw [hBad]
  rfl

theorem exec_passPresentation {s : State} {t : TileId} {p : Pass} (ups : List Upset) (hUp : s.tileUp t = true)
    (hFrozen : (s.tile t).frozenNow = false) (hSt : (s.tile t).seq.st ≠ .frozen) (hPasses : (s.tile t).passes = [p]) :
    exec (.passPresentation t ups) s = .next ((s.modTile t fun _ => (s.tile t).atPass p).presentReps t p.due
      [p.replayOf ((s.tile t).atPass p) ups]) := by
  have hExec : exec (.passPresentation t ups) s = execPassPresentation t ups s := rfl
  have hRuns : ¬(s.tileUp t = false ∨ (s.tile t).frozenNow = true ∨ (s.tile t).seq.st = .frozen) := by
    simp [hUp, hFrozen, hSt]
  have hTile : (s.modTile t fun tl => { tl.modSeq (·.reach p.due) with passes := [] }).modTile t Tile.settle =
      s.modTile t fun _ => (s.tile t).atPass p := (State.modTile_modTile ..).trans (State.modTile_const ..)
  rw [hExec, execPassPresentation]
  dsimp only
  rw [hPasses, dueNow_single]
  dsimp only
  rw [if_neg hRuns, hTile, State.modTile_tile_same, List.map_singleton]
  rfl

theorem State.mismatch_keeps (s : State) (t : TileId) (ids : Ids) (x : Nat × Bool) :
    (s.mismatch t ids x).tile t = { s.tile t with check := ((s.mismatch t ids x).tile t).check } ∧
      ∀ u, u ≠ t → (s.mismatch t ids x).tile u = s.tile u := by
  unfold State.mismatch
  simp only [State.raise_tile, State.modTile_tile_same, true_and]
  exact fun u hu => State.modTile_tile_other _ _ hu

theorem State.foldl_mismatch_keeps (l : List (Nat × Bool)) (t : TileId) (ids : Ids) (s : State) :
    (∃ c, (l.foldl (fun s x => s.mismatch t ids x) s).tile t = { s.tile t with check := c }) ∧
      ∀ u, u ≠ t → (l.foldl (fun s x => s.mismatch t ids x) s).tile u = s.tile u := by
  refine foldl_keeps (P := fun y : State => (∃ c, y.tile t = { s.tile t with check := c }) ∧ ∀ u, u ≠ t → y.tile u = s.tile u)
    l ⟨⟨(s.tile t).check, rfl⟩, fun _ _ => rfl⟩ fun y x ⟨⟨c, hSame⟩, hOther⟩ => ?_
  obtain ⟨hSame', hOther'⟩ := y.mismatch_keeps t ids x
  refine ⟨⟨((y.mismatch t ids x).tile t).check, ?_⟩, fun u hu => (hOther' u hu).trans (hOther u hu)⟩
  rw [hSame', hSame]

/-- What the mismatches of a presentation leave of its tile, and of the others. -/
theorem State.mismatches_awaitReplay (l : List (Nat × Bool)) (s : State) (t : TileId) (tl : Tile) (p : Pass) (r : Replay) :
    let x := l.foldl (fun s x => s.mismatch t p.ids x) ((s.modTile t fun _ => tl).awaitReplay t p r)
    (x.tile t).replay = [r] ∧ (x.tile t).passes = tl.passes ∧ (x.tile t).seq.frozen = tl.seq.frozen + (p.busy + 4) ∧
      (x.tile t).landings = tl.landings ∧ ∀ u, u ≠ t → x.tile u = s.tile u := by
  intro x
  obtain ⟨⟨c, hTile⟩, hOther⟩ := State.foldl_mismatch_keeps l t p.ids ((s.modTile t fun _ => tl).awaitReplay t p r)
  rw [State.awaitReplay_tile_same, Nat.zero_max] at hTile
  rw [show x.tile t = _ from hTile]
  exact ⟨rfl, rfl, rfl, rfl, fun u hu => (hOther u hu).trans (State.awaitReplay_tile_other _ hu ..)⟩

/-! #### Replays -/

/-- One replayed pass is checked again and presented. -/
def State.presentReplay (s : State) (t : TileId) (tl : Tile) (ups : List Upset) (r : Replay) : State :=
  let ev := evalPass tl r.pass (ups.filter fun u => r.again.contains u.mac.val)
  let still := ev.2.filter fun x => r.again.contains x.1
  let again := ev.1.filter fun x => r.again.contains x.mac
  let all := r.pass.macros.filterMap fun x => (r.good ++ again).find? fun y => decide (y.mac = x.1)
  let s := s.each (r.miss.filter fun x => !still.contains x) fun s x => s.clearedMismatch t r.pass x
  let s := s.each still fun s x => s.checksumEvent t r.pass x
  s.present t r.pass.ids r.pass.due r.pass.issue r.pass.s r.pass.bfp all

/-- The mismatches of a replay that stay. -/
def Replay.still (r : Replay) (tl : Tile) (ups : List Upset) : List (Nat × Bool) :=
  (evalPass tl r.pass (ups.filter fun u => r.again.contains u.mac.val)).2.filter fun x => r.again.contains x.1

/-- What a replayed pass presents: what its first presentation left, and what the replay gave. -/
def Replay.all (r : Replay) (tl : Tile) (ups : List Upset) : List MacPres :=
  r.pass.macros.filterMap fun x =>
    (r.good ++ (evalPass tl r.pass (ups.filter fun u => r.again.contains u.mac.val)).1.filter fun y =>
      r.again.contains y.mac).find? fun y => decide (y.mac = x.1)

theorem State.presentReplay_cleared (s : State) (t : TileId) (tl : Tile) (ups : List Upset) {r : Replay} {x : Nat × Bool}
    (hMiss : r.miss = [x]) (hStill : r.still tl ups = []) : s.presentReplay t tl ups r =
      (s.clearedMismatch t r.pass x).present t r.pass.ids r.pass.due r.pass.issue r.pass.s r.pass.bfp (r.all tl ups) := by
  have hCleared : (r.miss.filter fun x => !(r.still tl ups).contains x) = [x] := by simp [hMiss, hStill]
  change (((r.still tl ups).foldl (fun s x => s.checksumEvent t r.pass x) ((r.miss.filter fun x =>
    !(r.still tl ups).contains x).foldl (fun s x => s.clearedMismatch t r.pass x) s)).present ..) = _
  rw [hCleared, hStill]
  rfl

theorem State.presentReplay_stays (s : State) (t : TileId) (tl : Tile) (ups : List Upset) {r : Replay} {x : Nat × Bool}
    (hMiss : r.miss = [x]) (hStill : r.still tl ups = [x]) : s.presentReplay t tl ups r =
      (s.checksumEvent t r.pass x).present t r.pass.ids r.pass.due r.pass.issue r.pass.s r.pass.bfp (r.all tl ups) := by
  have hCleared : (r.miss.filter fun x => !(r.still tl ups).contains x) = [] := by simp [hMiss, hStill]
  change (((r.still tl ups).foldl (fun s x => s.checksumEvent t r.pass x) ((r.miss.filter fun x =>
    !(r.still tl ups).contains x).foldl (fun s x => s.clearedMismatch t r.pass x) s)).present ..) = _
  rw [hCleared, hStill]
  rfl

theorem exec_replayPresentation {s : State} {t : TileId} {r : Replay} (ups : List Upset) (h : (s.tile t).replay = [r]) :
    exec (.replayPresentation t ups) s = .next ((s.modTile t fun tl => { tl with replay := [] }).presentReplay t
      { s.tile t with replay := [] } ups r) := by
  have hExec : exec (.replayPresentation t ups) s = execReplayPresentation t ups s := rfl
  rw [hExec, execReplayPresentation]
  dsimp only
  rw [h, State.modTile_tile_same]
  rfl

/-- The tile of a replay with other check words, and the event of a mismatch. -/
def State.foundMismatch (s : State) (t : TileId) (o : PartId) (p : Pass) (m : Nat) (k : Bool) (cls : BitVec 3) (ck : CheckSt) :
    State :=
  (s.modTile t fun _ => { s.tile t with replay := [], check := ck }).raise 0x0002 cls (s.srcTile t m) p.ids (some o)
    [BitVec.ofNat 8 m, BitVec.ofNat 8 (b2n k)]

theorem State.clearedMismatch_eq {s : State} {t : TileId} {o : PartId} (p : Pass) (m : Nat) (k : Bool)
    (hOwner : s.tileOwner? t = some o) :
    (s.modTile t fun tl => { tl with replay := [] }).clearedMismatch t p (m, k) = s.foundMismatch t o p m k clsReplayed
      { (s.tile t).check with replayOk := satAdd (s.tile t).check.replayOk 1 } := by
  unfold State.clearedMismatch State.foundMismatch
  rw [State.modTile_modTile, ← hOwner]
  rfl

theorem State.mismatch_eq {s : State} {t : TileId} {o : PartId} (p : Pass) (m : Nat) (k : Bool)
    (hOwner : s.tileOwner? t = some o) :
    (s.modTile t fun tl => { tl with replay := [] }).mismatch t p.ids (m, k) = s.foundMismatch t o p m k clsNone
      { (s.tile t).check with lastKind := k, lastMacro := BitVec.ofNat 4 m } := by
  unfold State.mismatch State.foundMismatch
  rw [State.modTile_modTile, ← hOwner]
  rfl

theorem State.ServedOnly.tileOwner? {s s' : State} (h : s.ServedOnly s') (t : TileId) : s'.tileOwner? t = s.tileOwner? t :=
  h.proj fun s => s.tileOwner? t

/-- A residue mismatch that stays: the event, the mark, and the repair of the macro. -/
theorem State.checksumEvent_eq {s : State} {t : TileId} {o : PartId} (p : Pass) (m : Nat) (hOwner : s.tileOwner? t = some o) :
    (s.modTile t fun tl => { tl with replay := [] }).checksumEvent t p (m, false) =
      ((((s.foundMismatch t o p m false clsNone { (s.tile t).check with lastKind := false, lastMacro := BitVec.ofNat 4 m }).modTile t
        fun tl => { tl with
          check := { tl.check with replayFail := satAdd tl.check.replayFail 1 }
          repair := { tl.repair with chkEvents := satAdd tl.repair.chkEvents 1 } }).abortTile t 0x0003 2 m p.ids
        [BitVec.ofNat 8 m]).modPart o fun pt => { pt with
          repairs := RepairDue.into pt.repairs { key := 16 * t.val + m, why := .checksum } }) := by
  unfold State.checksumEvent
  rw [State.mismatch_eq p m false hOwner]
  extract_lets ck s1 s2
  have hServed : s1.ServedOnly s2 := s1.servedOnly_abortTile ..
  have hs1 : s1.tileOwner? t = s.tileOwner? t := (State.servedOnly_raise ..).tileOwner? t
  have hs2 : s2.tileOwner? t = some o := (hServed.tileOwner? t).trans (hs1.trans hOwner)
  rw [hs2]
  rfl

theorem evalPass_unsliced {tl : Tile} {p : Pass} {ups : List Upset} (h : p.sk = 0) {x : Nat × Bool}
    (hx : x ∈ (evalPass tl p ups).2) : x.2 = false := by
  unfold evalPass at hx
  simp only [h, if_true, List.map_nil, List.append_nil, List.mem_map] at hx
  obtain ⟨y, _, rfl⟩ := hx
  rfl

theorem exec_groupSumLanding {s : State} {t : TileId} {a : AccSlot} {l : Landing} (hUp : s.tileUp t = true)
    (hFrozen : (s.tile t).frozenNow = false) (hSt : (s.tile t).seq.st ≠ .frozen)
    (hFind : ((s.tile t).landings.find? fun l => decide (l.slot = a.val)) = some l) :
    exec (.groupSumLanding t a) s = .next (s.modTile t fun tl => (l.parts.flatMap fun x => x.elems).foldl
      (fun tl e => tl.addElem a.val e.out e.val e.exp true)
      { tl.modSeq (fun q => { q with ac := max q.ac (l.due + 1) }) with landings := tl.landings.erase l }) := by
  have hExec : exec (.groupSumLanding t a) s = execGroupSumLanding t a s := rfl
  have hRuns : ¬(s.tileUp t = false ∨ (s.tile t).frozenNow = true ∨ (s.tile t).seq.st = .frozen) := by
    simp [hUp, hFrozen, hSt]
  rw [hExec, execGroupSumLanding]
  dsimp only
  rw [hFind]
  exact congrArg Host.Outcome.next (if_neg hRuns)

/-- Settles O12: a clean pass presents, one with a mismatch waits; of the replay of one mismatch, by whether it stays; a
group sum enters its elements one by one. -/
theorem passesPresentReplayAndLand : Obligations.PassesPresentReplayAndLand := by
  refine ⟨fun s t p ups hUp hFrozen hSt hPasses => ?_, fun s t r m k ups p hReplay hMiss hOwner => ?_,
    fun s t a l hUp hFrozen hSt hFind => exec_groupSumLanding hUp hFrozen hSt hFind⟩
  · have hExec := exec_passPresentation ups hUp hFrozen hSt hPasses
    refine ⟨fun hClean => ?_, fun hBad => ?_⟩
    · refine hExec.trans (congrArg Host.Outcome.next ((State.presentReps_clean _ t p.due hClean).trans ?_))
      have hGood : (p.replayOf ((s.tile t).atPass p) ups).good = (evalPass ((s.tile t).atPass p) p ups).1 := by
        have hDrop : dropSet ((s.tile t).atPass p) p ((evalPass ((s.tile t).atPass p) p ups).2.map fun x => x.1) = [] := by
          rw [show (evalPass ((s.tile t).atPass p) p ups).2 = [] from hClean]
          exact dropSet_nil ..
        unfold Pass.replayOf
        dsimp only
        rw [hDrop]
        simp
      rw [hGood]
      rfl
    · have hMismatch : exec (.passPresentation t ups) s = .next ((p.replayOf ((s.tile t).atPass p) ups).miss.foldl
          (fun s x => s.mismatch t p.ids x)
          ((s.modTile t fun _ => (s.tile t).atPass p).awaitReplay t p (p.replayOf ((s.tile t).atPass p) ups))) :=
        hExec.trans (congrArg Host.Outcome.next (State.presentReps_mismatch _ t p.due hBad))
      obtain ⟨hReplay, hNoPass, hFreeze, hLandings, hOther⟩ := State.mismatches_awaitReplay
        (p.replayOf ((s.tile t).atPass p) ups).miss s t ((s.tile t).atPass p) p (p.replayOf ((s.tile t).atPass p) ups)
      exact ⟨_, hMismatch, hReplay, hNoPass.trans (Tile.atPass_passes ..), hFreeze.trans (by rw [Tile.atPass_frozen]),
        hLandings.trans (Tile.atPass_landings ..), hOther⟩
  · have hExec := exec_replayPresentation ups hReplay
    refine ⟨fun hNone => hExec.trans (congrArg Host.Outcome.next ?_), fun hStays hSk => hExec.trans (congrArg Host.Outcome.next ?_)⟩
    · rw [State.presentReplay_cleared _ t _ ups hMiss hNone, State.clearedMismatch_eq r.pass m k hOwner]
      rfl
    · have hk : k = false :=
        evalPass_unsliced hSk (List.mem_of_mem_filter (p := fun x => r.again.contains x.1) (hStays ▸ List.mem_singleton_self (m, k)))
      subst hk
      rw [State.presentReplay_stays _ t _ ups hMiss hStays, State.checksumEvent_eq r.pass m hOwner]
      rfl

end Sys2Proof.Machine
end

section
/-! ### What is due at a tile reaches another tile (R160, R252) -/

namespace Sys2Proof.Machine

theorem strayState_due : ((strayState.due 0).tile 16).spBanks.length = 1 := by decide +kernel

/-- Refutes O27: among what is due at a tile are the accesses that wait there, and the answer to a read whose window stands
at another tile touches a scratchpad bank of that tile. -/
theorem not_moveCopiesBytes : ¬ Obligations.MoveCopiesBytes := by
  unfold Obligations.MoveCopiesBytes
  rintro ⟨_, hDue, _⟩
  obtain ⟨_, _, hOther⟩ := hDue strayState 0
  have hUntouched : ((strayState.due 0).tile 16).spBanks.length = 0 :=
    congrArg (fun tl : Tile => tl.spBanks.length) (hOther 16 (by decide))
  exact absurd (strayState_due.symm.trans hUntouched) (by decide)

end Sys2Proof.Machine
end

section
/-! ### Micro-ops that access a calm scratchpad (R128, R160 to R162, R228 to R234) -/

namespace Sys2Proof.Machine

/-- What `State.calm` says of a tile. -/
structure Tile.Calm (tl : Tile) : Prop where
  step : tl.step = none
  held : tl.held = []
  late : tl.late = []
  awake : ∀ b < 4, (tl.spBank b).power = .on
  whole : ∀ h < 32, (tl.win h).torn = false ∧ (tl.win h).short = false

theorem State.calm_tile {s : State} {t : TileId} (h : s.calm t = true) : (s.tile t).Calm := by
  simp only [State.calm, Bool.and_eq_true, Option.isNone_iff_eq_none, List.isEmpty_iff, List.all_eq_true, List.mem_range,
    beq_iff_eq, Bool.not_eq_true'] at h
  obtain ⟨⟨⟨⟨hStep, hHeld⟩, hLate⟩, hAwake⟩, hWhole⟩ := h
  exact ⟨hStep, hHeld, hLate, hAwake, hWhole⟩

/-- A use with the tags and the units of its micro-op. -/
def PathUse.tagged (u : PathUse) (id : Ids) (units : Units) (issue : Nat) : PathUse :=
  { u with ids := id, macs := units.macs, slots := units.slots, unit := units.unit, issue }

theorem useBanks_tagged (us : List PathUse) (id : Ids) (units : Units) (issue : Nat) :
    useBanks (us.map (·.tagged id units issue)) = useBanks us := by
  unfold useBanks
  simp only [List.any_map]
  rfl

theorem lastTouch_tagged (us : List PathUse) (id : Ids) (units : Units) (issue b : Nat) :
    lastTouch (us.map (·.tagged id units issue)) b = lastTouch us b := by
  unfold lastTouch
  rw [List.foldl_map]
  have hOne (u : PathUse) : useBanks [u.tagged id units issue] = useBanks [u] := useBanks_tagged [u] id units issue
  simp only [hOne]
  rfl

theorem Tile.touchUses_tagged (tl : Tile) (us : List PathUse) (id : Ids) (units : Units) (issue now : Nat) :
    tl.touchUses (us.map (·.tagged id units issue)) now = tl.touchUses us now := by
  unfold Tile.touchUses
  rw [useBanks_tagged]
  simp only [lastTouch_tagged]

theorem mem_useBanks {us : List PathUse} {b : Nat} (h : b ∈ useBanks us) : b < 4 :=
  List.mem_range.mp (List.mem_of_mem_filter h)

theorem Tile.wakeFor_awake {tl : Tile} (h : ∀ b < 4, (tl.spBank b).power = .on) (us : List PathUse) : tl.wakeFor us = tl := by
  unfold Tile.wakeFor
  refine foldl_keeps_of_mem (P := fun x => x = tl) (useBanks us) rfl fun x b hb hx => ?_
  subst hx
  dsimp only
  rw [h b (mem_useBanks hb)]

theorem Tile.servedOnly_touchUses (tl : Tile) (us : List PathUse) (now : Nat) : tl.ServedOnly (tl.touchUses us now) :=
  (Tile.ServedOnly.refl tl).foldl (fun x b => x.servedOnly_touch [b] _) _

theorem Tile.touchUses_shape (tl : Tile) (us : List PathUse) (now : Nat) :
    tl.touchUses us now = { tl with spBanks := (tl.touchUses us now).spBanks } := by
  unfold Tile.touchUses Tile.touch
  refine foldl_keeps (P := fun x : Tile => x = { tl with spBanks := x.spBanks }) _ rfl fun x b hx => ?_
  exact (congrArg (fun y : Tile => y.modSpBank b fun k => { k with touched := now + (lastTouch us b - x.seq.ac) }) hx).trans
    (by rw [hx]; rfl)

theorem Tile.addPaths_touchUses_shape (tl : Tile) (ps us : List PathUse) (now : Nat) :
    (tl.addPaths ps).touchUses us now = { tl with
      paths := ((tl.addPaths ps).touchUses us now).paths, spBanks := ((tl.addPaths ps).touchUses us now).spBanks } := by
  rw [Tile.touchUses_shape]
  rfl

/-- What the work of a micro-op finds: its tile with the micro-op begun, its paths taken and its banks touched. -/
theorem State.opened_shape (s : State) (t : TileId) (id : Ids) (us : List PathUse) (units : Units) :
    s.opened t id us units = { (s.tile t).begun id with
      paths := (s.opened t id us units).paths, spBanks := (s.opened t id us units).spBanks } := by
  unfold State.opened
  exact Tile.addPaths_touchUses_shape ..

/-- What looks at neither the paths nor the banks of the scratchpad is that of the tile as the micro-op begins. -/
theorem State.opened_proj {α : Type} (s : State) (t : TileId) (id : Ids) (us : List PathUse) (units : Units) (f : Tile → α)
    (hf : ∀ (x : Tile) p b, f { x with paths := p, spBanks := b } = f x) :
    f (s.opened t id us units) = f ((s.tile t).begun id) := by
  rw [State.opened_shape]
  exact hf ..

theorem State.opened_seq (s : State) (t : TileId) (id : Ids) (us : List PathUse) (units : Units) :
    (s.opened t id us units).seq = ((s.tile t).begun id).seq :=
  s.opened_proj t id us units Tile.seq fun _ _ _ => rfl

@[simp] theorem State.opened_sp (s : State) (t : TileId) (id : Ids) (us : List PathUse) (units : Units) :
    (s.opened t id us units).sp = (s.tile t).sp :=
  (s.opened_proj t id us units Tile.sp fun _ _ _ => rfl).trans (Tile.begun_sp ..)

@[simp] theorem State.opened_late (s : State) (t : TileId) (id : Ids) (us : List PathUse) (units : Units) :
    (s.opened t id us units).late = (s.tile t).late :=
  (s.opened_proj t id us units Tile.late fun _ _ _ => rfl).trans (Tile.begun_late ..)

@[simp] theorem State.opened_held (s : State) (t : TileId) (id : Ids) (us : List PathUse) (units : Units) :
    (s.opened t id us units).held = (s.tile t).held :=
  (s.opened_proj t id us units Tile.held fun _ _ _ => rfl).trans (Tile.begun_held ..)

@[simp] theorem State.opened_win (s : State) (t : TileId) (id : Ids) (us : List PathUse) (units : Units) (h : Nat) :
    (s.opened t id us units).win h = (s.tile t).win h :=
  (s.opened_proj t id us units (Tile.win · h) fun _ _ _ => rfl).trans (by rw [Tile.win, Tile.begun_windows, Tile.win])

theorem State.readClosed_calm {s : State} {t : TileId} (h : ∀ n < 32, ((s.tile t).win n).torn = false ∧
    ((s.tile t).win n).short = false) (id : Ids) (us : List PathUse) : s.readClosed t id us = s := by
  have hNone : s.badWindows t us = [] := by
    refine List.filter_eq_nil_iff.mpr fun n hn => ?_
    obtain ⟨hTorn, hShort⟩ := h n (List.mem_range.mp (List.mem_of_mem_filter hn))
    simp [hTorn, hShort]
  unfold State.readClosed
  rw [hNone]
  rfl

theorem State.freeWords_calm {s : State} {t : TileId} (h : (s.tile t).held = []) (us : List PathUse) : s.freeWords t us = s := by
  have hNone : s.underWrite t us = [] := by
    unfold State.underWrite
    rw [h]
    simp
  unfold State.freeWords
  rw [hNone]
  rfl

theorem Tile.readView_calm {tl : Tile} (h : tl.late = []) (us : List PathUse) : tl.readView us = tl := if_pos h

/-- What a micro-op makes of the block once it has begun and taken its paths. -/
def State.workOn (s : State) (t : TileId) (id : Ids) (us : List PathUse) (incs : List (BitVec 3 × BitVec 1))
    (ok : State → State) : State :=
  let kept := s.tile t
  let s := ok (((s.readClosed t id us).modTile t (·.readView us)).freeWords t us)
  (s.modTile t fun tl => { tl.incQ incs with sp := kept.sp, spPar := kept.spPar }).retire t

theorem State.workOn_calm (s : State) {t : TileId} {tl : Tile} (hLate : tl.late = []) (hHeld : tl.held = [])
    (hWhole : ∀ n < 32, (tl.win n).torn = false ∧ (tl.win n).short = false) (id : Ids) (us : List PathUse)
    (incs : List (BitVec 3 × BitVec 1)) (ok : State → State) : (s.issued t tl).workOn t id us incs ok =
      ((ok (s.issued t tl)).modTile t fun x => { x.incQ incs with sp := tl.sp, spPar := tl.spPar }).retire t := by
  have hClosed : (s.issued t tl).readClosed t id us = s.issued t tl :=
    State.readClosed_calm (by rw [State.issued_tile]; exact hWhole) id us
  have hView : tl.readView us = tl := Tile.readView_calm hLate us
  have hFree : (s.issued t tl).freeWords t us = s.issued t tl := State.freeWords_calm (by rw [State.issued_tile, hHeld]) us
  unfold State.workOn
  rw [State.issued_tile, hClosed, State.issued_modTile, hView, hFree]

/-- The tile that a micro-op opens is as calm as it was. -/
theorem State.calm_opened {s : State} {t : TileId} (h : (s.tile t).Calm) (id : Ids) (us : List PathUse) (units : Units) :
    (s.opened t id us units).late = [] ∧ (s.opened t id us units).held = [] ∧
      ∀ n < 32, ((s.opened t id us units).win n).torn = false ∧ ((s.opened t id us units).win n).short = false :=
  ⟨(s.opened_late ..).trans h.late, (s.opened_held ..).trans h.held, fun n hn => by rw [State.opened_win]; exact h.whole n hn⟩

/-- A micro-op that accesses a calm scratchpad without a conflict does its work in the tile that it opened. -/
theorem State.access_calm {s : State} {t : TileId} {us : List PathUse} (id : Ids) (incs : List (BitVec 3 × BitVec 1))
    (units : Units) (ok : State → State) (hPage : (s.tile t).pageHold = none) (hCalm : (s.tile t).Calm)
    (hOk : (s.tile t).accessOk us = true) :
    s.access t id (some us) incs units ok = ((ok (s.issued t (s.opened t id us units))).modTile t fun tl => { tl.incQ incs with
      sp := (s.opened t id us units).sp, spPar := (s.opened t id us units).spPar }).retire t := by
  have hFails : ¬(!(s.tile t).accessOk us) = true := by simp [hOk]
  have hStep : (s.tile t).stepHits (us.map (·.tagged id units (s.tile t).seq.ac)) = false := by
    unfold Tile.stepHits
    rw [hCalm.step]
  have hBegin : (s.begin_ t id).modTile t (fun tl => ((tl.wakeFor (us.map (·.tagged id units (s.tile t).seq.ac))).addPaths
      (us.map (·.tagged id units (s.tile t).seq.ac))).touchUses (us.map (·.tagged id units (s.tile t).seq.ac)) (s.tileAc t)) =
        s.issued t (s.opened t id us units) := by
    rw [State.begin_issued id hPage, State.issued_modTile]
    have hAwake : ∀ b < 4, (((s.tile t).begun id).spBank b).power = .on := fun b hb => by
      rw [Tile.spBank, Tile.begun_spBanks]
      exact hCalm.awake b hb
    rw [Tile.wakeFor_awake hAwake, Tile.touchUses_tagged]
    rfl
  unfold State.access
  refine (if_neg hFails).trans ((if_neg (Bool.not_eq_true _ ▸ hStep)).trans ?_)
  change State.workOn ((s.begin_ t id).modTile t (fun tl => ((tl.wakeFor (us.map (·.tagged id units (s.tile t).seq.ac))).addPaths
      (us.map (·.tagged id units (s.tile t).seq.ac))).touchUses (us.map (·.tagged id units (s.tile t).seq.ac)) (s.tileAc t)))
    t id (us.map (·.tagged id units (s.tile t).seq.ac)) incs ok = _
  rw [hBegin]
  obtain ⟨hLate, hHeld, hWhole⟩ := State.calm_opened hCalm id us units
  exact State.workOn_calm s hLate hHeld hWhole id _ incs ok

/-- The end of a micro-op that has changed its tile alone: its registers step, and the following index issues next. -/
theorem State.issued_finish (s : State) (t : TileId) {tl x : Tile} (incs : List (BitVec 3 × BitVec 1)) (hSp : x.sp = tl.sp)
    (hPar : x.spPar = tl.spPar) :
    ((s.issued t x).modTile t fun y => { y.incQ incs with sp := tl.sp, spPar := tl.spPar }).retire t =
      s.issued t (x.incQ incs).next := by
  rw [State.issued_modTile, State.issued_retire, ← hSp, ← hPar]
  rfl

end Sys2Proof.Machine
end

section
/-! ### MOVE to staging halves and instruction pages (R69, R71, R73, R151, R161) -/

namespace Sys2Proof.Machine

theorem State.count_retire (s : State) (c : ClusterId) (w n : Nat) (t : TileId) :
    (s.count c w n).retire t = (s.retire t).count c w n := State.count_modTile ..

theorem State.opened_spRead (s : State) (t : TileId) (id : Ids) (us : List PathUse) (units : Units) (a n : Nat) :
    (s.opened t id us units).spRead a n = (s.tile t).spRead a n := by
  rw [Tile.spRead, State.opened_sp, Tile.spRead]

/-! #### What a staging half holds -/

theorem Store.get_filter_of_nodup {l : List (Nat × Byte)} (hl : (l.map fun x => x.1).Nodup) (i : Nat) :
    Store.get 0 (l.filter fun x => !decide (x.2 = 0)) i = Store.get 0 l i := by
  induction l with
  | nil => rfl
  | cons x l ih =>
    obtain ⟨hx, hl⟩ := List.nodup_cons.mp hl
    have hNone {m : List (Nat × Byte)} (hm : ∀ y ∈ m, y.1 ≠ x.1) : Store.get 0 m x.1 = 0 := by
      induction m with
      | nil => rfl
      | cons y m ihm =>
        rw [Store.get, if_neg (hm y (by simp))]
        exact ihm fun z hz => hm z (by simp [hz])
    by_cases hZero : x.2 = 0
    · rw [List.filter_cons_of_neg (by rw [decide_eq_true hZero]; decide), ih hl, Store.get]
      split
      · subst_vars
        rw [hZero]
        exact hNone fun y hy h => hx (List.mem_map.mpr ⟨y, hy, h⟩)
      · rfl
    · rw [List.filter_cons_of_pos (by rw [decide_eq_false hZero]; rfl), Store.get, Store.get, ih hl]

theorem Store.get_map_range {α : Type} (d : α) (f : Nat → α) {n i : Nat} (h : i < n) :
    Store.get d ((List.range n).map fun i => (i, f i)) i = f i := by
  have hList (l : List Nat) (hi : i ∈ l) : Store.get d (l.map fun i => (i, f i)) i = f i := by
    induction l with
    | nil => cases hi
    | cons a l ih =>
      rw [List.map_cons, Store.get]
      split
      · subst_vars
        rfl
      · exact ih ((List.mem_cons.mp hi).resolve_left (Ne.symm ‹_›))
  exact hList _ (List.mem_range.mpr h)

theorem fillHalf_acts (cw : Nat) (l : List Byte) {i : Nat} (h : i < 256) :
    Store.get 0 (fillHalf cw l).acts i = BitVec.ofNat 8 (container (cwBits cw) l i) := by
  unfold fillHalf
  refine (Store.get_filter_of_nodup ?_ i).trans (Store.get_map_range _ _ h)
  rw [List.map_map]
  exact (List.map_id _).symm ▸ List.nodup_range

/-- Bits are set one by one where a condition holds. -/
theorem getLsbD_foldl_bits (f : Nat → Bool) (l : List Nat) (z : BitVec 32) {k : Nat} (hk : k < 32) (hl : ∀ i ∈ l, i < 32) :
    (l.foldl (fun (z : BitVec 32) i => if f i then z ||| BitVec.ofNat 32 (2 ^ i) else z) z).getLsbD k = true ↔
      z.getLsbD k = true ∨ k ∈ l ∧ f k = true := by
  induction l generalizing z with
  | nil => simp
  | cons i l ih =>
    have hBit : (BitVec.ofNat 32 (2 ^ i)).getLsbD k = decide (k = i) := by
      rw [BitVec.getLsbD_ofNat, Nat.testBit_two_pow]
      simp [hk, eq_comm]
    have hStep : (if f i then z ||| BitVec.ofNat 32 (2 ^ i) else z).getLsbD k = true ↔
        z.getLsbD k = true ∨ k = i ∧ f k = true := by
      by_cases hi : f i = true
      · rw [if_pos hi, BitVec.getLsbD_or, Bool.or_eq_true, hBit, decide_eq_true_iff]
        exact or_congr_right ⟨fun h => ⟨h, h ▸ hi⟩, fun h => h.1⟩
      · rw [if_neg hi]
        exact (or_iff_left fun ⟨hki, hf⟩ => hi (hki ▸ hf)).symm
    rw [List.foldl_cons, ih _ fun j hj => hl j (by simp [hj]), hStep, List.mem_cons]
    tauto

theorem drop_take_range {g : Nat} (hg : g < 4) : ((List.range 256).drop (64 * g)).take 64 = List.range' (64 * g) 64 := by
  interval_cases g <;> rfl

theorem fillHalf_zero (cw : Nat) (l : List Byte) {g b : Nat} (hg : g < 4) (hb : b < 8) :
    ((fillHalf cw l).zero.getLsbD (4 * b + g) = true ↔
      ∀ i < 64, (BitVec.ofNat 8 (container (cwBits cw) l (64 * g + i))).getLsbD b = false) := by
  unfold fillHalf
  dsimp only
  rw [getLsbD_foldl_bits _ _ _ (by omega) fun i hi => List.mem_range.mp hi]
  have hMod : (4 * b + g) % 4 = g := by omega
  have hDiv : (4 * b + g) / 4 = b := by omega
  have hClear : (0 : BitVec 32).getLsbD (4 * b + g) = false := BitVec.getLsbD_zero
  rw [hMod, hDiv, hClear, ← List.map_drop, ← List.map_take, drop_take_range hg]
  simp only [Bool.false_eq_true, false_or, List.mem_range, List.all_eq_true, Bool.not_eq_true', List.mem_map,
    List.mem_range'_1, forall_exists_index, and_imp]
  refine ⟨fun ⟨_, h⟩ i hi => h _ (64 * g + i) (by omega) (by omega) rfl, fun h => ⟨by omega, fun x i hLo hHi hx => ?_⟩⟩
  subst hx
  have hi := h (i - 64 * g) (by omega)
  rwa [show 64 * g + (i - 64 * g) = i by omega] at hi

theorem Macro.settle_half0 {mc : Macro} {fl : Fill} (ac : Nat) (h : mc.fill0 = some fl) :
    (mc.settle ac).half0 = if fl.due < ac then fl.half else mc.half0 := by
  unfold Macro.settle
  rw [h]
  dsimp only
  by_cases hDue : fl.due < ac
  · rw [if_pos hDue, if_pos hDue]
    dsimp only
    split
    · split <;> rfl
    · rfl
  · rw [if_neg hDue, if_neg hDue]
    split
    · split <;> rfl
    · rfl

/-! #### The micro-ops -/

/-- The half of a `Macro` that a MOVE fills. -/
def Macro.filledBy (mc : Macro) (sel : BitVec 1) (fl : Fill) : Macro :=
  if sel = 0 then { mc with fill0 := some fl } else { mc with fill1 := some fl }

theorem exec_moveToStaging {s₀ s : State} {t : TileId} {id : Ids} {f : MoveF} {a : Nat} (hs : s = s₀.due t)
    (hIssues : s₀.issues t (.moveToStaging t id f) = true) (hCalm : s.calm t = true) :
    let n := if f.cw = 4 then 260 else 32 * cwBits f.cw.toNat
    let ac := (s.tile t).seq.ac
    let us : List PathUse := [{ form := 0, write := false, start := ac, addr := a, step := 512, len := n }]
    s.spOp? t f.qsrc.toNat n false = some a → (s.tile t).accessOk us = true →
    (∀ m ∈ onesOf f.dmacros, (((s.tile t).begun id).mac m).halfUntil f.dsel ≤ ac + 2) →
    let fl : Fill := { due := ac + 2, half := fillHalf f.cw.toNat ((s.tile t).spRead a n), ids := id }
    exec (.moveToStaging t id f) s₀ = .next ((s.issued t ((((s.opened t id us { macs := onesOf f.dmacros }).modMacs
      (onesOf f.dmacros) fun _ mc => mc.filledBy f.dsel fl).busyTo (ac + 2)).incQ [(f.qsrc, f.sinc)]).next).count
        (clusterOf t) 3 n) := by
  intro n ac us hSrc hOk hFree fl
  obtain ⟨_, hPage⟩ := (State.issues_iff rfl).mp hIssues
  rw [← hs] at hPage
  have hn : (if f.cw.toNat = 4 then 260 else 32 * cwBits f.cw.toNat) = n :=
    if_congr ⟨fun h => BitVec.eq_of_toNat_eq h, fun h => congrArg BitVec.toNat h⟩ rfl rfl
  have hMac (m : Nat) : (s.opened t id us { macs := onesOf f.dmacros }).mac m = ((s.tile t).begun id).mac m :=
    s.opened_proj t id us _ (Tile.mac · m) fun _ _ _ => rfl
  have hBad : ((onesOf f.dmacros).filter fun m => decide (ac + 2 <
      ((s.opened t id us { macs := onesOf f.dmacros }).mac m).halfUntil f.dsel)) = [] :=
    List.filter_eq_nil_iff.mpr fun m hm => by
      rw [hMac, decide_eq_true_iff]
      exact Nat.not_lt.mpr (hFree m hm)
  have hGo : ((onesOf f.dmacros).filter fun m => !([] : List Nat).contains m) = onesOf f.dmacros :=
    List.filter_eq_self.mpr fun _ _ => rfl
  have hExec : exec (.moveToStaging t id f) s₀ = execMoveToStaging t id f s₀ := rfl
  rw [hExec, execMoveToStaging, State.issue_issues _ rfl hIssues, ← hs]
  dsimp only
  rw [hn, hSrc, Option.map_some, State.access_calm id _ _ _ hPage (State.calm_tile hCalm) hOk]
  dsimp only
  rw [State.issued_tile, hBad, hGo, if_pos rfl, State.issued_modTile, State.count_modTile, State.count_retire, Option.getD_some,
    State.opened_spRead]
  refine congrArg (fun x : State => Host.Outcome.next (x.count (clusterOf t) 3 n)) (State.issued_finish s t _ ?_ ?_)
  · rw [Tile.modMacs_shape]
    rfl
  · rw [Tile.modMacs_shape]
    rfl

/-- The counters of the tile's cluster count more. -/
theorem onlyTile_count {t : TileId} {s s' : State} (h : OnlyTile t s s') (w n : Nat) :
    OnlyTile t s (s'.count (clusterOf t) w n) := by
  obtain ⟨hState, hTiles, hClusters⟩ := h
  refine ⟨?_, fun x hx => (State.count_tile ..).trans (hTiles x hx), fun c => ⟨?_, fun hc => ?_⟩⟩
  · refine Eq.trans ?_ hState
    unfold State.count
    split <;> rfl
  · rw [State.count_cluster_shape]
    exact (hClusters c).1
  · rw [State.count_cluster_other _ _ _ hc]
    exact (hClusters c).2 hc

/-- The words of a page, read from scratchpad, are put from index `base` on. -/
def Tile.putUops (tl : Tile) (base src k : Nat) : Tile :=
  (List.range k).foldl (fun (tl : Tile) i => tl.putUop (base + i) (BitVec.ofNat 128 (leNat (tl.spRead (src + 16 * i) 16)))) tl

theorem Tile.putUops_succ (tl : Tile) (base src k : Nat) : tl.putUops base src (k + 1) =
    (tl.putUops base src k).putUop (base + k) (BitVec.ofNat 128 (leNat ((tl.putUops base src k).spRead (src + 16 * k) 16))) := by
  unfold Tile.putUops
  rw [List.range_succ, List.foldl_append]
  rfl

theorem Tile.putUops_shape (tl : Tile) (base src k : Nat) : tl.putUops base src k =
    { tl with ibuf := (tl.putUops base src k).ibuf, ibufPar := (tl.putUops base src k).ibufPar } := by
  induction k with
  | zero => rfl
  | succ k ih =>
    rw [Tile.putUops_succ, ih]
    rfl

theorem Tile.putUops_seq (tl : Tile) (base src k : Nat) : (tl.putUops base src k).seq = tl.seq := by
  rw [Tile.putUops_shape]

theorem Tile.putUops_sp (tl : Tile) (base src k : Nat) : (tl.putUops base src k).sp = tl.sp := by
  rw [Tile.putUops_shape]

theorem Tile.putUops_spPar (tl : Tile) (base src k : Nat) : (tl.putUops base src k).spPar = tl.spPar := by
  rw [Tile.putUops_shape]

theorem Tile.putUops_ibuf (tl : Tile) (base src k i : Nat) : Store.get 0 (tl.putUops base src k).ibuf i =
    if base ≤ i ∧ i < base + k then BitVec.ofNat 128 (leNat (tl.spRead (src + 16 * (i - base)) 16))
    else Store.get 0 tl.ibuf i := by
  induction k with
  | zero => exact (if_neg (by omega)).symm
  | succ k ih =>
    have hSp : (tl.putUops base src k).spRead (src + 16 * k) 16 = tl.spRead (src + 16 * k) 16 := by
      rw [Tile.putUops_shape]
      rfl
    rw [Tile.putUops_succ, Tile.putUop, Store.get_set, ih, hSp]
    by_cases hi : i = base + k
    · subst hi
      rw [if_pos rfl, if_pos (by omega), Nat.add_sub_cancel_left]
    · rw [if_neg hi]
      exact if_congr (by omega) rfl rfl

theorem exec_moveToInstructionPage {s₀ s : State} {t : TileId} {id : Ids} {f : MoveF} {a : Nat} (hs : s = s₀.due t)
    (hIssues : s₀.issues t (.moveToInstructionPage t id f) = true) (hCalm : s.calm t = true) :
    let n := f.lm1.toNat + 1
    let ac := (s.tile t).seq.ac
    let us : List PathUse := [{ form := 0, write := false, start := ac, addr := a, step := 512, len := n }]
    s.spOp? t f.qsrc.toNat n false = some a → (s.tile t).accessOk us = true →
    ((s.tile t).hasImage = true → (s.tile t).seq.pc.getLsbD 11 ≠ f.dsel.getLsbD 0) →
    let page : Tile := (s.opened t id us {}).putUops (2048 * f.dsel.toNat) a (n / 16)
    exec (.moveToInstructionPage t id f) s₀ = .next ((s.issued t ((({ page with
      pageHold := some (f.dsel, ac + ceilDiv n 512 + 4, id) } : Tile).busyTo (ac + ceilDiv n 512)).incQ
        [(f.qsrc, f.sinc)]).next).count (clusterOf t) 3 n) := by
  intro n ac us hSrc hOk hOwn page
  have hSp : page.sp = (s.opened t id us {}).sp := Tile.putUops_sp ..
  have hPar : page.spPar = (s.opened t id us {}).spPar := Tile.putUops_spPar ..
  obtain ⟨_, hPage⟩ := (State.issues_iff rfl).mp hIssues
  rw [← hs] at hPage
  have hNotOwn : ((s.tile t).hasImage && (s.tile t).seq.pc.getLsbD 11 == f.dsel.getLsbD 0) = false := by
    cases hImage : (s.tile t).hasImage with
    | false => rfl
    | true => simpa using hOwn hImage
  have hExec : exec (.moveToInstructionPage t id f) s₀ = execMoveToInstructionPage t id f s₀ := rfl
  rw [hExec, execMoveToInstructionPage, State.issue_issues _ rfl hIssues, ← hs]
  dsimp only
  rw [hSrc, Option.map_some, State.access_calm id _ _ _ hPage (State.calm_tile hCalm) hOk, hNotOwn]
  dsimp only
  rw [if_neg Bool.false_ne_true, State.issued_modTile, State.count_modTile, State.count_retire, Option.getD_some]
  refine congrArg (fun x : State => Host.Outcome.next (x.count (clusterOf t) 3 n)) (State.issued_finish s t _ ?_ ?_)
  · exact hSp
  · exact hPar

/-- Settles O28: what a staging half holds and when it stands; a MOVE to staging on its named macros; a MOVE to a page word
by word. -/
theorem moveFillsStagingAndPages : Obligations.MoveFillsStagingAndPages := by
  refine ⟨fun s₀ s t id f a hs hIssues hCalm => exec_moveToStaging hs hIssues hCalm, fun cw l i => fillHalf_acts cw l,
    fun cw l g b => fillHalf_zero cw l, fun mc fl ac => Macro.settle_half0 ac, ?_⟩
  intro s₀ s t id f a hs hIssues hCalm n ac us hSrc hOk hOwn
  refine ⟨_, exec_moveToInstructionPage hs hIssues hCalm hSrc hOk hOwn, onlyTile_count (State.onlyTile_issued ..) 3 n, ?_⟩
  have hPc : ((s.opened t id us {}).putUops (2048 * f.dsel.toNat) a (n / 16)).seq.pc = (s.tile t).seq.pc := by
    rw [Tile.putUops_seq, State.opened_seq, Tile.begun_seq_pc]
  have hAc : ((s.opened t id us {}).putUops (2048 * f.dsel.toNat) a (n / 16)).seq.ac = (s.tile t).seq.ac := by
    rw [Tile.putUops_seq, State.opened_seq, Tile.begun_seq_ac]
  have hSp : ((s.opened t id us {}).putUops (2048 * f.dsel.toNat) a (n / 16)).sp = (s.tile t).sp := by
    rw [Tile.putUops_sp, State.opened_sp]
  have hIbuf : (s.opened t id us {}).ibuf = (s.tile t).ibuf :=
    (s.opened_proj t id us {} Tile.ibuf fun _ _ _ => rfl).trans (Tile.begun_ibuf ..)
  rw [State.count_tile, State.issued_tile]
  refine ⟨rfl, congrArg (· + 1) hPc, congrArg (· + 1) hAc, hSp, fun i => ?_⟩
  refine (Tile.putUops_ibuf ..).trans ?_
  rw [State.opened_spRead, hIbuf]

end Sys2Proof.Machine
end

section
/-! ### RPUT (R130, R134, R152, R247, R297) -/

namespace Sys2Proof.Machine

/-! #### Segments -/

theorem flatten_chunks {α : Type} (c k : Nat) (l : List α) :
    ((List.range k).map fun i => (l.drop (c * i)).take c).flatten = l.take (c * k) := by
  induction k with
  | zero => simp
  | succ k ih =>
    rw [List.range_succ, List.map_append, List.flatten_append, ih, Nat.mul_succ, List.take_add]
    simp

theorem le_mul_ceilDiv (n : Nat) {c : Nat} (hc : 0 < c) : n ≤ c * ceilDiv n c := by
  have h := Nat.div_add_mod (n + c - 1) c
  have hLt := Nat.mod_lt (n + c - 1) hc
  unfold ceilDiv
  omega

theorem mul_lt_of_lt_ceilDiv {n c i : Nat} (h : i < ceilDiv n c) (hn : 0 < n) : c * i < n := by
  have h' : c * (i + 1) ≤ n + c - 1 := (Nat.mul_le_mul_left c h).trans (Nat.mul_div_le ..)
  rw [Nat.mul_succ] at h'
  omega

/-- The bytes that a message of a put carries. -/
def Msg.putData : Msg → List Byte
  | .put _ _ d => d
  | _ => []

theorem putSegments_spec (h : PutHdr) (u : Bool) {l : List Byte} (hl : l ≠ []) :
    ((putSegments h u l).map Msg.putData).flatten = l ∧
    ∀ m ∈ putSegments h u l, ∃ (x : PutHdr) (d : List Byte), m = .put x u d ∧ d.length ≤ 4064 ∧ 0 < d.length ∧
      x.window = h.window ∧ x.epoch = h.epoch ∧ x.tag = h.tag := by
  have hLength : 0 < l.length := List.length_pos_iff.mpr hl
  unfold putSegments
  dsimp only
  refine ⟨?_, fun m hm => ?_⟩
  · rw [List.map_map]
    refine (flatten_chunks segMax (ceilDiv l.length segMax) l).trans (List.take_of_length_le ?_)
    exact le_mul_ceilDiv _ (by decide)
  · obtain ⟨i, hi, rfl⟩ := List.mem_map.mp hm
    have hStart := mul_lt_of_lt_ceilDiv (List.mem_range.mp hi) hLength
    refine ⟨_, _, rfl, ?_, ?_, rfl, rfl, rfl⟩
    · exact List.length_take_le ..
    · rw [List.length_take, List.length_drop]
      exact lt_min (by decide) (by omega)

/-! #### The put -/

/-- What an RPUT whose credit covers it leaves: the put is sent, and the operation is outstanding. -/
def State.rputSent (s : State) (t : TileId) (id : Ids) (f : RputF) (a : Nat) : State :=
  let n := f.lm1.toNat + 1
  let ac := (s.tile t).seq.ac
  let us : List PathUse := [{ form := 0, write := false, start := ac, addr := a, step := 512, len := n }]
  let c := Store.get 0 (s.tile t).cur f.cred.toNat
  let tl := s.opened t id us {}
  let h : PutHdr :=
    { window := BitVec.ofNat 24 (hf c 119 96), epoch := BitVec.ofNat 32 (hf c 95 64), wofs := f.dofs, wlm1 := f.lm1
      grant := BitVec.ofNat 16 (hf c 15 0), host := false, writer := s.srcTile t 16, tag := s.tagCtr, sofs := 0
      slm1 := 0, first := true, last := true, rsvd := 0 }
  let s1 := (putSegments h (f.urg = 1) ((s.tile t).spRead a n)).foldl
    (fun s m => s.send (.device (BitVec.ofNat 8 (hf c 119 112))) m) (s.issued t tl)
  let s2 := ({ s1 with tagCtr := s1.tagCtr + 1 } : State).modTile t fun tl =>
    let tl := tl.modCounter f.cnt.toNat fun c => { c with issued := c.issued + 1 }
    (({ tl with opSeq := tl.opSeq + 1, ops := tl.ops ++ [{
        key := tl.opSeq, cnt := f.cnt.toNat, due := ac + ceilDiv n 512, ids := id
        frame := match s.tileOwner? t with | some p => (s.part p).frame | none => 0
        xfer := .rput h.window h.epoch h.tag s.now }] } : Tile).incQ [(f.qsrc, f.sinc)]).next
  (s2.count (clusterOf t) 3 n).count (clusterOf t) 9 n

theorem State.modTile_congr {s : State} {t : TileId} {f g : Tile → Tile} (h : f (s.tile t) = g (s.tile t)) :
    s.modTile t f = s.modTile t g := congrArg (s.setTile t) h

/-- What looks at neither tiles nor clusters is that of the state before the issue. -/
theorem State.issued_proj {α : Type} (s : State) (t : TileId) (tl : Tile) (f : State → α)
    (hf : ∀ (x : State) ts cs, f { x with tiles := ts, clusters := cs } = f x := by intros; rfl) : f (s.issued t tl) = f s := by
  unfold State.issued State.count
  split
  · exact hf s _ s.clusters
  · exact hf s _ _

/-- The frame of the partition that owns a tile. -/
def State.frameAt (s : State) (t : TileId) : BitVec 32 := match s.tileOwner? t with | some p => (s.part p).frame | none => 0

/-- The header of the put of an RPUT with credit `c`. -/
def State.putHdr (s : State) (t : TileId) (f : RputF) (c : BitVec 128) : PutHdr :=
  { window := BitVec.ofNat 24 (hf c 119 96), epoch := BitVec.ofNat 32 (hf c 95 64), wofs := f.dofs, wlm1 := f.lm1
    grant := BitVec.ofNat 16 (hf c 15 0), host := false, writer := s.srcTile t 16, tag := s.tagCtr, sofs := 0
    slm1 := 0, first := true, last := true, rsvd := 0 }

/-- The segments of a put leave, and the count of tags goes on. -/
def State.putOut (s : State) (c : BitVec 128) (h : PutHdr) (urgent : Bool) (data : List Byte) : State :=
  let s := (putSegments h urgent data).foldl (fun s m => s.send (.device (BitVec.ofNat 8 (hf c 119 112))) m) s
  { s with tagCtr := s.tagCtr + 1 }

theorem State.putOut_keeps (s : State) (c : BitVec 128) (h : PutHdr) (urgent : Bool) (data : List Byte) (t : TileId) :
    (s.putOut c h urgent data).tile t = s.tile t ∧ (s.putOut c h urgent data).now = s.now := by
  have hTraffic : s.TrafficOnly ((putSegments h urgent data).foldl
      (fun s m => s.send (.device (BitVec.ofNat 8 (hf c 119 112))) m) s) :=
    (State.TrafficOnly.refl s).foldl (fun x m => x.trafficOnly_send ..) _
  exact ⟨hTraffic.proj fun s => s.tile t, hTraffic.proj State.now⟩

/-- The operation of a put is outstanding, and its bytes are counted. -/
def State.putStart (s : State) (t : TileId) (n : Nat) (o : AsyncOp) : State :=
  ((s.modTile t fun tl => tl.startOp o).count (clusterOf t) 3 n).count (clusterOf t) 9 n

theorem State.putStart_finish (s : State) (t : TileId) (n : Nat) (o : AsyncOp) (incs : List (BitVec 3 × BitVec 1)) :
    ((s.putStart t n o).modTile t fun tl => { tl.incQ incs with sp := (s.tile t).sp, spPar := (s.tile t).spPar }).retire t =
      ((s.modTile t fun tl => ((tl.startOp o).incQ incs).next).count (clusterOf t) 3 n).count (clusterOf t) 9 n := by
  unfold State.putStart
  rw [State.count_modTile, State.count_modTile, State.count_retire, State.count_retire, State.retire, State.modTile_modTile,
    State.modTile_modTile]
  rfl

theorem State.rputGo_calm {s : State} {t : TileId} {id : Ids} {f : RputF} {a : Nat} (hPage : (s.tile t).pageHold = none)
    (hCalm : (s.tile t).Calm) (hSrc : s.spOpOpen? t f.qsrc.toNat (f.lm1.toNat + 1) false = some a)
    (hOk : (s.tile t).accessOk [{ form := 0, write := false, start := (s.tile t).seq.ac, addr := a, step := 512
                                  len := f.lm1.toNat + 1 }] = true) :
    s.rputGo t id f = s.rputSent t id f a := by
  have hCur : (s.opened t id [{ form := 0, write := false, start := (s.tile t).seq.ac, addr := a, step := 512
                                len := f.lm1.toNat + 1 }] {}).cur = (s.tile t).cur :=
    (s.opened_proj t id _ {} Tile.cur fun _ _ _ => rfl).trans (Tile.begun_cur ..)
  unfold State.rputGo
  dsimp only
  rw [hSrc, Option.map_some, State.access_calm id _ _ _ hPage hCalm hOk]
  generalize hO : s.opened t id [{ form := 0, write := false, start := (s.tile t).seq.ac, addr := a, step := 512
                                   len := f.lm1.toNat + 1 }] {} = O at hCur ⊢
  let c := Store.get 0 ((s.issued t O).tile t).cur f.cred.toNat
  let h := (s.issued t O).putHdr t f c
  let s1 := (s.issued t O).putOut c h (f.urg = 1) (((s.issued t O).tile t).spRead a (f.lm1.toNat + 1))
  change ((s1.putStart t (f.lm1.toNat + 1) {
    cnt := f.cnt.toNat, due := (s.tile t).seq.ac + ceilDiv (f.lm1.toNat + 1) 512, ids := id
    frame := (s.issued t O).frameAt t, xfer := .rput h.window h.epoch h.tag s1.now }).modTile t fun tl => { tl.incQ [(f.qsrc, f.sinc)] with sp := O.sp, spPar := O.spPar }).retire t = _
  have hRead : O.spRead a (f.lm1.toNat + 1) = (s.tile t).spRead a (f.lm1.toNat + 1) := by
    rw [← hO, State.opened_spRead]
  have hc : c = Store.get 0 (s.tile t).cur f.cred.toNat := by
    rw [show c = Store.get 0 ((s.issued t O).tile t).cur f.cred.toNat from rfl, State.issued_tile, hCur]
  have hh : h = s.putHdr t f c := s.issued_proj t O fun x => x.putHdr t f c
  have hFrame : (s.issued t O).frameAt t = s.frameAt t := s.issued_proj t O fun x => x.frameAt t
  have hs1 : s1 = (s.issued t O).putOut c h (f.urg = 1) ((s.tile t).spRead a (f.lm1.toNat + 1)) := by
    rw [← hRead, show s1 = (s.issued t O).putOut c h (f.urg = 1) (((s.issued t O).tile t).spRead a (f.lm1.toNat + 1)) from rfl,
      State.issued_tile]
  obtain ⟨hTile, hNow⟩ := (s.issued t O).putOut_keeps c h (f.urg = 1) ((s.tile t).spRead a (f.lm1.toNat + 1)) t
  rw [← hs1] at hTile hNow
  have hNow' : s1.now = s.now := hNow.trans (s.issued_proj t O State.now)
  have hO1 : O = s1.tile t := ((State.issued_tile s t O).symm.trans hTile.symm)
  clear_value s1 h c
  subst hc
  subst hh
  rw [hFrame, hNow', hO1, State.putStart_finish]
  unfold State.rputSent
  dsimp only
  rw [hO, hs1]
  rfl

/-- An operand's buffer is found from the address registers and the handles of the tile. -/
theorem State.spOpOpen?_congr {s s' : State} {t : TileId} (hQ : (s'.tile t).q = (s.tile t).q)
    (hHandle : ∀ n, s'.handle t n = s.handle t n) (q n : Nat) (write : Bool) :
    s'.spOpOpen? t q n write = s.spOpOpen? t q n write := by
  have hReg : (s'.tile t).qreg q = (s.tile t).qreg q := congrArg (Store.get 0 · q) hQ
  unfold State.spOpOpen? State.spBuf? State.bufBase State.bufSealed State.bufEntry
  simp only [hReg, hHandle]

/-- The sequencer of a waiting RPUT as its credit comes. -/
def State.creditCome (s : State) (t : TileId) (waited : Nat) : State :=
  (s.modTile t fun tl => tl.modSeq fun q =>
    { q with st := (if tl.hasImage then .issuing else .idle), why := .none, waitArg := 0, waitUop := none
             ac := max q.ac (q.waitFrom + waited) }).count (clusterOf t) 12 waited

theorem State.creditCome_tile (s : State) (t : TileId) (waited : Nat) : ∃ q, (s.creditCome t waited).tile t = { s.tile t with seq := q } := by
  unfold State.creditCome
  rw [State.count_tile, State.modTile_tile_same]
  exact ⟨_, rfl⟩

theorem Tile.Calm.of_seq {x : Tile} (h : x.Calm) (q : Seq) : ({ x with seq := q } : Tile).Calm :=
  ⟨h.step, h.held, h.late, h.awake, h.whole⟩

theorem rputOf_uopWord (id : Ids) (f : RputF) : rputOf (uopWord id 0x31 (rputBits f)) = f := by
  unfold rputOf uopWord rputBits
  simp -index only [BitVec.extractLsb'_append_eq_of_add_le, BitVec.extractLsb'_append_eq_of_le,
    BitVec.extractLsb'_eq_self, Nat.reduceLeDiff, Nat.reduceSub, Nat.reduceAdd]

theorem exec_rputCreditPresent {s : State} {t : TileId} {id : Ids} {f : RputF} (waited : Nat) (hUp : s.tileUp t = true)
    (hFrozen : (s.tile t).frozenNow = false) (hSt : (s.tile t).seq.st = .waiting) (hWhy : (s.tile t).seq.why = .credit)
    (hUop : (s.tile t).seq.waitUop = some (uopWord id 0x31 (rputBits f)))
    (hCovers : creditCovers (Store.get 0 (s.tile t).cur f.cred.toNat) f.dofs.toNat (f.lm1.toNat + 1) = true) :
    exec (.rputCreditPresent t waited) s = .next ((s.creditCome t waited).rputGo t id f) := by
  have hExec : exec (.rputCreditPresent t waited) s = execRputCreditPresent t waited s := rfl
  rw [hExec, execRputCreditPresent]
  dsimp only
  rw [hUop]
  dsimp only
  rw [rputOf_uopWord, uopWord_layer, uopWord_opid, if_pos ⟨hUp, hFrozen, hSt, hWhy, hCovers⟩]
  rfl

/-- Settles O29: the put of a covered RPUT, at its issue or as its credit comes; the wait of an uncovered one; its segments. -/
theorem rputSendsOrWaits : Obligations.RputSendsOrWaits := by
  intro s₀ s t id f hs
  have hEff (hIssues : s₀.issues t (.rput t id f) = true) : exec (.rput t id f) s₀ = .next (
      if creditCovers (Store.get 0 (s.tile t).cur f.cred.toNat) f.dofs.toNat (f.lm1.toNat + 1) then s.rputGo t id f
      else (s.wait_ t .credit (f.cred.setWidth 11)).modTile t fun tl =>
        tl.modSeq fun q => { q with waitUop := some (uopWord id 0x31 (rputBits f)) }) := by
    rw [hs]
    exact congrArg Host.Outcome.next (State.issue_issues _ rfl hIssues)
  refine ⟨fun a hIssues hCovered hCalm hSrc hOk => ?_, fun hIssues hCovered => ?_,
    fun waited a hUp hFrozen hPage hCalm hSt hWhy hUop hCovered hSrc hOk => ?_, fun h u l hl => putSegments_spec h u hl⟩
  · obtain ⟨_, hPage⟩ := (State.issues_iff rfl).mp hIssues
    rw [hEff hIssues, if_pos hCovered, State.rputGo_calm (hs ▸ hPage) (State.calm_tile hCalm) hSrc hOk]
    rfl
  · rw [hEff hIssues, if_neg (Bool.not_eq_true _ ▸ hCovered), State.wait_, State.modTile_modTile]
    rfl
  · obtain ⟨q, hTile⟩ := s.creditCome_tile t waited
    have hSrc' : (s.creditCome t waited).spOpOpen? t f.qsrc.toNat (f.lm1.toNat + 1) false = some a :=
      (State.spOpOpen?_congr (by rw [hTile]) (fun n => by rw [State.handle, State.handle, hTile]) ..).trans hSrc
    rw [exec_rputCreditPresent waited hUp hFrozen hSt hWhy hUop hCovered, State.rputGo_calm (by rw [hTile]; exact hPage)
      (by rw [hTile]; exact (State.calm_tile hCalm).of_seq q) hSrc' hOk]
    rfl

end Sys2Proof.Machine
end

section
/-! ### DMAH (R130, R153, R231, R234, R236, R270) -/

namespace Sys2Proof.Machine

/-! #### The issue -/

theorem Tile.accessOk_nil (tl : Tile) : tl.accessOk [] = true := by
  unfold Tile.accessOk Tile.twinHits pathConflict
  simp

theorem Tile.dmahStart_sp (tl : Tile) (f : DmahF) (id : Ids) (due : Nat) (x : Transfer) :
    (tl.dmahStart f id due x).sp = tl.sp := rfl

theorem Tile.dmahStart_spPar (tl : Tile) (f : DmahF) (id : Ids) (due : Nat) (x : Transfer) :
    (tl.dmahStart f id due x).spPar = tl.spPar := rfl

theorem exec_dmahToScratchpad {s₀ s : State} {t : TileId} {id : Ids} {f : DmahF} {h a : Nat} (hs : s = s₀.due t)
    (hCalm : s.calm t = true) (hAligned : dmahAligned (s.tile t) f = true)
    (hIssues : s₀.issues t (.dmahToScratchpad t id f) = true)
    (hSrc : s.hbmOp? t f.qhbm.toNat (32 * (f.l32m1.toNat + 1)) false = some h)
    (hDst : s.spOp? t f.qsp.toNat (32 * (f.l32m1.toNat + 1)) true = some a) :
    exec (.dmahToScratchpad t id f) s₀ = .next (s.issued t (((s.opened t id [] {}).dmahStart f id (s.tile t).seq.ac
      (.dmah false h a (32 * (f.l32m1.toNat + 1)) [])).incQ [(f.qhbm, f.hinc), (f.qsp, f.sinc)]).next) := by
  obtain ⟨_, hPage⟩ := (State.issues_iff rfl).mp hIssues
  rw [← hs] at hPage
  have hAc : (s.opened t id [] {}).seq.ac = (s.tile t).seq.ac := by
    rw [State.opened_seq, Tile.begun_seq_ac]
  have hExec : exec (.dmahToScratchpad t id f) s₀ = execDmahToScratchpad t id f s₀ := rfl
  rw [hExec, execDmahToScratchpad, State.issue_issues _ rfl hIssues, ← hs]
  dsimp only
  rw [hSrc, hDst]
  dsimp only
  rw [if_pos hAligned, State.access_calm id _ _ _ hPage (State.calm_tile hCalm) (Tile.accessOk_nil _), State.issued_modTile, hAc]
  exact congrArg Host.Outcome.next (State.issued_finish s t _ (Tile.dmahStart_sp ..) (Tile.dmahStart_spPar ..))

theorem exec_dmahToHbm {s₀ s : State} {t : TileId} {id : Ids} {f : DmahF} {h a : Nat} (hs : s = s₀.due t)
    (hCalm : s.calm t = true) (hAligned : dmahAligned (s.tile t) f = true) (hIssues : s₀.issues t (.dmahToHbm t id f) = true) :
    let n := 32 * (f.l32m1.toNat + 1)
    let ac := (s.tile t).seq.ac
    let us : List PathUse := [{ form := 0, write := false, start := ac, addr := a, step := 512, len := n }]
    s.hbmOp? t f.qhbm.toNat n true = some h → s.spOpOpen? t f.qsp.toNat n false = some a → (s.tile t).accessOk us = true →
    exec (.dmahToHbm t id f) s₀ = .next ((s.issued t (((s.opened t id us {}).dmahStart f id (ac + ceilDiv n 512)
      (.dmah true h a n ((s.tile t).spRead a n))).incQ [(f.qhbm, f.hinc), (f.qsp, f.sinc)]).next).count (clusterOf t) 3 n) := by
  intro n ac us hDst hSrc hOk
  obtain ⟨_, hPage⟩ := (State.issues_iff rfl).mp hIssues
  rw [← hs] at hPage
  have hExec : exec (.dmahToHbm t id f) s₀ = execDmahToHbm t id f s₀ := rfl
  rw [hExec, execDmahToHbm, State.issue_issues _ rfl hIssues, ← hs]
  dsimp only
  rw [hSrc, hDst]
  dsimp only
  rw [if_pos hAligned, State.access_calm id _ _ _ hPage (State.calm_tile hCalm) hOk, State.issued_modTile, State.count_modTile,
    State.count_retire, Option.getD_some, Option.getD_some, State.opened_spRead]
  exact congrArg (fun x : State => Host.Outcome.next (x.count (clusterOf t) 3 n)) (State.issued_finish s t _ (Tile.dmahStart_sp ..) (Tile.dmahStart_spPar ..))

/-! #### A cluster DMA write that nothing holds -/

/-- Nothing at a tile holds a cluster DMA write of a DMAH in banks 0 to 2. -/
structure Tile.DmaFree (tl : Tile) : Prop where
  quiet : tl.seq.st ≠ .issuing
  step : tl.step = none
  paths : tl.paths = []
  late : tl.late = []
  held : tl.held = []
  awake : ∀ b < 3, (tl.spBank b).power = .on
  moving : ∀ o ∈ tl.ops, o.landing = false

/-- `s'` is `s` with bytes written into a tile's scratchpad by the cluster DMA. -/
structure State.DmaWrote (s s' : State) (t : TileId) (a : Nat) (data : List Byte) : Prop where
  state : s' = { s with tiles := s'.tiles, clusters := s'.clusters }
  other : ∀ x, x ≠ t → s'.tile x = s.tile x
  tile : s'.tile t = { s.tile t with
    sp := Mem.writeBytes (s.tile t).sp a data, spPar := (s'.tile t).spPar, spBanks := (s'.tile t).spBanks }
  power : ∀ b, ((s'.tile t).spBank b).power = ((s.tile t).spBank b).power

theorem Tile.power_touch (tl : Tile) (b now c : Nat) : ((tl.touch [b] now).spBank c).power = (tl.spBank c).power := by
  change (Store.get {} (Store.set tl.spBanks b { tl.spBank b with touched := now }) c).power = _
  rw [Store.get_set]
  split
  · subst_vars
    rfl
  · rfl

theorem Tile.dmaHold_free {tl : Tile} (h : tl.DmaFree) (cycle : Nat) {addr : Nat} (n : Nat) (read : Bool) (hAddr : bankOf addr < 3) :
    tl.dmaHold cycle addr n read = none := by
  have hSubs : subsMeet tl.paths cycle addr n = false := by
    rw [h.paths]
    unfold subsMeet useSubs
    simp
  have hStep : tl.inStep addr n = false := by
    unfold Tile.inStep
    rw [h.step]
  unfold Tile.dmaHold
  rw [h.awake _ hAddr, hStep, if_pos hAddr, hSubs]
  rfl

theorem Tile.landFor_free {tl : Tile} (h : tl.late = []) (cycle : Nat) : tl.landFor cycle = tl := by
  unfold Tile.landFor
  split
  · exact if_pos h
  · exact if_pos h

theorem State.settleDma_free {s : State} {t : TileId} (h : (s.tile t).held = []) : s.settleDma t = s := by
  unfold State.settleDma
  dsimp only
  rw [h]
  exact State.serveAll_of_none h _

/-- A tile's operation that still moves bytes does not end. -/
theorem State.dmahLanded_moving {s : State} {t : TileId} (h : ∀ o ∈ (s.tile t).ops, o.landing = false) (key : Nat) :
    s.dmahLanded t key = s.modTile t id := by
  have hNone : (s.tile t).ops.find? (fun o => decide (o.key = key) && o.landing) = none :=
    List.find?_eq_none.mpr fun o ho => by simp [h o ho]
  unfold State.dmahLanded
  refine State.modTile_congr ?_
  rw [hNone]
  split <;> rfl

theorem State.dmaWrote_modTile (s : State) (t : TileId) (w n : Nat) {f : Tile → Tile} {a : Nat} {data : List Byte}
    (hf : f (s.tile t) = { s.tile t with
      sp := Mem.writeBytes (s.tile t).sp a data, spPar := (f (s.tile t)).spPar, spBanks := (f (s.tile t)).spBanks })
    (hPower : ∀ b, ((f (s.tile t)).spBank b).power = ((s.tile t).spBank b).power) :
    s.DmaWrote ((s.count (clusterOf t) w n).modTile t f) t a data := by
  refine ⟨?_, fun x hx => ?_, ?_, fun b => ?_⟩
  · unfold State.count
    split <;> rfl
  · rw [State.modTile_tile_other _ _ hx, State.count_tile]
  · rw [State.modTile_tile_same, State.count_tile]
    exact hf
  · rw [State.modTile_tile_same, State.count_tile]
    exact hPower b

theorem State.dmaPut_free {s : State} {t : TileId} (hFree : (s.tile t).DmaFree) (place cycle : Nat) {a : HeldAccess} {key : Nat}
    (hAddr : bankOf a.addr < 3) (hLand : a.land = none) (hOp : a.op = some key) :
    s.DmaWrote (s.dmaPut t place cycle a) t a.addr a.data := by
  have hNot3 : bankOf a.addr ≠ 3 := by omega
  have hEff : s.dmaPut t place cycle a = (s.count (clusterOf t) 5 a.len).modTile t
      fun tl => (tl.touch [bankOf a.addr] (s.tileAc t)).spWrite a.addr a.data := by
    unfold State.dmaPut
    dsimp only
    rw [if_neg hNot3, if_pos rfl, hOp]
    dsimp only
    rw [State.dmaKeep, hLand]
    dsimp only
    rw [State.dmahLanded_moving, State.modTile_modTile, State.modTile_modTile]
    · rfl
    · rw [State.modTile_tile_same, State.modTile_tile_same, State.count_tile]
      exact hFree.moving
  rw [hEff]
  exact s.dmaWrote_modTile t 5 a.len rfl fun b => (s.tile t).power_touch _ _ b

theorem State.DmaWrote.of_modTile_id {s s' : State} {t : TileId} {a : Nat} {data : List Byte}
    (h : (s.modTile t id).DmaWrote s' t a data) : s.DmaWrote s' t a data := by
  obtain ⟨hState, hOther, hTile, hPower⟩ := h
  rw [State.modTile_tile_same] at hTile hPower
  refine ⟨hState, fun x hx => ?_, hTile, hPower⟩
  rw [hOther x hx, State.modTile_tile_other _ _ hx]

theorem State.dmaWrite_free {s : State} {t : TileId} (hFree : (s.tile t).DmaFree) {addr : Nat} (data : List Byte) (key : Nat)
    (hAddr : bankOf addr < 3) : s.DmaWrote (s.dmaWrite t addr data none (some key)) t addr data := by
  unfold State.dmaWrite State.dmaNew
  dsimp only
  rw [State.settleDma_free hFree.held, hFree.held]
  unfold State.dmaTry
  dsimp only
  rw [hFree.held, if_neg (by simp), if_neg hFree.quiet]
  unfold State.dmaAt
  dsimp only
  have hLand : s.modTile t (·.landFor (s.dmaCycle t)) = s.modTile t id :=
    State.modTile_congr (Tile.landFor_free hFree.late _)
  rw [hLand]
  have hTile : (s.modTile t id).tile t = s.tile t := State.modTile_tile_same ..
  rw [hTile, Tile.dmaHold_free hFree _ _ _ hAddr]
  exact (State.dmaPut_free (hTile.symm ▸ hFree) _ _ hAddr rfl rfl).of_modTile_id

/-! #### The end -/

theorem Tile.countDone_last (tl : Tile) (o : AsyncOp) :
    ({ ({ tl with ops := [{ o with landing := true }] } : Tile).countDone { o with landing := true } with
        ops := [({ o with landing := true } : AsyncOp)].erase { o with landing := true } } : Tile) =
      { tl.countDone o with ops := [] } := by
  rw [List.erase_cons_head]
  unfold Tile.countDone
  dsimp only
  split <;> rfl

theorem State.dmahLanded_only {s : State} {t : TileId} {o : AsyncOp} (hOps : (s.tile t).ops = [o]) (hHeld : (s.tile t).held = []) :
    (s.modTile t fun tl => { tl with ops := tl.ops.map fun y => if y.key = o.key then { y with landing := true } else y
      }).dmahLanded t o.key = s.modTile t fun tl => { tl.countDone o with ops := [] } := by
  have hMap : (s.tile t).ops.map (fun y => if y.key = o.key then { y with landing := true } else y) = [{ o with landing := true }] := by
    rw [hOps, List.map_cons, if_pos rfl, List.map_nil]
  have hFind : [({ o with landing := true } : AsyncOp)].find? (fun y => decide (y.key = o.key) && y.landing) =
      some { o with landing := true } :=
    List.find?_cons_of_pos (by rw [decide_eq_true rfl]; rfl)
  have hNone : ((s.tile t).held.any fun a => decide (a.op = some o.key)) = false := by
    rw [hHeld]
    rfl
  unfold State.dmahLanded
  rw [State.modTile_modTile]
  refine State.modTile_congr ?_
  dsimp only [Function.comp]
  rw [hMap, hNone, hFind]
  exact Tile.countDone_last ..

/-- An end of a DMAH finds its operation, the only one of the tile. -/
theorem exec_dmahDone {s : State} {t : TileId} {p : PartId} {o : AsyncOp} {x : DmahEnd} {toHbm : Bool} {h a n : Nat}
    {data : List Byte} (hOps : (s.tile t).ops = [o]) (hOwner : s.tileOwner? t = some p) (hCnt : o.cnt = x.cnt.val)
    (hLanding : o.landing = false) (hXfer : o.xfer = .dmah toHbm h a n data)
    (hGood : ∀ i ∈ unitOffsets n, s.partHard p (h + i) 32 toHbm = false)
    (hAligned : toHbm = true ∨ a % 4 = 0) :
    exec (.dmahDone t x) s = .next (
      let s := s.modTile t fun tl => tl.modSeq (·.reach o.due)
      let s := if toHbm then ((unitOffsets n).foldl (fun s i => s.partWrite p (h + i) ((data.drop i).take 32)) s).count (clusterOf t) 7 n
        else ((unitOffsets n).foldl (fun s i => s.dmaWrite t (a + i) (s.partRead p (h + i) 32) none (some o.key)) s).count (clusterOf t) 6 n
      (s.modTile t fun tl => { tl with ops := tl.ops.map fun y => if y.key = o.key then { y with landing := true } else y
        }).dmahLanded t o.key) := by
  have hAll : ((unitOffsets n).filter fun i =>
      !(s.modTile t fun tl => tl.modSeq (·.reach o.due)).partHard p (h + i) 32 toHbm) = unitOffsets n :=
    List.filter_eq_self.mpr fun i hi => congrArg (!·) (hGood i hi)
  have hMerge : toHbm = false → (x.mergeParityErr && a % 4 != 0) = false := fun hTo => by
    rw [hTo] at hAligned
    simp [hAligned.resolve_left Bool.false_ne_true]
  have hExec : exec (.dmahDone t x) s = execDmahDone t x s := rfl
  rw [hExec, execDmahDone]
  dsimp only
  rw [hOps, hOwner, List.find?_cons, hXfer, hLanding, hCnt, decide_eq_true rfl, Bool.not_false, Bool.and_self, Bool.and_self]
  dsimp only
  rw [hXfer]
  dsimp only
  rw [hAll]
  cases toHbm with
  | true => rfl
  | false =>
    rw [hMerge rfl]
    rfl

theorem State.foldl_partWrite_modTile (s : State) (t : TileId) (g : Tile → Tile) (p : PartId) (a : Nat → Nat)
    (d : Nat → List Byte) (l : List Nat) :
    l.foldl (fun s i => s.partWrite p (a i) (d i)) (s.modTile t g) = (l.foldl (fun s i => s.partWrite p (a i) (d i)) s).modTile t g := by
  induction l generalizing s with
  | nil => rfl
  | cons i l ih => exact ih (s.partWrite p (a i) (d i))

theorem State.foldl_partWrite_tile (s : State) (x : TileId) (p : PartId) (a : Nat → Nat) (d : Nat → List Byte) (l : List Nat) :
    (l.foldl (fun s i => s.partWrite p (a i) (d i)) s).tile x = s.tile x :=
  foldl_keeps (P := fun y : State => y.tile x = s.tile x) l rfl fun _ _ h => h

/-- A counter of a tile whose operation ends. -/
theorem Tile.counter_countDone (tl : Tile) {o : AsyncOp} (h : o.counted = true) :
    (tl.countDone o).counter o.cnt = { tl.counter o.cnt with done := (tl.counter o.cnt).done + 1 } := by
  unfold Tile.countDone
  rw [if_pos h]
  exact Store.get_set_same ..

theorem Tile.countDone_sp (tl : Tile) (o : AsyncOp) : (tl.countDone o).sp = tl.sp := by
  unfold Tile.countDone
  split <;> rfl

theorem dmahToHbm_ends {s : State} {t : TileId} {p : PartId} {o : AsyncOp} {x : DmahEnd} {h a n : Nat} {data : List Byte}
    (hOps : (s.tile t).ops = [o]) (hOwner : s.tileOwner? t = some p) (hCnt : o.cnt = x.cnt.val) (hCounted : o.counted = true)
    (hLanding : o.landing = false) (hHeld : (s.tile t).held = []) (hXfer : o.xfer = .dmah true h a n data)
    (hGood : ∀ i ∈ unitOffsets n, s.partHard p (h + i) 32 true = false) :
    ∃ s', exec (.dmahDone t x) s = .next s' ∧ (s'.tile t).ops = [] ∧
      ((s'.tile t).counter o.cnt).done = ((s.tile t).counter o.cnt).done + 1 ∧
      ((s'.tile t).counter o.cnt).issued = ((s.tile t).counter o.cnt).issued ∧ (s'.tile t).sp = (s.tile t).sp ∧
      (∀ x, x ≠ t → s'.tile x = s.tile x) ∧
      s'.hbm = ((unitOffsets n).foldl (fun s i => s.partWrite p (h + i) ((data.drop i).take 32)) s).hbm := by
  have hExec := exec_dmahDone hOps hOwner hCnt hLanding hXfer hGood (.inl rfl)
  dsimp only at hExec
  rw [if_pos rfl, s.foldl_partWrite_modTile t _ p (h + ·) fun i => (data.drop i).take 32] at hExec
  have hTile (y : TileId) : ((unitOffsets n).foldl (fun s i => s.partWrite p (h + i) ((data.drop i).take 32)) s).tile y = s.tile y :=
    s.foldl_partWrite_tile y p (h + ·) _ _
  generalize (unitOffsets n).foldl (fun s i => s.partWrite p (h + i) ((data.drop i).take 32)) s = w at hExec hTile ⊢
  rw [State.dmahLanded_only (by rw [State.count_tile, State.modTile_tile_same, hTile]; exact hOps)
    (by rw [State.count_tile, State.modTile_tile_same, hTile]; exact hHeld), State.count_modTile, State.modTile_modTile,
    ← State.count_modTile] at hExec
  refine ⟨_, hExec, ?_, ?_, ?_, ?_, fun y hy => ?_, ?_⟩
  · rw [State.modTile_tile_same]
  · rw [State.modTile_tile_same, State.count_tile, hTile]
    exact (congrArg Counter.done (Tile.counter_countDone ((s.tile t).modSeq (·.reach o.due)) hCounted)).trans rfl
  · rw [State.modTile_tile_same, State.count_tile, hTile]
    exact (congrArg Counter.issued (Tile.counter_countDone ((s.tile t).modSeq (·.reach o.due)) hCounted)).trans rfl
  · rw [State.modTile_tile_same, State.count_tile, hTile]
    exact Tile.countDone_sp ..
  · rw [State.modTile_tile_other _ _ hy, State.count_tile, hTile]
  · rw [State.modTile_hbm, State.count_hbm]

/-- What `k` units of a DMAH have made of the state from which its end starts. -/
structure State.DmahRun (s s' : State) (t : TileId) (p : PartId) (h a k : Nat) : Prop where
  state : s' = { s with tiles := s'.tiles, clusters := s'.clusters }
  other : ∀ x, x ≠ t → s'.tile x = s.tile x
  tile : s'.tile t = { s.tile t with sp := (s'.tile t).sp, spPar := (s'.tile t).spPar, spBanks := (s'.tile t).spBanks }
  power : ∀ b, ((s'.tile t).spBank b).power = ((s.tile t).spBank b).power
  moved : ∀ i < 32 * k, Mem.read (s'.tile t).sp (a + i) = (s.partRead p (h + i) 1).headD 0
  rest : ∀ x, x < a ∨ a + 32 * k ≤ x → Mem.read (s'.tile t).sp x = Mem.read (s.tile t).sp x

theorem Tile.DmaFree.of_run {x y : Tile} (hx : x.DmaFree)
    (hy : y = { x with sp := y.sp, spPar := y.spPar, spBanks := y.spBanks })
    (hPower : ∀ b, (y.spBank b).power = (x.spBank b).power) : y.DmaFree := by
  refine ⟨?_, ?_, ?_, ?_, ?_, fun b hb => (hPower b).trans (hx.awake b hb), ?_⟩
  · rw [hy]; exact hx.quiet
  · rw [hy]; exact hx.step
  · rw [hy]; exact hx.paths
  · rw [hy]; exact hx.late
  · rw [hy]; exact hx.held
  · rw [hy]; exact hx.moving

theorem State.length_partRead (s : State) (p : PartId) (h n : Nat) : (s.partRead p h n).length = n := by
  unfold State.partRead
  rw [List.length_map, List.length_range]

theorem State.partRead_get (s : State) (p : PartId) (h : Nat) {i n : Nat} (hi : i < (s.partRead p h n).length) :
    (s.partRead p h n)[i] = (s.partRead p (h + i) 1).headD 0 := by
  refine List.getElem_eq_iff _ |>.mpr ?_
  unfold State.partRead
  rw [List.getElem?_map, List.getElem?_range (State.length_partRead s p h n ▸ hi)]
  rfl

theorem State.dmahRun_units {s : State} {t : TileId} (hFree : (s.tile t).DmaFree) (p : PartId) (h : Nat) {a : Nat} (key : Nat)
    (k : Nat) (hAddr : a + 32 * k ≤ 983040) :
    s.DmahRun ((List.range k).foldl (fun s i => s.dmaWrite t (a + 32 * i) (s.partRead p (h + 32 * i) 32) none (some key)) s)
      t p h a k := by
  induction k with
  | zero => exact ⟨rfl, fun _ _ => rfl, rfl, fun _ => rfl, fun i hi => absurd hi (by omega), fun _ _ => rfl⟩
  | succ k ih =>
    obtain ⟨hState, hOther, hTile, hPower, hMoved, hRest⟩ := ih (by omega)
    rw [List.range_succ, List.foldl_append, List.foldl_cons, List.foldl_nil]
    generalize (List.range k).foldl (fun s i => s.dmaWrite t (a + 32 * i) (s.partRead p (h + 32 * i) 32) none (some key)) s = w
      at hState hOther hTile hPower hMoved hRest ⊢
    have hRead : w.partRead p (h + 32 * k) 32 = s.partRead p (h + 32 * k) 32 := by rw [hState]; rfl
    rw [hRead]
    have hBank : bankOf (a + 32 * k) < 3 := by
      unfold bankOf
      omega
    obtain ⟨hState', hOther', hTile', hPower'⟩ :=
      State.dmaWrite_free (hFree.of_run hTile hPower) (s.partRead p (h + 32 * k) 32) key hBank
    have hLen := s.length_partRead p (h + 32 * k) 32
    refine ⟨?_, fun x hx => (hOther' x hx).trans (hOther x hx), ?_, fun b => (hPower' b).trans (hPower b), fun i hi => ?_,
      fun x hx => ?_⟩
    · rw [hState', hState]
    · rw [hTile', hTile]
    · rw [hTile']
      by_cases hOld : i < 32 * k
      · exact (Mem.read_writeBytes_outside _ _ _ _ (by omega)).trans (hMoved i hOld)
      · obtain ⟨j, rfl⟩ := Nat.exists_eq_add_of_le (Nat.le_of_not_lt hOld)
        have hj : j < (s.partRead p (h + 32 * k) 32).length := by omega
        rw [← Nat.add_assoc, ← Nat.add_assoc]
        exact (Mem.read_writeBytes_inside _ _ _ _ hj).trans (s.partRead_get ..)
    · rw [hTile']
      exact (Mem.read_writeBytes_outside _ _ _ _ (by omega)).trans (hRest x (by omega))

theorem dmahToScratchpad_ends {s : State} {t : TileId} {p : PartId} {o : AsyncOp} {x : DmahEnd} {h a n : Nat} {data : List Byte}
    (hOps : (s.tile t).ops = [o]) (hOwner : s.tileOwner? t = some p) (hCnt : o.cnt = x.cnt.val) (hCounted : o.counted = true)
    (hXfer : o.xfer = .dmah false h a n data) (hn : n % 32 = 0) (ha : a % 4 = 0) (hEnd : a + n ≤ 983040)
    (hFree : (s.tile t).DmaFree) (hGood : ∀ i ∈ unitOffsets n, s.partHard p (h + i) 32 false = false) :
    ∃ s', exec (.dmahDone t x) s = .next s' ∧ (s'.tile t).ops = [] ∧
      ((s'.tile t).counter o.cnt).done = ((s.tile t).counter o.cnt).done + 1 ∧ s'.hbm = s.hbm ∧
      (∀ i, i < n → Mem.read (s'.tile t).sp (a + i) = (s.partRead p (h + i) 1).headD 0) ∧
      (∀ x, (x < a ∨ a + n ≤ x) → Mem.read (s'.tile t).sp x = Mem.read (s.tile t).sp x) ∧
      ∀ x, x ≠ t → s'.tile x = s.tile x := by
  have hLanding : o.landing = false := hFree.moving o (hOps ▸ List.mem_singleton_self o)
  have hUnits : 32 * ceilDiv n 32 = n := by
    unfold ceilDiv
    omega
  have hExec := exec_dmahDone hOps hOwner hCnt hLanding hXfer hGood (.inr ha)
  dsimp only at hExec
  rw [if_neg Bool.false_ne_true, unitOffsets, List.foldl_map] at hExec
  have hReached : ((s.modTile t fun tl => tl.modSeq (·.reach o.due)).tile t).DmaFree := by
    rw [State.modTile_tile_same]
    exact ⟨hFree.quiet, hFree.step, hFree.paths, hFree.late, hFree.held, hFree.awake, hFree.moving⟩
  obtain ⟨hState, hOther, hTile, -, hMoved, hRest⟩ :=
    State.dmahRun_units hReached p h (a := a) o.key (ceilDiv n 32) (by omega)
  generalize (List.range (ceilDiv n 32)).foldl (fun s i => s.dmaWrite t (a + 32 * i) (s.partRead p (h + 32 * i) 32) none
    (some o.key)) (s.modTile t fun tl => tl.modSeq (·.reach o.due)) = w at hExec hState hOther hTile hMoved hRest
  rw [State.modTile_tile_same] at hTile hRest
  rw [hUnits] at hMoved hRest
  rw [State.dmahLanded_only (by rw [State.count_tile, hTile]; exact hOps)
    (by rw [State.count_tile, hTile]; exact hFree.held)] at hExec
  refine ⟨_, hExec, ?_, ?_, ?_, fun i hi => ?_, fun x hx => ?_, fun x hx => ?_⟩
  · rw [State.modTile_tile_same]
  · rw [State.modTile_tile_same, State.count_tile]
    refine (congrArg Counter.done (Tile.counter_countDone (w.tile t) hCounted)).trans ?_
    rw [hTile]
    rfl
  · rw [State.modTile_hbm, State.count_hbm, hState]
    rfl
  · rw [State.modTile_tile_same, State.count_tile]
    exact (congrArg (Mem.read · (a + i)) (Tile.countDone_sp ..)).trans (hMoved i hi)
  · rw [State.modTile_tile_same, State.count_tile]
    exact (congrArg (Mem.read · x) (Tile.countDone_sp ..)).trans (hRest x hx)
  · rw [State.modTile_tile_other _ _ hx, State.count_tile, hOther x hx, State.modTile_tile_other _ _ hx]

/-- Settles O30: the issue of a DMAH in both directions, and its end unit by unit. -/
theorem dmahTransfersAndCounts : Obligations.DmahTransfersAndCounts := by
  refine ⟨fun s₀ s t id f h a hs hCalm hAligned => ⟨fun hIssues hSrc hDst => exec_dmahToScratchpad hs hCalm hAligned hIssues hSrc hDst,
    fun hIssues hDst hSrc hOk => exec_dmahToHbm hs hCalm hAligned hIssues hDst hSrc hOk⟩, ?_, ?_⟩
  · intro s t p o cnt merge h a n data hOps hOwner hCnt hCounted hLanding hHeld hXfer hGood
    exact dmahToHbm_ends hOps hOwner hCnt hCounted hLanding hHeld hXfer hGood
  · intro s t p o cnt merge h a n data hOps hOwner hCnt hCounted hLanding hHeld hXfer _ hn ha hEnd hStep hPaths hLate hAwake hQuiet
      hGood
    refine dmahToScratchpad_ends hOps hOwner hCnt hCounted hXfer hn ha hEnd ⟨hQuiet, hStep, hPaths, hLate, hHeld, fun b hb => ?_,
      fun y hy => ?_⟩ hGood
    · exact eq_of_beq (List.all_eq_true.mp hAwake b (List.mem_range.mpr hb))
    · rw [hOps] at hy
      rw [List.mem_singleton.mp hy]
      exact hLanding

end Sys2Proof.Machine
end

section
/-! ### OUTP and engine partials (R104 to R108, R150) -/

namespace Sys2Proof.Machine

/-! #### Sums of products -/

theorem foldl_sum_filter {α : Type} (q : α → Bool) (v : α → Int) (l : List α) (n : Int) :
    l.foldl (fun (n : Int) e => if q e then n + v e else n) n = n + ((l.filter q).map v).sum := by
  induction l generalizing n with
  | nil => simp
  | cons e l ih =>
    rw [List.foldl_cons, ih, List.filter_cons]
    split
    · rw [List.map_cons, List.sum_cons, Int.add_assoc]
    · rfl

theorem mem_enginePartials (mc : Macro) (h : BitVec 1) (bm1 : BitVec 3) (asgn : BitVec 1) (l : List OutEntry) (o : Nat) (v : Int) :
    (o, v) ∈ enginePartials mc h bm1 asgn l ↔ (∃ e ∈ l, e.out.toNat = o) ∧
      v = ((l.filter fun e => decide (e.out.toNat = o)).map fun e =>
        e.res.toInt * activationOf false bm1 asgn (Store.get 0 (mc.half h).acts e.row.toNat)).sum := by
  have hSum : l.foldl (fun (n : Int) e => if e.out.toNat = o then
        n + e.res.toInt * activationOf false bm1 asgn (Store.get 0 (mc.half h).acts e.row.toNat) else n) 0 =
      ((l.filter fun e => decide (e.out.toNat = o)).map fun e =>
        e.res.toInt * activationOf false bm1 asgn (Store.get 0 (mc.half h).acts e.row.toNat)).sum := by
    have h := foldl_sum_filter (fun e : OutEntry => decide (e.out.toNat = o))
      (fun e => e.res.toInt * activationOf false bm1 asgn (Store.get 0 (mc.half h).acts e.row.toNat)) l 0
    simpa only [decide_eq_true_eq, Int.zero_add] using h
  unfold enginePartials
  simp only [List.mem_map, List.mem_eraseDups, Prod.mk.injEq]
  constructor
  · rintro ⟨_, hMem, rfl, rfl⟩
    exact ⟨hMem, hSum⟩
  · rintro ⟨hMem, rfl⟩
    exact ⟨o, hMem, rfl, hSum⟩

/-! #### Streams -/

theorem onlyTile_modTile {t : TileId} {s s' : State} (h : OnlyTile t s s') (f : Tile → Tile) : OnlyTile t s (s'.modTile t f) := by
  obtain ⟨hState, hTiles, hClusters⟩ := h
  exact ⟨hState, fun x hx => (State.modTile_tile_other _ _ hx).trans (hTiles x hx), hClusters⟩

/-- The stream that an OUTP starts on macro `m`. -/
def Tile.outpStream (tl : Tile) (id : Ids) (f : OutpPassF) (m : Nat) : Stream :=
  let l := streamEntries (tl.mac m) f.rgmask
  { mac := m, nout := outsOf (tl.mac m).active.pm1, issue := tl.seq.ac, due := tl.seq.ac + ceilDiv l.length 32 + 3
    s := (tl.mac m).lastS.getD 4, partials := enginePartials (tl.mac m) f.half f.bm1 f.asgn l, ids := id }

/-- A macro whose stream reads its entries from half `h` until cycle `stop`. -/
def Macro.streamHeld (mc : Macro) (h : BitVec 1) (stop : Nat) : Macro :=
  let mc := { mc with streamUntil := stop }
  if h = 0 then { mc with half0Until := max mc.half0Until stop } else { mc with half1Until := max mc.half1Until stop }

theorem Macro.streamHeld_eq (mc : Macro) (h : BitVec 1) (stop : Nat) : mc.streamHeld h stop = { mc with
    streamUntil := stop, half0Until := if h = 0 then max mc.half0Until stop else mc.half0Until
    half1Until := if h = 0 then mc.half1Until else max mc.half1Until stop } := by
  unfold Macro.streamHeld
  split <;> rfl

/-- Macro `m` as the stream that an OUTP starts holds it. -/
def Tile.streaming (tl : Tile) (f : OutpPassF) (m : Nat) : Macro :=
  (tl.mac m).streamHeld f.half (tl.seq.ac + ceilDiv (streamEntries (tl.mac m) f.rgmask).length 32)

/-- What the streams of `l` have made of a tile that stood as `tl`. -/
structure Tile.StreamsOn (tl : Tile) (id : Ids) (f : OutpPassF) (l : List Nat) (x : Tile) : Prop where
  shape : x = { tl with
    macros := x.macros
    streams := tl.streams ++ (l.filter fun m => !(streamEntries (tl.mac m) f.rgmask).isEmpty && !(tl.mac m).streamDead).map
      (tl.outpStream id f) }
  mac : ∀ m, x.mac m = if m ∈ l then tl.streaming f m else tl.mac m

theorem State.streamStart_free {s : State} {t : TileId} {m : Nat} (id : Ids) (f : OutpPassF)
    (hFill : ((s.tile t).mac m).fill f.half = none) : s.streamStart t id f false m =
      (s.modTile t fun tl =>
        let x := tl.modMac m fun _ => tl.streaming f m
        if streamEntries (tl.mac m) f.rgmask = [] ∨ (tl.mac m).streamDead = true then x
        else { x with streams := tl.streams ++ [tl.outpStream id f m] }).count (clusterOf t) 2
          (streamEntries ((s.tile t).mac m) f.rgmask).length := by
  have hMeet (n : Nat) (k : Nat) : (s.count (clusterOf t) 2 n).meetFill t f.half m k = s.count (clusterOf t) 2 n := by
    unfold State.meetFill
    rw [State.count_tile, hFill]
  unfold State.streamStart
  dsimp only
  rw [hMeet, State.count_modTile]
  refine congrArg (fun x : State => x.count (clusterOf t) 2 _) (State.modTile_congr ?_)
  have hLive : (streamEntries ((s.tile t).mac m) f.rgmask = [] ∨ false = true ∨ ((s.tile t).mac m).streamDead = true) ↔
      (streamEntries ((s.tile t).mac m) f.rgmask = [] ∨ ((s.tile t).mac m).streamDead = true) :=
    or_congr_right (or_iff_right Bool.false_ne_true)
  exact if_congr hLive rfl rfl

theorem Tile.streamsOn_snoc {tl x : Tile} {id : Ids} {f : OutpPassF} {l : List Nat} {m : Nat} (h : tl.StreamsOn id f l x)
    (hm : m ∉ l) : tl.StreamsOn id f (l ++ [m]) (
      let y := x.modMac m fun _ => x.streaming f m
      if streamEntries (x.mac m) f.rgmask = [] ∨ (x.mac m).streamDead = true then y
      else { y with streams := x.streams ++ [x.outpStream id f m] }) := by
  obtain ⟨hShape, hMac⟩ := h
  have hOld : x.mac m = tl.mac m := by rw [hMac, if_neg hm]
  have hAc : x.seq.ac = tl.seq.ac := by rw [hShape]
  have hStream : x.outpStream id f m = tl.outpStream id f m := by
    unfold Tile.outpStream
    rw [hOld, hAc]
  have hNew : x.streaming f m = tl.streaming f m := by
    unfold Tile.streaming
    rw [hOld, hAc]
  have hStreams : x.streams = tl.streams ++ (l.filter fun m => !(streamEntries (tl.mac m) f.rgmask).isEmpty &&
      !(tl.mac m).streamDead).map (tl.outpStream id f) := by rw [hShape]
  have hMacs (k : Nat) : (x.modMac m fun _ => x.streaming f m).mac k = if k ∈ l ++ [m] then tl.streaming f k else tl.mac k := by
    rw [Tile.mac_modMac, hMac, hNew]
    by_cases hk : k = m
    · subst hk
      simp
    · simp [hk]
  rw [hOld, hStream]
  dsimp only
  split
  next hNone =>
    refine ⟨?_, hMacs⟩
    have hKeep : (!(streamEntries (tl.mac m) f.rgmask).isEmpty && !(tl.mac m).streamDead) = false := by
      rcases hNone with h | h <;> simp [h]
    rw [List.filter_append, List.filter_cons_of_neg (by rw [hKeep]; exact Bool.false_ne_true), List.filter_nil, List.append_nil]
    exact (congrArg (fun y : Tile => y.modMac m fun _ => x.streaming f m) hShape).trans rfl
  next hSome =>
    refine ⟨?_, hMacs⟩
    have hKeep : (!(streamEntries (tl.mac m) f.rgmask).isEmpty && !(tl.mac m).streamDead) = true := by
      simpa [not_or] using hSome
    rw [List.filter_append, List.filter_cons_of_pos (by exact hKeep), List.filter_nil, List.map_append, ← List.append_assoc,
      ← hStreams]
    exact (congrArg (fun y : Tile => { (y.modMac m fun _ => x.streaming f m) with
      streams := x.streams ++ [tl.outpStream id f m] }) hShape).trans rfl

theorem State.streamsOn_foldl {s s' : State} {t : TileId} {tl : Tile} (hs' : OnlyTile t s s') (hTile : s'.tile t = tl) (id : Ids)
    (f : OutpPassF) (l : List Nat) (hl : l.Nodup) (hFill : ∀ m ∈ l, (tl.mac m).fill f.half = none) :
    OnlyTile t s (l.foldl (fun s m => s.streamStart t id f false m) s') ∧
      tl.StreamsOn id f l ((l.foldl (fun s m => s.streamStart t id f false m) s').tile t) := by
  induction l using List.reverseRecOn with
  | nil =>
    refine ⟨hs', ?_, fun m => ?_⟩
    · rw [List.filter_nil, List.map_nil, List.append_nil, List.foldl_nil, hTile]
    · rw [List.foldl_nil, hTile]
      exact (if_neg (List.not_mem_nil)).symm
  | append_singleton l m ih =>
    obtain ⟨hl, -, hm⟩ := List.nodup_append.mp hl
    have hNew : m ∉ l := fun h => hm m h m (by simp) rfl
    obtain ⟨hOnly, hRun⟩ := ih hl fun k hk => hFill k (by simp [hk])
    rw [List.foldl_append, List.foldl_cons, List.foldl_nil]
    generalize l.foldl (fun s m => s.streamStart t id f false m) s' = w at hOnly hRun ⊢
    have hFree : ((w.tile t).mac m).fill f.half = none := by
      rw [hRun.mac, if_neg hNew]
      exact hFill m (by simp)
    rw [State.streamStart_free id f hFree]
    refine ⟨onlyTile_count (onlyTile_modTile hOnly _) 2 _, ?_⟩
    rw [State.count_tile, State.modTile_tile_same]
    exact Tile.streamsOn_snoc hRun hNew

theorem exec_outpPass {s₀ s : State} {t : TileId} {id : Ids} {f : OutpPassF} (hs : s = s₀.due t)
    (hIssues : s₀.issues t (.outpPass t id f []) = true)
    (hFree : ∀ m ∈ onesOf f.macros, outpBlocked ((s.tile t).begun id) m = false ∧
      (((s.tile t).begun id).mac m).fill f.half = none ∧ firstBad (streamEntries (((s.tile t).begun id).mac m) f.rgmask) [] = none) :
    exec (.outpPass t id f []) s₀ = .next (((onesOf f.macros).foldl (fun s m => s.streamStart t id f false m)
      (s.issued t ((s.tile t).begun id))).retire t) := by
  obtain ⟨_, hPage⟩ := (State.issues_iff rfl).mp hIssues
  rw [← hs] at hPage
  have hBad : (onesOf f.macros).filter (outpBlocked ((s.tile t).begun id)) = [] :=
    List.filter_eq_nil_iff.mpr fun m hm => by simp [(hFree m hm).1]
  have hGo : ((onesOf f.macros).filter fun m => !([] : List Nat).contains m) = onesOf f.macros :=
    List.filter_eq_self.mpr fun _ _ => rfl
  have hExec : exec (.outpPass t id f []) s₀ = execOutpPass t id f [] s₀ := rfl
  rw [hExec, execOutpPass, State.issue_issues _ rfl hIssues, ← hs, State.begin_issued id hPage]
  dsimp only
  rw [State.issued_tile, hBad, hGo, if_pos rfl]
  have hStart : (s.issued t ((s.tile t).begun id)).each (onesOf f.macros) (fun x m => x.streamStart t id f
      (firstBad (streamEntries (((s.tile t).begun id).mac m) f.rgmask) []).isSome m) =
      (onesOf f.macros).foldl (fun s m => s.streamStart t id f false m) (s.issued t ((s.tile t).begun id)) := by
    unfold State.each
    refine List.foldl_ext _ _ _ fun x m hm => ?_
    rw [(hFree m hm).2.2]
    rfl
  refine (congrArg (fun x : State => Host.Outcome.next (x.retire t)) (?_ : _ = (onesOf f.macros).foldl
    (fun x m => x.streamStart t id f false m) (s.issued t ((s.tile t).begun id))))
  refine foldl_keeps_of_mem (P := fun x => x = (onesOf f.macros).foldl
    (fun x m => x.streamStart t id f false m) (s.issued t ((s.tile t).begun id))) _ hStart fun x m hm hx => ?_
  rw [List.filter_nil, List.map_nil, (hFree m hm).2.2]
  exact hx

theorem exec_enginePartialsPresent {s : State} {t : TileId} {m : MacroId} {x : Stream} (hUp : s.tileUp t = true)
    (hFrozen : (s.tile t).frozenNow = false) (hSt : (s.tile t).seq.st ≠ .frozen)
    (hFind : ((s.tile t).streams.find? fun x => decide (x.mac = m.val)) = some x) :
    exec (.enginePartialsPresent t m) s =
      .next ((s.modTile t fun tl => ({ tl.modSeq (·.reach x.due) with streams := tl.streams.erase x }).settle).present t
        x.ids x.due x.issue x.s false
        [{ mac := m.val, nout := x.nout, elems := x.partials.map fun y => { out := y.1, val := y.2, exp := 0 } }]) := by
  have hRuns : ¬(s.tileUp t = false ∨ (s.tile t).frozenNow = true ∨ (s.tile t).seq.st = .frozen) := by
    simp [hUp, hFrozen, hSt]
  have hExec : exec (.enginePartialsPresent t m) s = execEnginePartialsPresent t m s := rfl
  rw [hExec, execEnginePartialsPresent, hFind]
  exact congrArg Host.Outcome.next (if_neg hRuns)

/-- A section that a load puts into the shadow set of its macro. -/
theorem exec_outpLoad {s₀ s : State} {t : TileId} {id : Ids} {f : OutpLoadF} {b : Buf} {n : Nat} {sets : List (Nat × Option OutSet)}
    (hs : s = s₀.due t) (hIssues : s₀.issues t (.outpLoad t id f) = true) (hCalm : s.calm t = true)
    (hSrc : s.spBuf? t f.qsrc.toNat false = some b) (hIn : b.ofs ≤ b.len)
    (hRead : readSections (s.tile t) (onesOf f.macros) ((s.tile t).spRead (b.base + b.ofs) (min (b.len - b.ofs) 65600)) =
      some (n, sets))
    (hSets : ∀ m ∈ onesOf f.macros, ((s.tile t).mac m).setUntil ≤ (s.tile t).seq.ac + 1) :
    let us : List PathUse :=
      [{ form := 0, write := false, start := (s.tile t).seq.ac, addr := b.base + b.ofs, step := 512, len := 4 * n }]
    (s.tile t).accessOk us = true →
    let tl := s.opened t id us { macs := onesOf f.macros, unit := 19 }
    let w := ceilDiv n 128
    exec (.outpLoad t id f) s₀ = .next ((s.issued t ((((tl.modMacs (onesOf f.macros) fun m mc =>
      { mc.putSet mc.shadowPhys (match assocGet none sets m with | some y => y | none => {}) with
        setUntil := (s.tile t).seq.ac + w + 1 }).busyTo ((s.tile t).seq.ac + w)).incQ [(f.qsrc, f.inc)]).next)).count (clusterOf t) 3
          (4 * n)) := by
  intro us hOk tl w
  obtain ⟨_, hPage⟩ := (State.issues_iff rfl).mp hIssues
  rw [← hs] at hPage
  have hTile := State.calm_tile hCalm
  have hFree : ((onesOf f.macros).all fun m => decide (((s.tile t).mac m).setUntil ≤ (s.tile t).seq.ac + 1)) = true :=
    List.all_eq_true.mpr fun m hm => decide_eq_true (hSets m hm)
  have hExec : exec (.outpLoad t id f) s₀ = execOutpLoad t id f s₀ := rfl
  rw [hExec, execOutpLoad, State.issue_issues _ rfl hIssues, ← hs]
  dsimp only
  rw [hSrc]
  dsimp only
  rw [if_pos hIn, Tile.readView_calm hTile.late, hRead, Option.map_some]
  dsimp only
  rw [if_pos hFree, State.access_calm id _ _ _ hPage hTile hOk]
  dsimp only
  rw [State.issued_modTile, State.count_modTile, State.count_retire]
  have hAc : (s.opened t id us { macs := onesOf f.macros, unit := 19 }).seq.ac = (s.tile t).seq.ac := by
    rw [State.opened_seq, Tile.begun_seq_ac]
  rw [hAc]
  refine congrArg (fun x : State => Host.Outcome.next (x.count (clusterOf t) 3 (4 * n))) (State.issued_finish s t _ ?_ ?_)
  · rw [Tile.modMacs_shape]
    rfl
  · rw [Tile.modMacs_shape]
    rfl

/-- Settles O26: the streams of an OUTP pass, the sums that they present, and the sections that an OUTP load takes. -/
theorem outliersLoadAndStream : Obligations.OutliersLoadAndStream := by
  refine ⟨⟨?_, fun mc h bm1 asgn l o v => mem_enginePartials mc h bm1 asgn l o v,
    fun s t m x hUp hFrozen hSt hFind => exec_enginePartialsPresent hUp hFrozen hSt hFind⟩, ?_⟩
  · intro s₀ s t id f hs hIssues tl macs work e hFree
    obtain ⟨hOnly, hShape, hMac⟩ := State.streamsOn_foldl (s.onlyTile_issued t tl) (State.issued_tile ..) id f macs
      (nodup_onesOf _) fun m hm => (hFree m hm).2.1
    refine ⟨_, exec_outpPass hs hIssues hFree, onlyTile_modTile hOnly _, ?_, fun m => ?_⟩
    · rw [State.retire, State.modTile_tile_same]
      exact (congrArg Tile.next hShape).trans rfl
    · rw [State.retire, State.modTile_tile_same]
      refine (hMac m).trans (if_congr Iff.rfl ?_ rfl)
      exact Macro.streamHeld_eq ..
  · intro s₀ s t id f b n sets hs hIssues hCalm hSrc hIn hRead hSets us hOk tl w
    have hAc : tl.seq.ac = (s.tile t).seq.ac := by
      rw [State.opened_seq, Tile.begun_seq_ac]
    rw [hAc]
    exact exec_outpLoad hs hIssues hCalm hSrc hIn hRead hSets hOk

end Sys2Proof.Machine
end

section
/-! ### Puts at their window (R130, R230, R242 to R244, R249 to R253) -/

namespace Sys2Proof.Machine

/-! #### Which segments are served -/

theorem State.capture_serves (s : State) {p : Option PartId} (h : ∀ q, p = some q → (s.part q).slackStopped = false) (host : Bool)
    (m : Msg) (serve : State → State) : s.capture p host m serve = serve s := by
  unfold State.capture
  cases p with
  | none => rfl
  | some q =>
    dsimp only
    rw [h q rfl]
    rfl

theorem State.window?_tile {s : State} {w : BitVec 24} {t : TileId} {h : Nat} (hw : s.window? w = some (t, h)) :
    tileOfBits? (w.toNat % 65536) = some t ∧ h = w.toNat % 32 := by
  unfold State.window? at hw
  split at hw
  · split at hw
    next x hx =>
      rw [hx]
      dsimp only at hw
      split at hw
      · obtain ⟨rfl, rfl⟩ := Prod.mk.injEq .. ▸ Option.some.inj hw
        exact ⟨rfl, rfl⟩
      · cases hw
    · cases hw
  · cases hw

theorem State.windowDark_of_band {s : State} {w : BitVec 24}
    (h : ∀ t, tileOfBits? (w.toNat % 65536) = some t → s.bandDark (bandOf (clusterOf t)) = false) : s.windowDark w = false := by
  unfold State.windowDark
  split
  next t ht => rw [h t ht, Bool.and_false]
  · rfl

theorem State.putLand_sound (s : State) (t : TileId) (w : PutWrite) (m : PutHdr) (data : List Byte) :
    s.putLand t w m data false = s.putData t w m data := by
  unfold State.putLand
  rw [Bool.false_and]
  exact if_neg Bool.false_ne_true

/-- The first segment of a sound put on a band that is not dark meets the checks of its window. -/
theorem exec_putFirst {s : State} {via : Via} {m : PutHdr} {data : List Byte} (hLive : s.live = true)
    (hRuns : ∀ p, s.windowOwner? m.window = some p → (s.part p).slackStopped = false) (hRsvd : m.rsvd = 0)
    (hSound : malformed m data = false) (hFirst : m.first = true) (hDark : s.windowDark m.window = false) :
    (∀ r, s.putCheck via m = some r → exec (.putSegmentReceive via m data false) s =
      .next (s.refuse m.window via m.epoch m.tag r 0)) ∧
    ∀ t h, s.putCheck via m = none → s.window? m.window = some (t, h) →
      let w : PutWrite :=
        { handle := h, epoch := m.epoch, window := m.window, via, writer := writerKey via m, tag := m.tag
          base := s.bufBase t (s.handle t h) true + m.wofs.toNat, len := m.wlm1.toNat + 1, got := 0, lastSeen := false }
      exec (.putSegmentReceive via m data false) s =
        .next ((s.modTile t fun tl => { tl with writes := tl.writes ++ [w] }).putData t w m data) := by
  have hExec : exec (.putSegmentReceive via m data false) s = .next (s.putSegment via m data false) :=
    congrArg Host.Outcome.next ((if_pos hLive).trans (s.capture_serves hRuns ..))
  have hNotBad : ¬malformed m data = true := by rw [hSound]; exact Bool.false_ne_true
  have hCheck : s.putSegment via m data false = _ :=
    (if_neg (not_not_intro hRsvd)).trans ((if_neg hNotBad).trans (if_pos hFirst))
  rw [hDark, cond_false] at hCheck
  refine ⟨fun r hr => ?_, fun t h hr hw => ?_⟩
  · rw [hExec, hCheck, hr]
  · rw [hExec, hCheck, hr]
    dsimp only
    rw [hw]
    exact congrArg Host.Outcome.next (State.putLand_sound ..)

theorem State.putCheck_noWindow {s : State} (via : Via) {m : PutHdr} (hw : s.window? m.window = none) :
    s.putCheck via m = some rNoWindow := by
  unfold State.putCheck
  rw [hw]

/-- The checks of R249 at a window, in order. -/
theorem State.putCheck_window {s : State} (via : Via) {m : PutHdr} {t : TileId} {h : Nat} (hw : s.window? m.window = some (t, h)) :
    s.putCheck via m =
      if (bitN (s.handle t h).toNat 122 && !s.bufSealed t (s.handle t h) true && s.belongs via t) = false then some rPerm
      else if hf (s.handle t h) 63 32 ≠ m.epoch.toNat then some rStale
      else if s.grantFits t h via m = false then some rNoCredit
      else if s.bandShut t = true then some rBandOff
      else none := by
  unfold State.putCheck
  rw [hw]
  dsimp only
  refine if_congr ?perm rfl (if_congr bne_iff_ne rfl (if_congr ?grant rfl rfl))
  case perm =>
    cases bitN (s.handle t h).toNat 122 <;> cases s.bufSealed t (s.handle t h) true <;> cases s.belongs via t <;> decide
  case grant => rw [Bool.not_eq_true']

theorem State.putCheck_epoch {s : State} {via : Via} {m : PutHdr} {t : TileId} {h : Nat} (hw : s.window? m.window = some (t, h))
    (hCheck : s.putCheck via m = none) : hf (s.handle t h) 63 32 = m.epoch.toNat := by
  by_contra hEpoch
  rw [State.putCheck_window via hw] at hCheck
  by_cases hPerm : (bitN (s.handle t h).toNat 122 && !s.bufSealed t (s.handle t h) true && s.belongs via t) = false
  · rw [if_pos hPerm] at hCheck
    cases hCheck
  · rw [if_neg hPerm, if_pos hEpoch] at hCheck
    cases hCheck

/-! #### The bytes of a segment -/

theorem State.dmaWrite_put {s : State} {t : TileId} {addr : Nat} {data : List Byte} (k : LandKey) (hHeld : (s.tile t).held = [])
    (hLate : (s.tile t).late = []) (hQuiet : (s.tile t).seq.st ≠ .issuing) (hAddr : bankOf addr < 3)
    (hHold : (s.tile t).dmaHold (s.dmaCycle t) addr data.length false = none) :
    s.dmaWrite t addr data (some k) none = ((s.count (clusterOf t) 5 data.length).modTile t
      fun tl => (tl.touch [bankOf addr] (s.tileAc t)).spWrite addr data).landed t k data.length := by
  have hNot3 : bankOf addr ≠ 3 := by omega
  have hLand : s.modTile t (·.landFor (s.dmaCycle t)) = s.modTile t id := State.modTile_congr (Tile.landFor_free hLate _)
  have hTile : (s.modTile t id).tile t = s.tile t := State.modTile_tile_same ..
  unfold State.dmaWrite State.dmaNew
  dsimp only
  rw [State.settleDma_free hHeld, hHeld]
  unfold State.dmaTry
  dsimp only
  rw [hHeld, if_neg (by simp), if_neg hQuiet]
  unfold State.dmaAt
  dsimp only
  rw [hLand, hTile, Option.isSome_none, hHold]
  dsimp only
  unfold State.dmaPut
  dsimp only
  rw [if_neg hNot3, if_pos rfl]
  rw [State.dmaKeep]
  dsimp only
  rw [← State.count_modTile, State.modTile_modTile, State.modTile_modTile]
  rfl

theorem State.dmaCycle_modTile (s : State) (t : TileId) {f : Tile → Tile} (h : (f (s.tile t)).seq = (s.tile t).seq) :
    (s.modTile t f).dmaCycle t = s.dmaCycle t := by
  unfold State.dmaCycle State.liveAc
  dsimp only
  rw [State.modTile_tile_same, h, State.modTile_tileOwner?]
  rfl

/-- An accepted write with `n` bytes more in place, if it is the one of the key. -/
def PutWrite.gotMore (w : PutWrite) (k : LandKey) (n : Nat) : PutWrite :=
  if w.window = k.window ∧ w.epoch = k.epoch ∧ w.writer = k.writer ∧ w.tag = k.tag then { w with got := w.got + n } else w

theorem State.landed_open {s : State} {t : TileId} {k : LandKey} (n : Nat)
    (h : k.epoch = BitVec.ofNat 32 (hf (s.handle t (k.window.toNat % 32)) 63 32)) :
    s.landed t k n = (s.modTile t fun tl => ({ tl with writes := tl.writes.map (·.gotMore k n) } : Tile).modWin
      (k.window.toNat % 32) fun w => { w with openLanded := w.openLanded + n }).count (clusterOf t) 10 n := by
  unfold State.landed
  dsimp only
  rw [← h]
  refine congrArg (fun f => (s.modTile t f).count (clusterOf t) 10 n) (funext fun tl => ?_)
  simp only [if_true]
  rfl

/-- What the bytes of a segment change: the scratchpad of a tile, one of its windows, and its writes. -/
structure State.PutLanded (s s' : State) (t : TileId) (h addr : Nat) (data : List Byte) : Prop where
  sp : (s'.tile t).sp = Mem.writeBytes (s.tile t).sp addr data
  handles : (s'.tile t).handles = (s.tile t).handles
  seq : (s'.tile t).seq = (s.tile t).seq
  writes : (s'.tile t).writes.length = (s.tile t).writes.length
  landed : ((s'.tile t).win h).openLanded = ((s.tile t).win h).openLanded + data.length
  hbm : s'.hbm = s.hbm
  sent : s'.sent = s.sent
  other : ∀ x, x ≠ t → s'.tile x = s.tile x
  part : ∀ p, s'.part p = s.part p

/-- A write whose last segment has come knows it. -/
def Tile.seenLast (tl : Tile) (w : PutWrite) (last : Bool) : Tile :=
  { tl with writes := tl.writes.map fun x => if x = w then { x with lastSeen := x.lastSeen || last } else x }

/-- A tile whose scratchpad takes the bytes of a segment. -/
def Tile.putSegment (tl : Tile) (w : PutWrite) (m : PutHdr) (data : List Byte) (now : Nat) : Tile :=
  let addr := w.base + m.sofs.toNat
  let tl := ((tl.seenLast w m.last).touch [bankOf addr] now).spWrite addr data
  ({ tl with writes := tl.writes.map (·.gotMore w.key data.length) } : Tile).modWin (w.window.toNat % 32)
    fun x => { x with openLanded := x.openLanded + data.length }

theorem State.putData_open {s : State} {t : TileId} {w : PutWrite} {m : PutHdr} {data : List Byte} (hHeld : (s.tile t).held = [])
    (hLate : (s.tile t).late = []) (hQuiet : (s.tile t).seq.st ≠ .issuing) (hAddr : bankOf (w.base + m.sofs.toNat) < 3)
    (hHold : (s.tile t).dmaHold (s.dmaCycle t) (w.base + m.sofs.toNat) data.length false = none)
    (hOpen : w.epoch = BitVec.ofNat 32 (hf (s.handle t (w.window.toNat % 32)) 63 32)) :
    s.putData t w m data = ((s.modTile t fun tl => tl.putSegment w m data (s.tileAc t)).count (clusterOf t) 5 data.length).count
      (clusterOf t) 10 data.length := by
  have hTile : (s.modTile t (·.seenLast w m.last)).tile t = (s.tile t).seenLast w m.last := State.modTile_tile_same ..
  have hCycle : (s.modTile t (·.seenLast w m.last)).dmaCycle t = s.dmaCycle t := s.dmaCycle_modTile t rfl
  change (s.modTile t (·.seenLast w m.last)).dmaWrite t (w.base + m.sofs.toNat) data (some w.key) none = _
  rw [State.dmaWrite_put w.key (by rw [hTile]; exact hHeld) (by rw [hTile]; exact hLate) (by rw [hTile]; exact hQuiet) hAddr
    (by rw [hCycle, hTile]; exact hHold), State.count_modTile, State.modTile_modTile, State.landed_open, State.count_modTile,
    State.modTile_modTile]
  · rfl
  · refine hOpen.trans (congrArg (fun x : BitVec 128 => BitVec.ofNat 32 (hf x 63 32)) ?_)
    unfold State.handle
    rw [State.count_tile, State.modTile_tile_same]
    rfl

theorem Tile.putSegment_sp (tl : Tile) (w : PutWrite) (m : PutHdr) (data : List Byte) (now : Nat) :
    (tl.putSegment w m data now).sp = Mem.writeBytes tl.sp (w.base + m.sofs.toNat) data := rfl

theorem Tile.putSegment_handles (tl : Tile) (w : PutWrite) (m : PutHdr) (data : List Byte) (now : Nat) :
    (tl.putSegment w m data now).handles = tl.handles := rfl

theorem Tile.putSegment_writes (tl : Tile) (w : PutWrite) (m : PutHdr) (data : List Byte) (now : Nat) :
    (tl.putSegment w m data now).writes.length = tl.writes.length :=
  (List.length_map _).trans (List.length_map _)

theorem Tile.putSegment_win (tl : Tile) (w : PutWrite) (m : PutHdr) (data : List Byte) (now : Nat) :
    ((tl.putSegment w m data now).win (w.window.toNat % 32)).openLanded =
      (tl.win (w.window.toNat % 32)).openLanded + data.length := congrArg WinSt.openLanded (Store.get_set_same ..)

theorem Tile.putSegment_seq (tl : Tile) (w : PutWrite) (m : PutHdr) (data : List Byte) (now : Nat) :
    (tl.putSegment w m data now).seq = tl.seq := rfl

theorem State.putData_landed {s : State} {t : TileId} {w : PutWrite} {m : PutHdr} {data : List Byte} (hHeld : (s.tile t).held = [])
    (hLate : (s.tile t).late = []) (hQuiet : (s.tile t).seq.st ≠ .issuing) (hAddr : bankOf (w.base + m.sofs.toNat) < 3)
    (hHold : (s.tile t).dmaHold (s.dmaCycle t) (w.base + m.sofs.toNat) data.length false = none)
    (hOpen : w.epoch = BitVec.ofNat 32 (hf (s.handle t (w.window.toNat % 32)) 63 32)) :
    s.PutLanded (s.putData t w m data) t (w.window.toNat % 32) (w.base + m.sofs.toNat) data := by
  rw [State.putData_open hHeld hLate hQuiet hAddr hHold hOpen]
  have hTile : (((s.modTile t fun tl => tl.putSegment w m data (s.tileAc t)).count (clusterOf t) 5 data.length).count
      (clusterOf t) 10 data.length).tile t = (s.tile t).putSegment w m data (s.tileAc t) := by
    rw [State.count_tile, State.count_tile, State.modTile_tile_same]
  refine ⟨?_, ?_, ?_, ?_, ?_, ?_, ?_, fun x hx => ?_, fun p => ?_⟩
  · rw [hTile, Tile.putSegment_sp]
  · rw [hTile, Tile.putSegment_handles]
  · rw [hTile, Tile.putSegment_seq]
  · rw [hTile, Tile.putSegment_writes]
  · rw [hTile, Tile.putSegment_win]
  · rw [State.count_hbm, State.count_hbm, State.modTile_hbm]
  · unfold State.count
    split <;> rfl
  · rw [State.count_tile, State.count_tile, State.modTile_tile_other _ _ hx]
  · rw [State.count_part, State.count_part, State.modTile_part]

/-- Settles O31: the first segment of a put lands, the last byte is acknowledged, or the first failing check refuses it. -/
theorem putsLandOrAreRefused : Obligations.PutsLandOrAreRefused := by
  refine ⟨⟨?_, ?_⟩, ?_⟩
  · intro s via m data t h hLive hRuns hRsvd hSound hFirst hWindow hCheck a hHold hHeld hLate hAddr hBand hQuiet
    obtain ⟨hBits, rfl⟩ := State.window?_tile hWindow
    have hDark : s.windowDark m.window = false := State.windowDark_of_band fun x hx => by
      rw [hBits] at hx
      exact Option.some.inj hx ▸ hBand
    obtain ⟨-, hServe⟩ := exec_putFirst hLive hRuns hRsvd hSound hFirst hDark (via := via)
    refine ⟨_, hServe t _ hCheck hWindow, ?_⟩
    generalize hw : ({ handle := m.window.toNat % 32, epoch := m.epoch, window := m.window, via, writer := writerKey via m
                       tag := m.tag, base := s.bufBase t (s.handle t (m.window.toNat % 32)) true + m.wofs.toNat
                       len := m.wlm1.toNat + 1, got := 0, lastSeen := false } : PutWrite) = w
    have hBase : w.base + m.sofs.toNat = a := by rw [← hw]
    have hId : w.window = m.window := by rw [← hw]
    have hOpen : w.epoch = BitVec.ofNat 32 (hf (s.handle t (m.window.toNat % 32)) 63 32) := by
      rw [← hw, State.putCheck_epoch hWindow hCheck, BitVec.ofNat_toNat, BitVec.setWidth_eq]
    have hTile : (s.modTile t fun tl => { tl with writes := tl.writes ++ [w] }).tile t =
        { s.tile t with writes := (s.tile t).writes ++ [w] } := State.modTile_tile_same ..
    obtain ⟨hSp, hHandles, hSeq, hWrites, hLanded, hHbm, hSent, hOther, hPart⟩ := State.putData_landed (w := w) (m := m) (data := data)
      (s := s.modTile t fun tl => { tl with writes := tl.writes ++ [w] }) (t := t) (by rw [hTile]; exact hHeld)
      (by rw [hTile]; exact hLate) (by rw [hTile]; exact hQuiet) (hBase ▸ hAddr)
      (by rw [hBase, State.dmaCycle_modTile _ _ rfl, hTile]; exact hHold)
      (by rw [hId, State.handle, hTile]; exact hOpen)
    rw [hTile] at hSp hHandles hSeq hWrites hLanded
    rw [hBase] at hSp
    rw [hId] at hLanded
    refine ⟨hSp, hHandles, hSeq, hWrites.trans (List.length_append ..), hLanded, hHbm, hSent, fun x hx => ?_, fun p => ?_⟩
    · rw [hOther x hx, State.modTile_tile_other _ _ hx]
    · rw [hPart, State.modTile_part]
  · intro s w t hTile hWrites hWhole hHeld
    have hFind : (s.tile t).writes.find? (fun x => decide (x.window = w.window) && decide (x.via = w.via) &&
        decide (x.tag = w.tag) && (s.tile t).writeWhole x) = some w := by
      rw [hWrites]
      exact List.find?_cons_of_pos (by simp [hWhole])
    have hExec : exec (.putWriteLanded w.window w.via w.tag) s = execPutWriteLanded w.window w.via w.tag s := rfl
    rw [hExec, execPutWriteLanded, hTile]
    dsimp only
    rw [State.settleDma_free hHeld, hFind]
    dsimp only
    refine congrArg (fun x : State => Host.Outcome.next (x.send (.via w.via) (.ack w.window w.epoch w.tag))) (State.modTile_congr ?_)
    rw [hWrites, List.erase_cons_head]
  · intro s via m data hLive hRuns hRsvd hSound hFirst hBand refused
    have hDark : s.windowDark m.window = false := State.windowDark_of_band hBand
    obtain ⟨hRefuse, -⟩ := exec_putFirst hLive hRuns hRsvd hSound hFirst hDark (via := via)
    refine ⟨fun hw => hRefuse _ (State.putCheck_noWindow via hw), fun t h hw => ?_⟩
    have hCheck := State.putCheck_window via hw
    intro w perm
    refine ⟨fun hp => hRefuse _ ?_, fun hp hEpoch => hRefuse _ ?_, fun hp hEpoch hGrant => hRefuse _ ?_,
      fun hp hEpoch hGrant hShut => hRefuse _ ?_⟩
    · exact hCheck.trans (if_pos hp)
    · exact hCheck.trans ((if_neg fun e => Bool.noConfusion (hp.symm.trans e)).trans (if_pos hEpoch))
    · exact hCheck.trans ((if_neg fun e => Bool.noConfusion (hp.symm.trans e)).trans ((if_neg (not_not_intro hEpoch)).trans (if_pos hGrant)))
    · exact hCheck.trans ((if_neg fun e => Bool.noConfusion (hp.symm.trans e)).trans ((if_neg (not_not_intro hEpoch)).trans
        ((if_neg fun e => Bool.noConfusion (hGrant.symm.trans e)).trans (if_pos hShut))))

end Sys2Proof.Machine
end

section
/-! ### What a stop, a withdrawal and the loss of ports leave alone (R179, R180, R299, R308, R447) -/

namespace Sys2Proof.Machine

/-! #### Banks without contents -/

/-- No bank of a tile holds a row. -/
def Tile.Bare (tl : Tile) : Prop := ∀ m, (tl.mac m).bank0.cells = [] ∧ (tl.mac m).bank1.cells = []

theorem Tile.Bare.of_macros {x y : Tile} (h : x.Bare) (hy : y.macros = x.macros) : y.Bare := fun m => by
  rw [Tile.mac, hy]
  exact h m

/-- An entry of a mapped store is the image of the entry, or none is listed. -/
theorem Store.get_map_or {α β : Type} (d : α) (e : β) (f : α → β) (m : Store α) (k : Nat) :
    Store.get e (m.map fun x => (x.1, f x.2)) k = f (Store.get d m k) ∨ Store.get e (m.map fun x => (x.1, f x.2)) k = e := by
  induction m with
  | nil => exact .inr rfl
  | cons x m ih =>
    rw [List.map_cons, Store.get, Store.get]
    split
    · exact .inl rfl
    · exact ih

/-- A change of every macro that leaves banks without rows, where they had none. -/
theorem Tile.bare_map {tl x : Tile} {f : Macro → Macro} (hx : x.macros = tl.macros.map fun y => (y.1, f y.2))
    (hf : ∀ m, (f (tl.mac m)).bank0.cells = [] ∧ (f (tl.mac m)).bank1.cells = []) : x.Bare := fun m => by
  rw [Tile.mac, hx]
  rcases Store.get_map_or ({} : Macro) ({} : Macro) f tl.macros m with h | h
  · rw [h]
    exact hf m
  · rw [h]
    exact ⟨rfl, rfl⟩

theorem Bank.clearLoad_cells (b : Bank) : b.clearLoad.cells = b.cells := rfl

theorem Macro.modShadow_cells {x y : Macro} (h : x.bank0.cells = [] ∧ x.bank1.cells = []) {f : Bank → Bank}
    (hf : ∀ b, (f b).cells = b.cells) (hy0 : y.bank0 = x.bank0 := by rfl) (hy1 : y.bank1 = x.bank1 := by rfl) :
    (y.modShadow f).bank0.cells = [] ∧ (y.modShadow f).bank1.cells = [] := by
  rw [← hy0, ← hy1] at h
  unfold Macro.modShadow Macro.modBank
  split
  · exact ⟨(hf _).trans h.1, h.2⟩
  · exact ⟨h.1, (hf _).trans h.2⟩

theorem Macro.clear_cells {mc : Macro} (h : mc.bank0.cells = [] ∧ mc.bank1.cells = []) (cycle : Nat) :
    (mc.clear cycle).bank0.cells = [] ∧ (mc.clear cycle).bank1.cells = [] := by
  unfold Macro.clear
  dsimp only
  refine Macro.modShadow_cells h fun b => ?_
  split <;> rfl

theorem Tile.Bare.clear {tl : Tile} (h : tl.Bare) : tl.clear.Bare := by
  have hLand : tl.landAll.Bare := h.of_macros (tl.servedOnly_landAll.proj Tile.macros)
  exact Tile.bare_map (tl := tl.landAll) (f := fun mc => mc.clear tl.landAll.seq.ac) rfl fun m => Macro.clear_cells (hLand m) _

theorem Tile.Bare.atStop {tl : Tile} (h : tl.Bare) (cycle : Nat) : (tl.atStop cycle).Bare := by
  have hReach : (tl.modSeq (·.reach cycle)).Bare := h.of_macros rfl
  unfold Tile.atStop
  extract_lets x
  have hx : x.Bare := hReach.clear
  split
  · exact hx.of_macros rfl
  · exact hx

theorem Tile.bare_dark (tl : Tile) : tl.dark.Bare := fun m => by
  rw [Tile.dark_mac]
  exact ⟨rfl, rfl⟩

/-! #### The relation -/

/-- `s'` differs from `s` in tiles, frames, gates and the traffic of messages at most, and no bank gains rows. -/
structure State.Volatile (s s' : State) : Prop where
  state : s' = { s with
    tiles := s'.tiles, clusters := s'.clusters, events := s'.events, sent := s'.sent, wire := s'.wire, ports := s'.ports
    engines := s'.engines, groups := s'.groups, parts := s'.parts, hbm := s'.hbm, obsWindow := s'.obsWindow
    obsBytes := s'.obsBytes, datagrams := s'.datagrams, discarded := s'.discarded, freeCtr := s'.freeCtr
    neighbours := s'.neighbours, unresolved := s'.unresolved }
  bare : ∀ t, (s.tile t).Bare → (s'.tile t).Bare

namespace State.Volatile

theorem refl (s : State) : s.Volatile s := ⟨rfl, fun _ => id⟩

theorem trans {a b c : State} (h : a.Volatile b) (h' : b.Volatile c) : a.Volatile c where
  state := h'.state.trans (congrArg (fun x : State => { x with
    tiles := c.tiles, clusters := c.clusters, events := c.events, sent := c.sent, wire := c.wire, ports := c.ports
    engines := c.engines, groups := c.groups, parts := c.parts, hbm := c.hbm, obsWindow := c.obsWindow
    obsBytes := c.obsBytes, datagrams := c.datagrams, discarded := c.discarded, freeCtr := c.freeCtr
    neighbours := c.neighbours, unresolved := c.unresolved }) h.state)
  bare t ht := h'.bare t (h.bare t ht)

theorem foldl {α : Type} {s s' : State} (h : s.Volatile s') {f : State → α → State}
    (hf : ∀ (x : State) a, x.Volatile (f x a)) (l : List α) : s.Volatile (l.foldl f s') :=
  foldl_keeps l h fun y a hy => hy.trans (hf y a)

/-- What looks at nothing of this is the same. -/
theorem proj {α : Type} {s s' : State} (h : s.Volatile s') (f : State → α)
    (hf : f { s with
      tiles := s'.tiles, clusters := s'.clusters, events := s'.events, sent := s'.sent, wire := s'.wire, ports := s'.ports
      engines := s'.engines, groups := s'.groups, parts := s'.parts, hbm := s'.hbm, obsWindow := s'.obsWindow
      obsBytes := s'.obsBytes, datagrams := s'.datagrams, discarded := s'.discarded, freeCtr := s'.freeCtr
      neighbours := s'.neighbours, unresolved := s'.unresolved } = f s := by rfl) : f s' = f s :=
  (congrArg f h.state).trans hf

theorem of_served {s s' : State} (h : s.ServedOnly s') : s.Volatile s' := by
  have hGroups : s'.groups = s.groups := h.proj State.groups
  have hCount : s'.discarded = s.discarded := h.proj State.discarded
  refine ⟨?_, fun t ht => ht.of_macros ((h.tile t).proj Tile.macros)⟩
  rw [hGroups, hCount]
  exact h.state

theorem of_traffic {s s' : State} (h : s.TrafficOnly s') : s.Volatile s' := of_served (.of_traffic h)

theorem of_windows {s s' : State} (h : s.WindowsOnly s') : s.Volatile s' := by
  have hGroups : s'.groups = s.groups := h.proj State.groups
  have hCount : s'.discarded = s.discarded := h.proj State.discarded
  have hClusters : s'.clusters = s.clusters := h.proj State.clusters
  have hEvents : s'.events = s.events := h.proj State.events
  refine ⟨?_, fun t ht => ht.of_macros ((h.tile t).proj Tile.macros)⟩
  rw [hGroups, hCount, hClusters, hEvents]
  exact h.state

theorem of_gate {s s' : State} (h : s.GateOnly s') : s.Volatile s' := by
  have hTiles : s'.tiles = s.tiles := (congrArg State.tiles h.state).trans rfl
  have hClusters : s'.clusters = s.clusters := (congrArg State.clusters h.state).trans rfl
  have hEvents : s'.events = s.events := (congrArg State.events h.state).trans rfl
  have hBase : s'.epochBase = s.epochBase := (congrArg State.epochBase h.state).trans rfl
  refine ⟨?_, fun t ht => ?_⟩
  · rw [hTiles, hClusters, hEvents]
    exact h.state
  · rw [State.tile, hTiles, hBase]
    exact ht

end State.Volatile

theorem State.volatile_modPart (s : State) (p : PartId) (f : Part → Part) : s.Volatile (s.modPart p f) := ⟨rfl, fun _ => id⟩

theorem State.volatile_modEngine (s : State) (e : EngineId) (f : Engine → Engine) : s.Volatile (s.modEngine e f) :=
  ⟨rfl, fun _ => id⟩

theorem State.volatile_modPort (s : State) (p : PortId) (f : Port → Port) : s.Volatile (s.modPort p f) := ⟨rfl, fun _ => id⟩

theorem State.volatile_modTile (s : State) (t : TileId) {f : Tile → Tile} (hf : ∀ x : Tile, x.Bare → (f x).Bare) :
    s.Volatile (s.modTile t f) := by
  refine ⟨rfl, fun x hx => ?_⟩
  by_cases h : x = t
  · subst h
    rw [State.modTile_tile_same]
    exact hf _ hx
  · rw [State.modTile_tile_other _ _ h]
    exact hx

/-! #### Stops and withdrawals -/

theorem State.volatile_sendCancels (s : State) (p : PartId) (frame : BitVec 32) (fresh : Bool) :
    s.Volatile (s.sendCancels p frame fresh) := by
  unfold State.sendCancels
  extract_lets tbl
  refine foldl_keeps _ (.refl s) fun y rid hy => ?_
  extract_lets e x g
  split
  · exact hy
  · split
    · exact hy.trans (.of_traffic (y.trafficOnly_send ..))
    · split
      · exact hy.trans (y.volatile_modPart p _)
      · exact hy

theorem State.volatile_sendKind4 (s : State) (p : PartId) : s.Volatile (s.sendKind4 p) := by
  unfold State.sendKind4
  split
  · exact .refl s
  · split
    · exact .refl s
    · exact State.Volatile.trans (.of_traffic (s.trafficOnly_sendAlert p _)) (State.volatile_modPart _ p _)

theorem State.volatile_withhold (s : State) (p : PartId) (elapsed : Nat) : s.Volatile (s.withhold p elapsed) := by
  unfold State.withhold
  extract_lets status timing s1
  have hs1 : s.Volatile s1 := by
    subst s1
    unfold State.withheldAlert
    split
    · exact (s.volatile_modPart p _).trans (State.volatile_sendKind4 ..)
    · exact .refl s
  exact hs1.trans (State.volatile_modPart ..)

theorem State.volatile_stopTile (s : State) (t : TileId) : s.Volatile (s.stopTile t) := by
  have hStop : s.Volatile (s.modTile t fun tl => tl.atStop (s.liveAc t)) := s.volatile_modTile t fun _ hx => hx.atStop _
  exact hStop.trans (.of_served (State.servedOnly_freeDma ..))

theorem State.volatile_stopTiles (s : State) (p : PartId) : s.Volatile (s.stopTiles p) := by
  rw [State.stopTiles_eq]
  have hTiles : s.Volatile ((s.tilesOf p).foldl State.stopTile s) := (State.Volatile.refl s).foldl State.volatile_stopTile _
  exact (hTiles.trans (.of_windows (State.windowsOnly_advanceAll ..))).trans (State.volatile_modPart ..)

theorem State.volatile_stopFrame (s : State) (p : PartId) (cause : BitVec 4) (layer : BitVec 16) (elapsed : Nat) :
    s.Volatile (s.stopFrame p cause layer elapsed) := by
  unfold State.stopFrame
  split
  · extract_lets s1
    have hs1 : s.Volatile s1 := (s.volatile_modPart p _).trans (State.volatile_modPart ..)
    exact ((hs1.trans (State.volatile_stopTiles ..)).trans (State.volatile_sendCancels ..)).trans (State.volatile_withhold ..)
  · exact .refl s

theorem State.volatile_withdraw (s : State) (p : PartId) : s.Volatile (s.withdraw p) := by
  unfold State.withdraw
  extract_lets pt s1
  have hs1 : s.Volatile s1 := by
    subst s1
    split
    · exact State.Volatile.trans (.of_gate (s.gateOnly_sendWithdraw p)) (State.volatile_sendCancels ..)
    · exact .refl s
  exact hs1.trans (State.volatile_modPart ..)

theorem State.volatile_haltAll (s : State) (cause : BitVec 4) : s.Volatile (s.haltAll cause) :=
  (State.Volatile.refl s).foldl (fun x p => ((x.volatile_stopFrame p ..).trans (State.volatile_withdraw ..)).trans
    (State.volatile_modPart ..)) _

theorem State.volatile_raise (s : State) (code : BitVec 16) (cls : BitVec 3) (src : BitVec 24) (ids : Ids)
    (part : Option PartId) (detail : List Byte) : s.Volatile (s.raise code cls src ids part detail) :=
  .of_served (s.servedOnly_raise ..)

/-! #### Ports and engines -/

theorem State.volatile_portDown (s : State) (p : PortId) : s.Volatile (s.portDown p) := by
  unfold State.portDown
  extract_lets left s1
  have hs1 : s.Volatile s1 := ⟨rfl, fun _ => id⟩
  refine foldl_keeps left hs1 fun y f hy => ?_
  split
  · extract_lets q way
    split
    · refine hy.trans ?_
      unfold State.handOver
      split
      · exact ⟨rfl, fun _ => id⟩
      · exact State.volatile_modPort ..
    · exact hy.trans (State.volatile_modEngine ..)
  · exact hy.trans (State.volatile_modEngine ..)

theorem State.volatile_toBypass (s : State) (e : EngineId) (cause : BitVec 8) : s.Volatile (s.toBypass e cause) := by
  unfold State.toBypass
  split
  · exact .refl s
  · extract_lets s1
    exact (s.volatile_modEngine e _).foldl State.volatile_portDown _

theorem State.volatile_engineDark (s : State) (e : EngineId) : s.Volatile (s.engineDark e) := by
  unfold State.engineDark
  extract_lets s1
  exact ((s.volatile_toBypass e 4).trans (State.volatile_modEngine ..)).foldl State.volatile_portDown _

theorem State.volatile_emergency (s : State) (src : BitVec 24) : s.Volatile (s.emergency src) := by
  unfold State.emergency
  split
  · exact .of_traffic (s.trafficOnly_send ..)
  · exact .refl s

/-! #### Dumps -/

/-- `s'` differs from `s` in the dump and in what holds it at most. -/
structure State.DumpOnly (s s' : State) : Prop where
  state : s' = { s with parts := s'.parts, hbm := s'.hbm, dump := s'.dump, flash := s'.flash }
  part : ∀ p, ∃ held, s'.part p = { s.part p with dumpHeld := held }

namespace State.DumpOnly

theorem refl (s : State) : s.DumpOnly s := ⟨rfl, fun p => ⟨(s.part p).dumpHeld, rfl⟩⟩

theorem trans {a b c : State} (h : a.DumpOnly b) (h' : b.DumpOnly c) : a.DumpOnly c where
  state := h'.state.trans (congrArg (fun x : State => { x with
    parts := c.parts, hbm := c.hbm, dump := c.dump, flash := c.flash }) h.state)
  part p := by
    obtain ⟨x, hx⟩ := h.part p
    obtain ⟨y, hy⟩ := h'.part p
    exact ⟨y, by rw [hy, hx]⟩

theorem proj {α : Type} {s s' : State} (h : s.DumpOnly s') (f : State → α)
    (hf : f { s with parts := s'.parts, hbm := s'.hbm, dump := s'.dump, flash := s'.flash } = f s := by rfl) : f s' = f s :=
  (congrArg f h.state).trans hf

theorem of_hbm {s s' : State} (h : s.HbmOnly s') : s.DumpOnly s' := by
  have hParts : s'.parts = s.parts := h.proj State.parts
  have hDump : s'.dump = s.dump := h.proj State.dump
  have hFlash : s'.flash = s.flash := h.proj State.flash
  refine ⟨?_, fun p => ⟨(s.part p).dumpHeld, ?_⟩⟩
  · rw [hParts, hDump, hFlash]
    exact h
  · rw [State.part, hParts]
    rfl

end State.DumpOnly

theorem State.hbmOnly_foldl {α : Type} {s s' : State} (h : s.HbmOnly s') {f : State → α → State}
    (hf : ∀ (x : State) a, x.HbmOnly (f x a)) (l : List α) : s.HbmOnly (l.foldl f s') :=
  foldl_keeps l h fun y a hy => hy.trans (hf y a)

theorem State.hbmOnly_set (s : State) (m : Store Byte) : s.HbmOnly { s with hbm := m } := rfl

theorem State.dumpOnly_putDump (s : State) (cls parts : BitVec 8) (src : BitVec 24) (detail : BitVec 8) (flashOnly : Bool) :
    s.DumpOnly (s.putDump cls parts src detail flashOnly) ∧ (s.putDump cls parts src detail flashOnly).dump ≠ none := by
  unfold State.putDump
  extract_lets words regs tiles rings n1 n2 n3 sizes n4 total sects d head old cleared written scratch saved flash s1
  have hCleared : s.HbmOnly cleared := s.hbmOnly_set _
  have hWritten : s.HbmOnly written :=
    ((hCleared.trans (State.hbmOnly_hbmWrite ..)).trans (State.hbmOnly_hbmWrite ..)).trans (State.hbmOnly_hbmWrite ..)
  have hScratch : s.HbmOnly scratch := State.hbmOnly_foldl hWritten (fun x _ => x.hbmOnly_set _) tiles.zipIdx
  have hSaved : s.HbmOnly saved := by
    subst saved
    split
    · exact s.hbmOnly_set s.hbm
    · exact (State.hbmOnly_foldl hScratch (fun x r => x.hbmOnly_set _) rings.zipIdx).trans (State.hbmOnly_keepHard ..)
  have hDumped : s.DumpOnly s1 := State.DumpOnly.trans (.of_hbm hSaved) ⟨rfl, fun p => ⟨(saved.part p).dumpHeld, rfl⟩⟩
  have hDump : s1.dump = some d := rfl
  clear_value s1 d
  refine foldl_keeps (P := fun x : State => s.DumpOnly x ∧ x.dump ≠ none) allParts ⟨hDumped, by rw [hDump]; exact Option.some_ne_none d⟩
    fun x p hx => ?_
  obtain ⟨hOnly, hSome⟩ := hx
  refine ⟨hOnly.trans ⟨rfl, fun q => ?_⟩, hSome⟩
  by_cases hq : q = p
  · subst hq
    rw [State.modPart_part_same]
    exact ⟨_, rfl⟩
  · rw [State.modPart_part_other _ _ hq]
    exact ⟨(x.part q).dumpHeld, rfl⟩

theorem State.dumpOnly_writeDump (s : State) (cls parts : BitVec 8) (src : BitVec 24) (detail : BitVec 8) (flashOnly : Bool) :
    s.DumpOnly (s.writeDump cls parts src detail flashOnly) ∧ (s.writeDump cls parts src detail flashOnly).dump ≠ none := by
  unfold State.writeDump
  split
  · exact s.dumpOnly_putDump ..
  next d _ =>
    split
    · exact s.dumpOnly_putDump ..
    · extract_lets d1 d2 flags old fields head flash s1
      have hs1 : s.DumpOnly s1 := ⟨rfl, fun p => ⟨(s.part p).dumpHeld, rfl⟩⟩
      have hDump : s1.dump = some d2 := rfl
      clear_value s1 d2
      have hNotNone {x : State} (h : x.dump = s1.dump) : x.dump ≠ none := by
        rw [h, hDump]
        exact Option.some_ne_none d2
      split
      · exact ⟨hs1, hNotNone rfl⟩
      · have hBytes := (s1.hbmOnly_hbmWrite (dumpBase + 13) fields).trans (State.hbmOnly_keepHard _ s (dumpBase + 13) 3)
        exact ⟨hs1.trans (.of_hbm hBytes), hNotNone (hBytes.proj State.dump)⟩

end Sys2Proof.Machine
end

section
/-! ### Tamper and the TAP (R204, R394, R408, R412, R413) -/

namespace Sys2Proof.Machine

/-! #### The tiles of a band -/

theorem State.volatile_wipeSealed (s : State) (t : TileId) : s.Volatile (s.wipeSealed t) := by
  unfold State.wipeSealed
  refine State.Volatile.foldl (s.volatile_modTile t fun x hx => hx.of_macros (x.servedOnly_landAll.proj Tile.macros)) (fun x h => ?_) _
  exact x.volatile_modTile t fun y hy => hy.of_macros rfl

theorem State.volatile_clearHandles (s : State) (t : TileId) : s.Volatile (s.clearHandles t) := by
  unfold State.clearHandles
  extract_lets s1 table shut
  have hs1 : s.Volatile s1 := (State.Volatile.refl s).foldl (fun x h => .of_windows (x.windowsOnly_advance t h false)) _
  exact hs1.trans (s1.volatile_modTile t fun x hx => hx.of_macros rfl)

/-- A tile that is wiped holds no row. -/
theorem State.wipeTile_bare (s : State) (t : TileId) : s.Volatile (s.wipeTile t) ∧ ((s.wipeTile t).tile t).Bare := by
  unfold State.wipeTile
  extract_lets s1 bare
  have hs1 : s.Volatile s1 := (s.volatile_wipeSealed t).trans (State.volatile_clearHandles ..)
  have hBare (x : Tile) : ({ x with macros := x.macros.map fun y => (y.1, bare y.2), step := none } : Tile).Bare :=
    Tile.bare_map (tl := x) (f := bare) rfl fun m => ⟨rfl, rfl⟩
  have hs2 := s1.volatile_modTile t (f := fun tl => { tl with macros := tl.macros.map fun x => (x.1, bare x.2), step := none })
    fun x _ => hBare x
  have hFree := State.Volatile.of_served (State.servedOnly_freeDma
    (s1.modTile t fun tl => { tl with macros := tl.macros.map fun x => (x.1, bare x.2), step := none }) t)
  refine ⟨(hs1.trans hs2).trans hFree, hFree.bare t ?_⟩
  rw [State.modTile_tile_same]
  exact hBare _

/-- What the tamper of a band leaves: the other domains, the island and the banks that hold nothing. -/
structure State.Tampers (s s' : State) : Prop where
  island : s'.island = s.island
  bare : ∀ t, (s.tile t).Bare → (s'.tile t).Bare

theorem State.Tampers.trans {a b c : State} (h : a.Tampers b) (h' : b.Tampers c) : a.Tampers c :=
  ⟨h'.island.trans h.island, fun t ht => h'.bare t (h.bare t ht)⟩

theorem State.Tampers.of_volatile {s s' : State} (h : s.Volatile s') : s.Tampers s' := ⟨h.proj State.island, h.bare⟩

theorem State.tamperBand_on {s : State} {b : BandId} (h : s.dom b.val = .on) : s.Volatile (s.tamperBand b) ∧
    ∀ t, bandOf (clusterOf t) = b → ((s.tamperBand b).tile t).Bare := by
  have hEff : s.tamperBand b = (bandTiles b).foldl State.wipeTile s := by
    unfold State.tamperBand
    rw [h]
    rfl
  rw [hEff]
  refine ⟨(State.Volatile.refl s).foldl (fun x t => (x.wipeTile_bare t).1) _, fun t ht => ?_⟩
  exact foldl_reaches (P := fun _ => True) (Q := fun x : State => (x.tile t).Bare) (nodup_bandTiles b) (mem_bandTiles.mpr ht)
    (fun _ _ _ _ => trivial) (fun x c _ hx => (x.wipeTile_bare c).1.bare t hx) (fun x _ => (x.wipeTile_bare t).2) trivial

theorem State.tamperBand_tampers (s : State) (b : BandId) : s.Tampers (s.tamperBand b) ∧
    ∀ c : BandId, c ≠ b → (s.tamperBand b).dom c.val = s.dom c.val := by
  cases hDom : s.dom b.val with
  | on =>
    have hBand := (State.tamperBand_on hDom).1
    exact ⟨.of_volatile hBand, fun c _ => hBand.proj fun x => x.dom c.val⟩
  | off =>
    unfold State.tamperBand
    rw [hDom]
    exact ⟨⟨rfl, fun _ => id⟩, fun _ _ => rfl⟩
  | _ =>
    unfold State.tamperBand
    rw [hDom]
    dsimp only
    have hTiles : s.Volatile ((bandTiles b).foldl (fun s t => s.modTile t Tile.dark) s) :=
      (State.Volatile.refl s).foldl (fun x t => x.volatile_modTile t fun y _ => y.bare_dark) _
    generalize hw : (bandTiles b).foldl (fun s t => s.modTile t Tile.dark) s = w at hTiles
    have hEach : s.each (bandTiles b) (fun s t => s.modTile t Tile.dark) = w := hw
    rw [hEach]
    refine ⟨⟨hTiles.proj State.island, hTiles.bare⟩, fun c hc => ?_⟩
    refine (Store.get_set_other _ _ _ fun h => hc (Fin.ext h)).trans ?_
    exact hTiles.proj fun x => x.dom c.val

theorem State.foldl_tamperBand {l : List BandId} (hl : l.Nodup) (s : State) : s.Tampers (l.foldl State.tamperBand s) ∧
    ∀ t : TileId, bandOf (clusterOf t) ∈ l → s.dom (bandOf (clusterOf t)).val = .on → ((l.foldl State.tamperBand s).tile t).Bare := by
  refine ⟨foldl_keeps (P := fun x : State => s.Tampers x) _ ⟨rfl, fun _ => id⟩ fun x b hx => hx.trans (x.tamperBand_tampers b).1,
    fun t hb ht => ?_⟩
  exact foldl_reaches (P := fun x : State => x.dom (bandOf (clusterOf t)).val = .on) (Q := fun x : State => (x.tile t).Bare)
    hl hb
    (fun x b hb hx => ((x.tamperBand_tampers b).2 _ hb.symm).trans hx) (fun x b _ hx => (x.tamperBand_tampers b).1.bare t hx)
    (fun x hx => (State.tamperBand_on hx).2 t rfl) ht

theorem State.tamperOptics_spec (s : State) : s.Tampers s.tamperOptics ∧ s.tamperOptics.lasersOn = 0 := by
  unfold State.tamperOptics
  extract_lets s1
  have hs1 : s.Volatile s1 := by
    refine (State.Volatile.refl s).foldl (fun x e => ?_) _
    extract_lets y
    have hy : x.Volatile y := (x.volatile_modEngine e _).trans (State.volatile_toBypass ..)
    split
    · exact hy.foldl State.volatile_portDown _
    · exact hy
  clear_value s1
  exact ⟨⟨hs1.proj State.island, hs1.bare⟩, rfl⟩

theorem State.tamperAll_spec {l : List BandId} (hl : l.Nodup) (hAll : ∀ b, b ∈ l) (s : State) {x : State}
    (hx : x = (s.each l State.tamperBand).tamperOptics) : x.island = s.island ∧ x.lasersOn = 0 ∧
      ∀ t : TileId, s.dom (bandOf (clusterOf t)).val = .on → (x.tile t).Bare := by
  obtain ⟨hBands, hBare⟩ := State.foldl_tamperBand hl s
  obtain ⟨hOptics, hLasers⟩ := State.tamperOptics_spec (l.foldl State.tamperBand s)
  rw [hx]
  exact ⟨hOptics.island.trans hBands.island, hLasers, fun t ht => hOptics.bare t (hBare t (hAll _) ht)⟩

/-! #### The fault that follows -/

theorem State.DumpOnly.tampers {s s' : State} (h : s.DumpOnly s') : s.Tampers s' ∧ s'.lasersOn = s.lasersOn :=
  ⟨⟨h.proj State.island, fun t ht => ht.of_macros (h.proj fun x => (x.tile t).macros)⟩, h.proj State.lasersOn⟩

theorem State.opticsOff_tampers (s : State) : s.Tampers s.opticsOff ∧ s.opticsOff.lasersOn = s.lasersOn := by
  unfold State.opticsOff
  extract_lets w
  have hw : s.Volatile w := (State.Volatile.refl s).foldl State.volatile_engineDark _
  clear_value w
  exact ⟨⟨hw.proj State.island, hw.bare⟩, hw.proj State.lasersOn⟩

theorem State.devFatalNow_tampers (s : State) (detail : BitVec 8) (src : BitVec 24) :
    s.Tampers (s.devFatalNow detail src) ∧ (s.devFatalNow detail src).lasersOn = s.lasersOn := by
  unfold State.devFatalNow
  extract_lets s1 alert pins s2 parts s3 dark
  have hs1 : s.Volatile s1 := (s.volatile_haltAll 0xE).trans (State.volatile_raise ..)
  have hs2 : s.Tampers s2 ∧ s2.lasersOn = s.lasersOn := ⟨⟨hs1.proj State.island, hs1.bare⟩, hs1.proj State.lasersOn⟩
  have hDump := (s2.dumpOnly_writeDump 5 parts src detail (decide (detail = 1 ∨ detail = 2))).1.tampers
  have hs3 : s2.Tampers s3 ∧ s3.lasersOn = s2.lasersOn := by
    have hMail := (s2.writeDump 5 parts src detail (decide (detail = 1 ∨ detail = 2))).volatile_emergency src
    exact ⟨hDump.1.trans (.of_volatile hMail), (hMail.proj State.lasersOn).trans hDump.2⟩
  have hOff : s3.Tampers dark ∧ dark.lasersOn = s3.lasersOn := s3.opticsOff_tampers
  clear_value s1 alert pins s2 s3 parts dark
  exact ⟨(hs2.1.trans hs3.1).trans (hOff.1.trans ⟨rfl, fun _ => id⟩), hOff.2.trans (hs3.2.trans hs2.2)⟩

/-- An admission and an enrolment that end leave the secure SRAM empty, where it is. -/
theorem State.abandonAll_island (s : State) (p : PartId) :
    (s.abandonAll p).island.tamper = s.island.tamper ∧ (s.abandonAll p).island.tsrc = s.island.tsrc ∧
      (s.island.sram = {} → (s.abandonAll p).island.sram = {}) ∧ (s.abandonAll p).domains = s.domains := by
  have hPart : (s.dropModelKey p).Volatile (s.abandonAll p) := by
    unfold State.abandonAll
    extract_lets s1
    have hs1 : (s.dropModelKey p).Volatile s1 := State.volatile_modPart ..
    split
    · exact hs1
    · exact (hs1.trans (State.volatile_modPart ..)).trans (State.volatile_modPart ..)
  have hIsland : (s.abandonAll p).island = (s.dropModelKey p).island := hPart.proj State.island
  have hDomains : (s.abandonAll p).domains = s.domains := hPart.proj State.domains
  rw [hIsland]
  refine ⟨rfl, rfl, fun h => ?_, hDomains⟩
  unfold State.dropModelKey
  dsimp only
  rw [h]
  rfl

theorem State.each_abandonAll (l : List PartId) (s : State) {x : State} (hx : x = s.each l State.abandonAll) :
    x.island.tamper = s.island.tamper ∧ x.island.tsrc = s.island.tsrc ∧ (s.island.sram = {} → x.island.sram = {}) ∧
      x.domains = s.domains := by
  subst hx
  unfold State.each
  induction l generalizing s with
  | nil => exact ⟨rfl, rfl, id, rfl⟩
  | cons p l ih =>
    obtain ⟨hTamper, hSource, hSram, hDomains⟩ := s.abandonAll_island p
    obtain ⟨hTamper', hSource', hSram', hDomains'⟩ := ih (s.abandonAll p)
    exact ⟨hTamper'.trans hTamper, hSource'.trans hSource, fun h => hSram' (hSram h), hDomains'.trans hDomains⟩

/-- What the first tamper leaves (R412, R413). -/
def State.tampered (s : State) (source : Fin 5) : State :=
  let island : Island := { s.island with tamper := true, tsrc := BitVec.ofNat 5 (2 ^ source.val), sram := {} }
  let s := ({ s with island }).haltAll 0xE
  let s := s.each allParts State.abandonAll
  let s := (s.each (List.finRange 16) State.tamperBand).tamperOptics
  let src := s.srcH 2 0
  if s.running then s.devFatalNow 3 src
  else if s.phase = .fatal ∧ s.dump.isSome = true then s.writeDump 5 0 src 3 false
  else s

theorem State.tampered_spec (s : State) (src : Fin 5) : (s.tampered src).island.tamper = true ∧
    (s.tampered src).island.tsrc = BitVec.ofNat 5 (2 ^ src.val) ∧ (s.tampered src).island.sram = {} ∧ (s.tampered src).lasersOn = 0 ∧
      ∀ t : TileId, s.dom (bandOf (clusterOf t)).val = .on → ((s.tampered src).tile t).Bare := by
  unfold State.tampered
  extract_lets old island s1 s2 s3 at_
  have hs1 : s1.island = island ∧ s1.domains = s.domains := by
    have h := State.volatile_haltAll { s with island } 0xE
    exact ⟨h.proj State.island, h.proj State.domains⟩
  have hIsland : island.tamper = true ∧ island.tsrc = BitVec.ofNat 5 (2 ^ src.val) ∧ island.sram = {} := ⟨rfl, rfl, rfl⟩
  clear_value island s1
  have hs2 : s2.island.tamper = true ∧ s2.island.tsrc = BitVec.ofNat 5 (2 ^ src.val) ∧ s2.island.sram = {} ∧
      s2.domains = s.domains := by
    obtain ⟨hTamper, hSource, hSram, hDomains⟩ := s1.each_abandonAll allParts (x := s2) rfl
    rw [hs1.1] at hTamper hSource hSram
    exact ⟨hTamper.trans hIsland.1, hSource.trans hIsland.2.1, hSram hIsland.2.2, hDomains.trans hs1.2⟩
  clear_value s2
  have hs3 : s3.island = s2.island ∧ s3.lasersOn = 0 ∧
      ∀ t : TileId, s.dom (bandOf (clusterOf t)).val = .on → (s3.tile t).Bare := by
    obtain ⟨hKept, hLasers, hBare⟩ := State.tamperAll_spec (List.nodup_finRange 16) List.mem_finRange s2 (x := s3) rfl
    refine ⟨hKept, hLasers, fun t ht => hBare t ?_⟩
    rw [State.dom, hs2.2.2.2]
    exact ht
  clear_value s3 at_
  obtain ⟨hKept, hLasers, hBare⟩ := hs3
  obtain ⟨hTamper, hSource, hSram, -⟩ := hs2
  have hEnd {x : State} (hx : s3.Tampers x ∧ x.lasersOn = s3.lasersOn) : x.island.tamper = true ∧
      x.island.tsrc = BitVec.ofNat 5 (2 ^ src.val) ∧ x.island.sram = {} ∧ x.lasersOn = 0 ∧
        ∀ t : TileId, s.dom (bandOf (clusterOf t)).val = .on → (x.tile t).Bare := by
    rw [hx.1.island, hKept, hx.2]
    exact ⟨hTamper, hSource, hSram, hLasers, fun t ht => hx.1.bare t (hBare t ht)⟩
  split
  · exact hEnd (s3.devFatalNow_tampers 3 at_)
  · split
    · exact hEnd (s3.dumpOnly_writeDump 5 0 at_ 3 false).1.tampers
    · exact hEnd ⟨⟨rfl, fun _ => id⟩, rfl⟩

/-- Settles O40: the first tamper and a later one, and what an access on the TAP pins does. -/
theorem tamperWipesAndJtagGates : Obligations.TamperWipesAndJtagGates := by
  intro s
  refine ⟨fun src hClear => ?_, fun src hSet => ?_, fun data => ?_⟩
  · obtain ⟨hTamper, hSource, hSram, hLasers, hBare⟩ := s.tampered_spec src
    refine ⟨s.tampered src, congrArg Host.Outcome.next (if_neg ?_), hTamper, hSource, hSram, hLasers, fun t ht m => hBare t ht m⟩
    rw [hClear]
    exact Bool.false_ne_true
  · exact congrArg Host.Outcome.next (if_pos hSet)
  · intro out s1 ends
    refine ⟨congrArg Host.Outcome.next (if_neg fun h => h.1 rfl), fun hOpen => ?_, fun hShut net hNet => ?_⟩
    · have hServed (net : JtagNet) : exec (.jtagAccess net data) s = .next (ends
          ((({ s.drawn with jtagOpen := net != JtagNet.boundary }).emit .tap (.jtag out)).jtagEffect net)) :=
        congrArg Host.Outcome.next (if_neg fun h => Bool.noConfusion (hOpen.symm.trans h.2))
      refine ⟨hServed .network, fun x => hServed (.otp x), fun row => ⟨_, hServed (.hardRepair row), ?_⟩⟩
      have hEnds (x : State) : (ends x).hardRepairs = x.hardRepairs := by
        show State.hardRepairs (if x.phase = .service then x.setD29 else x) = _
        split <;> rfl
      rw [hEnds]
      show State.hardRepairs (if s.lcState = 0 then _ else _) = _
      split <;> rfl
    · exact congrArg Host.Outcome.next (if_pos ⟨hNet, hShut⟩)

end Sys2Proof.Machine
end

section
/-! ### Partition-fatal and device-fatal faults (R329, R417, R445 to R448, R479) -/

namespace Sys2Proof.Machine

/-! #### The scratchpads of other tiles -/

/-- The scratchpads of the tiles other than `t` hold what they held. -/
structure State.SpOutside (t : TileId) (s s' : State) : Prop where
  sp : ∀ x, x ≠ t → (s'.tile x).sp = (s.tile x).sp

namespace State.SpOutside

theorem refl (t : TileId) (s : State) : SpOutside t s s := ⟨fun _ _ => rfl⟩

theorem trans {t : TileId} {a b c : State} (h : SpOutside t a b) (h' : SpOutside t b c) : SpOutside t a c :=
  ⟨fun x hx => (h'.sp x hx).trans (h.sp x hx)⟩

theorem foldl {α : Type} {t : TileId} {s s' : State} (h : SpOutside t s s') {f : State → α → State}
    (hf : ∀ (x : State) a, SpOutside t x (f x a)) (l : List α) : SpOutside t s (l.foldl f s') :=
  foldl_keeps l h fun y a hy => hy.trans (hf y a)

theorem of_traffic {t : TileId} {s s' : State} (h : s.TrafficOnly s') : SpOutside t s s' :=
  ⟨fun x _ => h.proj fun y => (y.tile x).sp⟩

theorem modTile (s : State) (t : TileId) (f : Tile → Tile) : SpOutside t s (s.modTile t f) :=
  ⟨fun x hx => by rw [State.modTile_tile_other _ _ hx]⟩

theorem count (t : TileId) (s : State) (c : ClusterId) (w n : Nat) : SpOutside t s (s.count c w n) :=
  ⟨fun x _ => by rw [State.count_tile]⟩

/-- A change of any tile that leaves its scratchpad. -/
theorem modTile_sp (t : TileId) (s : State) (b : TileId) {f : Tile → Tile} (hf : ∀ y, (f y).sp = y.sp) :
    SpOutside t s (s.modTile b f) := by
  refine ⟨fun x _ => ?_⟩
  by_cases hx : x = b
  · subst hx
    rw [State.modTile_tile_same, hf]
  · rw [State.modTile_tile_other _ _ hx]

theorem raise (t : TileId) (s : State) (code : BitVec 16) (cls : BitVec 3) (src : BitVec 24) (ids : Ids)
    (part : Option PartId) (detail : List Byte) : SpOutside t s (s.raise code cls src ids part detail) :=
  ⟨fun x _ => by rw [State.raise_tile]⟩

theorem abortTile (t : TileId) (s : State) (b : TileId) (code : BitVec 16) (cause : BitVec 4) (unit : Nat) (ids : Ids)
    (detail : List Byte) : SpOutside t s (s.abortTile b code cause unit ids detail) := by
  unfold State.abortTile
  extract_lets owner s1
  have hs1 : SpOutside t s s1 := raise ..
  clear_value owner
  split
  · exact ⟨hs1.sp⟩
  · exact hs1

theorem dmaKeep (s : State) (t : TileId) (a : HeldAccess) (addr : Nat) (data : List Byte) :
    SpOutside t s (s.dmaKeep t a addr data) := by
  unfold State.dmaKeep
  extract_lets s1
  have hs1 : SpOutside t s s1 := modTile ..
  split
  · unfold State.landed
    exact hs1.trans ((modTile ..).trans (count ..))
  · exact hs1

theorem dmaPut (s : State) (t : TileId) (place cycle : Nat) (a : HeldAccess) : SpOutside t s (s.dmaPut t place cycle a) := by
  unfold State.dmaPut
  extract_lets tl rd wr s1 met s2
  have hs1 : SpOutside t s s1 := (count ..).trans (modTile ..)
  have hs2 : SpOutside t s s2 := by
    subst s2
    split
    · exact hs1.trans (dmaKeep ..)
    · refine foldl_keeps (P := fun y : State × Nat => SpOutside t s y.1) _ hs1 fun y w hy => ?_
      extract_lets s3 x s4 s5
      have hs4 : SpOutside t s s4 := hy.trans (modTile ..)
      split
      · show SpOutside t s s5
        subst s5
        split
        · split
          · exact hs4.trans (abortTile ..)
          · exact hs4
        · exact hs4
      · exact hy.trans (dmaKeep ..)
  split
  · exact hs2.trans (modTile ..)
  · exact hs2

theorem answerRead (t : TileId) (s : State) (q : HeldRead) : SpOutside t s (s.answerRead q) := by
  unfold State.answerRead
  extract_lets r gone
  have hGone : SpOutside t s gone := of_traffic (s.trafficOnly_send ..)
  split
  · exact hGone
  · extract_lets addr data frame s1 s2
    split
    · exact hGone
    · have hs1 : SpOutside t s s1 := (count ..).trans (modTile_sp t _ _ fun _ => rfl)
      have hs2 : SpOutside t s s2 := hs1.foldl (fun x i => of_traffic (x.trafficOnly_send ..)) _
      split
      · exact hs2.trans (of_traffic (State.trafficOnly_send ..))
      · exact hs2

theorem dmaTry (s : State) (t : TileId) (place : Nat) (a : HeldAccess) : SpOutside t s (s.dmaTry t place a) := by
  unfold State.dmaTry
  extract_lets cycle wait
  split
  · exact modTile ..
  · split
    · exact modTile ..
    · unfold State.dmaAt
      extract_lets s1 wait
      have hs1 : SpOutside t s s1 := modTile ..
      split
      · exact hs1.trans (modTile ..)
      · split
        · exact hs1.trans (dmaPut ..)
        · split
          · exact hs1.trans (modTile ..)
          · exact hs1.trans (answerRead ..)

theorem serveSome (s : State) (t : TileId) (f : HeldAccess → Bool) : SpOutside t s (s.serveSome t f) :=
  (refl t s).foldl (fun x a => by
    unfold State.serveHeld
    exact (modTile ..).trans (dmaTry ..)) _

theorem freeDma (s : State) (t : TileId) : SpOutside t s (s.freeDma t) := (serveSome ..).trans (serveSome ..)

end State.SpOutside

/-! #### What the fault of a partition leaves alone -/

/-- `s'` differs from `s` in what partition `p` holds, besides traffic and records: the others' images and the scratchpads of
tiles that are not its own stay. -/
structure State.Within (p : PartId) (s s' : State) : Prop where
  dict : s'.dict = s.dict
  bands : s'.bands = s.bands
  domains : s'.domains = s.domains
  dumped : s.dump ≠ none → s'.dump ≠ none
  image : ∀ q, q ≠ p → (s'.part q).image = (s.part q).image
  sp : ∀ t, t ∉ s.tilesOf p → (s'.tile t).sp = (s.tile t).sp

theorem State.tilesOf_congr {s s' : State} (h : s'.dict = s.dict) (p : PartId) : s'.tilesOf p = s.tilesOf p := by
  unfold State.tilesOf State.clusterMask State.enabled State.layout State.dval
  rw [h]

namespace State.Within

theorem refl (p : PartId) (s : State) : Within p s s := ⟨rfl, rfl, rfl, id, fun _ _ => rfl, fun _ _ => rfl⟩

theorem trans {p : PartId} {a b c : State} (h : Within p a b) (h' : Within p b c) : Within p a c where
  dict := h'.dict.trans h.dict
  bands := h'.bands.trans h.bands
  domains := h'.domains.trans h.domains
  dumped hs := h'.dumped (h.dumped hs)
  image q hq := (h'.image q hq).trans (h.image q hq)
  sp t ht := (h'.sp t (by rw [State.tilesOf_congr h.dict p]; exact ht)).trans (h.sp t ht)

theorem of_traffic {p : PartId} {s s' : State} (h : s.TrafficOnly s') : Within p s s' :=
  ⟨h.proj State.dict, h.proj State.bands, h.proj State.domains, fun hs => (h.proj State.dump).symm ▸ hs, fun q _ => (h.part q).proj Part.image,
    fun t _ => h.proj fun x => (x.tile t).sp⟩

theorem of_windows {p : PartId} {s s' : State} (h : s.WindowsOnly s') : Within p s s' :=
  ⟨h.proj State.dict, h.proj State.bands, h.proj State.domains, fun hs => (h.proj State.dump).symm ▸ hs, fun q _ => (h.part q).proj Part.image, fun t _ => h.sp t⟩

theorem of_gate {p : PartId} {s s' : State} (h : s.GateOnly s') : Within p s s' := by
  have hTiles : s'.tiles = s.tiles := (congrArg State.tiles h.state).trans rfl
  have hBase : s'.epochBase = s.epochBase := (congrArg State.epochBase h.state).trans rfl
  refine ⟨(congrArg State.dict h.state).trans rfl, (congrArg State.bands h.state).trans rfl,
    (congrArg State.domains h.state).trans rfl, fun hs => ((congrArg State.dump h.state).trans rfl : s'.dump = s.dump).symm ▸ hs, fun q _ => (h.part q).proj Part.image, fun t _ => ?_⟩
  rw [State.tile, hTiles, hBase, State.tile]

theorem of_dump {p : PartId} {s s' : State} (h : s.DumpOnly s') (hDump : s'.dump ≠ none) : Within p s s' := by
  refine ⟨h.proj State.dict, h.proj State.bands, h.proj State.domains, fun _ => hDump, fun q _ => ?_, fun t _ => h.proj fun x => (x.tile t).sp⟩
  obtain ⟨held, hq⟩ := h.part q
  rw [hq]

theorem modPart {p : PartId} (s : State) {q : PartId} {f : Part → Part} (hf : q ≠ p → ∀ x, (f x).image = x.image) :
    Within p s (s.modPart q f) := by
  refine ⟨rfl, rfl, rfl, id, fun x hx => ?_, fun _ _ => rfl⟩
  by_cases h : x = q
  · subst h
    rw [State.modPart_part_same, hf hx]
  · rw [State.modPart_part_other _ _ h]

theorem modOwn (s : State) (p : PartId) (f : Part → Part) : Within p s (s.modPart p f) := modPart s fun h => absurd rfl h

theorem raise (p : PartId) (s : State) (code : BitVec 16) (cls : BitVec 3) (src : BitVec 24) (ids : Ids)
    (part : Option PartId) (detail : List Byte) : Within p s (s.raise code cls src ids part detail) := by
  have h := s.servedOnly_raise code cls src ids part detail
  exact ⟨h.proj State.dict, h.proj State.bands, h.proj State.domains, fun hs => (h.proj State.dump).symm ▸ hs, fun q _ => (h.part q).proj Part.image,
    fun t _ => by rw [State.raise_tile]⟩

/-- A change at a tile of the partition. -/
theorem of_served {p : PartId} {s s' : State} {t : TileId} (h : s.ServedOnly s') (ht : t ∈ s.tilesOf p)
    (hSp : SpOutside t s s') : Within p s s' :=
  ⟨h.proj State.dict, h.proj State.bands, h.proj State.domains, fun hs => (h.proj State.dump).symm ▸ hs, fun q _ => (h.part q).proj Part.image,
    fun x hx => hSp.sp x fun e => hx (e ▸ ht)⟩

theorem modTile {p : PartId} (s : State) {t : TileId} (ht : t ∈ s.tilesOf p) (f : Tile → Tile) : Within p s (s.modTile t f) :=
  ⟨rfl, rfl, rfl, id, fun _ _ => rfl, fun x hx => by rw [State.modTile_tile_other]; exact fun e => hx (e ▸ ht)⟩

theorem freeDma {p : PartId} (s : State) {t : TileId} (ht : t ∈ s.tilesOf p) : Within p s (s.freeDma t) :=
  of_served (s.servedOnly_freeDma t) ht (SpOutside.freeDma s t)

/-- A change of each tile of the partition. -/
theorem eachTile {p : PartId} (s : State) {f : State → TileId → State} (hf : ∀ x t, t ∈ x.tilesOf p → Within p x (f x t)) :
    Within p s ((s.tilesOf p).foldl f s) :=
  foldl_keeps_of_mem (P := fun x : State => Within p s x) _ (refl p s)
    fun x t ht h => h.trans (hf x t (by rw [State.tilesOf_congr h.dict p]; exact ht))

theorem sendCancels (p : PartId) (s : State) (q : PartId) (frame : BitVec 32) (fresh : Bool) :
    Within p s (s.sendCancels q frame fresh) := by
  unfold State.sendCancels
  extract_lets tbl
  refine foldl_keeps _ (refl p s) fun y rid hy => ?_
  extract_lets e x g
  split
  · exact hy
  · split
    · exact hy.trans (of_traffic (y.trafficOnly_send ..))
    · split
      · exact hy.trans (modPart y fun _ _ => rfl)
      · exact hy

theorem sendKind4 (s : State) (p : PartId) : Within p s (s.sendKind4 p) := by
  unfold State.sendKind4
  split
  · exact refl p s
  · split
    · exact refl p s
    · exact Within.trans (of_traffic (s.trafficOnly_sendAlert p _)) (modOwn ..)

theorem stopFrame (s : State) (p : PartId) (cause : BitVec 4) (layer : BitVec 16) (elapsed : Nat) :
    Within p s (s.stopFrame p cause layer elapsed) := by
  unfold State.stopFrame
  split
  · extract_lets s1
    have hs1 : Within p s s1 := (modOwn s p _).trans (modOwn ..)
    have hTiles : Within p s1 (s1.stopTiles p) := by
      rw [State.stopTiles_eq]
      refine ((eachTile s1 fun x t ht => ?_).trans (of_windows (State.windowsOnly_advanceAll ..))).trans (modOwn ..)
      exact (modTile x ht _).trans (freeDma _ ht)
    have hHold (x : State) : Within p x (x.withhold p elapsed) := by
      unfold State.withhold State.withheldAlert
      dsimp only
      refine Within.trans ?_ (modOwn ..)
      split
      · exact (modOwn x p _).trans (sendKind4 ..)
      · exact refl p x
    exact ((hs1.trans hTiles).trans (sendCancels ..)).trans (hHold _)
  · exact refl p s

theorem withdraw (s : State) (p : PartId) : Within p s (s.withdraw p) := by
  unfold State.withdraw
  extract_lets pt s1
  have hs1 : Within p s s1 := by
    subst s1
    split
    · exact Within.trans (of_gate (s.gateOnly_sendWithdraw p)) (sendCancels ..)
    · exact refl p s
  exact hs1.trans (modOwn ..)

theorem abandonAll (s : State) (p : PartId) : Within p s (s.abandonAll p) := by
  unfold State.abandonAll State.abandon
  extract_lets s1
  have hDrop : Within p s (s.dropModelKey p) := ⟨rfl, rfl, rfl, id, fun _ _ => rfl, fun _ _ => rfl⟩
  have hs1 : Within p s s1 := hDrop.trans (modOwn ..)
  split
  · exact hs1
  · exact (hs1.trans (modOwn ..)).trans (modPart _ fun _ _ => rfl)

theorem unload (s : State) (p : PartId) : Within p s (s.unload p) := by
  unfold State.unload
  extract_lets s1 own served idle s2
  have hs1 : Within p s s1 := eachTile s fun x t ht => by
    unfold State.unloadTile
    extract_lets y z
    have hSealed : Within p x (x.wipeSealed t) := by
      unfold State.wipeSealed
      refine foldl_keeps (P := fun y : State => Within p x y) _ (modTile x ht _) fun y h hy => hy.trans (modTile y ?_ _)
      rw [State.tilesOf_congr hy.dict p]
      exact ht
    have hy : Within p x y := by
      refine hSealed.trans ?_
      show Within p (x.wipeSealed t) ((x.wipeSealed t).clearHandles t)
      unfold State.clearHandles
      extract_lets w table shut
      have hw : (x.wipeSealed t).WindowsOnly w := (State.WindowsOnly.refl _).foldl (fun x h => x.windowsOnly_advance t h false) _
      have hIn : Within p (x.wipeSealed t) w := of_windows hw
      refine hIn.trans (modTile w ?_ _)
      rw [State.tilesOf_congr (hSealed.trans hIn).dict p]
      exact ht
    have hz : Within p x z := hy.trans (modTile y (by rw [State.tilesOf_congr hy.dict p]; exact ht) _)
    exact hz.trans (freeDma z (by rw [State.tilesOf_congr hz.dict p]; exact ht))
  clear_value s1
  have hs2 : Within p s1 s2 := ⟨rfl, rfl, rfl, id, fun _ _ => rfl, fun _ _ => rfl⟩
  exact (hs1.trans hs2).trans (modOwn ..)

theorem drawn (p : PartId) (s : State) : Within p s s.drawn := ⟨rfl, rfl, rfl, id, fun _ _ => rfl, fun _ _ => rfl⟩

theorem leaveStop (s : State) (p : PartId) : Within p s (s.leaveStop p) := by
  unfold State.leaveStop
  extract_lets s1 parts
  have hs1 : Within p s s1 := modOwn ..
  clear_value s1 parts
  split
  · exact hs1.trans ⟨rfl, rfl, rfl, id, fun _ _ => rfl, fun _ _ => rfl⟩
  · exact hs1.trans ⟨rfl, rfl, rfl, id, fun _ _ => rfl, fun _ _ => rfl⟩

end State.Within

/-! #### The bands of a partition that is reset -/

/-- A band that no order waits for and that is not being switched. -/
def State.Steady (s : State) (b : BandId) : Prop := (s.band b).ordered = false ∧ s.dom b.val ≠ .switching

/-- `s'` differs from `s` in band `b`, its tiles, and the pages that partitions wait for. -/
structure State.BandMoves (b : BandId) (s s' : State) : Prop where
  dict : s'.dict = s.dict
  dump : s'.dump = s.dump
  part : ∀ q, ∃ pages, s'.part q = { s.part q with pageReload := pages }
  other : ∀ c : BandId, c ≠ b → s'.band c = s.band c ∧ s'.dom c.val = s.dom c.val ∧
    ∀ t, bandOf (clusterOf t) = c → (s'.tile t).sp = (s.tile t).sp

namespace State.BandMoves

theorem refl (b : BandId) (s : State) : BandMoves b s s :=
  ⟨rfl, rfl, fun q => ⟨(s.part q).pageReload, rfl⟩, fun _ _ => ⟨rfl, rfl, fun _ _ => rfl⟩⟩

theorem trans {b : BandId} {x y z : State} (h : BandMoves b x y) (h' : BandMoves b y z) : BandMoves b x z where
  dict := h'.dict.trans h.dict
  dump := h'.dump.trans h.dump
  part q := by
    obtain ⟨m, hm⟩ := h.part q
    obtain ⟨n, hn⟩ := h'.part q
    exact ⟨n, by rw [hn, hm]⟩
  other c hc := by
    obtain ⟨hBand, hDom, hSp⟩ := h.other c hc
    obtain ⟨hBand', hDom', hSp'⟩ := h'.other c hc
    exact ⟨hBand'.trans hBand, hDom'.trans hDom, fun t ht => (hSp' t ht).trans (hSp t ht)⟩

theorem modBand (s : State) (b : BandId) (f : Band → Band) : BandMoves b s (s.modBand b f) :=
  ⟨rfl, rfl, fun q => ⟨(s.part q).pageReload, rfl⟩, fun _ hc =>
    ⟨Store.get_set_other _ _ _ fun h => hc (Fin.ext h), rfl, fun _ _ => rfl⟩⟩

theorem setDom (s : State) (b : BandId) (v : DomSt) : BandMoves b s (s.setDom b.val v) :=
  ⟨rfl, rfl, fun q => ⟨(s.part q).pageReload, rfl⟩, fun _ hc =>
    ⟨rfl, Store.get_set_other _ _ _ fun h => hc (Fin.ext h), fun _ _ => rfl⟩⟩

theorem modTile (s : State) {b : BandId} {t : TileId} (ht : t ∈ bandTiles b) (f : Tile → Tile) : BandMoves b s (s.modTile t f) := by
  refine ⟨rfl, rfl, fun q => ⟨(s.part q).pageReload, rfl⟩, fun c hc => ⟨rfl, rfl, fun x hx => ?_⟩⟩
  rw [State.modTile_tile_other]
  rintro rfl
  exact hc (hx.symm.trans (mem_bandTiles.mp ht))

theorem tiles (s : State) (b : BandId) (f : Tile → Tile) : BandMoves b s (s.each (bandTiles b) fun s t => s.modTile t f) :=
  foldl_keeps_of_mem (P := fun x : State => BandMoves b s x) _ (refl b s) fun x _ ht h => h.trans (modTile x ht f)

theorem clusters (s : State) (b : BandId) (l : List ClusterId) (f : Cluster → Cluster) :
    BandMoves b s (s.each l fun s c => s.modCluster c f) :=
  foldl_keeps (P := fun x : State => BandMoves b s x) _ (refl b s) fun x _ h => h.trans
    ⟨rfl, rfl, fun q => ⟨(x.part q).pageReload, rfl⟩, fun _ _ => ⟨rfl, rfl, fun _ _ => rfl⟩⟩

theorem owePages (s : State) (b : BandId) (all : Bool) : BandMoves b s (s.owePages b all) := by
  refine foldl_keeps (P := fun x : State => BandMoves b s x) _ (refl b s) fun x p h => h.trans ?_
  refine ⟨rfl, rfl, fun q => ?_, fun _ _ => ⟨rfl, rfl, fun _ _ => rfl⟩⟩
  by_cases hq : q = p
  · subst hq
    rw [State.modPart_part_same]
    exact ⟨_, rfl⟩
  · rw [State.modPart_part_other _ _ hq]
    exact ⟨(x.part q).pageReload, rfl⟩

theorem bandDown (s : State) (b : BandId) : BandMoves b s (s.bandDown b) := by
  unfold State.bandDown
  split
  · unfold State.bandRet
    exact ((((owePages s b false).trans (tiles ..)).trans (clusters ..)).trans (setDom ..)).trans (modBand ..)
  · unfold State.bandOff
    exact ((((owePages s b true).trans (tiles ..)).trans (clusters ..)).trans (setDom ..)).trans (modBand ..)

theorem bandOrder (s : State) (b : BandId) (toRet : Bool) : BandMoves b s (s.bandOrder b toRet) := by
  unfold State.bandOrder
  split
  · extract_lets s1 s2
    have hs1 : BandMoves b s s1 := modBand ..
    have hs2 : BandMoves b s s2 := (hs1.trans (setDom ..)).trans (modBand ..)
    clear_value s1 s2
    split
    · split
      · exact hs2.trans (bandDown ..)
      · exact hs2
    · exact hs1
  · split
    · exact bandDown ..
    · exact refl b s

end State.BandMoves

/-- `s'` differs from `s` in the bands that are not steady, and in the pages that partitions wait for. -/
structure State.BandsMove (l : List BandId) (s s' : State) : Prop where
  dict : s'.dict = s.dict
  dump : s'.dump = s.dump
  part : ∀ q, ∃ pages, s'.part q = { s.part q with pageReload := pages }
  steady : ∀ c : BandId, (c ∈ l → s.Steady c) → s'.band c = s.band c ∧ s'.dom c.val = s.dom c.val ∧
    ∀ t, bandOf (clusterOf t) = c → (s'.tile t).sp = (s.tile t).sp

namespace State.BandsMove

theorem trans {l : List BandId} {x y z : State} (h : BandsMove l x y) (h' : BandsMove l y z) : BandsMove l x z where
  dict := h'.dict.trans h.dict
  dump := h'.dump.trans h.dump
  part q := by
    obtain ⟨m, hm⟩ := h.part q
    obtain ⟨n, hn⟩ := h'.part q
    exact ⟨n, by rw [hn, hm]⟩
  steady c hc := by
    obtain ⟨hBand, hDom, hSp⟩ := h.steady c hc
    have hc' : c ∈ l → y.Steady c := fun hl => by
      rw [State.Steady, hBand, hDom]
      exact hc hl
    obtain ⟨hBand', hDom', hSp'⟩ := h'.steady c hc'
    exact ⟨hBand'.trans hBand, hDom'.trans hDom, fun t ht => (hSp' t ht).trans (hSp t ht)⟩

/-- A change of each band that leaves the steady ones. -/
theorem each {f : State → BandId → State} (hMoves : ∀ x b, BandMoves b x (f x b)) (hSteady : ∀ (x : State) b, x.Steady b → f x b = x)
    (l : List BandId) (s : State) : BandsMove l s (l.foldl f s) := by
  have hKept : (l.foldl f s).dict = s.dict ∧ (l.foldl f s).dump = s.dump ∧
      ∀ q, ∃ pages, (l.foldl f s).part q = { s.part q with pageReload := pages } := by
    refine foldl_keeps (P := fun x : State => x.dict = s.dict ∧ x.dump = s.dump ∧
      ∀ q, ∃ pages, x.part q = { s.part q with pageReload := pages }) l ⟨rfl, rfl, fun q => ⟨_, rfl⟩⟩ fun x b hx => ?_
    obtain ⟨hDict, hDump, hPart⟩ := hx
    refine ⟨(hMoves x b).dict.trans hDict, (hMoves x b).dump.trans hDump, fun q => ?_⟩
    obtain ⟨m, hm⟩ := hPart q
    obtain ⟨n, hn⟩ := (hMoves x b).part q
    exact ⟨n, by rw [hn, hm]⟩
  obtain ⟨hDict, hDump, hPart⟩ := hKept
  refine ⟨hDict, hDump, hPart, fun c hc => ?_⟩
  refine foldl_keeps_of_mem (P := fun x : State => x.band c = s.band c ∧ x.dom c.val = s.dom c.val ∧
    ∀ t, bandOf (clusterOf t) = c → (x.tile t).sp = (s.tile t).sp) l ⟨rfl, rfl, fun _ _ => rfl⟩ fun x b hb hx => ?_
  obtain ⟨hBand, hDom, hSp⟩ := hx
  by_cases hbc : c = b
  · subst hbc
    have hStill : x.Steady c := by
      rw [State.Steady, hBand, hDom]
      exact hc hb
    rw [hSteady x c hStill]
    exact ⟨hBand, hDom, hSp⟩
  · obtain ⟨hBand', hDom', hSp'⟩ := (hMoves x b).other c hbc
    exact ⟨hBand'.trans hBand, hDom'.trans hDom, fun t ht => (hSp' t ht).trans (hSp t ht)⟩

end State.BandsMove

theorem State.bandsMove_restart (s : State) (p : PartId) : State.BandsMove (s.bandsOf p) s (s.restartBands p) := by
  refine State.BandsMove.each (fun x b => ?_) (fun x b hb => ?_) _ s
  · split
    · have hDrawn : State.BandMoves b x x.drawn :=
        ⟨rfl, rfl, fun q => ⟨(x.part q).pageReload, rfl⟩, fun _ _ => ⟨rfl, rfl, fun _ _ => rfl⟩⟩
      refine foldl_keeps_of_mem (P := fun y : State => State.BandMoves b x y) _ hDrawn
        fun y t ht h => h.trans (State.BandMoves.modTile y ht _)
    · exact .refl b x
  · exact if_neg fun h => hb.2 h.1

theorem State.bandsMove_start (s : State) (p : PartId) : State.BandsMove (s.bandsOf p) s (s.startOrders p) := by
  refine State.BandsMove.each (fun x b => ?_) (fun x b hb => ?_) _ s
  · split
    · exact .bandOrder ..
    · exact .refl b x
  · exact if_neg fun h => Bool.noConfusion (hb.1.symm.trans h.2)

theorem State.bandsOf_congr {s s' : State} (h : s'.dict = s.dict) (p : PartId) : s'.bandsOf p = s.bandsOf p := by
  unfold State.bandsOf State.clusterMask State.enabled State.layout State.dval
  rw [h]

/-! #### The partition itself -/

/-- A partition without an image and without a ready out. -/
def Part.Gone (x : Part) : Prop := x.image = none ∧ x.ready = false

/-- A partition that ends no frame, and stays without an image. -/
structure Part.Passive (x y : Part) : Prop where
  withheld : y.withheld = x.withheld
  idle : x.run.active = false → y.run.active = false
  gone : x.Gone → y.Gone
  staged : x.area.staged = [] → y.area.staged = []

namespace Part.Passive

theorem refl (x : Part) : x.Passive x := ⟨rfl, id, id, id⟩

theorem trans {x y z : Part} (h : x.Passive y) (h' : y.Passive z) : x.Passive z :=
  ⟨h'.withheld.trans h.withheld, h'.idle ∘ h.idle, h'.gone ∘ h.gone, h'.staged ∘ h.staged⟩

theorem of_stops {x y : Part} (h : x.StopsOnly y) : x.Passive y := by
  have hActive : y.run.active = x.run.active := h.proj fun z => z.run.active
  have hImage : y.image = x.image := h.proj Part.image
  have hReady : y.ready = x.ready := h.proj Part.ready
  have hArea : y.area = x.area := h.proj Part.area
  refine ⟨h.proj Part.withheld, fun hx => hActive.trans hx, fun hx => ?_, fun hx => ?_⟩
  · rw [Part.Gone, hImage, hReady]
    exact hx
  · rw [hArea]
    exact hx

theorem of_records {x y : Part} (h : x.RecordsOnly y) : x.Passive y := of_stops (.of_records h)

theorem of_faults {x y : Part} (h : x.FaultsOnly y) : x.Passive y := of_stops (.of_faults h)

end Part.Passive

theorem State.passive_modPart (s : State) (p q : PartId) {f : Part → Part} (hf : ∀ x : Part, x.Passive (f x)) :
    (s.part p).Passive ((s.modPart q f).part p) := by
  by_cases h : p = q
  · subst h
    rw [State.modPart_part_same]
    exact hf _
  · rw [State.modPart_part_other _ _ h]
    exact .refl _

theorem State.passive_withdraw (s : State) (p : PartId) : (s.part p).Passive ((s.withdraw p).part p) := by
  unfold State.withdraw
  extract_lets pt s1
  have hs1 : (s.part p).Passive (s1.part p) := by
    subst s1
    split
    · exact Part.Passive.trans (.of_records ((s.gateOnly_sendWithdraw p).part p)) (.of_stops ((State.stops_sendCancels ..).part p))
    · exact .refl _
  exact hs1.trans (s1.passive_modPart p p fun x => ⟨rfl, id, fun h => ⟨h.1, rfl⟩, id⟩)

theorem State.passive_abandonAll (s : State) (p : PartId) : (s.part p).Passive ((s.abandonAll p).part p) := by
  unfold State.abandonAll State.abandon
  extract_lets s1
  have hs1 : (s.part p).Passive (s1.part p) := by
    refine State.passive_modPart (s.dropModelKey p) p p fun x => ?_
    split <;> exact ⟨rfl, id, id, id⟩
  split
  · exact hs1
  next x _ =>
    refine (hs1.trans (s1.passive_modPart p p fun y => ?_)).trans (State.passive_modPart _ p x.asker fun y => ?_)
    · exact ⟨rfl, id, id, id⟩
    · exact ⟨rfl, id, id, id⟩

theorem State.passive_unloadTile (s : State) (t : TileId) (p : PartId) : (s.part p).Passive ((s.unloadTile t).part p) := by
  unfold State.unloadTile
  extract_lets s1 s2
  have hSealed : (s.wipeSealed t).part p = s.part p := by
    unfold State.wipeSealed
    exact foldl_keeps (P := fun x : State => x.part p = s.part p) _ rfl fun _ _ h => h
  have hs1 : (s.part p).Passive (s1.part p) := by
    show (s.part p).Passive (((s.wipeSealed t).clearHandles t).part p)
    unfold State.clearHandles
    extract_lets x table shut
    have hx : (s.wipeSealed t).WindowsOnly x := (State.WindowsOnly.refl _).foldl (fun x h => x.windowsOnly_advance t h false) _
    rw [State.modTile_part, ← hSealed]
    exact .of_records (hx.part p)
  have hs2 : s2.part p = s1.part p := State.modTile_part ..
  rw [← hs2] at hs1
  exact hs1.trans (.of_faults ((s2.servedOnly_freeDma t).part p))

theorem State.unload_part (s : State) (p : PartId) : ((s.unload p).part p).Gone ∧ (s.part p).Passive ((s.unload p).part p) := by
  unfold State.unload
  extract_lets s1 own served idle s2
  have hs1 : (s.part p).Passive (s1.part p) :=
    foldl_keeps (P := fun x : State => (s.part p).Passive (x.part p)) _ (.refl _) fun x t h => h.trans (x.passive_unloadTile t p)
  clear_value s1
  have hs2 : s2.part p = s1.part p := rfl
  clear_value s2
  rw [State.modPart_part_same, hs2]
  exact ⟨⟨rfl, rfl⟩, hs1.trans ⟨rfl, id, fun _ => ⟨rfl, rfl⟩, id⟩⟩

theorem State.passive_leaveStop (s : State) (p : PartId) : (s.part p).Passive ((s.leaveStop p).part p) := by
  unfold State.leaveStop
  extract_lets s1 parts
  have hs1 : (s.part p).Passive (s1.part p) := s.passive_modPart p p fun _ => ⟨rfl, id, id, id⟩
  clear_value s1 parts
  split
  · exact hs1
  · exact hs1

/-! #### The reset of a partition -/

/-- A tile of a partition that is reset. -/
def State.resetTile (s : State) (t : TileId) : State :=
  (s.modTile t fun tl => tl.partFresh s.freeCtr (s.tileAc t)).freeDma t

/-- A partition that has left its image and its Slack stop. -/
def State.leaves (s : State) (p : PartId) : State :=
  (((s.unload p).modPart p fun pt => { pt with area := pt.area.drop stReset }).leaveStop p).drawn

/-- A partition whose reset has begun, before its bands. -/
def State.resetAt (s : State) (p : PartId) : State :=
  let s := (((s.withdraw p).stopFrame p 0xD 0xFFFF (s.elapsed p)).abandonAll p).leaves p
  (s.tilesOf p).foldl State.resetTile s

/-- A partition as its reset leaves it. -/
def Part.atReset (pt : Part) (st : PartSt) (loadAsked : Bool) : Part :=
  { pt with
    st, guestBooted := false, guestFailed := false, unacked := false, loadAsked, capHalt := false, boundaryDue := false
    rearmDue := false, retire := [], graphRec := [], run := {} }

theorem State.partReset_eq (s : State) (p : PartId) : s.partReset p =
    let s := ((s.resetAt p).restartBands p).startOrders p
    s.modPart p fun pt => pt.atReset (if s.enabled p then .resetting else .disabled) (s.imageIn p) := rfl

theorem State.leaves_spec (s : State) (p : PartId) : State.Within p s (s.leaves p) ∧ ((s.leaves p).part p).Gone ∧
    ((s.leaves p).part p).area.staged = [] ∧ ((s.leaves p).part p).withheld = (s.part p).withheld := by
  obtain ⟨hGone, hUnload⟩ := s.unload_part p
  have hIn := State.Within.unload s p
  unfold State.leaves
  generalize s.unload p = u at hGone hUnload hIn
  have hLeave := State.passive_leaveStop (u.modPart p fun pt => { pt with area := pt.area.drop stReset }) p
  rw [State.modPart_part_same] at hLeave
  refine ⟨((hIn.trans (.modOwn ..)).trans (.leaveStop ..)).trans (.drawn ..), ?_⟩
  exact ⟨hLeave.gone hGone, hLeave.staged rfl, hLeave.withheld.trans hUnload.withheld⟩

theorem State.foldl_resetTile (s : State) (p : PartId) : State.Within p s ((s.tilesOf p).foldl State.resetTile s) ∧
    (s.part p).Passive (((s.tilesOf p).foldl State.resetTile s).part p) :=
  ⟨State.Within.eachTile s fun x _ ht => (State.Within.modTile x ht _).trans (.freeDma _ ht),
    foldl_keeps (P := fun x : State => (s.part p).Passive (x.part p)) _ (.refl _) fun x t h => h.trans
      (.of_faults ((State.servedOnly_freeDma (x.modTile t fun tl => tl.partFresh x.freeCtr (x.tileAc t)) t).part p))⟩

theorem State.resetAt_spec (s : State) (p : PartId) : State.Within p s (s.resetAt p) ∧ ((s.resetAt p).part p).Gone ∧
    ((s.resetAt p).part p).area.staged = [] ∧
      ((s.part p).run.active = false → ((s.resetAt p).part p).withheld = (s.part p).withheld) := by
  unfold State.resetAt
  dsimp only
  generalize hx : ((s.withdraw p).stopFrame p 0xD 0xFFFF (s.elapsed p)).abandonAll p = x
  have hIn : State.Within p s x := hx ▸ ((State.Within.withdraw s p).trans (.stopFrame ..)).trans (.abandonAll ..)
  have hKept : (s.part p).run.active = false → (x.part p).withheld = (s.part p).withheld := fun hActive => by
    have hWithdraw := s.passive_withdraw p
    have hStop : (s.withdraw p).stopFrame p 0xD 0xFFFF (s.elapsed p) = s.withdraw p :=
      if_neg (by rw [hWithdraw.idle hActive]; exact Bool.false_ne_true)
    rw [← hx, hStop]
    exact (hWithdraw.trans (State.passive_abandonAll ..)).withheld
  obtain ⟨hLeaves, hGone, hStaged, hWithheld⟩ := x.leaves_spec p
  generalize x.leaves p = y at hLeaves hGone hStaged hWithheld
  obtain ⟨hTiles, hOwn⟩ := y.foldl_resetTile p
  exact ⟨(hIn.trans hLeaves).trans hTiles, hOwn.gone hGone, hOwn.staged hStaged, fun hActive =>
    hOwn.withheld.trans (hWithheld.trans (hKept hActive))⟩

/-- What the reset of partition `p` leaves of a state. -/
structure State.IsReset (s : State) (p : PartId) (s' : State) : Prop where
  image : (s'.part p).image = none
  active : (s'.part p).run.active = false
  booted : (s'.part p).guestBooted = false
  ready : (s'.part p).ready = false
  staged : (s'.part p).area.staged = []
  st : s.enabled p = true → (s'.part p).st = .resetting
  images : ∀ q, q ≠ p → (s'.part q).image = (s.part q).image
  sp : ∀ t, t ∉ s.tilesOf p → (bandOf (clusterOf t) ∈ s.bandsOf p → s.Steady (bandOf (clusterOf t))) →
    (s'.tile t).sp = (s.tile t).sp

theorem State.enabled_congr {s s' : State} (h : s'.dict = s.dict) (p : PartId) : s'.enabled p = s.enabled p := by
  unfold State.enabled State.layout State.dval
  rw [h]

/-- A reset, also of a state that differs within the partition from the one looked at. -/
theorem State.partReset_spec {s s₁ : State} {p : PartId} (h : State.Within p s s₁) : s.IsReset p (s₁.partReset p) ∧
    (s₁.dump ≠ none → (s₁.partReset p).dump ≠ none) ∧
      ((s₁.part p).run.active = false → ((s₁.partReset p).part p).withheld = (s₁.part p).withheld) := by
  obtain ⟨hReset, hGone, hStaged, hWithheld⟩ := s₁.resetAt_spec p
  have hAll := h.trans hReset
  have hBands : State.BandsMove ((s₁.resetAt p).bandsOf p) (s₁.resetAt p) (((s₁.resetAt p).restartBands p).startOrders p) := by
    have hRestart := (s₁.resetAt p).bandsMove_restart p
    have hStart := ((s₁.resetAt p).restartBands p).bandsMove_start p
    rw [State.bandsOf_congr hRestart.dict] at hStart
    exact hRestart.trans hStart
  rw [State.partReset_eq]
  generalize s₁.resetAt p = r at hReset hGone hStaged hWithheld hAll hBands ⊢
  generalize (r.restartBands p).startOrders p = w at hBands
  dsimp only
  obtain ⟨pages, hPages⟩ := hBands.part p
  have hDict : w.dict = s.dict := hBands.dict.trans hAll.dict
  have hPart : (w.modPart p fun pt => pt.atReset (if w.enabled p then .resetting else .disabled) (w.imageIn p)).part p =
      Part.atReset { r.part p with pageReload := pages } (if w.enabled p then .resetting else .disabled) (w.imageIn p) := by
    rw [State.modPart_part_same, hPages]
  refine ⟨⟨?_, ?_, ?_, ?_, ?_, fun hOn => ?_, fun q hq => ?_, fun t ht hSteady => ?_⟩, fun hDump => ?_, fun hActive => ?_⟩
  · rw [hPart]; exact hGone.1
  · rw [hPart]; rfl
  · rw [hPart]; rfl
  · rw [hPart]; exact hGone.2
  · rw [hPart]; exact hStaged
  · rw [hPart]
    exact if_pos ((State.enabled_congr hDict p).trans hOn)
  · obtain ⟨other, hOther⟩ := hBands.part q
    rw [State.modPart_part_other _ _ hq, hOther]
    exact hAll.image q hq
  · refine ((hBands.steady (bandOf (clusterOf t)) fun hb => ?_).2.2 t rfl).trans (hAll.sp t ht)
    rw [State.bandsOf_congr hAll.dict] at hb
    rw [State.Steady, State.band, State.dom, hAll.bands, hAll.domains]
    exact hSteady hb
  · exact fun hNone => hReset.dumped hDump (hBands.dump.symm.trans hNone)
  · rw [hPart]
    exact hWithheld hActive

/-! #### The fault of a partition -/

/-- The frame in progress ends withheld, and no frame is in progress. -/
theorem State.stopFrame_ends (s : State) (p : PartId) (cause : BitVec 4) (layer : BitVec 16) (elapsed : Nat) :
    ((s.stopFrame p cause layer elapsed).part p).run.active = false ∧
      ((s.part p).run.active = true → ((s.stopFrame p cause layer elapsed).part p).withheld = satAdd (s.part p).withheld 1) := by
  unfold State.stopFrame
  split
  next hActive =>
    extract_lets s1
    have hs1 : (s.part p).Passive (s1.part p) := by
      refine Part.Passive.trans (.of_faults ((s.servedOnly_markFrame p cause layer).part p)) ?_
      refine State.passive_modPart _ p p fun x => ?_
      dsimp only
      split
      · exact ⟨rfl, id, id, id⟩
      · exact .refl x
    have hTiles : (s1.part p).Passive ((s1.stopTiles p).part p) := .of_stops (s1.stopTiles_part p).1
    have hCancels := (s1.stopTiles p).stops_sendCancels p (s1.part p).frame false
    have hAlert := ((s1.stopTiles p).sendCancels p (s1.part p).frame false).stops_withheldAlert p
    have hAll := ((hs1.trans hTiles).trans (.of_stops (hCancels.part p))).trans (.of_stops (hAlert.part p))
    unfold State.withhold
    dsimp only
    rw [State.modPart_part_same]
    generalize (((s1.stopTiles p).sendCancels p (s1.part p).frame false).withheldAlert p).part p = y at hAll
    exact ⟨rfl, fun _ => congrArg (satAdd · 1) hAll.withheld⟩
  next hNot => exact ⟨by simpa using hNot, fun h => absurd h hNot⟩

theorem State.partFatalNow_spec {s₀ s : State} {p : PartId} (h : State.Within p s₀ s) (detail : BitVec 8) (src : BitVec 24) :
    s₀.IsReset p (s.partFatalNow p detail src) ∧ (s.partFatalNow p detail src).dump ≠ none ∧
      ((s.part p).run.active = true → ((s.partFatalNow p detail src).part p).withheld = satAdd (s.part p).withheld 1) := by
  unfold State.partFatalNow
  extract_lets s1 s2 s3 s4
  have hStop : State.Within p s s1 ∧ (s1.part p).run.active = false ∧
      ((s.part p).run.active = true → (s1.part p).withheld = satAdd (s.part p).withheld 1) :=
    ⟨.stopFrame s p 0xD 0xFFFF (s.elapsed p), s.stopFrame_ends p 0xD 0xFFFF (s.elapsed p)⟩
  clear_value s1
  obtain ⟨hs1, hIdle, hEnds⟩ := hStop
  have hs2 : State.Within p s1 s2 := (State.Within.withdraw s1 p).trans (.modOwn ..)
  have hPart2 : (s1.part p).Passive (s2.part p) :=
    (s1.passive_withdraw p).trans (State.passive_modPart _ p p fun _ => ⟨rfl, id, id, id⟩)
  clear_value s2
  have hs3 : State.Within p s2 s3 := .raise ..
  have hPart3 : (s2.part p).Passive (s3.part p) := .of_faults ((State.servedOnly_raise ..).part p)
  clear_value s3
  have hs4 : State.Within p s3 s4 ∧ (s3.part p).Passive (s4.part p) ∧ s4.dump ≠ none := by
    obtain ⟨hDump, hSome⟩ := s3.dumpOnly_writeDump 4 (BitVec.ofNat 8 (2 ^ p.val)) src detail false
    obtain ⟨held, hHeld⟩ := hDump.part p
    have hDumpPart : (s3.part p).Passive ((s3.writeDump 4 (BitVec.ofNat 8 (2 ^ p.val)) src detail false).part p) := by
      rw [hHeld]
      exact ⟨rfl, id, id, id⟩
    have hMail : (s3.writeDump 4 (BitVec.ofNat 8 (2 ^ p.val)) src detail false).TrafficOnly s4 ∨
        s4 = s3.writeDump 4 (BitVec.ofNat 8 (2 ^ p.val)) src detail false := by
      subst s4
      unfold State.emergency
      split
      · exact .inl (State.trafficOnly_send ..)
      · exact .inr rfl
    have hIn : State.Within p s3 (s3.writeDump 4 (BitVec.ofNat 8 (2 ^ p.val)) src detail false) := .of_dump hDump hSome
    rcases hMail with hMail | hMail
    · exact ⟨hIn.trans (.of_traffic hMail), hDumpPart.trans (.of_records (hMail.part p)), (State.Within.of_traffic (p := p) hMail).dumped hSome⟩
    · rw [hMail]
      exact ⟨hIn, hDumpPart, hSome⟩
  clear_value s4
  obtain ⟨hIn, hPart4, hSome⟩ := hs4
  obtain ⟨hReset, hDumped, hWithheld⟩ := State.partReset_spec (h.trans (((hs1.trans hs2).trans hs3).trans hIn))
  have hOwn := (hPart2.trans hPart3).trans hPart4
  refine ⟨hReset, hDumped hSome, fun hActive => ?_⟩
  rw [hWithheld (hOwn.idle hIdle), hOwn.withheld, hEnds hActive]

theorem State.partFatal_unarmed {s : State} {p : PartId} (h : s.armed p = false) (detail : BitVec 8) (src : BitVec 24) :
    s.partFatal p detail src = s.partFatalNow p detail src := by
  unfold State.partFatal
  rw [h]
  rfl

/-! #### The fault of the device -/

theorem State.stopFrame_other (s : State) {p q : PartId} (hq : q ≠ p) (cause : BitVec 4) (layer : BitVec 16) (elapsed : Nat) :
    (s.part q).StopsOnly ((s.stopFrame p cause layer elapsed).part q) := by
  unfold State.stopFrame
  split
  · extract_lets s1
    have hs1 : (s.part q).StopsOnly (s1.part q) := by
      rw [show s1.part q = (s.markFrame p cause layer).part q from State.modPart_part_other _ _ hq]
      exact .of_faults ((s.servedOnly_markFrame p cause layer).part q)
    clear_value s1
    have hTiles : (s1.part q).StopsOnly ((s1.stopTiles p).part q) := by
      have hFold : (s1.part q).StopsOnly (((s1.tilesOf p).foldl State.stopTile s1).part q) :=
        foldl_keeps (P := fun x : State => (s1.part q).StopsOnly (x.part q)) _ (.refl _) fun x t h =>
          h.trans (.of_faults (x.stopTile_part t q))
      have hWindows := ((s1.tilesOf p).foldl State.stopTile s1).windowsOnly_advanceAll p 1 (fun w => !bitN w.toNat 119) false
      rw [State.stopTiles_eq, State.modPart_part_other _ _ hq]
      exact hFold.trans (.of_records (hWindows.part q))
    have hCancels := (s1.stopTiles p).stops_sendCancels p (s1.part p).frame false
    have hAlert := ((s1.stopTiles p).sendCancels p (s1.part p).frame false).stops_withheldAlert p
    unfold State.withhold
    dsimp only
    rw [State.modPart_part_other _ _ hq]
    exact ((hs1.trans hTiles).trans (hCancels.part q)).trans (hAlert.part q)
  · exact .refl _

theorem State.withdraw_other (s : State) {p q : PartId} (hq : q ≠ p) : (s.part q).StopsOnly ((s.withdraw p).part q) := by
  unfold State.withdraw
  dsimp only
  rw [State.modPart_part_other _ _ hq]
  split
  · exact Part.StopsOnly.trans (.of_records ((s.gateOnly_sendWithdraw p).part q)) ((State.stops_sendCancels ..).part q)
  · exact .refl _

/-- A partition that a device-fatal fault has stopped. -/
structure Part.Halted (x : Part) : Prop where
  st : x.st = .halted
  active : x.run.active = false
  ready : x.ready = false
  armed : x.armed = false

theorem Part.Halted.of_stops {x y : Part} (h : x.Halted) (hy : x.StopsOnly y) : y.Halted :=
  ⟨(hy.proj Part.st).trans h.st, (hy.proj fun z => z.run.active).trans h.active, (hy.proj Part.ready).trans h.ready,
    (hy.proj Part.armed).trans h.armed⟩

/-- One partition stops, withdraws and is HALTED. -/
def State.haltOne (cause : BitVec 4) (s : State) (p : PartId) : State :=
  ((s.stopFrame p cause 0xFFFF (s.elapsed p)).withdraw p).modPart p fun pt =>
    { pt with st := .halted, lastClass := clsDevFatal, unacked := true }

theorem State.haltOne_same (cause : BitVec 4) (s : State) (p : PartId) : ((s.haltOne cause p).part p).Halted := by
  have hIdle := (s.stopFrame_ends p cause 0xFFFF (s.elapsed p)).1
  have hWithdraw := (s.stopFrame p cause 0xFFFF (s.elapsed p)).passive_withdraw p
  have hLeft : ((s.stopFrame p cause 0xFFFF (s.elapsed p)).withdraw p |>.part p).ready = false ∧
      ((s.stopFrame p cause 0xFFFF (s.elapsed p)).withdraw p |>.part p).armed = false := by
    unfold State.withdraw
    dsimp only
    rw [State.modPart_part_same]
    exact ⟨rfl, rfl⟩
  unfold State.haltOne
  rw [State.modPart_part_same]
  generalize (s.stopFrame p cause 0xFFFF (s.elapsed p)).withdraw p = w at hWithdraw hLeft
  exact ⟨rfl, hWithdraw.idle hIdle, hLeft.1, hLeft.2⟩

theorem State.haltOne_other (cause : BitVec 4) (s : State) {p q : PartId} (hq : q ≠ p) :
    (s.part q).StopsOnly ((s.haltOne cause p).part q) := by
  unfold State.haltOne
  rw [State.modPart_part_other _ _ hq]
  exact (s.stopFrame_other hq ..).trans (State.withdraw_other _ hq)

theorem State.haltAll_part (s : State) (cause : BitVec 4) {p : PartId} (h : (s.part p).st ≠ .disabled) :
    ((s.haltAll cause).part p).Halted := by
  have hMem : p ∈ allParts.filter fun p => (s.part p).st != .disabled :=
    List.mem_filter.mpr ⟨List.mem_finRange p, bne_iff_ne.mpr h⟩
  exact foldl_reaches (P := fun _ => True) (Q := fun x : State => (x.part p).Halted) ((List.nodup_finRange _).filter _) hMem
    (fun _ _ _ _ => trivial) (fun x q hq hx => hx.of_stops (State.haltOne_other cause x hq.symm))
    (fun x _ => State.haltOne_same cause x p) trivial

theorem State.portDown_parts (s : State) (p : PortId) : (s.portDown p).parts = s.parts := by
  unfold State.portDown
  extract_lets left s1
  have hs1 : s1.parts = s.parts := rfl
  refine foldl_keeps (P := fun x : State => x.parts = s.parts) left hs1 fun y f hy => ?_
  split
  · extract_lets q way
    split
    · unfold State.handOver
      split
      · exact hy
      · exact hy
    · exact hy
  · exact hy

theorem State.engineDark_parts (s : State) (e : EngineId) : (s.engineDark e).parts = s.parts := by
  unfold State.engineDark
  extract_lets s1
  have hs1 : s1.parts = s.parts := by
    show (s.toBypass e 4).parts = s.parts
    unfold State.toBypass
    split
    · rfl
    · exact foldl_keeps (P := fun x : State => x.parts = s.parts) _ rfl fun x p hx => (x.portDown_parts p).trans hx
  exact foldl_keeps (P := fun x : State => x.parts = s.parts) _ hs1 fun x p hx => (x.portDown_parts p).trans hx

/-- The optical domains go off, and nothing else of what a fatal fault has set changes. -/
structure State.OpticsOff (s s' : State) : Prop where
  parts : s'.parts = s.parts
  alert : s'.alert = s.alert
  pins : s'.pins = s.pins
  dump : s'.dump = s.dump
  off : ∀ n, 20 ≤ n → n ≤ 23 → s'.dom n = .off

theorem State.opticsOff_spec (s : State) : s.OpticsOff s.opticsOff := by
  unfold State.opticsOff
  extract_lets w
  have hw : s.Volatile w := (State.Volatile.refl s).foldl State.volatile_engineDark _
  have hParts : w.parts = s.parts :=
    foldl_keeps (P := fun x : State => x.parts = s.parts) _ rfl fun x e hx => (x.engineDark_parts e).trans hx
  clear_value w
  refine ⟨hParts, hw.proj State.alert, hw.proj State.pins, hw.proj State.dump, fun n h20 h23 => ?_⟩
  have hCases : n = 20 ∨ n = 21 ∨ n = 22 ∨ n = 23 := by omega
  unfold State.dom State.setDom
  dsimp only
  simp only [Store.get_set]
  rcases hCases with rfl | rfl | rfl | rfl <;> rfl

theorem State.emergency_keeps (s : State) (src : BitVec 24) : s.TrafficOnly (s.emergency src) := by
  unfold State.emergency
  split
  · exact s.trafficOnly_send ..
  · exact .refl s

/-- What a device-fatal fault leaves. -/
theorem State.devFatalNow_spec (s : State) (detail : BitVec 8) (src : BitVec 24) :
    (s.devFatalNow detail src).phase = .fatal ∧ (s.devFatalNow detail src).alert.fatal = true ∧
      (s.devFatalNow detail src).pins.alertLow = true ∧ (s.devFatalNow detail src).pins.bypEn = false ∧
      (s.devFatalNow detail src).dump ≠ none ∧ (∀ n, 20 ≤ n → n ≤ 23 → (s.devFatalNow detail src).dom n = .off) ∧
      ∀ p, (s.part p).st ≠ .disabled → ((s.devFatalNow detail src).part p).Halted := by
  unfold State.devFatalNow
  extract_lets s1 alert pins s2 parts s3 dark
  have hs1 : ∀ p, (s.part p).st ≠ .disabled → (s1.part p).Halted := fun p hp =>
    (s.haltAll_part 0xE hp).of_stops (.of_faults ((State.servedOnly_raise ..).part p))
  clear_value s1
  have hs2 : s2.alert.fatal = true ∧ s2.pins.alertLow = true ∧ s2.pins.bypEn = false ∧ s2.parts = s1.parts := ⟨rfl, rfl, rfl, rfl⟩
  clear_value s2 parts
  obtain ⟨hAlert, hLow, hByp, hParts⟩ := hs2
  have hs3 : s3.alert = s2.alert ∧ s3.pins = s2.pins ∧ s3.dump ≠ none ∧ ∀ p, (s2.part p).Halted → (s3.part p).Halted := by
    obtain ⟨hDump, hSome⟩ := s2.dumpOnly_writeDump 5 parts src detail (decide (detail = 1 ∨ detail = 2))
    have hMail := (s2.writeDump 5 parts src detail (decide (detail = 1 ∨ detail = 2))).emergency_keeps src
    refine ⟨(hMail.proj State.alert).trans (hDump.proj State.alert), (hMail.proj State.pins).trans (hDump.proj State.pins),
      fun hNone => hSome ((hMail.proj State.dump).symm.trans hNone), fun p hp => ?_⟩
    obtain ⟨held, hHeld⟩ := hDump.part p
    have hKept : ((s2.writeDump 5 parts src detail (decide (detail = 1 ∨ detail = 2))).part p).Halted := by
      rw [hHeld]
      exact ⟨hp.st, hp.active, hp.ready, hp.armed⟩
    exact hKept.of_stops (.of_records (hMail.part p))
  clear_value s3
  have hDark : s3.OpticsOff dark := s3.opticsOff_spec
  clear_value dark
  obtain ⟨hAlert3, hPins3, hDump3, hPart3⟩ := hs3
  refine ⟨rfl, ?_, ?_, ?_, ?_, hDark.off, fun p hp => ?_⟩
  · exact (congrArg Alert.fatal (hDark.alert.trans hAlert3)).trans hAlert
  · exact (congrArg Pins.alertLow (hDark.pins.trans hPins3)).trans hLow
  · exact (congrArg Pins.bypEn (hDark.pins.trans hPins3)).trans hByp
  · exact fun hNone => hDump3 (hDark.dump.symm.trans hNone)
  · have h2 : (s2.part p).Halted := by
      rw [State.part, hParts]
      exact hs1 p hp
    show (dark.part p).Halted
    rw [State.part, hDark.parts]
    exact hPart3 p h2

theorem State.armed_congr {s s' : State} (h : s'.dict = s.dict) (p : PartId) : s'.armed p = s.armed p := by
  unfold State.armed State.level State.vval State.enabled State.layout State.dval
  rw [h]

theorem State.reach_within (s : State) (p : PartId) (ts : Stamp) : State.Within p s (s.reach ts) :=
  ⟨rfl, rfl, rfl, id, fun _ _ => rfl, fun _ _ => rfl⟩

/-- The graph of a partition is recorded within it. -/
theorem State.recordGraph_within {s x : State} (p : PartId) (h : State.Within p s x) :
    ∃ y, x.recordGraph p = y ∧ State.Within p s y ∧ y.armed p = s.armed p := by
  have hRecord : State.Within p x (x.recordGraph p) := by
    unfold State.recordGraph
    extract_lets es cut payload
    exact Within.trans (.of_traffic (State.trafficOnly_offer ..)) (.modOwn ..)
  exact ⟨_, rfl, h.trans hRecord, State.armed_congr (h.trans hRecord).dict p⟩

/-- Settles O48: the faults that are fatal to a partition, the reset, the boot, the release of a dump, and the fault of the
device. -/
theorem fatalFaultsResetOrStop : Obligations.FatalFaultsResetOrStop := by
  refine ⟨fun s p hLive => ?_, fun s detail src hRunning hLo hHi hFree => ?_⟩
  · intro isReset
    have hOf {s' : State} (h : s.IsReset p s') : isReset s' :=
      ⟨h.image, h.active, h.booted, h.ready, h.staged, h.st, h.images, fun t ht hSteady => h.sp t ht hSteady⟩
    have hFatal (h : s.armed p = false) (detail : BitVec 8) (src : BitVec 24) : isReset (s.partFatal p detail src) ∧
        (s.partFatal p detail src).dump ≠ none ∧
          ((s.part p).run.active = true → ((s.partFatal p detail src).part p).withheld = satAdd (s.part p).withheld 1) := by
      rw [State.partFatal_unarmed h]
      obtain ⟨hReset, hDump, hWithheld⟩ := State.partFatalNow_spec (State.Within.refl p s) detail src
      exact ⟨hOf hReset, hDump, hWithheld⟩
    refine ⟨fun detail src hSt hLo hHi => ⟨fun hArmed => ?_, fun hArmed hStopped => ?_⟩, fun hEnabled hSt => ?_, fun hBooted hArmed => ?_,
      fun hActive hStopped hArmed => ?_, fun hService hEnabled hBooted hCores => ?_, fun d hd hWaits => ?_⟩
    · exact ⟨_, congrArg Host.Outcome.next (if_pos ⟨hLive, hSt, hLo, hHi⟩), hFatal hArmed detail src⟩
    · have hWait : s.partFatal p detail src =
          { s.markFrame p 0xD 0xFFFF with slack := { s.slack with after := some (some p, detail, src) } } := by
        unfold State.partFatal
        rw [hArmed, hStopped]
        rfl
      refine ⟨_, congrArg Host.Outcome.next (if_pos ⟨hLive, hSt, hLo, hHi⟩), ?_⟩
      rw [hWait]
      exact ⟨rfl, rfl, ((s.servedOnly_markFrame p 0xD 0xFFFF).part p).proj Part.image⟩
    · obtain ⟨hReset, -, -⟩ := State.partReset_spec (State.Within.refl p s)
      exact ⟨_, congrArg Host.Outcome.next (if_pos ⟨hLive, hEnabled, hSt⟩), hOf hReset⟩
    · refine ⟨⟨_, congrArg Host.Outcome.next (if_pos ⟨hLive, hBooted⟩), ?_⟩, fun a hOutside => ?_⟩
      · obtain ⟨hReset, hDump, -⟩ := hFatal hArmed 19 (s.srcH 0 p.val)
        exact ⟨hReset, hDump⟩
      · exact congrArg Host.Outcome.next (if_pos ⟨hLive, hBooted, hOutside⟩)
    · obtain ⟨x, hx, hIn, hFree⟩ := s.recordGraph_within p (s.reach_within p ((s.part p).run.ts + BitVec.ofNat 64 (4 * s.deadline p)))
      have hExec : exec (.frameWatchdog p) s = .next (x.partFatal p 20 (s.srcH 1 0)) :=
        congrArg Host.Outcome.next ((if_pos ⟨hLive, hActive, hStopped⟩).trans (congrArg (fun y : State => y.partFatal p 20 (s.srcH 1 0)) hx))
      rw [State.partFatal_unarmed (hFree.trans hArmed)] at hExec
      obtain ⟨hReset, hDump, -⟩ := State.partFatalNow_spec hIn 20 (s.srcH 1 0)
      exact ⟨_, hExec, hOf hReset, hDump⟩
    · constructor
      · exact congrArg Host.Outcome.next (if_pos ⟨hService, hEnabled, hBooted, hCores⟩)
      · exact congrArg Host.Outcome.next (if_pos ⟨hService, hEnabled, hBooted, hCores⟩)
    · intro w
      have hExec : exec (.dumpRelease p) s = execDumpRelease p s := rfl
      rw [hExec, execDumpRelease, hd]
      exact congrArg Host.Outcome.next (if_pos hWaits)
  · have hRuns : s.devFatal detail src = s.devFatalNow detail src := by
      refine if_neg ?_
      rcases hFree with hFew | hNone
      · simp [show ¬4 ≤ detail.toNat by omega]
      · simp [hNone]
    refine ⟨_, congrArg Host.Outcome.next ((if_pos ⟨hLo, hHi⟩).trans (if_pos hRunning)), ?_⟩
    rw [hRuns]
    obtain ⟨hPhase, hAlert, hLow, hByp, hDump, hOff, hParts⟩ := s.devFatalNow_spec detail src
    exact ⟨hPhase, hAlert, hLow, hByp, hDump, hOff, fun p hp =>
      ⟨(hParts p hp).st, (hParts p hp).active, (hParts p hp).ready, (hParts p hp).armed⟩⟩

end Sys2Proof.Machine
end

section
/-! ### What waits at the scratchpad, its banks' sleep and the Tidewalk step (R135, R157, R228 to R236, R431, R432) -/

namespace Sys2Proof.Machine

open Host (Outcome)

/-! What the service of an access leaves waiting: an access that is served does not wait behind a write of its writer. -/

/-- No access at the tile waits behind an earlier write of its writer (R250). -/
def Tile.Unordered (tl : Tile) : Prop := ∀ a ∈ tl.held, a.why ≠ .order

theorem Tile.unordered_of_held {x y : Tile} (hx : x.Unordered) (h : y.held = x.held) : y.Unordered := by
  unfold Tile.Unordered
  rw [h]
  exact hx

theorem Tile.held_startWake (tl : Tile) (b : Nat) (freezes : Bool) : (tl.startWake b freezes).held = tl.held := by
  unfold Tile.startWake
  split <;> rfl

theorem Tile.held_holdAt (tl : Tile) (place cycle : Nat) (a : HeldAccess) :
    (tl.holdAt place cycle a).held = tl.held.take place ++ [{ a with since := cycle }] ++ tl.held.drop place := by
  unfold Tile.holdAt
  cases hWhy : a.why <;> simp only [Tile.held_startWake]

theorem Tile.unordered_holdAt {tl : Tile} (h : tl.Unordered) (place cycle : Nat) {a : HeldAccess} (ha : a.why ≠ .order) :
    (tl.holdAt place cycle a).Unordered := by
  intro b hb
  rw [Tile.held_holdAt, List.append_assoc, List.mem_append, List.mem_append, List.mem_singleton] at hb
  rcases hb with hb | rfl | hb
  · exact h b (List.mem_of_mem_take hb)
  · exact ha
  · exact h b (List.mem_of_mem_drop hb)

theorem Tile.held_touch (tl : Tile) (banks : List Nat) (now : Nat) : (tl.touch banks now).held = tl.held :=
  foldl_keeps (P := fun x : Tile => x.held = tl.held) banks rfl fun _ _ hx => hx

theorem Tile.held_landLate (tl : Tile) (c : Nat) : (tl.landLate c).held = tl.held := by
  unfold Tile.landLate
  split
  · rfl
  · exact foldl_keeps (P := fun x : Tile => x.held = tl.held) _ rfl fun _ _ hx => hx

theorem Tile.held_landAll (tl : Tile) : tl.landAll.held = tl.held := by
  unfold Tile.landAll
  split
  · rfl
  · exact foldl_keeps (P := fun x : Tile => x.held = tl.held) _ rfl fun _ _ hx => hx

theorem Tile.held_landFor (tl : Tile) (c : Nat) : (tl.landFor c).held = tl.held := by
  unfold Tile.landFor
  split
  · exact Tile.held_landAll tl
  · exact Tile.held_landLate ..

theorem Tile.dmaHold_ne_order (tl : Tile) (cycle a n : Nat) (read : Bool) {why : HoldWhy}
    (h : tl.dmaHold cycle a n read = some why) : why ≠ .order := by
  rintro rfl
  unfold Tile.dmaHold at h
  split at h
  · cases h
  · cases h
  · split at h
    · cases h
    · split at h
      · split at h <;> cases h
      · split at h <;> cases h

theorem State.held_abortTile (s : State) (t : TileId) (code : BitVec 16) (cause : BitVec 4) (unit : Nat) (ids : Ids)
    (detail : List Byte) (x : TileId) : ((s.abortTile t code cause unit ids detail).tile x).held = (s.tile x).held := by
  unfold State.abortTile
  extract_lets owner s1
  have hs1 : s1.tile x = s.tile x := s.raise_tile ..
  clear_value s1
  cases owner with
  | none => exact congrArg Tile.held hs1
  | some p => exact congrArg Tile.held hs1

theorem State.held_dmaKeep (s : State) (t : TileId) (a : HeldAccess) (addr : Nat) (data : List Byte) :
    ((s.dmaKeep t a addr data).tile t).held = (s.tile t).held := by
  unfold State.dmaKeep
  extract_lets s1
  have hs1 : (s1.tile t).held = (s.tile t).held := (congrArg Tile.held (s.modTile_tile_same t _)).trans rfl
  split
  · unfold State.landed
    rw [State.count_tile, State.modTile_tile_same]
    exact hs1
  · exact hs1

theorem Tile.held_countDone (tl : Tile) (o : AsyncOp) : (tl.countDone o).held = tl.held := by
  unfold Tile.countDone
  split <;> rfl

theorem State.held_dmahLanded (s : State) (t : TileId) (key : Nat) :
    ((s.dmahLanded t key).tile t).held = (s.tile t).held := by
  unfold State.dmahLanded
  rw [State.modTile_tile_same]
  split
  · rfl
  · split
    · exact Tile.held_countDone ..
    · rfl

theorem State.unordered_dmaPut {s : State} {t : TileId} (h : (s.tile t).Unordered) (place cycle : Nat) (a : HeldAccess) :
    ((s.dmaPut t place cycle a).tile t).Unordered := by
  unfold State.dmaPut
  extract_lets tl rd wr s1 met s2
  have hs1 : (s1.tile t).Unordered := by
    refine Tile.unordered_of_held h ?_
    rw [State.modTile_tile_same, Tile.held_touch, State.count_tile]
  have hs2 : (s2.tile t).Unordered := by
    subst s2
    split
    · exact Tile.unordered_of_held hs1 (State.held_dmaKeep ..)
    · refine foldl_keeps (P := fun y : State × Nat => (y.1.tile t).Unordered) _ hs1 fun y w hy => ?_
      extract_lets s3 x s4 s5
      have hs4 : (s4.tile t).Unordered := by
        rw [State.modTile_tile_same]
        exact Tile.unordered_holdAt hy y.2 cycle (by simp)
      split
      · show (s5.tile t).Unordered
        subst s5
        split
        · split
          · exact Tile.unordered_of_held hs4 (State.held_abortTile ..)
          · exact hs4
        · exact hs4
      · exact Tile.unordered_of_held hy (State.held_dmaKeep ..)
  split
  · exact Tile.unordered_of_held hs2 (State.held_dmahLanded ..)
  · exact hs2

theorem State.held_answerRead (s : State) (q : HeldRead) (x : TileId) :
    ((s.answerRead q).tile x).held = (s.tile x).held := by
  have hSend (y : State) (d : Dest) (m : Msg) : (y.send d m).tile x = y.tile x := (y.trafficOnly_send d m).proj (·.tile x)
  unfold State.answerRead
  extract_lets r gone
  have hGone : (gone.tile x).held = (s.tile x).held := congrArg Tile.held (hSend ..)
  split
  · exact hGone
  next t h _ =>
    extract_lets addr data frame s1 s2
    split
    · exact hGone
    · have hs1 : (s1.tile x).held = (s.tile x).held := by
        by_cases hx : x = t
        · subst hx
          rw [State.modTile_tile_same, Tile.held_touch, State.count_tile]
        · rw [State.modTile_tile_other _ _ hx, State.count_tile]
      have hs2 : (s2.tile x).held = (s.tile x).held :=
        foldl_keeps (P := fun y : State => (y.tile x).held = (s.tile x).held) _ hs1
          fun y i hy => (congrArg Tile.held (hSend ..)).trans hy
      split
      · exact (congrArg Tile.held (hSend ..)).trans hs2
      · exact hs2

theorem State.unordered_dmaAt {s : State} {t : TileId} (h : (s.tile t).Unordered) (place cycle : Nat) (a : HeldAccess) :
    ((s.dmaAt t place cycle a).tile t).Unordered := by
  unfold State.dmaAt
  extract_lets s1 wait
  have hs1 : (s1.tile t).Unordered := by
    rw [State.modTile_tile_same]
    exact Tile.unordered_of_held h (Tile.held_landFor ..)
  have hWait {b : HeldAccess} (hb : b.why ≠ .order) : ((wait b).tile t).Unordered := by
    rw [State.modTile_tile_same]
    exact Tile.unordered_holdAt hs1 place cycle hb
  split
  next why hWhy => exact hWait (b := { a with why }) (Tile.dmaHold_ne_order _ _ _ _ _ hWhy)
  · split
    · exact State.unordered_dmaPut hs1 place cycle a
    · split
      · exact hWait (by simp)
      · exact Tile.unordered_of_held hs1 (State.held_answerRead ..)

theorem State.unordered_dmaTry {s : State} {t : TileId} (h : (s.tile t).held = []) (a : HeldAccess) :
    ((s.dmaTry t 0 a).tile t).Unordered := by
  have hs : (s.tile t).Unordered := by
    unfold Tile.Unordered
    simp [h]
  unfold State.dmaTry
  extract_lets cycle wait
  rw [List.take_zero, List.any_nil, if_neg Bool.false_ne_true]
  split
  · rw [State.modTile_tile_same]
    exact Tile.unordered_holdAt hs 0 cycle (by simp)
  · exact State.unordered_dmaAt hs 0 cycle a

/-- The only access that waits is tried again as if nothing waited. -/
theorem State.serveAll_only {s : State} {t : TileId} {a : HeldAccess} (h : (s.tile t).held = [a]) :
    (s.serveAll t fun b => decide (b = a)) = (s.modTile t fun tl => { tl with held := [] }).dmaTry t 0 a := by
  have hErased : (s.modTile t fun tl => { tl with held := tl.held.erase a }) = s.modTile t fun tl => { tl with held := [] } :=
    State.modTile_congr (by simp [h])
  have hFirst : (s.serveSome t fun b => decide (b = a)) = (s.modTile t fun tl => { tl with held := [] }).dmaTry t 0 a := by
    unfold State.serveSome State.each
    rw [h, List.filter_cons_of_pos (by simp), List.filter_nil, List.foldl_cons, List.foldl_nil]
    unfold State.serveHeld
    rw [hErased, h, List.idxOf_cons_self]
  unfold State.serveAll
  rw [hFirst]
  refine State.serveSome_of_none (List.filter_eq_nil_iff.mpr fun b hb => ?_)
  have hUnordered := State.unordered_dmaTry (s := s.modTile t fun tl => { tl with held := [] }) (t := t) (by simp) a
  simpa using hUnordered b hb

/-- What runs for a retry while the cluster DMA works and one access waits for it. -/
theorem State.find_held {s : State} {t : TileId} {a : HeldAccess} {why : HoldWhy} (h : (s.tile t).held = [a]) (hWhy : a.why = why) :
    ((s.tile t).held.find? fun a => decide (a.why = why)) = some a := by
  rw [h]
  exact List.find?_cons_of_pos (by simpa using hWhy)

theorem State.servedOnly_settleDma (s : State) (t : TileId) : s.ServedOnly (s.settleDma t) := by
  unfold State.settleDma
  extract_lets over_ s1
  have hs1 : s.ServedOnly s1 := (State.ServedOnly.refl s).foldl (fun x a =>
    (x.servedOnly_modTile t (f := fun tl => { tl with held := tl.held.erase a }) fun _ => rfl).trans (State.servedOnly_dmaAt ..)) _
  exact hs1.trans (State.servedOnly_serveAll ..)

theorem exec_dmaSubbankWait {s : State} {t : TileId} (hUp : s.dmaUp t = true) (bank : SpBank) :
    exec (.dmaSubbankWait t bank) s = .next (
      if ∃ a ∈ ((s.settleDma t).tile t).held, a.why = .subbank ∧ bankOf a.addr = bank.val ∧
        a.first + 256 ≤ (s.settleDma t).dmaCycle t
      then (s.settleDma t).raise 0x0014 clsNone ((s.settleDma t).srcCluster (clusterOf t) 1) noIds
        ((s.settleDma t).tileOwner? t) [BitVec.ofNat 8 bank.val]
      else s.settleDma t) := by
  have hSettled : s.ServedOnly (s.settleDma t) := s.servedOnly_settleDma t
  have hUp' : (s.settleDma t).dmaUp t = true := (hSettled.proj (·.dmaUp t)).trans hUp
  have hExec : exec (.dmaSubbankWait t bank) s = execDmaSubbankWait t bank s := rfl
  rw [hExec, execDmaSubbankWait]
  generalize s.settleDma t = s1 at hUp'
  refine congrArg Outcome.next (if_congr ?_ rfl rfl)
  simp only [hUp', true_and, List.any_eq_true, Bool.and_eq_true, decide_eq_true_eq, and_assoc]

theorem State.dmaTry_issuing {s : State} {t : TileId} {a : HeldAccess} (hIssues : (s.tile t).seq.st = .issuing)
    (hFirst : ((s.tile t).held.any fun b => sameWriter a b) = false) :
    s.dmaTry t (s.tile t).held.length a = s.modTile t fun tl => { tl with
      held := tl.held ++ [{ a with why := .cycle, since := tl.seq.ac }] } := by
  have hCycle : s.dmaCycle t = (s.tile t).seq.ac := if_pos hIssues
  unfold State.dmaTry
  extract_lets cycle wait
  rw [List.take_length, hFirst, if_neg Bool.false_ne_true, if_pos hIssues]
  refine State.modTile_congr ?_
  simp [Tile.holdAt, cycle, hCycle]

theorem exec_dualPortBusyRetry {s : State} {t : TileId} (hUp : s.dmaUp t = true) {a : HeldAccess} (h : (s.tile t).held = [a])
    (hWhy : a.why = .busy) :
    exec (.dualPortBusyRetry t) s = .next ((s.modTile t fun tl => { tl with held := [] }).dmaTry t 0 a) := by
  have hExec : exec (.dualPortBusyRetry t) s = execDualPortBusyRetry t s := rfl
  rw [hExec, execDualPortBusyRetry, if_pos hUp, State.find_held h hWhy]
  exact congrArg Outcome.next (State.serveAll_only h)

section
variable {s : State} {t : TileId} (hUp : s.dmaUp t = true) {a : HeldAccess} (h : (s.tile t).held = [a]) (hWhy : a.why = .parity)
include hUp h hWhy

theorem exec_dmaReadParityRetry_good : exec (.dmaReadParityRetry t true) s =
    .next (((s.modTile t fun tl => { tl with held := [] }).dmaTry t 0 a).raise 0x0004 clsReplayed
      (s.srcCluster (clusterOf t) 1) noIds (s.tileOwner? t) []) := by
  have hExec : exec (.dmaReadParityRetry t true) s = execDmaReadParityRetry t true s := rfl
  rw [hExec, execDmaReadParityRetry, if_pos hUp, State.find_held h hWhy]
  dsimp only
  rw [if_pos rfl, State.serveAll_only h]

theorem exec_dmaReadParityRetry_again (hTries : a.tries < 2) : exec (.dmaReadParityRetry t false) s =
    .next (s.modTile t fun tl => { tl with held := [{ a with tries := a.tries + 1 }] }) := by
  have hExec : exec (.dmaReadParityRetry t false) s = execDmaReadParityRetry t false s := rfl
  rw [hExec, execDmaReadParityRetry, if_pos hUp, State.find_held h hWhy]
  dsimp only
  rw [if_neg Bool.false_ne_true, if_pos hTries]
  exact congrArg Outcome.next (State.modTile_congr (by simp [h]))

theorem exec_dmaReadParityRetry_refused {q : HeldRead} (hReq : a.req = some q) (hTries : 2 ≤ a.tries) :
    exec (.dmaReadParityRetry t false) s =
      .next ((s.modTile t fun tl => { tl with held := [] }).refuse q.r.window q.via 0 q.r.tag 0x07 0) := by
  have hErased : (s.modTile t fun tl => { tl with held := tl.held.erase a }) = s.modTile t fun tl => { tl with held := [] } :=
    State.modTile_congr (by simp [h])
  have hExec : exec (.dmaReadParityRetry t false) s = execDmaReadParityRetry t false s := rfl
  rw [hExec, execDmaReadParityRetry, if_pos hUp, State.find_held h hWhy]
  dsimp only
  rw [if_neg Bool.false_ne_true, if_neg (Nat.not_lt.mpr hTries), hErased, hReq]
  rfl

end

theorem exec_bankWake {s : State} {t : TileId} {b : SpBank} (q : Bool) (hUp : s.tileUp t = true)
    (hSleep : ((s.tile t).spBank b.val).power = .sleep) :
    exec (.bankWake t b q) s = .next (s.modTile t fun tl => tl.modSpBank b.val fun k =>
      { k with power := .waking, wakeEnd := tl.seq.cycle + 40, freezes := q }) :=
  congrArg Outcome.next ((if_pos ⟨hUp, hSleep⟩).trans (State.modTile_congr (if_pos hSleep)))

/-- A bank that wakes is ON from an ac of the owner's clock on. -/
def Tile.awake (tl : Tile) (b now : Nat) : Tile :=
  tl.modSpBank b fun k => { k with power := .on, wakeEnd := 0, freezes := false, touched := now }

theorem exec_bankWakeDone {s : State} {t : TileId} {b : SpBank} (hUp : s.dmaUp t = true)
    (hWaking : ((s.tile t).spBank b.val).power = .waking) (hHeld : (s.tile t).held = []) :
    exec (.bankWakeDone t b) s = .next (if ((s.tile t).spBank b.val).freezes then
        (s.modTile t fun tl => (tl.awake b.val (s.tileAc t)).modSeq fun q =>
          { q with frozen := q.frozen + 40, wake := satAdd q.wake 1 }).count (clusterOf t) 11 40
      else s.modTile t fun tl => tl.awake b.val (s.tileAc t)) := by
  have hExec : exec (.bankWakeDone t b) s = execBankWakeDone t b s := rfl
  rw [hExec, execBankWakeDone]
  dsimp only
  rw [if_neg (by rw [hUp]; exact Bool.noConfusion), if_pos hWaking]
  cases ((s.tile t).spBank b.val).freezes with
  | true =>
    refine congrArg Outcome.next (State.serveAll_of_none ?_ _)
    rw [if_pos rfl, State.count_tile, State.modTile_tile_same]
    exact hHeld
  | false =>
    refine congrArg Outcome.next (State.serveAll_of_none ?_ _)
    rw [if_neg Bool.false_ne_true, State.modTile_tile_same]
    exact hHeld

/-! Tidewalk. -/

/-- Some window of a tile, with at least 64 ac left, permits a region. -/
def Tile.Permits (tl : Tile) (x : Nat) : Prop := ∃ w ∈ tl.twin, tl.seq.ac + 64 ≤ w.stopAt ∧ tl.regionOk w x = true

theorem Tile.permits_iff (tl : Tile) (x : Nat) :
    ((tl.twinsOpen.filter fun w => decide (tl.seq.ac + 64 ≤ w.stopAt)).any fun w => tl.regionOk w x) = true ↔ tl.Permits x := by
  unfold Tile.Permits Tile.twinsOpen
  simp only [List.any_eq_true, List.mem_filter, decide_eq_true_eq]
  constructor
  · rintro ⟨w, ⟨⟨hw, -⟩, hStop⟩, hOk⟩
    exact ⟨w, hw, hStop, hOk⟩
  · rintro ⟨w, hw, hStop, hOk⟩
    exact ⟨w, ⟨⟨hw, by omega⟩, hStop⟩, hOk⟩

theorem Tile.nextRegion_permits {tl : Tile} {r : Nat} (h : tl.nextRegion? = some r) : tl.Permits r :=
  (tl.permits_iff r).mp (List.find?_some (p := fun r => List.any _ fun w => tl.regionOk w r) h)

/-- Every region before the one that is taken, from NEXT_REGION on, is one that no window permits. -/
theorem Tile.nextRegion_first {tl : Tile} {r i : Nat} (h : tl.nextRegion? = some r)
    (hi : i < (r + 1088 - tl.tw.next) % 1088) : ¬tl.Permits ((tl.tw.next + i) % 1088) := by
  unfold Tile.nextRegion? at h
  rw [List.find?_map] at h
  obtain ⟨j, hj, rfl⟩ := Option.map_eq_some_iff.mp h
  rw [List.find?_range_eq_some] at hj
  obtain ⟨-, hMem, hBefore⟩ := hj
  rw [List.mem_range] at hMem
  have hij : i < j := by omega
  have hNot := hBefore i hij
  rw [← Tile.permits_iff]
  simpa using hNot

theorem Tile.stepHits_nil (tl : Tile) : tl.stepHits [] = false := by
  unfold Tile.stepHits
  split
  · exact Bool.and_false _
  · rfl

/-- A step that starts where no access and no row write is in flight meets nothing. -/
theorem State.stepMeets_quiet {s : State} {t : TileId} {r : Nat} (hPaths : (s.tile t).paths = [])
    (hPort : r < 64 → ((s.tile t).mac (r / 4)).portUntil ≤ (s.tile t).seq.ac) : s.stepMeets t r = s := by
  unfold State.stepMeets
  dsimp only
  split
  next hr => exact if_neg (Nat.not_lt.mpr (hPort hr))
  next => exact if_neg (by rw [hPaths, List.filter_nil, Tile.stepHits_nil]; exact Bool.false_ne_true)

/-- What the tile holds of a step on a region that starts. -/
def Tile.stepTaken (tl : Tile) (r : Nat) : Tile := { tl with
  step := some { region := r, start := tl.seq.ac, saved := tl.saved r, failed := false, freezes := false }
  tw := { tl.tw with next := (r + 1) % 1088 } }

theorem Tile.touch_bankOnly (tl : Tile) (banks : List Nat) (now : Nat) :
    tl.touch banks now = { tl with spBanks := (tl.touch banks now).spBanks } :=
  foldl_keeps (P := fun x : Tile => x = { tl with spBanks := x.spBanks }) banks rfl fun x b hx => by
    unfold Tile.modSpBank
    rw [hx]

theorem exec_tidewalkStep {s : State} {t : TileId} {r : Nat} (hUp : s.tileUp t = true) (hStep : (s.tile t).step = none)
    (hRegion : (s.tile t).nextRegion? = some r) (hPaths : (s.tile t).paths = []) (hParity : (s.tile t).regionParity r = [])
    (hPort : r < 64 → ((s.tile t).mac (r / 4)).portUntil ≤ (s.tile t).seq.ac) :
    exec (.tidewalkStep t [] none) s = .next (if r < 64 then s.modTile t fun tl => tl.stepTaken r
      else (s.modTile t fun tl => tl.stepTaken r).modTile t fun tl => tl.touch [bankOf (regionBase r)] (s.tileAc t)) := by
  have hExec : exec (.tidewalkStep t [] none) s = execTidewalkStep t [] none s := rfl
  rw [hExec, execTidewalkStep]
  dsimp only
  rw [if_pos ⟨hUp, hStep⟩, hRegion]
  dsimp only
  rw [hParity]
  refine congrArg Outcome.next (State.stepMeets_quiet ?_ ?_)
  · split
    · rw [State.modTile_tile_same]
      exact hPaths
    · rw [State.modTile_tile_same, Tile.touch_bankOnly, State.modTile_tile_same]
      exact hPaths
  · intro hr
    rw [if_pos hr, State.modTile_tile_same]
    exact hPort hr

/-- What the tile holds once a step is over, before its freeze is counted. -/
def Tile.stepOver (tl : Tile) (st : TwStep) (cycle now : Nat) : Tile :=
  let recent := tl.bankSteps.filter fun x => decide (cycle < x.2.2 + 512)
  let tl := { tl with
    step := none
    bankSteps := if st.region < 64 then recent ++ [(st.region / 4, st.start, min (cycle + 1) (st.start + 64))] else recent }
  if st.region < 64 then tl else tl.touch [bankOf (regionBase st.region)] now

/-- A step that is over leaves the tile's scratchpad, macros, waiting accesses and sequencer alone. -/
theorem Tile.stepOver_keeps (tl : Tile) (st : TwStep) (c now : Nat) :
    (tl.stepOver st c now).sp = tl.sp ∧ (tl.stepOver st c now).macros = tl.macros ∧
      (tl.stepOver st c now).held = tl.held ∧ (tl.stepOver st c now).step = none ∧ (tl.stepOver st c now).seq = tl.seq := by
  unfold Tile.stepOver
  dsimp only
  split
  · exact ⟨rfl, rfl, rfl, rfl, rfl⟩
  · rw [Tile.touch_bankOnly]
    exact ⟨rfl, rfl, rfl, rfl, rfl⟩

theorem exec_tidewalkStepEnd {s : State} {t : TileId} {st : TwStep} {n : Nat} (hStep : (s.tile t).step = some st)
    (hHeld : (s.tile t).held = []) (hn : n ≤ 64) :
    ∃ s', exec (.tidewalkStepEnd t n) s = .next s' ∧ (s'.tile t).step = none ∧ (s'.tile t).sp = (s.tile t).sp ∧
      (s'.tile t).macros = (s.tile t).macros ∧
      (s'.tile t).seq.frozen = (s.tile t).seq.frozen + (if st.freezes then n else 0) ∧
      ∀ x, x ≠ t → s'.tile x = s.tile x := by
  have hExec : exec (.tidewalkStepEnd t n) s = execTidewalkStepEnd t n s := rfl
  rw [hExec, execTidewalkStepEnd, hStep]
  dsimp only
  rw [Nat.min_eq_left hn]
  obtain ⟨hSp, hMacros, hHeld', hStep', hSeq⟩ := (s.tile t).stepOver_keeps st (s.dmaCycle t) (s.tileAc t)
  cases hFreezes : st.freezes with
  | true =>
    let s1 := (s.modTile t fun tl => (tl.stepOver st (s.dmaCycle t) (s.tileAc t)).modSeq fun q => q.freeze n).count
      (clusterOf t) 11 n
    have hTile : s1.tile t = ((s.tile t).stepOver st (s.dmaCycle t) (s.tileAc t)).modSeq fun q => q.freeze n := by
      rw [State.count_tile, State.modTile_tile_same]
    refine ⟨s1, congrArg Outcome.next (State.serveAll_of_none ?_ _), ?_⟩
    · rw [if_pos rfl]
      exact (congrArg Tile.held hTile).trans (hHeld'.trans hHeld)
    · rw [hTile, if_pos rfl]
      refine ⟨hStep', hSp, hMacros, congrArg (fun q : Seq => q.frozen + n) hSeq, fun x hx => ?_⟩
      rw [State.count_tile, State.modTile_tile_other _ _ hx]
  | false =>
    refine ⟨s.modTile t fun tl => tl.stepOver st (s.dmaCycle t) (s.tileAc t),
      congrArg Outcome.next (State.serveAll_of_none ?_ _), ?_⟩
    · rw [if_neg Bool.false_ne_true, State.modTile_tile_same]
      exact hHeld'.trans hHeld
    · rw [State.modTile_tile_same, if_neg Bool.false_ne_true]
      exact ⟨hStep', hSp, hMacros, congrArg Seq.frozen hSeq, fun x hx => State.modTile_tile_other _ _ hx⟩

/-- Settles O34: each retry runs on the one access that waits, a wake and a step change the fields the rule names, and the
region a step takes is the first of the cyclic list from NEXT_REGION that a window permits. -/
theorem scratchpadEventsAndTidewalk : Obligations.ScratchpadEventsAndTidewalk := by
  unfold Obligations.ScratchpadEventsAndTidewalk
  refine ⟨fun s t hUp => ⟨exec_dmaSubbankWait hUp, fun a hIssues _ hFirst => State.dmaTry_issuing hIssues hFirst,
    fun a h hWhy => exec_dualPortBusyRetry hUp h hWhy, fun a q h hWhy hReq => ⟨exec_dmaReadParityRetry_good hUp h hWhy,
      exec_dmaReadParityRetry_again hUp h hWhy, exec_dmaReadParityRetry_refused hUp h hWhy hReq⟩,
    fun b hTile hOn hNever hIdle => congrArg Outcome.next (if_pos ⟨hTile, hNever, hOn, hIdle⟩),
    fun b q hTile hSleep => exec_bankWake q hTile hSleep, fun b hWaking hHeld => exec_bankWakeDone hUp hWaking hHeld⟩,
    fun s t => ⟨fun r hTile hStep hRegion hPaths hParity hPort => ⟨Tile.nextRegion_permits hRegion,
      fun i hi => Tile.nextRegion_first hRegion hi, exec_tidewalkStep hTile hStep hRegion hPaths hParity hPort⟩,
      fun st n hStep hHeld hn => exec_tidewalkStepEnd hStep hHeld hn⟩⟩

end Sys2Proof.Machine
end

section
/-! ### What repairs, fills, faults and the memories of a start leave alone (R25, R201, R421, R424, R446) -/

namespace Sys2Proof.Machine

/-- `s'` has the phase, OTP, the watchdog, the test in progress, BYP_EN, the fabric's start, the Ebb records and the accesses
in hard error of `s`. -/
structure State.Ambient (s s' : State) : Prop where
  phase : s'.phase = s.phase
  otp : s'.otp = s.otp
  watchdog : s'.watchdog = s.watchdog
  testing : s'.testing = s.testing
  fabricUp : s'.fabricUp = s.fabricUp
  bypEn : s'.pins.bypEn = s.pins.bypEn
  ebb0 : s'.flash.ebb0 = s.flash.ebb0
  ebb1 : s'.flash.ebb1 = s.flash.ebb1
  hardNow : s'.hardNow = s.hardNow
  badAccess : s'.badAccess = s.badAccess

namespace State.Ambient

theorem refl (s : State) : s.Ambient s := ⟨rfl, rfl, rfl, rfl, rfl, rfl, rfl, rfl, rfl, rfl⟩

theorem trans {a b c : State} (h : a.Ambient b) (h' : b.Ambient c) : a.Ambient c :=
  ⟨h'.phase.trans h.phase, h'.otp.trans h.otp, h'.watchdog.trans h.watchdog, h'.testing.trans h.testing,
    h'.fabricUp.trans h.fabricUp, h'.bypEn.trans h.bypEn, h'.ebb0.trans h.ebb0, h'.ebb1.trans h.ebb1,
    h'.hardNow.trans h.hardNow, h'.badAccess.trans h.badAccess⟩

theorem foldl {α : Type} {s s' : State} (h : s.Ambient s') {f : State → α → State} (hf : ∀ (x : State) a, x.Ambient (f x a))
    (l : List α) : s.Ambient (l.foldl f s') :=
  foldl_keeps l h fun y a hy => hy.trans (hf y a)

theorem of_volatile {s s' : State} (h : s.Volatile s') : s.Ambient s' :=
  ⟨h.proj State.phase, h.proj State.otp, h.proj State.watchdog, h.proj State.testing, h.proj State.fabricUp,
    h.proj (·.pins.bypEn), h.proj (·.flash.ebb0), h.proj (·.flash.ebb1), h.proj State.hardNow, h.proj State.badAccess⟩

theorem of_served {s s' : State} (h : s.ServedOnly s') : s.Ambient s' := of_volatile (.of_served h)

theorem of_traffic {s s' : State} (h : s.TrafficOnly s') : s.Ambient s' := of_volatile (.of_traffic h)

theorem of_hbm {s s' : State} (h : s.HbmOnly s') : s.Ambient s' :=
  ⟨h.proj State.phase, h.proj State.otp, h.proj State.watchdog, h.proj State.testing, h.proj State.fabricUp,
    h.proj (·.pins.bypEn), h.proj (·.flash.ebb0), h.proj (·.flash.ebb1), h.proj State.hardNow, h.proj State.badAccess⟩

/-- A change of other fields. -/
theorem of_eq {s s' : State} (hPhase : s'.phase = s.phase := by rfl) (hOtp : s'.otp = s.otp := by rfl)
    (hWatchdog : s'.watchdog = s.watchdog := by rfl) (hTesting : s'.testing = s.testing := by rfl)
    (hFabric : s'.fabricUp = s.fabricUp := by rfl) (hByp : s'.pins.bypEn = s.pins.bypEn := by rfl)
    (hEbb0 : s'.flash.ebb0 = s.flash.ebb0 := by rfl) (hEbb1 : s'.flash.ebb1 = s.flash.ebb1 := by rfl)
    (hHard : s'.hardNow = s.hardNow := by rfl) (hBad : s'.badAccess = s.badAccess := by rfl) : s.Ambient s' :=
  ⟨hPhase, hOtp, hWatchdog, hTesting, hFabric, hByp, hEbb0, hEbb1, hHard, hBad⟩

theorem modTile (s : State) (t : TileId) (f : Tile → Tile) : s.Ambient (s.modTile t f) := of_eq

theorem modPart (s : State) (p : PartId) (f : Part → Part) : s.Ambient (s.modPart p f) := of_eq

theorem modCluster (s : State) (c : ClusterId) (f : Cluster → Cluster) : s.Ambient (s.modCluster c f) := of_eq

theorem modBand (s : State) (b : BandId) (f : Band → Band) : s.Ambient (s.modBand b f) := of_eq

theorem modEngine (s : State) (e : EngineId) (f : Engine → Engine) : s.Ambient (s.modEngine e f) := of_eq

theorem modPort (s : State) (q : PortId) (f : Port → Port) : s.Ambient (s.modPort q f) := of_eq

theorem setDom (s : State) (n : Nat) (v : DomSt) : s.Ambient (s.setDom n v) := of_eq

theorem raise (s : State) (code : BitVec 16) (cls : BitVec 3) (src : BitVec 24) (ids : Ids) (part : Option PartId)
    (detail : List Byte) : s.Ambient (s.raise code cls src ids part detail) := of_volatile (s.volatile_raise ..)

/-! Stops and unloads. -/

theorem unloadTile (s : State) (t : TileId) : s.Ambient (s.unloadTile t) := by
  unfold State.unloadTile
  extract_lets s1 s2
  have hs1 : s.Ambient s1 := of_volatile ((s.volatile_wipeSealed t).trans (State.volatile_clearHandles ..))
  clear_value s1
  exact (hs1.trans (modTile s1 t _)).trans (of_served (State.servedOnly_freeDma ..))

theorem unload (s : State) (p : PartId) : s.Ambient (s.unload p) := by
  unfold State.unload
  extract_lets s1 own served idle s2
  have hs1 : s.Ambient s1 := (refl s).foldl unloadTile _
  clear_value s1
  exact (hs1.trans of_eq).trans (modPart s2 p _)

theorem abandonAll (s : State) (p : PartId) : s.Ambient (s.abandonAll p) := by
  unfold State.abandonAll State.abandon
  extract_lets s1
  have hDrop : s.Ambient (s.dropModelKey p) := of_eq
  have hs1 : s.Ambient s1 := hDrop.trans (modPart ..)
  split
  · exact hs1
  · exact (hs1.trans (modPart ..)).trans (modPart ..)

theorem leaveStop (s : State) (p : PartId) : s.Ambient (s.leaveStop p) := by
  unfold State.leaveStop
  extract_lets s1 parts
  have hs1 : s.Ambient s1 := modPart ..
  clear_value s1 parts
  split
  · exact hs1.trans of_eq
  · exact hs1.trans of_eq

/-! Bands. -/

theorem owePages (s : State) (b : BandId) (all : Bool) : s.Ambient (s.owePages b all) :=
  (refl s).foldl (fun x p => modPart x p _) _

theorem bandOff (s : State) (b : BandId) : s.Ambient (s.bandOff b) := by
  unfold State.bandOff
  exact (((owePages s b true).foldl (fun x t => modTile x t _) _).foldl (fun x c => modCluster x c _) _).trans
    ((setDom ..).trans (modBand ..))

theorem bandRet (s : State) (b : BandId) : s.Ambient (s.bandRet b) := by
  unfold State.bandRet
  exact (((owePages s b false).foldl (fun x t => modTile x t _) _).foldl (fun x c => modCluster x c _) _).trans
    ((setDom ..).trans (modBand ..))

theorem bandDown (s : State) (b : BandId) : s.Ambient (s.bandDown b) := by
  unfold State.bandDown
  split
  · exact bandRet ..
  · exact bandOff ..

theorem bandOrder (s : State) (b : BandId) (toRet : Bool) : s.Ambient (s.bandOrder b toRet) := by
  unfold State.bandOrder
  split
  · extract_lets s1 s2
    have hs1 : s.Ambient s1 := modBand ..
    have hs2 : s.Ambient s2 := (hs1.trans (setDom ..)).trans (modBand ..)
    clear_value s1 s2
    split
    · split
      · exact hs2.trans (bandDown ..)
      · exact hs2
    · exact hs1
  · split
    · exact bandDown ..
    · exact refl s

theorem restartBands (s : State) (p : PartId) : s.Ambient (s.restartBands p) := by
  refine (refl s).foldl (fun x b => ?_) _
  split
  · have hDrawn : x.Ambient x.drawn := of_eq
    exact hDrawn.foldl (fun y t => modTile y t _) _
  · exact refl x

theorem startOrders (s : State) (p : PartId) : s.Ambient (s.startOrders p) := by
  refine (refl s).foldl (fun x b => ?_) _
  split
  · exact bandOrder ..
  · exact refl x

/-! Partition-fatal faults. -/

theorem putDump (s : State) (cls parts : BitVec 8) (src : BitVec 24) (detail : BitVec 8) (flashOnly : Bool) :
    s.Ambient (s.putDump cls parts src detail flashOnly) := by
  unfold State.putDump
  extract_lets words regs tiles rings n1 n2 n3 sizes n4 total sects d head old cleared written scratch saved flash s1
  have hCleared : s.HbmOnly cleared := s.hbmOnly_set _
  have hWritten : s.HbmOnly written :=
    ((hCleared.trans (State.hbmOnly_hbmWrite ..)).trans (State.hbmOnly_hbmWrite ..)).trans (State.hbmOnly_hbmWrite ..)
  have hScratch : s.HbmOnly scratch := State.hbmOnly_foldl hWritten (fun x _ => x.hbmOnly_set _) tiles.zipIdx
  have hSaved : s.Ambient saved := by
    subst saved
    split
    · exact refl s
    · exact of_hbm ((State.hbmOnly_foldl hScratch (fun x r => x.hbmOnly_set _) rings.zipIdx).trans (State.hbmOnly_keepHard ..))
  have hs1 : s.Ambient s1 := hSaved.trans ⟨rfl, rfl, rfl, rfl, rfl, rfl, rfl, rfl, rfl, rfl⟩
  clear_value s1
  exact hs1.foldl (fun x p => modPart x p _) _

theorem writeDump (s : State) (cls parts : BitVec 8) (src : BitVec 24) (detail : BitVec 8) (flashOnly : Bool) :
    s.Ambient (s.writeDump cls parts src detail flashOnly) := by
  unfold State.writeDump
  split
  · exact putDump ..
  · split
    · exact putDump ..
    · extract_lets d1 d2 flags old fields head flash s1
      have hs1 : s.Ambient s1 := ⟨rfl, rfl, rfl, rfl, rfl, rfl, rfl, rfl, rfl, rfl⟩
      clear_value s1
      split
      · exact hs1
      · exact hs1.trans (of_hbm ((s1.hbmOnly_hbmWrite ..).trans (State.hbmOnly_keepHard ..)))

theorem leaves (s : State) (p : PartId) : s.Ambient (s.leaves p) := by
  unfold State.leaves
  have hDrawn (x : State) : x.Ambient x.drawn := of_eq
  exact (((unload s p).trans (modPart ..)).trans (leaveStop ..)).trans (hDrawn _)

theorem resetAt (s : State) (p : PartId) : s.Ambient (s.resetAt p) := by
  unfold State.resetAt
  extract_lets s1
  have hs1 : s.Ambient s1 := (((of_volatile (s.volatile_withdraw p)).trans (of_volatile (State.volatile_stopFrame ..))).trans
    (abandonAll ..)).trans (leaves ..)
  exact hs1.foldl (fun x t => (modTile x t _).trans (of_served (State.servedOnly_freeDma ..))) _

theorem partReset (s : State) (p : PartId) : s.Ambient (s.partReset p) := by
  rw [State.partReset_eq]
  exact (((resetAt s p).trans (restartBands ..)).trans (startOrders ..)).trans (modPart ..)

theorem partFatal (s : State) (p : PartId) (detail : BitVec 8) (src : BitVec 24) : s.Ambient (s.partFatal p detail src) := by
  unfold State.partFatal
  split
  · have hMark : s.Ambient (s.markFrame p 0xD 0xFFFF) := of_served (s.servedOnly_markFrame ..)
    exact ⟨hMark.phase, hMark.otp, hMark.watchdog, hMark.testing, hMark.fabricUp, hMark.bypEn, hMark.ebb0, hMark.ebb1,
      hMark.hardNow, hMark.badAccess⟩
  · unfold State.partFatalNow
    extract_lets s1 s2 s3 s4
    have hs1 : s.Ambient s1 := of_volatile (s.volatile_stopFrame ..)
    have hs2 : s.Ambient s2 := (hs1.trans (of_volatile (s1.volatile_withdraw p))).trans (modPart ..)
    have hs3 : s.Ambient s3 := hs2.trans (raise ..)
    have hs4 : s.Ambient s4 := (hs3.trans (writeDump ..)).trans (of_volatile (State.volatile_emergency ..))
    exact hs4.trans (partReset ..)

/-! Fills and repairs. -/

theorem programBank (s : State) (t : TileId) (m : Nat) (phys : BitVec 1) (groups : BitVec 4) (pm1 : BitVec 3) (wsgn : BitVec 1)
    (layer : BitVec 16) (row : Nat → Option (List Byte × Bool)) (upd : Bank → Bank) :
    s.Ambient (s.programBank t m phys groups pm1 wsgn layer row upd) := by
  unfold State.programBank
  dsimp only
  exact (modTile s t _).foldl (fun x r => (modTile x t _).trans (raise ..)) _

theorem programFrom (s : State) (p : PartId) (t : TileId) (m : Nat) (phys : BitVec 1) (srcs : Store RecSrc) :
    s.Ambient (s.programFrom p t m phys srcs) := by
  unfold State.programFrom
  split
  · exact refl s
  · exact programBank ..

theorem writeBank (s : State) (p : PartId) (t : TileId) (m : Nat) (phys : BitVec 1) : s.Ambient (s.writeBank p t m phys) := by
  unfold State.writeBank
  split
  · exact (modTile s t _).trans (modPart ..)
  · exact programFrom ..

theorem reprogram (s : State) (p : PartId) (t : TileId) (m : Nat) (banks : List (BitVec 1)) :
    s.Ambient (s.reprogram p t m banks) := by
  refine (refl s).foldl (fun x phys => ?_) _
  extract_lets y
  have hy : x.Ambient y := writeBank ..
  split
  · exact hy
  · exact hy.trans (modPart ..)

theorem refuse (s : State) (w : BitVec 24) (via : Via) (epoch : BitVec 32) (tag : BitVec 16) (reason : BitVec 8)
    (detail : BitVec 32) : s.Ambient (s.refuse w via epoch tag reason detail) := by
  unfold State.refuse
  extract_lets det s1
  have hs1 : s.Ambient s1 := by
    subst s1
    split
    · exact (modTile ..).trans (raise ..)
    · split
      · exact raise ..
      · exact raise ..
  exact hs1.trans (of_traffic (State.trafficOnly_send ..))

theorem restoreFails (s : State) (p : PartId) (t : TileId) (all : Bool) : s.Ambient (s.restoreFails p t all) := by
  unfold State.restoreFails
  extract_lets again s1
  have hs1 : s.Ambient s1 := modPart ..
  split
  · exact hs1.trans (partFatal ..)
  · exact hs1

theorem fillPages (s : State) (p : PartId) (t : TileId) (all : List Sect) (cls : Nat) : s.Ambient (s.fillPages p t all cls) := by
  unfold State.fillPages
  split
  · exact modTile ..
  · exact refl s

theorem fillBlocks (s : State) (p : PartId) (t : TileId) (home : Nat × Bool) (bs : List Block) (plain : Option (List Byte))
    (only : Nat → Bool) : s.Ambient (s.fillBlocks p t home bs plain only) := by
  refine (refl s).foldl (fun x b => (refl x).foldl (fun y k => ?_) _) _
  extract_lets srcs phys
  split
  · exact programFrom ..
  · exact programBank ..

theorem fillTile (s : State) (p : PartId) (im : Image) (plain : Plain) (cls : Nat) (t : TileId) :
    s.Ambient (s.fillTile p im plain cls t) := by
  have hSealed (x : State) : x.Ambient (x.fillSealed p t im.sections plain) := (refl x).foldl (fun y k => modTile y t _) _
  have hStream (x : State) : x.Ambient (x.fillStream p t im.sections cls) := (fillPages ..).trans (modTile ..)
  have hTables (x : State) : x.Ambient (x.fillTables p t im.sections plain) := by
    unfold State.fillTables
    extract_lets open_ y
    have hy : x.Ambient y := (refl x).foldl (fun z k => modTile z t _) _
    clear_value y
    split
    · exact hy
    · exact hy.trans (modTile ..)
  have hResident (x : State) : x.Ambient (x.fillResident p im plain t fun _ => true) :=
    (refl x).foldl (fun y k => fillBlocks ..) _
  have hLists (x : State) : x.Ambient (x.fillLists p im plain t) := (refl x).foldl (fun y k => modTile y t _) _
  unfold State.fillTile
  extract_lets all s1 s2
  exact ((((hSealed s).trans (hStream _)).trans (hTables _)).trans ((hResident _).trans (hLists _))).trans (modTile ..)

theorem refillTile (s : State) (p : PartId) (t : TileId) : s.Ambient (s.refillTile p t) := by
  unfold State.refillTile
  split
  · exact refl s
  · extract_lets s1 s2 s3
    have hs1 : s.Ambient s1 := (refl s).foldl (fun x w => (modTile ..).trans (refuse ..)) _
    have hs2 : s.Ambient s2 := (hs1.trans (unloadTile ..)).trans (modTile ..)
    clear_value s1 s2
    split
    · exact hs2.trans (modPart ..)
    · split
      · exact hs2.trans (restoreFails ..)
      · have hs3 : s.Ambient s3 := hs2.trans (fillTile ..)
        clear_value s3
        exact hs3.foldl (fun x k => modPart x p _) _

theorem retireTile (s : State) (t : TileId) : s.Ambient (s.retireTile t) := by
  unfold State.retireTile
  extract_lets c i ts old s1 s2 s3 key s4 s5
  split
  · have hs1 : s.Ambient s1 := modCluster ..
    have hs2 : s.Ambient s2 := hs1.foldl (fun x u => modTile x u _) _
    have hs3 : s.Ambient s3 := hs2.trans (raise ..)
    clear_value s3
    split
    next p _ =>
      exact (hs3.trans (modPart s3 p _)).foldl (fun x u => refillTile ..) _
    · exact hs3
  · have hs4 : s.Ambient s4 := modCluster ..
    have hs5 : s.Ambient s5 := hs4.trans (raise ..)
    clear_value s5
    split
    · split
      · exact (hs5.trans (unload ..)).trans (partFatal ..)
      · exact hs5
    · exact hs5

theorem retireMacro (s : State) (t : TileId) (m : Nat) (failed : List (BitVec 1)) : s.Ambient (s.retireMacro t m failed) := by
  unfold State.retireMacro
  split
  · extract_lets moved lost s1 s2 key
    have hs1 : s.Ambient s1 := modTile ..
    have hs2 : s.Ambient s2 := hs1.trans (raise ..)
    clear_value s2
    split
    next p _ =>
      extract_lets s3 s4
      have hs3 : s.Ambient s3 := hs2.trans (modPart s2 p _)
      have hs4 : s.Ambient s4 := hs3.foldl (fun x k => reprogram ..) _
      clear_value s4
      split
      · exact hs4.trans (modPart ..)
      · exact hs4
    · exact hs2
  · exact retireTile ..

theorem applyFinding (s : State) (f : MemFinding) : s.Ambient (s.applyFinding f) := by
  unfold State.applyFinding
  split
  · split
    · exact refl s
    · extract_lets phys steer
      split
      · split
        · exact refl s
        · exact (modTile ..).trans (raise ..)
      · exact retireMacro ..
  · split
    · exact retireMacro ..
    · exact refl s
  · exact retireTile ..
  · exact (modCluster ..).trans (modCluster ..)
  · exact of_eq
  · exact (modEngine ..).trans (of_volatile (State.volatile_toBypass ..))
  · exact refl s
  · exact refl s

theorem domainsOn (s : State) : s.Ambient s.domainsOn := by
  unfold State.domainsOn
  extract_lets failmap doms clk s1 s2
  have hs1 : s.Ambient s1 := of_eq
  have hs2 : s.Ambient s2 := hs1.foldl (fun x b => modBand x b _) _
  exact hs2.foldl (fun x c => modCluster x c _) _

theorem dropMap (s : State) : s.Ambient s.dropMap := by
  unfold State.dropMap
  extract_lets f ts s1 s2 s3
  have hs1 : s.Ambient s1 := (refl s).foldl (fun x t => modTile x t _) _
  clear_value s1
  have hs2 : s.Ambient s2 := hs1.trans ⟨rfl, rfl, rfl, rfl, rfl, rfl, rfl, rfl, rfl, rfl⟩
  have hs3 : s.Ambient s3 := hs2.foldl (fun x c => modCluster x c _) _
  exact hs3.trans (raise ..)

end State.Ambient

/-- The memories of a start are tested and repaired with OTP as it is. -/
theorem State.memories_otp (s : State) (m : StartIn) : (s.memories m).1.otp = s.otp := by
  unfold State.memories
  split
  · rfl
  · extract_lets s1 s2
    have hs1 : s.Ambient s1 := .domainsOn s
    have hs2 : s2.otp = s.otp := by
      have hMap : s.Ambient (if (m.mapOk != 0 && s1.hmacKey) = true then s1 else s1.dropMap) := by
        split
        · exact hs1
        · exact hs1.trans (.dropMap ..)
      exact hMap.otp
    clear_value s2
    split
    · exact hs2
    · exact ((State.Ambient.refl s2).foldl State.Ambient.applyFinding _).otp.trans hs2


end Sys2Proof.Machine
end

section
/-! ### Resets, starts and the shutdown (R388, R413, R416 to R430, R436) -/

namespace Sys2Proof.Machine

open Host (Outcome)

/-! #### Resets -/

/-- `s'` is what a reset of type `cause` makes of `s`, whatever becomes of HBM, the dump and the tamper latch. -/
def State.ResetsTo (s s' : State) (cause : BitVec 3) : Prop :=
  s'.phase = .inReset ∧ s'.startWord.cause = cause ∧ s'.otp = s.otp ∧
    s'.flash.ebb0 = s.flash.ebb0 ∧ s'.flash.ebb1 = s.flash.ebb1 ∧ s'.dict = s.flash.dict ∧ s'.ecat = {} ∧
    (∀ p, (s'.part p).image = none ∧ (s'.part p).run.active = false ∧ (s'.part p).ownerRsa = (s.part p).ownerRsa) ∧
    (∀ t, (s'.tile t).sp = [] ∧ (s'.tile t).repair.retired = (s.tile t).repair.retired ∧
      ∀ m, ((s'.tile t).mac m).bank0.cells = [] ∧ ((s'.tile t).mac m).bank0.steer = ((s.tile t).mac m).bank0.steer) ∧
    ∀ n, s'.dom n = if n = 28 then .on else .off

theorem State.hbmOnly_cutDump (s : State) : s.DumpOnly s.cutDump ∧ s.cutDump.flash = s.flash ∧ s.cutDump.parts = s.parts := by
  unfold State.cutDump
  split
  next d _ =>
    split
    · extract_lets s1
      have hs1 : s.DumpOnly s1 := ⟨rfl, fun p => ⟨(s.part p).dumpHeld, rfl⟩⟩
      have hFlash : s1.flash = s.flash := rfl
      have hParts : s1.parts = s.parts := rfl
      clear_value s1
      have hBytes := (s1.hbmOnly_hbmWrite (dumpBase + 13) [BitVec.ofNat 8 (2 * b2n d.flashOnly)]).trans
        (State.hbmOnly_keepHard _ s (dumpBase + 13) 1)
      exact ⟨hs1.trans (.of_hbm hBytes), (hBytes.proj State.flash).trans hFlash, (hBytes.proj State.parts).trans hParts⟩
    · exact ⟨.refl s, rfl, rfl⟩
  · exact ⟨.refl s, rfl, rfl⟩

theorem State.cutDump_old {s : State} (h : ∀ d, s.dump = some d → 100000000 ≤ nsSince d.ts s.now) : s.cutDump = s := by
  unfold State.cutDump
  split
  next d hDump => exact if_neg fun hCut => absurd (h d hDump) (Nat.not_le.mpr hCut.2.2)
  · rfl

/-- The end of a trial start marks a slot and changes nothing else. -/
theorem State.endTrial_slots (s : State) : ∃ a b, s.endTrial = { s with flash := { s.flash with slotA := a, slotB := b } } := by
  unfold State.endTrial State.putBootedSlot
  split
  · split
    · exact ⟨_, s.flash.slotB, rfl⟩
    · exact ⟨s.flash.slotA, _, rfl⟩
  · exact ⟨s.flash.slotA, s.flash.slotB, rfl⟩

theorem Store.get_allParts {α : Type} (d : α) (f : PartId → α) (p : PartId) :
    Store.get d (allParts.map fun q => (q.val, f q)) p.val = f p := by
  fin_cases p <;> rfl

theorem State.abandonAll_owner (s : State) (p q : PartId) : ((s.abandonAll p).part q).ownerRsa = (s.part q).ownerRsa := by
  have hKeeps (x : State) (r : PartId) {f : Part → Part} (hf : ∀ y : Part, (f y).ownerRsa = y.ownerRsa) :
      ((x.modPart r f).part q).ownerRsa = (x.part q).ownerRsa := by
    by_cases hq : q = r
    · subst hq
      rw [State.modPart_part_same, hf]
    · rw [State.modPart_part_other _ _ hq]
  unfold State.abandonAll State.abandon
  extract_lets s1
  have hs1 : (s1.part q).ownerRsa = (s.part q).ownerRsa := hKeeps (s.dropModelKey p) p fun y => by split <;> rfl
  split
  · exact hs1
  · refine (hKeeps _ _ fun _ => ?_).trans ((hKeeps _ _ fun _ => ?_).trans hs1)
    · rfl
    · rfl

theorem State.devReset_spec (s : State) (cause : BitVec 3) : s.ResetsTo (s.devReset cause) cause ∧
    (s.devReset cause).hbm = (if cause = 0 then [] else s.cutDump.hbm) ∧
    (s.devReset cause).dump = (if cause = 0 then none else s.cutDump.dump) ∧
    (s.devReset cause).island.tamper = (if cause = 0 then false else s.island.tamper) := by
  obtain ⟨hCut, hFlash, hParts⟩ := s.hbmOnly_cutDump
  have hOtp : s.cutDump.otp = s.otp := hCut.proj State.otp
  have hTamper : s.cutDump.island.tamper = s.island.tamper := hCut.proj (·.island.tamper)
  have hTile (t : TileId) : s.cutDump.tile t = s.tile t := hCut.proj (·.tile t)
  have hPart (p : PartId) : s.cutDump.part p = s.part p := by rw [State.part, hParts, State.part]
  unfold State.devReset
  extract_lets powerOn cut old marked failmap engines clusters thermal island flash kept parts
  obtain ⟨hMOtp, hMHbm, hMDump, hM0, hM1, hMDict, hMTiles⟩ : marked.otp = cut.otp ∧ marked.hbm = cut.hbm ∧
      marked.dump = cut.dump ∧ marked.flash.ebb0 = cut.flash.ebb0 ∧ marked.flash.ebb1 = cut.flash.ebb1 ∧
      marked.flash.dict = cut.flash.dict ∧ ∀ t, marked.tile t = cut.tile t := by
    obtain ⟨a, b, hMarked⟩ := cut.endTrial_slots
    have hEq : marked = cut.endTrial := rfl
    rw [hEq, hMarked]
    exact ⟨rfl, rfl, rfl, rfl, rfl, rfl, fun _ => rfl⟩
  have hTiles (t : TileId) : ({ kept with parts := parts } : State).tile t = (marked.tile t).fresh (marked.freeCtr + 1) :=
    Store.get_map_snd ({ epochSeed := marked.epochBase } : Tile) (fun x => x.fresh (marked.freeCtr + 1)) marked.tiles t.val
  have hParts' (p : PartId) : ({ kept with parts := parts } : State).part p = old.partAtReset p powerOn :=
    Store.get_allParts ({} : Part) (fun q => old.partAtReset q powerOn) p
  have hOld : old = cut := rfl
  have hPower : (powerOn = true) = (cause = 0) := propext beq_iff_eq
  refine ⟨⟨rfl, rfl, hMOtp.trans hOtp, hM0.trans (congrArg Flash.ebb0 hFlash), hM1.trans (congrArg Flash.ebb1 hFlash),
    hMDict.trans (congrArg Flash.dict hFlash), rfl, fun p => ?_, fun t => ?_, fun _ => rfl⟩, ?_, ?_, ?_⟩
  · rw [hParts']
    refine ⟨rfl, rfl, ?_⟩
    have hOwner : (old.partAtReset p powerOn).ownerRsa = ((old.abandonAll p).part p).ownerRsa := rfl
    rw [hOwner, State.abandonAll_owner, hOld, hPart]
  · rw [hTiles, hMTiles, hTile]
    refine ⟨rfl, rfl, fun m => ?_⟩
    rw [Tile.fresh_mac]
    exact ⟨rfl, rfl⟩
  · show (if powerOn then [] else marked.hbm) = _
    rw [hMHbm]
    exact if_congr (by rw [hPower]) rfl rfl
  · show (if powerOn then none else marked.dump) = _
    rw [hMDump]
    exact if_congr (by rw [hPower]) rfl rfl
  · show (if powerOn then ({} : Island) else { tamper := old.island.tamper, tsrc := old.island.tsrc, debug := old.island.debug }).tamper = _
    rw [hOld, ← hTamper]
    by_cases h : cause = 0
    · rw [if_pos (hPower.symm ▸ h), if_pos h]
    · rw [if_neg (hPower.symm ▸ h), if_neg h]

/-! #### The start -/

theorem State.stepOne_kept (s : State) (m : StartIn) : s.Ambient (s.stepOne m) ∧ (s.stepOne m).island = s.island := by
  unfold State.stepOne
  extract_lets ppm drawn clk word pins flash s1
  have hs1 : s.Ambient s1 := ⟨rfl, rfl, rfl, rfl, rfl, rfl, rfl, rfl, rfl, rfl⟩
  have hIsland : s1.island = s.island := rfl
  clear_value s1
  exact foldl_keeps (P := fun x : State => s.Ambient x ∧ x.island = s.island) _ ⟨hs1, hIsland⟩
    fun x e hx => ⟨hx.1.trans (.modEngine x e _), hx.2⟩

/-- The state in which a start goes on from step 1. -/
def State.keyed (s : State) (m : StartIn) : State := (s.stepOne m).deriveKeys

theorem State.keyed_kept (s : State) (m : StartIn) :
    s.Ambient (s.keyed m) ∧ (s.keyed m).island.tamper = s.island.tamper := by
  obtain ⟨hStep, hIsland⟩ := s.stepOne_kept m
  unfold State.keyed
  generalize s.stepOne m = x at hStep hIsland
  have hKeys : x.Ambient x.deriveKeys := ⟨rfl, rfl, rfl, rfl, rfl, rfl, rfl, rfl, rfl, rfl⟩
  have hTamper : x.deriveKeys.island.tamper = x.island.tamper := rfl
  exact ⟨hStep.trans hKeys, hTamper.trans (congrArg Island.tamper hIsland)⟩

theorem State.endTransition_spec (s : State) : s.endTransition.phase = .inReset ∧ s.endTransition.hbm = [] ∧
    s.endTransition.otp = s.otp.complete := by
  have hErased : s.erase.otp = s.otp ∧ s.erase.hbm = [] ∧ s.erase.dump = none := by
    unfold State.erase
    exact foldl_keeps (P := fun x : State => x.otp = s.otp ∧ x.hbm = [] ∧ x.dump = none) allParts ⟨rfl, rfl, rfl⟩ fun _ _ h => h
  have hReset (x : State) (hx : x.hbm = []) (hd : x.dump = none) : (x.devReset 1).phase = .inReset ∧
      (x.devReset 1).hbm = [] ∧ (x.devReset 1).otp = x.otp := by
    obtain ⟨⟨hPhase, -, hKept, -⟩, hBytes, -⟩ := x.devReset_spec 1
    refine ⟨hPhase, ?_, hKept⟩
    rw [hBytes, if_neg (by decide), State.cutDump_old (fun d h => absurd (hd.symm.trans h) (Option.some_ne_none d).symm), hx]
  unfold State.endTransition
  extract_lets asker s1 s2
  have hs1 : s1.otp = s.otp ∧ s1.hbm = [] ∧ s1.dump = none := hErased
  clear_value s1
  obtain ⟨hOtp, hHbm, hDump⟩ := hs1
  obtain ⟨hPhase, hBytes, hKept⟩ := hReset { s1 with otp := s1.otp.complete } hHbm hDump
  have hComplete : s2.otp = s.otp.complete := by
    rw [← hOtp]
    exact hKept
  clear_value asker
  split
  · exact ⟨hPhase, hBytes, hComplete⟩
  · exact ⟨hPhase, hBytes, hComplete⟩

theorem State.pickSlot_otp (s : State) (aOk bOk : Bool) : (s.pickSlot aOk bOk).1.otp = s.otp := by
  unfold State.pickSlot
  dsimp only
  split
  · rfl
  · split
    · rfl
    · split
      · rfl
      · split <;> rfl

theorem State.finishRaise_raise (s : State) : s.finishRaise.otp.raise = none := by
  unfold State.finishRaise
  split
  · rfl
  next h => exact h

/-! #### Service -/

theorem State.ambient_reroute (s : State) : s.Ambient s.reroute := .of_eq

theorem State.ambient_regroup (s : State) : s.Ambient s.regroup := by
  refine (State.Ambient.refl s).foldl (fun x g => ?_) _
  unfold State.regroupOne
  extract_lets members leader role g0 g1 g2
  clear_value g2
  split
  · exact .refl x
  · exact .of_eq

/-- A start of the fabric leaves the phase, the watchdog and BYP_EN, and the fabric is up. -/
theorem State.fabricStart_spec (s : State) : s.fabricStart.phase = s.phase ∧ s.fabricStart.watchdog = s.watchdog ∧
    s.fabricStart.pins.bypEn = s.pins.bypEn ∧ s.fabricStart.fabricUp = true := by
  unfold State.fabricStart
  extract_lets s1 s2
  have hs1 : s1.phase = s.phase ∧ s1.watchdog = s.watchdog ∧ s1.pins.bypEn = s.pins.bypEn ∧ s1.fabricUp = true :=
    ⟨rfl, rfl, rfl, rfl⟩
  have hs2 : s1.Ambient s2 := by
    refine (State.Ambient.refl s1).foldl (fun x e => ?_) _
    exact (State.Ambient.modEngine x e _).foldl (fun y q => .modPort y q _) _
  clear_value s2 s1
  obtain ⟨hPhase, hWatchdog, hByp, hUp⟩ := hs1
  have h := hs2.trans (s2.ambient_reroute.trans (State.ambient_regroup _))
  exact ⟨h.phase.trans hPhase, h.watchdog.trans hWatchdog, h.bypEn.trans hByp, h.fabricUp.trans hUp⟩

/-- What a start makes of the guests: nothing. -/
structure State.GuestsKept (s s' : State) : Prop where
  dict : s'.dict = s.dict
  coreMap : s'.coreMap = s.coreMap
  failmap : s'.startWord.failmap = s.startWord.failmap
  booted : ∀ p, (s'.part p).guestBooted = (s.part p).guestBooted ∧ (s'.part p).guestFailed = (s.part p).guestFailed

theorem State.GuestsKept.trans {a b c : State} (h : a.GuestsKept b) (h' : b.GuestsKept c) : a.GuestsKept c :=
  ⟨h'.dict.trans h.dict, h'.coreMap.trans h.coreMap, h'.failmap.trans h.failmap, fun p =>
    ⟨(h'.booted p).1.trans (h.booted p).1, (h'.booted p).2.trans (h.booted p).2⟩⟩

theorem State.GuestsKept.modPart (s : State) (p : PartId) {f : Part → Part}
    (hf : ∀ x : Part, (f x).guestBooted = x.guestBooted ∧ (f x).guestFailed = x.guestFailed) : s.GuestsKept (s.modPart p f) := by
  refine ⟨rfl, rfl, rfl, fun q => ?_⟩
  by_cases h : q = p
  · subst h
    rw [State.modPart_part_same]
    exact hf _
  · rw [State.modPart_part_other _ _ h]
    exact ⟨rfl, rfl⟩

theorem State.layout_congr {s s' : State} (h : s'.dict = s.dict) (p : PartId) : s'.layout p = s.layout p := by
  unfold State.layout State.dval
  rw [h]

theorem State.coresUp_congr {s s' : State} (hDict : s'.dict = s.dict) (hMap : s'.coreMap = s.coreMap)
    (hFail : s'.startWord.failmap = s.startWord.failmap) (p : PartId) : s'.coresUp p = s.coresUp p := by
  unfold State.coresUp State.coreMask
  rw [State.enabled_congr hDict, State.layout_congr hDict, hMap, hFail]

theorem State.GuestsKept.guestsDone {s s' : State} (h : s.GuestsKept s') : s'.guestsDone = s.guestsDone := by
  unfold State.guestsDone
  congr 1
  funext p
  rw [State.enabled_congr h.dict, State.coresUp_congr h.dict h.coreMap h.failmap, (h.booted p).1, (h.booted p).2]

theorem State.fixPair_kept (s : State) (p : PartId) : s.Ambient (s.fixPair p) ∧ s.GuestsKept (s.fixPair p) := by
  unfold State.fixPair
  extract_lets pt k cur x keep s1
  have hs1 : s.Ambient s1 ∧ s.GuestsKept s1 := by
    subst s1
    split
    · exact ⟨.modPart s p _, .modPart s p fun _ => ⟨rfl, rfl⟩⟩
    · exact ⟨.refl s, rfl, rfl, rfl, fun _ => ⟨rfl, rfl⟩⟩
  clear_value s1
  exact ⟨hs1.1.trans (.modPart s1 p _), hs1.2.trans (.modPart s1 p fun _ => ⟨rfl, rfl⟩)⟩

theorem State.service_spec (s : State) (m : StartIn) : (s.service m).phase = .service ∧ (s.service m).watchdog.running = true ∧
    (s.service m).pins.bypEn = true ∧ (s.guestsDone = true → (s.service m).fabricUp = true) := by
  unfold State.service
  extract_lets dog s1 slot s2
  have hs1 : s1.phase = .service ∧ s1.watchdog.running = true ∧ s1.pins.bypEn = true ∧ s1.guestsDone = s.guestsDone :=
    ⟨rfl, rfl, rfl, rfl⟩
  have hs2 : s1.Ambient s2 ∧ s1.GuestsKept s2 := by
    refine foldl_keeps (P := fun x : State => s1.Ambient x ∧ s1.GuestsKept x) _ ?_ fun x e hx => ?_
    · exact ⟨.of_hbm (s1.hbmOnly_hbmWrite ..), rfl, rfl, rfl, fun _ => ⟨rfl, rfl⟩⟩
    · refine foldl_keeps (P := fun y : State => s1.Ambient y ∧ s1.GuestsKept y) _ ?_ fun y q hy => ?_
      · exact ⟨hx.1.trans (.modEngine x e _), hx.2.trans ⟨rfl, rfl, rfl, fun _ => ⟨rfl, rfl⟩⟩⟩
      · exact ⟨hy.1.trans (.modPort y q _), hy.2.trans ⟨rfl, rfl, rfl, fun _ => ⟨rfl, rfl⟩⟩⟩
  clear_value s2 s1
  have hFixed : s1.Ambient (s2.each (allParts.filter fun p => (s2.pinned p).isSome) State.fixPair) ∧
      s1.GuestsKept (s2.each (allParts.filter fun p => (s2.pinned p).isSome) State.fixPair) :=
    foldl_keeps (P := fun x : State => s1.Ambient x ∧ s1.GuestsKept x) _ hs2 fun x p hx =>
      ⟨hx.1.trans (x.fixPair_kept p).1, hx.2.trans (x.fixPair_kept p).2⟩
  generalize s2.each (allParts.filter fun p => (s2.pinned p).isSome) State.fixPair = x at hFixed
  obtain ⟨hPhase, hRuns, hByp, hGuests⟩ := hs1
  obtain ⟨hKept, hDone⟩ := hFixed
  have hxPhase : x.phase = .service := hKept.phase.trans hPhase
  have hxRuns : x.watchdog.running = true := (congrArg Watchdog.running hKept.watchdog).trans hRuns
  have hxByp : x.pins.bypEn = true := hKept.bypEn.trans hByp
  have hxDone : x.guestsDone = s.guestsDone := hDone.guestsDone.trans hGuests
  unfold State.fabricIfReady
  split
  · obtain ⟨hF, hW, hB, hUp⟩ := x.fabricStart_spec
    exact ⟨hF.trans hxPhase, (congrArg Watchdog.running hW).trans hxRuns, hB.trans hxByp, fun _ => hUp⟩
  next hNot =>
    refine ⟨hxPhase, hxRuns, hxByp, fun hAll => ?_⟩
    rw [← Bool.not_eq_false]
    exact fun hDown => hNot ⟨hxPhase, hDown, hxDone.trans hAll⟩

theorem State.memories_noStacks (s : State) {m : StartIn} (h : m.stacksOk = false) : (s.memories m).2 = false := by
  unfold State.memories
  rw [if_pos (by rw [h]; simp)]

/-- Steps 6 to 8 have been taken: the start goes on, or stops there (R421). -/
def State.goesOn (y : State × Bool) (f : State → State) : State := if y.2 then f y.1 else y.1.stopStart

/-- A slot has been picked: it is booted, or the recovery loader is (R401, R420). -/
def State.boots (m : StartIn) (y : State × Option (BitVec 1)) : State :=
  if y.2.isNone then y.1.loader else State.goesOn ((y.1.logicTest m.signatures).memories m) (State.service · m)

section
variable {s : State} (m : StartIn) (hPhase : s.phase = .inReset)
include hPhase

theorem exec_start_held (hHolds : startHolds m = true) : exec (.startSequence m) s = .next (s.stepOne m) :=
  congrArg Outcome.next ((if_pos hPhase).trans (if_pos hHolds))

theorem exec_start (hHolds : startHolds m = false) : exec (.startSequence m) s = .next (
    if s.transition then
      State.goesOn (({ s.keyed m with startWord := { (s.keyed m).startWord with resumed := true } } : State).memories m)
        State.endTransition
    else if s.island.tamper then (s.keyed m).stopStart
    else State.boots m ((s.keyed m).finishRaise.pickSlot m.slotAOk m.slotBOk)) := by
  obtain ⟨hKept, hTamper⟩ := s.keyed_kept m
  have hPending : (s.keyed m).transition = s.transition := by
    unfold State.transition
    rw [hKept.otp]
  rw [← hPending, ← hTamper]
  refine congrArg Outcome.next ((if_pos hPhase).trans ((if_neg (by rw [hHolds]; exact Bool.false_ne_true)).trans ?_))
  change (if (s.keyed m).transition then _ else if (s.keyed m).island.tamper then _ else _) = _
  refine if_congr Iff.rfl ?_ (if_congr Iff.rfl rfl ?_)
  · unfold State.keyed
    generalize State.memories _ m = y
    obtain ⟨x, ok⟩ := y
    cases ok <;> rfl
  · unfold State.keyed
    generalize State.pickSlot _ m.slotAOk m.slotBOk = y
    obtain ⟨x, slot⟩ := y
    cases slot with
    | none => rfl
    | some b =>
      show _ = State.goesOn ((x.logicTest m.signatures).memories m) (State.service · m)
      dsimp only
      generalize (x.logicTest m.signatures).memories m = z
      obtain ⟨w, ok⟩ := z
      cases ok <;> rfl

end

/-! #### The shutdown -/

theorem State.withdraw_active (s : State) (p q : PartId) :
    ((s.withdraw p).part q).run.active = (s.part q).run.active := by
  have hSent (x y : State) (h : (x.part q).StopsOnly (y.part q)) : (y.part q).run.active = (x.part q).run.active :=
    h.proj fun z => z.run.active
  unfold State.withdraw
  extract_lets pt s1
  have hs1 : (s1.part q).run.active = (s.part q).run.active := by
    subst s1
    split
    · exact hSent _ _ (Part.StopsOnly.trans (.of_records ((s.gateOnly_sendWithdraw p).part q)) ((State.stops_sendCancels ..).part q))
    · rfl
  by_cases hq : q = p
  · subst hq
    rw [State.modPart_part_same]
    exact hs1
  · rw [State.modPart_part_other _ _ hq]
    exact hs1

/-- The frame of a partition is stopped at its deadline (R426). -/
def State.stopAtDeadline (s : State) (p : PartId) : State :=
  let d := s.deadline p
  ((s.reach ((s.part p).run.ts + BitVec.ofNat 64 d)).stopFrame p 0xB 0xFFFF d).withdraw p

theorem State.stopAtDeadline_idle (s : State) (p q : PartId) (h : q = p ∨ (s.part q).run.active = false) :
    ((s.stopAtDeadline p).part q).run.active = false := by
  unfold State.stopAtDeadline
  extract_lets d
  generalize hx : s.reach ((s.part p).run.ts + BitVec.ofNat 64 d) = x
  have hPart : x.part q = s.part q := hx ▸ rfl
  rw [State.withdraw_active]
  by_cases hq : q = p
  · subst hq
    exact (x.stopFrame_ends q 0xB 0xFFFF d).1
  · exact ((x.stopFrame_other hq 0xB 0xFFFF d).proj fun z => z.run.active).trans
      ((congrArg (fun z : Part => z.run.active) hPart).trans (h.resolve_left hq))

theorem State.ebbStop_idle (s : State) (q : PartId) : (s.ebbStop.part q).run.active = false := by
  have hEq : s.ebbStop = (allParts.filter fun p => (s.part p).run.active).foldl State.stopAtDeadline s := rfl
  rw [hEq]
  by_cases h : (s.part q).run.active = true
  · refine foldl_reaches (P := fun _ : State => True) (Q := fun x : State => (x.part q).run.active = false) (a := q)
      (List.Nodup.filter _ (by decide)) (List.mem_filter.mpr ⟨mem_allParts q, h⟩) (fun _ _ _ _ => trivial)
      (fun x p _ hx => x.stopAtDeadline_idle p q (.inr hx)) (fun x _ => x.stopAtDeadline_idle q q (.inl rfl)) trivial
  · exact foldl_keeps (P := fun x : State => (x.part q).run.active = false) _ (Bool.not_eq_true _ ▸ h)
      fun x p hx => x.stopAtDeadline_idle p q (.inr hx)

theorem State.passive_unload (s : State) (p q : PartId) : (s.part q).Passive ((s.unload p).part q) := by
  unfold State.unload
  extract_lets s1 own served idle s2
  have hs1 : (s.part q).Passive (s1.part q) :=
    foldl_keeps (P := fun x : State => (s.part q).Passive (x.part q)) _ (.refl _) fun x t h => h.trans (x.passive_unloadTile t q)
  clear_value s1
  have hs2 : s2.part q = s1.part q := rfl
  clear_value s2
  exact (hs2 ▸ hs1).trans (s2.passive_modPart q p fun x => ⟨rfl, id, fun _ => ⟨rfl, rfl⟩, id⟩)

theorem State.passive_bandOff (s : State) (b : BandId) (q : PartId) : (s.part q).Passive ((s.bandOff b).part q) := by
  obtain ⟨pages, h⟩ := (State.BandMoves.owePages s b true).part q
  unfold State.bandOff
  extract_lets s1 s2 s3
  have hs1 : (s.part q).Passive (s1.part q) := by
    rw [h]
    exact ⟨rfl, id, id, id⟩
  have hs2 : s2.part q = s1.part q :=
    foldl_keeps (P := fun x : State => x.part q = s1.part q) _ rfl fun _ _ hx => hx
  have hs3 : s3.part q = s2.part q :=
    foldl_keeps (P := fun x : State => x.part q = s2.part q) _ rfl fun _ _ hx => hx
  have hLast : s3.part q = s1.part q := hs3.trans hs2
  clear_value s1 s2 s3
  exact hLast ▸ hs1

theorem State.bandOff_doms (s : State) (b c : BandId) : (s.bandOff b).dom c.val = if c = b then .off else s.dom c.val := by
  unfold State.bandOff
  extract_lets s1 s2 s3
  have hs1 : s1.domains = s.domains := foldl_keeps (P := fun x : State => x.domains = s.domains) _ rfl fun _ _ hx => hx
  have hs2 : s2.domains = s.domains := foldl_keeps (P := fun x : State => x.domains = s.domains) _ hs1 fun _ _ hx => hx
  have hs3 : s3.domains = s.domains := foldl_keeps (P := fun x : State => x.domains = s.domains) _ hs2 fun _ _ hx => hx
  clear_value s1 s2 s3
  rw [State.modBand_dom]
  by_cases hc : c = b
  · subst hc
    rw [if_pos rfl, State.setDom_dom_same]
  · rw [if_neg hc]
    unfold State.setDom State.dom
    rw [hs3]
    exact Store.get_set_other _ _ _ fun h => hc (Fin.ext h)

/-- A partition whose image goes for the test (R427). -/
def State.unloaded (s : State) (p : PartId) : State := (s.unload p).modPart p fun pt => { pt with boundaryDue := false }

theorem State.passive_unloaded (s : State) (p q : PartId) : (s.part q).Passive ((s.unloaded p).part q) :=
  (s.passive_unload p q).trans (State.passive_modPart _ q p fun _ => ⟨rfl, id, id, id⟩)

theorem State.unloaded_gone (s : State) (p : PartId) : ((s.unloaded p).part p).Gone := by
  unfold State.unloaded
  rw [State.modPart_part_same]
  obtain ⟨hGone, -⟩ := s.unload_part p
  generalize (s.unload p).part p = x at hGone ⊢
  exact hGone

/-- Every partition in turn loses its image, and none starts a frame. -/
theorem State.foldl_unloaded {l : List PartId} (hl : l.Nodup) {q : PartId} (hq : q ∈ l) (s : State) :
    ((l.foldl State.unloaded s).part q).Gone ∧ (s.part q).Passive ((l.foldl State.unloaded s).part q) :=
  ⟨foldl_reaches (P := fun _ : State => True) (Q := fun x : State => (x.part q).Gone) hl hq (fun _ _ _ _ => trivial)
      (fun x p _ hx => (x.passive_unloaded p q).gone hx) (fun x _ => x.unloaded_gone q) trivial,
    foldl_keeps (P := fun x : State => (s.part q).Passive (x.part q)) _ (.refl _) fun x p hx => hx.trans (x.passive_unloaded p q)⟩

/-- The test begins with nothing loaded, no frame in progress and the tile bands OFF. -/
theorem State.ebbTest_spec {s : State} (hIdle : ∀ p, (s.part p).run.active = false) : s.ebbTest.testing = true ∧
    (∀ b : BandId, s.ebbTest.dom b.val = .off) ∧
    (∀ p, (s.ebbTest.part p).image = none ∧ (s.ebbTest.part p).run.active = false) ∧
    s.ebbTest.phase = s.phase ∧ s.ebbTest.watchdog = s.watchdog ∧ s.ebbTest.flash.ebb0 = s.flash.ebb0 ∧
    s.ebbTest.flash.ebb1 = s.flash.ebb1 := by
  unfold State.ebbTest
  extract_lets s1 off
  have hEq : s1 = allParts.foldl State.unloaded s := rfl
  have hs1 : s.Ambient s1 := hEq ▸ (State.Ambient.refl s).foldl (fun x p => (State.Ambient.unload x p).trans (.modPart ..)) _
  have hAll (q : PartId) : (s1.part q).Gone ∧ (s.part q).Passive (s1.part q) :=
    hEq ▸ State.foldl_unloaded (by decide) (mem_allParts q) s
  clear_value s1
  have hx : s1.each ((List.finRange 16).filter fun b => s1.dom b.val != .off) State.bandOff = off := rfl
  clear_value off
  have hKept : s1.Ambient off := hx ▸ (State.Ambient.refl s1).foldl State.Ambient.bandOff _
  have hOff (b : BandId) : off.dom b.val = .off := by
    have hStays (y : State) (c : BandId) (hy : y.dom b.val = .off) : (y.bandOff c).dom b.val = .off := by
      rw [State.bandOff_doms]
      split
      · rfl
      · exact hy
    rw [← hx]
    by_cases hb : s1.dom b.val = .off
    · exact foldl_keeps (P := fun y : State => y.dom b.val = .off) _ hb hStays
    · refine foldl_reaches (P := fun _ : State => True) (Q := fun y : State => y.dom b.val = .off) (a := b)
        ((List.nodup_finRange 16).filter _) (List.mem_filter.mpr ⟨List.mem_finRange b, by simpa using hb⟩) 
        (fun _ _ _ _ => trivial) (fun y c _ => hStays y c) (fun y _ => ?_) trivial
      rw [State.bandOff_doms, if_pos rfl]
  have hPart (q : PartId) : (s1.part q).Passive (off.part q) := by
    rw [← hx]
    exact foldl_keeps (P := fun y : State => (s1.part q).Passive (y.part q)) _ (.refl _) fun y b hy => hy.trans (y.passive_bandOff b q)
  have h := hs1.trans hKept
  exact ⟨rfl, hOff, fun q => ⟨((hPart q).gone (hAll q).1).1, (hPart q).idle ((hAll q).2.idle (hIdle q))⟩, h.phase, h.watchdog, h.ebb0, h.ebb1⟩

/-- What the begin of a shutdown does for one partition. -/
def State.shutPart (s : State) (p : PartId) : State :=
  let s := (s.dropView p stShutdown).abandon p
  let s := if (s.part p).run.active then s else s.withdraw p
  s.modPart p fun pt => { pt with loadAsked := false, layoutNew := none, rearmDue := false }

theorem State.shutPart_kept (s : State) (p : PartId) : s.Ambient (s.shutPart p) ∧
    ∀ q, ((s.shutPart p).part q).run.active = (s.part q).run.active := by
  have hMod (x : State) {f : Part → Part} (hf : ∀ y : Part, (f y).run = y.run) (q : PartId) :
      ((x.modPart p f).part q).run.active = (x.part q).run.active := by
    by_cases hq : q = p
    · subst hq
      rw [State.modPart_part_same, hf]
    · rw [State.modPart_part_other _ _ hq]
  unfold State.shutPart
  extract_lets s1 s2
  have hs1 : s.Ambient s1 ∧ ∀ q, (s1.part q).run.active = (s.part q).run.active := by
    have hDrop : s.Ambient (s.dropView p stShutdown) := .modPart ..
    have hKey : (s.dropView p stShutdown).Ambient ((s.dropView p stShutdown).dropModelKey p) := .of_eq
    refine ⟨(hDrop.trans hKey).trans (.modPart ..), fun q => ?_⟩
    have hAbandon := hMod ((s.dropView p stShutdown).dropModelKey p) (f := fun pt =>
      if pt.admission.isSome || pt.loadAsked then
        { pt with admission := none, loadAsked := false, st := if pt.st = .loading then .empty else pt.st
                  result := match pt.admission with
                    | some a => { status := 0x000C, stage := pt.result.stage, eligible := a.eligible, sect := 0xFFFFFFFF }
                    | none => { status := 0x000C, stage := 1, sect := 0xFFFFFFFF } }
      else pt) (fun y => by split <;> rfl) q
    exact hAbandon.trans (hMod s (f := fun pt => { pt with area := pt.area.dropPending stShutdown }) (fun _ => rfl) q)
  clear_value s1
  have hs2 : s.Ambient s2 ∧ ∀ q, (s2.part q).run.active = (s.part q).run.active := by
    subst s2
    split
    · exact hs1
    · exact ⟨hs1.1.trans (.of_volatile (s1.volatile_withdraw p)), fun q => (s1.withdraw_active p q).trans (hs1.2 q)⟩
  clear_value s2
  exact ⟨hs2.1.trans (.modPart s2 p _), fun q => (hMod s2
    (f := fun pt => { pt with loadAsked := false, layoutNew := none, rearmDue := false }) (fun _ => rfl) q).trans (hs2.2 q)⟩

theorem State.ebbBegin_spec (s : State) : s.ebbBegin.phase = .ebb ∧ s.ebbBegin.flash.ebb0 = [] ∧ s.ebbBegin.flash.ebb1 = [] ∧
    s.ebbBegin.watchdog.paused = true ∧ s.ebbBegin.testing = s.testing ∧
    ∀ q, (s.ebbBegin.part q).run.active = (s.part q).run.active := by
  unfold State.ebbBegin
  extract_lets dog s1 s2
  have hs1 : s1.flash.ebb0 = [] ∧ s1.flash.ebb1 = [] ∧ s1.watchdog.paused = true ∧ s1.testing = s.testing ∧
      ∀ q, (s1.part q).run.active = (s.part q).run.active := ⟨rfl, rfl, rfl, rfl, fun _ => rfl⟩
  have hs2 : s1.Ambient s2 ∧ ∀ q, (s2.part q).run.active = (s1.part q).run.active := by
    have hEq : s2 = allParts.foldl State.shutPart s1 := rfl
    rw [hEq]
    exact foldl_keeps (P := fun x : State => s1.Ambient x ∧ ∀ q, (x.part q).run.active = (s1.part q).run.active) _
      ⟨.refl s1, fun _ => rfl⟩ fun x p hx => ⟨hx.1.trans (x.shutPart_kept p).1, fun q => ((x.shutPart_kept p).2 q).trans (hx.2 q)⟩
  clear_value s1 s2
  obtain ⟨h0, h1, hPaused, hTesting, hActive⟩ := hs1
  obtain ⟨hKept, hRuns⟩ := hs2
  exact ⟨rfl, hKept.ebb0.trans h0, hKept.ebb1.trans h1, (congrArg Watchdog.paused hKept.watchdog).trans hPaused,
    hKept.testing.trans hTesting, fun q => (hRuns q).trans (hActive q)⟩

theorem State.ebbWrite_spec (s : State) (sig : List (BitVec 64)) : (s.ebbWrite sig).phase = .ebbWrite ∧
    (s.ebbWrite sig).pins.bypEn = false ∧ (∀ n, n < 30 → (s.ebbWrite sig).dom n = if n = 28 then .on else .off) ∧
    (s.ebbWrite sig).flash.ebb0 = s.ebbBody 0 sig ++ List.replicate 48 0 ∧ (s.ebbWrite sig).watchdog.running = false := by
  unfold State.ebbWrite
  extract_lets body s1 s2 doms
  refine ⟨rfl, rfl, fun n hn => ?_, rfl, rfl⟩
  exact Store.get_map_range _ (fun d => if d = 28 then DomSt.on else .off) hn

section
variable {s : State} {ns : Nat} {sig : List (BitVec 64)}

theorem exec_shutdown_ebbWrite (h : s.phase = .ebbWrite) : exec (.shutdown ns sig) s = .next s.ebbEnd := by
  have hExec : exec (.shutdown ns sig) s = execShutdown ns sig s := rfl
  rw [hExec, execShutdown, h]

theorem exec_shutdown_ebb (h : s.phase = .ebb) :
    exec (.shutdown ns sig) s = .next (if s.testing then s.ebbWrite sig else s.ebbStop.ebbTest) := by
  have hExec : exec (.shutdown ns sig) s = execShutdown ns sig s := rfl
  rw [hExec, execShutdown, h]

theorem exec_shutdown_service (h : s.phase = .service) : exec (.shutdown ns sig) s = .next (
    if ns < 1000000 then s
    else if allParts.any fun p => (s.ebbBegin.part p).run.active then s.ebbBegin else s.ebbBegin.ebbTest) := by
  have hExec : exec (.shutdown ns sig) s = execShutdown ns sig s := rfl
  rw [hExec, execShutdown, h]

/-- A shutdown from service erases the Ebb records, and its test begins at once where no frame runs. -/
theorem exec_shutdown_begins (h : s.phase = .service) (hLong : 1000000 ≤ ns) :
    ∃ s', exec (.shutdown ns sig) s = .next s' ∧ s'.phase = .ebb ∧ s'.flash.ebb0 = [] ∧ s'.flash.ebb1 = [] ∧
      s'.watchdog.paused = true ∧ ((∃ p, (s.part p).run.active = true) → s'.testing = s.testing) ∧
      ((∀ p, (s.part p).run.active = false) → s'.testing = true) := by
  obtain ⟨hPhase, h0, h1, hPaused, hTesting, hActive⟩ := s.ebbBegin_spec
  rw [exec_shutdown_service h, if_neg (Nat.not_lt.mpr hLong)]
  generalize s.ebbBegin = x at hPhase h0 h1 hPaused hTesting hActive
  by_cases hAny : (allParts.any fun p => (x.part p).run.active) = true
  · refine ⟨x, by rw [if_pos hAny], hPhase, h0, h1, hPaused, fun _ => hTesting, fun hNone => ?_⟩
    obtain ⟨p, -, hp⟩ := List.any_eq_true.mp hAny
    exact absurd ((hActive p).trans (hNone p)) (by rw [hp]; exact Bool.noConfusion)
  · have hIdle (p : PartId) : (x.part p).run.active = false := by
      by_contra hp
      exact hAny (List.any_eq_true.mpr ⟨p, mem_allParts p, by simpa using hp⟩)
    obtain ⟨hTest, -, -, hPhase', hDog, h0', h1'⟩ := State.ebbTest_spec hIdle
    refine ⟨x.ebbTest, by rw [if_neg hAny], hPhase'.trans hPhase, h0'.trans h0, h1'.trans h1,
      (congrArg Watchdog.paused hDog).trans hPaused, fun hRuns => ?_, fun _ => hTest⟩
    obtain ⟨p, hp⟩ := hRuns
    exact absurd (hp.symm.trans ((hActive p).symm.trans (hIdle p))) Bool.noConfusion

end

theorem State.reach_eq (s : State) (t : Stamp) : s.reach t = { s with now := if s.now < t then t else s.now } := by
  unfold State.reach
  split <;> rfl

theorem State.ResetsTo.of_reach {s s' : State} {t : Stamp} {cause : BitVec 3} (h : (s.reach t).ResetsTo s' cause) :
    s.ResetsTo s' cause := by
  rw [State.reach_eq] at h
  exact h

/-- Settles O56: a reset rebuilds the state from what OTP and flash hold, the start runs through the steps in their order, and
each command of a shutdown is one stage. -/
theorem resetsStartsAndShutdown : Obligations.ResetsStartsAndShutdown := by
  unfold Obligations.ResetsStartsAndShutdown
  refine ⟨fun s => ?_, fun s m hPhase => ?_, fun s ns sig => ?_⟩
  · intro reset
    obtain ⟨hOn, hOnHbm, hOnDump, hOnTamper⟩ := s.devReset_spec 0
    obtain ⟨hWarm, hWarmHbm, hWarmDump, hWarmTamper⟩ := s.devReset_spec 1
    refine ⟨⟨s.devReset 0, rfl, hOn, hOnHbm, hOnDump, hOnTamper⟩, ⟨s.devReset 1, rfl, hWarm, hWarmHbm, hWarmDump, hWarmTamper⟩,
      fun hRuns => ⟨congrArg Outcome.next (if_pos hRuns), fun hPaused => ?_⟩, State.cutDump_old, ?_⟩
    · intro fired
      obtain ⟨hDog, hDogHbm, hDogDump, -⟩ := fired.devReset_spec 2
      exact ⟨fired.devReset 2, congrArg Outcome.next (if_pos ⟨hRuns, hPaused⟩), hDog.of_reach, hDogHbm, hDogDump⟩
    · intro due
      have hExec : exec .operatingTimeWrite s = .next { s.reach due with
        flash := { s.flash with opMin0 := max s.flash.opMin0 s.flash.opMin1 + 10, opMin1 := max s.flash.opMin0 s.flash.opMin1 + 10 }
        opSince := due } := rfl
      rw [hExec, State.reach_eq]
  · intro s1
    refine ⟨exec_start_held m hPhase, fun hGoes => ?_⟩
    rw [exec_start m hPhase hGoes]
    have hs1 : s1 = s.keyed m := rfl
    have hOtp : s1.otp = s.otp := hs1 ▸ (s.keyed_kept m).1.otp
    rw [← hs1]
    clear_value s1
    refine ⟨fun hPending => ?_, fun hNone hTamper => ?_, fun hNone hSound => ?_⟩
    · intro s2
      have hs2 : s2.otp = s.otp := hOtp
      have hMem : (s2.memories m).1.otp = s2.otp := s2.memories_otp m
      rw [if_pos hPending]
      change ((s2.memories m).2 = true → ∃ s', Outcome.next (State.goesOn (s2.memories m) State.endTransition) = .next s' ∧ _) ∧
        ((s2.memories m).2 = false → ∃ s', Outcome.next (State.goesOn (s2.memories m) State.endTransition) = .next s' ∧ _)
      generalize s2.memories m = y at hMem
      refine ⟨fun hOk => ?_, fun hBad => ?_⟩
      · obtain ⟨hPhase', hHbm, hDone⟩ := y.1.endTransition_spec
        exact ⟨y.1.endTransition, congrArg Outcome.next (if_pos hOk), hPhase', hHbm,
          hDone.trans (congrArg Otp.complete (hMem.trans hs2))⟩
      · exact ⟨y.1.stopStart, congrArg Outcome.next (if_neg (by rw [hBad]; exact Bool.false_ne_true)), rfl⟩
    · rw [if_neg (by rw [hNone]; exact Bool.false_ne_true), if_pos hTamper]
      exact ⟨s1.stopStart, rfl, rfl, rfl⟩
    · intro picked
      have hRaise : picked.1.otp.raise = none := by
        rw [State.pickSlot_otp]
        exact s1.finishRaise_raise
      rw [if_neg (by rw [hNone]; exact Bool.false_ne_true), if_neg (by rw [hSound]; exact Bool.false_ne_true)]
      change (picked.2 = none → ∃ s', Outcome.next (State.boots m picked) = .next s' ∧ _) ∧ _
      refine ⟨fun hLoader => ⟨picked.1.loader, congrArg Outcome.next (if_pos (by rw [hLoader]; rfl)), rfl, rfl, hRaise⟩,
        fun hBoots => ?_⟩
      have hSome : picked.2.isNone ≠ true := fun h => hBoots (Option.isNone_iff_eq_none.mp h)
      have hRuns : State.boots m picked = State.goesOn ((picked.1.logicTest m.signatures).memories m) (State.service · m) :=
        if_neg hSome
      intro tested
      obtain ⟨hPhase', hDog, hByp, hFabric⟩ := tested.1.service_spec m
      rw [hRuns]
      refine ⟨fun hOk => ⟨tested.1.service m, congrArg Outcome.next (if_pos hOk), hPhase', hDog, hByp, hFabric⟩,
        fun hBad => congrArg Outcome.next (if_neg (by rw [hBad]; exact Bool.false_ne_true)), State.memories_noStacks _⟩
  · refine ⟨exec_shutdown_ebbWrite, fun hPhase hTesting => ?_, fun hPhase hTesting => ?_, fun hPhase hShort => ?_,
      exec_shutdown_begins⟩
    · exact ⟨s.ebbWrite sig, by rw [exec_shutdown_ebb hPhase, if_pos hTesting], s.ebbWrite_spec sig⟩
    · obtain ⟨hTest, hOff, hParts, -⟩ := State.ebbTest_spec s.ebbStop_idle
      rw [exec_shutdown_ebb hPhase, hTesting]
      generalize s.ebbStop.ebbTest = x at hTest hOff hParts
      exact ⟨x, rfl, hTest, hOff, hParts⟩
    · rw [exec_shutdown_service hPhase, if_pos hShort]

end Sys2Proof.Machine
end

section
/-! ### Commits and layout changes (R325, R331 to R333, R335, R343) -/

namespace Sys2Proof.Machine

open Host (Outcome)

theorem assocGet_assocSet_same {κ α : Type} [DecidableEq κ] (d : α) (m : List (κ × α)) (k : κ) (v : α) :
    assocGet d (assocSet m k v) k = v := by
  induction m with
  | nil => exact if_pos rfl
  | cons x m ih =>
    rw [assocSet]
    split
    · exact if_pos rfl
    next h => exact (if_neg h).trans ih

/-! #### Submission -/

theorem areaOf_commitKey (a : AreaId) : areaOf (commitKey a / 256) = a := by
  cases a with
  | device => rfl
  | view p => fin_cases p <;> rfl

/-- A commit object written with 1 submits the set of its writer. -/
theorem State.askWrite_commit {s : State} {w : Writer} {a : AreaId}
    (h : s.writeFault w (commitKey a / 256) (commitKey a % 256) [1] = none) :
    s.askWrite w (s.askedBy w) (commitKey a / 256) (commitKey a % 256) false [1] =
      (s.submit w a).answer w (s.askedBy w) (commitKey a / 256) (commitKey a % 256) (.ok []) 0 true := by
  have hParts : writeParts (commitKey a / 256) (commitKey a % 256) false [1] = [(commitKey a % 256, [1])] := rfl
  have hKey : dkey (commitKey a / 256) (commitKey a % 256) = commitKey a := by
    unfold dkey
    omega
  have hWrite : s.write w (commitKey a / 256) [(commitKey a % 256, [1])] = .ok (s.submit w a) := by
    unfold State.write
    rw [List.findSome?_cons, h, List.findSome?_nil]
    dsimp only
    rw [List.map_cons, List.map_nil, hKey, areaOf_commitKey, if_pos rfl]
  unfold State.askWrite
  rw [hParts, hWrite]

theorem State.modArea_area (s : State) (a : AreaId) (f : Area → Area) : (s.modArea a f).area a = f (s.area a) := by
  cases a with
  | device => rfl
  | view p => exact congrArg Part.area (s.modPart_part_same p _)

/-- A commit that its area accepts joins the queue with the next sequence number (R331, R333). -/
def State.accept (s : State) (w : Writer) (a : AreaId) : State :=
  (s.modArea a fun x => { x with
    seq := (s.area a).seq + 1, staged := x.staged.filter fun y => y.1 != w
    queue := x.queue ++ [{ seq := (s.area a).seq + 1, writer := w, set := (s.area a).setOf w }] }).setResult a w
    { seq := (s.area a).seq + 1, status := stAccepted }

theorem State.accept_area (s : State) (w : Writer) (a : AreaId) : (s.accept w a).area a = { s.area a with
    seq := (s.area a).seq + 1, staged := (s.area a).staged.filter fun y => y.1 != w
    queue := (s.area a).queue ++ [{ seq := (s.area a).seq + 1, writer := w, set := (s.area a).setOf w }]
    results := assocSet (s.area a).results w { seq := (s.area a).seq + 1, status := stAccepted } } := by
  unfold State.accept State.setResult
  rw [State.modArea_area, State.modArea_area]

theorem State.accept_image (s : State) (w : Writer) (a : AreaId) (p : PartId) :
    ((s.accept w a).part p).image = (s.part p).image := by
  have hKept (x : State) (f : Area → Area) : ((x.modArea a f).part p).image = (x.part p).image := by
    cases a with
    | device => rfl
    | view q =>
      show ((x.modPart q _).part p).image = (x.part p).image
      by_cases h : p = q
      · subst h
        rw [State.modPart_part_same]
      · rw [State.modPart_part_other _ _ h]
  exact (hKept _ _).trans (hKept _ _)

/-- A commit applies at once in a partition without a running image that is not HALTED (R332). -/
def State.runsPending (running : Bool) (p : PartId) (s : State) : State :=
  if running && (s.part p).image.isNone && (s.part p).st != .loading then s.applyPending p else s

theorem State.setD29_area (s : State) (a : AreaId) : s.setD29.area a = s.area a := by
  cases a <;> rfl

section
variable {s : State} (w : Writer) {a : AreaId}
  (hRoom : (s.area a).queue.length < 15)
include hRoom

theorem State.submit_accepted (hRuns : ∀ p, a = .view p → (s.part p).st ≠ .halted ∧ (s.part p).image ≠ none)
    (h : s.setFault a ((s.area a).setOf w) = none) : (s.submit w a).area a = (s.accept w a).area a := by
  have hNotFull (x y : Bool) : ¬(x && decide (15 ≤ (s.area a).queue.length) && y) = true := by
    rw [decide_eq_false (Nat.not_le.mpr hRoom), Bool.and_false, Bool.false_and]
    exact Bool.false_ne_true
  unfold State.submit
  dsimp only
  rw [if_neg (hNotFull _ _), h]
  cases a with
  | device => rfl
  | view p =>
    obtain ⟨hHalted, hImage⟩ := hRuns p rfl
    have hSt : ((s.part p).st == PartSt.halted) = false := beq_false_of_ne hHalted
    have hStays : ((s.accept w (.view p)).part p).image.isNone = false := by
      rw [State.accept_image]
      exact Option.isNone_eq_false_iff.mpr (Option.isSome_iff_ne_none.mpr hImage)
    show State.area (if (((s.part p).st == PartSt.halted) && rearms ((s.area (.view p)).setOf w)) = true then _ else
      State.runsPending (!((s.part p).st == PartSt.halted)) p
        (if names ((s.area (.view p)).setOf w) 0x50 1 then (s.accept w (.view p)).setD29 else s.accept w (.view p))) _ = _
    rw [hSt, Bool.false_and, if_neg Bool.false_ne_true]
    generalize s.accept w (.view p) = x at hStays
    have hRuns (y : State) (hy : (y.part p).image.isNone = false) : State.runsPending (!false) p y = y :=
      if_neg (by rw [hy, Bool.and_false, Bool.false_and]; exact Bool.false_ne_true)
    split
    · rw [hRuns x.setD29 hStays, State.setD29_area]
    · rw [hRuns x hStays]

theorem State.submit_failed {k n : Nat} (h : s.setFault a ((s.area a).setOf w) = some (k, n)) :
    (s.submit w a).area a = { s.area a with
      results := assocSet (s.area a).results w { status := stCheck, index := keyField k, short := BitVec.ofNat 64 n } } := by
  have hNotFull (x y : Bool) : ¬(x && decide (15 ≤ (s.area a).queue.length) && y) = true := by
    rw [decide_eq_false (Nat.not_le.mpr hRoom), Bool.and_false, Bool.false_and]
    exact Bool.false_ne_true
  unfold State.submit
  dsimp only
  rw [if_neg (hNotFull _ _), h]
  exact s.modArea_area a _

end

/-! #### Commits of the device area -/

/-- What the effects of device entries leave alone. -/
structure State.EntriesKept (s s' : State) : Prop where
  dict : s'.dict = s.dict
  devArea : s'.devArea = s.devArea
  parts : s'.parts = s.parts

namespace State.EntriesKept

theorem refl (s : State) : s.EntriesKept s := ⟨rfl, rfl, rfl⟩

theorem trans {a b c : State} (h : a.EntriesKept b) (h' : b.EntriesKept c) : a.EntriesKept c :=
  ⟨h'.dict.trans h.dict, h'.devArea.trans h.devArea, h'.parts.trans h.parts⟩

theorem foldl {α : Type} {s s' : State} (h : s.EntriesKept s') {f : State → α → State}
    (hf : ∀ (x : State) a, x.EntriesKept (f x a)) (l : List α) : s.EntriesKept (l.foldl f s') :=
  foldl_keeps l h fun y a hy => hy.trans (hf y a)

end State.EntriesKept

theorem State.entriesKept_toBypass (s : State) (e : EngineId) (cause : BitVec 8) : s.EntriesKept (s.toBypass e cause) := by
  have h := s.volatile_toBypass e cause
  refine ⟨h.proj State.dict, h.proj State.devArea, ?_⟩
  unfold State.toBypass
  split
  · rfl
  · exact foldl_keeps (P := fun x : State => x.parts = s.parts) _ rfl fun x p hx => (x.portDown_parts p).trans hx

theorem State.entriesKept_engineDark (s : State) (e : EngineId) : s.EntriesKept (s.engineDark e) := by
  have h := s.volatile_engineDark e
  exact ⟨h.proj State.dict, h.proj State.devArea, s.engineDark_parts e⟩

theorem State.entriesKept_pairPower (s : State) (e : EngineId) : s.EntriesKept (s.pairPower e) := by
  unfold State.pairPower
  extract_lets k pair idle
  split
  · exact .refl s
  · split
    · have hDark : s.EntriesKept (pair.foldl State.engineDark s) := (State.EntriesKept.refl s).foldl State.entriesKept_engineDark pair
      clear_value pair
      exact ⟨hDark.dict, hDark.devArea, hDark.parts⟩
    · split
      · exact ⟨rfl, rfl, rfl⟩
      · exact .refl s

theorem State.entriesKept_deviceEffect (s : State) (k v : Nat) : s.EntriesKept (s.deviceEffect k v) := by
  unfold State.deviceEffect
  extract_lets index sub e s1 s2 link
  split
  · have hs1 : s.EntriesKept s1 := ⟨rfl, rfl, rfl⟩
    have hs2 : s.EntriesKept s2 := by
      subst s2
      split
      · exact hs1.trans (State.entriesKept_toBypass ..)
      · exact hs1
    clear_value s2
    split
    · exact hs2.trans (State.entriesKept_pairPower ..)
    · exact hs2
  · split
    · exact ⟨rfl, rfl, rfl⟩
    · exact .refl s

/-- What an entry put in force leaves: the device area and the partitions. -/
theorem State.putInForce_rest (s : State) (l : List (Nat × Nat)) :
    (s.putInForce l).devArea = s.devArea ∧ (s.putInForce l).parts = s.parts := by
  refine foldl_keeps (P := fun x : State => x.devArea = s.devArea ∧ x.parts = s.parts) l ⟨rfl, rfl⟩ fun x k hx => ?_
  split
  · split
    · dsimp only
      split
      · exact hx
      · exact hx
    · exact hx
  · exact hx

/-- Each value of a set of writable entries is in force, and no other entry changes. -/
theorem State.putInForce_dict {l : List (Nat × Nat)} (hWritable : ∀ x ∈ l, ∃ e, entry? (x.1 / 256) (x.1 % 256) = some e ∧ e.acc.1 = .w)
    (hNodup : (l.map fun x => x.1).Nodup) (s : State) :
    (∀ x ∈ l, Store.get 0 (s.putInForce l).dict x.1 = x.2) ∧
      ∀ k, k ∉ l.map (fun x => x.1) → Store.get 0 (s.putInForce l).dict k = Store.get 0 s.dict k := by
  induction l generalizing s with
  | nil => exact ⟨fun _ h => absurd h (List.not_mem_nil), fun _ _ => rfl⟩
  | cons y l ih =>
    obtain ⟨hNew, hRest⟩ := List.nodup_cons.mp hNodup
    obtain ⟨e, hEntry, hAcc⟩ := hWritable y (List.mem_cons_self ..)
    obtain ⟨s1, hStep, hDict⟩ : ∃ s1 : State, s.putInForce (y :: l) = s1.putInForce l ∧ s1.dict = Store.set s.dict y.1 y.2 := by
      refine ⟨s.putInForce [y], rfl, ?_⟩
      unfold State.putInForce
      rw [List.foldl_cons, List.foldl_nil, hEntry]
      dsimp only
      rw [if_pos (by rw [hAcc]; decide)]
      split <;> rfl
    obtain ⟨hIn, hOut⟩ := ih (fun x hx => hWritable x (List.mem_cons_of_mem _ hx)) hRest s1
    rw [hStep]
    refine ⟨fun x hx => ?_, fun k hk => ?_⟩
    · rcases List.mem_cons.mp hx with rfl | hx
      · rw [hOut _ hNew, hDict, Store.get_set_same]
      · exact hIn x hx
    · obtain ⟨hky, hkl⟩ := not_or.mp (mt List.mem_cons.mpr hk)
      rw [hOut k hkl, hDict, Store.get_set_other _ _ _ hky]

theorem State.applyDevice_spec {s : State} {c : PendCommit}
    (hSet : ∀ x ∈ c.set, (x.1 / 256 < 0x2100 ∨ 0x2107 < x.1 / 256) ∧ ∃ e, entry? (x.1 / 256) (x.1 % 256) = some e ∧ e.acc.1 = .w) :
    (s.applyDevice c).dict = (s.putInForce c.set).dict ∧ (s.applyDevice c).parts = s.parts ∧
      (s.applyDevice c).devArea = { s.devArea with results := markApplied s.devArea.results c 0 0 } := by
  have hNoLayout (x : Nat × Nat) (hx : x ∈ c.set) : (decide (0x2100 ≤ x.1 / 256) && decide (x.1 / 256 ≤ 0x2107)) = false := by
    obtain ⟨hOut, -⟩ := hSet x hx
    simp only [Bool.and_eq_false_iff, decide_eq_false_iff_not]
    omega
  have hNone : (c.set.filter fun x => decide (0x2100 ≤ x.1 / 256) && decide (x.1 / 256 ≤ 0x2107)) = [] :=
    List.filter_eq_nil_iff.mpr fun x hx => by rw [hNoLayout x hx]; exact Bool.false_ne_true
  have hAll : (c.set.filter fun x => !(decide (0x2100 ≤ x.1 / 256) && decide (x.1 / 256 ≤ 0x2107))) = c.set :=
    List.filter_eq_self.mpr fun x hx => by rw [hNoLayout x hx]; rfl
  unfold State.applyDevice
  extract_lets isLayout s1 s2 s3
  obtain ⟨hArea, hParts⟩ := s.putInForce_rest c.set
  have hs1 : s1 = s.putInForce c.set := congrArg s.putInForce hAll
  have hs2 : s2 = s1 := congrArg (fun l => s1.each l _) hNone
  have hs3 : s2.EntriesKept s3 := (State.EntriesKept.refl s2).foldl (fun x (k : Nat × Nat) => x.entriesKept_deviceEffect k.1 k.2) _
  clear_value s3 s2 s1
  subst hs2 hs1
  refine ⟨hs3.dict, hs3.parts.trans hParts, ?_⟩
  show ({ s3.devArea with results := markApplied s3.devArea.results c 0 0 } : Area) = _
  rw [hs3.devArea, hArea]

theorem exec_deviceCommitApply {s : State} {c : PendCommit} (hPhase : s.phase = .service) (hQueue : s.devArea.queue = [c])
    (hLayouts : ∀ p, (s.part p).layoutNew = none)
    (hSet : ∀ x ∈ c.set, (x.1 / 256 < 0x2100 ∨ 0x2107 < x.1 / 256) ∧ ∃ e, entry? (x.1 / 256) (x.1 % 256) = some e ∧ e.acc.1 = .w) :
    exec .deviceCommitApply s = .next (State.applyDevice { s with devArea := { s.devArea with queue := [] } } c) := by
  have hExec : exec .deviceCommitApply s = execDeviceCommitApply s := rfl
  rw [hExec, execDeviceCommitApply, if_pos hPhase, hQueue]
  dsimp only
  obtain ⟨-, hParts, -⟩ := State.applyDevice_spec (s := { s with devArea := { s.devArea with queue := [] } }) hSet
  have hOne : State.each { s with devArea := { s.devArea with queue := [] } } [c] State.applyDevice =
    State.applyDevice { s with devArea := { s.devArea with queue := [] } } c := rfl
  rw [hOne]
  generalize State.applyDevice _ c = x at hParts
  have hNone (p : PartId) : (x.part p).layoutNew = none := by
    rw [State.part, hParts]
    exact hLayouts p
  have hIdle : (allParts.filter fun p => (x.part p).layoutNew.isSome && (x.part p).image.isNone && (x.part p).admission.isNone) = [] :=
    List.filter_eq_nil_iff.mpr fun p _ => by rw [hNone p]; exact Bool.false_ne_true
  exact congrArg (fun l => Outcome.next (x.each l fun s p => s.changeLayout p)) hIdle

/-! #### A change of a layout record -/

/-- What a partition keeps while its old record leaves force: what its writers have staged, and the record to come. -/
structure Part.Awaits (x y : Part) : Prop where
  staged : y.area.staged = x.area.staged
  layoutNew : y.layoutNew = x.layoutNew
  gone : x.image = none → y.image = none

namespace Part.Awaits

theorem refl (x : Part) : x.Awaits x := ⟨rfl, rfl, id⟩

theorem trans {x y z : Part} (h : x.Awaits y) (h' : y.Awaits z) : x.Awaits z :=
  ⟨h'.staged.trans h.staged, h'.layoutNew.trans h.layoutNew, h'.gone ∘ h.gone⟩

theorem of_stops {x y : Part} (h : x.StopsOnly y) : x.Awaits y :=
  ⟨h.proj fun z => z.area.staged, h.proj Part.layoutNew, fun hx => (h.proj Part.image).trans hx⟩

end Part.Awaits

/-- The partitions await their records, and the words that the records rest on stay. -/
structure State.Awaits (s s' : State) : Prop where
  part : ∀ p, (s.part p).Awaits (s'.part p)
  dict : s'.dict = s.dict
  coreMap : s'.coreMap = s.coreMap
  failmap : s'.startWord.failmap = s.startWord.failmap

namespace State.Awaits

theorem refl (s : State) : s.Awaits s := ⟨fun _ => .refl _, rfl, rfl, rfl⟩

theorem trans {a b c : State} (h : a.Awaits b) (h' : b.Awaits c) : a.Awaits c :=
  ⟨fun p => (h.part p).trans (h'.part p), h'.dict.trans h.dict, h'.coreMap.trans h.coreMap, h'.failmap.trans h.failmap⟩

theorem foldl {α : Type} {s s' : State} (h : s.Awaits s') {f : State → α → State} (hf : ∀ (x : State) a, x.Awaits (f x a))
    (l : List α) : s.Awaits (l.foldl f s') :=
  foldl_keeps l h fun y a hy => hy.trans (hf y a)

theorem of_stops {s s' : State} (hPart : ∀ p, (s.part p).StopsOnly (s'.part p)) (h : s.Volatile s') : s.Awaits s' :=
  ⟨fun p => .of_stops (hPart p), h.proj State.dict, h.proj State.coreMap, h.proj (·.startWord.failmap)⟩

theorem modPart (s : State) (p : PartId) {f : Part → Part} (hf : ∀ x : Part, x.Awaits (f x)) : s.Awaits (s.modPart p f) := by
  refine ⟨fun q => ?_, rfl, rfl, rfl⟩
  by_cases h : q = p
  · subst h
    rw [State.modPart_part_same]
    exact hf _
  · rw [State.modPart_part_other _ _ h]
    exact .refl _

theorem modTile (s : State) (t : TileId) (f : Tile → Tile) : s.Awaits (s.modTile t f) := ⟨fun _ => .refl _, rfl, rfl, rfl⟩

theorem withdraw (s : State) (p : PartId) : s.Awaits (s.withdraw p) := by
  have hV := s.volatile_withdraw p
  refine ⟨fun q => ?_, hV.proj State.dict, hV.proj State.coreMap, hV.proj (·.startWord.failmap)⟩
  by_cases h : q = p
  · subst h
    unfold State.withdraw
    extract_lets pt s1
    have hs1 : (s.part q).Awaits (s1.part q) := by
      subst s1
      split
      · exact .of_stops (Part.StopsOnly.trans (.of_records ((s.gateOnly_sendWithdraw q).part q))
          ((State.stops_sendCancels ..).part q))
      · exact .refl _
    clear_value s1
    rw [State.modPart_part_same]
    exact hs1.trans ⟨rfl, rfl, id⟩
  · exact .of_stops (s.withdraw_other h)

theorem abandon (s : State) (p : PartId) : s.Awaits (s.abandon p) := by
  have hKey : s.Awaits (s.dropModelKey p) := ⟨fun _ => .refl _, rfl, rfl, rfl⟩
  unfold State.abandon
  refine hKey.trans (modPart _ p fun x => ?_)
  split <;> exact ⟨rfl, rfl, id⟩

theorem unloadTile (s : State) (t : TileId) : s.Awaits (s.unloadTile t) := by
  unfold State.unloadTile
  extract_lets s1 s2
  have hSealed : ∀ p, (s.wipeSealed t).part p = s.part p := fun p => by
    unfold State.wipeSealed
    exact foldl_keeps (P := fun x : State => x.part p = s.part p) _ rfl fun _ _ h => h
  have hs1 : s.Awaits s1 := by
    refine of_stops (fun p => ?_) ((s.volatile_wipeSealed t).trans (State.volatile_clearHandles ..))
    show (s.part p).StopsOnly (((s.wipeSealed t).clearHandles t).part p)
    unfold State.clearHandles
    extract_lets x table shut
    have hx : (s.wipeSealed t).WindowsOnly x := (State.WindowsOnly.refl _).foldl (fun x h => x.windowsOnly_advance t h false) _
    rw [State.modTile_part, ← hSealed p]
    exact .of_records (hx.part p)
  clear_value s1
  have hServed : s2.ServedOnly (s2.freeDma t) := s2.servedOnly_freeDma t
  exact (hs1.trans (modTile s1 t _)).trans (of_stops (fun p => .of_faults (hServed.part p)) (.of_served hServed))

theorem unload (s : State) (p : PartId) : s.Awaits (s.unload p) := by
  unfold State.unload
  extract_lets s1 own served idle s2
  have hs1 : s.Awaits s1 := (refl s).foldl unloadTile _
  clear_value s1
  have hs2 : s1.Awaits s2 := ⟨fun _ => .refl _, rfl, rfl, rfl⟩
  clear_value s2
  exact (hs1.trans hs2).trans (modPart s2 p fun _ => ⟨rfl, rfl, fun _ => rfl⟩)

theorem enrolNow (s : State) (p : PartId) : s.Awaits (s.enrolNow p) := by
  unfold State.enrolNow
  split
  · exact refl s
  next x _ =>
    extract_lets ns s1
    have hDrawn (y : State) : y.Awaits y.drawn := ⟨fun _ => .refl _, rfl, rfl, rfl⟩
    have hs1 : s.Awaits s1 := (((withdraw s p).trans (unload ..)).trans (hDrawn _)).trans (modPart _ p fun _ => ⟨rfl, rfl, id⟩)
    clear_value s1
    exact hs1.trans (modPart s1 x.asker fun _ => ⟨rfl, rfl, id⟩)

theorem leaveStop (s : State) (p : PartId) : s.Awaits (s.leaveStop p) := by
  unfold State.leaveStop
  extract_lets s1 parts
  have hs1 : s.Awaits s1 := modPart s p fun _ => ⟨rfl, rfl, id⟩
  clear_value s1 parts
  split
  · exact hs1.trans ⟨fun _ => .refl _, rfl, rfl, rfl⟩
  · exact hs1.trans ⟨fun _ => .refl _, rfl, rfl, rfl⟩

end State.Awaits

/-- The old record of a partition has left force, and its guest has stopped (R325). -/
def State.vacate (s : State) (p : PartId) : State :=
  let s := ((((s.withdraw p).abandon p).unload p).enrolNow p).dropView p stLayout
  let s := if (s.part p).slackStopped then s.leaveStop p else s
  let s := ({ s with dict := Store.set s.dict (dkey (0x2100 + p.val) 0) 0 } : State).carryClocks s
  s.modPart p fun pt => { pt with
    guestBooted := false, guestFailed := false, run := {}, boundaryDue := false, capHalt := false, rearmDue := false
    retire := [], loadAsked := false, st := .disabled }

theorem State.changeLayout_eq {s : State} {p : PartId} (hNew : ((s.part p).layoutNew).isNone = false) (hLive : s.live = true)
    (hActive : (s.part p).run.active = false) (hArmed : (s.part p).armed = false) :
    s.changeLayout p = ((s.vacate p).each allParts State.takeLayout).coresOn.regroup.fabricIfReady := by
  refine if_neg fun h => ?_
  rw [hNew, hLive, hActive, hArmed] at h
  simp at h

/-- A partition whose record has left force: nothing is loaded, booted or pending there, and what is staged stays. -/
structure State.IsVacated (s s' : State) (p : PartId) : Prop where
  dict : s'.dict = Store.set s.dict (dkey (0x2100 + p.val) 0) 0
  coreMap : s'.coreMap = s.coreMap
  failmap : s'.startWord.failmap = s.startWord.failmap
  layoutNew : ∀ q, (s'.part q).layoutNew = (s.part q).layoutNew
  image : (s'.part p).image = none
  booted : (s'.part p).guestBooted = false
  queue : (s'.part p).area.queue = []
  staged : (s'.part p).area.staged = (s.part p).area.staged

theorem State.leaveStop_area (s : State) (p : PartId) : ((s.leaveStop p).part p).area = (s.part p).area := by
  unfold State.leaveStop
  extract_lets s1 parts
  have hs1 : (s1.part p).area = (s.part p).area := (congrArg Part.area (s.modPart_part_same p _)).trans rfl
  clear_value s1 parts
  split
  · exact hs1
  · exact hs1

theorem State.vacate_spec (s : State) (p : PartId) : s.IsVacated (s.vacate p) p := by
  unfold State.vacate
  extract_lets s1 s2 s3
  have hUnload : s.Awaits (((s.withdraw p).abandon p).unload p) :=
    ((State.Awaits.withdraw s p).trans (.abandon ..)).trans (.unload ..)
  obtain ⟨⟨hGone, -⟩, -⟩ := ((s.withdraw p).abandon p).unload_part p
  have hs1 : s.Awaits s1 ∧ (s1.part p).image = none ∧ (s1.part p).area.queue = [] := by
    have hEq : s1 = ((((s.withdraw p).abandon p).unload p).enrolNow p).dropView p stLayout := rfl
    clear_value s1
    subst hEq
    generalize ((s.withdraw p).abandon p).unload p = x at hUnload hGone
    have hEnrol := State.Awaits.enrolNow x p
    generalize x.enrolNow p = y at hEnrol
    have hDrop : y.Awaits (y.dropView p stLayout) := .modPart y p fun _ => ⟨rfl, rfl, id⟩
    have hQueue : ((y.dropView p stLayout).part p).area.queue = [] := congrArg (fun z : Part => z.area.queue) (y.modPart_part_same p _)
    exact ⟨(hUnload.trans hEnrol).trans hDrop, (hDrop.part p).gone ((hEnrol.part p).gone hGone), hQueue⟩
  clear_value s1
  obtain ⟨hKept, hImage, hQueue⟩ := hs1
  have hs2 : s.Awaits s2 ∧ (s2.part p).image = none ∧ (s2.part p).area.queue = [] := by
    subst s2
    split
    · have hLeave := State.Awaits.leaveStop s1 p
      exact ⟨hKept.trans hLeave, (hLeave.part p).gone hImage, (congrArg Area.queue (s1.leaveStop_area p)).trans hQueue⟩
    · exact ⟨hKept, hImage, hQueue⟩
  clear_value s2
  obtain ⟨hKept, hImage, hQueue⟩ := hs2
  have hs3 : s3.dict = Store.set s.dict (dkey (0x2100 + p.val) 0) 0 := by
    rw [← hKept.dict]
    rfl
  have hPart (q : PartId) : s3.part q = s2.part q := rfl
  have hMap : s3.coreMap = s.coreMap := hKept.coreMap
  have hFail : s3.startWord.failmap = s.startWord.failmap := hKept.failmap
  clear_value s3
  refine ⟨hs3, hMap, hFail, fun q => ?_, ?_, ?_, ?_, ?_⟩
  · by_cases hq : q = p
    · subst hq
      rw [State.modPart_part_same]
      exact (congrArg Part.layoutNew (hPart q)).trans (hKept.part q).layoutNew
    · rw [State.modPart_part_other _ _ hq, hPart, (hKept.part q).layoutNew]
  · rw [State.modPart_part_same, hPart]
    exact hImage
  · rw [State.modPart_part_same]
  · rw [State.modPart_part_same, hPart]
    exact hQueue
  · rw [State.modPart_part_same, hPart]
    exact (hKept.part p).staged

/-! What a record to come needs. -/

theorem State.layoutOk_congr {s s' : State} (h : s'.dict = s.dict) (p : PartId) : s'.layoutOk p = s.layoutOk p := by
  unfold State.layoutOk State.clusterMask State.coreMask State.slices State.vcMask State.portMask
  simp only [State.enabled_congr h, State.layout_congr h]

theorem State.layoutFits_congr {s s' : State} (h : s'.dict = s.dict) (p : PartId) (v : Nat) :
    s'.layoutFits p v = s.layoutFits p v :=
  State.layoutOk_congr (by unfold State.over; rw [h]) p

theorem State.takeLayout_none {s : State} {q : PartId} (h : (s.part q).layoutNew = none) : s.takeLayout q = s := by
  unfold State.takeLayout
  rw [h]

/-- A partition that waits takes its record. -/
def State.tookLayout (s : State) (p : PartId) (v : Nat) : State :=
  let s := ({ s with dict := Store.set s.dict (dkey (0x2100 + p.val) 0) v } : State).carryClocks s
  s.modPart p fun pt => { pt with layoutNew := none, st := if bitN v 0 && s.coresUp p then .empty else .disabled }

theorem State.takeLayout_some {s : State} {p : PartId} {v : Nat} (h : (s.part p).layoutNew = some v) (hFree : s.layout p = 0)
    (hFits : s.layoutFits p v = true) : s.takeLayout p = s.tookLayout p v := by
  unfold State.takeLayout
  rw [h]
  exact if_pos ⟨hFree, hFits⟩

/-- Only the partition whose record waits takes one. -/
theorem State.foldl_takeLayout {l : List PartId} (hl : l.Nodup) {p : PartId} (hp : p ∈ l) {s : State}
    (hOthers : ∀ q, q ≠ p → (s.part q).layoutNew = none)
    (hAfter : ∀ q, q ≠ p → ((s.takeLayout p).part q).layoutNew = none) : l.foldl State.takeLayout s = s.takeLayout p :=
  foldl_reaches (P := fun x => x = s) (Q := fun x => x = s.takeLayout p) hl hp
    (fun x q hq hx => by rw [hx]; exact State.takeLayout_none (hOthers q hq))
    (fun x q hq hx => by rw [hx]; exact State.takeLayout_none (hAfter q hq)) (fun x hx => by rw [hx]) rfl

/-- What runs after a record is taken leaves alone what a partition holds and what it rests on. -/
structure State.LayoutKept (s s' : State) : Prop where
  parts : s'.parts = s.parts
  dict : s'.dict = s.dict
  coreMap : s'.coreMap = s.coreMap
  failmap : s'.startWord.failmap = s.startWord.failmap

namespace State.LayoutKept

theorem refl (s : State) : s.LayoutKept s := ⟨rfl, rfl, rfl, rfl⟩

theorem trans {a b c : State} (h : a.LayoutKept b) (h' : b.LayoutKept c) : a.LayoutKept c :=
  ⟨h'.parts.trans h.parts, h'.dict.trans h.dict, h'.coreMap.trans h.coreMap, h'.failmap.trans h.failmap⟩

theorem foldl {α : Type} {s s' : State} (h : s.LayoutKept s') {f : State → α → State}
    (hf : ∀ (x : State) a, x.LayoutKept (f x a)) (l : List α) : s.LayoutKept (l.foldl f s') :=
  foldl_keeps l h fun y a hy => hy.trans (hf y a)

theorem coresOn (s : State) : s.LayoutKept s.coresOn :=
  (refl s).foldl (fun x i => by split <;> exact ⟨rfl, rfl, rfl, rfl⟩) _

theorem regroup (s : State) : s.LayoutKept s.regroup := by
  refine (refl s).foldl (fun x g => ?_) _
  unfold State.regroupOne
  extract_lets members leader role g0 g1 g2
  clear_value g2
  split
  · exact refl x
  · exact ⟨rfl, rfl, rfl, rfl⟩

theorem reroute (s : State) : s.LayoutKept s.reroute := ⟨rfl, rfl, rfl, rfl⟩

theorem fabricIfReady (s : State) : s.LayoutKept s.fabricIfReady := by
  unfold State.fabricIfReady
  split
  · unfold State.fabricStart
    extract_lets s1 s2
    have hs1 : s.LayoutKept s1 := ⟨rfl, rfl, rfl, rfl⟩
    have hs2 : s1.LayoutKept s2 := by
      refine (refl s1).foldl (fun x e => ?_) _
      have hEngine (f : Engine → Engine) : x.LayoutKept (x.modEngine e f) := ⟨rfl, rfl, rfl, rfl⟩
      have hPort (y : State) (q : PortId) (f : Port → Port) : y.LayoutKept (y.modPort q f) := ⟨rfl, rfl, rfl, rfl⟩
      exact (hEngine _).foldl (fun y q => hPort y q _) _
    clear_value s2 s1
    exact (hs1.trans hs2).trans ((reroute s2).trans (regroup _))
  · exact refl s

end State.LayoutKept

theorem exec_layoutChange {s : State} {p : PartId} {v : Nat} (hLive : s.live = true) (hNew : (s.part p).layoutNew = some v)
    (hFits : (({ s with dict := Store.set s.dict (dkey (0x2100 + p.val) 0) 0 } : State).layoutFits p v = true))
    (hOthers : ∀ q, q ≠ p → (s.part q).layoutNew = none) (hActive : (s.part p).run.active = false)
    (hArmed : (s.part p).armed = false)
    (hDue : (s.part p).boundaryDue = true ∨ (s.part p).image = none ∨ (s.part p).st = .halted) :
    ∃ s', exec (.layoutChange p) s = .next s' ∧ s'.layout p = v ∧ (s'.part p).layoutNew = none ∧
      (s'.part p).image = none ∧ (s'.part p).guestBooted = false ∧ (s'.part p).area.queue = [] ∧
      (s'.part p).area.staged = (s.part p).area.staged ∧
      (s'.part p).st = if bitN v 0 && s'.coresUp p then .empty else .disabled := by
  have hRuns : exec (.layoutChange p) s = .next (s.changeLayout p) :=
    congrArg Outcome.next (if_pos (by rw [Option.isNone_iff_eq_none]; exact hDue))
  rw [hRuns, State.changeLayout_eq (by rw [hNew]; rfl) hLive hActive hArmed]
  have hVacated := s.vacate_spec p
  generalize s.vacate p = x at hVacated
  have hxNew : (x.part p).layoutNew = some v := (hVacated.layoutNew p).trans hNew
  have hxOthers (q : PartId) (hq : q ≠ p) : (x.part q).layoutNew = none := (hVacated.layoutNew q).trans (hOthers q hq)
  have hxFree : x.layout p = 0 := by
    unfold State.layout State.dval
    rw [hVacated.dict, Store.get_set_same]
  have hxFits : x.layoutFits p v = true := (State.layoutFits_congr hVacated.dict p v).trans hFits
  have hTook := State.takeLayout_some hxNew hxFree hxFits
  have hTookOther (q : PartId) (hq : q ≠ p) : (x.tookLayout p v).part q = x.part q := State.modPart_part_other _ _ hq
  have hFold : x.each allParts State.takeLayout = x.tookLayout p v := by
    rw [← hTook]
    refine State.foldl_takeLayout (by decide) (mem_allParts p) hxOthers fun q hq => ?_
    rw [hTook, hTookOther q hq]
    exact hxOthers q hq
  have hDict : (x.tookLayout p v).dict = Store.set x.dict (dkey (0x2100 + p.val) 0) v := rfl
  have hPart : (x.tookLayout p v).part p = { x.part p with
      layoutNew := none, st := if bitN v 0 && (x.tookLayout p v).coresUp p then .empty else .disabled } :=
    State.modPart_part_same _ p _
  rw [hFold]
  generalize x.tookLayout p v = y at hDict hPart
  have hEnd : y.LayoutKept y.coresOn.regroup.fabricIfReady :=
    ((State.LayoutKept.coresOn y).trans (.regroup _)).trans (.fabricIfReady _)
  generalize y.coresOn.regroup.fabricIfReady = z at hEnd
  have hzPart : z.part p = y.part p := by rw [State.part, hEnd.parts, State.part]
  refine ⟨z, rfl, ?_, ?_⟩
  · unfold State.layout State.dval
    rw [hEnd.dict, hDict, Store.get_set_same]
  · rw [hzPart, State.coresUp_congr hEnd.dict hEnd.coreMap hEnd.failmap, hPart]
    exact ⟨rfl, hVacated.image, hVacated.booted, hVacated.queue, hVacated.staged, rfl⟩

/-- Settles O50: a commit object submits its writer's set, a device-area commit puts its values in force one by one, and a
record is taken once the old one has left force. -/
theorem commitsQueueAndApply : Obligations.CommitsQueueAndApply := by
  unfold Obligations.CommitsQueueAndApply
  refine ⟨⟨fun s w a hAsk hFault => ⟨?_, fun p hp hHalted hRearms => ?_⟩, ?_⟩,
    fun s c hPhase hQueue hLayouts hSet hNodup => ?_,
    fun s p v hLive hNew hFits hOthers hActive hArmed hDue => exec_layoutChange hLive hNew hFits hOthers hActive hArmed hDue⟩
  · exact congrArg Outcome.next ((if_pos hAsk).trans (State.askWrite_commit hFault))
  · subst hp
    refine congrArg Outcome.next ((if_pos ?_).trans (State.askWrite_commit hFault))
    rw [hAsk, hHalted]
    exact hRearms
  · intro s w a ar set hRuns hRoom
    exact ⟨fun hSound => (State.submit_accepted w hRoom hRuns hSound).trans (s.accept_area w a),
      fun k n hFails => State.submit_failed w hRoom hFails⟩
  · obtain ⟨hDict, -, hArea⟩ := State.applyDevice_spec (s := { s with devArea := { s.devArea with queue := [] } }) hSet
    obtain ⟨hIn, hOut⟩ := State.putInForce_dict (fun x hx => (hSet x hx).2) hNodup
      { s with devArea := { s.devArea with queue := [] } }
    refine ⟨_, exec_deviceCommitApply hPhase hQueue hLayouts hSet, by rw [hArea], fun x hx => ?_, fun k hk => ?_, fun hSeq => ?_⟩
    · rw [hDict]
      exact hIn x hx
    · rw [hDict]
      exact hOut k hk
    · rw [hArea]
      have hMark : markApplied s.devArea.results c 0 0 = assocSet s.devArea.results c.writer
          { seq := c.seq, status := stApplied, gen := 0, frame := 0 } := if_pos hSeq
      show (assocGet {} (markApplied s.devArea.results c 0 0) c.writer).status = stApplied
      rw [hMark, assocGet_assocSet_same]

end Sys2Proof.Machine
end

section
/-! ### The words at reset (R62, R81, R82, R117, R132, R290, R291, R328, R363, R444, R445, R478) -/

namespace Sys2Proof.Machine

/-! Each kind of unit at its reset value. -/

theorem Macro.word_reset : ({} : Macro).word.setWidth 128 = (0 : BitVec 128) := by decide

theorem Slot.word_reset : ({} : Slot).word.setWidth 128 = (0 : BitVec 128) := by decide

theorem Slot.expWord_reset : ({} : Slot).expWord.setWidth 128 = (0 : BitVec 128) := by decide

theorem Tile.statusWords_reset : ({} : Tile).check.word.setWidth 128 = (0 : BitVec 128) ∧
    ({} : Tile).num.word.setWidth 128 = (0xFFFF : BitVec 128) ∧ ({} : Tile).verify.result.setWidth 128 = (0 : BitVec 128) ∧
    ({} : Tile).wp.word.setWidth 128 = (0 : BitVec 128) ∧ ({} : Tile).creditWord.setWidth 128 = (0 : BitVec 128) ∧
    ({} : Tile).tw.word.setWidth 128 = (0 : BitVec 128) := by decide

theorem Tile.seqWord_reset : ({} : Tile).seqWord.setWidth 128 = (0 : BitVec 128) := by decide

theorem Port.word_reset : ({} : Port).word.setWidth 128 = (0x00F00000 : BitVec 128) := by decide

theorem Port.measureWord_reset : ({} : Port).measureWord.setWidth 128 = (0 : BitVec 128) := by decide

theorem Ctrl.word_reset : ({} : Ctrl).word.setWidth 128 = (0 : BitVec 128) := by decide

theorem Ctrl.addrWord_reset : ({} : Ctrl).addrWord.setWidth 128 = (0 : BitVec 128) := by decide

theorem Group.frame_reset : ({} : Group).frame.setWidth 128 = (0 : BitVec 128) := by decide

theorem Strand.statusWord_reset : (({} : Part).strand.statusWord 0).setWidth 128 = (0 : BitVec 128) := by decide

theorem Part.clockWord_reset : ({} : Part).clockWord.setWidth 128 = (0x00101000 : BitVec 128) := by decide

theorem Part.faultWord_reset : ({} : Part).faultWord.setWidth 128 = (0 : BitVec 128) := by decide

theorem State.groupWord_reset (g : GroupId) : State.reset.groupWord g = 0 := by
  have hSource : ∀ g : GroupId, State.reset.gateSource g = 0 := by decide
  have hGroup : State.reset.group g = {} := rfl
  unfold State.groupWord
  rw [hSource, hGroup]
  decide

theorem State.partWord_reset (p : PartId) : State.reset.partWord p = 0 := by
  revert p
  decide

theorem State.partPowerWord_reset (p : PartId) : State.reset.partPowerWord p = 0 := by
  have hFloor : State.reset.atFloor p = false := rfl
  have hPart : State.reset.part p = {} := rfl
  unfold State.partPowerWord
  rw [hFloor, hPart]
  decide

/-- Where no slot is listed, none is draining. -/
theorem Tile.settleSlots_none {tl : Tile} (h : tl.slots = []) : tl.settleSlots = tl := by
  refine foldl_keeps (P := fun x : Tile => x = tl) _ rfl fun x a hx => ?_
  subst hx
  refine if_neg fun hDrains => ?_
  have hFree : x.slot a = {} := by rw [Tile.slot, h, Store.get_nil]
  rw [hFree] at hDrains
  exact absurd hDrains.1 (by decide)

theorem State.seenSlot_reset (t : TileId) (a : Nat) : (State.reset.seenTile t).slot a = {} := by
  unfold State.seenTile Tile.settle
  rw [Tile.settleSlots_none rfl]
  rfl

/-- Settles O4: each word is built from its unit's reset value. -/
theorem wordsAtReset : Obligations.WordsAtReset := by
  unfold Obligations.WordsAtReset
  intro s
  refine ⟨⟨rfl, rfl, rfl, rfl, fun _ => rfl⟩, fun t m a => ?_, fun p o k g => ?_, by decide, by decide, by decide, by decide⟩
  · have hSlot : (s.seenTile t).slot a.val = {} := State.seenSlot_reset t a.val
    obtain ⟨hCheck, hNum, hVerify, hParity, hCredit, hTidewalk⟩ := Tile.statusWords_reset
    refine ⟨Macro.word_reset, ?_, ?_, hCheck, Tile.seqWord_reset, hNum, fun i => rfl, hVerify, hParity, fun e b => ?_, hCredit,
      hTidewalk⟩
    · exact (congrArg (fun x : Slot => x.word.setWidth 128) hSlot).trans Slot.word_reset
    · exact (congrArg (fun x : Slot => x.expWord.setWidth 128) hSlot).trans Slot.expWord_reset
    · cases b <;> rfl
  · refine ⟨Port.word_reset, Port.measureWord_reset, Ctrl.word_reset, Ctrl.addrWord_reset, ?_, Group.frame_reset, ?_,
      Part.clockWord_reset, Part.faultWord_reset, ?_, rfl, Strand.statusWord_reset⟩
    · exact congrArg (BitVec.setWidth 128) (State.groupWord_reset g)
    · exact congrArg (BitVec.setWidth 128) (State.partWord_reset p)
    · exact congrArg (BitVec.setWidth 128) (State.partPowerWord_reset p)

end Sys2Proof.Machine
end

section
/-! ### Control micro-ops and the ends of waits (R124, R125, R127, R129, R132, R134, R155 to R159, R174, R176, R384) -/

namespace Sys2Proof.Machine

open Host (Outcome)

/-- A jump and a taken branch go to the index that they name. -/
theorem Tile.next_target (tl : Tile) (target : BitVec 12) :
    ({ tl with seq := { tl.seq with pc := target - 1 } } : Tile).next =
      tl.modSeq fun q => { q with pc := target, ac := q.ac + 1 } := by
  unfold Tile.next Tile.modSeq
  dsimp only
  rw [BitVec.sub_add_cancel]

theorem Tile.next_branch (tl : Tile) (target : BitVec 12) (n : Store (BitVec 20)) :
    ({ tl with n := n, seq := { tl.seq with pc := target - 1 } } : Tile).next =
      { tl.modSeq (fun q => { q with pc := target, ac := q.ac + 1 }) with n := n } :=
  congrArg (fun x : Tile => { x with n := n }) (tl.next_target target)

theorem Tile.next_setn (tl : Tile) (n : Store (BitVec 20)) : ({ tl with n := n } : Tile).next = { tl.next with n := n } := rfl

theorem Tile.next_setq (tl : Tile) (q : Store (BitVec 64)) : ({ tl with q := q } : Tile).next = { tl.next with q := q } := rfl

theorem Tile.next_setTwin (tl : Tile) (l : List Twin) : ({ tl with twin := l } : Tile).next = { tl.next with twin := l } := rfl

theorem Tile.modSeq_modSeq (tl : Tile) (f g : Seq → Seq) : (tl.modSeq f).modSeq g = tl.modSeq fun q => g (f q) := rfl

section
variable {s₀ s : State} {t : TileId} {id : Ids} (hs : s = s₀.due t)
include hs

/-- A control micro-op, by what it makes of the tile that has begun it. -/
theorem exec_control {i : Instr} {w : BitVec 128} {f : Tile → Tile} {x : Tile}
    (hExec : exec i s₀ = .next (s₀.issue t w fun s => s.control t id f)) (hw : encode i = some w) (h : s₀.issues t i = true)
    (hx : (f ((s.tile t).begun id)).next = x) : exec i s₀ = .next (s.issued t x) := by
  subst hs
  rw [hExec, State.control_issues id f hw h, hx]

theorem exec_waitcCount {f : WaitcCountF} (hCount : f.count ≠ 0) (h : s₀.issues t (.waitcCount t id f) = true) :
    exec (.waitcCount t id f) s₀ = .next (s.issued t (((s.tile t).begun id).modSeq fun q =>
      { q with pc := q.pc + 1, ac := q.ac + f.count.toNat, ahead := f.count.toNat - 1 })) := by
  refine exec_control hs rfl rfl h ?_
  have hPos : f.count.toNat ≠ 0 := fun hz => hCount (BitVec.eq_of_toNat_eq hz)
  have hAc (n : Nat) : n + (f.count.toNat - 1) + 1 = n + f.count.toNat := by omega
  unfold Tile.next Tile.modSeq
  dsimp only
  rw [hAc]

theorem exec_loopSetn {f : LoopSetnF} (h : s₀.issues t (.loopSetn t id f) = true) :
    exec (.loopSetn t id f) s₀ = .next (s.issued t { ((s.tile t).begun id).next with
      n := Store.set (s.tile t).n f.n.toNat f.value }) := by
  refine exec_control hs rfl rfl h ?_
  have hn := (s.tile t).begun_n id
  generalize (s.tile t).begun id = tl at hn ⊢
  rw [← hn]
  exact tl.next_setn _

theorem exec_loopSetq {f : LoopSetqF} (h : s₀.issues t (.loopSetq t id f) = true) :
    exec (.loopSetq t id f) s₀ = .next (s.issued t { ((s.tile t).begun id).next with
      q := Store.set (s.tile t).q f.q.toNat f.value }) := by
  refine exec_control hs rfl rfl h ?_
  have hq := (s.tile t).begun_q id
  generalize (s.tile t).begun id = tl at hq ⊢
  rw [← hq]
  exact tl.next_setq _

theorem exec_loopJump {f : LoopJumpF} (h : s₀.issues t (.loopJump t id f) = true) :
    exec (.loopJump t id f) s₀ = .next (s.issued t (((s.tile t).begun id).modSeq fun q =>
      { q with pc := f.target, ac := q.ac + 1 })) := by
  refine exec_control hs rfl rfl h ?_
  generalize (s.tile t).begun id = tl
  exact tl.next_target f.target

theorem exec_loopBranch_taken {f : LoopBranchF} (h : s₀.issues t (.loopBranch t id f) = true)
    (hLeft : Store.get 0 (s.tile t).n f.n.toNat ≠ 0) :
    exec (.loopBranch t id f) s₀ = .next (s.issued t
      { ((s.tile t).begun id).modSeq (fun q => { q with pc := f.target, ac := q.ac + 1 }) with
        n := Store.set (s.tile t).n f.n.toNat (Store.get 0 (s.tile t).n f.n.toNat - 1) }) := by
  refine exec_control hs rfl rfl h ?_
  rw [Tile.begun_n, if_neg hLeft]
  exact Tile.next_branch _ _ _

theorem exec_loopBranch_over {f : LoopBranchF} (h : s₀.issues t (.loopBranch t id f) = true)
    (hLeft : Store.get 0 (s.tile t).n f.n.toNat = 0) :
    exec (.loopBranch t id f) s₀ = .next (s.issued t ((s.tile t).begun id).next) := by
  refine exec_control hs rfl rfl h ?_
  rw [Tile.begun_n, if_pos hLeft]

theorem exec_waitcDone_goes {f : WaitcDoneF} (h : s₀.issues t (.waitcDone t id f) = true)
    (hLow : ((s.tile t).counter f.cnt.toNat).open_ ≤ f.k.toNat) :
    exec (.waitcDone t id f) s₀ = .next (s.issued t ((s.tile t).begun id).next) := by
  have hPage : (s.tile t).pageHold = none := hs ▸ ((State.issues_iff (i := .waitcDone t id f) rfl).mp h).2
  have hExec : exec (.waitcDone t id f) s₀ = execWaitcDone t id f s₀ := rfl
  rw [hExec, execWaitcDone, State.issue_issues _ rfl h, ← hs]
  dsimp only
  rw [State.begin_issued id hPage, State.issued_tile, Tile.begun_counter, if_pos hLow, State.issued_retire]

theorem exec_waitcDone_waits {f : WaitcDoneF} (h : s₀.issues t (.waitcDone t id f) = true)
    (hHigh : f.k.toNat < ((s.tile t).counter f.cnt.toNat).open_) :
    exec (.waitcDone t id f) s₀ = .next (s.issued t (((s.tile t).begun id).modSeq fun q =>
      { q with st := .waiting, why := .bank, waitArg := f.cnt.setWidth 11, waitFrom := q.ac, overBudget := false
               waitK := f.k })) := by
  have hPage : (s.tile t).pageHold = none := hs ▸ ((State.issues_iff (i := .waitcDone t id f) rfl).mp h).2
  have hExec : exec (.waitcDone t id f) s₀ = execWaitcDone t id f s₀ := rfl
  rw [hExec, execWaitcDone, State.issue_issues _ rfl h, ← hs]
  dsimp only
  rw [State.begin_issued id hPage, State.issued_tile, Tile.begun_counter, if_neg (Nat.not_le.mpr hHigh), State.wait_,
    State.issued_modTile, State.issued_modTile, Tile.modSeq_modSeq]

theorem exec_gate {f : GateF} (h : s₀.issues t (.gate t id f) = true) :
    exec (.gate t id f) s₀ = .next (s.issued t (((s.tile t).begun id).modSeq fun q =>
      { q with st := .waiting, why := .gate, waitArg := 0, waitFrom := q.ac, overBudget := false
               start := f.start, done := false })) := by
  have hPage : (s.tile t).pageHold = none := hs ▸ ((State.issues_iff (i := .gate t id f) rfl).mp h).2
  have hExec : exec (.gate t id f) s₀ = execGate t id f s₀ := rfl
  rw [hExec, execGate, State.issue_issues _ rfl h, ← hs]
  rw [State.begin_issued id hPage, State.wait_, State.issued_modTile, State.issued_modTile, Tile.modSeq_modSeq]

theorem exec_twin {f : TwinF} (h : s₀.issues t (.twin t id f) = true) (hMeets : (s.tile t).twinMeets f.spbanks = []) :
    exec (.twin t id f) s₀ = .next (s.issued t { ((s.tile t).begun id).next with
      twin := ((s.tile t).twin.filter fun w => decide ((s.tile t).seq.ac < w.stopAt)) ++
        [{ macros := f.macros, spbanks := f.spbanks, stopAt := (s.tile t).seq.ac + f.wlen.toNat }] }) := by
  have hPage : (s.tile t).pageHold = none := hs ▸ ((State.issues_iff (i := .twin t id f) rfl).mp h).2
  have hExec : exec (.twin t id f) s₀ = execTwin t id f s₀ := rfl
  rw [hExec, execTwin, State.issue_issues _ rfl h, ← hs]
  dsimp only
  rw [hMeets, State.control, State.begin_issued id hPage, State.issued_modTile, State.issued_retire]
  unfold Tile.twinsOpen
  rw [Tile.begun_twin, Tile.begun_seq_ac, Tile.next_setTwin]
  rfl

end

/-! The ends of waits. -/

section
variable {s : State} {t : TileId}

theorem exec_waitcDoneRelease {waited : Nat} (hUp : s.tileUp t = true) (hWaits : (s.tile t).seq.st = .waiting)
    (hWhy : (s.tile t).seq.why = .bank)
    (hLow : ((s.tile t).counter (s.tile t).seq.waitArg.toNat).open_ ≤ (s.tile t).seq.waitK.toNat) :
    exec (.waitcDoneRelease t waited) s = .next (s.release t waited) :=
  congrArg Outcome.next (if_pos ⟨hUp, hWaits, hWhy, hLow⟩)

theorem exec_rdvWaitRelease {p : PartId} {waited : Nat} (hUp : s.tileUp t = true) (hWaits : (s.tile t).seq.st = .waiting)
    (hWhy : (s.tile t).seq.why = .rdv) (hOwner : s.tileOwner? t = some p)
    (hDone : s.pointDone p (s.tile t).seq.waitArg.toNat = true)
    (hWithin : max waited (s.latencyLeft p t (s.tile t).seq.waitArg.toNat) ≤ s.budgetAc p (s.tile t).seq.waitArg.toNat) :
    exec (.rdvWaitRelease t waited) s =
      .next (s.release t (max waited (s.latencyLeft p t (s.tile t).seq.waitArg.toNat))) := by
  have hExec : exec (.rdvWaitRelease t waited) s = execRdvWaitRelease t waited s := rfl
  have hKept (n : Nat) (hn : n ≤ s.budgetAc p (s.tile t).seq.waitArg.toNat) : s.overBudget p t n = s :=
    if_neg fun h => absurd h.2 (Nat.not_lt.mpr hn)
  rw [hExec, execRdvWaitRelease, hOwner]
  dsimp only
  rw [if_pos ⟨hUp, hWaits, hWhy, hDone⟩, hKept _ hWithin]

end

/-! HINT. -/

theorem State.issued_modDie (s : State) (t : TileId) (x : Tile) (d : DieId) (f : Die → Die) :
    (s.issued t x).modDie d f = (s.modDie d f).issued t x := rfl

/-- A change of a die that leaves its stretches moves no clock. -/
theorem State.dieClock_modDie (s : State) (d e : DieId) {f : Die → Die} (hf : ∀ y : Die, (f y).stretchedBy = y.stretchedBy) :
    (s.modDie d f).dieClock e = s.dieClock e := by
  have hDie : ((s.modDie d f).die e).stretchedBy = (s.die e).stretchedBy := by
    unfold State.modDie State.die
    dsimp only
    rw [Store.get_set]
    split
    next h => rw [h, hf]
    · rfl
  unfold State.dieClock
  rw [hDie]
  rfl

theorem State.phaseClock_modDie (s : State) (d e : DieId) {f : Die → Die} (hf : ∀ y : Die, (f y).stretchedBy = y.stretchedBy)
    (x : Phase) : (s.modDie d f).phaseClock e x = s.phaseClock e x := by
  unfold State.phaseClock State.acNow
  rw [State.dieClock_modDie s d e hf]
  rfl

theorem State.stepDue_modDie (s : State) (d : DieId) {f : Die → Die} (hf : ∀ y : Die, (f y).stretchedBy = y.stretchedBy)
    (x : Phase) : (s.modDie d f).stepDue d x = s.stepDue d x := by
  unfold State.stepDue
  rw [State.phaseClock_modDie s d d hf]
  rfl

theorem State.issued_stepDue (s : State) (t : TileId) (x : Tile) (d : DieId) (y : Phase) :
    (s.issued t x).stepDue d y = s.stepDue d y := rfl

/-- The phase that a hint announces (R156, R384). -/
def State.hintPhase (s : State) (t : TileId) (f : HintF) : Phase :=
  { part := s.tileOwner? t, first := s.tileAc t + f.dist.toNat, last := s.tileAc t + f.dist.toNat + f.plen.toNat * 64
    level := f.level }

/-- A die takes a phase and drops those that are over. -/
def State.phaseInto (s : State) (d : DieId) (x : Phase) (y : Die) : Die :=
  { y with phases := (y.phases.filter fun z => decide (s.phaseClock d z < z.last)) ++ [x] }

/-- A phase that starts soon asserts the die's STEP (R384). -/
def State.withStep (s : State) (d : DieId) (x : Phase) : State :=
  if s.stepDue d x then { s with pins := s.pins.setStep d true } else s

theorem State.withStep_retire (s : State) (d : DieId) (x : Phase) (t : TileId) :
    (s.withStep d x).retire t = (s.retire t).withStep d x := by
  have hDue : (s.retire t).stepDue d x = s.stepDue d x := rfl
  unfold State.withStep
  rw [hDue]
  split <;> rfl

theorem exec_hint {s₀ s : State} {t : TileId} {id : Ids} {f : HintF} (hs : s = s₀.due t) (h : s₀.issues t (.hint t id f) = true) :
    let d := dieOf t
    let first := s.tileAc t + f.dist.toNat
    let x : Phase := { part := s.tileOwner? t, first, last := first + f.plen.toNat * 64, level := f.level }
    let s1 := (s.modDie d fun y => { y with
      phases := (y.phases.filter fun z => decide (s.phaseClock d z < z.last)) ++ [x] }).issued t
        ((s.tile t).begun id).next
    exec (.hint t id f) s₀ = .next (if s.stepDue d x then { s1 with pins := s1.pins.setStep d true } else s1) := by
  have hPage : (s.tile t).pageHold = none := hs ▸ ((State.issues_iff (i := .hint t id f) rfl).mp h).2
  have hExec : exec (.hint t id f) s₀ = .next (s₀.issue t (uopWord id 0x40 (hintBits f)) fun s =>
    (((s.begin_ t id).modDie (dieOf t) ((s.begin_ t id).phaseInto (dieOf t) ((s.begin_ t id).hintPhase t f))).withStep (dieOf t)
      ((s.begin_ t id).hintPhase t f)).retire t) := rfl
  rw [hExec, State.issue_issues _ rfl h, ← hs]
  rw [State.begin_issued id hPage]
  generalize (s.tile t).begun id = tl
  have hPhase : (s.issued t tl).hintPhase t f = s.hintPhase t f := rfl
  have hInto : (s.issued t tl).phaseInto (dieOf t) = s.phaseInto (dieOf t) := rfl
  rw [hPhase, hInto, State.issued_modDie, State.withStep_retire, State.issued_retire]
  unfold State.withStep
  have hDue : ((s.modDie (dieOf t) (s.phaseInto (dieOf t) (s.hintPhase t f))).issued t tl.next).stepDue (dieOf t)
      (s.hintPhase t f) = s.stepDue (dieOf t) (s.hintPhase t f) :=
    (State.issued_stepDue ..).trans
      (s.stepDue_modDie (dieOf t) (f := s.phaseInto (dieOf t) (s.hintPhase t f)) (fun _ => rfl) (s.hintPhase t f))
  rw [hDue]
  rfl

/-- Settles O7: a control micro-op changes the tile that has begun it by its own fields and the place of the next issue, and
the end of a wait is `release`. -/
theorem controlMicroOpsAdvance : Obligations.ControlMicroOpsAdvance := by
  unfold Obligations.ControlMicroOpsAdvance
  refine ⟨?_, ?_, ?_, fun s t waited hUp hWaits => ?_, fun s₀ s t id f hs h => ?_⟩
  · exact fun s₀ s t id hs => ⟨fun r h => exec_control hs rfl rfl h rfl, fun f hCount h => exec_waitcCount hs hCount h⟩
  · exact fun s₀ s t id hs => ⟨fun f h => exec_loopSetn hs h, fun f h => exec_loopSetq hs h,
      fun f h hLeft => exec_loopBranch_over hs h hLeft, fun f h hLeft => exec_loopBranch_taken hs h hLeft, fun f h => exec_loopJump hs h⟩
  · exact fun s₀ s t id hs => ⟨fun f h hLow => exec_waitcDone_goes hs h hLow, fun f h hHigh => exec_waitcDone_waits hs h hHigh,
      fun f h => exec_gate hs h, fun f h hMeets => exec_twin hs h hMeets⟩
  · intro q after
    have hAfter (w : Nat) : s.release t w = (s.modTile t fun _ => after w).count (clusterOf t) 12 w := s.release_eq t w
    clear_value after
    refine ⟨fun hWhy hLow => ?_, ?_⟩
    · rw [← hAfter]
      exact exec_waitcDoneRelease hUp hWaits hWhy hLow
    · intro p hWhy hOwner hDone n hWithin
      rw [← hAfter]
      exact exec_rdvWaitRelease hUp hWaits hWhy hOwner hDone hWithin
  · exact exec_hint hs h

end Sys2Proof.Machine
end

section
/-! ### Rendezvous points (R154, R174 to R176, R180, R246) -/

namespace Sys2Proof.Machine

open Host (Outcome)

/-! What a rendezvous reads is that of the state before the issue. -/

section
variable (s : State) (t : TileId) (id : Ids) (p : PartId)

theorem State.issued_part (tl : Tile) (q : PartId) : (s.issued t tl).part q = s.part q :=
  s.issued_proj t tl fun x => x.part q

theorem State.issued_tileOwner? (tl : Tile) (x : TileId) : (s.issued t tl).tileOwner? x = s.tileOwner? x :=
  s.issued_proj t tl fun y => y.tileOwner? x

theorem State.issued_pointTable (tl : Tile) (q : PartId) : (s.issued t tl).pointTable q = s.pointTable q :=
  s.issued_proj t tl fun x => x.pointTable q

theorem State.issued_pointDone (tl : Tile) (q : PartId) (rid : Nat) :
    (s.issued t tl).pointDone q rid = s.pointDone q rid :=
  s.issued_proj t tl fun x => x.pointDone q rid

theorem State.issued_stretchOf (tl : Tile) (q : PartId) (d : DieId) : (s.issued t tl).stretchOf q d = s.stretchOf q d :=
  s.issued_proj t tl fun x => x.stretchOf q d

theorem State.issued_modPart (tl : Tile) (f : Part → Part) : (s.issued t tl).modPart p f = (s.modPart p f).issued t tl :=
  by
    unfold State.issued State.count
    split
    · rfl
    · rfl

theorem Tile.begun_cycle (tl : Tile) : (tl.begun id).seq.cycle = tl.seq.cycle := by
  unfold Seq.cycle
  rw [Tile.begun_seq_ac, Tile.begun_seq_frozen]

theorem State.tileTime_begun (q : PartId) : (s.issued t ((s.tile t).begun id)).tileTime q t = s.tileTime q t := by
  unfold State.tileTime State.dieCycle
  rw [State.issued_part, State.issued_tile, Tile.begun_cycle]

theorem State.timeOn_begun (q : PartId) (d : DieId) :
    (s.issued t ((s.tile t).begun id)).timeOn q t d = s.timeOn q t d := by
  unfold State.timeOn
  rw [State.tileTime_begun, State.issued_stretchOf, State.issued_stretchOf]

end

/-! Arrivals. -/

/-- An arrival within LOCAL, counted at its point of table entry `e` (R174). -/
def State.countArrival (s : State) (t : TileId) (p : PartId) (rid : Nat) (e : BitVec 128) : State :=
  s.modPart p fun pt => pt.modPoint rid fun x =>
    { x.until_ (fun d => s.timeOn p t d + pt.scopeTime (hf e 127 126)) with
      locals := x.locals + 1, reached := x.reached || decide (hf e 113 104 ≤ x.locals + 1) }

/-- The grants of an arrival that asks for them (R175, R246). -/
def State.sendGrants (s : State) (p : PartId) (e : BitVec 128) (grant : Bool) : State :=
  if grant then s.each (List.range (hf e 87 80)) fun s i => s.sendGrant p (hf e 79 64 + i) else s

/-- The arrival of the device at a point of fabric scope, where its last tile has arrived (R174). -/
def State.deviceArrives (s : State) (p : PartId) (rid : Nat) (e : BitVec 128) (last : Prop) [Decidable last] : State :=
  if last then s.send (.group (BitVec.ofNat 6 (hf e 95 88)).toFin)
    (.arrival { frame := (s.part p).frame, rid := BitVec.ofNat 10 rid, group := (BitVec.ofNat 6 (hf e 95 88)).toFin })
  else s

theorem State.arrive_within {s : State} {t : TileId} {p : PartId} {rid : Nat} {e : BitVec 128} (ids : Ids) (grant : Bool)
    (hOwner : s.tileOwner? t = some p) (hEntry : (s.pointTable p)[rid]? = some e)
    (hWithin : ((s.part p).point rid).locals < hf e 113 104) :
    s.arrive t ids rid grant = ((s.countArrival t p rid e).sendGrants p e grant).deviceArrives p rid e
      (((s.part p).point rid).locals + 1 = hf e 113 104 ∧ hf e 127 126 = 3) := by
  rw [State.arrive, hOwner]
  dsimp only
  rw [hEntry]
  exact if_neg (Nat.not_le.mpr hWithin)

theorem State.countArrival_begun (s : State) (t : TileId) (id : Ids) (p : PartId) (rid : Nat) (e : BitVec 128) :
    (s.issued t ((s.tile t).begun id)).countArrival t p rid e =
      (s.countArrival t p rid e).issued t ((s.tile t).begun id) := by
  unfold State.countArrival
  have hTime : (s.issued t ((s.tile t).begun id)).timeOn p t = s.timeOn p t := funext (s.timeOn_begun t id p)
  rw [hTime, State.issued_modPart]

/-- An RDV that has begun has arrived at its point. -/
theorem State.arrive_begun {s : State} {t : TileId} {id : Ids} {p : PartId} {rid : Nat} {e : BitVec 128} (grant : Bool)
    (hPage : (s.tile t).pageHold = none) (hOwner : s.tileOwner? t = some p) (hEntry : (s.pointTable p)[rid]? = some e)
    (hWithin : ((s.part p).point rid).locals < hf e 113 104) :
    (s.begin_ t id).arrive t id rid grant =
      (((s.countArrival t p rid e).issued t ((s.tile t).begun id)).sendGrants p e grant).deviceArrives p rid e
        (((s.part p).point rid).locals + 1 = hf e 113 104 ∧ hf e 127 126 = 3) := by
  rw [State.begin_issued id hPage, State.arrive_within (p := p) (e := e), State.countArrival_begun, State.issued_part]
  · rw [State.issued_tileOwner?, hOwner]
  · rw [State.issued_pointTable, hEntry]
  · rw [State.issued_part]
    exact hWithin

section
variable {s₀ s : State} {t : TileId} {id : Ids} {f : RdvF} {p : PartId} {e : BitVec 128} (hs : s = s₀.due t)
  (hOwner : s.tileOwner? t = some p)
include hs hOwner

theorem exec_rdvArrive (hIssues : s₀.issues t (.rdvArrive t id f) = true) (hEntry : (s.pointTable p)[f.rid.toNat]? = some e)
    (hWithin : ((s.part p).point f.rid.toNat).locals < hf e 113 104) :
    exec (.rdvArrive t id f) s₀ = .next (((((s.countArrival t p f.rid.toNat e).issued t ((s.tile t).begun id)).sendGrants
      p e (f.grant = 1)).deviceArrives p f.rid.toNat e
        (((s.part p).point f.rid.toNat).locals + 1 = hf e 113 104 ∧ hf e 127 126 = 3)).retire t) := by
  have hPage : (s.tile t).pageHold = none := hs ▸ ((State.issues_iff (i := .rdvArrive t id f) rfl).mp hIssues).2
  have hExec : exec (.rdvArrive t id f) s₀ = execRdvArrive t id f s₀ := rfl
  rw [hExec, execRdvArrive, State.issue_issues _ rfl hIssues, ← hs, State.arrive_begun _ hPage hOwner hEntry hWithin]

theorem exec_rdvArriveWait (hIssues : s₀.issues t (.rdvArriveWait t id f) = true)
    (hEntry : (s.pointTable p)[f.rid.toNat]? = some e)
    (hWithin : ((s.part p).point f.rid.toNat).locals < hf e 113 104) :
    exec (.rdvArriveWait t id f) s₀ = .next (((((s.countArrival t p f.rid.toNat e).issued t
      ((s.tile t).begun id)).sendGrants p e (f.grant = 1)).deviceArrives p f.rid.toNat e
        (((s.part p).point f.rid.toNat).locals + 1 = hf e 113 104 ∧ hf e 127 126 = 3)).rdvWaitAt t f.rid) := by
  have hPage : (s.tile t).pageHold = none := hs ▸ ((State.issues_iff (i := .rdvArriveWait t id f) rfl).mp hIssues).2
  have hExec : exec (.rdvArriveWait t id f) s₀ = execRdvArriveWait t id f s₀ := rfl
  rw [hExec, execRdvArriveWait, State.issue_issues _ rfl hIssues, ← hs, State.arrive_begun _ hPage hOwner hEntry hWithin]

/-! Waits. -/

theorem exec_rdvWait (hIssues : s₀.issues t (.rdvWait t id f) = true) :
    exec (.rdvWait t id f) s₀ = .next (
      if s.pointDone p f.rid.toNat && (((s.part p).point f.rid.toNat).cancelled ||
          decide (((s.part p).point f.rid.toNat).doneOn (dieOf t) ≤ s.tileTime p t)) then
        ((s.issued t ((s.tile t).begun id)).cancelAt p f.rid.toNat).retire t
      else (s.issued t ((s.tile t).begun id)).wait_ t .rdv (f.rid.setWidth 11)) := by
  have hPage : (s.tile t).pageHold = none := hs ▸ ((State.issues_iff (i := .rdvWait t id f) rfl).mp hIssues).2
  have hExec : exec (.rdvWait t id f) s₀ = execRdvWait t id f s₀ := rfl
  rw [hExec, execRdvWait, State.issue_issues _ rfl hIssues, ← hs, State.begin_issued id hPage, State.rdvWaitAt,
    State.issued_tileOwner?, hOwner]
  dsimp only
  rw [State.issued_part, State.issued_pointDone, State.tileTime_begun]

theorem exec_rdvWait_ends (hIssues : s₀.issues t (.rdvWait t id f) = true)
    (hDone : s.pointDone p f.rid.toNat = true) (hLives : ((s.part p).point f.rid.toNat).cancelled = false)
    (hOver : ((s.part p).point f.rid.toNat).doneOn (dieOf t) ≤ s.tileTime p t) :
    exec (.rdvWait t id f) s₀ = .next (s.issued t ((s.tile t).begun id).next) := by
  have hKept : (s.issued t ((s.tile t).begun id)).cancelAt p f.rid.toNat = s.issued t ((s.tile t).begun id) := by
    rw [State.cancelAt, State.issued_part, hLives]
    exact if_neg Bool.false_ne_true
  rw [exec_rdvWait hs hOwner hIssues, hDone, decide_eq_true hOver, Bool.or_true, Bool.and_true, if_pos rfl, hKept,
    State.issued_retire]

theorem exec_rdvWait_waits (hIssues : s₀.issues t (.rdvWait t id f) = true)
    (hDone : s.pointDone p f.rid.toNat = false) :
    exec (.rdvWait t id f) s₀ = .next (s.issued t (((s.tile t).begun id).modSeq fun q =>
      { q with st := .waiting, why := .rdv, waitArg := f.rid.setWidth 11, waitFrom := q.ac, overBudget := false })) := by
  rw [exec_rdvWait hs hOwner hIssues, hDone, Bool.false_and, if_neg Bool.false_ne_true, State.wait_, State.issued_modTile]

end

/-! The budget. -/

/-- The over-budget count of a partition and of its frame (R176). -/
def Part.countOverBudget (pt : Part) : Part :=
  { pt with overBudgetCount := pt.overBudgetCount + 1, run := { pt.run with overBudget := pt.run.overBudget + 1 } }

theorem State.overBudget_exceeded {s : State} {t : TileId} {p : PartId} {waited : Nat}
    (hFirst : (s.tile t).seq.overBudget = false) (hExceeds : s.budgetAc p (s.tile t).seq.waitArg.toNat < waited) :
    s.overBudget p t waited =
      ((s.modTile t fun tl => tl.modSeq fun q => { q with overBudget := true }).raise 0x000B clsNone (s.srcTile t 16)
        { layer := (s.tile t).seq.layer, opid := (s.tile t).seq.opid } (some p)
        (leBytes 2 (s.tile t).seq.waitArg.toNat)).modPart p Part.countOverBudget :=
  if_pos ⟨hFirst, hExceeds⟩

/-- What an exceeded budget does. -/
theorem State.overBudget_spec {s : State} {t : TileId} {p : PartId} {waited : Nat}
    (hFirst : (s.tile t).seq.overBudget = false) (hExceeds : s.budgetAc p (s.tile t).seq.waitArg.toNat < waited) :
    (s.overBudget p t waited).events = s.events ++ [{
        code := 0x000B, cls := clsNone, src := s.srcTile t 16, ts := s.now
        layer := (s.tile t).seq.layer, opid := (s.tile t).seq.opid,
        frame := (s.part p).frame, part := some p, detail := leBytes 2 (s.tile t).seq.waitArg.toNat }] ∧
      ((s.overBudget p t waited).part p).overBudgetCount = (s.part p).overBudgetCount + 1 ∧
      ((s.overBudget p t waited).part p).run = { (s.part p).run with overBudget := (s.part p).run.overBudget + 1 } ∧
      ((s.overBudget p t waited).tile t).seq = { (s.tile t).seq with overBudget := true } ∧
      ∀ x, x ≠ t → (s.overBudget p t waited).tile x = s.tile x := by
  rw [State.overBudget_exceeded hFirst hExceeds]
  generalize hSrc : s.srcTile t 16 = src
  generalize hIds : ({ layer := (s.tile t).seq.layer, opid := (s.tile t).seq.opid } : Ids) = ids
  generalize hDetail : leBytes 2 (s.tile t).seq.waitArg.toNat = detail
  have hTile (x : TileId) : (((s.modTile t fun tl => tl.modSeq fun q => { q with overBudget := true }).raise 0x000B clsNone
      src ids (some p) detail).modPart p Part.countOverBudget).tile x =
        (s.modTile t fun tl => tl.modSeq fun q => { q with overBudget := true }).tile x :=
    (State.raise_tile _ _ _ _ _ _ _ x)
  refine ⟨?_, ?_, ?_, ?_, fun x hx => ?_⟩
  · have hEvents := State.raise_events (s.modTile t fun tl => tl.modSeq fun q => { q with overBudget := true }) 0x000B clsNone
      src ids (some p) detail
    subst ids
    exact hEvents
  · rw [State.modPart_part_same, Part.countOverBudget, State.raise_none_overBudgetCount]
    rfl
  · rw [State.modPart_part_same, Part.countOverBudget, State.raise_none_run]
    rfl
  · rw [hTile, State.modTile_tile_same]
    rfl
  · rw [hTile, State.modTile_tile_other _ _ hx]

/-- Settles O8: an arrival within LOCAL, a wait that ends or goes on, and a wait beyond its budget, each by its rule; the
point, the clock and the partition that it reads are those of the state before the issue. -/
theorem rendezvousCountsAndWaits : Obligations.RendezvousCountsAndWaits := by
  unfold Obligations.RendezvousCountsAndWaits
  refine ⟨?_, ?_, ?_⟩
  · intro s₀ s t id f p e hs hOwner hEntry hWithin x g s1 s2 s3
    have h3 : s3 = (((s.countArrival t p f.rid.toNat e).issued t ((s.tile t).begun id)).sendGrants
        p e (f.grant = 1)).deviceArrives p f.rid.toNat e
          (((s.part p).point f.rid.toNat).locals + 1 = hf e 113 104 ∧ hf e 127 126 = 3) := by
      have h2 : s2 = s1.sendGrants p e (f.grant = 1) := by
        simp only [s2, State.sendGrants, decide_eq_true_eq]
      change s2.deviceArrives p f.rid.toNat e _ = _
      rw [h2]
      rfl
    rw [h3]
    exact ⟨fun hIssues => exec_rdvArrive hs hOwner hIssues hEntry hWithin,
      fun hIssues => exec_rdvArriveWait hs hOwner hIssues hEntry hWithin⟩
  · intro s₀ s t id f p hs hIssues hOwner
    exact ⟨exec_rdvWait_ends hs hOwner hIssues, exec_rdvWait_waits hs hOwner hIssues⟩
  · intro s t p waited hOwner hWaits hWhy hFirst hExceeds
    have hExec : exec (.rdvOverBudget ⟨t, waited⟩) s = .next (s.overBudget p t waited) := by
      have hExec : exec (.rdvOverBudget ⟨t, waited⟩) s = execRdvOverBudget ⟨t, waited⟩ s := rfl
      rw [hExec, execRdvOverBudget, hOwner]
      exact congrArg Outcome.next (if_pos ⟨hWaits, hWhy⟩)
    exact ⟨_, hExec, State.overBudget_spec hFirst hExceeds⟩

end Sys2Proof.Machine
end

section
/-! ### Parity replays of words, and the start of a pass (R52, R64, R126, R135, R138, R140, R141, R172) -/

namespace Sys2Proof.Machine

open Host (Outcome)

/-! #### Parity replays -/

/-- The state in which replay `n` of a word has begun, where the sequencer stood as `q` (R126, R135, R172). -/
def State.replayBegun (s : State) (t : TileId) (q : Seq) (n : Nat) : State :=
  ((s.modTile t fun tl => { tl with seq := { q with
    frozen := q.frozen + 12, st := .frozen, parTries := n, parity := satAdd q.parity 1 } }).raise 0x0004 clsNone
      (s.srcTile t 16) q.parIds (s.tileOwner? t) []).count (clusterOf t) 11 12

theorem State.parityReplay_eq (s : State) (t : TileId) (n : Nat) : s.parityReplay t n = s.replayBegun t (s.tile t).seq n := by
  have hOwner (f : Tile → Tile) : (s.modTile t f).tileOwner? t = s.tileOwner? t := State.modTile_tileOwner? ..
  have hIds (f : Tile → Tile) : (s.modTile t f).tile t = f (s.tile t) := State.modTile_tile_same ..
  unfold State.parityReplay State.replayBegun
  dsimp only
  rw [hOwner, hIds]
  rfl

theorem State.firstReplay_eq (s : State) (t : TileId) (word : Option Nat) (ids : Ids) :
    s.firstReplay t word ids =
      s.replayBegun t { (s.tile t).seq with parWord := word, parIds := ids, parBack := (s.tile t).seq.st } 1 := by
  unfold State.firstReplay
  rw [State.parityReplay_eq, State.modTile_tile_same]
  unfold State.replayBegun
  rw [State.modTile_modTile, State.modTile_tileOwner?]
  rfl

/-- The state in which a second failed replay has stopped the tile and aborted its frame (R126). -/
def State.replayStopped (s : State) (t : TileId) : State :=
  (s.modTile t fun tl => { tl with seq := { (s.tile t).seq with st := .stopped, parTries := 0 } }).abortTile t
    0x0004 3 16 (s.tile t).seq.parIds []

theorem State.replayStopped_tileOwner? (s : State) (t : TileId) : (s.replayStopped t).tileOwner? t = s.tileOwner? t :=
  ((State.servedOnly_abortTile ..).tileOwner? t).trans (State.modTile_tileOwner? ..)

/-- The page of a fetched word is to be loaded again before ready (R126). -/
def State.owesReload (s : State) (t : TileId) (word : Option Nat) (owner : Option PartId) : State :=
  match word, owner with
  | none, some p => s.modPart p fun pt =>
      { pt with pageReload := if pt.pageReload.contains t.val then pt.pageReload else pt.pageReload ++ [t.val] }
  | _, _ => s

/-- The state in which a good replay has let the sequencer go on as it stood (R126). -/
def State.replayOver (s : State) (t : TileId) : State :=
  s.modTile t fun tl => { tl with seq := { (s.tile t).seq with st := (s.tile t).seq.parBack, parTries := 0 } }

section
variable {s : State} {t : TileId}

theorem exec_fetchParityReplay_word (hUp : s.tileUp t = true) (hIssuing : (s.tile t).seq.st = .issuing) :
    exec (.fetchParityReplay ⟨t, none⟩) s = .next (s.firstReplay t none (s.tile t).nextIds) := by
  have hFree : ¬(s.tileUp t = false ∨ (s.tile t).seq.st = .frozen) := by simp [hUp, hIssuing]
  exact congrArg Outcome.next ((if_neg hFree).trans (if_pos (.inl hIssuing)))

theorem exec_fetchParityReplay_operand {w : Nat} {ids : Ids} (hUp : s.tileUp t = true) (hFree : (s.tile t).seq.st ≠ .frozen)
    (hReader : (s.tile t).reader? w = some ids) :
    exec (.fetchParityReplay ⟨t, some w⟩) s = .next (s.firstReplay t (some w) ids) := by
  have hFree : ¬(s.tileUp t = false ∨ (s.tile t).seq.st = .frozen) := by simp [hUp, hFree]
  have hExec : exec (.fetchParityReplay ⟨t, some w⟩) s = execFetchParityReplay ⟨t, some w⟩ s := rfl
  rw [hExec, execFetchParityReplay]
  dsimp only
  rw [if_neg hFree, hReader]

variable (hFrozen : (s.tile t).seq.st = .frozen)
include hFrozen

theorem exec_parityReplayEnd_good (hReplays : (s.tile t).seq.parTries ≠ 0) :
    exec (.parityReplayEnd t true) s = .next ((s.replayOver t).raise 0x0004 clsReplayed (s.srcTile t 16)
      (s.tile t).seq.parIds (s.tileOwner? t) []) := by
  have hExec : exec (.parityReplayEnd t true) s = .next ((s.replayOver t).raise 0x0004 clsReplayed
      ((s.replayOver t).srcTile t 16) (s.tile t).seq.parIds ((s.replayOver t).tileOwner? t) []) :=
    congrArg Outcome.next ((if_pos ⟨hFrozen, hReplays⟩).trans (if_pos rfl))
  rw [hExec, State.replayOver, State.modTile_tileOwner?]
  rfl

theorem exec_parityReplayEnd_again (hFirst : (s.tile t).seq.parTries = 1) :
    exec (.parityReplayEnd t false) s = .next (s.replayBegun t (s.tile t).seq 2) := by
  have hReplays : (s.tile t).seq.parTries ≠ 0 := by rw [hFirst]; decide
  rw [← State.parityReplay_eq]
  exact congrArg Outcome.next
    (((if_pos ⟨hFrozen, hReplays⟩).trans (if_neg Bool.false_ne_true)).trans (if_pos hFirst))

theorem exec_parityReplayEnd_stops {p : PartId} (hSecond : (s.tile t).seq.parTries = 2) (hOwner : s.tileOwner? t = some p) :
    exec (.parityReplayEnd t false) s = .next (match (s.tile t).seq.parWord with
      | some _ => s.replayStopped t
      | none => (s.replayStopped t).modPart p fun pt => { pt with
          pageReload := if pt.pageReload.contains t.val then pt.pageReload else pt.pageReload ++ [t.val] }) := by
  have hReplays : (s.tile t).seq.parTries ≠ 0 := by rw [hSecond]; decide
  have hLater : (s.tile t).seq.parTries ≠ 1 := by rw [hSecond]; decide
  have hExec : exec (.parityReplayEnd t false) s =
      .next ((s.replayStopped t).owesReload t (s.tile t).seq.parWord ((s.replayStopped t).tileOwner? t)) :=
    congrArg Outcome.next (((if_pos ⟨hFrozen, hReplays⟩).trans (if_neg Bool.false_ne_true)).trans (if_neg hLater))
  rw [hExec, State.replayStopped_tileOwner?, hOwner]
  cases (s.tile t).seq.parWord with
  | none => rfl
  | some w => rfl

end

/-- Settles O10: a replay begins, ends well, begins again or stops the tile. -/
theorem fetchParityReplays : Obligations.FetchParityReplays := by
  unfold Obligations.FetchParityReplays
  intro s t q again stops
  refine ⟨fun hUp hIssuing => ?_, fun w ids hUp hFree hReader => ?_, fun hFrozen hReplays => ?_, fun hFrozen hFirst => ?_,
    fun p hFrozen hSecond hOwner => ?_⟩
  · rw [exec_fetchParityReplay_word hUp hIssuing, State.firstReplay_eq, show (s.tile t).seq.st = .issuing from hIssuing]
    rfl
  · rw [exec_fetchParityReplay_operand hUp hFree hReader, State.firstReplay_eq]
    rfl
  · exact exec_parityReplayEnd_good hFrozen hReplays
  · exact exec_parityReplayEnd_again hFrozen hFirst
  · exact exec_parityReplayEnd_stops hFrozen hSecond hOwner

/-! #### The start of a pass -/

theorem State.passClass_begun (s : State) (t : TileId) (id : Ids) :
    (s.issued t ((s.tile t).begun id)).passClass t = s.passClass t := by
  unfold State.passClass
  dsimp only
  rw [State.issued_tile, State.issued_tileOwner?, Tile.begun_seq_soft, Tile.begun_cycle]
  have hClass (p : PartId) : (s.issued t ((s.tile t).begun id)).part p = s.part p := State.issued_part ..
  split
  · rfl
  · cases s.tileOwner? t with
    | none => rfl
    | some p => exact congrArg (fun x : Part => x.cls.toNat) (hClass p)

theorem State.meetFill_free {s : State} {t : TileId} {h : BitVec 1} {m : Nat} (stop : Nat)
    (hFree : ((s.tile t).mac m).fill h = none) : s.meetFill t h m stop = s := by
  rw [State.meetFill, hFree]

theorem State.meetFills_free {s : State} {t : TileId} {h : BitVec 1} {l : List Nat} (stop : Nat)
    (hFree : ∀ m ∈ l, ((s.tile t).mac m).fill h = none) : (s.each l fun s m => s.meetFill t h m stop) = s := by
  refine foldl_keeps_of_mem (P := fun x : State => x = s) _ rfl fun x m hm hx => ?_
  rw [hx]
  exact State.meetFill_free stop (hFree m hm)

theorem onesOf_ne_nil {w : Nat} {x : BitVec w} (hx : x ≠ 0) : onesOf x ≠ [] := by
  intro hNil
  refine hx (BitVec.eq_of_getLsbD_eq fun i _ => ?_)
  have hMem : i ∉ onesOf x := by rw [hNil]; exact List.not_mem_nil
  rw [mem_onesOf] at hMem
  rw [Bool.not_eq_true] at hMem
  rw [hMem]
  exact BitVec.getLsbD_zero.symm

/-- The pass that a MACP starts on the macros of `runs` (R52, R140). -/
def Tile.passOf (tl : Tile) (id : Ids) (f : MacpF) (runs : List Nat) (busy : Nat) : Pass :=
  { issue := tl.seq.ac, due := tl.seq.ac + busy + 3, busy, macros := runs.map fun m => (m, (tl.mac m).activePhys)
    half := f.half, rgmask := f.rgmask, bm1 := f.bm1, asgn := f.asgn, bfp := f.mode = 1, s := Machine.sizeOf f.grp
    sk := f.sk, partner := f.partner.toNat, ids := id }

/-- The macros note the size of a pass (R105). -/
def Tile.sized (tl : Tile) (f : MacpF) (macs : List Nat) : Tile :=
  tl.modMacs macs fun _ mc => { mc with lastS := some (Machine.sizeOf f.grp) }

/-- The macros hold what a pass of `busy` ac from cycle `ac` on holds (R52, R115). -/
def Tile.macsHeld (tl : Tile) (f : MacpF) (macs : List Nat) (ac busy : Nat) : Tile :=
  (tl.sized f macs).modMacs macs fun _ mc => mc.holdPass ac busy f.half

theorem Tile.modMacs_passes (tl : Tile) (l : List Nat) (g : Nat → Macro → Macro) : (tl.modMacs l g).passes = tl.passes := by
  rw [Tile.modMacs_shape]

theorem Tile.modMacs_seq (tl : Tile) (l : List Nat) (g : Nat → Macro → Macro) : (tl.modMacs l g).seq = tl.seq := by
  rw [Tile.modMacs_shape]

theorem Tile.macsHeld_passes (tl : Tile) (f : MacpF) (macs : List Nat) (ac busy : Nat) :
    (tl.macsHeld f macs ac busy).passes = tl.passes := by
  unfold Tile.macsHeld
  rw [Tile.modMacs_passes, Tile.sized, Tile.modMacs_passes]

/-- The hold begins in the cycle of the tile, which no change of its macros moves. -/
theorem Tile.macsHeld_eq (tl : Tile) (f : MacpF) (macs : List Nat) (busy : Nat) :
    ((tl.sized f macs).modMacs macs fun _ mc => mc.holdPass (tl.sized f macs).seq.ac busy f.half) =
      tl.macsHeld f macs tl.seq.ac busy :=
  congrArg (fun q : Seq => tl.macsHeld f macs q.ac busy) (tl.modMacs_seq ..)

/-- The tile in which a pass that runs on the macros has started. -/
theorem Tile.macp_started (x : Tile) (f : MacpF) {macs : List Nat} (busy : Nat) (pass : Pass) (hNamed : macs ≠ []) :
    (if macs = [] then (x.sized f macs).modMacs macs fun _ mc => mc.holdPass (x.sized f macs).seq.ac busy f.half
      else { (x.sized f macs).modMacs macs fun _ mc => mc.holdPass (x.sized f macs).seq.ac busy f.half with
        passes := ((x.sized f macs).modMacs macs fun _ mc => mc.holdPass (x.sized f macs).seq.ac busy f.half).passes ++
          [pass] }) = { x.macsHeld f macs x.seq.ac busy with passes := x.passes ++ [pass] } := by
  rw [Tile.macsHeld_eq, if_neg hNamed, Tile.macsHeld_passes]

theorem Tile.next_setPasses (tl : Tile) (l : List Pass) : ({ tl with passes := l } : Tile).next = { tl.next with passes := l } := rfl

/-- The macros that run of a MACP in which none meets a conflict are the named ones. -/
theorem macp_runs {tl : Tile} {f : MacpF} {macs : List Nat} (hOk : ∀ m ∈ macs, passOk tl f.rgmask m = true)
    (hSlices : f.sk = 0 ∨ sliceOk tl macs f.sk.toNat f.partner.toNat = true) :
    (if f.sk.toNat = 0 ∨ (macs.all (passOk tl f.rgmask) ∧ sliceOk tl macs f.sk.toNat f.partner.toNat = true) then
      macs.filter (passOk tl f.rgmask) else []) = macs := by
  have hAll : macs.all (passOk tl f.rgmask) = true := List.all_eq_true.mpr hOk
  have hCond : f.sk.toNat = 0 ∨ (macs.all (passOk tl f.rgmask) ∧ sliceOk tl macs f.sk.toNat f.partner.toNat = true) :=
    hSlices.imp (fun h => by rw [h]; rfl) fun h => ⟨hAll, h⟩
  rw [if_pos hCond]
  exact List.filter_eq_self.mpr hOk

/-- What a MACP does once it has begun (R52, R64, R140). -/
def State.macpBegun (s : State) (t : TileId) (id : Ids) (f : MacpF) : State :=
  let tl := s.tile t
  let macs := onesOf f.macros
  let k := f.sk.toNat
  let sz := Machine.sizeOf f.grp
  let runs := if k = 0 ∨ (macs.all (passOk tl f.rgmask) ∧ sliceOk tl macs k f.partner.toNat = true) then
    macs.filter (passOk tl f.rgmask) else []
  let fails := macs.filter fun m => !runs.contains m
  let busy := (f.bm1.toNat + 1) * gOf (s.passClass t) (popcount f.rgmask)
  let pass := tl.passOf id f runs busy
  let s := s.each runs fun s m => s.meetFill t f.half m (tl.seq.ac + busy + 4)
  let s := s.modTile t fun tl =>
    let tl := tl.modMacs macs fun _ mc => { mc with lastS := some sz }
    let tl := tl.modMacs runs fun _ mc => mc.holdPass tl.seq.ac busy f.half
    if runs = [] then tl else { tl with passes := tl.passes ++ [pass] }
  let s := (s.count (clusterOf t) 0 macs.length).count (clusterOf t) 1 (runs.length * busy)
  let s := if fails = [] then s else s.conflict t id fails [] 16
  s.retire t

theorem State.macpBegun_all {s : State} {t : TileId} {id : Ids} {f : MacpF} {macs : List Nat} {busy : Nat}
    (hMacs : macs = onesOf f.macros) (hNamed : macs ≠ []) (hOk : ∀ m ∈ macs, passOk (s.tile t) f.rgmask m = true)
    (hFree : ∀ m ∈ macs, ((s.tile t).mac m).fill f.half = none)
    (hSlices : f.sk = 0 ∨ sliceOk (s.tile t) macs f.sk.toNat f.partner.toNat = true)
    (hBusy : busy = (f.bm1.toNat + 1) * gOf (s.passClass t) (popcount f.rgmask)) :
    s.macpBegun t id f = (((s.modTile t fun x =>
      { x.macsHeld f macs x.seq.ac busy with
        passes := x.passes ++ [(s.tile t).passOf id f macs busy] }).count (clusterOf t) 0 macs.length).count
        (clusterOf t) 1 (macs.length * busy)).retire t := by
  subst hMacs hBusy
  unfold State.macpBegun
  extract_lets tl macs k sz runs fails busy pass s1 s2 s3 s4
  have hRuns : runs = macs := macp_runs hOk hSlices
  clear_value runs
  subst hRuns
  have hFails : fails = [] := List.filter_eq_nil_iff.mpr fun m hm => by simp [hm]
  have h4 : s4 = s3 := if_pos hFails
  have h1 : s1 = s := State.meetFills_free _ hFree
  have h2 : s2 = s.modTile t fun x => { x.macsHeld f macs x.seq.ac busy with passes := x.passes ++ [pass] } := by
    refine (congrArg (fun y : State => y.modTile t _) h1).trans (congrArg (s.modTile t) (funext fun x => ?_))
    exact x.macp_started f busy pass hNamed
  rw [h4]
  subst s3
  rw [h2]

theorem exec_macp {s₀ s : State} {t : TileId} {id : Ids} {f : MacpF} (hs : s = s₀.due t)
    (hIssues : s₀.issues t (.macp t id f) = true) :
    exec (.macp t id f) s₀ = .next ((s.issued t ((s.tile t).begun id)).macpBegun t id f) := by
  have hWord : encode (.macp t id f) = some (uopWord id 0x08 (macpBits f)) := rfl
  have hPage : ((s₀.due t).tile t).pageHold = none := ((State.issues_iff hWord).mp hIssues).2
  rw [← hs] at hPage
  have hExec : exec (.macp t id f) s₀ = .next (s₀.issue t (uopWord id 0x08 (macpBits f)) fun s =>
      (s.begin_ t id).macpBegun t id f) := rfl
  rw [hExec, State.issue_issues _ rfl hIssues, ← hs, State.begin_issued id hPage]

/-- Settles O11: with no conflict the macros that run are the named ones, no fill is met, and the pass starts on them. -/
theorem macpStartsPassOnEveryNamedMacro : Obligations.MacpStartsPassOnEveryNamedMacro := by
  unfold Obligations.MacpStartsPassOnEveryNamedMacro
  intro s₀ s t id f hs hIssues hNamed tl macs hOk hFree hSlices busy pass
  have hEnd : (s.issued t tl).macpBegun t id f = ((s.issued t { (tl.macsHeld f macs tl.seq.ac busy).next with
      passes := tl.passes ++ [pass] }).count (clusterOf t) 0 macs.length).count (clusterOf t) 1 (macs.length * busy) := by
    rw [State.macpBegun_all (busy := busy) (macs := macs) rfl (onesOf_ne_nil hNamed), State.count_retire, State.count_retire,
      State.issued_modTile, State.issued_retire, State.issued_tile, Tile.next_setPasses]
    · rfl
    · rw [State.issued_tile]
      exact hOk
    · rw [State.issued_tile]
      exact hFree
    · rw [State.issued_tile]
      exact hSlices
    · rw [State.passClass_begun]
  refine Eq.trans ?_ (congrArg Outcome.next hEnd)
  exact exec_macp hs hIssues

end Sys2Proof.Machine
end

section
/-! ### What an access leaves of the scratchpad, and LDW (R37, R59, R60, R64, R115, R130, R142, R206 to R212) -/

namespace Sys2Proof.Machine

open Host (Outcome)

/-! #### The scratchpad stays as it is -/

/-- Tile `t` holds the same scratchpad. -/
structure State.SpKept (t : TileId) (s s' : State) : Prop where
  sp : (s'.tile t).sp = (s.tile t).sp
  spPar : (s'.tile t).spPar = (s.tile t).spPar

namespace State.SpKept

theorem refl (t : TileId) (s : State) : SpKept t s s := ⟨rfl, rfl⟩

theorem trans {t : TileId} {a b c : State} (h : SpKept t a b) (h' : SpKept t b c) : SpKept t a c :=
  ⟨h'.sp.trans h.sp, h'.spPar.trans h.spPar⟩

theorem of_tile {t : TileId} {s s' : State} (h : s'.tile t = s.tile t) : SpKept t s s' := ⟨by rw [h], by rw [h]⟩

theorem foldl {α : Type} {t : TileId} (s : State) {f : State → α → State} (hf : ∀ (x : State) a, SpKept t x (f x a))
    (l : List α) : SpKept t s (l.foldl f s) :=
  foldl_keeps (P := SpKept t s) l (refl t s) fun y a hy => hy.trans (hf y a)

theorem modTile (t b : TileId) (s : State) {f : Tile → Tile} (hf : ∀ y, (f y).sp = y.sp ∧ (f y).spPar = y.spPar) :
    SpKept t s (s.modTile b f) := by
  by_cases hb : t = b
  · subst hb
    obtain ⟨hSp, hPar⟩ := hf (s.tile t)
    exact ⟨by rw [State.modTile_tile_same, hSp], by rw [State.modTile_tile_same, hPar]⟩
  · exact of_tile (State.modTile_tile_other _ _ hb)

theorem count (t : TileId) (s : State) (c : ClusterId) (w n : Nat) : SpKept t s (s.count c w n) :=
  of_tile (State.count_tile ..)

theorem abortTile (t : TileId) (s : State) (b : TileId) (code : BitVec 16) (cause : BitVec 4) (unit : Nat) (ids : Ids)
    (detail : List Byte) : SpKept t s (s.abortTile b code cause unit ids detail) := by
  unfold State.abortTile
  extract_lets owner s1
  have hs1 : SpKept t s s1 := of_tile (State.raise_tile ..)
  clear_value owner s1
  split
  · exact ⟨hs1.sp, hs1.spPar⟩
  · exact hs1

theorem conflict (t : TileId) (s : State) (b : TileId) (ids : Ids) (macs slots : List Nat) (unit : Nat) :
    SpKept t s (s.conflict b ids macs slots unit) := by
  unfold State.conflict
  extract_lets s1 units
  have hs1 : SpKept t s s1 := modTile t b s fun y => by
    refine foldl_keeps (P := fun z : Tile => z.sp = y.sp ∧ z.spPar = y.spPar) slots ?_ fun z a hz => hz
    rw [Tile.modMacs_shape]
    exact ⟨rfl, rfl⟩
  exact hs1.trans (foldl s1 (fun x u => abortTile ..) _)

end State.SpKept

theorem Tile.restoreSp {x : Tile} (incs : List (BitVec 3 × BitVec 1)) {m : List Host.Cell} {p : Store (BitVec 1)} (hSp : x.sp = m)
    (hPar : x.spPar = p) : ({ x.incQ incs with sp := m, spPar := p } : Tile) = x.incQ incs := by
  subst hSp hPar
  rfl

/-- A micro-op whose work leaves the scratchpad, on a calm one. -/
theorem State.access_kept {s : State} {t : TileId} {us : List PathUse} (id : Ids) (incs : List (BitVec 3 × BitVec 1))
    (units : Units) (ok : State → State) (hPage : (s.tile t).pageHold = none) (hCalm : (s.tile t).Calm)
    (hOk : (s.tile t).accessOk us = true)
    (hKept : SpKept t (s.issued t (s.opened t id us units)) (ok (s.issued t (s.opened t id us units)))) :
    s.access t id (some us) incs units ok =
      ((ok (s.issued t (s.opened t id us units))).modTile t fun tl => tl.incQ incs).retire t := by
  rw [State.access_calm id incs units ok hPage hCalm hOk]
  refine congrArg (fun x : State => x.retire t) (State.modTile_congr ?_)
  refine Tile.restoreSp incs ?_ ?_
  · rw [hKept.sp, State.issued_tile]
  · rw [hKept.spPar, State.issued_tile]

/-! #### Rows into a shadow bank -/

theorem Macro.shadow_modShadow (mc : Macro) (f : Bank → Bank) : (mc.modShadow f).shadow = f mc.shadow := by
  unfold Macro.shadow Macro.modShadow Macro.modBank Macro.bank Macro.shadowPhys
  by_cases hPhys : ~~~mc.activePhys = 0
  · rw [if_pos hPhys, if_pos hPhys, if_pos hPhys]
  · rw [if_neg hPhys, if_neg hPhys, if_neg hPhys]

theorem Bank.startLoad_loading (b : Bank) (rgmask : BitVec 4) (pm1 : BitVec 3) (wsgn : BitVec 1) (layer : BitVec 16) :
    (b.startLoad rgmask pm1 wsgn layer).st = .loading ∧ (b.startLoad rgmask pm1 wsgn layer).layer = layer ∧
      (b.startLoad rgmask pm1 wsgn layer).steer = b.steer ∧
      (b.st ≠ .loading → (b.startLoad rgmask pm1 wsgn layer).pm1 = pm1 ∧ (b.startLoad rgmask pm1 wsgn layer).wsgn = wsgn) := by
  unfold Bank.startLoad
  by_cases hLoading : b.st = .loading
  · rw [if_pos hLoading]
    exact ⟨hLoading, rfl, rfl, fun h => absurd hLoading h⟩
  · rw [if_neg hLoading]
    exact ⟨rfl, rfl, rfl, fun _ => ⟨rfl, rfl⟩⟩

/-- A bank `b` after the rows of `rows` were loaded into bank `a` from the records `rec_`. -/
structure Bank.Loaded (a : Bank) (chkgen : Bool) (rec_ : Nat → List Byte) (rows : List Nat) (b : Bank) : Prop where
  st : b.st = a.st
  layer : b.layer = a.layer
  steer : b.steer = a.steer
  pm1 : b.pm1 = a.pm1
  wsgn : b.wsgn = a.wsgn
  row : ∀ r ∈ rows, Store.get 0 b.cells r = (portRow a.steer a.pm1 a.wsgn chkgen (rec_ r)).1

theorem Bank.Loaded.loadRow {a b : Bank} {chkgen : Bool} {rec_ : Nat → List Byte} {rows : List Nat}
    (h : a.Loaded chkgen rec_ rows b) (r : Nat) :
    a.Loaded chkgen rec_ (rows ++ [r]) (b.loadRow r chkgen (rec_ r)).1 where
  st := h.st
  layer := h.layer
  steer := h.steer
  pm1 := h.pm1
  wsgn := h.wsgn
  row k hk := by
    change Store.get 0 (Store.set b.cells r (portRow b.steer b.pm1 b.wsgn chkgen (rec_ r)).1) k = _
    rw [Store.get_set, h.steer, h.pm1, h.wsgn]
    split
    next hSame => rw [hSame]
    next hOther =>
      refine h.row k ?_
      rcases List.mem_append.mp hk with hk | hk
      · exact hk
      · exact absurd (List.mem_singleton.mp hk) hOther

/-- One row of a load into a macro (R208). -/
def loadStep (chkgen : Bool) (rec_ : Nat → List Byte) (x : Macro × List Nat × Nat) (r : Nat) : Macro × List Nat × Nat :=
  (x.1.modShadow fun _ => (x.1.shadow.loadRow r chkgen (rec_ r)).1,
    if (x.1.shadow.loadRow r chkgen (rec_ r)).2 then x.2.1 ++ [r] else x.2.1, x.2.2 + 1)

theorem loaded_foldl (chkgen : Bool) (rec_ : Nat → List Byte) (a : Bank) (rows : List Nat) {done : List Nat}
    {x : Macro × List Nat × Nat} (h : a.Loaded chkgen rec_ done x.1.shadow) :
    a.Loaded chkgen rec_ (done ++ rows) (rows.foldl (loadStep chkgen rec_) x).1.shadow := by
  induction rows generalizing done x with
  | nil => rwa [List.append_nil]
  | cons r rows ih =>
    have hStep : a.Loaded chkgen rec_ (done ++ [r]) (loadStep chkgen rec_ x r).1.shadow := by
      rw [loadStep, Macro.shadow_modShadow]
      exact h.loadRow r
    have hRest := ih hStep
    rwa [List.append_assoc] at hRest

theorem Macro.loadRows_loaded (mc : Macro) (rgmask : BitVec 4) (pm1 : BitVec 3) (wsgn : BitVec 1) (layer : BitVec 16)
    (chkgen : Bool) (rec_ : Nat → List Byte) :
    (mc.shadow.startLoad rgmask pm1 wsgn layer).Loaded chkgen rec_ (rowsOf rgmask)
      (mc.loadRows rgmask pm1 wsgn layer chkgen fun r => some (rec_ r)).1.shadow := by
  have hStart : (mc.shadow.startLoad rgmask pm1 wsgn layer).Loaded chkgen rec_ []
      (mc.modShadow fun b => b.startLoad rgmask pm1 wsgn layer).shadow := by
    rw [Macro.shadow_modShadow]
    exact ⟨rfl, rfl, rfl, rfl, rfl, fun r hr => absurd hr List.not_mem_nil⟩
  exact loaded_foldl chkgen rec_ _ (rowsOf rgmask) (x := (_, [], 0)) hStart

/-! #### LDW -/

theorem State.SpKept.loadConflicts (t : TileId) (s : State) (b : TileId) (ids : Ids) (macs : List Nat)
    (block inval : Nat → Bool) : SpKept t s (s.loadConflicts b ids macs block inval).1 := by
  unfold State.loadConflicts
  extract_lets bad s1
  have hs1 : SpKept t s s1 := modTile t b s fun y => by
    rw [Tile.modMacs_shape]
    exact ⟨rfl, rfl⟩
  clear_value bad s1
  dsimp only
  split
  · exact hs1
  · exact hs1.trans (conflict ..)

theorem State.SpKept.finishLoad (t : TileId) (s : State) (b : TileId) (ids : Ids) (m : Nat) (bads : List Nat) (fin : Bool) :
    SpKept t s (s.finishLoad b ids m bads fin) := by
  unfold State.finishLoad
  extract_lets s1 shadow part s2
  have hs1 : SpKept t s s1 := foldl s (fun x r => by
    refine (modTile t b x ?_).trans (abortTile ..)
    exact fun _ => ⟨rfl, rfl⟩) bads
  have hs2 : SpKept t s s2 := by
    refine hs1.trans (modTile t b s1 ?_)
    exact fun _ => ⟨rfl, rfl⟩
  clear_value s1 s2 part
  split
  · split
    · exact hs2.trans (conflict ..)
    · exact hs2
  · exact hs1

theorem State.SpKept.ldwScratch (t : TileId) (s : State) (id : Ids) (f : LdwF) (a : Nat) :
    SpKept t s (s.ldwScratch t id f a) := by
  unfold State.ldwScratch
  extract_lets macs rows sz isSealed tl0
  have hLoad := loadConflicts t s t id macs
    (fun m => (tl0.mac m).ldwHbm || decide (tl0.seq.ac + 1 < (tl0.mac m).portUntil))
    (rowsInvalidate tl0 f.pm1 f.wsgn (tl0.seq.ac + 1))
  clear_value isSealed tl0
  split
  next s1 go hGo =>
    rw [hGo] at hLoad
    refine (hLoad.trans (count ..)).trans (foldl _ (fun x m => ?_) _)
    extract_lets tl
    split
    next mc bads n _ =>
      extract_lets src mc' s2
      have hs2 : SpKept t x s2 := by
        refine (modTile t t x ?_).trans (count ..)
        exact fun _ => ⟨rfl, rfl⟩
      clear_value src mc' s2
      exact hs2.trans (finishLoad ..)

theorem State.SpKept.ldwHbm (t : TileId) (s : State) (id : Ids) (f : LdwF) (a : Nat) : SpKept t s (s.ldwHbm t id f a) := by
  unfold State.ldwHbm
  extract_lets tl0
  have hLoad := loadConflicts t s t id (onesOf f.macros) (fun m => (tl0.mac m).ldwHbm) fun _ => false
  clear_value tl0
  split
  next s1 go hGo =>
    rw [hGo] at hLoad
    refine hLoad.trans (modTile t t s1 fun y => ?_)
    rw [Tile.modMacs_shape]
    exact ⟨rfl, rfl⟩

section
variable {s₀ s : State} {t : TileId} {id : Ids} {f : LdwF} (hs : s = s₀.due t) (hIssues : s₀.issues t (.ldw t id f) = true)
  (hCalm : s.calm t = true)
include hs hIssues

theorem exec_ldw : exec (.ldw t id f) s₀ = .next (
    if f.src = 0 then
      s.access t id ((s.spOp? t f.qsrc.toNat ((rowsOf f.rgmask).length * (onesOf f.macros).length * recSize (f.chkgen = 1))
        false).map fun a => [{ form := 0, write := false, start := (s.tile t).seq.ac, addr := a
                               step := (onesOf f.macros).length * recSize (f.chkgen = 1)
                               len := (rowsOf f.rgmask).length * (onesOf f.macros).length * recSize (f.chkgen = 1) }])
        [(f.qsrc, f.inc)] { macs := onesOf f.macros, unit := 16 } fun x => x.ldwScratch t id f
          ((s.spOp? t f.qsrc.toNat ((rowsOf f.rgmask).length * (onesOf f.macros).length * recSize (f.chkgen = 1))
            false).getD 0)
    else
      s.access t id ((s.hbmOp? t f.qsrc.toNat ((rowsOf f.rgmask).length * (onesOf f.macros).length * recSize (f.chkgen = 1))
        false).map fun _ => []) [(f.qsrc, f.inc)] { macs := onesOf f.macros, unit := 16 } fun x => x.ldwHbm t id f
          ((s.hbmOp? t f.qsrc.toNat ((rowsOf f.rgmask).length * (onesOf f.macros).length * recSize (f.chkgen = 1))
            false).getD 0)) := by
  have hExec : exec (.ldw t id f) s₀ = execLdw t id f s₀ := rfl
  rw [hExec, execLdw, State.issue_issues _ rfl hIssues, ← hs]

include hCalm

theorem exec_ldw_scratch {a : Nat} (hSrc : f.src = 0) (hOp : s.spOp? t f.qsrc.toNat
    ((rowsOf f.rgmask).length * (onesOf f.macros).length * recSize (f.chkgen = 1)) false = some a)
    (hOk : (s.tile t).accessOk [{ form := 0, write := false, start := (s.tile t).seq.ac, addr := a
                                  step := (onesOf f.macros).length * recSize (f.chkgen = 1)
                                  len := (rowsOf f.rgmask).length * (onesOf f.macros).length * recSize (f.chkgen = 1) }] =
      true) :
    exec (.ldw t id f) s₀ = .next ((((s.issued t (s.opened t id
      [{ form := 0, write := false, start := (s.tile t).seq.ac, addr := a
         step := (onesOf f.macros).length * recSize (f.chkgen = 1)
         len := (rowsOf f.rgmask).length * (onesOf f.macros).length * recSize (f.chkgen = 1) }]
      { macs := onesOf f.macros, unit := 16 })).ldwScratch t id f a).modTile t fun tl =>
        tl.incQ [(f.qsrc, f.inc)]).retire t) := by
  have hWord : encode (.ldw t id f) = some (uopWord id 0x10 (ldwBits f)) := rfl
  have hPage : ((s₀.due t).tile t).pageHold = none := ((State.issues_iff hWord).mp hIssues).2
  rw [← hs] at hPage
  rw [exec_ldw hs hIssues, if_pos hSrc, hOp]
  exact congrArg Outcome.next (State.access_kept id _ _ _ hPage (State.calm_tile hCalm) hOk (.ldwScratch ..))

theorem exec_ldw_hbm {a : Nat} (hSrc : f.src = 1) (hOp : s.hbmOp? t f.qsrc.toNat
    ((rowsOf f.rgmask).length * (onesOf f.macros).length * recSize (f.chkgen = 1)) false = some a) :
    exec (.ldw t id f) s₀ = .next ((((s.issued t (s.opened t id [] { macs := onesOf f.macros, unit := 16 })).ldwHbm t id f
      a).modTile t fun tl => tl.incQ [(f.qsrc, f.inc)]).retire t) := by
  have hWord : encode (.ldw t id f) = some (uopWord id 0x10 (ldwBits f)) := rfl
  have hPage : ((s₀.due t).tile t).pageHold = none := ((State.issues_iff hWord).mp hIssues).2
  rw [← hs] at hPage
  have hHbm : f.src ≠ 0 := by rw [hSrc]; decide
  rw [exec_ldw hs hIssues, if_neg hHbm, hOp]
  exact congrArg Outcome.next
    (State.access_kept id _ _ _ hPage (State.calm_tile hCalm) (Tile.accessOk_nil _) (.ldwHbm ..))

end

/-! The end of a load from HBM. -/

/-- A load whose macros meet no conflict takes them all. -/
theorem State.loadConflicts_free {s : State} {t : TileId} (ids : Ids) {macs : List Nat} {block inval : Nat → Bool}
    (hFree : ∀ m ∈ macs, block m = false ∧ inval m = false) :
    s.loadConflicts t ids macs block inval = (s.modTile t fun tl => tl, macs) := by
  have hBad : (macs.filter fun m => block m || inval m) = [] := List.filter_eq_nil_iff.mpr fun m hm => by
    obtain ⟨hBlock, hInval⟩ := hFree m hm
    simp [hBlock, hInval]
  have hLost : (macs.filter fun m => inval m && !block m) = [] := List.filter_eq_nil_iff.mpr fun m hm => by
    simp [(hFree m hm).2]
  have hGo : (macs.filter fun m => !([] : List Nat).contains m) = macs := List.filter_eq_self.mpr fun m _ => rfl
  unfold State.loadConflicts
  dsimp only
  rw [hBad, hLost, if_pos rfl, hGo]
  rfl

/-- The tile when a load from HBM has ended (R130, R212). -/
def Tile.loadEnded (tl : Tile) (o : AsyncOp) (live : BitVec 16) (left : List AsyncOp) : Tile :=
  (({ tl.modSeq (fun q => { q with ac := max q.ac o.due }) with ops := left } : Tile).countDone o).modMacs (onesOf live)
    fun _ mc => { mc with ldwHbm := false }

theorem Tile.loadEnded_seq (tl : Tile) (o : AsyncOp) (live : BitVec 16) (left : List AsyncOp) :
    (tl.loadEnded o live left).seq = { tl.seq with ac := max tl.seq.ac o.due } := by
  unfold Tile.loadEnded
  rw [Tile.modMacs_seq]
  unfold Tile.countDone
  split
  · rfl
  · rfl

/-- The state when a load from HBM of `n` bytes has ended. -/
def State.loadEnded (s : State) (t : TileId) (o : AsyncOp) (live : BitVec 16) (n : Nat) : State :=
  (s.modTile t fun tl => tl.loadEnded o live []).count (clusterOf t) 6 n

theorem State.loadEnded_again (s : State) (t : TileId) (o : AsyncOp) (live : BitVec 16) (n : Nat) :
    (s.loadEnded t o live n).modTile t (fun tl => tl) = s.loadEnded t o live n := by
  rw [State.loadEnded, State.count_modTile, State.modTile_modTile]

/-- The cycle that the clock has reached moves with the tile alone. -/
theorem State.liveAc_loadEnded (s : State) (t : TileId) (o : AsyncOp) (live : BitVec 16) (n : Nat) :
    max o.due ((s.loadEnded t o live n).liveAc t) = max o.due (s.liveAc t) := by
  have hTile : (s.loadEnded t o live n).tile t = (s.tile t).loadEnded o live [] := by
    rw [State.loadEnded, State.count_tile, State.modTile_tile_same]
  have hOwner : (s.loadEnded t o live n).tileOwner? t = s.tileOwner? t := by
    rw [State.loadEnded, State.count_tileOwner?, State.modTile_tileOwner?]
  have hClock (p : PartId) : (s.loadEnded t o live n).cycleAt p (dieOf t) (s.loadEnded t o live n).now =
      s.cycleAt p (dieOf t) s.now := by
    unfold State.loadEnded State.count
    split
    · rfl
    · rfl
  unfold State.liveAc
  rw [hTile, hOwner, Tile.loadEnded_seq]
  dsimp only
  cases s.tileOwner? t with
  | none => dsimp only; omega
  | some p =>
    dsimp only
    rw [hClock]
    split
    · omega
    · omega

/-- The load from HBM that ends on counter `cnt`. -/
def AsyncOp.isLdw (cnt : Fin 4) (o : AsyncOp) : Bool :=
  decide (o.cnt = cnt.val) && (match o.xfer with | .ldw .. => true | _ => false)

section
variable {s : State} {t : TileId} {p : PartId} {o : AsyncOp} {cnt : Fin 4} {macros live : BitVec 16} {rgmask : BitVec 4}
  {pm1 : BitVec 3} {wsgn chkgen fin : BitVec 1} {a : Nat} (hOps : (s.tile t).ops = [o]) (hOwner : s.tileOwner? t = some p)
  (hCnt : o.cnt = cnt.val) (hXfer : o.xfer = .ldw macros live rgmask pm1 wsgn chkgen fin a)
include hOps hOwner hCnt hXfer

theorem exec_ldwHbmDone : exec (.ldwHbmDone t cnt) s = .next (
    let n := (rowsOf rgmask).length
    let first := max o.due (s.liveAc t) + 1 - n
    let s := s.loadEnded t o live (n * (onesOf macros).length * recSize (chkgen = 1))
    if o.dropped then s
    else
      let x := s.loadConflicts t o.ids (onesOf live) (fun m => decide (first < ((s.tile t).mac m).portUntil))
        (rowsInvalidate (s.tile t) pm1 wsgn first)
      x.1.each ((onesOf macros).zipIdx.filter fun y => x.2.contains y.1) fun s y =>
        s.ldwArrive t p o.ids (onesOf macros).length rgmask pm1 wsgn chkgen fin a y) := by
  have hFind : (s.tile t).ops.find? (AsyncOp.isLdw cnt) = some o := by
    rw [hOps]
    simp [AsyncOp.isLdw, hCnt, hXfer]
  have hEnds : (s.modTile t fun tl => tl.loadEnded o live (tl.ops.erase o)) = s.modTile t fun tl => tl.loadEnded o live [] :=
    State.modTile_congr (by rw [hOps, List.erase_cons_head])
  have hExec : exec (.ldwHbmDone t cnt) s = execLdwHbmDone t cnt s := rfl
  rw [hExec, execLdwHbmDone]
  dsimp only
  change Outcome.next (match (s.tile t).ops.find? (AsyncOp.isLdw cnt), s.tileOwner? t with | some o, some p => _ | _, _ => _) = _
  rw [hFind, hOwner]
  dsimp only
  rw [hXfer]
  dsimp only
  unfold State.loadEnded
  rw [← hEnds]
  rfl

theorem exec_ldwHbmDone_dropped (hDropped : o.dropped = true) : exec (.ldwHbmDone t cnt) s =
    .next (s.loadEnded t o live ((rowsOf rgmask).length * (onesOf macros).length * recSize (chkgen = 1))) := by
  rw [exec_ldwHbmDone hOps hOwner hCnt hXfer]
  exact congrArg Outcome.next (if_pos hDropped)

theorem exec_ldwHbmDone_writes {s1 : State} {first : Nat}
    (h1 : s1 = s.loadEnded t o live ((rowsOf rgmask).length * (onesOf macros).length * recSize (chkgen = 1)))
    (hFirst : first = max o.due (s1.liveAc t) + 1 - (rowsOf rgmask).length) (hLives : o.dropped = false)
    (hFree : ∀ m ∈ onesOf live, ((s1.tile t).mac m).portUntil ≤ first ∧ rowsInvalidate (s1.tile t) pm1 wsgn first m = false) :
    exec (.ldwHbmDone t cnt) s = .next (s1.each ((onesOf macros).zipIdx.filter fun x => (onesOf live).contains x.1)
      fun s x => s.ldwArrive t p o.ids (onesOf macros).length rgmask pm1 wsgn chkgen fin a x) := by
  have hLive : ¬o.dropped = true := by rw [hLives]; exact Bool.false_ne_true
  have hLoad : s1.loadConflicts t o.ids (onesOf live) (fun m => decide (first < ((s1.tile t).mac m).portUntil))
      (rowsInvalidate (s1.tile t) pm1 wsgn first) = (s1, onesOf live) := by
    rw [State.loadConflicts_free o.ids fun m hm => ?_]
    · rw [h1, State.loadEnded_again]
    · obtain ⟨hPort, hRows⟩ := hFree m hm
      exact ⟨decide_eq_false (Nat.not_lt.mpr hPort), hRows⟩
  rw [h1, State.liveAc_loadEnded] at hFirst
  rw [exec_ldwHbmDone hOps hOwner hCnt hXfer]
  dsimp only
  rw [if_neg hLive, ← h1, ← hFirst, hLoad]

end

/-- Settles O21: LDW does its work in the tile that it opened, a load steps through its rows with the bank as the first
row found it, and the end of one from HBM takes every macro that no conflict stops. -/
theorem ldwLoadsShadowBanks : Obligations.LdwLoadsShadowBanks := by
  unfold Obligations.LdwLoadsShadowBanks
  refine ⟨⟨?_, ?_⟩, ⟨?_, ?_⟩⟩
  · intro s₀ s t id f a hs hIssues hCalm hSrc macs sz n us hOp hOk
    exact exec_ldw_scratch hs hIssues hCalm hSrc hOp hOk
  · intro mc rgmask pm1 wsgn layer chkgen rec_ b
    have hLoaded := mc.loadRows_loaded rgmask pm1 wsgn layer chkgen rec_
    obtain ⟨hSt, hLayer, hSteer, hNew⟩ := mc.shadow.startLoad_loading rgmask pm1 wsgn layer
    refine ⟨hLoaded.st.trans hSt, hLoaded.layer.trans hLayer, fun hFresh => ?_, fun hP hW r hr => ?_⟩
    · obtain ⟨hP, hW⟩ := hNew hFresh
      exact ⟨hLoaded.pm1.trans hP, hLoaded.wsgn.trans hW⟩
    · rw [hLoaded.row r hr, hSteer, ← hLoaded.pm1, ← hLoaded.wsgn, hP, hW]
  · intro s₀ s t id f a hs hIssues hCalm hSrc hOp
    exact exec_ldw_hbm hs hIssues hCalm hSrc hOp
  · intro s t p o cnt macros live rgmask pm1 wsgn chkgen fin a hOps hOwner hCnt hXfer s1 first
    exact ⟨exec_ldwHbmDone_dropped hOps hOwner hCnt hXfer,
      fun hLives => exec_ldwHbmDone_writes hOps hOwner hCnt hXfer rfl rfl hLives⟩

end Sys2Proof.Machine
end

section
/-! ### Slots: ACLR, APRE, PRESCAN and ADRN (R80 to R88, R94, R95, R97 to R102, R144, R146, R147) -/

namespace Sys2Proof.Machine

open Host (Outcome)

/-! #### A micro-op that changes its tile alone -/

/-- A micro-op that changes its tile by `g`, which leaves the scratchpad, and counts `n` bytes. -/
theorem State.access_counted {s : State} {t : TileId} {us : List PathUse} (id : Ids) (incs : List (BitVec 3 × BitVec 1))
    (units : Units) {g : Tile → Tile} (w n : Nat) (hPage : (s.tile t).pageHold = none) (hCalm : (s.tile t).Calm)
    (hOk : (s.tile t).accessOk us = true) (hg : ∀ y, (g y).sp = y.sp ∧ (g y).spPar = y.spPar) :
    s.access t id (some us) incs units (fun x => (x.modTile t g).count (clusterOf t) w n) =
      (s.issued t ((g (s.opened t id us units)).incQ incs).next).count (clusterOf t) w n := by
  have hKept (x : State) : State.SpKept t x ((x.modTile t g).count (clusterOf t) w n) :=
    (State.SpKept.modTile t t x hg).trans (.count ..)
  rw [State.access_kept id incs units _ hPage hCalm hOk (hKept _), State.count_modTile, State.count_retire,
    State.issued_modTile, State.issued_modTile, State.issued_retire]

/-! #### What the operations on slots leave -/

theorem Tile.modSlot_slot_other (tl : Tile) {a b : Nat} (h : b ≠ a) (f : Slot → Slot) : (tl.modSlot a f).slot b = tl.slot b := by
  unfold Tile.slot Tile.modSlot
  dsimp only
  rw [Store.get_set, if_neg h]

/-- A tile that differs from `x` in its slots alone. -/
structure Tile.SlotsOnly (x y : Tile) : Prop where
  eq : y = { x with slots := y.slots }

theorem Tile.SlotsOnly.refl (x : Tile) : x.SlotsOnly x := ⟨rfl⟩

theorem Tile.SlotsOnly.trans {x y z : Tile} (h : x.SlotsOnly y) (h' : y.SlotsOnly z) : x.SlotsOnly z :=
  ⟨h'.eq.trans (congrArg (fun w : Tile => { w with slots := z.slots }) h.eq)⟩

theorem Tile.slotsOnly_modSlot (tl : Tile) (a : Nat) (f : Slot → Slot) : tl.SlotsOnly (tl.modSlot a f) := ⟨rfl⟩

theorem Tile.slotsOnly_openSlot (tl : Tile) (a : Nat) (mode : BitVec 2) (openAt : Nat) :
    tl.SlotsOnly (tl.openSlot a mode openAt) := by
  unfold Tile.openSlot
  dsimp only
  split
  · exact (tl.slotsOnly_modSlot a _).trans (Tile.slotsOnly_modSlot ..)
  · split
    · exact (tl.slotsOnly_modSlot a _).trans (Tile.slotsOnly_modSlot ..)
    · exact tl.slotsOnly_modSlot a _

/-- A slot that was opened is OPEN in its mode, with no entry, no group and no flag but its CONFLICT (R80, R81). -/
theorem Tile.openSlot_slot (tl : Tile) (a : Nat) (mode : BitVec 2) (openAt : Nat) :
    ((tl.openSlot a mode openAt).slot a) = { tl.slot a with
      mode, st := .opened, bound := false, expmiss := false, ovf := false, nonfin := false, groups := 0, entries := []
      openAt, lastPass := none, lastLand := 0, landPres := none, landBase := 0 } := by
  unfold Tile.openSlot
  dsimp only
  split
  · rw [Tile.modSlot_slot_other _ (Nat.ne_of_lt (Nat.lt_succ_self a)), Tile.slot_modSlot_same]
  · split
    · rw [Tile.modSlot_slot_other _ (Nat.ne_of_lt (Nat.lt_succ_self a)), Tile.slot_modSlot_same]
    · rw [Tile.slot_modSlot_same]

theorem Tile.openSlot_cleared (tl : Tile) (a : Nat) (mode : BitVec 2) (openAt : Nat) :
    ((tl.openSlot a mode openAt).slot a).st = .opened ∧ ((tl.openSlot a mode openAt).slot a).mode = mode ∧
      ((tl.openSlot a mode openAt).slot a).entries = [] ∧ ((tl.openSlot a mode openAt).slot a).groups = 0 ∧
      ((tl.openSlot a mode openAt).slot a).bound = false ∧ ((tl.openSlot a mode openAt).slot a).expmiss = false ∧
      ((tl.openSlot a mode openAt).slot a).ovf = false ∧ ((tl.openSlot a mode openAt).slot a).nonfin = false ∧
      ((tl.openSlot a mode openAt).slot a).conflict = (tl.slot a).conflict := by
  rw [Tile.openSlot_slot]
  exact ⟨rfl, rfl, rfl, rfl, rfl, rfl, rfl, rfl, rfl⟩

theorem Tile.slotsOnly_addElem (tl : Tile) (a o : Nat) (v e : Int) (counted : Bool) :
    tl.SlotsOnly (tl.addElem a o v e counted) := by
  unfold Tile.addElem
  extract_lets
  split
  extract_lets
  split
  · exact (tl.slotsOnly_modSlot a _).trans (Tile.slotsOnly_modSlot ..)
  · exact tl.slotsOnly_modSlot a _

theorem Tile.slotsOnly_preload (tl : Tile) (a o fmt : Nat) (psh : Int) (src : Nat) :
    tl.SlotsOnly (tl.preload a o fmt psh src) := by
  unfold Tile.preload
  generalize preElem tl fmt src o = v
  dsimp only
  split
  · cases v with
    | fin m e => exact tl.slotsOnly_modSlot a _
    | bad => exact tl.slotsOnly_modSlot a _
  · cases v with
    | fin m e =>
      dsimp only
      split
      · exact .refl tl
      · exact tl.slotsOnly_addElem ..
    | bad => exact tl.slotsOnly_addElem ..

theorem Tile.slotsOnly_preloadAll (tl : Tile) (f : ApreF) (addr n : Nat) : tl.SlotsOnly (tl.preloadAll f addr n) := by
  unfold Tile.preloadAll
  extract_lets a recs ents
  split
  · exact tl.slotsOnly_modSlot a _
  · exact foldl_keeps (P := tl.SlotsOnly) _ (.refl tl) fun y o hy => hy.trans (y.slotsOnly_preload ..)

theorem Tile.SlotsOnly.sp {x y : Tile} (h : x.SlotsOnly y) : y.sp = x.sp := by rw [h.eq]

theorem Tile.SlotsOnly.spPar {x y : Tile} (h : x.SlotsOnly y) : y.spPar = x.spPar := by rw [h.eq]

theorem Tile.SlotsOnly.seq {x y : Tile} (h : x.SlotsOnly y) : y.seq = x.seq := by rw [h.eq]

/-! #### ACLR -/

theorem exec_aclr {s₀ s : State} {t : TileId} {id : Ids} {f : AclrF} (hs : s = s₀.due t)
    (hIssues : s₀.issues t (.aclr t id f) = true) (hOpen : ((s.tile t).begun id).mayOpen f.slot.toNat f.amode = true) :
    exec (.aclr t id f) s₀ = .next (s.issued t ((((s.tile t).begun id).openSlot f.slot.toNat f.amode
      (((s.tile t).begun id).seq.ac + 1)).mapMacros f.macros f.slot f.obase f.ostep f.oper).next) := by
  have hWord : encode (.aclr t id f) = some (uopWord id 0x18 (aclrBits f)) := rfl
  have hPage : ((s₀.due t).tile t).pageHold = none := ((State.issues_iff hWord).mp hIssues).2
  rw [← hs] at hPage
  have hExec : exec (.aclr t id f) s₀ = execAclr t id f s₀ := rfl
  rw [hExec, execAclr, State.issue_issues _ rfl hIssues, ← hs]
  dsimp only
  rw [State.begin_issued id hPage, State.issued_tile, if_pos hOpen, State.issued_modTile, State.issued_retire]

/-! #### APRE and PRESCAN -/

/-- The tile in which an APRE has opened its slot (R144). -/
def Tile.preloadOpen (tl : Tile) (f : ApreF) (n : Nat) : Tile :=
  (tl.openSlot f.slot.toNat f.amode (tl.seq.ac + ceilDiv n 16 + 1)).mapMacros f.macros f.slot f.obase f.ostep f.oper

/-- The tile in which an APRE has loaded the entries of its slot (R85). -/
def Tile.preloaded (tl : Tile) (f : ApreF) (addr n : Nat) : Tile :=
  ((tl.preloadOpen f n).preloadAll f addr n).busyTo ((tl.preloadOpen f n).seq.ac + ceilDiv n 16)

theorem Tile.preloadOpen_seq (tl : Tile) (f : ApreF) (n : Nat) : (tl.preloadOpen f n).seq = tl.seq :=
  (tl.slotsOnly_openSlot ..).seq

theorem Tile.preloaded_eq (tl : Tile) (f : ApreF) (addr n : Nat) : tl.preloaded f addr n =
    (((tl.openSlot f.slot.toNat f.amode (tl.seq.ac + ceilDiv n 16 + 1)).mapMacros f.macros f.slot f.obase f.ostep
      f.oper).preloadAll f addr n).busyTo (tl.seq.ac + ceilDiv n 16) :=
  congrArg (fun q : Seq => ((tl.preloadOpen f n).preloadAll f addr n).busyTo (q.ac + ceilDiv n 16)) (tl.preloadOpen_seq f n)

/-- The tile in which a PRESCAN has noted the exponent of its slot (R82, R94, R147). -/
def Tile.prescanned (tl : Tile) (a addr nb : Nat) : Tile :=
  (tl.modSlot a fun sl => { sl with
    emaxValid := (prescanMax tl addr nb).isSome, emax := BitVec.ofNat 8 ((prescanMax tl addr nb).getD 0), prescanned := true
    busyUntil := tl.seq.ac + nb + 2 }).busyTo (tl.seq.ac + nb + 1)

theorem Tile.prescanned_eq (tl : Tile) (a : Nat) {addr nb : Nat} {e : Option Nat} (he : prescanMax tl addr nb = e) :
    tl.prescanned a addr nb = (tl.modSlot a fun sl => { sl with
      emaxValid := e.isSome, emax := BitVec.ofNat 8 (e.getD 0), prescanned := true
      busyUntil := tl.seq.ac + nb + 2 }).busyTo (tl.seq.ac + nb + 1) := by
  subst he
  rfl

theorem Tile.preloaded_sp (tl : Tile) (f : ApreF) (addr n : Nat) :
    (tl.preloaded f addr n).sp = tl.sp ∧ (tl.preloaded f addr n).spPar = tl.spPar := by
  have hOpen := tl.slotsOnly_openSlot f.slot.toNat f.amode (tl.seq.ac + ceilDiv n 16 + 1)
  have hLoad := (tl.preloadOpen f n).slotsOnly_preloadAll f addr n
  exact ⟨hLoad.sp.trans hOpen.sp, hLoad.spPar.trans hOpen.spPar⟩

theorem exec_apre {s₀ s : State} {t : TileId} {id : Ids} {f : ApreF} {a : Nat} (hs : s = s₀.due t)
    (hIssues : s₀.issues t (.apre t id f) = true) (hCalm : s.calm t = true)
    (hOp : s.spOp? t f.qsrc.toNat (fmtSpan f.fmt.toNat (f.nm1.toNat + 1)) false = some a)
    (hOk : (s.tile t).accessOk [preloadUse (s.tile t).seq.ac f.fmt.toNat (f.nm1.toNat + 1) a] = true)
    (hOpen : (s.tile t).settle.mayOpen f.slot.toNat f.amode = true)
    (hRaw : (s.tile t).settle.rawModes f a (f.nm1.toNat + 1) = true) :
    exec (.apre t id f) s₀ = .next ((s.issued t (((s.opened t id
      [preloadUse (s.tile t).seq.ac f.fmt.toNat (f.nm1.toNat + 1) a] { slots := [f.slot.toNat], unit := 17 }).preloaded f a
        (f.nm1.toNat + 1)).incQ [(f.qsrc, f.inc)]).next).count (clusterOf t) 3
          (fmtSpan f.fmt.toNat (f.nm1.toNat + 1))) := by
  have hWord : encode (.apre t id f) = some (uopWord id 0x19 (apreBits f)) := rfl
  have hPage : ((s₀.due t).tile t).pageHold = none := ((State.issues_iff hWord).mp hIssues).2
  rw [← hs] at hPage
  have hExec : exec (.apre t id f) s₀ = execApre t id f s₀ := rfl
  rw [hExec, execApre, State.issue_issues _ rfl hIssues, ← hs]
  dsimp only
  have hLate : (s.tile t).settle.late = [] := (Tile.settle_late _).trans (State.calm_tile hCalm).late
  rw [hOp]
  dsimp only
  rw [Tile.readView_calm hLate, hOpen, hRaw, Tile.settle_seq, Bool.and_self, if_pos rfl]
  exact congrArg Outcome.next (State.access_counted id _ _ _ _ hPage (State.calm_tile hCalm) hOk
    (g := fun y => y.preloaded f a (f.nm1.toNat + 1)) fun y => y.preloaded_sp f a (f.nm1.toNat + 1))

theorem prescanMax_congr {x y : Tile} (h : x.sp = y.sp) (addr nb : Nat) : prescanMax x addr nb = prescanMax y addr nb := by
  unfold prescanMax Tile.spRead
  rw [h]

theorem Tile.settle_absorbing (tl : Tile) (a : Nat) : tl.settle.absorbing a = tl.absorbing a := by
  rw [Tile.absorbing, Tile.settle_landings, Tile.absorbing]

theorem exec_prescan {s₀ s : State} {t : TileId} {id : Ids} {f : PrescanF} {a n : Nat} {us : List PathUse} (hs : s = s₀.due t)
    (hIssues : s₀.issues t (.prescan t id f) = true) (hCalm : s.calm t = true) (hn : n = f.nbm1.toNat + 1)
    (hUs : us = [{ form := 1, write := false, start := (s.tile t).seq.ac, addr := a, step := 64, len := n }])
    (hOp : s.spOp? t f.qsrc.toNat (260 * ceilDiv n 4) false = some a) (hOk : (s.tile t).accessOk us = true)
    (hFree : ((s.tile t).settle.slot f.slot.toNat).st = .free)
    (hIdle : ((s.tile t).settle.slot f.slot.toNat).busyUntil ≤ (s.tile t).seq.ac)
    (hQuiet : (s.tile t).absorbing f.slot.toNat = false) :
    exec (.prescan t id f) s₀ = .next ((s.issued t (((s.opened t id us { slots := [f.slot.toNat], unit := 17 }).prescanned
      f.slot.toNat a n).incQ [(f.qsrc, f.inc)]).next).count (clusterOf t) 3 (65 * n)) := by
  subst hn hUs
  have hWord : encode (.prescan t id f) = some (uopWord id 0x1B (prescanBits f)) := rfl
  have hPage : ((s₀.due t).tile t).pageHold = none := ((State.issues_iff hWord).mp hIssues).2
  rw [← hs] at hPage
  have hMay : ((((s.tile t).settle.slot f.slot.toNat).st == .free) &&
      decide (((s.tile t).settle.slot f.slot.toNat).busyUntil ≤ (s.tile t).seq.ac) &&
        !(s.tile t).settle.absorbing f.slot.toNat) = true := by
    rw [hFree, decide_eq_true hIdle, Tile.settle_absorbing, hQuiet]
    rfl
  have hExec : exec (.prescan t id f) s₀ = execPrescan t id f s₀ := rfl
  rw [hExec, execPrescan, State.issue_issues _ rfl hIssues, ← hs]
  dsimp only
  rw [hOp]
  dsimp only
  rw [Tile.settle_seq, if_pos hMay]
  exact congrArg Outcome.next (State.access_counted id _ _ _ _ hPage (State.calm_tile hCalm) hOk
    (g := fun y => y.prescanned f.slot.toNat a (f.nbm1.toNat + 1)) fun y => ⟨rfl, rfl⟩)

/-- Settles O22: a slot is opened, preloaded or prescanned in the tile that has begun the micro-op. -/
theorem slotsOpenPreloadAndPrescan : Obligations.SlotsOpenPreloadAndPrescan := by
  unfold Obligations.SlotsOpenPreloadAndPrescan
  refine ⟨?_, ?_, ?_⟩
  · intro s₀ s t id f hs hIssues tl hOpen
    exact ⟨exec_aclr hs hIssues hOpen, tl.openSlot_cleared f.slot.toNat f.amode (tl.seq.ac + 1)⟩
  · intro s₀ s t id f a hs hIssues hCalm n us hOp hOk hOpen hRaw tl
    exact (exec_apre hs hIssues hCalm hOp hOk hOpen hRaw).trans (congrArg (fun x : Tile => Outcome.next
      ((s.issued t ((x.incQ [(f.qsrc, f.inc)]).next)).count (clusterOf t) 3 (fmtSpan f.fmt.toNat n))) (tl.preloaded_eq f a n))
  · intro s₀ s t id f a hs hIssues hCalm n us hOp hOk hFree hIdle hQuiet tl e
    exact (exec_prescan hs hIssues hCalm rfl rfl hOp hOk hFree hIdle hQuiet).trans (congrArg (fun x : Tile => Outcome.next
      ((s.issued t ((x.incQ [(f.qsrc, f.inc)]).next)).count (clusterOf t) 3 (65 * n)))
        (tl.prescanned_eq f.slot.toNat (prescanMax_congr (s.opened_sp t id us _) a n)))

end Sys2Proof.Machine
end

section
/-! ### ADRN (R80, R87, R88, R97 to R102, R146) -/

namespace Sys2Proof.Machine

open Host (Outcome)

/-! #### What a drain leaves of the scratchpad -/

/-- Tiles with the same scratchpad. -/
structure Tile.SpSame (x y : Tile) : Prop where
  sp : y.sp = x.sp
  spPar : y.spPar = x.spPar

namespace Tile.SpSame

theorem refl (x : Tile) : x.SpSame x := ⟨rfl, rfl⟩

theorem trans {x y z : Tile} (h : x.SpSame y) (h' : y.SpSame z) : x.SpSame z :=
  ⟨h'.sp.trans h.sp, h'.spPar.trans h.spPar⟩

theorem writeLate (x : Tile) (cycle a : Nat) (l : List Byte) : x.SpSame (x.writeLate cycle a l) := ⟨rfl, rfl⟩

theorem writeRows (x : Tile) (first step a : Nat) (l : List Byte) : x.SpSame (x.writeRows first step a l) :=
  foldl_keeps (P := x.SpSame) _ (refl x) fun y _ hy => hy.trans (writeLate y ..)

theorem noteDrain (x : Tile) (layer : BitVec 16) (a n : Nat) (nan : Bool) (sat : Nat) :
    x.SpSame (x.noteDrain layer a n nan sat) := ⟨rfl, rfl⟩

theorem startDrain (x : Tile) (a n : Nat) : x.SpSame (x.startDrain a n) := ⟨rfl, rfl⟩

theorem busyTo (x : Tile) (n : Nat) : x.SpSame (x.busyTo n) := ⟨rfl, rfl⟩

end Tile.SpSame

theorem State.SpKept.modTile_same (t b : TileId) (s : State) {f : Tile → Tile} (hf : ∀ y : Tile, y.SpSame (f y)) :
    SpKept t s (s.modTile b f) := modTile t b s fun y => ⟨(hf y).sp, (hf y).spPar⟩

theorem State.SpKept.drainRaw (t : TileId) (s : State) (id : Ids) (f : AdrnF) (ps : Machine.PSet) (dst : Nat) :
    SpKept t s (s.drainRaw t id f ps dst) := by
  unfold State.drainRaw
  refine (modTile_same t t s fun y => ?_).trans (count ..)
  extract_lets sl recs tl tl1
  have htl : y.SpSame tl := (Tile.SpSame.writeRows ..).trans (.noteDrain ..)
  clear_value tl
  have htl1 : y.SpSame tl1 := (htl.trans (.startDrain ..)).trans (.busyTo ..)
  clear_value tl1
  exact ⟨htl1.sp, htl1.spPar⟩

theorem State.SpKept.drainPpu (t : TileId) (s : State) (id : Ids) (f : AdrnF) (ps : Machine.PSet) (dst : Nat) :
    SpKept t s (s.drainPpu t id f ps dst) := by
  unfold State.drainPpu
  extract_lets n a tl ac
  clear_value tl ac
  split
  next vals badRow _ =>
    extract_lets samples s1 blocks sat conv s2 s3 s4 s5
    have hs1 : SpKept t s s1 := by
      refine modTile t t s ?_
      exact fun _ => ⟨rfl, rfl⟩
    clear_value s1 samples blocks sat conv
    have hs2 : SpKept t s s2 := by
      subst s2
      split
      · refine hs1.trans (modTile_same t t s1 fun y => ?_)
        extract_lets tl1
        have htl1 : y.SpSame tl1 := foldl_keeps (P := y.SpSame) _ (.refl y) fun z b hz =>
          (hz.trans (.writeLate ..)).trans (.writeLate ..)
        clear_value tl1
        exact htl1.trans (.noteDrain ..)
      · exact hs1.trans (modTile_same t t s1 fun y => (Tile.SpSame.writeRows ..).trans (.noteDrain ..))
    clear_value s2
    have hs3 : SpKept t s s3 := hs2.trans (modTile_same t t s2 fun y => (Tile.SpSame.startDrain ..).trans (.busyTo ..))
    clear_value s3
    have hs4 : SpKept t s s4 := by
      refine hs3.trans (modTile t t s3 ?_)
      exact fun _ => ⟨rfl, rfl⟩
    clear_value s4
    have hs5 : SpKept t s s5 := ((hs4.trans (count ..)).trans (count ..)).trans (count ..)
    clear_value s5
    split
    · exact hs5.trans (conflict ..)
    · exact hs5

/-! #### ADRN -/

section
variable {s₀ s : State} {t : TileId} {id : Ids} {f : AdrnF} {ps : Machine.PSet} {n : Nat} (hs : s = s₀.due t)
  (hIssues : s₀.issues t (.adrn t id f) = true) (hn : n = f.nm1.toNat + 1) (hPs : ps = (s.tile t).settle.pset f.pset.toNat)
  (hOpened : ((s.tile t).settle.slot f.slot.toNat).st = .opened) (hQuiet : (s.tile t).settle.absorbing f.slot.toNat = false)
include hs hIssues hn hPs hOpened hQuiet

theorem exec_adrn_unloaded (hLoaded : ps.loaded = false) :
    exec (.adrn t id f) s₀ = .next (((s.issued t ((((s.tile t).begun id).startDrain f.slot.toNat n).incQ
      [(f.qdst, f.inc)])).conflict t id [] [f.slot.toNat] 17).retire t) := by
  have hWord : encode (.adrn t id f) = some (uopWord id 0x1A (adrnBits f)) := rfl
  have hPage : ((s₀.due t).tile t).pageHold = none := ((State.issues_iff hWord).mp hIssues).2
  rw [← hs] at hPage
  have hExec : exec (.adrn t id f) s₀ = execAdrn t id f s₀ := rfl
  rw [hExec, execAdrn, State.issue_issues _ rfl hIssues, ← hs]
  dsimp only
  rw [← hn, ← hPs, hOpened, hQuiet, hLoaded, State.begin_issued id hPage, State.issued_modTile]
  rfl

/-- An ADRN through a loaded set accesses its destination, and the scales where its format has them. -/
theorem exec_adrn_loaded {d : Nat} (hLoaded : ps.loaded = true) (hReady : ps.readyAt ≤ (s.tile t).seq.ac)
    (hOp : s.spOp? t f.qdst.toNat (fmtSpan ps.fmt.toNat n) true = some d)
    (hMode : (ps.fmt != 7 || ((s.tile t).settle.slot f.slot.toNat).mode != 2) = true)
    (hScales : (ps.fmt == 7 || decide (4 * (f.cbase.toNat + n) ≤ ps.scaleLen)) = true) :
    exec (.adrn t id f) s₀ = .next (s.access t id (some (drainUses (s.tile t).seq.ac ps.fmt.toNat n d ++
        (if ps.fmt = 7 then [] else [{ form := 0, write := false, start := (s.tile t).seq.ac
                                       addr := ps.scaleAddr + 4 * f.cbase.toNat, step := 64, len := 4 * n }])))
      [(f.qdst, f.inc)] { slots := [f.slot.toNat], unit := 17 } fun x =>
        if ps.fmt = 7 then x.drainRaw t id f ps d else x.drainPpu t id f ps d) := by
  have hExec : exec (.adrn t id f) s₀ = execAdrn t id f s₀ := rfl
  rw [hExec, execAdrn, State.issue_issues _ rfl hIssues, ← hs]
  dsimp only
  rw [← hn, ← hPs, hLoaded, hOp]
  dsimp only
  rw [Bool.not_true, Bool.and_false, if_neg Bool.false_ne_true, hOpened, hQuiet, hMode, hScales, Tile.settle_seq,
    decide_eq_true hReady]
  rfl

variable {d : Nat} (hCalm : s.calm t = true) (hLoaded : ps.loaded = true) (hReady : ps.readyAt ≤ (s.tile t).seq.ac)
  (hOp : s.spOp? t f.qdst.toNat (fmtSpan ps.fmt.toNat n) true = some d)
include hCalm hLoaded hReady hOp

theorem exec_adrn_raw {us : List PathUse} (hFmt : ps.fmt = 7)
    (hUs : us = drainUses (s.tile t).seq.ac ps.fmt.toNat n d ++ [])
    (hMode : ((s.tile t).settle.slot f.slot.toNat).mode ≠ 2) (hOk : (s.tile t).accessOk us = true) :
    exec (.adrn t id f) s₀ = .next ((((s.issued t (s.opened t id us { slots := [f.slot.toNat], unit := 17 })).drainRaw t id f
      ps d).modTile t fun tl => tl.incQ [(f.qdst, f.inc)]).retire t) := by
  have hWord : encode (.adrn t id f) = some (uopWord id 0x1A (adrnBits f)) := rfl
  have hPage : ((s₀.due t).tile t).pageHold = none := ((State.issues_iff hWord).mp hIssues).2
  rw [← hs] at hPage
  rw [exec_adrn_loaded hs hIssues hn hPs hOpened hQuiet hLoaded hReady hOp
    (by rw [bne_iff_ne.mpr hMode, Bool.or_true]) (by rw [beq_iff_eq.mpr hFmt, Bool.true_or]), if_pos hFmt, ← hUs]
  simp only [if_pos hFmt]
  exact congrArg Outcome.next (State.access_kept id _ _ _ hPage (State.calm_tile hCalm) hOk (.drainRaw ..))

theorem exec_adrn_ppu {us : List PathUse} (hFmt : ps.fmt ≠ 7)
    (hUs : us = drainUses (s.tile t).seq.ac ps.fmt.toNat n d ++ [{
      form := 0, write := false, start := (s.tile t).seq.ac
      addr := ps.scaleAddr + 4 * f.cbase.toNat, step := 64, len := 4 * n }])
    (hLen : 4 * (f.cbase.toNat + n) ≤ ps.scaleLen) (hOk : (s.tile t).accessOk us = true) :
    exec (.adrn t id f) s₀ = .next ((((s.issued t (s.opened t id us { slots := [f.slot.toNat], unit := 17 })).drainPpu t id f
      ps d).modTile t fun tl => tl.incQ [(f.qdst, f.inc)]).retire t) := by
  have hWord : encode (.adrn t id f) = some (uopWord id 0x1A (adrnBits f)) := rfl
  have hPage : ((s₀.due t).tile t).pageHold = none := ((State.issues_iff hWord).mp hIssues).2
  rw [← hs] at hPage
  rw [exec_adrn_loaded hs hIssues hn hPs hOpened hQuiet hLoaded hReady hOp
    (by rw [bne_iff_ne.mpr hFmt, Bool.true_or]) (by rw [decide_eq_true hLen, Bool.or_true]), if_neg hFmt, ← hUs]
  simp only [if_neg hFmt]
  exact congrArg Outcome.next (State.access_kept id _ _ _ hPage (State.calm_tile hCalm) hOk (.drainPpu ..))

end

/-! #### The value that a drain hands on -/

theorem entryValue_running {en : Entry} (lo : Entry) (h : en.used = true) :
    entryValue 1 en lo = (en.a.toInt, en.x.toInt - 157) := by
  change ((if en.used = true then en.a.toInt else 0), en.x.toInt - 157) = _
  rw [if_pos h]

theorem entryValue_fixed {en : Entry} (lo : Entry) (h : en.used = true) :
    entryValue 2 en lo = ((en.a ++ lo.a).toInt, en.x.toInt - 197) := by
  change ((if en.used = true then wideOf en lo else 0), en.x.toInt - 197) = _
  rw [if_pos h]
  rfl

theorem entryValue_empty (mode : BitVec 2) {en : Entry} (lo : Entry) (h : en.used = false) (ha : en.a = 0) :
    (entryValue mode en lo).1 = 0 := by
  unfold entryValue
  split
  · rw [ha]
    rfl
  · simp [h]
  · simp [h]

/-- Settles O24: a drain through a set that is not loaded is a conflict; one through a loaded set does its work in the
tile that it opened; and what is handed on for an entry follows its mode. -/
theorem adrnDrainsAndDelivers : Obligations.AdrnDrainsAndDelivers := by
  unfold Obligations.AdrnDrainsAndDelivers
  refine ⟨?_, fun en lo => ⟨rfl, entryValue_running lo, entryValue_fixed lo, fun mode => entryValue_empty mode lo⟩⟩
  intro s₀ s t id f hs hIssues n tl ps hOpened hQuiet
  refine ⟨exec_adrn_unloaded hs hIssues rfl rfl hOpened hQuiet, ?_⟩
  intro d hLoaded hCalm hReady hOp us
  refine ⟨?_, ?_⟩
  · exact fun hFmt hMode hOk => exec_adrn_raw hs hIssues rfl rfl hOpened hQuiet hCalm hLoaded hReady hOp hFmt rfl hMode hOk
  · exact fun hFmt hLen hOk => exec_adrn_ppu hs hIssues rfl rfl hOpened hQuiet hCalm hLoaded hReady hOp hFmt rfl hLen hOk

end Sys2Proof.Machine
end

section
/-! ### PPU and STAT (R118, R119, R121, R122, R148, R149, R508) -/

namespace Sys2Proof.Machine

open Host (Outcome)

/-! #### PPU -/

/-- The tile in which parameter set `i` is `ps` (R148). -/
def Tile.setPset (tl : Tile) (i : Nat) (ps : Machine.PSet) : Tile := { tl with psets := Store.set tl.psets i ps }

/-- The set that a PPU loads in cycle `ac`, with its scales in `b` and its parameters (R148). -/
def ppuSet (f : PpuF) (b : Buf) (ac : Nat) (p0 p1 : BitVec 32) : Machine.PSet :=
  { loaded := true, fmt := f.fmt, func := f.func, zp := f.zp, qmin := f.qmin, qmax := f.qmax
    scaleAddr := b.base + b.ofs, scaleLen := b.len - b.ofs, par0 := p0, par1 := p1
    readyAt := ac + 2, busyUntil := ac + 2 }

/-- The scales of a PPU, which a RAW set does not have (R148). -/
def State.ppuScales (s : State) (t : TileId) (f : PpuF) : Option Buf :=
  if f.fmt = 7 then some { base := 0, len := 0, ofs := 0, isSealed := false } else s.spBuf? t f.qscale.toNat false

theorem State.ppuScales_eq {s : State} {t : TileId} {f : PpuF} {b : Buf}
    (hScaled : f.fmt ≠ 7 → s.spBuf? t f.qscale.toNat false = some b ∧ b.ofs ≤ b.len)
    (hRaw : f.fmt = 7 → b = { base := 0, len := 0, ofs := 0, isSealed := false }) :
    s.ppuScales t f = some b ∧ b.ofs ≤ b.len := by
  unfold State.ppuScales
  by_cases hFmt : f.fmt = 7
  · rw [if_pos hFmt, hRaw hFmt]
    exact ⟨rfl, Nat.le_refl 0⟩
  · rw [if_neg hFmt]
    exact hScaled hFmt

/-- The uses of a PPU with its parameters at `par` and its scales `sc`; none where it is a conflict (R128, R148, R160). -/
def Tile.ppuUses (tl : Tile) (i : Nat) (reads : Bool) (par : Option Nat) (sc : Option Buf) : Option (List PathUse) :=
  match par, sc with
  | some a, some b =>
    if b.ofs ≤ b.len ∧ (tl.pset i).busyUntil ≤ tl.seq.ac then
      some (if reads then [({ form := 0, write := false, start := tl.seq.ac, addr := a, step := 8, len := 8 } : PathUse)]
        else [])
    else none
  | _, _ => none

theorem Tile.ppuUses_some {tl : Tile} {i : Nat} (reads : Bool) (a : Nat) {b : Buf} (hLen : b.ofs ≤ b.len)
    (hIdle : (tl.pset i).busyUntil ≤ tl.seq.ac) : tl.ppuUses i reads (some a) (some b) =
      some (if reads then [{ form := 0, write := false, start := tl.seq.ac, addr := a, step := 8, len := 8 }] else []) :=
  if_pos ⟨hLen, hIdle⟩

/-- A parameter of a PPU, from scratchpad (R148). -/
def Tile.ppuPar (tl : Tile) (a o : Nat) : BitVec 32 := BitVec.ofNat 32 (leNat (tl.spRead (a + o) 4))

/-- What a PPU does with its parameters once it has read `n` bytes of them (R148, R508). -/
def State.ppuTakes (s : State) (t : TileId) (id : Ids) (f : PpuF) (b : Buf) (n : Nat) (p0 p1 : BitVec 32) : State :=
  let s := s.count (clusterOf t) 3 n
  if paramsBad f.func p0 p1 then
    (s.modTile t fun tl => { tl with psets := Store.set tl.psets f.pset.toNat {} }).conflict t id [] [] 18
  else s.modTile t fun tl => tl.setPset f.pset.toNat (ppuSet f b tl.seq.ac p0 p1)

/-- What a PPU does with its parameters at `a` and its scales `b` (R148). -/
def State.ppuLoads (s : State) (t : TileId) (id : Ids) (f : PpuF) (reads : Bool) (a : Nat) (b : Buf) : State :=
  s.ppuTakes t id f b (if reads then 8 else 0) (if reads then (s.tile t).ppuPar a 0 else 0)
    (if reads then (s.tile t).ppuPar a 4 else 0)

/-- Parameters that R508 does not refuse are loaded. -/
theorem State.ppuTakes_good (s : State) (t : TileId) (tl : Tile) (id : Ids) (f : PpuF) (b : Buf) (n : Nat)
    {p0 p1 : BitVec 32} (hGood : paramsBad f.func p0 p1 = false) : (s.issued t tl).ppuTakes t id f b n p0 p1 =
      (s.issued t (tl.setPset f.pset.toNat (ppuSet f b tl.seq.ac p0 p1))).count (clusterOf t) 3 n := by
  unfold State.ppuTakes
  dsimp only
  rw [hGood, if_neg Bool.false_ne_true, State.count_modTile, State.issued_modTile]

section
variable {s₀ s : State} {t : TileId} {id : Ids} {f : PpuF} {a : Nat} {b : Buf} {reads : Bool} {us : List PathUse}
  (hs : s = s₀.due t) (hIssues : s₀.issues t (.ppu t id f) = true) (hCalm : s.calm t = true)
  (hScales : s.ppuScales t f = some b) (hLen : b.ofs ≤ b.len)
  (hIdle : ((s.tile t).pset f.pset.toNat).busyUntil ≤ (s.tile t).seq.ac) (hReads : reads = decide (2 ≤ f.func.toNat))
  (hPar : (if reads then s.spOp? t f.qpar.toNat 8 false else some 0) = some a)
  (hUs : us = if reads then [{ form := 0, write := false, start := (s.tile t).seq.ac, addr := a, step := 8, len := 8 }] else [])
  (hOk : (s.tile t).accessOk us = true)
include hs hIssues hCalm hScales hLen hIdle hReads hPar hUs hOk

/-- A PPU with good parameters loads its set. -/
theorem exec_ppu {tl : Tile} {n : Nat} {p0 p1 : BitVec 32} (hTl : tl = s.opened t id us { unit := 18 })
    (hn : (if reads then 8 else 0) = n) (hP0 : (if reads then tl.ppuPar a 0 else 0) = p0)
    (hP1 : (if reads then tl.ppuPar a 4 else 0) = p1) (hGood : paramsBad f.func p0 p1 = false) :
    exec (.ppu t id f) s₀ = .next ((s.issued t ((tl.setPset f.pset.toNat (ppuSet f b tl.seq.ac p0 p1)).next)).count
      (clusterOf t) 3 n) := by
  have hWord : encode (.ppu t id f) = some (uopWord id 0x20 (ppuBits f)) := rfl
  have hPage : ((s₀.due t).tile t).pageHold = none := ((State.issues_iff hWord).mp hIssues).2
  rw [← hs] at hPage
  have hExec : exec (.ppu t id f) s₀ = .next (s₀.issue t (uopWord id 0x20 (ppuBits f)) fun s =>
      s.access t id ((s.tile t).ppuUses f.pset.toNat (decide (2 ≤ f.func.toNat))
        (if decide (2 ≤ f.func.toNat) then s.spOp? t f.qpar.toNat 8 false else some 0) (s.ppuScales t f)) [] { unit := 18 }
        fun x => x.ppuLoads t id f (decide (2 ≤ f.func.toNat))
          ((if decide (2 ≤ f.func.toNat) then s.spOp? t f.qpar.toNat 8 false else some 0).getD 0)
          ((s.ppuScales t f).getD { base := 0, len := 0, ofs := 0, isSealed := false })) := rfl
  have hLoads : (s.issued t tl).ppuLoads t id f reads a b =
      (s.issued t (tl.setPset f.pset.toNat (ppuSet f b tl.seq.ac p0 p1))).count (clusterOf t) 3 n := by
    rw [State.ppuLoads, State.issued_tile, hP0, hP1, hn, State.ppuTakes_good _ _ _ _ _ _ _ hGood]
  have hKept : State.SpKept t (s.issued t tl) ((s.issued t tl).ppuLoads t id f reads a b) := by
    rw [hLoads]
    refine .trans ?_ (.count ..)
    exact ⟨by rw [State.issued_tile, State.issued_tile]; rfl, by rw [State.issued_tile, State.issued_tile]; rfl⟩
  rw [hExec, State.issue_issues _ rfl hIssues, ← hs, ← hReads, hPar, hScales, Tile.ppuUses_some reads a hLen hIdle, ← hUs]
  rw [hTl] at hKept hLoads
  refine congrArg Outcome.next ((State.access_kept id _ _ _ hPage (State.calm_tile hCalm) hOk hKept).trans ?_)
  change State.retire (((s.issued t (s.opened t id us { unit := 18 })).ppuLoads t id f reads a b).modTile t fun tl => tl.incQ [])
    t = _
  rw [hLoads, State.count_modTile, State.count_retire, State.issued_modTile, State.issued_retire, ← hTl]
  rfl

end

theorem State.opened_psets (s : State) (t : TileId) (id : Ids) (us : List PathUse) (units : Units) :
    (s.opened t id us units).psets = (s.tile t).psets :=
  (s.opened_proj t id us units Tile.psets fun _ _ _ => rfl).trans (Tile.begun_psets ..)

theorem State.opened_ac (s : State) (t : TileId) (id : Ids) (us : List PathUse) (units : Units) :
    (s.opened t id us units).seq.ac = (s.tile t).seq.ac := by
  rw [State.opened_seq, Tile.begun_seq_ac]

theorem State.opened_stat (s : State) (t : TileId) (id : Ids) (us : List PathUse) (units : Units) :
    (s.opened t id us units).stat = (s.tile t).stat :=
  (s.opened_proj t id us units Tile.stat fun _ _ _ => rfl).trans (Tile.begun_stat ..)

theorem Tile.setPset_next (tl : Tile) (i : Nat) (ps : Machine.PSet) :
    (tl.setPset i ps).next = { tl.next with psets := Store.set tl.psets i ps } := rfl

/-- The set that a PPU loads into the tile that it opened. -/
theorem State.opened_setPset (s : State) (t : TileId) (id : Ids) (us : List PathUse) (units : Units) (f : PpuF) (b : Buf)
    (p0 p1 : BitVec 32) :
    ((s.opened t id us units).setPset f.pset.toNat (ppuSet f b (s.opened t id us units).seq.ac p0 p1)).next =
      { (s.opened t id us units).next with
        psets := Store.set (s.tile t).psets f.pset.toNat (ppuSet f b (s.tile t).seq.ac p0 p1) } := by
  rw [State.opened_ac, Tile.setPset_next, State.opened_psets]

theorem paramsBad_plain {func : BitVec 2} (p0 p1 : BitVec 32) (h : func.toNat < 2) : paramsBad func p0 p1 = false := by
  unfold paramsBad
  dsimp only
  split
  next h2 => omega
  next h3 => omega
  next => rfl

/-! #### STAT -/

/-- The table that a STAT binds in cycle `ac` with its envelopes at `a` (R118, R119). -/
def Tile.statTable (tl : Tile) (id : Ids) (f : StatF) (a n : Nat) : Stat :=
  { layer := id.layer, c0 := f.c0.toNat, n, visibleAt := tl.seq.ac + ceilDiv n 16 + 1
    recs := (List.range n).map fun i => (i, envelopeRec (tl.spRead (a + 32 * i) 32)) }

/-- The tile that has bound a table (R149). -/
def Tile.statBound (tl : Tile) (st : Stat) : Tile := ({ tl with stat := some st } : Tile).busyTo (tl.seq.ac + ceilDiv st.n 16)

theorem exec_statOpen {s₀ s : State} {t : TileId} {id : Ids} {f : StatF} {a n : Nat} {us : List PathUse} (hs : s = s₀.due t)
    (hIssues : s₀.issues t (.statOpen t id f) = true) (hCalm : s.calm t = true) (hn : n = f.nm1.toNat + 1)
    (hUs : us = [{ form := 0, write := false, start := (s.tile t).seq.ac, addr := a, step := 512, len := 32 * n }])
    (hOp : s.spOp? t f.q.toNat (32 * n) false = some a) (hOk : (s.tile t).accessOk us = true) (hFree : (s.tile t).stat = none)
    (hIdle : (s.tile t).statUntil ≤ (s.tile t).seq.ac)
    (hGood : ∀ i < n, envelopeBad ((s.tile t).spRead (a + 32 * i) 32) = false) :
    exec (.statOpen t id f) s₀ = .next ((s.issued t (((((s.opened t id us { unit := 18 }).statBound
      ((s.opened t id us { unit := 18 }).statTable id f a n))).incQ [(f.q, f.inc)]).next)).count (clusterOf t) 3 (32 * n)) := by
  have hWord : encode (.statOpen t id f) = some (uopWord id 0x21 (statBits 0 f)) := rfl
  have hPage : ((s₀.due t).tile t).pageHold = none := ((State.issues_iff hWord).mp hIssues).2
  rw [← hs] at hPage
  have hMay : ((s.tile t).stat.isNone && decide ((s.tile t).statUntil ≤ (s.tile t).seq.ac) &&
      (List.range n).all fun i => !envelopeBad ((s.tile t).spRead (a + 32 * i) 32)) = true := by
    rw [hFree, decide_eq_true hIdle]
    exact List.all_eq_true.mpr fun i hi => by rw [hGood i (List.mem_range.mp hi)]; rfl
  have hExec : exec (.statOpen t id f) s₀ = execStatOpen t id f s₀ := rfl
  rw [hExec, execStatOpen, State.issue_issues _ rfl hIssues, ← hs]
  dsimp only
  rw [← hn, hOp]
  dsimp only
  rw [Tile.readView_calm (State.calm_tile hCalm).late, if_pos hMay, ← hUs]
  exact congrArg Outcome.next (State.access_counted id _ _ _ _ hPage (State.calm_tile hCalm) hOk
    (g := fun y => y.statBound (y.statTable id f a n)) fun y => ⟨rfl, rfl⟩)

/-- The records of a table, closed (R121). -/
def Stat.closed (st : Stat) : List StatRec := (List.range st.n).map fun i => (Store.get {} st.recs i).close

/-- The tile with the records of its table on their way to `a` (R121). -/
def Tile.statRecords (tl : Tile) (st : Stat) (a : Nat) : Tile :=
  (tl.writeRows (tl.seq.ac + 7) 512 a (st.closed.flatMap StatRec.bytes)).busyTo (tl.seq.ac + ceilDiv st.n 16 + 6)

/-- The tile with its table unbound, and held until its records are written (R149). -/
def Tile.statUnbound (tl : Tile) (n : Nat) : Tile := { tl with stat := none, statUntil := tl.seq.ac + ceilDiv n 16 + 7 }

theorem State.violation_tile (s : State) (t : TileId) (ids : Ids) (channel : Nat) (kind : Kind) (policy : BitVec 2)
    (x : TileId) : (s.violation t ids channel kind policy).tile x = s.tile x := by
  unfold State.violation
  cases s.tileOwner? t with
  | none => rfl
  | some p =>
    dsimp only
    split
    · rw [State.raise_tile]
      rfl
    · rfl
    · rfl

/-- The violations that the records of a table report (R122). -/
def State.statReports (s : State) (t : TileId) (ids : Ids) (c0 : Nat) (recs : List StatRec) : State :=
  s.each recs.zipIdx fun s x =>
    let s := if x.1.vMean then s.violation t ids (c0 + x.2) 2 x.1.policy else s
    if x.1.vSd then s.violation t ids (c0 + x.2) 3 x.1.policy else s

theorem State.statReports_tile (s : State) (t : TileId) (ids : Ids) (c0 : Nat) (recs : List StatRec) (x : TileId) :
    (s.statReports t ids c0 recs).tile x = s.tile x := by
  refine foldl_keeps (P := fun y : State => y.tile x = s.tile x) _ rfl fun y r hy => ?_
  extract_lets s1
  have hs1 : s1.tile x = s.tile x := by
    subst s1
    split
    · rw [State.violation_tile, hy]
    · exact hy
  clear_value s1
  split
  · rw [State.violation_tile, hs1]
  · exact hs1

/-- What a STAT in close mode does once it has begun, with its records going to `a` (R121, R122, R149). -/
def State.statCloses (s : State) (t : TileId) (id : Ids) (st : Stat) (a : Nat) : State :=
  ((((s.modTile t fun tl => tl.statRecords st a).modTile t fun tl => tl.statUnbound st.n).count (clusterOf t) 4
    (32 * st.n))).statReports t { layer := st.layer, opid := id.opid } st.c0 st.closed

theorem State.statCloses_tile_same (s : State) (t : TileId) (id : Ids) (st : Stat) (a : Nat) :
    (s.statCloses t id st a).tile t = ((s.tile t).statRecords st a).statUnbound st.n := by
  rw [State.statCloses, State.statReports_tile, State.count_tile, State.modTile_tile_same, State.modTile_tile_same]

theorem State.statCloses_tile_other (s : State) {t x : TileId} (hx : x ≠ t) (id : Ids) (st : Stat) (a : Nat) :
    (s.statCloses t id st a).tile x = s.tile x := by
  rw [State.statCloses, State.statReports_tile, State.count_tile, State.modTile_tile_other _ _ hx,
    State.modTile_tile_other _ _ hx]

theorem exec_statClose {s₀ s : State} {t : TileId} {id : Ids} {f : StatF} {a : Nat} {st : Stat} {us : List PathUse}
    (hs : s = s₀.due t) (hIssues : s₀.issues t (.statClose t id f) = true) (hCalm : s.calm t = true)
    (hBound : (s.tile t).stat = some st)
    (hUs : us = [{ form := 0, write := true, start := (s.tile t).seq.ac + 7, addr := a, step := 512, len := 32 * st.n }])
    (hOp : s.spOp? t f.q.toNat (32 * st.n) true = some a) (hOk : (s.tile t).accessOk us = true) :
    exec (.statClose t id f) s₀ = .next ((((s.issued t (s.opened t id us { unit := 18 })).statCloses t id st a).modTile t
      fun tl => { tl.incQ [(f.q, f.inc)] with
        sp := (s.opened t id us { unit := 18 }).sp, spPar := (s.opened t id us { unit := 18 }).spPar }).retire t) := by
  have hWord : encode (.statClose t id f) = some (uopWord id 0x21 (statBits 1 f)) := rfl
  have hPage : ((s₀.due t).tile t).pageHold = none := ((State.issues_iff hWord).mp hIssues).2
  rw [← hs] at hPage
  have hExec : exec (.statClose t id f) s₀ = execStatClose t id f s₀ := rfl
  rw [hExec, execStatClose, State.issue_issues _ rfl hIssues, ← hs]
  dsimp only
  rw [hBound, Option.isNone_some, if_neg Bool.false_ne_true]
  dsimp only
  rw [hOp]
  have hUses : ((some a).map fun a => [({ form := 0, write := true, start := (s.tile t).seq.ac + 7, addr := a, step := 512
                                          len := 32 * st.n } : PathUse)]) = some us := by rw [hUs]; rfl
  rw [hUses, State.access_calm id _ _ _ hPage (State.calm_tile hCalm) hOk, State.issued_tile, State.opened_stat, hBound]
  rfl

theorem Tile.writeRows_late_congr {x y : Tile} (h : x.late = y.late) (first step a : Nat) (l : List Byte) :
    (x.writeRows first step a l).late = (y.writeRows first step a l).late := by
  unfold Tile.writeRows
  generalize List.range (ceilDiv l.length step) = ks
  induction ks generalizing x y with
  | nil => exact h
  | cons k ks ih =>
    refine ih ?_
    unfold Tile.writeLate
    dsimp only
    rw [h]

theorem Tile.writeRows_seq (tl : Tile) (first step a : Nat) (l : List Byte) : (tl.writeRows first step a l).seq = tl.seq :=
  foldl_keeps (P := fun y : Tile => y.seq = tl.seq) _ rfl fun _ _ hy => hy

/-- What a STAT in close mode leaves of its tile (R121, R149). -/
theorem Tile.statEnds (tl x : Tile) (st : Stat) (a : Nat) (incs : List (BitVec 3 × BitVec 1)) (hLate : tl.late = [])
    (hx : x = ({ ((tl.statRecords st a).statUnbound st.n).incQ incs with sp := tl.sp, spPar := tl.spPar } : Tile).next) :
    x.stat = none ∧ x.statUntil = tl.seq.ac + ceilDiv st.n 16 + 7 ∧ x.sp = tl.sp ∧
      x.late = (({ late := [] } : Tile).writeRows (tl.seq.ac + 7) 512 a (st.closed.flatMap StatRec.bytes)).late ∧
      x.seq.pc = tl.seq.pc + 1 ∧ x.seq.ac = tl.seq.ac + 1 := by
  have hSeq : (tl.statRecords st a).seq = tl.seq := Tile.writeRows_seq ..
  have hWritten : (tl.statRecords st a).late = _ := Tile.writeRows_late_congr (y := { late := [] }) hLate ..
  generalize tl.statRecords st a = y at hSeq hWritten hx
  subst hx
  refine ⟨rfl, congrArg (fun q : Seq => q.ac + ceilDiv st.n 16 + 7) hSeq, rfl, hWritten,
    congrArg (fun q : Seq => q.pc + 1) hSeq, congrArg (fun q : Seq => q.ac + 1) hSeq⟩

/-- The state that a STAT in close mode leaves. -/
def State.statClosed (s : State) (t : TileId) (id : Ids) (st : Stat) (a : Nat) (us : List PathUse) (f : StatF) : State :=
  (((s.issued t (s.opened t id us { unit := 18 })).statCloses t id st a).modTile t fun tl => { tl.incQ [(f.q, f.inc)] with
    sp := (s.opened t id us { unit := 18 }).sp, spPar := (s.opened t id us { unit := 18 }).spPar }).retire t

theorem State.statCloses_ends (s : State) (t : TileId) (id : Ids) (st : Stat) (a : Nat) (us : List PathUse) (f : StatF) :
    (s.statClosed t id st a us f).tile t =
      ({ (((s.opened t id us { unit := 18 }).statRecords st a).statUnbound st.n).incQ [(f.q, f.inc)] with
        sp := (s.opened t id us { unit := 18 }).sp, spPar := (s.opened t id us { unit := 18 }).spPar } : Tile).next := by
  unfold State.statClosed State.retire
  rw [State.modTile_tile_same, State.modTile_tile_same, State.statCloses_tile_same, State.issued_tile]
  rfl

theorem State.statCloses_other (s : State) {t x : TileId} (hx : x ≠ t) (id : Ids) (st : Stat) (a : Nat) (us : List PathUse)
    (f : StatF) : (s.statClosed t id st a us f).tile x = s.tile x := by
  unfold State.statClosed State.retire
  rw [State.modTile_tile_other _ _ hx, State.modTile_tile_other _ _ hx, State.statCloses_tile_other _ hx, State.issued,
    State.count_tile, State.modTile_tile_other _ _ hx]

/-- Settles O25: PPU loads its set, STAT binds and unbinds its table, each in the tile that it opened. -/
theorem ppuLoadsAndStatObserves : Obligations.PpuLoadsAndStatObserves := by
  unfold Obligations.PpuLoadsAndStatObserves
  refine ⟨?_, ?_, ?_⟩
  · intro s₀ s t id f b hs hIssues hCalm hScaled hRaw hIdle set
    obtain ⟨hScales, hLen⟩ := State.ppuScales_eq hScaled hRaw
    refine ⟨fun hPlain => ?_, ?_⟩
    · have hReads : false = decide (2 ≤ f.func.toNat) := (decide_eq_false (Nat.not_le.mpr hPlain)).symm
      exact (exec_ppu (a := 0) (n := 0) (p0 := 0) (p1 := 0) hs hIssues hCalm hScales hLen hIdle hReads rfl rfl
        (Tile.accessOk_nil _) rfl rfl rfl rfl (paramsBad_plain 0 0 hPlain)).trans
          (congrArg (fun x => Outcome.next (s.issued t x)) (s.opened_setPset t id [] _ f b 0 0))
    · intro a hFunc hOp us p0 p1 hOk hGood
      have hReads : true = decide (2 ≤ f.func.toNat) := (decide_eq_true hFunc).symm
      have hPar (o : Nat) : (s.opened t id us { unit := 18 }).ppuPar a o = (s.tile t).ppuPar a o := by
        rw [Tile.ppuPar, State.opened_spRead, Tile.ppuPar]
      exact (exec_ppu (a := a) (n := 8) (p0 := p0) (p1 := p1) hs hIssues hCalm hScales hLen hIdle hReads hOp rfl
        hOk rfl rfl (hPar 0) (hPar 4) hGood).trans
          (congrArg (fun x => Outcome.next ((s.issued t x).count (clusterOf t) 3 8)) (s.opened_setPset t id us _ f b p0 p1))
  · intro s₀ s t id f a hs hIssues hCalm n us hOp hOk hFree hIdle hGood tl
    have hTable : tl.statTable id f a n = { (s.tile t).statTable id f a n with
        visibleAt := tl.seq.ac + ceilDiv n 16 + 1 } := by
      unfold Tile.statTable
      rw [show tl.spRead = (s.tile t).spRead from funext fun x => funext fun k => s.opened_spRead t id us _ x k]
    exact (exec_statOpen hs hIssues hCalm rfl rfl hOp hOk hFree hIdle hGood).trans (congrArg (fun x => Outcome.next
      ((s.issued t (((tl.statBound x).incQ [(f.q, f.inc)]).next)).count (clusterOf t) 3 (32 * n))) hTable)
  · intro s₀ s t id f a st hs hIssues hCalm hBound us hOp hOk
    refine ⟨_, exec_statClose hs hIssues hCalm hBound rfl hOp hOk, ?_⟩
    have hLate : (s.opened t id us { unit := 18 }).late = [] := (s.opened_late ..).trans (State.calm_tile hCalm).late
    have hBytes : st.closed.flatMap StatRec.bytes = (List.range st.n).flatMap fun i => (Store.get {} st.recs i).close.bytes :=
      List.flatMap_map ..
    obtain ⟨hStat, hUntil, hSp, hWrites, hPc, hAc⟩ := Tile.statEnds (s.opened t id us { unit := 18 }) _ st a [(f.q, f.inc)]
      hLate (s.statCloses_ends t id st a us f)
    rw [State.opened_ac] at hUntil hWrites hAc
    rw [hBytes] at hWrites
    exact ⟨hStat, hUntil, hSp.trans (s.opened_sp ..), hWrites, hPc.trans (by rw [State.opened_seq, Tile.begun_seq_pc]), hAc,
      fun x hx => s.statCloses_other hx id st a us f⟩

end Sys2Proof.Machine
end

section
/-! ### A torn write over the transport whose writer's neighbour is not resolved (R242, R304)

The NACK of a torn write leaves as a transport datagram; with the writer's address unknown, a solicitation of it leaves on
every link that is up, before the NACK. -/

namespace Sys2Proof.Machine

/-- A write over the transport into window 0 of tile 0, accepted in epoch 1. -/
def tornWrite : PutWrite :=
  { handle := 0, epoch := 1, window := 0, via := .transport 0 0 0, writer := 0, tag := 0, base := 0, len := 64, got := 0
    lastSeen := false }

/-- Window 0 of tile 0 is a write window in epoch 0 whose advance waits for the write; the link of port 0 is up, and no
neighbour is known. -/
def tornState : State :=
  { phase := .service, ports := [(0, { st := 2, eth := true })], engines := [(0, { ethMode := true })]
    tiles := [(0, { handles := [(0, 5 * 2 ^ 125)], windows := [(0, { closing := true })], writes := [tornWrite] })] }

/-- How many messages a command has sent. -/
def messagesSent (o : Host.Outcome State Fault Refusal) : Nat :=
  match o with | .next s => s.sent.length | _ => 0

theorem messagesSent_advanceTimeout : messagesSent (exec (.advanceTimeout 0) tornState) = 2 := by decide +kernel

theorem tornState_window : tornState.window? 0 = some (0, 0) := by decide +kernel

theorem tornState_oldWrites : tornState.oldWrites 0 0 = [tornWrite] := by decide +kernel

/-- Refutes O32: the write over the transport is refused with TORN, and the solicitation of its writer's address leaves
besides the NACK. -/
theorem not_answersCompleteAndEpochsClose : ¬ Obligations.AnswersCompleteAndEpochsClose := by
  unfold Obligations.AnswersCompleteAndEpochsClose
  rintro ⟨_, hAdvance⟩
  obtain ⟨_, hTorn⟩ := hAdvance tornState 0 0 0 tornState_window rfl rfl
  obtain ⟨s', hExec, _, _, _, _, hSent, _⟩ := hTorn tornWrite tornState_oldWrites rfl rfl
  have hVia : ∀ d u, tornWrite.via = .fabric d u → d = tornState.devNum := fun _ _ h => by cases h
  have hTwo : s'.sent.length = 2 := (congrArg messagesSent hExec).symm.trans messagesSent_advanceTimeout
  have hOne : s'.sent.length = 1 := congrArg List.length (hSent hVia)
  exact absurd (hTwo.symm.trans hOne) (by decide)

end Sys2Proof.Machine
end

section
/-! ### Grants, credit requests and reads (R246 to R248, R252) -/

namespace Sys2Proof.Machine

open Host (Outcome)

/-! #### Credits -/

theorem exec_grantReceive {s : State} {t : TileId} {g : GrantMsg} {p : PartId} (hLive : s.live = true)
    (hOwner : s.tileOwner? t = some p) (hRuns : (s.part p).slackStopped = false) (hRsvd : g.rsvd = 0) :
    exec (.grantReceive t g) s = .next (s.modTile t fun tl =>
      if g.frame = (s.part p).frame then { tl with cur := Store.set tl.cur g.entry.toNat (creditWord g) }
      else if g.frame = (s.part p).frame + 1 then { tl with nxt := Store.set tl.nxt g.entry.toNat (creditWord g) }
      else { tl with discards := satAdd tl.discards 1 }) := by
  have hServes : ∀ q, s.tileOwner? t = some q → (s.part q).slackStopped = false := fun q hq => by
    rw [hOwner] at hq
    rw [← Option.some.inj hq]
    exact hRuns
  have hSound : ¬g.rsvd ≠ 0 := fun h => h hRsvd
  have hExec : exec (.grantReceive t g) s = execGrantReceive t g s := rfl
  rw [hExec, execGrantReceive, if_pos hLive, s.capture_serves hServes, if_neg hSound, hOwner]

/-- The records of a grant list that a credit request finds: those of its slot and window that are active (R248). -/
def grantActive (slot : HostSlot) (bits : Nat) (granted : List Nat) (x : BitVec 128 × Nat) : Bool :=
  hf x.1 125 124 == 1 && hf x.1 95 92 == slot.val && hf x.1 91 76 == bits && (hf x.1 127 126 == 0 || granted.contains x.2)

/-- A window notes that record `i` of the grant list has been granted (R246). -/
def WinSt.grants (w : WinSt) (i : Nat) : WinSt :=
  { w with granted := if w.granted.contains i then w.granted else w.granted ++ [i] }

/-- The answer to a credit request that finds the records `found` (R248). -/
def State.sendCredits (s : State) (p : PartId) (via : Via) (t : TileId) (h : Nat) (found : List (BitVec 128 × Nat)) : State :=
  (s.modTile t fun tl => tl.modWin h fun w => found.foldl (fun w x => w.grants x.2) w).each found fun s x =>
    s.send (.via via) (.grant (s.grantMsg p t x.2 x.1))

theorem State.creditAnswer_window {s : State} (p : PartId) (slot : HostSlot) (seq : BitVec 32) {window : BitVec 24}
    {t : TileId} {h : Nat} (hWindow : s.window? window = some (t, h)) :
    s.creditAnswer p slot seq window =
      if (s.grantList p).zipIdx.filter (grantActive slot (tileBits t + h) ((s.tile t).win h).granted) = [] then
        s.send (.via (.transport p slot seq)) (.nack window 0 0 rNoCredit 0)
      else s.sendCredits p (.transport p slot seq) t h
        ((s.grantList p).zipIdx.filter (grantActive slot (tileBits t + h) ((s.tile t).win h).granted)) := by
  unfold State.creditAnswer
  dsimp only
  rw [hWindow]
  rfl

theorem exec_creditRequest {s : State} {p : PartId} {slot : HostSlot} (seq : BitVec 32) (window : BitVec 24)
    (hLive : s.live = true) (hRuns : (s.part p).slackStopped = false) :
    exec (.creditRequest p slot seq window (BitVec.ofNat 4 slot.val)) s = .next (s.creditAnswer p slot seq window) := by
  have hServes : ∀ q, some p = some q → (s.part q).slackStopped = false := fun q hq => by
    rw [← Option.some.inj hq]
    exact hRuns
  have hSlot : ¬(BitVec.ofNat 4 slot.val).toNat ≠ slot.val := fun h => h (by
    rw [BitVec.toNat_ofNat]
    exact Nat.mod_eq_of_lt slot.isLt)
  have hExec : exec (.creditRequest p slot seq window (BitVec.ofNat 4 slot.val)) s =
    execCreditRequest p slot seq window (BitVec.ofNat 4 slot.val) s := rfl
  rw [hExec, execCreditRequest, if_pos hLive, s.capture_serves hServes, if_neg hSlot]

/-- A grant's handle is that of the state before its window has noted it. -/
theorem State.handle_modWin (s : State) (t : TileId) (h : Nat) (f : WinSt → WinSt) (k : Nat) :
    (s.modTile t fun tl => tl.modWin h f).handle t k = s.handle t k := by
  unfold State.handle
  rw [State.modTile_tile_same]
  rfl

/-- The answer to a request that finds one record, which its window has not granted yet. -/
theorem State.sendCredits_one {s : State} (p : PartId) (via : Via) {t : TileId} {h i : Nat} (g : BitVec 128)
    (hFresh : ((s.tile t).win h).granted.contains i = false) :
    s.sendCredits p via t h [(g, i)] =
      (s.modTile t fun tl => tl.modWin h fun w => { w with granted := w.granted ++ [i] }).send (.via via)
        (.grant (s.grantMsg p t i g)) := by
  have hNotes : (s.modTile t fun tl => tl.modWin h fun w => w.grants i) =
      s.modTile t fun tl => tl.modWin h fun w => { w with granted := w.granted ++ [i] } := by
    have hNote : ((s.tile t).win h).grants i = { (s.tile t).win h with granted := ((s.tile t).win h).granted ++ [i] } := by
      unfold WinSt.grants
      rw [hFresh]
      rfl
    exact State.modTile_congr
      (congrArg (fun x => { s.tile t with windows := Store.set (s.tile t).windows h x }) hNote)
  have hMsg : (s.modTile t fun tl => tl.modWin h fun w => { w with granted := w.granted ++ [i] }).grantMsg p t i g =
      s.grantMsg p t i g := by
    unfold State.grantMsg
    rw [State.handle_modWin]
    rfl
  change (s.modTile t fun tl => tl.modWin h fun w => w.grants i).send (.via via)
    (.grant ((s.modTile t fun tl => tl.modWin h fun w => w.grants i).grantMsg p t i g)) = _
  rw [hNotes, hMsg]

/-! #### Reads -/

theorem hf_lt (w : BitVec 128) (hi lo : Nat) : hf w hi lo < 2 ^ (hi + 1 - lo) := Nat.mod_lt _ (Nat.two_pow_pos _)

/-- The bytes that a read of `n` bytes at `a` answers with (R252). -/
def State.readSegment (s : State) (r : ReadReq) (t : TileId) (n : Nat) : ReadSeg :=
  { window := r.window, frame := match s.tileOwner? t with | some p => (s.part p).lastFrame | none => 0, tag := r.tag
    sofs := 0, slm1 := BitVec.ofNat 8 (ceilDiv n 64 - 1), last := true, rsvd := 0 }

theorem ceilDiv_readSegMax {n : Nat} (hLow : 1 ≤ n) (hHigh : n ≤ 4032) : ceilDiv n readSegMax = 1 := by
  unfold ceilDiv readSegMax
  omega

/-- A read of one segment is answered from the buffer that remote accesses see. -/
theorem State.answerRead_one {s : State} {q : HeldRead} {t : TileId} {h n a : Nat}
    (hWindow : s.window? q.r.window = some (t, h)) (hEpoch : hf (s.handle t h) 63 32 = q.epoch.toNat)
    (hAfter : q.after = none) (hn : n = q.r.lm1.toNat + 1) (ha : a = s.bufBase t (s.handle t h) true + q.r.offset.toNat)
    (hOne : n ≤ 4032) :
    s.answerRead q = ((s.count (clusterOf t) 5 n).modTile t fun tl => tl.touch [bankOf a] (s.tileAc t)).send (.via q.via)
      (.readSeg (s.readSegment q.r t n) ((s.tile t).spRead a n)) := by
  have hParts : ceilDiv n readSegMax = 1 := ceilDiv_readSegMax (by omega) hOne
  have hWhole : (((s.tile t).spRead a n).drop (readSegMax * 0)).take readSegMax = (s.tile t).spRead a n := by
    rw [Nat.mul_zero, List.drop_zero]
    refine List.take_of_length_le ?_
    rw [Tile.spRead, Mem.readBytes_length]
    exact hOne
  have hLength : ((s.tile t).spRead a n).length = n := Mem.readBytes_length ..
  unfold State.answerRead
  dsimp only
  rw [hWindow]
  dsimp only
  rw [if_neg (fun h => h hEpoch), hAfter, ← hn, ← ha, hParts]
  dsimp only
  rw [if_neg (Nat.lt_irrefl 1), List.range_one, List.foldl_cons, List.foldl_nil, hWhole, hLength]
  rfl

theorem State.handle_modTile_id (s : State) (t x : TileId) (k : Nat) : (s.modTile t id).handle x k = s.handle x k := by
  have hTile : (s.modTile t id).tile x = s.tile x := by
    by_cases hx : x = t
    · subst hx
      exact State.modTile_tile_same ..
    · exact State.modTile_tile_other _ _ hx
  unfold State.handle
  rw [hTile]

theorem State.window?_modTile_id (s : State) (t : TileId) (w : BitVec 24) : (s.modTile t id).window? w = s.window? w := by
  unfold State.window?
  simp only [State.handle_modTile_id]
  rfl

theorem exec_readRequest {s : State} {via : Via} {r : ReadReq} {t : TileId} {h n a : Nat} (hLive : s.live = true)
    (hRuns : ∀ p, s.windowOwner? r.window = some p → (s.part p).slackStopped = false) (hRsvd : r.rsvd = 0)
    (hWindow : s.window? r.window = some (t, h)) (hCheck : s.readCheck via r = none) (hn : n = r.lm1.toNat + 1)
    (ha : a = s.bufBase t (s.handle t h) true + r.offset.toNat) (hHold : (s.tile t).dmaHold (s.dmaCycle t) a n true = none)
    (hHeld : (s.tile t).held = []) (hLate : (s.tile t).late = []) (hQuiet : (s.tile t).seq.st ≠ .issuing) (hOne : n ≤ 4032) :
    exec (.readRequest via r false none) s = .next (((s.count (clusterOf t) 5 n).modTile t fun tl =>
      tl.touch [bankOf a] (s.tileAc t)).send (.via via) (.readSeg (s.readSegment r t n) ((s.tile t).spRead a n))) := by
  have hLand : s.modTile t (·.landFor (s.dmaCycle t)) = s.modTile t id := State.modTile_congr (Tile.landFor_free hLate _)
  have hTile : (s.modTile t id).tile t = s.tile t := State.modTile_tile_same ..
  have hExec : exec (.readRequest via r false none) s = execReadRequest via r false none s := rfl
  rw [hExec, execReadRequest, if_pos hLive, s.capture_serves hRuns, State.readRequest, if_neg (fun h => h hRsvd), hCheck]
  dsimp only
  rw [hWindow]
  dsimp only
  unfold State.dmaNew
  dsimp only
  rw [State.settleDma_free hHeld, hHeld]
  unfold State.dmaTry
  dsimp only
  rw [hHeld, if_neg (by simp), if_neg hQuiet]
  unfold State.dmaAt
  dsimp only
  rw [hLand, hTile, Option.isSome_some, ← hn, ← ha, hHold]
  dsimp only
  rw [if_neg Bool.false_ne_true]
  have hHandle (x : TileId) (k : Nat) : (s.modTile t id).handle x k = s.handle x k := s.handle_modTile_id t x k
  have hBase : (s.modTile t id).bufBase t ((s.modTile t id).handle t h) true = s.bufBase t (s.handle t h) true := by
    rw [State.bufBase, State.bufEntry, hHandle, hHandle]
    rfl
  have hOpen : hf ((s.modTile t id).handle t h) 63 32 = (BitVec.ofNat 32 (hf (s.handle t h) 63 32)).toNat := by
    rw [hHandle, BitVec.toNat_ofNat]
    exact (Nat.mod_eq_of_lt (hf_lt ..)).symm
  rw [State.answerRead_one ((s.window?_modTile_id t r.window).trans hWindow) hOpen rfl hn
    (ha.trans (congrArg (· + r.offset.toNat) hBase.symm)) hOne, hTile, State.count_modTile, State.count_modTile,
    State.modTile_modTile]
  rfl

/-- Settles O33: a grant replaces the word of its frame, a request that finds one record is answered with it, a read of
one segment is answered from the public buffer, and read data go on to the requester. -/
theorem creditsAndReadsAreServed : Obligations.CreditsAndReadsAreServed := by
  unfold Obligations.CreditsAndReadsAreServed
  refine ⟨?_, ?_, ?_, ?_⟩
  · intro s t g p hLive hOwner hRuns hRsvd
    exact exec_grantReceive hLive hOwner hRuns hRsvd
  · intro s p slot seq window t h i g hLive hRuns hWindow hList hi hAlways hHost hSlot hBits hFresh
    have hFound : (s.grantList p).zipIdx.filter (grantActive slot (tileBits t + h) ((s.tile t).win h).granted) = [(g, 0)] := by
      rw [hList]
      simp [grantActive, hAlways, hHost, hSlot, hBits]
    rw [exec_creditRequest seq window hLive hRuns, State.creditAnswer_window p slot seq hWindow, hFound,
      if_neg (List.cons_ne_nil _ _), State.sendCredits_one p _ g hFresh]
    rfl
  · intro s via r t h hLive hRuns hRsvd hWindow hCheck n a hHold hHeld hLate hQuiet hOne
    exact exec_readRequest hLive hRuns hRsvd hWindow hCheck rfl rfl hHold hHeld hLate hQuiet hOne
  · intro s r data hLive hRsvd others
    exact congrArg Outcome.next ((if_pos hLive).trans (if_neg fun h => h hRsvd))

end Sys2Proof.Machine
end

section
/-! ### HBM replays and hard errors (R258, R267, R268, R270 to R273) -/

namespace Sys2Proof.Machine

open Host (Outcome)

theorem hbmExists_of_lt {a : HbmAddr} (h : a.toNat < 288 * 2 ^ 30) : hbmExists a = true := decide_eq_true h

theorem hbmExists_of_le {a : HbmAddr} (h : 288 * 2 ^ 30 ≤ a.toNat) : hbmExists a = false := decide_eq_false (Nat.not_lt.mpr h)

/-- The access that holds a byte stands at its 32 B unit. -/
theorem accessOf_unit (a : HbmAddr) : (accessOf a).toNat / 32 = a.toNat / 32 := by
  unfold accessOf
  rw [BitVec.toNat_and]
  have hMask : (~~~(0x1F : BitVec 39)).toNat = (2 ^ 34 - 1) * 32 := by decide
  rw [hMask]
  have hDiv := Nat.and_div_two_pow (a := a.toNat) (b := (2 ^ 34 - 1) * 32) (n := 5)
  change (a.toNat &&& (2 ^ 34 - 1) * 32) / 2 ^ 5 = a.toNat / 2 ^ 5
  rw [hDiv, Nat.mul_div_cancel _ (by decide), Nat.and_two_pow_sub_one_eq_mod]
  exact Nat.mod_eq_of_lt (by have := a.isLt; omega)

/-! #### Replays -/

/-- The replays that have failed of an access, but for `key`'s. -/
def Ctrl.otherTries (c : Ctrl) (key : HbmAddr × BitVec 7 × HbmUser × Bool) : List ((HbmAddr × BitVec 7 × HbmUser × Bool) × Nat) :=
  c.tries.filter fun x => !decide (x.1 = key)

/-- A replay of a read or a write. -/
def replayOf (a : HbmAddr) (req : BitVec 7) (user : HbmUser) (write good : Bool) : Instr :=
  if write then .hbmWriteReplay a ⟨req, user⟩ good else .hbmReadReplay a ⟨req, user⟩ good ⟨false, false⟩

section
variable {s : State} {a : HbmAddr} {req : BitVec 7} {user : HbmUser} {write : Bool}

theorem exec_replay (hExists : hbmExists a = true) (good : Bool) : exec (replayOf a req user write good) s =
    .next (if s.inHand req user a then s.hbmReplay a req user write good else s) := by
  cases write with
  | false => exact if_pos hExists
  | true => exact if_pos hExists

theorem exec_replay_beyond (hNone : hbmExists a = false) (good : Bool) :
    exec (replayOf a req user write good) s = .fault (.noSuchHbmAddress a) := by
  have hNot : ¬hbmExists a = true := by rw [hNone]; exact Bool.false_ne_true
  cases write with
  | false => exact if_neg hNot
  | true => exact if_neg hNot

theorem State.hbmReplay_first (hFresh : assocGet 0 (s.ctrl (ctrlOf a)).tries (accessOf a, req, user, write) = 0) :
    s.hbmReplay a req user write false = s.modCtrl (ctrlOf a) fun c => { c with
      tries := c.otherTries (accessOf a, req, user, write) ++ [((accessOf a, req, user, write), 1)] } := by
  unfold State.hbmReplay
  dsimp only
  rw [if_neg Bool.false_ne_true]
  exact if_pos hFresh

theorem State.hbmReplay_second (hTried : assocGet 0 (s.ctrl (ctrlOf a)).tries (accessOf a, req, user, write) ≠ 0) :
    s.hbmReplay a req user write false = (s.modCtrl (ctrlOf a) fun c => { c with
      tries := (s.ctrl (ctrlOf a)).otherTries (accessOf a, req, user, write) }).hardError a req user write := by
  unfold State.hbmReplay
  dsimp only
  rw [if_neg Bool.false_ne_true]
  exact if_neg hTried

end

/-- A controller with a hard error counted and logged (R272, R273). -/
def Ctrl.withHard (c : Ctrl) (acc : HbmAddr) (req : BitVec 7) (write : Bool) : Ctrl :=
  { c with
    hard := satAdd c.hard 1, wrFail := c.wrFail || write, logValid := true
    logWrite := if c.logValid then c.logWrite else write
    logReq := if c.logValid then c.logReq else req
    logAddr := if c.logValid then c.logAddr else acc }

/-- The log holds the first hard error since it was cleared (R273). -/
theorem Ctrl.withHard_log (c : Ctrl) (acc : HbmAddr) (req : BitVec 7) (write : Bool) :
    (c.logValid = false → (c.withHard acc req write).logAddr = acc ∧ (c.withHard acc req write).logReq = req ∧
      (c.withHard acc req write).logWrite = write) ∧
    (c.logValid = true → (c.withHard acc req write).logAddr = c.logAddr) := by
  unfold Ctrl.withHard
  refine ⟨fun h => ?_, fun h => ?_⟩
  · rw [h]
    exact ⟨rfl, rfl, rfl⟩
  · rw [h]
    rfl

/-- What a hard error does: its controller counts and logs it, its access is in hard error, no tile changes. -/
theorem State.hardError_spec (s : State) (a : HbmAddr) (req : BitVec 7) (user : HbmUser) (write : Bool) :
    (s.hardError a req user write).ctrl (ctrlOf a) = (s.ctrl (ctrlOf a)).withHard (accessOf a) req write ∧
      (accessOf a, write) ∈ (s.hardError a req user write).hardNow ∧ (s.hardError a req user write).tiles = s.tiles := by
  unfold State.hardError
  extract_lets k s1 s2 by_ owner ids serves s3
  have hs1 : s1.ctrl k = (s.ctrl k).withHard (accessOf a) req write ∧ s1.tiles = s.tiles :=
    ⟨State.modCtrl_ctrl_same .., rfl⟩
  have hs2 : s2.ctrl k = (s.ctrl k).withHard (accessOf a) req write ∧ (accessOf a, write) ∈ s2.hardNow ∧
      s2.tiles = s.tiles := by
    refine ⟨hs1.1, ?_, hs1.2⟩
    change (accessOf a, write) ∈ if s1.hardNow.contains (accessOf a, write) then s1.hardNow
      else s1.hardNow ++ [(accessOf a, write)]
    split
    next hIn => exact List.contains_iff_mem.mp hIn
    · exact List.mem_append_right _ List.mem_cons_self
  clear_value s1 s2 by_ owner ids serves
  have hs3 : s3.ctrl k = (s.ctrl k).withHard (accessOf a) req write ∧ (accessOf a, write) ∈ s3.hardNow ∧
      s3.tiles = s.tiles := by
    obtain ⟨hCtrl, hHard, hTiles⟩ := hs2
    refine ⟨?_, ?_, ?_⟩
    · rw [State.ctrl, State.raise_ctrls]
      exact hCtrl
    · rw [State.raise_hardNow]
      exact hHard
    · rw [State.raise_tiles]
      exact hTiles
  clear_value s3
  cases owner with
  | none => exact hs3
  | some p =>
    cases serves with
    | false => exact hs3
    | true => exact hs3

/-- The access in hard error covers every byte of its unit. -/
theorem State.hardAt_of_mem {s : State} {a : HbmAddr} {write : Bool} (h : (accessOf a, write) ∈ s.hardNow) :
    s.hardAt a.toNat write = true := by
  unfold State.hardAt
  refine Bool.or_eq_true_iff.mpr (.inl (List.any_eq_true.mpr ⟨_, h, ?_⟩))
  rw [accessOf_unit, decide_eq_true rfl, beq_self_eq_true]
  rfl

/-! #### Repairs before ready -/

/-- The restores of a partition at the tiles of `l` that a hard error held up are made again (R270). -/
def State.retryPart (s : State) (l : List TileId) (p : PartId) : State :=
  if (s.part p).restoreFailed.isEmpty || (s.part p).run.active || !(s.part p).copied then s
  else (s.each (l.filter fun t => (s.part p).restoreFailed.contains t.val && s.tileUp t) fun s t =>
    if (s.part p).restoreDue.contains t.val then s.restoreTile p t else s.reloadPages p t).tryReady p

theorem State.retryRestores_eq (s : State) :
    s.retryRestores = s.each allParts fun s p => s.retryPart (List.finRange 512) p := by
  unfold State.retryRestores State.retryPart
  rfl

/-- The same accesses are in hard error, and kept as bad. -/
structure State.HardKept (s s' : State) : Prop where
  hardNow : s'.hardNow = s.hardNow
  badAccess : s'.badAccess = s.badAccess

namespace State.HardKept

theorem refl (s : State) : s.HardKept s := ⟨rfl, rfl⟩

theorem trans {a b c : State} (h : a.HardKept b) (h' : b.HardKept c) : a.HardKept c :=
  ⟨h'.hardNow.trans h.hardNow, h'.badAccess.trans h.badAccess⟩

theorem foldl {α : Type} {s s' : State} (h : s.HardKept s') {f : State → α → State}
    (hf : ∀ (x : State) a, x.HardKept (f x a)) (l : List α) : s.HardKept (l.foldl f s') :=
  foldl_keeps (P := s.HardKept) l h fun y a hy => hy.trans (hf y a)

theorem of_ambient {s s' : State} (h : s.Ambient s') : s.HardKept s' := ⟨h.hardNow, h.badAccess⟩

theorem of_windows {s s' : State} (h : s.WindowsOnly s') : s.HardKept s' := by
  constructor
  · rw [h.state]
  · rw [h.state]

theorem tryReady (s : State) (p : PartId) : s.HardKept (s.tryReady p) := by
  unfold State.tryReady
  split
  · have hRaise : s.HardKept s.finishRaise := by
      unfold State.finishRaise
      split
      · exact ⟨rfl, rfl⟩
      · exact refl s
    exact ⟨hRaise.hardNow, hRaise.badAccess⟩
  · exact refl s

theorem restoreTile (s : State) (p : PartId) (t : TileId) : s.HardKept (s.restoreTile p t) := by
  unfold State.restoreTile
  cases (s.part p).image with
  | none => exact refl s
  | some im =>
    dsimp only
    split
    · exact ⟨rfl, rfl⟩
    · split
      · exact of_ambient (.restoreFails ..)
      · have hFill : s.HardKept (s.fillTile p im [] (s.part p).cls.toNat t) := of_ambient (.fillTile ..)
        have hOpen := hFill.foldl (fun x h => of_windows (x.windowsOnly_advance t h false))
          ((s.fillTile p im [] (s.part p).cls.toNat t).windowsOf t 1 ++
            (s.fillTile p im [] (s.part p).cls.toNat t).windowsOf t 2)
        refine trans (hOpen.foldl (fun x y => ?_) _) ⟨rfl, rfl⟩
        exact ⟨rfl, rfl⟩

theorem reloadPages (s : State) (p : PartId) (t : TileId) : s.HardKept (s.reloadPages p t) := by
  unfold State.reloadPages
  cases (s.part p).image with
  | none => exact refl s
  | some im =>
    dsimp only
    split
    · exact of_ambient (.restoreFails ..)
    · have hFill : s.HardKept (s.fillPages p t im.sections (s.part p).cls.toNat) := of_ambient (.fillPages ..)
      exact ⟨hFill.hardNow, hFill.badAccess⟩

theorem restoreAll (s : State) (p : PartId) (ts : List TileId) : s.HardKept ((s.each ts fun s t =>
    if (s.part p).restoreDue.contains t.val then s.restoreTile p t else s.reloadPages p t).tryReady p) := by
  refine trans ((refl s).foldl (fun y t => ?_) ts) (tryReady ..)
  split
  · exact restoreTile ..
  · exact reloadPages ..

theorem retryPart (s : State) (l : List TileId) (p : PartId) : s.HardKept (s.retryPart l p) := by
  unfold State.retryPart
  split
  · exact refl s
  · exact restoreAll ..

theorem retryParts (s : State) (l : List TileId) (ps : List PartId) : s.HardKept (s.each ps fun s p => s.retryPart l p) :=
  (refl s).foldl (fun x p => retryPart x l p) ps

theorem retryRestores (s : State) : s.HardKept s.retryRestores := by
  rw [State.retryRestores_eq]
  exact retryParts ..

theorem restoreAccess (s : State) (a : Nat) : s.HardKept (s.restoreAccess a).1 := by
  unfold State.restoreAccess
  generalize hZ : ({ s with hbm := Mem.clear s.hbm a 32 } : State) = zero
  have hZero : s.HardKept zero := by
    subst hZ
    exact ⟨rfl, rfl⟩
  have hWrite (l : List Byte) : s.HardKept (zero.hbmWrite a l) := ⟨hZero.hardNow, hZero.badAccess⟩
  clear hZ
  cases s.sliceOwner? (a / 2 ^ 32) with
  | none => exact hZero
  | some p =>
    dsimp only
    generalize (s.slices p).idxOf (a / 2 ^ 32) * 2 ^ 32 + a % 2 ^ 32 = addr
    split
    · split
      · exact hZero
      · split
        · exact refl s
        · exact hWrite _
    · exact hZero

end State.HardKept

/-- After a repair of an access in slice `sl`: restores are made again, and the slice's owner may be ready (R271). -/
def State.afterRepair (s : State) (sl : Nat) : State :=
  let s := s.retryRestores
  match s.sliceOwner? sl with | some p => s.tryReady p | none => s

theorem State.HardKept.afterRepair (s : State) (sl : Nat) : s.HardKept (s.afterRepair sl) := by
  unfold State.afterRepair
  extract_lets s1
  have hs1 : s.HardKept s1 := .retryRestores s
  clear_value s1
  cases s1.sliceOwner? sl with
  | none => exact hs1
  | some p => exact hs1.trans (.tryReady ..)

/-- A repaired row takes its accesses off the hard errors, and keeps none of them as bad. -/
theorem State.repairRow_spec (s : State) (accs : List Nat) (src : BitVec 24) :
    (s.repairRow accs src).hardNow = s.hardNow.filter (fun x => !accs.contains x.1.toNat) ∧
      (s.repairRow accs src).badAccess = s.badAccess := by
  unfold State.repairRow
  extract_lets s1 s2
  have hs2 : s2.hardNow = s.hardNow.filter (fun x => !accs.contains x.1.toNat) ∧ s2.badAccess = s.badAccess := by
    constructor
    · rw [State.raise_hardNow]
    · rw [State.raise_badAccess]
  clear_value s2
  have hRestored : s2.HardKept (accs.foldl (fun s a =>
      let (s, bad) := s.restoreAccess a
      if bad then
        match s.sliceOwner? (a / 2 ^ 32) with
        | some p => if (s.part p).image.isSome then s.partFatal p 18 src else s
        | none => s
      else s) s2) := by
    refine (State.HardKept.refl s2).foldl (fun x a => ?_) accs
    have hAccess := State.HardKept.restoreAccess x a
    generalize x.restoreAccess a = y at hAccess
    obtain ⟨s3, bad⟩ := y
    dsimp only at hAccess ⊢
    split
    · split
      · split
        · exact hAccess.trans (.of_ambient (.partFatal ..))
        · exact hAccess
      · exact hAccess
    · exact hAccess
  exact ⟨hRestored.hardNow.trans hs2.1, hRestored.badAccess.trans hs2.2⟩

/-- What firmware makes of a hard error before ready, by its rereads and its spare row (R271). -/
def State.repairHard (s : State) (acc : HbmAddr) (src : BitVec 24) (good spare : Bool) (row : List Nat) : State :=
  if good then
    { s with hardNow := s.hardNow.filter (fun x => !decide (x.1 = acc)), transients := s.transients ++ [acc] }
  else if acc.toNat / 2 ^ 32 = 70 then s.devFatal 4 src
  else if spare then s.repairRow row src
  else if acc.toNat / 2 ^ 32 < 62 then
    match s.sliceOwner? (acc.toNat / 2 ^ 32) with
    | some p => s.partFatal p 18 src
    | none => s
  else { s with hardNow := s.hardNow.filter (fun x => !decide (x.1 = acc)), badAccess := s.badAccess ++ [acc] }

section
variable {s : State} {a : HbmAddr} {rereads : List Bool} {spare : Bool} {rows : List HbmAddr}

theorem exec_repair (hExists : hbmExists a = true) (hHard : ∃ w, (accessOf a, w) ∈ s.hardNow) :
    exec (.hbmHardErrorRepair a rereads spare rows) s = .next
      ((s.repairHard (accessOf a) (s.srcCtrl (ctrlOf a)) (decide (3 ≤ rereads.length) && (rereads.take 3).all id) spare
        ((accessOf a :: (rows.filter hbmExists).map accessOf).map BitVec.toNat).eraseDups).afterRepair
          ((accessOf a).toNat / 2 ^ 32)) := by
  obtain ⟨w, hMem⟩ := hHard
  have hAny : ¬(s.hardNow.any fun x => decide (x.1 = accessOf a)) = false := by
    rw [Bool.not_eq_false]
    exact List.any_eq_true.mpr ⟨_, hMem, decide_eq_true rfl⟩
  have hExec : exec (.hbmHardErrorRepair a rereads spare rows) s = execHbmHardErrorRepair a rereads spare rows s := rfl
  rw [hExec, execHbmHardErrorRepair, if_pos hExists]
  dsimp only
  rw [if_neg hAny]
  rfl

theorem exec_repair_beyond (hNone : hbmExists a = false) :
    exec (.hbmHardErrorRepair a rereads spare rows) s = .fault (.noSuchHbmAddress a) :=
  if_neg (by rw [hNone]; exact Bool.false_ne_true)

end

theorem rereadsGood_iff (l : List Bool) :
    (decide (3 ≤ l.length) && (l.take 3).all id) = true ↔ 3 ≤ l.length ∧ (l.take 3).all id = true := by
  rw [Bool.and_eq_true, decide_eq_true_iff]

/-- A row that is repaired with its access is rid of it. -/
theorem State.repairHard_row {s : State} {acc : HbmAddr} (src : BitVec 24) {row : List Nat} (hRow : acc.toNat ∈ row)
    (hSlice : acc.toNat / 2 ^ 32 ≠ 70) : (∀ w, (acc, w) ∉ (s.repairHard acc src false true row).hardNow) ∧
      (s.repairHard acc src false true row).badAccess = s.badAccess := by
  have hRepair : s.repairHard acc src false true row = s.repairRow row src :=
    (if_neg Bool.false_ne_true).trans ((if_neg hSlice).trans (if_pos rfl))
  obtain ⟨hHard, hBad⟩ := s.repairRow_spec row src
  rw [hRepair]
  refine ⟨fun w hMem => ?_, hBad⟩
  rw [hHard] at hMem
  have hOut := (List.mem_filter.mp hMem).2
  rw [List.contains_iff_mem.mpr hRow] at hOut
  cases hOut

/-- Settles O35: a replay recovers its access, is tried once more or ends in a hard error that covers its unit; a hard error
before ready is settled by its rereads, its slice and its spare row, and what follows adds no hard error. -/
theorem hbmErrorsReplayAndRepair : Obligations.HbmErrorsReplayAndRepair := by
  unfold Obligations.HbmErrorsReplayAndRepair
  refine ⟨?_, ?_⟩
  · intro s a req user write k key owner run
    refine ⟨fun hBeyond good => exec_replay_beyond (hbmExists_of_le hBeyond) good, fun hLow hOut good => ?_,
      fun hLow hIn => ?_⟩
    · exact (exec_replay (hbmExists_of_lt hLow) good).trans
        (congrArg Outcome.next (if_neg (by rw [hOut]; exact Bool.false_ne_true)))
    · have hRun (good : Bool) : exec (run good) s = .next (s.hbmReplay a req user write good) :=
        (exec_replay (hbmExists_of_lt hLow) good).trans (congrArg Outcome.next (if_pos hIn))
      refine ⟨hRun true, fun hFresh => (hRun false).trans (congrArg Outcome.next (State.hbmReplay_first hFresh)),
        fun hTried => ?_⟩
      have hFails := (hRun false).trans (congrArg Outcome.next (State.hbmReplay_second hTried))
      obtain ⟨hCtrl, hHard, hTiles⟩ := (s.modCtrl (ctrlOf a) fun c => { c with
        tries := (s.ctrl (ctrlOf a)).otherTries (accessOf a, req, user, write) }).hardError_spec a req user write
      rw [State.modCtrl_ctrl_same] at hCtrl
      obtain ⟨hLogs, hKeeps⟩ := Ctrl.withHard_log { s.ctrl (ctrlOf a) with
        tries := (s.ctrl (ctrlOf a)).otherTries (accessOf a, req, user, write) } (accessOf a) req write
      rw [← hCtrl] at hLogs hKeeps
      exact ⟨_, hFails, congrArg Ctrl.hard hCtrl, congrArg Ctrl.logValid hCtrl, hLogs, hKeeps, State.hardAt_of_mem hHard,
        hTiles⟩
  · intro s a rereads spare rows acc done good
    refine ⟨fun hBeyond => exec_repair_beyond (hbmExists_of_le hBeyond), fun hLow hHard => ?_⟩
    have hRun := exec_repair (rereads := rereads) (spare := spare) (rows := rows) (hbmExists_of_lt hLow) hHard
    have hFails (hBad : ¬good) : (decide (3 ≤ rereads.length) && (rereads.take 3).all id) = false :=
      Bool.eq_false_iff.mpr fun h => hBad ((rereadsGood_iff rereads).mp h)
    refine ⟨fun hGood => ?_, fun hBad hDev => ?_, fun hBad hSpare hSlice => ?_, fun hBad hNoSpare p hImage hOwner => ?_,
      fun hBad hNoSpare hHigh hSlice => ?_⟩
    · rw [hRun, (rereadsGood_iff rereads).mpr hGood]
      rfl
    · rw [hRun, hFails hBad, State.repairHard, if_neg Bool.false_ne_true, if_pos hDev]
      rfl
    · have hRow : acc.toNat ∈ ((accessOf a :: (rows.filter hbmExists).map accessOf).map BitVec.toNat).eraseDups :=
        List.mem_eraseDups.mpr List.mem_cons_self
      rw [hFails hBad, hSpare] at hRun
      obtain ⟨hOut, hKept⟩ := State.repairHard_row (s := s) (s.srcCtrl (ctrlOf a)) hRow hSlice
      generalize State.repairHard s acc (s.srcCtrl (ctrlOf a)) false true _ = x at hRun hOut hKept
      have hAfter := State.HardKept.afterRepair x (acc.toNat / 2 ^ 32)
      rw [hSpare]
      exact ⟨_, hRun, fun w hMem => hOut w (hAfter.hardNow ▸ hMem), hAfter.badAccess.trans hKept⟩
    · have hNotDev : acc.toNat / 2 ^ 32 ≠ 70 := by omega
      rw [hRun, hFails hBad, hNoSpare, State.repairHard, if_neg Bool.false_ne_true, if_neg hNotDev,
        if_neg Bool.false_ne_true, if_pos hImage, hOwner]
      rfl
    · have hNotImage : ¬acc.toNat / 2 ^ 32 < 62 := by omega
      rw [hRun, hFails hBad, hNoSpare, State.repairHard, if_neg Bool.false_ne_true, if_neg hSlice,
        if_neg Bool.false_ne_true, if_neg hNotImage]
      rfl

end Sys2Proof.Machine
end

section
/-! ### Weight verify, repair and the periodic verify (R116, R217 to R226, R490, R510) -/

namespace Sys2Proof.Machine

open Host (Outcome)

/-! #### The control word -/

theorem Verify.write_start {v : Verify} {w : Word} (hStart : w.getLsbD 31 = true) (hIdle : v.busy = false) :
    v.write w = { v with
      compare := w.getLsbD 28, rec17 := w.getLsbD 27, role := w.extractLsb' 26 1, mac := w.extractLsb' 16 4
      done := v.done && !w.getLsbD 29
      busy := true, held := true, diffRows := 0, parRows := 0, any := false, err := false, firstRow := 0, diff := []
      run := { compare := w.getLsbD 28, rec17 := w.getLsbD 27, role := w.extractLsb' 26 1, mac := w.extractLsb' 16 4
               rstride := v.rstride, addr := v.addr } } := by
  unfold Verify.write
  dsimp only
  rw [hStart, hIdle]
  rfl

theorem Verify.write_fields {v : Verify} {w : Word} (hOff : w.getLsbD 31 = false ∨ v.busy = true) :
    v.write w = { v with
      compare := w.getLsbD 28, rec17 := w.getLsbD 27, role := w.extractLsb' 26 1, mac := w.extractLsb' 16 4
      done := v.done && !w.getLsbD 29 } := by
  have hNo : ¬(w.getLsbD 31 && !v.busy) = true := by
    rcases hOff with hOff | hOff
    · rw [hOff]
      exact Bool.false_ne_true
    · rw [hOff, Bool.not_true, Bool.and_false]
      exact Bool.false_ne_true
  exact if_neg hNo

theorem exec_verifyStart {s : State} {t : TileId} {w : Word} {v : Verify} (h : (s.tile t).verify.write w = v) :
    exec (.verifyStart t w) s = .next (s.modTile t fun tl => { tl with verify := v }) :=
  congrArg Outcome.next (State.modTile_congr (congrArg (fun v => { s.tile t with verify := v }) h))

/-! #### A held verify runs -/

theorem exec_verifyRun {s : State} {t : TileId} (hHeld : (s.tile t).verify.held = true) (hRest : (s.tile t).atRest = true)
    (hOn : s.dom (bandOf (clusterOf t)).val = .on)
    (hQuiet : ∀ p, s.tileOwner? t = some p → (s.part p).run.active = false ∧ (s.part p).armed = false ∧
      (s.part p).ready = false ∧ (s.part p).slackStopped = false) {ended : State}
    (hEnded : ended = s.modTile t fun tl => { tl with
      verify := { (s.tile t).verify with busy := false, held := false, done := true, err := true } }) :
    exec (.verifyRun t) s = .next (if s.sourceBad t (s.tile t).verify.run then
        (match s.tileOwner? t with | some p => ended.tryReady p | none => ended)
      else s.modTile t fun tl => { tl with verify := { (s.tile t).verify with held := false } }) := by
  subst hEnded
  have hExec : exec (.verifyRun t) s = execVerifyRun t s := rfl
  rw [hExec, execVerifyRun]
  dsimp only
  rw [State.modTile_tileOwner?]
  cases hOwner : s.tileOwner? t with
  | none => exact congrArg Outcome.next (if_pos ⟨hHeld, rfl, hRest, hOn⟩)
  | some p =>
    obtain ⟨hActive, hArmed, hReady, hStopped⟩ := hQuiet p hOwner
    refine congrArg Outcome.next (if_pos ⟨hHeld, ?_, hRest, hOn⟩)
    dsimp only
    rw [hActive, hArmed, hReady, hStopped]
    rfl

/-! #### The end of a verify -/

/-- What a finding's report keeps: the verify of tile `t` and its scratchpad, the bands, and the marks of the frames. -/
structure State.Reported (t : TileId) (s s' : State) : Prop where
  verify : (s'.tile t).verify = (s.tile t).verify
  sp : (s'.tile t).sp = (s.tile t).sp
  dict : s'.dict = s.dict
  bands : s'.bands = s.bands
  marked : ∀ p, (s'.part p).run.marked = (s.part p).run.marked

namespace State.Reported

theorem refl (t : TileId) (s : State) : Reported t s s := ⟨rfl, rfl, rfl, rfl, fun _ => rfl⟩

theorem trans {t : TileId} {a b c : State} (h : Reported t a b) (h' : Reported t b c) : Reported t a c :=
  ⟨h'.verify.trans h.verify, h'.sp.trans h.sp, h'.dict.trans h.dict, h'.bands.trans h.bands,
    fun p => (h'.marked p).trans (h.marked p)⟩

theorem modTile (t : TileId) (s : State) {f : Tile → Tile} (hf : ∀ x, (f x).verify = x.verify ∧ (f x).sp = x.sp) :
    Reported t s (s.modTile t f) := by
  obtain ⟨hVerify, hSp⟩ := hf (s.tile t)
  exact ⟨by rw [State.modTile_tile_same, hVerify], by rw [State.modTile_tile_same, hSp], rfl, rfl, fun _ => rfl⟩

theorem modPart (t : TileId) (s : State) (p : PartId) {f : Part → Part} (hf : ∀ x : Part, (f x).run.marked = x.run.marked) :
    Reported t s (s.modPart p f) := by
  refine ⟨rfl, rfl, rfl, rfl, fun q => ?_⟩
  by_cases hq : q = p
  · subst hq
    rw [State.modPart_part_same, hf]
  · rw [State.modPart_part_other _ _ hq]

theorem noteClass (t : TileId) (s : State) (p : PartId) (cls : BitVec 3) : Reported t s (s.noteClass p cls) := by
  unfold State.noteClass
  split
  · exact refl t s
  · refine modPart t s p ?_
    exact fun _ => rfl

theorem offer (t : TileId) (s : State) (p : PartId) (kind : Nat) (src : BitVec 24) (ts : Stamp) (ids : Ids) (fl : BitVec 8)
    (data : List Byte) : Reported t s (s.offer p kind src ts ids fl data) := by
  have hTraffic := s.trafficOnly_offer p kind src ts ids fl data
  have hTile : (s.offer p kind src ts ids fl data).tile t = s.tile t := hTraffic.proj (fun x => x.tile t)
  exact ⟨by rw [hTile], by rw [hTile], hTraffic.proj State.dict, hTraffic.proj State.bands, fun q => by
    rw [(hTraffic.part q).rest]⟩

theorem raise (t : TileId) (s : State) (code : BitVec 16) (cls : BitVec 3) (src : BitVec 24) (ids : Ids)
    (part : Option PartId) (detail : List Byte) : Reported t s (s.raise code cls src ids part detail) := by
  unfold State.raise
  extract_lets frame s1
  have hs1 : Reported t s s1 := ⟨rfl, rfl, rfl, rfl, fun _ => rfl⟩
  clear_value s1
  split
  · exact hs1
  next p =>
    extract_lets s2
    have hs2 : Reported t s s2 := hs1.trans (noteClass ..)
    clear_value s2
    split
    · exact hs2.trans (offer ..)
    · exact hs2

theorem shadowFinding (t : TileId) (s : State) (m : Nat) (phys : BitVec 1) (cols : List Nat) :
    Reported t s (s.shadowFinding t m phys cols) := by
  unfold State.shadowFinding
  cases s.tileOwner? t with
  | none => exact refl t s
  | some p =>
    refine modPart t s p ?_
    exact fun _ => rfl

theorem tryReady (t : TileId) (s : State) (p : PartId) : Reported t s (s.tryReady p) := by
  unfold State.tryReady
  split
  · have hRaise : Reported t s s.finishRaise := by
      unfold State.finishRaise
      split
      · exact ⟨rfl, rfl, rfl, rfl, fun _ => rfl⟩
      · exact refl t s
    refine hRaise.trans (modPart t _ p ?_)
    exact fun _ => rfl
  · exact refl t s

end State.Reported

/-- The result words of a verify that ends with findings `f` (R217, R220 to R222). -/
def Verify.ended (v : Verify) (f : Findings) : Verify :=
  { v with
    busy := false, held := false, done := true, err := false
    any := !(f.rows ++ (f.par.map fun x => x.1).eraseDups).isEmpty
    diffRows := BitVec.ofNat 9 f.rows.length, parRows := BitVec.ofNat 9 (f.par.map fun x => x.1).eraseDups.length
    firstRow := BitVec.ofNat 8 ((f.rows ++ (f.par.map fun x => x.1).eraseDups).foldl min
      ((f.rows ++ (f.par.map fun x => x.1).eraseDups).headD 0))
    diff := diffWords (f.cols.map fun x => x.2) }

theorem Verify.ended_any (v : Verify) (f : Findings) : (v.ended f).any = true ↔ f.rows ≠ [] ∨ f.par ≠ [] := by
  have hRows : (f.par.map fun x => x.1).eraseDups = [] ↔ f.par = [] := by
    constructor
    · intro h
      cases hPar : f.par with
      | nil => rfl
      | cons x l =>
        have hMem : x.1 ∈ (f.par.map fun x => x.1).eraseDups :=
          List.mem_eraseDups.mpr (List.mem_map.mpr ⟨x, by rw [hPar]; exact List.mem_cons_self, rfl⟩)
        rw [h] at hMem
        cases hMem
    · intro h
      rw [h]
      rfl
  change (!(f.rows ++ (f.par.map fun x => x.1).eraseDups).isEmpty) = true ↔ _
  rw [Bool.not_eq_true', Bool.eq_false_iff, ne_eq, List.isEmpty_iff, List.append_eq_nil_iff, hRows, not_and_or]

/-- The end of a verify writes its result words, and reports its findings. -/
theorem State.endVerify_reported (s : State) (t : TileId) (v : Verify) (f : Findings) :
    State.Reported t (s.modTile t fun tl => { tl with verify := v.ended f }) (s.endVerify t v f) := by
  unfold State.endVerify
  extract_lets m mc phys parRows found v1 s1 owner s2 s3 cols blind s4
  have hs2 : State.Reported t s1 s2 := by
    subst s2
    split
    · exact .refl t s1
    · refine State.Reported.trans (.modTile t s1 ?_) (.raise ..)
      exact fun _ => ⟨rfl, rfl⟩
  change State.Reported t s1 _
  clear_value s1 s2 owner v1
  split
  · split
    · exact hs2
    · have hs3 : State.Reported t s1 s3 := by
        subst s3
        split
        · exact hs2.trans (.raise ..)
        · exact hs2
      clear_value s3
      split
      · refine hs3.trans (.modPart t s3 _ ?_)
        exact fun _ => rfl
      · exact hs3
  · have hs4 : State.Reported t s1 s4 := hs2.trans (.shadowFinding ..)
    clear_value s4
    split
    · exact hs4
    · refine hs4.trans (.modTile t s4 ?_)
      exact fun _ => ⟨rfl, rfl⟩

/-- With no band of a partition ordered down, no order starts. -/
theorem State.startOrders_none {s : State} {p : PartId} (h : ∀ b ∈ s.bandsOf p, (s.band b).ordered = false) :
    s.startOrders p = s := by
  refine foldl_keeps_of_mem (P := fun x : State => x = s) _ rfl fun x b hb hx => ?_
  rw [hx]
  exact if_neg fun hOrdered => absurd ((h b hb).symm.trans hOrdered.2) Bool.false_ne_true

/-- What follows the end of a verify at the partition that owns the tile: ready, and the bands that waited (R217, R367). -/
def State.afterVerify (s : State) (t : TileId) : State :=
  match s.tileOwner? t with
  | some p => (s.tryReady p).startOrders p
  | none => s

theorem State.afterVerify_reported {s : State} {t : TileId}
    (hFree : ∀ p, s.tileOwner? t = some p → ∀ b ∈ s.bandsOf p, (s.band b).ordered = false) :
    State.Reported t s (s.afterVerify t) := by
  unfold State.afterVerify
  cases hOwner : s.tileOwner? t with
  | none => exact .refl t s
  | some p =>
    have hReady := State.Reported.tryReady t s p
    have hNone : (s.tryReady p).startOrders p = s.tryReady p := State.startOrders_none fun b hb => by
      rw [State.bandsOf_congr hReady.dict] at hb
      rw [State.band, hReady.bands]
      exact hFree p hOwner b hb
    dsimp only
    rw [hNone]
    exact hReady

theorem State.tileOwner?_congr {s s' : State} (h : s'.dict = s.dict) (t : TileId) : s'.tileOwner? t = s.tileOwner? t := by
  have hMask (p : PartId) : s'.clusterMask p = s.clusterMask p := by
    unfold State.clusterMask
    rw [State.enabled_congr h, State.layout_congr h]
  unfold State.tileOwner? State.owner?
  exact congrArg (fun f : PartId → Bool => allParts.find? f) (funext fun p => by rw [hMask])

/-- The bank that a verify reads. -/
def Tile.verifyBank (tl : Tile) (v : VerifyRun) : Bank :=
  if v.role = 0 then (tl.mac v.mac.toNat).active else (tl.mac v.mac.toNat).shadow

theorem exec_verifyEnd {s : State} {t : TileId} (par cols : List (Nat × Nat)) (hBusy : (s.tile t).verify.busy = true)
    (hRuns : (s.tile t).verify.held = false) : exec (.verifyEnd t par cols) s = .next ((s.endVerify t (s.tile t).verify
      (((s.tile t).verifyBank (s.tile t).verify.run).readBack (s.tile t).verify.run.compare
        (s.verifyRecord t (s.tile t).verify.run) par cols)).afterVerify t) :=
  congrArg Outcome.next (if_pos ⟨hBusy, hRuns⟩)

/-! #### Repairs before ready -/

/-- What a repair does, by why it is due (R116, R224, R510). -/
def State.repairs (s : State) (p : PartId) (t : TileId) (m : Nat) (why : RepairWhy) (c0 c1 r0 r1 : List Nat) (loc : Bool) :
    State :=
  match why with
  | .checksum => s.repairChecked p t m r0 r1 loc
  | .march => s.repairMacro p t m c0 c1 loc
  | .pair primary other found alone => s.repairPair p t m primary other found alone r0 r1 loc
  | .verify v0 v1 blind =>
    if v0.isEmpty && v1.isEmpty && !blind then s.reprogram p t m ((s.tile t).mac m).sourced
    else s.repairMacro p t m v0 v1 (!blind)
  | .rewrite banks => s.writeAgain p t m banks

theorem exec_weightRepair {s : State} {t : TileId} {m : MacroId} {c0 c1 : List (BitVec 8)} {loc : Bool} {p : PartId}
    {x : RepairDue} (hOwner : s.tileOwner? t = some p) (hLive : s.live = true) (hIdle : (s.part p).run.active = false)
    (hDue : ((s.part p).repairs.find? fun x => decide (x.key = macKey t m.val)) = some x)
    (hFree : s.repairWaits p ((s.tile t).mac m.val) x = false) {s1 : State}
    (h1 : s1 = s.modPart p fun pt => { pt with repairs := pt.repairs.erase x }) :
    exec (.weightRepair t m c0 c1 loc) s = .next ((s1.repairs p t m.val x.why (c0.map BitVec.toNat) (c1.map BitVec.toNat)
      (s1.readDiffs p ((s.tile t).mac m.val).bank0 ++ c0.map BitVec.toNat).eraseDups
      (s1.readDiffs p ((s.tile t).mac m.val).bank1 ++ c1.map BitVec.toNat).eraseDups loc).tryReady p) := by
  subst h1
  have hExec : exec (.weightRepair t m c0 c1 loc) s = execWeightRepair t m c0 c1 loc s := rfl
  rw [hExec, execWeightRepair, hOwner]
  dsimp only
  rw [hDue]
  exact congrArg Outcome.next (if_pos ⟨hLive, hIdle, hFree⟩)

theorem State.repairs_rows {s : State} {p : PartId} {t : TileId} {m : Nat} (v0 v1 : List Nat) (blind : Bool)
    (c0 c1 r0 r1 : List Nat) (loc : Bool) : s.repairs p t m (.verify v0 v1 blind) c0 c1 r0 r1 loc =
      if v0 = [] ∧ v1 = [] ∧ blind = false then s.reprogram p t m ((s.tile t).mac m).sourced
      else s.repairMacro p t m v0 v1 (!blind) := by
  refine ite_congr ?_ (fun _ => rfl) fun _ => rfl
  simp [List.isEmpty_iff, and_assoc]

theorem State.repairs_rewrite {s : State} {p : PartId} {t : TileId} {m : Nat} (banks : List (BitVec 1))
    (c0 c1 r0 r1 : List Nat) (loc : Bool) {s2 : State} (h2 : s2 = banks.foldl (fun s b => s.writeBank p t m b) s)
    {failed : List (BitVec 1)} (hFailed : failed = banks.filter fun b => !((s2.tile t).mac m).whole b) :
    s.repairs p t m (.rewrite banks) c0 c1 r0 r1 loc =
      if failed = [] ∨ (s2.part p).readmit = true then s2 else s2.retireMacro t m failed := by
  subst hFailed h2
  refine ite_congr ?_ (fun _ => rfl) fun _ => rfl
  rw [Bool.or_eq_true, List.isEmpty_iff]
  rfl

/-! #### The periodic verify -/

theorem exec_periodicVerify {s : State} {p : PartId} {t : TileId} (hLive : s.live = true)
    (hIdle : (s.part p).run.active = false) (hArmed : (s.part p).armed = false) (hReady : (s.part p).ready = false)
    (hStopped : (s.part p).slackStopped = false) (hOn : 0 < s.verifyNs)
    (hFrame : (s.part p).verifyFrame ≠ some (s.part p).frame)
    (hDue : (s.part p).verifyTile ≠ 0 ∨ (s.part p).verifyAt.toNat + s.verifyNs ≤ s.now.toNat)
    (hTile : (s.residentTiles p)[(s.part p).verifyTile]? = some t.val) (hBusy : (s.tile t).verify.busy = false)
    (hBand : s.dom (bandOf (clusterOf t)).val = .on) :
    exec (.periodicVerify p) s = .next ((((s.part p).residents.filter fun x => decide (x / 16 = t.val)).foldl
       (fun s x => s.verifyActive p t (x % 16)) (s.modPart p fun pt => { pt with
         verifyAt := if pt.verifyTile = 0 then s.now else pt.verifyAt
         verifyTile := if pt.verifyTile + 1 = (s.residentTiles p).length then 0 else pt.verifyTile + 1
         verifyFrame := some pt.frame })).tryReady p) := by
  have hDue : ((s.part p).verifyTile != 0 || decide ((s.part p).verifyAt.toNat + s.verifyNs ≤ s.now.toNat)) = true := by
    rw [Bool.or_eq_true, bne_iff_ne, decide_eq_true_iff]
    exact hDue
  have hFind : (List.finRange 512)[t.val]? = some t := by
    rw [List.getElem?_eq_getElem (by simp), List.getElem_finRange]
    rfl
  have hFree : ¬((s.tile t).verify.busy || s.dom (bandOf (clusterOf t)).val != .on) = true := by
    rw [hBusy, hBand]
    decide
  have hExec : exec (.periodicVerify p) s = execPeriodicVerify p s := rfl
  rw [hExec, execPeriodicVerify]
  dsimp only
  rw [if_pos ⟨hLive, hIdle, hArmed, hReady, hStopped, hOn, hDue, hFrame⟩, hTile]
  dsimp only
  rw [hFind]
  dsimp only
  rw [if_neg hFree, State.modPart_part_same]
  rfl

/-- Settles O36: the control word, the held verify and its end act on the verify of their tile; a condemned macro is
repaired by why its repair is due; and the periodic verify takes the tile whose turn it is. -/
theorem verifyAndRepairOfWeights : Obligations.VerifyAndRepairOfWeights := by
  unfold Obligations.VerifyAndRepairOfWeights
  refine ⟨?_, ?_, ?_⟩
  · intro s t v set
    refine ⟨fun w hStart hIdle => exec_verifyStart (Verify.write_start hStart hIdle),
      fun w hOff => exec_verifyStart (Verify.write_fields hOff), fun hHeld hRest hOn hQuiet => ?_, ?_⟩
    · exact exec_verifyRun hHeld hRest hOn hQuiet rfl
    · intro par cols hBusy hRuns hFree b f
      have hEnd := s.endVerify_reported t v f
      have hDict : (s.endVerify t v f).dict = s.dict := hEnd.dict
      have hAfter : State.Reported t (s.endVerify t v f) ((s.endVerify t v f).afterVerify t) :=
        State.afterVerify_reported fun p hOwner c hc => by
          rw [State.bandsOf_congr hDict] at hc
          rw [State.band, hEnd.bands]
          exact hFree p ((State.tileOwner?_congr hDict t).symm.trans hOwner) c hc
      have hAll := hEnd.trans hAfter
      have hVerify : (((s.endVerify t v f).afterVerify t).tile t).verify = v.ended f := by
        rw [hAll.verify, State.modTile_tile_same]
      exact ⟨_, exec_verifyEnd par cols hBusy hRuns, congrArg Verify.busy hVerify, congrArg Verify.done hVerify,
        congrArg Verify.err hVerify, congrArg Verify.diffRows hVerify, congrArg Verify.parRows hVerify,
        (Eq.congr_left (congrArg Verify.any hVerify)).trans (v.ended_any f),
        hAll.sp.trans (by rw [State.modTile_tile_same]), hAll.marked⟩
  · intro s t m c0 c1 loc p x hOwner hLive hIdle hDue hFree s1 n0 n1 mc r0 r1
    rw [exec_weightRepair (s1 := s1) hOwner hLive hIdle hDue hFree rfl]
    refine congrArg (fun y : State => Outcome.next (y.tryReady p)) ?_
    cases x.why with
    | checksum => rfl
    | march => rfl
    | pair primary other found alone => rfl
    | verify v0 v1 blind => exact State.repairs_rows ..
    | rewrite banks => exact State.repairs_rewrite banks _ _ _ _ _ rfl rfl
  · intro s p t hLive hIdle hArmed hReady hStopped hOn hFrame hDue hTile hBusy hBand
    exact exec_periodicVerify hLive hIdle hArmed hReady hStopped hOn hFrame hDue hTile hBusy hBand

end Sys2Proof.Machine
end

section
/-! ### Control records and transitions (R398, R402 to R411, R414, R415) -/

namespace Sys2Proof.Machine

open Host (Outcome)

/-! #### Partitions -/

/-- The digests and the sequence number of a partition's enrolment. -/
def Part.owner (x : Part) : BitVec 384 × BitVec 384 × BitVec 32 := (x.ownerRsa, x.ownerSlh, x.ownerSeq)

/-- A change that keeps a field of partitions keeps it in each of them. -/
theorem State.modPart_keeps {α : Type} (g : Part → α) (s : State) (p q : PartId) {f : Part → Part}
    (hf : ∀ x, g (f x) = g x) : g ((s.modPart p f).part q) = g (s.part q) := by
  by_cases hq : q = p
  · subst hq
    rw [State.modPart_part_same, hf]
  · rw [State.modPart_part_other _ _ hq]

/-- What a change makes hold of each partition holds of the partitions of a list after it. -/
theorem State.eachPart_holds {P : Part → Prop} {f : Part → Part} (hf : ∀ x, P (f x)) (q : PartId) (l : List PartId) :
    ∀ s : State, P (s.part q) ∨ q ∈ l → P ((s.each l fun s p => s.modPart p f).part q) := by
  induction l with
  | nil => exact fun s h => h.resolve_right (List.not_mem_nil)
  | cons p l ih =>
    refine fun s h => ih (s.modPart p f) ?_
    by_cases hq : q = p
    · subst hq
      left
      rw [State.modPart_part_same]
      exact hf _
    · rw [State.modPart_part_other _ _ hq]
      exact h.imp id fun hMem => (List.mem_cons.mp hMem).resolve_left hq

theorem State.abandonAll_enrolment (s : State) (p q : PartId) : ((s.abandonAll p).part q).owner = (s.part q).owner := by
  unfold State.abandonAll State.abandon
  extract_lets s1
  have hs1 : (s1.part q).owner = (s.part q).owner :=
    State.modPart_keeps Part.owner (s.dropModelKey p) p q fun x => by split <;> rfl
  clear_value s1
  split
  · exact hs1
  · refine (State.modPart_keeps Part.owner _ _ q fun _ => ?_).trans ((State.modPart_keeps Part.owner s1 p q fun _ => ?_).trans hs1)
    · rfl
    · rfl

/-! #### Records -/

section
variable {s : State} {p : PartId} {magic : Nat}

/-- The island has taken what stands in the download area. -/
def State.taken (s : State) (p : PartId) : State := s.modPart p fun pt => { pt with loadAsked := false }

theorem State.taken_keeps {α : Type} (g : Part → α) (hg : ∀ x : Part, g { x with loadAsked := false } = g x) (s : State)
    (p q : PartId) : g ((s.taken p).part q) = g (s.part q) := s.modPart_keeps g p q hg

theorem State.loadBusy_taken (s : State) (p : PartId) : (s.taken p).loadBusy p = s.loadBusy p := by
  have hAdm : ((s.taken p).part p).admission = (s.part p).admission := State.taken_keeps Part.admission (fun _ => rfl) s p p
  have hDue (q : PartId) : ((s.taken p).part q).enrolDue = (s.part q).enrolDue :=
    State.taken_keeps Part.enrolDue (fun _ => rfl) s p q
  unfold State.loadBusy
  simp only [hAdm, hDue]

/-- A record that the island takes while no admission runs is served. -/
theorem State.onRecord_serves (hMay : s.mayLoad p = true) (hFree : s.loadBusy p = false) (hMagic : s.img p 0 4 = magic)
    (serve : State → State) :
    s.onRecord p magic true serve = serve (s.taken p) := by
  unfold State.onRecord
  rw [if_pos ⟨hMay, hMagic, rfl⟩]
  have hBusy : (s.taken p).loadBusy p ≠ true := by
    rw [State.loadBusy_taken, hFree]
    exact Bool.false_ne_true
  exact if_neg hBusy

theorem State.mayLoad_transition (h : s.mayLoad p = true) : s.transition = false := by
  unfold State.mayLoad at h
  simp only [Bool.and_eq_true, Bool.not_eq_true'] at h
  exact h.1.1.1.1.2

end

/-- The enrolment that the record in an area asks for. -/
def State.askedEnrolment (s : State) (p : PartId) : Enrolment :=
  { rsa := (s.recKeys p).1, slh := (s.recKeys p).2, seq := BitVec.ofNat 32 (s.recSeq p), asker := p }

/-- An enrolment in hand is stored, and its record has its result. -/
theorem State.enrolNow_spec {s : State} {q : PartId} {x : Enrolment} (h : (s.part q).enrolDue = some x) :
    ((s.enrolNow q).part q).owner = (x.rsa, x.slh, x.seq) ∧ ((s.enrolNow q).part q).enrolDue = none ∧
      ((s.enrolNow q).part x.asker).result.status = 0 ∧ ((s.enrolNow q).part x.asker).result.stage = 9 := by
  have hEq : s.enrolNow q = ((((s.withdraw q).unload q).drawn).modPart q fun pt =>
      { pt with ownerRsa := x.rsa, ownerSlh := x.slh, ownerSeq := x.seq, enrolDue := none }).modPart x.asker
        fun pt => { pt with result := { recordResult 0 9 with loadNs := Config.freeWord s.freeCtr } } := by
    unfold State.enrolNow
    rw [h]
  rw [hEq]
  generalize ((s.withdraw q).unload q).drawn = y
  generalize hs1 : y.modPart q (fun pt => { pt with
    ownerRsa := x.rsa, ownerSlh := x.slh, ownerSeq := x.seq, enrolDue := none }) = s1
  have hOwner : (s1.part q).owner = (x.rsa, x.slh, x.seq) := by
    rw [← hs1, State.modPart_part_same]
    rfl
  have hDue : (s1.part q).enrolDue = none := by rw [← hs1, State.modPart_part_same]
  refine ⟨(s1.modPart_keeps Part.owner _ q fun _ => ?_).trans hOwner, (s1.modPart_keeps Part.enrolDue _ q fun _ => ?_).trans hDue,
    ?_, ?_⟩
  · rfl
  · rfl
  · rw [State.modPart_part_same]
    rfl
  · rw [State.modPart_part_same]
    rfl

/-- The enrolment that the record in an area asks for is in hand. -/
def State.enrolling (s : State) (p : PartId) : State :=
  (s.taken p).modPart (s.enrolled p) fun pt => { pt with enrolDue := some (s.askedEnrolment p) }

section
variable {s : State} {p : PartId}

theorem exec_enrolment (hMay : s.mayLoad p = true) (hFree : s.loadBusy p = false) (hMagic : s.img p 0 4 = 0x3145544A)
    (hOk : (s.taken p).enrolFault p = none)
    (hDue : (s.part (s.enrolled p)).enrolDue = none) (hImage : (s.part (s.enrolled p)).image = none) :
    exec (.enrolment p) s = .next ((s.enrolling p).enrolNow (s.enrolled p)) := by
  have hExec : exec (.enrolment p) s = execEnrolment p s := rfl
  rw [hExec, execEnrolment, State.onRecord_serves hMay hFree hMagic, hOk]
  refine congrArg Outcome.next ?_
  have hIdle : ¬ (((s.taken p).part (s.enrolled p)).enrolDue.isSome = true) := by
    rw [State.taken_keeps Part.enrolDue (fun _ => rfl), hDue]
    exact Bool.false_ne_true
  have hNone : ((s.enrolling p).part (s.enrolled p)).image.isNone = true := by
    have hKept : ((s.enrolling p).part (s.enrolled p)).image = ((s.taken p).part (s.enrolled p)).image :=
      State.modPart_keeps Part.image _ _ _ fun _ => rfl
    rw [hKept, State.taken_keeps Part.image (fun _ => rfl), hImage]
    rfl
  exact (if_neg hIdle).trans (if_pos hNone)

/-- The first two phases of a transition add its INTENT to the journal. -/
theorem State.beginTransition_journal (s : State) (p : PartId) (target : BitVec 3) (keys : BitVec 384 × BitVec 384) :
    (s.beginTransition p target keys).otp.journal = s.otp.journal ++ [{ target, complete := false, keys }] := by
  unfold State.beginTransition
  extract_lets _ _ island _ s1
  have hs1 : s1.otp.journal = s.otp.journal ++ [{ target, complete := false, keys }] := rfl
  clear_value s1
  refine (congrArg Otp.journal (State.Ambient.otp (s := s1) ?_)).trans hs1
  refine (State.Ambient.refl s1).foldl (fun x q => ?_) _
  extract_lets s2 s3
  have hs2 : x.Ambient s2 := ((State.Ambient.of_volatile (x.volatile_withdraw q)).trans
    (.of_volatile (State.volatile_stopFrame ..))).trans (.abandonAll ..)
  clear_value s2
  have hs3 : x.Ambient s3 := (hs2.trans (.unload ..)).trans (.leaveStop ..)
  clear_value s3
  exact hs3.trans (.modPart ..)

theorem exec_lifeCycle (hMay : s.mayLoad p = true) (hFree : s.loadBusy p = false) (hMagic : s.img p 0 4 = 0x314C544A)
    (hOk : (s.taken p).lifeFault p = none) (hKind : s.recKind p ≠ 8) :
    exec (.lifeCycleTransition p) s = .next ((s.taken p).beginTransition p
      (BitVec.ofNat 3 (s.recKind p)) (s.recKeys p)) := by
  have hExec : exec (.lifeCycleTransition p) s = execLifeCycleTransition p s := rfl
  have hMine : (s.recKind p != 8) = true := bne_iff_ne.mpr hKind
  rw [hExec, execLifeCycleTransition, if_neg (fun h => absurd (h.2.symm.trans (State.mayLoad_transition hMay)) Bool.noConfusion),
    hMine, State.onRecord_serves hMay hFree hMagic, hOk]
  rfl

theorem exec_debugUnlock (hMay : s.mayLoad p = true) (hFree : s.loadBusy p = false) (hMagic : s.img p 0 4 = 0x314C544A)
    (hOk : (s.taken p).lifeFault p = none) (hKind : s.recKind p = 8) :
    let s1 := s.taken p
    exec (.debugUnlock p) s =
      .next (({ s1 with island := { s1.island with debug := true } } : State).endRecord p (recordResult 0 9)) := by
  have hExec : exec (.debugUnlock p) s = execDebugUnlock p s := rfl
  have hMine : (s.recKind p == 8) = true := beq_iff_eq.mpr hKind
  rw [hExec, execDebugUnlock, hMine, State.onRecord_serves hMay hFree hMagic, hOk]

theorem exec_attestation (hMay : s.mayLoad p = true) (hFree : s.loadBusy p = false) (hMagic : s.img p 0 4 = 0x3141544A)
    (hOk : (s.taken p).attestFault p = none) :
    let s1 := s.taken p
    let s2 : State := { s1 with island := { s1.island with sram := { s1.island.sram with log := s1.measurements p } } }
    exec (.attestationRequest p) s =
      .next ((s2.deliver p 0 (s1.report p (s1.imgBytes p 16 32))).endRecord p (recordResult 0 9)) := by
  have hExec : exec (.attestationRequest p) s = execAttestationRequest p s := rfl
  rw [hExec, execAttestationRequest, State.onRecord_serves hMay hFree hMagic, hOk]

end

/-- A report carries the nonce of its request at offset 16. -/
theorem State.report_nonce (s : State) (p : PartId) {nonce : List Byte} (h : nonce.length = 32) :
    ((s.report p nonce).drop 16).take 32 = nonce := by
  have hCut (a : List Byte) (rest : List Byte) (ha : a.length = 16) : ((a ++ nonce ++ rest).drop 16).take 32 = nonce := by
    rw [List.append_assoc, ← ha, List.drop_left, ← h, List.take_left]
  unfold State.report
  extract_lets entries final flags head body
  have hHead : ∃ a rest, a.length = 16 ∧ head = a ++ nonce ++ rest := by
    refine ⟨leBytes 4 0x3152544A ++ leBytes 2 1 ++ [s.lcState.setWidth 8, BitVec.ofNat 8 flags] ++
      leBytes 4 s.otp.serial.toNat ++ leBytes 4 entries.length, leBytes 8 s.now.toNat ++
      [s.otp.fwSvn.setWidth 8, BitVec.ofNat 8 p.val] ++ List.replicate 6 0 ++ (final ++ List.replicate 48 0).take 48 ++
      (List.range 16).map fun i => (Store.get 0 s.otp.imgSvn i).setWidth 8, rfl, ?_⟩
    simp only [head, List.append_assoc]
  clear_value head
  obtain ⟨a, rest, hLen, rfl⟩ := hHead
  simp only [body, List.append_assoc]
  rw [← List.append_assoc]
  exact hCut a _ hLen

/-! #### The second half of a transition -/

/-- What HBM and the secured memories hold of the state before a transition: nothing. -/
structure State.Erased (s : State) : Prop where
  dict : s.flash.dict = []
  owner : ∀ q, (s.part q).owner = (0, 0, 0)

theorem State.Erased.withOtp {s : State} (h : s.Erased) (otp : Otp) : ({ s with otp := otp } : State).Erased := ⟨h.dict, h.owner⟩

theorem State.erase_erased (s : State) : s.erase.Erased := by
  unfold State.erase
  extract_lets seed tiles _ island _ _ s1
  have hs1 : s1.flash.dict = [] := rfl
  clear_value s1
  refine ⟨?_, fun q => State.eachPart_holds (P := fun x => x.owner = (0, 0, 0)) (fun _ => rfl) q allParts s1 (.inr (mem_allParts q))⟩
  exact foldl_keeps (P := fun x : State => x.flash.dict = []) allParts hs1 fun _ _ h => h

/-- A device reset keeps what is erased, and leaves banks without cells. -/
theorem State.devReset_erased {s : State} (h : s.Erased) (cause : BitVec 3) : (s.devReset cause).Erased ∧
    ∀ t m, (((s.devReset cause).tile t).mac m).bank1.cells = [] := by
  obtain ⟨-, hFlash, hParts⟩ := s.hbmOnly_cutDump
  have hPart (p : PartId) : s.cutDump.part p = s.part p := by rw [State.part, hParts, State.part]
  unfold State.devReset
  extract_lets powerOn cut old marked failmap engines clusters thermal island flash kept parts
  have hDict : marked.flash.dict = cut.flash.dict := by
    obtain ⟨a, b, hMarked⟩ := cut.endTrial_slots
    have hEq : marked = cut.endTrial := rfl
    rw [hEq, hMarked]
  have hTiles (t : TileId) : ({ kept with parts := parts } : State).tile t = (marked.tile t).fresh (marked.freeCtr + 1) :=
    Store.get_map_snd ({ epochSeed := marked.epochBase } : Tile) (fun x => x.fresh (marked.freeCtr + 1)) marked.tiles t.val
  have hParts' (p : PartId) : ({ kept with parts := parts } : State).part p = old.partAtReset p powerOn :=
    Store.get_allParts ({} : Part) (fun q => old.partAtReset q powerOn) p
  have hOld : old = s.cutDump := rfl
  refine ⟨⟨(hDict.trans (congrArg Flash.dict hFlash)).trans h.dict, fun q => ?_⟩, fun t m => ?_⟩
  · have hOwner : (old.partAtReset q powerOn).owner = ((old.abandonAll q).part q).owner := rfl
    rw [hParts', hOwner, State.abandonAll_enrolment, hOld, hPart]
    exact h.owner q
  · rw [hTiles, Tile.fresh_mac]
    rfl

/-- The warm reset that ends a transition. -/
theorem State.endTransition_cleared (s : State) : s.endTransition.Erased ∧ s.endTransition.startWord.cause = 1 ∧
    ∀ t, (s.endTransition.tile t).sp = [] ∧ ∀ m, ((s.endTransition.tile t).mac m).bank0.cells = [] ∧
      ((s.endTransition.tile t).mac m).bank1.cells = [] := by
  unfold State.endTransition
  extract_lets asker s1 s2
  have hs1 : ({ s1 with otp := s1.otp.complete } : State).Erased := s.erase_erased.withOtp _
  clear_value s1 asker
  obtain ⟨hErased, hBank1⟩ := State.devReset_erased hs1 1
  obtain ⟨⟨-, hCause, -, -, -, -, -, -, hTile, -⟩, -⟩ := ({ s1 with otp := s1.otp.complete } : State).devReset_spec 1
  have hs2 : s2.Erased ∧ s2.startWord.cause = 1 ∧ ∀ t, (s2.tile t).sp = [] ∧ ∀ m, ((s2.tile t).mac m).bank0.cells = [] ∧
      ((s2.tile t).mac m).bank1.cells = [] :=
    ⟨hErased, hCause, fun t => ⟨(hTile t).1, fun m => ⟨((hTile t).2.2 m).1, hBank1 t m⟩⟩⟩
  clear_value s2
  obtain ⟨hClear, hRest⟩ := hs2
  split
  next p =>
    have hEnd : (s2.endRecord p (recordResult 0 9)).Erased :=
      ⟨hClear.dict, fun q => (State.modPart_keeps Part.owner s2.drawn p q fun _ => by rfl).trans (hClear.owner q)⟩
    exact ⟨hEnd, hRest⟩
  · exact ⟨hClear, hRest⟩

theorem Otp.complete_done (o : Otp) : (o.complete.journal.any fun r => !r.complete) = false := by
  unfold Otp.complete
  split
  next hNone =>
    refine List.any_eq_false.mpr fun r hr => ?_
    exact List.find?_eq_none.mp hNone r hr
  next row _ =>
    refine List.any_eq_false.mpr fun r hr => ?_
    obtain ⟨x, -, rfl⟩ := List.mem_map.mp hr
    exact Bool.false_ne_true

theorem exec_transition {s : State} (p : PartId) (hPhase : s.phase = .service) (hPending : s.transition = true) :
    exec (.lifeCycleTransition p) s = .next s.endTransition := by
  have hExec : exec (.lifeCycleTransition p) s = execLifeCycleTransition p s := rfl
  rw [hExec, execLifeCycleTransition, if_pos ⟨hPhase, hPending⟩]

/-- Settles O39: a record that fails no check is served, and the second half of a transition erases, completes and resets. -/
theorem controlRecordsAndTransitions : Obligations.ControlRecordsAndTransitions := by
  unfold Obligations.ControlRecordsAndTransitions
  refine ⟨fun s p hMay hFree => ⟨fun hMagic hOk hDue hImage => ?_, fun hMagic hOk => ⟨fun hKind => ?_, fun hKind => ?_⟩,
    fun hMagic hOk => exec_attestation hMay hFree hMagic hOk, fun nonce h => s.report_nonce p h⟩, fun s p hPhase hPending => ?_⟩
  · obtain ⟨hOwner, hDone, hStatus, hStage⟩ := State.enrolNow_spec (q := s.enrolled p)
      (x := s.askedEnrolment p) (s := s.enrolling p) (by rw [State.enrolling, State.modPart_part_same])
    refine ⟨_, exec_enrolment hMay hFree hMagic hOk hDue hImage, congrArg Prod.fst hOwner,
      congrArg (fun x => x.2.1) hOwner, congrArg (fun x => x.2.2) hOwner, hDone, hStatus, hStage⟩
  · exact ⟨_, exec_lifeCycle hMay hFree hMagic hOk hKind, State.beginTransition_journal ..⟩
  · exact exec_debugUnlock hMay hFree hMagic hOk hKind
  · obtain ⟨-, hHbm, hOtp⟩ := s.endTransition_spec
    obtain ⟨hErased, hCause, hTiles⟩ := s.endTransition_cleared
    refine ⟨_, exec_transition p hPhase hPending, hHbm, hOtp, hCause, hErased.dict, hTiles, fun q => ?_, ?_⟩
    · have hOwner := hErased.owner q
      exact ⟨congrArg Prod.fst hOwner, congrArg (fun x => x.2.1) hOwner, congrArg (fun x => x.2.2) hOwner⟩
    · rw [State.transition, hOtp]
      exact s.otp.complete_done

end Sys2Proof.Machine
end

section
/-! ### The load of an image on a device with a retired tile (R195, R198, R201, R510) -/

namespace Sys2Proof.Machine

open Host (Outcome)

/-- An image without claims, with one section, which names tile 0. -/
def strandedImage : Image :=
  { sections := [{ ty := 1, variant := 0, sflags := 0, target := 0, offset := 0, length := 0, digest := [], iv := [], tag := [] }] }

/-- The admission of that image, past stage 8. -/
def strandedAdmission : Admission := { atStage8 := false, image := strandedImage, eligible := 1 }

/-- Partition 0 is in stage 9, and a repair has left tile 0 unserved since stage 8. -/
def strandedState : State :=
  { phase := .service, clusters := [(0, { unserved := 1 })]
    parts := [(0, { st := .loading, admission := some strandedAdmission, result := { stage := 9 } })] }

theorem strandedImage_claimed (l : List TileId) : strandedImage.claimed l = [] :=
  List.filter_eq_nil_iff.mpr fun t _ => by
    show ¬ ((0 : Nat).testBit (clusterOf t).val = true)
    rw [Nat.zero_testBit]
    exact Bool.false_ne_true

/-- The fill of an image that claims nothing is over at once. -/
theorem State.settleFill_unclaimed {im : Image} (h : ∀ l, im.claimed l = []) (s : State) (p : PartId) (cls fuel : Nat) :
    State.settleFill p im [] cls (fuel + 1) (s.fillAll p im [] cls) = (s, true) := by
  have hFill : s.fillAll p im [] cls = s := by
    rw [State.fillAll, h]
    rfl
  rw [hFill]
  dsimp only [State.settleFill]
  split
  · rfl
  next hFound =>
    rw [h, List.filter_nil, List.findSome?_nil] at hFound
    exact absurd hFound.symm (Option.some_ne_none _)

theorem State.failLoad_image (s : State) (p : PartId) (r : AdmResult) : ((s.failLoad p r).part p).image = none := by
  have hGone : ((s.unload p).part p).image = none := (s.unload_part p).1.1
  unfold State.failLoad
  generalize s.unload p = x at hGone ⊢
  rw [State.modPart_part_same]
  exact hGone

theorem State.startOrders_image (s : State) (p : PartId) : ((s.startOrders p).part p).image = (s.part p).image := by
  obtain ⟨pages, hPart⟩ := (s.bandsMove_start p).part p
  rw [hPart]

/-- The image of a partition after a command. -/
def imageAfter (p : PartId) (o : Outcome State Fault Refusal) : Option Image :=
  match o with | .next s => (s.part p).image | _ => none

/-- An image that cannot be served is not recorded (R198, R510). -/
theorem admissionLoad_unserved_image {s : State} {p : PartId} {a : Admission} {plain : Plain}
    (hAdm : (s.part p).admission = some a) (hPhase : s.phase = .service) (hPast : a.atStage8 = false)
    (hStage : (s.part p).result.stage = 9) (hOn : (s.part p).slackStopped = false)
    (hGood : a.image.sections.zipIdx.find? (fun x => s.stage9Hard p a.image x) = none)
    (hPlain : (s.copyImages p a.image).decrypt p a.image = .ok plain)
    (hSound : (s.copyImages p a.image).plainFault p a.image plain = none)
    (hShort : (s.copyImages p a.image).unservedShorts p a.image plain ≠ []) :
    imageAfter p (exec (.admissionLoad p) s) = none := by
  have hExec : exec (.admissionLoad p) s = execAdmissionLoad p s := rfl
  have hEnter : s.enterLoad p = s := by
    unfold State.enterLoad
    dsimp only
    rw [hAdm]
    exact if_neg fun h => h.2.1 hStage
  rw [hExec, execAdmissionLoad, hEnter]
  dsimp only
  rw [hAdm]
  dsimp only
  rw [if_pos ⟨hPhase, hPast, hStage, hOn⟩, hGood]
  dsimp only
  rw [hPlain]
  dsimp only
  rw [hSound]
  dsimp only
  rw [if_pos hShort]
  exact (State.startOrders_image ..).trans (State.failLoad_image ..)

/-- Refutes O38: stage 9 looks for unserved tiles once more, and an image that names one ends with NO_RESOURCES however its
fill would end. -/
theorem not_admissionStopsOrFills : ¬ Obligations.AdmissionStopsOrFills := by
  unfold Obligations.AdmissionStopsOrFills
  rintro ⟨_, _, hLoad, _⟩
  obtain ⟨s', hExec, _, _, hImage, _⟩ := hLoad strandedState strandedState 0 strandedAdmission [] rfl rfl rfl rfl rfl
    (by decide +kernel) (by decide +kernel) rfl (by decide +kernel) (State.settleFill_unclaimed strandedImage_claimed ..) (by decide)
  have hNone := admissionLoad_unserved_image (s := strandedState) (p := 0) (a := strandedAdmission) (plain := []) rfl rfl rfl
    rfl rfl (by decide +kernel) rfl (by decide +kernel) (by decide +kernel)
  have hSome : imageAfter 0 (exec (.admissionLoad 0) strandedState) = some strandedImage := (congrArg (imageAfter 0) hExec).trans hImage
  exact absurd (hSome.symm.trans hNone) (Option.some_ne_none _)

end Sys2Proof.Machine
end

section
/-! ### Arrivals at points and the boundary of a frame (R174, R175, R180, R308, R332) -/

namespace Sys2Proof.Machine

open Host (Outcome)

/-! #### Arrivals -/

/-- A point's waits are cancelled. -/
def State.pointCancelled (s : State) (p : PartId) (rid : Nat) : State :=
  s.modPart p fun pt => pt.modPoint rid fun x => { x with cancelled := true }

theorem State.pointCancelled_keeps {α : Type} (g : Part → α) (hg : ∀ (x : Part) l, g { x with points := l } = g x) (s : State)
    (p q : PartId) (rid : Nat) : g ((s.pointCancelled p rid).part q) = g (s.part q) :=
  s.modPart_keeps g p q fun x => hg x _

theorem State.pointCancelled_elapsed (s : State) (p : PartId) (rid : Nat) :
    (s.pointCancelled p rid).elapsed p = s.elapsed p := by
  have hTs : ((s.pointCancelled p rid).part p).run.ts = (s.part p).run.ts :=
    State.pointCancelled_keeps (fun x => x.run.ts) (fun _ _ => rfl) s p p rid
  unfold State.elapsed
  rw [hTs]
  rfl

section
variable {s : State} {p : PartId} {src : BitVec 8} {m : ArrivalMsg} {e : BitVec 128}

/-- An arrival at a group of one partition, which holds its point and is not stopped, is served there. -/
theorem State.eachInGroup_one (hGroup : s.groupParts m.group = [p]) (hOn : (s.part p).slackStopped = false)
    (hPoint : s.pointIn p m = some e) (msg : Msg) (f : State → PartId → State) : s.eachInGroup m msg f = f s p := by
  have hParts : ((s.groupParts m.group).filter fun q => (s.pointIn q m).isSome) = [p] := by
    rw [hGroup]
    refine List.filter_eq_self.mpr fun q hq => ?_
    rw [List.mem_singleton.mp hq, hPoint]
    rfl
  unfold State.eachInGroup
  dsimp only
  rw [hParts, if_neg (List.cons_ne_nil p [])]
  have hServed : s.capture (some p) false msg (fun x => f x p) = f s p :=
    s.capture_serves (fun q hq => by rw [← Option.some.inj hq]; exact hOn) false msg fun x => f x p
  exact hServed

theorem exec_deviceArrival (hLive : s.live = true) (hGroup : s.groupParts m.group = [p])
    (hOn : (s.part p).slackStopped = false) (hPoint : s.pointIn p m = some e) (hFrame : m.frame = (s.part p).frame)
    (hRoom : ((s.part p).point m.rid.toNat).remotes < hf e 103 96) :
    exec (.deviceArrivalReceive src m) s = .next (s.modPart p fun pt => pt.modPoint m.rid.toNat fun x =>
      { x.until_ (fun d => s.dieTime p d s.now + (s.part p).headlandTime 60) with
        remotes := x.remotes + 1, arrived := x.arrived ++ [src] }) := by
  have hExec : exec (.deviceArrivalReceive src m) s = execDeviceArrivalReceive src m s := rfl
  rw [hExec, execDeviceArrivalReceive, if_pos hLive, State.eachInGroup_one hGroup hOn hPoint, State.arriveDevice, hPoint]
  dsimp only
  rw [if_neg (not_not_intro hFrame), if_neg (Nat.not_le.mpr hRoom)]

/-- A cancel arrival from another device, for a point whose waits are not over. -/
theorem exec_cancelArrival (hLive : s.live = true) (hGroup : s.groupParts m.group = [p])
    (hOn : (s.part p).slackStopped = false) (hPoint : s.pointIn p m = some e) (hFrame : m.frame = (s.part p).frame)
    (hSrc : src ≠ s.devNum) (hOpen : s.pointDone p m.rid.toNat = false) :
    exec (.cancelArrivalReceive src m) s = .next (
      if s.waitsAt p m.rid.toNat && (s.part p).run.active then
        ((s.pointCancelled p m.rid.toNat).modPart p fun pt => { pt with run := { pt.run with cancelled := true } }).stopFrame p
          0xC 0xFFFF (s.elapsed p)
      else s.pointCancelled p m.rid.toNat) := by
  have hExec : exec (.cancelArrivalReceive src m) s = execCancelArrivalReceive src m s := rfl
  have hActive : ((s.pointCancelled p m.rid.toNat).part p).run.active = (s.part p).run.active :=
    State.pointCancelled_keeps (fun x => x.run.active) (fun _ _ => rfl) s p p _
  rw [hExec, execCancelArrivalReceive, if_pos ⟨hLive, hSrc⟩, State.eachInGroup_one hGroup hOn hPoint, State.cancelPoint, hPoint]
  dsimp only
  rw [if_neg (not_not_intro hFrame), if_neg (ne_true_of_eq_false hOpen), ← s.pointCancelled_elapsed p m.rid.toNat, ← hActive]
  rfl

end

/-! #### The boundary -/

section
variable {s : State} {p : PartId}

theorem exec_frameBoundary (hLive : s.live = true) (hIdle : (s.part p).run.active = false) (hArmed : (s.part p).armed = false) :
    exec (.frameBoundary p) s = .next (
      if (s.part p).rearmDue then (if s.slack.scanning then s else s.leaveHalted p)
      else if (s.part p).boundaryDue then (if (s.part p).layoutNew.isSome then s.changeLayout p else s.boundary p) else s) := by
  have hExec : exec (.frameBoundary p) s = execFrameBoundary p s := rfl
  have hMay : ¬ (s.live = false ∨ (s.part p).run.active = true ∨ (s.part p).armed = true) := by
    rw [hLive, hIdle, hArmed]
    decide
  rw [hExec, execFrameBoundary]
  dsimp only
  rw [if_neg hMay]

end

/-- Settles O42: an arrival acts at the one partition that holds its point, and the boundary takes the re-arm, the layout
or the commits, whichever is due. -/
theorem arrivalsAndBoundary : Obligations.ArrivalsAndBoundary := by
  unfold Obligations.ArrivalsAndBoundary
  refine ⟨fun s p src m e hLive hGroup hOn hPoint hFrame => ⟨fun hRoom => ?_, fun hSrc hOpen => ⟨fun hFree => ?_,
    fun hWaits hActive => ?_⟩⟩, fun s p => ⟨fun hLive hIdle hArmed => ⟨fun hRearm hDue hLayout => ?_, fun hRearm hScan => ?_,
    fun v hRearm hDue hLayout => ?_⟩, rfl⟩⟩
  · exact exec_deviceArrival hLive hGroup hOn hPoint hFrame hRoom
  · rw [exec_cancelArrival hLive hGroup hOn hPoint hFrame hSrc hOpen, hFree]
    rfl
  · rw [exec_cancelArrival hLive hGroup hOn hPoint hFrame hSrc hOpen, hWaits, hActive]
    rfl
  · rw [exec_frameBoundary hLive hIdle hArmed, hRearm, hDue, hLayout]
    rfl
  · rw [exec_frameBoundary hLive hIdle hArmed, hRearm, hScan]
    rfl
  · rw [exec_frameBoundary hLive hIdle hArmed, hRearm, hDue, hLayout]
    rfl

end Sys2Proof.Machine
end

section
/-! ### Frames at a port, datagrams and ICMPv6 messages (R11, R296, R299, R301, R303 to R306) -/

namespace Sys2Proof.Machine

open Host (Outcome)

/-! #### Fabric frames -/

/-- Time has reached a frame's receive stamp, and its port has counted its bytes. -/
def State.received (s : State) (p : PortId) (l : List Byte) (trx : Stamp) : State :=
  (s.reach trx).modPort p fun x => x.traffic (4 + leAt l 0 1 / 16 % 4) l.length

/-- Counting a frame leaves training and mode of every port. -/
theorem State.received_port (s : State) (p : PortId) (l : List Byte) (trx : Stamp) (q : PortId) :
    ((s.received p l trx).port q).st = (s.port q).st ∧ ((s.received p l trx).port q).eth = (s.port q).eth := by
  by_cases hq : q = p
  · subst hq
    rw [State.received, State.modPort_port_same]
    exact ⟨rfl, rfl⟩
  · rw [State.received, State.modPort_port_other _ _ hq]
    exact ⟨rfl, rfl⟩

/-- Length, CRC, type and class of a frame are right. -/
def frameWhole (l : List Byte) : Prop :=
  36 ≤ l.length ∧ frameSound l = true ∧ (classesOf (leAt l 1 1)).contains (leAt l 0 1 / 16 % 4) = true

theorem not_frameWhole_iff (l : List Byte) : ¬ frameWhole l ↔
    l.length < 36 ∨ frameSound l = false ∨ (classesOf (leAt l 1 1)).contains (leAt l 0 1 / 16 % 4) = false := by
  rw [frameWhole, not_and_or, not_and_or, Nat.not_le, Bool.not_eq_true, Bool.not_eq_true]

section
variable {s : State} {p : PortId} {l : List Byte} {trx : Stamp}

theorem exec_frame_bad (hLive : s.live = true) (hUp : (s.port p).st = 2) (hFabric : (s.port p).eth = false)
    (hBad : ¬ frameWhole l) : exec (.fabricFrameReceive p l trx) s =
      .next ((s.received p l trx).modEngine (engineOf p) fun x => { x with crcErr := satAdd x.crcErr 1 }) := by
  have hExec : exec (.fabricFrameReceive p l trx) s = execFabricFrameReceive p l trx s := rfl
  rw [hExec, execFabricFrameReceive, if_pos ⟨hLive, hUp, hFabric⟩]
  dsimp only
  rw [if_pos ((not_frameWhole_iff l).mp hBad)]
  rfl

theorem exec_frame_whole (hLive : s.live = true) (hUp : (s.port p).st = 2) (hFabric : (s.port p).eth = false)
    (hWhole : frameWhole l) : exec (.fabricFrameReceive p l trx) s =
      .next (if frameClean l = false then (s.received p l trx).discard else (s.received p l trx).routeFrame p l trx) := by
  have hExec : exec (.fabricFrameReceive p l trx) s = execFabricFrameReceive p l trx s := rfl
  rw [hExec, execFabricFrameReceive, if_pos ⟨hLive, hUp, hFabric⟩]
  dsimp only
  rw [if_neg fun h => (not_frameWhole_iff l).mpr h hWhole]
  rfl

end

section
variable {s : State} {p : PortId} {l : List Byte} {trx : Stamp} {word : Nat}

theorem State.routeFrame_spent (hWord : leAt l (12 + 2 * (leAt l 20 1 % 4)) 2 = word) (hHops : word % 256 = 0) :
    s.routeFrame p l trx = s.modEngine (engineOf p) fun x => { x with misroute := satAdd x.misroute 1 } := by
  subst hWord
  unfold State.routeFrame
  dsimp only
  rw [if_pos hHops]

theorem State.routeFrame_on (hWord : leAt l (12 + 2 * (leAt l 20 1 % 4)) 2 = word) (hHops : 1 < word % 256)
    (hUni : leAt l 9 1 % 2 = 0) (hUp : (s.port (oppositePort p)).st ≠ 0) (hFabric : (s.port (oppositePort p)).eth = false) :
    s.routeFrame p l trx =
      s.emitFrame (patch l (12 + 2 * (leAt l 20 1 % 4)) (leBytes 2 (word - 1))) (oppositePort p) trx 32 := by
  subst hWord
  have hOpen : ((s.port (oppositePort p)).st != 0 && !(s.port (oppositePort p)).eth) = true := by
    rw [hFabric, bne_iff_ne.mpr hUp]
    rfl
  unfold State.routeFrame
  dsimp only
  rw [if_neg (Nat.ne_of_gt (Nat.lt_trans Nat.zero_lt_one hHops)), if_pos hHops, if_neg (by rw [hUni]; decide), State.forwardFrame]
  dsimp only
  rw [if_pos hOpen]

theorem State.routeFrame_here (hWord : leAt l (12 + 2 * (leAt l 20 1 % 4)) 2 = word) (hHops : word % 256 = 1)
    (hLast : (if leAt l 20 1 % 4 < 3 then leAt (patch l (12 + 2 * (leAt l 20 1 % 4)) (leBytes 2 (word - 1)))
      (14 + 2 * (leAt l 20 1 % 4)) 2 else 0) % 256 = 0)
    (hDest : leAt (patch l (12 + 2 * (leAt l 20 1 % 4)) (leBytes 2 (word - 1))) 8 1 = s.devNum.toNat) :
    s.routeFrame p l trx = s.deliverFrame p (leAt l 0 1 / 16 % 4) (leAt l 1 1) (BitVec.ofNat 8 (leAt l 6 1))
      (BitVec.ofNat 64 (leAt l 24 8)) trx (slice l 32 (leAt l 2 2)) := by
  subst hWord
  unfold State.routeFrame
  dsimp only
  rw [if_neg (by rw [hHops]; decide), if_neg (by rw [hHops]; decide), if_neg (not_not_intro hLast), if_pos (.inr hDest)]

end

/-! #### Datagrams -/

section
variable {s : State} {link : Nat} {addr : BitVec 128} {port : BitVec 16} {l : List Byte} {u : UdpHead} {p : PartId} {slot : HostSlot}

/-- What makes a datagram one of its slot. -/
structure State.datagramOk (s : State) (link : Nat) (addr : BitVec 128) (port : BitVec 16) (l : List Byte) (u : UdpHead)
    (p : PartId) (slot : HostSlot) : Prop where
  udp : s.udpOk link u = true
  long : 20 ≤ l.length
  sound : datagramSound l = true
  registered : s.slotRegistered p slot.val = true
  pair : s.slotPair p slot.val = (addr.toNat, port.toNat)

theorem State.udpOk_false (h : u.plain = false ∨ u.sumOk = false ∨ u.dstPort.toNat ≠ s.dval 0x2320 0) : s.udpOk link u = false := by
  unfold State.udpOk
  rcases h with h | h | h
  · simp [h]
  · simp [h]
  · simp [h]

theorem exec_datagram (hReady : s.dictReady = true) (hUp : s.linkUp link = true) (hSlot : slot.val = leAt l 4 1 % 16)
    (hPart : p.val = leAt l 5 1 % 8) : exec (.transportDatagramReceive link addr port l u) s = .next (
      if s.udpOk link u = false ∨ l.length < 20 ∨ datagramSound l = false then s.discard
      else if s.slotRegistered p slot.val = false ∨ s.slotPair p slot.val ≠ (addr.toNat, port.toNat) then s.discard
      else s.takeDatagram p slot (BitVec.ofNat 32 (leAt l 8 4)) (leAt l 1 1) (slice l 16 (leAt l 2 2))) := by
  have hExec : exec (.transportDatagramReceive link addr port l u) s = execTransportDatagramReceive link addr port l u s := rfl
  obtain ⟨n, hn⟩ := slot
  obtain ⟨k, hk⟩ := p
  obtain rfl : n = leAt l 4 1 % 16 := hSlot
  obtain rfl : k = leAt l 5 1 % 8 := hPart
  rw [hExec, execTransportDatagramReceive, if_pos ⟨hReady, hUp⟩]

theorem exec_datagram_served (hReady : s.dictReady = true) (hUp : s.linkUp link = true) (hSlot : slot.val = leAt l 4 1 % 16)
    (hPart : p.val = leAt l 5 1 % 8) (hOk : s.datagramOk link addr port l u p slot) :
    exec (.transportDatagramReceive link addr port l u) s =
      .next (s.takeDatagram p slot (BitVec.ofNat 32 (leAt l 8 4)) (leAt l 1 1) (slice l 16 (leAt l 2 2))) := by
  obtain ⟨hUdp, hLong, hSound, hReg, hPair⟩ := hOk
  have hHead : ¬ (s.udpOk link u = false ∨ l.length < 20 ∨ datagramSound l = false) := by
    rw [hUdp, hSound]
    simp [hLong]
  have hKnown : ¬ (s.slotRegistered p slot.val = false ∨ s.slotPair p slot.val ≠ (addr.toNat, port.toNat)) := by
    rw [hReg]
    simp [hPair]
  rw [exec_datagram hReady hUp hSlot hPart, if_neg hHead, if_neg hKnown]

theorem exec_datagram_refused (hReady : s.dictReady = true) (hUp : s.linkUp link = true) (hSlot : slot.val = leAt l 4 1 % 16)
    (hPart : p.val = leAt l 5 1 % 8) (hBad : ¬ s.datagramOk link addr port l u p slot) :
    exec (.transportDatagramReceive link addr port l u) s = .next s.discard := by
  rw [exec_datagram hReady hUp hSlot hPart]
  by_cases hHead : s.udpOk link u = false ∨ l.length < 20 ∨ datagramSound l = false
  · rw [if_pos hHead]
  · rw [not_or, not_or, Bool.not_eq_false, Bool.not_eq_false, Nat.not_lt] at hHead
    have hUnknown : s.slotRegistered p slot.val = false ∨ s.slotPair p slot.val ≠ (addr.toNat, port.toNat) := by
      by_contra hKnown
      rw [not_or, Bool.not_eq_false, not_not] at hKnown
      exact hBad ⟨hHead.1, hHead.2.1, hHead.2.2, hKnown.1, hKnown.2⟩
    rw [if_pos hUnknown, ite_self]

end

/-! #### ICMPv6 -/

section
variable {s : State} {link : Nat} {src : BitVec 128} {mac : BitVec 48}

/-- The neighbour cache knows the sender of a message. -/
def State.learned (s : State) (link : Nat) (src : BitVec 128) (mac : BitVec 48) : State :=
  { s with
    neighbours := (s.neighbours.filter fun x => !(x.link == link && x.addr == src)) ++
      [{ link, addr := src, mac, seen := s.now, probed := none }]
    unresolved := s.unresolved.filter fun x => decide (x.1 ≠ src) }

theorem exec_icmp (hReady : s.dictReady = true) (hUp : s.linkUp link = true) (solicit : Option (BitVec 128)) (echo : Bool) :
    exec (.icmpv6Receive link src mac solicit echo) s = .next (
      if echo then s.emit (.link link) (.echoReply src)
      else match solicit with
        | none => s.learned link src mac
        | some target => if s.ownAddress link target then (s.learned link src mac).emit (.link link) (.neighbour src) else s) := by
  have hExec : exec (.icmpv6Receive link src mac solicit echo) s = execIcmpv6Receive link src mac solicit echo s := rfl
  rw [hExec, execIcmpv6Receive, if_pos ⟨hReady, hUp⟩]
  cases solicit with
  | none => rfl
  | some target => rfl

end

/-- Settles O45: each case of a frame, of a datagram and of an ICMPv6 message. -/
theorem framesAndDatagramsAreServed : Obligations.FramesAndDatagramsAreServed := by
  unfold Obligations.FramesAndDatagramsAreServed
  refine ⟨fun s p l trx hLive hUp hFabric => ?_, fun s link addr port l u p slot hReady hUp hSlot hPart => ?_,
    fun s link src mac solicit hReady hUp => ?_⟩
  · refine ⟨fun hBad => exec_frame_bad hLive hUp hFabric hBad, fun hWhole hClean => ?_, fun hWhole hClean => ?_⟩
    · rw [exec_frame_whole hLive hUp hFabric hWhole, if_pos hClean]
      rfl
    · have hRoute : exec (.fabricFrameReceive p l trx) s = .next ((s.received p l trx).routeFrame p l trx) := by
        rw [exec_frame_whole hLive hUp hFabric hWhole, if_neg (ne_false_of_eq_true hClean)]
      refine ⟨fun hHops hUni hOpen hEth => ?_, fun hHops hLast _ hDest => ?_, fun hHops => ?_⟩
      · obtain ⟨hSt, hMode⟩ := s.received_port p l trx (oppositePort p)
        exact hRoute.trans (congrArg Outcome.next (State.routeFrame_on rfl hHops hUni (hSt ▸ hOpen) (hMode.trans hEth)))
      · exact hRoute.trans (congrArg Outcome.next (State.routeFrame_here rfl hHops hLast hDest))
      · exact hRoute.trans (congrArg Outcome.next (State.routeFrame_spent rfl hHops))
  · refine ⟨State.udpOk_false, fun hBad => exec_datagram_refused hReady hUp hSlot hPart fun hOk => ?_, fun hSound hKnown => ?_⟩
    · exact hBad ⟨⟨hOk.udp, hOk.long, hOk.sound⟩, hOk.registered, hOk.pair⟩
    · obtain ⟨hUdp, hLong, hWhole⟩ := hSound
      exact exec_datagram_served hReady hUp hSlot hPart ⟨hUdp, hLong, hWhole, hKnown.1, hKnown.2⟩
  · exact ⟨exec_icmp hReady hUp solicit true, exec_icmp hReady hUp none false, fun target => exec_icmp hReady hUp (some target) false⟩

end Sys2Proof.Machine
end

section
/-! ### FoE files and firmware slots (R192, R339, R351, R399, R400) -/

namespace Sys2Proof.Machine

open Host (Outcome)

section
variable {s : State} {p : PartId} {ofs : Nat} {data : List Byte} {last : Bool}

/-! #### Images -/

theorem State.dictReady_service (hPhase : s.phase = .service) : s.dictReady = true := by
  unfold State.dictReady
  rw [hPhase]
  rfl

theorem State.foeFault_open (hPhase : s.phase = .service) (hOpen : s.coeOpen = true) {f : FoeFile} (hKnown : f ≠ .unknown)
    (hFile : f ≠ .firmware) : s.foeFault f 0 = none := by
  have hReady := State.dictReady_service hPhase
  have hServes : s.fileState f = true := by
    cases f with
    | firmware => exact absurd rfl hFile
    | unknown => exact absurd rfl hKnown
    | _ => exact Bool.and_eq_true_iff.mpr ⟨hOpen, hReady⟩
  unfold State.foeFault
  rw [if_neg (not_not_intro rfl), if_neg hKnown, if_pos hServes]

theorem State.foeFault_password (s : State) (f : FoeFile) {password : BitVec 32} (h : password ≠ 0) :
    s.foeFault f password = some 0x8002 := if_pos h

/-- The mailbox of a device in service is served. -/
theorem State.mailbox_served (hPhase : s.phase = .service) (hState : s.ecat.st ≠ .init) :
    ¬ (s.ecatServed = false ∨ s.ecat.st = .init) := by
  have hServed : s.ecatServed = true := by
    rw [State.ecatServed, State.dictReady_service hPhase, Bool.true_or]
  rw [hServed]
  simp [hState]

theorem State.coeOpen_not_init (h : s.coeOpen = true) : s.ecat.st ≠ .init := fun hInit => by
  unfold State.coeOpen at h
  rw [hInit] at h
  exact absurd h Bool.false_ne_true

theorem exec_foeWrite_password (hPhase : s.phase = .service) (hOpen : s.coeOpen = true) (f : FoeFile) {password : BitVec 32}
    (h : password ≠ 0) : exec (.foeWrite f password ofs data last) s = .next (s.emit .ecat (.foe 0x8002 [])) := by
  have hExec : exec (.foeWrite f password ofs data last) s = execFoeWrite f password ofs data last s := rfl
  rw [hExec]
  unfold execFoeWrite
  rw [if_neg (State.mailbox_served hPhase (State.coeOpen_not_init hOpen)), s.foeFault_password f h]
  rfl

theorem exec_foeWrite_image (hPhase : s.phase = .service) (hOpen : s.coeOpen = true)
    (hAllowed : bitN (s.dval 0x2110 0) p.val = true) (hFits : ofs + data.length ≤ 2 ^ 32) :
    exec (.foeWrite (.image p) 0 ofs data last) s = .next ((s.deliver p ofs data).emit .ecat (.foe 0 [])) := by
  have hExec : exec (.foeWrite (.image p) 0 ofs data last) s = execFoeWrite (.image p) 0 ofs data last s := rfl
  have hMay : ¬ (s.phase ≠ .service ∨ bitN (s.dval 0x2110 0) p.val = false) := by
    rw [hAllowed]
    simp [hPhase]
  rw [hExec, execFoeWrite, if_neg (State.mailbox_served hPhase (State.coeOpen_not_init hOpen)),
    State.foeFault_open hPhase hOpen (by exact fun h => by cases h) (by exact fun h => by cases h)]
  dsimp only
  rw [if_neg hMay, List.take_of_length_le (Nat.le_sub_of_add_le' hFits), if_neg (Nat.not_lt.mpr hFits)]
  rfl

theorem exec_foeRead_image (hPhase : s.phase = .service) (hOpen : s.coeOpen = true) (n : Nat) :
    exec (.foeRead (.image p) 0 ofs n) s = .next (s.foeImage p ofs n) := by
  have hExec : exec (.foeRead (.image p) 0 ofs n) s = execFoeRead (.image p) 0 ofs n s := rfl
  rw [hExec, execFoeRead, if_neg (State.mailbox_served hPhase (State.coeOpen_not_init hOpen)),
    State.foeFault_open hPhase hOpen (by exact fun h => by cases h) (by exact fun h => by cases h)]

theorem State.foeImage_good {n : Nat} (h : min n ((s.part p).dlLen - ofs) = 0 ∨
      s.rangeHard (downloadBase p + ofs) (min n ((s.part p).dlLen - ofs)) false = false) :
    s.foeImage p ofs n = s.emit .ecat (.foe 0 (s.imgBytes p ofs (min n ((s.part p).dlLen - ofs)))) := by
  unfold State.foeImage
  dsimp only
  refine (if_neg fun hBad => ?_).trans rfl
  rcases h with hNone | hGood
  · exact hBad.1 hNone
  · exact absurd (hGood.symm.trans hBad.2) Bool.false_ne_true

theorem exec_foeRead_admission (hPhase : s.phase = .service) (hOpen : s.coeOpen = true) (n : Nat) :
    exec (.foeRead (.admission p) 0 ofs n) s = .next (s.emit .ecat (.foe 0 (slice (s.part p).result.bytes ofs n))) := by
  have hExec : exec (.foeRead (.admission p) 0 ofs n) s = execFoeRead (.admission p) 0 ofs n s := rfl
  rw [hExec, execFoeRead, if_neg (State.mailbox_served hPhase (State.coeOpen_not_init hOpen)),
    State.foeFault_open hPhase hOpen (by exact fun h => by cases h) (by exact fun h => by cases h)]
  rfl

theorem State.abandon_admission (s : State) (p : PartId) : ((s.abandon p).part p).admission = none := by
  unfold State.abandon
  rw [State.modPart_part_same]
  split
  · rfl
  next hIdle =>
    rw [Bool.not_eq_true, Bool.or_eq_false_iff] at hIdle
    exact Option.isNone_iff_eq_none.mp (Option.isSome_eq_false_iff.mp hIdle.1)

theorem State.hbmOnly_deliver (s : State) (p : PartId) (ofs : Nat) (data : List Byte) : (s.abandon p).HbmOnly
    (((s.abandon p).hbmWrite (downloadBase p + ofs) data).keepHard s (downloadBase p + ofs) data.length) :=
  ((s.abandon p).hbmOnly_hbmWrite ..).trans (State.hbmOnly_keepHard ..)

/-- Bytes of an image end a running admission. -/
theorem State.deliver_admission (s : State) (p : PartId) (ofs : Nat) (data : List Byte) :
    ((s.deliver p ofs data).part p).admission = none := by
  have hKept := (s.hbmOnly_deliver p ofs data).proj fun x => x.part p
  unfold State.deliver
  extract_lets s1
  have hs1 : (s1.part p).admission = none := (congrArg Part.admission hKept).trans (s.abandon_admission p)
  clear_value s1
  exact (s1.modPart_keeps Part.admission p p fun _ => by rfl).trans hs1

/-- Bytes of an image land where no access is in hard error. -/
theorem State.deliver_hbm (hGood : s.hardIn (downloadBase p + ofs) data.length true = []) :
    (s.deliver p ofs data).hbm = Mem.writeBytes s.hbm (downloadBase p + ofs) data := by
  have hNone : ((s.abandon p).hbmWrite (downloadBase p + ofs) data).hardIn (downloadBase p + ofs) data.length true = [] := hGood
  unfold State.deliver State.keepHard
  rw [hNone]
  rfl

/-! #### Firmware -/

theorem exec_foeWrite_firmware (hPhase : s.phase = .service) (hBoot : s.ecat.st = .boot)
    (hFits : ofs + data.length ≤ 67108864) {base : FwSlot} (hBase : (if ofs = 0 then {} else s.spareSlot) = base) :
    exec (.foeWrite .firmware 0 ofs data last) s = .next ((s.putSpareSlot { base with
      mark := .written, ended := last, bytes := Mem.writeBytes base.bytes ofs data
      len := max base.len (ofs + data.length) }).emit .ecat (.foe 0 [])) := by
  have hExec : exec (.foeWrite .firmware 0 ofs data last) s = execFoeWrite .firmware 0 ofs data last s := rfl
  have hOpen : s.foeFault .firmware 0 = none := by
    unfold State.foeFault State.fileState
    rw [hBoot, hPhase]
    rfl
  have hFits' : ofs + data.length ≤ fwMax := hFits
  rw [hExec, execFoeWrite, if_neg (State.mailbox_served hPhase (by rw [hBoot]; exact fun h => by cases h)), hOpen]
  dsimp only
  rw [hBase, List.take_of_length_le (Nat.le_sub_of_add_le' hFits'), if_neg (Nat.not_lt.mpr hFits'), decide_eq_true hFits',
    Bool.and_true]
  rfl

theorem exec_slotCheck (hMark : s.spareSlot.mark = .written) (hEnded : s.spareSlot.ended = true) :
    exec .firmwareSlotCheck s = .next (s.putSpareSlot { s.spareSlot with
      mark := if s.fwGood s.spareSlot then .trial else .invalid, ended := false
      misr := (List.range 30).map fun d => (d, Config.misr (Config.sha384 (Mem.readBytes s.spareSlot.bytes 0 64)) d) }) := by
  have hExec : exec .firmwareSlotCheck s = execFirmwareSlotCheck s := rfl
  rw [hExec, execFirmwareSlotCheck]
  dsimp only
  rw [if_pos ⟨hMark, hEnded⟩]

/-- The booted slot is GOOD, newer than both slots were, and its trial is over; the other slot is as it was. -/
structure State.TrialPassed (s s' : State) : Prop where
  mark : s'.bootedSlot.mark = .good
  ended : s'.island.trial = false
  afterA : s.flash.slotA.order < s'.bootedSlot.order
  afterB : s.flash.slotB.order < s'.bootedSlot.order
  spare : s'.spareSlot = s.spareSlot

/-- The slot that a trial start booted, as its trial leaves it. -/
def State.passedSlot (s : State) : FwSlot :=
  { s.bootedSlot with mark := .good, order := 1 + max s.flash.slotA.order s.flash.slotB.order }

theorem State.putBootedSlot_passed (s : State) (otp : Otp) : s.TrialPassed { s with
    flash := if s.island.slot = 0 then { s.flash with slotA := s.passedSlot } else { s.flash with slotB := s.passedSlot }
    island := { s.island with trial := false }, otp := otp } := by
  have hA : s.flash.slotA.order < s.passedSlot.order := by
    rw [State.passedSlot, Nat.add_comm]
    exact Nat.lt_succ_of_le (Nat.le_max_left ..)
  have hB : s.flash.slotB.order < s.passedSlot.order := by
    rw [State.passedSlot, Nat.add_comm]
    exact Nat.lt_succ_of_le (Nat.le_max_right ..)
  have hBooted : ({ s with
      flash := if s.island.slot = 0 then { s.flash with slotA := s.passedSlot } else { s.flash with slotB := s.passedSlot }
      island := { s.island with trial := false }, otp := otp } : State).bootedSlot = s.passedSlot := by
    unfold State.bootedSlot
    by_cases h : s.island.slot = 0
    · simp only [if_pos h]
    · simp only [if_neg h]
  refine ⟨?_, rfl, ?_, ?_, ?_⟩
  · rw [hBooted]
    rfl
  · rw [hBooted]
    exact hA
  · rw [hBooted]
    exact hB
  · unfold State.spareSlot
    by_cases h : s.island.slot = 0
    · simp only [if_pos h]
    · simp only [if_neg h]

theorem exec_trialGood (hLive : s.live = true) (hTrial : s.island.trial = true) (hMark : s.bootedSlot.mark = .trial)
    (hFabric : s.fabricUp = true) : ∃ s', exec .firmwareTrialGood s = .next s' ∧ s.TrialPassed s' := by
  have hExec : exec .firmwareTrialGood s = execFirmwareTrialGood s := rfl
  rw [hExec, execFirmwareTrialGood]
  refine ⟨_, congrArg Outcome.next (if_pos ⟨hLive, hTrial, hMark, .inl hFabric⟩), s.putBootedSlot_passed _⟩

end

/-- Settles O52: what an FoE write or read does by its file, and what a check and a trial make of a slot. -/
theorem filesAndFirmwareSlots : Obligations.FilesAndFirmwareSlots := by
  unfold Obligations.FilesAndFirmwareSlots
  refine fun s => ⟨fun p ofs data last hPhase hOpen hAllowed hFits => ⟨?_, fun n => ⟨fun hGood => ?_, ?_⟩, fun f password h => ?_,
    State.deliver_hbm, s.deliver_admission p ofs data⟩, fun ofs data last hPhase hBoot hFits => ?_, exec_slotCheck,
    fun hLive hTrial hMark hFabric => ?_⟩
  · exact exec_foeWrite_image hPhase hOpen hAllowed hFits
  · exact (exec_foeRead_image hPhase hOpen n).trans (congrArg Outcome.next (State.foeImage_good hGood))
  · exact exec_foeRead_admission hPhase hOpen n
  · exact exec_foeWrite_password hPhase hOpen f h
  · exact exec_foeWrite_firmware hPhase hBoot hFits rfl
  · obtain ⟨s', hExec, hPassed⟩ := exec_trialGood hLive hTrial hMark hFabric
    exact ⟨s', hExec, hPassed.mark, hPassed.ended, hPassed.afterA, hPassed.afterB, hPassed.spare⟩

end Sys2Proof.Machine
end

section
/-! ### Samples, droop, heat and clocks (R361, R364, R373, R384 to R389, R501, R502) -/

namespace Sys2Proof.Machine

open Host (Outcome)

/-! #### Samples of power -/

theorem State.takeSample_length {s : State} (h : s.power.samples.length ≤ 4) :
    s.takeSample.power.samples.length = min 4 (s.power.samples.length + 1) := by
  have hDrop (l : List Nat) (x : Nat) (hl : l.length ≤ 4) : ((l ++ [x]).drop (l.length - 3)).length = min 4 (l.length + 1) := by
    rw [List.length_drop, List.length_append, List.length_singleton]
    omega
  exact hDrop _ _ h

/-! #### STEP -/

/-- The STEP output of a die. -/
def Pins.step (x : Pins) (d : DieId) : Bool := if d = 0 then x.stepA else x.stepB

theorem Pins.setStep_step (x : Pins) (d : DieId) (on : Bool) : (x.setStep d on).step d = on := by
  unfold Pins.step Pins.setStep
  by_cases h : d = 0
  · rw [if_pos h, if_pos h]
  · rw [if_neg h, if_neg h]

theorem exec_stepAssert {s : State} (hLive : s.live = true) (d : DieId) : ∃ s', exec (.stepAssert d) s = .next s' ∧
    (s'.pins.step d = true ↔ ∃ x ∈ (s.die d).phases, s.stepDue d x = true) ∧ s'.tiles = s.tiles := by
  have hExec : exec (.stepAssert d) s = execStepAssert d s := rfl
  rw [hExec, execStepAssert]
  refine ⟨_, congrArg Outcome.next (if_pos hLive), ?_, rfl⟩
  dsimp only
  rw [Pins.setStep_step, List.any_eq_true]

/-! #### Droop -/

section
variable {s : State} {d : DieId}

/-- The running partitions of a die are in fixed-frequency mode, and there is one. -/
theorem State.diePinned_iff (s : State) (d : DieId) :
    (((s.dieRunning d).any fun p => (s.part p).ff) && ((s.dieRunning d).all fun p => (s.part p).ff)) = true ↔
      s.dieRunning d ≠ [] ∧ ∀ p ∈ s.dieRunning d, (s.part p).ff = true := by
  rw [Bool.and_eq_true, List.any_eq_true, List.all_eq_true]
  refine ⟨fun h => ⟨fun hNone => ?_, h.2⟩, fun h => ⟨?_, h.2⟩⟩
  · obtain ⟨p, hp, -⟩ := h.1
    rw [hNone] at hp
    exact absurd hp List.not_mem_nil
  · obtain ⟨p, hp⟩ := List.exists_mem_of_ne_nil _ h.1
    exact ⟨p, hp, h.2 p hp⟩

/-- A stretch of a die has begun: its counters, and the frames in progress on the die. -/
def State.droopBegun (s : State) (d : DieId) : State :=
  (s.diePartitions d).foldl (fun s p => s.modPart p fun pt =>
    if pt.run.active then { pt with run := { pt.run with stretched := true } } else pt)
    (s.modDie d fun x => { x with
      stretching := true, stretchEvents := satAdd x.stretchEvents 1
      lastResort := if (s.dieRunning d).any (fun p => (s.part p).ff) then satAdd x.lastResort 1 else x.lastResort })

theorem exec_droop_pinned (hPinned : s.dieRunning d ≠ [] ∧ ∀ p ∈ s.dieRunning d, (s.part p).ff = true) :
    exec (.droopEvent d false) s = .next s := by
  have hExec : exec (.droopEvent d false) s = execDroopEvent d false s := rfl
  rw [hExec, execDroopEvent]
  exact congrArg Outcome.next (if_pos (.inr (.inr ⟨(s.diePinned_iff d).mpr hPinned, rfl⟩)))

theorem exec_droop {r : Bool} (hLive : s.live = true) (hIdle : (s.die d).stretching = false)
    (hReach : r = true ∨ ¬ (s.dieRunning d ≠ [] ∧ ∀ p ∈ s.dieRunning d, (s.part p).ff = true)) :
    exec (.droopEvent d r) s = .next (
      if s.alert.inCluster.any (fun x => decide (x.1 / 16 = d.val)) then
        { s with alert := { s.alert with suppressed := satAdd s.alert.suppressed 1 } }
      else s.droopBegun d) := by
  have hExec : exec (.droopEvent d r) s = execDroopEvent d r s := rfl
  rw [hExec, execDroopEvent]
  refine congrArg Outcome.next (if_neg ?_)
  rintro (hOff | hOn | ⟨hPinned, hSoft⟩)
  · exact absurd (hLive.symm.trans hOff) Bool.noConfusion
  · exact absurd (hIdle.symm.trans hOn) Bool.noConfusion
  · rcases hReach with hHard | hFree
    · exact absurd (hHard.symm.trans hSoft) Bool.noConfusion
    · exact hFree ((s.diePinned_iff d).mp hPinned)

theorem State.droopBegun_die (s : State) (d : DieId) : (s.droopBegun d).die d = { s.die d with
    stretching := true, stretchEvents := satAdd (s.die d).stretchEvents 1
    lastResort := if (s.dieRunning d).any (fun p => (s.part p).ff) then satAdd (s.die d).lastResort 1
      else (s.die d).lastResort } := by
  have hKept (x : State) (l : List PartId) (f : Part → Part) : (l.foldl (fun s p => s.modPart p f) x).die d = x.die d :=
    foldl_keeps (P := fun y : State => y.die d = x.die d) l rfl fun _ _ h => h
  rw [State.droopBegun, hKept, State.modDie_die_same]

theorem State.droopBegun_stretched (s : State) {d : DieId} {p : PartId} (hp : p ∈ s.diePartitions d)
    (hActive : (s.part p).run.active = true) : ((s.droopBegun d).part p).run.stretched = true := by
  have hTwice (x : Part) (f : Part → Part)
      (hf : f = fun pt => if pt.run.active then { pt with run := { pt.run with stretched := true } } else pt) : f (f x) = f x := by
    subst hf
    dsimp only
    by_cases h : x.run.active = true
    · rw [if_pos h, if_pos h]
    · rw [if_neg h, if_neg h]
  rw [State.droopBegun, State.foldl_modPart_part _ (fun x => hTwice x _ rfl), if_pos hp]
  exact (congrArg (fun x : Part => x.run.stretched) (if_pos hActive)).trans rfl

end

/-! #### Heat -/

section
variable {x : Thermal} {l : List (Option Int)} {limit : Nat} {now : Stamp} {i : Nat} {v : Int}

theorem Thermal.sample_throttle (h : hottest l = some (i, v)) : (x.sample l limit now).1.throttle =
    (decide (1050 ≤ v) || (x.throttle && !held100 (since x.coolSince now (decide (v < 1030))) now)) := by
  unfold Thermal.sample
  rw [h]

theorem Thermal.sample_throttle_hot (h : hottest l = some (i, v)) (hHot : 1050 ≤ v) :
    (x.sample l limit now).1.throttle = true := by
  rw [Thermal.sample_throttle h, decide_eq_true hHot, Bool.true_or]

theorem Thermal.sample_throttle_warm (h : hottest l = some (i, v)) (hWarm : 1030 ≤ v) (hOn : x.throttle = true) :
    (x.sample l limit now).1.throttle = true := by
  rw [Thermal.sample_throttle h, hOn, decide_eq_false (not_lt.mpr hWarm)]
  exact Bool.or_true _

theorem Thermal.sample_throttle_cool (h : hottest l = some (i, v)) (hCool : v < 1050) (hOff : x.throttle = false) :
    (x.sample l limit now).1.throttle = false := by
  rw [Thermal.sample_throttle h, hOff, decide_eq_false (not_le.mpr hCool)]
  rfl

end

/-- One unit's sensors are read. -/
def State.thermalRead (s : State) (x : Nat × List (Option Int)) : State :=
  let t : Thermal := Store.get {} s.thermal x.1
  let (t', due) := t.sample x.2 (if x.1 = 2 then 4 else 16) s.now
  let s := { s with thermal := Store.set s.thermal x.1 t' }
  let src := if x.1 = 2 then s.srcH 9 (t'.hot.toNat / 8)
    else srcNum s.devNum x.1 4 31 (t'.hot.toNat / 8)
  if due then s.raise 0x000E clsNone src noIds none [] else s

theorem State.thermalRead_thermal (s : State) (x : Nat × List (Option Int)) : (s.thermalRead x).now = s.now ∧
    (s.thermalRead x).thermal = Store.set s.thermal x.1
      ((Store.get {} s.thermal x.1 : Thermal).sample x.2 (if x.1 = 2 then 4 else 16) s.now).1 := by
  unfold State.thermalRead
  extract_lets t
  split
  next t' due hSample =>
    extract_lets s1 src
    have hs1 : s1.now = s.now ∧ s1.thermal = Store.set s.thermal x.1 t' := ⟨rfl, rfl⟩
    clear_value s1 src
    rw [hSample]
    split
    · have hRaise := s1.volatile_raise 0x000E clsNone src noIds none []
      exact ⟨(hRaise.proj State.now).trans hs1.1, (hRaise.proj State.thermal).trans hs1.2⟩
    · exact hs1

theorem exec_thermalSample {s : State} (hLive : s.live = true) (l : List (List (Option Int))) :
    exec (.thermalSample l) s = .next (((List.range 3).zip l).foldl State.thermalRead s) := by
  have hExec : exec (.thermalSample l) s = execThermalSample l s := rfl
  rw [hExec, execThermalSample, if_pos hLive]
  rfl

/-- Each of the three units is read once. -/
theorem State.thermalRead_all (s : State) {l : List (List (Option Int))} (hl : l.length = 3) {i : Nat} (hi : i < 3) :
    (Store.get {} (((List.range 3).zip l).foldl State.thermalRead s).thermal i : Thermal) =
      ((Store.get {} s.thermal i : Thermal).sample (l.getD i []) (if i = 2 then 4 else 16) s.now).1 := by
  obtain ⟨a, b, c, rfl⟩ := List.length_eq_three.mp hl
  have hRange : (List.range 3).zip [a, b, c] = [(0, a), (1, b), (2, c)] := rfl
  obtain ⟨hNow0, hRead0⟩ := s.thermalRead_thermal (0, a)
  obtain ⟨hNow1, hRead1⟩ := (s.thermalRead (0, a)).thermalRead_thermal (1, b)
  obtain ⟨-, hRead2⟩ := ((s.thermalRead (0, a)).thermalRead (1, b)).thermalRead_thermal (2, c)
  rw [hRange, List.foldl_cons, List.foldl_cons, List.foldl_cons, List.foldl_nil, hRead2, hNow1, hRead1, hNow0, hRead0]
  have hCases : i = 0 ∨ i = 1 ∨ i = 2 := by omega
  rcases hCases with rfl | rfl | rfl
  · simp only [Store.get_set]
    rfl
  · simp only [Store.get_set]
    rfl
  · simp only [Store.get_set]
    rfl

/-! #### Fatal faults of heat and clocks -/

theorem State.opticsOff_thermal (s : State) : s.opticsOff.thermal = s.thermal := by
  unfold State.opticsOff
  extract_lets w
  have hw : w.thermal = s.thermal := ((State.Volatile.refl s).foldl State.volatile_engineDark _).proj State.thermal
  clear_value w
  exact hw

theorem State.devFatalNow_thermal (s : State) (detail : BitVec 8) (src : BitVec 24) :
    (s.devFatalNow detail src).thermal = s.thermal := by
  unfold State.devFatalNow
  extract_lets s1 alert pins s2 parts s3 dark
  have hs1 : s1.thermal = s.thermal := ((s.volatile_haltAll 0xE).trans (State.volatile_raise ..)).proj State.thermal
  clear_value s1
  have hs2 : s2.thermal = s.thermal := hs1
  clear_value s2 parts
  have hs3 : s3.thermal = s.thermal := by
    have hDump := (s2.dumpOnly_writeDump 5 parts src detail (decide (detail = 1 ∨ detail = 2))).1.proj State.thermal
    have hMail := ((s2.writeDump 5 parts src detail (decide (detail = 1 ∨ detail = 2))).volatile_emergency src).proj State.thermal
    exact hMail.trans (hDump.trans hs2)
  clear_value s3
  have hDark : dark.thermal = s3.thermal := s3.opticsOff_thermal
  clear_value dark
  exact hDark.trans hs3

theorem State.cutScan_thermal (s : State) : s.cutScan.thermal = s.thermal := by
  unfold State.cutScan
  split
  · extract_lets s1 slack
    have hs1 : s1.thermal = s.thermal :=
      foldl_keeps (P := fun x : State => x.thermal = s.thermal) _ rfl fun x p h => by
        obtain ⟨m, w, b, hShape⟩ := x.writeCapture_shape p false
        rw [hShape]
        exact h
    clear_value s1
    exact hs1
  · rfl

theorem exec_thermalTrip {s : State} (hRuns : s.running = true) (i : Fin 3) : ∃ s', exec (.thermalTrip i) s = .next s' ∧
    s'.phase = .fatal ∧ s'.alert.fatal = true ∧ (Store.get {} s'.thermal i.val : Thermal).tripped = true := by
  have hExec : exec (.thermalTrip i) s = execThermalTrip i s := rfl
  rw [hExec, execThermalTrip]
  refine ⟨_, congrArg Outcome.next (if_pos hRuns), ?_⟩
  extract_lets t s1 src
  have hs1 : (Store.get {} s1.thermal i.val : Thermal).tripped = true :=
    (congrArg Thermal.tripped (Store.get_set_same ..)).trans rfl
  clear_value s1 src
  obtain ⟨hPhase, hFatal, -⟩ := s1.cutScan.cutDump.devFatalNow_spec 2 src
  refine ⟨hPhase, hFatal, ?_⟩
  rw [State.devFatalNow_thermal, s1.cutScan.hbmOnly_cutDump.1.proj State.thermal, State.cutScan_thermal]
  exact hs1

theorem exec_pllLockLoss {s : State} (hRuns : s.running = true) (i : Fin 3) : ∃ s', exec (.pllLockLoss i) s = .next s' ∧
    s'.phase = .fatal ∧ s'.alert.fatal = true := by
  have hExec : exec (.pllLockLoss i) s = execPllLockLoss i s := rfl
  rw [hExec, execPllLockLoss]
  refine ⟨_, congrArg Outcome.next (if_pos hRuns), ?_⟩
  extract_lets c c' src
  obtain ⟨hPhase, hFatal, -⟩ := State.devFatalNow_spec
    ((({ s with rootClk := c' } : State).cutScan.cutDump.each (List.finRange 16) State.dropDrain)) 1 src
  exact ⟨hPhase, hFatal⟩

/-- Settles O54: what each sensor, droop event, trip and clock does. -/
theorem sensorsDroopHeatAndClocks : Obligations.SensorsDroopHeatAndClocks := by
  unfold Obligations.SensorsDroopHeatAndClocks
  refine fun s => ⟨fun hLive => ⟨State.takeSample_length, fun l => congrArg Outcome.next (if_pos hLive),
    fun l => congrArg Outcome.next (if_pos hLive), exec_stepAssert hLive, fun d r hIdle => ⟨exec_droop_pinned, fun hReach => ?_⟩,
    fun l hl => ⟨_, exec_thermalSample hLive l, fun i hi => s.thermalRead_all hl hi⟩⟩,
    fun x l limit now i v h => ⟨Thermal.sample_throttle_hot h, Thermal.sample_throttle_warm h, Thermal.sample_throttle_cool h⟩,
    fun d n => rfl, fun hRuns i => ⟨exec_thermalTrip hRuns i, exec_pllLockLoss hRuns i⟩, fun ppm => ⟨rfl, fun hLow hHigh => ?_⟩⟩
  · refine ⟨fun hHold => ?_, fun hFree => ⟨s.droopBegun d, ?_, ?_⟩⟩
    · obtain ⟨x, hx, hDie⟩ := hHold
      rw [exec_droop hLive hIdle hReach, if_pos (List.any_eq_true.mpr ⟨x, hx, decide_eq_true hDie⟩)]
    · rw [exec_droop hLive hIdle hReach, if_neg]
      rw [List.any_eq_true]
      rintro ⟨x, hx, hDie⟩
      exact hFree x hx (of_decide_eq_true hDie)
    · have hDie := s.droopBegun_die d
      refine ⟨congrArg Die.stretching hDie, congrArg Die.stretchEvents hDie, (congrArg Die.lastResort hDie).trans ?_,
        fun p hp hActive => s.droopBegun_stretched hp hActive⟩
      exact if_congr List.any_eq_true rfl rfl
  · exact congrArg Outcome.next (if_pos ⟨hLow, hHigh⟩)

end Sys2Proof.Machine
end

section
/-! ### Dictionary requests: writes, reads, lists and SDO information (R330, R334, R336, R341 to R345, R347) -/

namespace Sys2Proof.Machine

open Host (Outcome)

/-! #### The parts of a write -/

theorem mem_subsOf {index sub : Nat} (h : sub ∈ subsOf index) : sub < 256 := by
  have hRange := List.mem_range.mp (List.mem_filter.mp h).1
  omega

theorem cutData_keys (index : Nat) : ∀ (subs : List Nat) (l : List Byte), ∀ x ∈ cutData index subs l, x.1 ∈ subs
  | [], _, x, hx => absurd hx List.not_mem_nil
  | [sub], l, x, hx => by
    rw [List.mem_singleton.mp hx]
    exact List.mem_singleton_self sub
  | sub :: next :: subs, l, x, hx => by
    rcases List.mem_cons.mp hx with rfl | hRest
    · exact List.mem_cons_self
    · exact List.mem_cons_of_mem _ (cutData_keys index (next :: subs) _ x hRest)

theorem writeParts_keys {index sub : Nat} (hSub : sub < 256) (c : Bool) (data : List Byte) :
    ∀ x ∈ writeParts index sub c data, x.1 < 256 := by
  unfold writeParts
  split
  · exact fun x hx => mem_subsOf (cutData_keys index (subsOf index) data x hx)
  · intro x hx
    rw [List.mem_singleton.mp hx]
    exact hSub

/-- No communication entry is a commit object. -/
theorem dkey_comm_ne {index sub : Nat} (hComm : index < 0x2000) (hSub : sub < 256) : dkey index sub ≠ commitKey (areaOf index) := by
  have hArea : areaOf index = .device := if_neg (by omega)
  rw [hArea]
  show index * 256 + sub ≠ 0x2010 * 256 + 1
  omega

/-! #### The device number through a commit -/

theorem State.foldl_devNum {α : Type} (s : State) {f : State → α → State} (hf : ∀ (x : State) a, (f x a).devNum = x.devNum)
    (l : List α) : (l.foldl f s).devNum = s.devNum :=
  foldl_keeps (P := fun x : State => x.devNum = s.devNum) l rfl fun x a h => (hf x a).trans h

theorem State.modArea_devNum (s : State) (a : AreaId) (f : Area → Area) : (s.modArea a f).devNum = s.devNum := by
  cases a <;> rfl

theorem State.each_devNum {α : Type} (s : State) {f : State → α → State} (hf : ∀ (x : State) a, (f x a).devNum = x.devNum)
    (l : List α) : (s.each l f).devNum = s.devNum := s.foldl_devNum hf l

theorem State.owePages_devNum (s : State) (b : BandId) (all : Bool) : (s.owePages b all).devNum = s.devNum := by
  refine s.each_devNum ?_ _
  exact fun _ _ => rfl

theorem State.bandOff_devNum (s : State) (b : BandId) : (s.bandOff b).devNum = s.devNum := by
  unfold State.bandOff
  extract_lets s1 s2 s3
  have hs1 : s1.devNum = s.devNum := s.owePages_devNum b true
  clear_value s1
  have hs2 : s2.devNum = s.devNum := by
    refine (s1.each_devNum ?_ _).trans hs1
    exact fun _ _ => rfl
  clear_value s2
  have hs3 : s3.devNum = s.devNum := by
    refine (s2.each_devNum ?_ _).trans hs2
    exact fun _ _ => rfl
  clear_value s3
  exact hs3

theorem State.bandRet_devNum (s : State) (b : BandId) : (s.bandRet b).devNum = s.devNum := by
  unfold State.bandRet
  extract_lets s1 s2 s3
  have hs1 : s1.devNum = s.devNum := s.owePages_devNum b false
  clear_value s1
  have hs2 : s2.devNum = s.devNum := by
    refine (s1.each_devNum ?_ _).trans hs1
    exact fun _ _ => rfl
  clear_value s2
  have hs3 : s3.devNum = s.devNum := by
    refine (s2.each_devNum ?_ _).trans hs2
    exact fun _ _ => rfl
  clear_value s3
  exact hs3

theorem State.bandDown_devNum (s : State) (b : BandId) : (s.bandDown b).devNum = s.devNum := by
  unfold State.bandDown
  split
  · exact s.bandRet_devNum b
  · exact s.bandOff_devNum b

theorem State.bandOrder_devNum (s : State) (b : BandId) (toRet : Bool) : (s.bandOrder b toRet).devNum = s.devNum := by
  unfold State.bandOrder
  split
  · extract_lets s1 s2
    have hs1 : s1.devNum = s.devNum := rfl
    have hs2 : s2.devNum = s.devNum := rfl
    clear_value s1 s2
    split
    · split
      · exact (s2.bandDown_devNum b).trans hs2
      · exact hs2
    · exact hs1
  · split
    · exact s.bandDown_devNum b
    · rfl

theorem State.retBands_devNum (s : State) (p : PartId) : (s.retBands p).devNum = s.devNum := by
  refine s.foldl_devNum (fun x b => ?_) _
  split
  · unfold State.orderBand
    split
    · exact x.bandOrder_devNum b true
    · rfl
  · rfl

theorem State.regroup_devNum (s : State) : s.regroup.devNum = s.devNum := by
  refine s.foldl_devNum (fun x g => ?_) _
  unfold State.regroupOne
  extract_lets members leader role g0 g1 g2
  clear_value g2
  split
  · rfl
  · rfl

theorem State.fixPair_devNum (s : State) (p : PartId) : (s.fixPair p).devNum = s.devNum := by
  unfold State.fixPair
  extract_lets pt k cur x keep s1
  have hs1 : s1.devNum = s.devNum := by
    subst s1
    split <;> rfl
  clear_value s1
  exact hs1

theorem State.refreshEligible_devNum (s : State) (p : PartId) : (s.refreshEligible p).devNum = s.devNum := by
  unfold State.refreshEligible
  split <;> rfl

theorem State.viewEffects_devNum (s : State) (p : PartId) (set : List (Nat × Nat)) :
    (s.viewEffects p set).devNum = s.devNum := by
  unfold State.viewEffects
  extract_lets s1 s2 s3
  have hs1 : s1.devNum = s.devNum := by
    subst s1
    split
    · exact (State.fixPair_devNum ..).trans (State.refreshEligible_devNum ..)
    · rfl
  clear_value s1
  have hs2 : s2.devNum = s.devNum := by
    subst s2
    split
    · exact s1.regroup_devNum.trans hs1
    · exact hs1
  clear_value s2
  have hs3 : s3.devNum = s.devNum := by
    subst s3
    split
    · exact hs2
    · exact hs2
  clear_value s3
  split
  · exact hs3
  · exact hs3

theorem State.applyPending_devNum (s : State) (p : PartId) : (s.applyPending p).devNum = s.devNum := by
  have hForce (x : State) (l : List (Nat × Nat)) : (x.putInForce l).devNum = x.devNum := by
    refine x.foldl_devNum (fun y e => ?_) _
    split
    · split
      · dsimp only
        split <;> rfl
      · rfl
    · rfl
  unfold State.applyPending
  extract_lets q
  generalize hs1 : s.modPart p (fun pt => { pt with area := { pt.area with queue := [] } }) = s1
  have hDev : s1.devNum = s.devNum := by
    rw [← hs1]
    rfl
  refine (s1.each_devNum (fun x c => ?_) q).trans hDev
  unfold State.applyOne
  extract_lets x1 x2 frame
  have hx1 : x1.devNum = x.devNum := hForce x c.set
  clear_value x1
  have hx2 : x2.devNum = x.devNum := (x1.viewEffects_devNum p c.set).trans hx1
  clear_value x2
  exact hx2

theorem State.leaveStop_devNum (s : State) (p : PartId) : (s.leaveStop p).devNum = s.devNum := by
  unfold State.leaveStop
  extract_lets s1 parts
  have hs1 : s1.devNum = s.devNum := rfl
  clear_value s1 parts
  split
  · exact hs1
  · exact hs1

theorem State.endStop_devNum (s : State) (p : PartId) : (s.endStop p).devNum = s.devNum := by
  have hEnd (x : State) (n : Nat) : x.Volatile ((x.stopTiles p).withhold p n) :=
    (x.volatile_stopTiles p).trans (State.volatile_withhold ..)
  unfold State.endStop
  extract_lets run s1 s2
  have hs1 : s1.devNum = s.devNum := rfl
  clear_value s1
  have hs2 : s2.devNum = s.devNum := by
    subst s2
    split
    · exact ((hEnd s1 _).proj State.devNum).trans hs1
    · rfl
  clear_value s2
  exact (s2.leaveStop_devNum p).trans hs2

theorem State.tryReady_devNum (s : State) (p : PartId) : (s.tryReady p).devNum = s.devNum := by
  have hRaise : s.finishRaise.devNum = s.devNum := by
    unfold State.finishRaise
    split <;> rfl
  unfold State.tryReady
  split
  · exact hRaise
  · rfl

theorem State.leaveHalted_devNum (s : State) (p : PartId) : (s.leaveHalted p).devNum = s.devNum := by
  unfold State.leaveHalted
  extract_lets s1 capped s2 s3
  have hs1 : s1.devNum = s.devNum := by
    subst s1
    split
    · exact s.endStop_devNum p
    · rfl
  clear_value s1
  have hs2 : s2.devNum = s.devNum := (s1.applyPending_devNum p).trans hs1
  clear_value s2
  have hs3 : s3.devNum = s.devNum := by
    show (s2.frameSnapshot p).devNum = s.devNum
    unfold State.frameSnapshot
    split
    · exact hs2
    · exact hs2
  clear_value s3
  split
  · exact ((State.volatile_raise ..).proj State.devNum).trans ((State.retBands_devNum ..).trans hs3)
  · exact (s3.tryReady_devNum p).trans hs3

/-- A submission leaves the device's number. -/
theorem State.submit_devNum (s : State) (w : Writer) (a : AreaId) : (s.submit w a).devNum = s.devNum := by
  unfold State.submit
  extract_lets ar set part halted rearm seq s1 s2 s3
  have hs1 : s1.devNum = s.devNum := s.modArea_devNum ..
  clear_value s1
  have hs2 : s2.devNum = s.devNum := (s1.modArea_devNum ..).trans hs1
  have hs3 : s3.devNum = s.devNum := by
    subst s3
    split
    · exact hs2
    · exact hs2
  clear_value s3 s2 halted rearm part
  split
  · exact s.modArea_devNum ..
  · split
    · exact s.modArea_devNum ..
    · split
      · exact hs2
      · split
        · split
          · exact hs3
          · exact (s3.leaveHalted_devNum _).trans hs3
        · split
          · exact (s3.applyPending_devNum _).trans hs3
          · exact hs3

theorem State.askedBy_congr {s s' : State} (h : s'.devNum = s.devNum) (w : Writer) : s'.askedBy w = s.askedBy w := by
  unfold State.askedBy
  rw [h]

/-! #### Writes -/

section
variable {s : State} {w : Writer} {n : Nat} {parts : List (Nat × List Byte)}

theorem State.write_fault {a : Abort} (h : parts.findSome? (fun x => s.writeFault w n x.1 x.2) = some a) :
    s.write w n parts = .error a := by
  unfold State.write
  rw [h]

theorem State.write_commit (hOk : parts.findSome? (fun x => s.writeFault w n x.1 x.2) = none)
    (hCommit : parts.map (fun x => dkey n x.1) = [commitKey (areaOf n)]) :
    s.write w n parts = .ok (s.submit w (areaOf n)) := by
  unfold State.write
  rw [hOk]
  exact if_pos hCommit

/-- A write that submits nothing. -/
theorem State.write_enters (hOk : parts.findSome? (fun x => s.writeFault w n x.1 x.2) = none)
    (hData : ∀ x ∈ parts, dkey n x.1 ≠ commitKey (areaOf n)) : s.write w n parts =
      if (n = 0x1600 ∨ n = 0x1A00) ∧ 1024 < (s.commAfter n parts).mapBytes n then
        .error { reason := 0x0B, code := 0x06040042, key := (parts.map fun x => dkey n x.1).headD 0 }
      else s.enter w n (parts.map fun x => (dkey n x.1, leNat x.2)) := by
  unfold State.write
  rw [hOk]
  refine if_neg fun hCommit => ?_
  have hMem : commitKey (areaOf n) ∈ parts.map fun x => dkey n x.1 := by
    rw [hCommit]
    exact List.mem_singleton_self _
  obtain ⟨x, hx, hKey⟩ := List.mem_map.mp hMem
  exact hData x hx hKey

theorem State.enter_comm (hComm : n < 0x2000) :
    s.enter w n (parts.map fun x => (dkey n x.1, leNat x.2)) = .ok (s.commAfter n parts) := by
  unfold State.enter State.commAfter
  rw [if_pos hComm, List.foldl_map]

/-- The set of a writer after a write of entries. -/
def State.setAfter (s : State) (w : Writer) (n : Nat) (parts : List (Nat × List Byte)) : List (Nat × Nat) :=
  parts.foldl (fun l x => assocSet l (dkey n x.1) (leNat x.2)) ((s.area (areaOf n)).setOf w)

theorem State.enter_data (hData : 0x2000 ≤ n) : s.enter w n (parts.map fun x => (dkey n x.1, leNat x.2)) =
    if setFits (s.setAfter w n parts) then
      .ok (s.modArea (areaOf n) fun x => { x with staged := assocSet x.staged w (s.setAfter w n parts) })
    else .error { reason := 7, code := 0x05040005, key := dkey n (parts.headD (0, [])).1 } := by
  have hHead : ((parts.map fun x => (dkey n x.1, leNat x.2)).headD (dkey n 0, 0)).1 = dkey n (parts.headD (0, [])).1 := by
    cases parts <;> rfl
  unfold State.enter
  rw [if_neg (Nat.not_lt.mpr hData)]
  dsimp only
  rw [List.foldl_map, hHead]
  rfl

end

/-- The answer to a write, by its outcome. -/
def State.answerWrite (s : State) (w : Writer) (to_ : Dest) (n sub : Nat) : Except Abort State → State
  | .ok s' => s'.answer w to_ n sub (.ok []) 0 true
  | .error a => s.answer w to_ n sub (.error a) 0 true

theorem State.askWrite_eq (s : State) (w : Writer) (to_ : Dest) (n sub : Nat) (c : Bool) (data : List Byte) :
    s.askWrite w to_ n sub c data = s.answerWrite w to_ n sub (s.write w n (writeParts n sub c data)) := by
  unfold State.askWrite State.answerWrite
  rfl

section
variable {s : State} {w : Writer} {i : BitVec 16} {sub : BitVec 8} {c : Bool} {data : List Byte}

/-- A write that a writer may send is answered with its outcome. -/
theorem exec_sdoWrite (hMay : s.mayAsk w = true) {r : Except Abort State}
    (hWrite : s.write w i.toNat (writeParts i.toNat sub.toNat c data) = r) : exec (.sdoWrite w i sub c data) s =
      .next (s.answerWrite w (s.askedBy w) i.toNat sub.toNat r) := by
  have hExec : exec (.sdoWrite w i sub c data) s = execSdoWrite w i sub c data s := rfl
  rw [hExec, execSdoWrite, if_pos hMay, State.askWrite_eq, hWrite]

/-- A direct write of a communication entry is a write of its one part. -/
theorem exec_pdoMappingWrite {v : BitVec 32} (hMay : s.mayAsk .coe = true) (hComm : i.toNat < 0x2000) {r : Except Abort State}
    (hWrite : s.write .coe i.toNat [(sub.toNat,
      leBytes (if v.toNat < 2 ^ (8 * entrySize i.toNat sub.toNat) then entrySize i.toNat sub.toNat else 4) v.toNat)] = r) :
    exec (.pdoMappingWrite i sub v) s = .next (s.answerWrite .coe .ecat i.toNat sub.toNat r) := by
  have hExec : exec (.pdoMappingWrite i sub v) s = execPdoMappingWrite i sub v s := rfl
  rw [hExec, execPdoMappingWrite]
  dsimp only
  rw [if_pos ⟨hMay, hComm⟩, ← apply_ite fun size => leBytes size v.toNat, State.askWrite_eq]
  have hParts (l : List Byte) : writeParts i.toNat sub.toNat false l = [(sub.toNat, l)] := rfl
  rw [hParts, hWrite]

end

theorem State.answer_error_sent (s : State) {w : Writer} (a : Abort) (i sub : Nat) (hw : w = .coe ∨ w = .pdo ∨ w = .firmware) :
    (s.answer w .ecat i sub (.error a) 0 true).sent = s.sent ++ [(.ecat, .sdo a.code [])] := by
  rcases hw with rfl | rfl | rfl
  · rfl
  · rfl
  · rfl

/-! #### Reads -/

theorem State.readMany_length (w : Writer) (l : List (Nat × Nat)) (s : State) : (s.readMany w l).2.length = l.length := by
  have hFold : ∀ (l : List (Nat × Nat)) (x : State × List (List Byte)),
      (l.foldl (fun (x : State × List (List Byte)) k => ((x.1.readOne w k.1 k.2).1, x.2 ++ [(x.1.readOne w k.1 k.2).2])) x).2.length =
        x.2.length + l.length := by
    intro l
    induction l with
    | nil => exact fun x => rfl
    | cons k l ih =>
      intro x
      rw [List.foldl_cons, ih, List.length_append, List.length_singleton, List.length_cons, Nat.add_assoc, Nat.add_comm 1]
  exact (hFold l (s, [])).trans (Nat.zero_add _)

section
variable {s : State} {w : Writer} {i : BitVec 16} {sub : BitVec 8} {c : Bool}

/-- The sub-entries that a read names. -/
def readSubs (n sub : Nat) (c : Bool) : List Nat := if c = true ∧ subsOf n ≠ [] then subsOf n else [sub]

theorem exec_sdoRead (hMay : s.mayAsk w = true) : exec (.sdoRead w i sub c) s = .next (
    match (readSubs i.toNat sub.toNat c).findSome? (s.readFault w i.toNat) with
    | some f => s.answer w (s.askedBy w) i.toNat sub.toNat (.error f) 0 true
    | none => ((s.readMany w ((readSubs i.toNat sub.toNat c).map fun x => (i.toNat, x))).1.noteSnap w (areaOf i.toNat)).answer w
        (s.askedBy w) i.toNat sub.toNat
        (.ok (s.readMany w ((readSubs i.toNat sub.toNat c).map fun x => (i.toNat, x))).2.flatten)
        (s.snapOf (areaOf i.toNat)).2 !s.frameView (areaOf i.toNat)) := by
  have hExec : exec (.sdoRead w i sub c) s = execSdoRead w i sub c s := rfl
  have hSubs : (if c && subsOf i.toNat != [] then subsOf i.toNat else [sub.toNat]) = readSubs i.toNat sub.toNat c :=
    if_congr (by rw [Bool.and_eq_true, bne_iff_ne]) rfl rfl
  rw [hExec, execSdoRead, if_pos hMay, State.askRead, hSubs] <;> rfl

end

/-! #### Read lists -/

/-- A read list that is not discarded. -/
def listSound (items : List ListItem) : Prop := items ≠ [] ∧ items.length ≤ 64 ∧ ∀ x ∈ items, x.rsvd = 0

theorem not_listSound_iff (items : List ListItem) : ¬ listSound items ↔
    items.length = 0 ∨ 64 < items.length ∨ (items.any fun x => x.rsvd != 0) = true := by
  rw [listSound, not_and_or, not_and_or, not_not, Nat.not_le, List.length_eq_zero_iff, List.any_eq_true]
  simp only [bne_iff_ne, not_forall, exists_prop]

section
variable {s : State} {p : PartId} {slot : HostSlot} {seq : BitVec 32} {items : List ListItem}

theorem exec_readList_bad (hMay : s.mayAsk (.host p slot) = true) (hBad : ¬ listSound items) :
    exec (.readList p slot seq items) s = .next { s with discarded := s.discarded + 1 } := by
  have hExec : exec (.readList p slot seq items) s = execReadList p slot seq items s := rfl
  rw [hExec, execReadList, if_pos hMay, State.askList]
  exact congrArg Outcome.next (if_pos ((not_listSound_iff items).mp hBad))

theorem exec_readList (hMay : s.mayAsk (.host p slot) = true) (hSound : listSound items) {keys : List (Nat × Nat)}
    (hKeys : (items.map fun x => (x.index.toNat, x.sub.toNat)) = keys) : exec (.readList p slot seq items) s = .next (
      match keys.findSome? fun x => s.readFault (.host p slot) x.1 x.2 with
      | some f => s.answer (.host p slot) (.via (.transport p slot seq)) (f.key / 256) (f.key % 256) (.error f) 0 true
      | none => ((s.readMany (.host p slot) keys).1.noteSnap (.host p slot) (.view p)).answer (.host p slot)
          (.via (.transport p slot seq)) (keys.headD (0, 0)).1 (keys.headD (0, 0)).2
          (.ok ((s.readMany (.host p slot) keys).2.flatMap pad4)) (s.snapOf (.view p)).2 !s.frameView (.view p)) := by
  have hExec : exec (.readList p slot seq items) s = execReadList p slot seq items s := rfl
  rw [hExec, execReadList, if_pos hMay, State.askList]
  dsimp only
  rw [if_neg fun h => (not_listSound_iff items).mpr h hSound, hKeys] <;> rfl

end

/-! #### SDO information -/

section
variable {s : State} {i : BitVec 16} {sub : BitVec 8}

theorem exec_sdoList (hMay : s.mayAsk .coe = true) :
    exec (.sdoInformation i sub 0) s = .next (s.emit .ecat (.sdo 0 (allIndexes.flatMap (leBytes 2)))) := by
  have hExec : exec (.sdoInformation i sub 0) s = execSdoInformation i sub 0 s := rfl
  rw [hExec, execSdoInformation, if_pos hMay]
  exact congrArg Outcome.next (if_pos rfl)

theorem exec_sdoObject (hMay : s.mayAsk .coe = true) : exec (.sdoInformation i sub 1) s = .next (
    if subsOf i.toNat = [] then s.answer .coe .ecat i.toNat sub.toNat
      (.error { reason := 1, code := 0x06020000, key := dkey i.toNat sub.toNat }) 0 true
    else s.emit .ecat (.sdo 0 (objectInfo i.toNat))) := by
  have hExec : exec (.sdoInformation i sub 1) s = execSdoInformation i sub 1 s := rfl
  rw [hExec, execSdoInformation, if_pos hMay]
  refine congrArg Outcome.next ((if_neg (by decide)).trans (if_congr Iff.rfl rfl ?_))
  exact if_pos rfl

theorem exec_sdoEntry (hMay : s.mayAsk .coe = true) : exec (.sdoInformation i sub 2) s = .next (
    if subsOf i.toNat = [] then s.answer .coe .ecat i.toNat sub.toNat
      (.error { reason := 1, code := 0x06020000, key := dkey i.toNat sub.toNat }) 0 true
    else match entry? i.toNat sub.toNat with
      | none => s.answer .coe .ecat i.toNat sub.toNat
          (.error { reason := 1, code := 0x06090011, key := dkey i.toNat sub.toNat }) 0 true
      | some e => s.emit .ecat (.sdo 0 (entryInfo i.toNat sub.toNat e))) := by
  have hExec : exec (.sdoInformation i sub 2) s = execSdoInformation i sub 2 s := rfl
  rw [hExec, execSdoInformation, if_pos hMay]
  refine congrArg Outcome.next ((if_neg (by decide)).trans (if_congr Iff.rfl rfl ?_))
  exact if_neg (by decide)

end

/-- Settles O49: a write is answered by what it enters, a read by what it reads. -/
theorem writesStageAndReadsAnswer : Obligations.WritesStageAndReadsAnswer := by
  unfold Obligations.WritesStageAndReadsAnswer
  refine ⟨⟨fun s w i sub c data hMay => ?_, fun s i sub v hMay hComm => ?_, fun s w a i sub hw => s.answer_error_sent a i sub hw⟩,
    fun s w i sub c hMay => ?_, fun s w n sub => rfl, fun s p slot seq items hMay => ?_, fun s i sub hMay => ?_⟩
  · refine ⟨fun a hFault => exec_sdoWrite hMay (State.write_fault hFault), fun hOk => ⟨fun hComm => ?_, fun k d hParts hKey => ?_,
      fun hView hData => ?_⟩⟩
    · have hEnters := State.write_enters hOk fun x hx => dkey_comm_ne hComm (writeParts_keys sub.isLt c data x hx)
      rw [State.enter_comm hComm] at hEnters
      exact ⟨fun hFits => exec_sdoWrite hMay (hEnters.trans (if_neg hFits)),
        fun hLong => exec_sdoWrite hMay (hEnters.trans (if_pos hLong))⟩
    · have hCommit := State.write_commit hOk (by rw [hParts]; exact congrArg (· :: []) hKey)
      refine (exec_sdoWrite hMay hCommit).trans ?_
      rw [State.answerWrite, ← State.askedBy_congr (s.submit_devNum w (areaOf i.toNat)) w]
    · have hEnters := (State.write_enters hOk hData).trans (if_neg fun h => by omega)
      rw [State.enter_data hView] at hEnters
      refine ⟨fun hFits => (exec_sdoWrite hMay (hEnters.trans (if_pos hFits))).trans ?_,
        fun hLong => exec_sdoWrite hMay (hEnters.trans (if_neg (ne_true_of_eq_false hLong)))⟩
      rw [State.answerWrite, ← State.askedBy_congr (s.modArea_devNum (areaOf i.toNat) _) w]
      rfl
  · have hPart (r : Option Abort) (l : List Byte) (h : s.writeFault .coe i.toNat sub.toNat l = r) :
        [(sub.toNat, l)].findSome? (fun x => s.writeFault .coe i.toNat x.1 x.2) = r := by
      rw [List.findSome?_singleton]
      exact h
    refine ⟨fun a hFault => exec_pdoMappingWrite hMay hComm (State.write_fault (hPart _ _ hFault)), fun hOk => ?_⟩
    have hEnters := State.write_enters (hPart _ _ hOk) fun x hx =>
      dkey_comm_ne hComm (by rw [List.mem_singleton.mp hx]; exact sub.isLt)
    rw [State.enter_comm hComm] at hEnters
    exact ⟨fun hFits => exec_pdoMappingWrite hMay hComm (hEnters.trans (if_neg hFits)),
      fun hLong => exec_pdoMappingWrite hMay hComm (hEnters.trans (if_pos hLong))⟩
  · refine ⟨fun a hFault => ?_, fun hOk => ?_⟩
    · rw [exec_sdoRead hMay, show (readSubs i.toNat sub.toNat c).findSome? (s.readFault w i.toNat) = some a from hFault]
    · rw [exec_sdoRead hMay, show (readSubs i.toNat sub.toNat c).findSome? (s.readFault w i.toNat) = none from hOk]
      rfl
  · refine ⟨exec_readList_bad hMay, fun hSound => ⟨(State.readMany_length ..).trans (List.length_map ..), fun f hFault => ?_,
      fun hOk => ?_⟩⟩
    · rw [exec_readList hMay hSound rfl, hFault]
    · rw [exec_readList hMay hSound rfl, hOk]
  · refine ⟨exec_sdoList hMay, exec_sdoObject hMay, fun hNone => ?_, fun hSome hNoEntry => ?_, fun e hSome hEntry => ?_⟩
    · rw [exec_sdoEntry hMay, if_pos hNone]
    · rw [exec_sdoEntry hMay, if_neg hSome, hNoEntry]
    · rw [exec_sdoEntry hMay, if_neg hSome, hEntry]

end Sys2Proof.Machine
end

section
/-! ### Optical engines (R277 to R295, R316) -/

namespace Sys2Proof.Machine

open Host (Outcome)

/-! #### What ports and counters leave of an engine -/

/-- An engine differs in its counters of lost frames at most. -/
structure Engine.CountsOnly (x y : Engine) : Prop where
  rest : y = { x with unreach := y.unreach, linkLost := y.linkLost }

namespace Engine.CountsOnly

theorem refl (x : Engine) : x.CountsOnly x := ⟨rfl⟩

theorem trans {x y z : Engine} (h : x.CountsOnly y) (h' : y.CountsOnly z) : x.CountsOnly z :=
  ⟨h'.rest.trans (congrArg (fun x : Engine => { x with unreach := z.unreach, linkLost := z.linkLost }) h.rest)⟩

/-- What does not look at the counters is the same. -/
theorem proj {α : Type} {x y : Engine} (h : x.CountsOnly y) (f : Engine → α)
    (hf : f { x with unreach := y.unreach, linkLost := y.linkLost } = f x := by rfl) : f y = f x := (congrArg f h.rest).trans hf

theorem of_traffic {s s' : State} (h : s.TrafficOnly s') (e : EngineId) : (s.engine e).CountsOnly (s'.engine e) := by
  have hLost : (s'.engine e).linkLost = (s.engine e).linkLost := (congrArg Engine.linkLost (h.engine e)).trans rfl
  refine ⟨(h.engine e).trans ?_⟩
  rw [hLost]

theorem modEngine (s : State) (e e' : EngineId) {f : Engine → Engine} (hf : ∀ x, Engine.CountsOnly x (f x)) :
    (s.engine e).CountsOnly ((s.modEngine e' f).engine e) := by
  by_cases h : e = e'
  · subst h
    rw [State.modEngine_engine_same]
    exact hf _
  · rw [State.modEngine_engine_other _ _ h]
    exact refl _

end Engine.CountsOnly

/-- What sending leaves of a port. -/
theorem State.TrafficOnly.port_proj {α : Type} {s s' : State} (h : s.TrafficOnly s') (p : PortId) (g : Port → α)
    (hg : ∀ (x : Port) q b, g { x with queue := q, bytes := b } = g x := by intros; rfl) : g (s'.port p) = g (s.port p) :=
  (congrArg g (h.port p)).trans (hg ..)

/-! #### Ports that go down -/

/-- A port carries nothing, and its frames are off the line. -/
def State.portReset (s : State) (p : PortId) : State :=
  ({ s with wire := s.wire.filter fun f => !((s.port p).queue ++ s.unsent p).contains f } : State).modPort p
    fun x => { x.down with queue := [] }

/-- The frames of a port that goes down find another way, or are lost. -/
theorem State.portDown_traffic (s : State) (p : PortId) : (s.portReset p).TrafficOnly (s.portDown p) := by
  unfold State.portDown
  extract_lets left s1
  have hs1 : s1 = s.portReset p := rfl
  rw [← hs1]
  clear_value s1
  refine foldl_keeps (P := fun x : State => s1.TrafficOnly x) left (.refl s1) fun y f hy => ?_
  have hLost (z : State) : z.TrafficOnly (z.modEngine (engineOf p) fun x => { x with unreach := satAdd x.unreach 1 }) :=
    z.trafficOnly_modEngine _ fun _ => rfl
  split
  · extract_lets q way
    split
    · exact hy.trans (y.trafficOnly_handOver _)
    · exact hy.trans (hLost y)
  · exact hy.trans (hLost y)

theorem State.portDown_port_same {α : Type} (s : State) (p : PortId) (g : Port → α)
    (hg : ∀ (x : Port) q b, g { x with queue := q, bytes := b } = g x := by intros; rfl) :
    g ((s.portDown p).port p) = g (s.port p).down := by
  rw [(s.portDown_traffic p).port_proj p g hg, State.portReset, State.modPort_port_same]
  exact hg (s.port p).down [] _

theorem State.portDown_port_other {α : Type} (s : State) {p q : PortId} (h : q ≠ p) (g : Port → α)
    (hg : ∀ (x : Port) q b, g { x with queue := q, bytes := b } = g x := by intros; rfl) :
    g ((s.portDown p).port q) = g (s.port q) := by
  rw [(s.portDown_traffic p).port_proj q g hg, State.portReset, State.modPort_port_other _ _ h]
  rfl

theorem State.portDown_engine (s : State) (p : PortId) (e : EngineId) : (s.engine e).CountsOnly ((s.portDown p).engine e) :=
  .of_traffic (s.portDown_traffic p) e

/-- A port that is down stays down while others go down. -/
theorem State.portDown_down (s : State) (p q : PortId) (h : (s.port q).st = 0) : ((s.portDown p).port q).st = 0 := by
  by_cases hq : q = p
  · subst hq
    exact s.portDown_port_same q Port.st
  · exact (s.portDown_port_other hq Port.st).trans h

theorem State.portDown_miswire (s : State) (p q : PortId) : ((s.portDown p).port q).miswire = (s.port q).miswire := by
  by_cases hq : q = p
  · subst hq
    exact s.portDown_port_same q Port.miswire
  · exact s.portDown_port_other hq Port.miswire

theorem mem_portsOf (p : PortId) : p ∈ portsOf (engineOf p) := by
  have hCases : p.val = 2 * (p.val / 2) ∨ p.val = 2 * (p.val / 2) + 1 := by omega
  rcases hCases with h | h
  · exact List.mem_cons.mpr (.inl (Fin.ext h))
  · exact List.mem_cons_of_mem _ (List.mem_singleton.mpr (Fin.ext h))

/-! #### The bypass switch -/

/-- What a cause of R282 does to an engine in Ronor mode. -/
structure State.Bypassed (s s' : State) (e : EngineId) (cause : BitVec 8) : Prop where
  switch : (s'.engine e).switch = if (s.engine e).switch = .bypass then .bypass else .toBypass
  reason : (s'.engine e).bypReason = cause
  laser : (s'.engine e).laser = (s.engine e).laser
  down : ∀ p ∈ portsOf e, (s'.port p).st = 0
  miswire : ∀ p, (s'.port p).miswire = (s.port p).miswire

theorem State.toBypass_ronor {s : State} {e : EngineId} (hMode : (s.engine e).ethMode = false)
    (hHeld : (s.engine e).ethHeld = false) (cause : BitVec 8) : s.Bypassed (s.toBypass e cause) e cause := by
  have hRonor : ¬ ((s.engine e).ethMode || (s.engine e).ethHeld) = true := by
    rw [hMode, hHeld]
    exact Bool.false_ne_true
  unfold State.toBypass
  rw [if_neg hRonor]
  extract_lets s1
  have hEngine : s1.engine e = { s.engine e with
      switch := if (s.engine e).switch = .bypass then .bypass else .toBypass, bypReason := cause } := State.modEngine_engine_same ..
  have hPort (q : PortId) : s1.port q = s.port q := rfl
  clear_value s1
  generalize hA : (⟨2 * e.val, by omega⟩ : PortId) = a
  generalize hB : (⟨2 * e.val + 1, by omega⟩ : PortId) = b
  have hPorts : portsOf e = [a, b] := by
    rw [← hA, ← hB]
    rfl
  rw [hPorts]
  show s.Bypassed ((s1.portDown a).portDown b) e cause
  have hCounts : (s1.engine e).CountsOnly (((s1.portDown a).portDown b).engine e) :=
    (s1.portDown_engine a e).trans (State.portDown_engine ..)
  rw [hEngine] at hCounts
  refine ⟨hCounts.proj Engine.switch, hCounts.proj Engine.bypReason, hCounts.proj Engine.laser, fun p hp => ?_, fun p => ?_⟩
  · rw [hPorts] at hp
    rcases List.mem_cons.mp hp with rfl | hp
    · exact State.portDown_down _ b p (s1.portDown_port_same p Port.st)
    · rw [List.mem_singleton.mp hp]
      exact (s1.portDown a).portDown_port_same b Port.st
  · rw [State.portDown_miswire, State.portDown_miswire, hPort]

theorem State.toBypass_eth {s : State} {e : EngineId} (hMode : (s.engine e).ethMode = true) (cause : BitVec 8) :
    s.toBypass e cause = s := by
  unfold State.toBypass
  rw [hMode]
  rfl

section
variable {s : State} {e : EngineId} {i : EngineIn}

theorem exec_bypassMove {cause : BitVec 8} (hPresent : (s.modEngine e fun x => x.take i).causePresent e cause.toNat = true)
    (hMoves : cause ≠ 7 ∨ (s.engine e).switch = .bypass) :
    exec (.bypassMove ⟨e, i⟩ cause) s = .next ((s.modEngine e fun x => x.take i).toBypass e cause) := by
  have hExec : exec (.bypassMove ⟨e, i⟩ cause) s = execBypassMove ⟨e, i⟩ cause s := rfl
  have hSwitch : ((s.modEngine e fun x => x.take i).engine e).switch = (s.engine e).switch := by
    rw [State.modEngine_engine_same]
    rfl
  rw [hExec, execBypassMove]
  exact congrArg Outcome.next (if_pos ⟨hPresent, hMoves.imp id hSwitch.trans⟩)

theorem exec_throughMove (hSwitch : (s.engine e).switch = .bypass) (hMay : (s.modEngine e fun x => x.take i).mayThrough e = true) :
    exec (.throughMove ⟨e, i⟩) s =
      .next ((s.modEngine e fun x => x.take i).modEngine e fun x => { x with switch := .toThrough }) := by
  have hExec : exec (.throughMove ⟨e, i⟩) s = execThroughMove ⟨e, i⟩ s := rfl
  have hBypass : ((s.modEngine e fun x => x.take i).engine e).switch = .bypass := by
    rw [State.modEngine_engine_same]
    exact hSwitch
  rw [hExec, execThroughMove]
  exact congrArg Outcome.next (if_pos ⟨hBypass, hMay⟩)

theorem exec_throughMove_uncharged (hHold : i.holdup = false) :
    exec (.throughMove ⟨e, i⟩) s = .next (s.modEngine e fun x => x.take i) := by
  have hExec : exec (.throughMove ⟨e, i⟩) s = execThroughMove ⟨e, i⟩ s := rfl
  have hStays : (s.modEngine e fun x => x.take i).mayThrough e = false := by
    unfold State.mayThrough
    have hOff : ((s.modEngine e fun x => x.take i).engine e).holdupOk = false := by
      rw [State.modEngine_engine_same]
      exact hHold
    simp only [hOff, Bool.and_false, Bool.false_and]
  rw [hExec, execThroughMove]
  exact congrArg Outcome.next (if_neg fun h => Bool.noConfusion (hStays.symm.trans h.2))

theorem exec_switchMoveDone_bypass (hSwitch : (s.engine e).switch = .toBypass) :
    exec (.switchMoveDone e) s = .next ((s.modEngine e fun x => { x with switch := .bypass }).pairPower e) := by
  have hExec : exec (.switchMoveDone e) s = execSwitchMoveDone e s := rfl
  rw [hExec, execSwitchMoveDone, hSwitch]

/-- In THROUGH both ports start to train. -/
theorem exec_switchMoveDone_through (hSwitch : (s.engine e).switch = .toThrough) (hOn : s.engineOn e = true) :
    ∃ s', exec (.switchMoveDone e) s = .next s' ∧ (s'.engine e).switch = .through ∧
      ∀ p ∈ portsOf e, (s'.port p).st = 1 ∧ (s'.port p).stage = 1 := by
  have hExec : exec (.switchMoveDone e) s = execSwitchMoveDone e s := rfl
  have hTrains (x : State) (p q : PortId) (h : p = q ∨ (x.port p).st = 1 ∧ (x.port p).stage = 1) :
      ((x.modPort q fun y => y.train 1).port p).st = 1 ∧ ((x.modPort q fun y => y.train 1).port p).stage = 1 := by
    by_cases hp : p = q
    · subst hp
      rw [State.modPort_port_same]
      exact ⟨rfl, rfl⟩
    · rw [State.modPort_port_other _ _ hp]
      exact h.resolve_left hp
  rw [hExec, execSwitchMoveDone, hSwitch]
  have hThrough : ((s.modEngine e fun x => { x with switch := .through }).engine e).switch = .through := by
    rw [State.modEngine_engine_same]
  refine ⟨_, congrArg Outcome.next (if_pos hOn), hThrough, fun p hp => ?_⟩
  · generalize s.modEngine e (fun x => { x with switch := .through }) = s1
    rcases List.mem_cons.mp hp with rfl | hp
    · exact hTrains _ _ _ (.inr (hTrains s1 _ _ (.inl rfl)))
    · rw [List.mem_singleton.mp hp]
      exact hTrains _ _ _ (.inl rfl)

end

/-! #### Retraining, lanes and lasers -/

theorem State.retrain_port_same (s : State) (p : PortId) (stage : BitVec 3) : ∃ l, (s.retrain p stage).port p =
    { (s.port p).train stage with retrains := satAdd (s.port p).retrains 1, queue := l } := by
  unfold State.retrain
  extract_lets open_ lost again left s1 s2
  have hs1 : s1.port p = s.port p := rfl
  have hs2 : s2.port p = { (s1.port p).train stage with
    retrains := satAdd (s1.port p).retrains 1, queue := again ++ left ++ (s1.port p).queue } := State.modPort_port_same ..
  rw [hs1] at hs2
  exact ⟨_, hs2⟩

theorem State.retrain_port_other (s : State) {p q : PortId} (h : q ≠ p) (stage : BitVec 3) :
    (s.retrain p stage).port q = s.port q := by
  unfold State.retrain
  extract_lets open_ lost again left s1 s2
  have hs2 : s2.port q = s1.port q := State.modPort_port_other _ _ h
  exact hs2

theorem State.retrain_engine (s : State) (p : PortId) (stage : BitVec 3) (e : EngineId) :
    (s.engine e).CountsOnly ((s.retrain p stage).engine e) := by
  unfold State.retrain
  extract_lets open_ lost again left s1 s2
  have hs2 : s2.engine e = s.engine e := rfl
  rw [← hs2]
  exact .modEngine s2 e _ fun _ => ⟨rfl⟩

section
variable {s : State} {p : PortId}

theorem exec_laneSwap (lane : Fin 8) (hUp : (s.port p).st = 2) (hFabric : (s.port p).eth = false) :
    exec (.laneSwap p lane) s = .next (
      if (s.port p).spareFor = 0xF ∧ (s.port p).laneMap.length = 9 then
        (s.modPort p fun x => { x with
          spareFor := BitVec.ofNat 4 lane.val, laneSwaps := satAdd x.laneSwaps 1
          laneMap := ((s.port p).laneMap.set lane.val ((s.port p).laneMap.getD 8 0)).set 8
            ((s.port p).laneMap.getD lane.val 0) }).opticsEvent (engineOf p) clsCorrected
      else s.retrain p 1) := by
  have hExec : exec (.laneSwap p lane) s = execLaneSwap p lane s := rfl
  rw [hExec, execLaneSwap]
  exact congrArg Outcome.next (if_pos ⟨hUp, hFabric⟩)

/-- A change that looks at the port itself is one that looks at the port it is given. -/
theorem State.modPort_congr (s : State) (p : PortId) {f g : Port → Port} (h : f (s.port p) = g (s.port p)) :
    s.modPort p f = s.modPort p g := by
  unfold State.modPort
  rw [h]

/-- A port after the laser input of its engine changed: it retrains fast where it carried traffic, and trains anew where it
trained. -/
def State.failoverPort (s : State) (p : PortId) : State :=
  if (s.port p).st = 2 then (s.retrain p 2).modPort p fun x => { x with fast := true }
  else if (s.port p).st = 1 then s.modPort p fun x => x.train 1
  else s

theorem State.failoverPort_engine (s : State) (p : PortId) (e : EngineId) : (s.engine e).CountsOnly ((s.failoverPort p).engine e) := by
  unfold State.failoverPort
  split
  · exact s.retrain_engine p 2 e
  · split
    · exact .refl _
    · exact .refl _

theorem State.failoverPort_other (s : State) {p q : PortId} (h : q ≠ p) : (s.failoverPort p).port q = s.port q := by
  unfold State.failoverPort
  split
  · rw [State.modPort_port_other _ _ h, s.retrain_port_other h]
  · split
    · exact State.modPort_port_other _ _ h
    · rfl

/-- A port retrains fast from stage 2. -/
structure Port.Retrains (x y : Port) : Prop where
  st : y.st = 1
  stage : y.stage = 2
  counted : y.retrains = satAdd x.retrains 1

theorem State.failoverPort_up (h : (s.port p).st = 2) : (s.port p).Retrains ((s.failoverPort p).port p) := by
  unfold State.failoverPort
  rw [if_pos h, State.modPort_port_same]
  obtain ⟨l, hPort⟩ := s.retrain_port_same p 2
  rw [hPort]
  exact ⟨rfl, rfl, rfl⟩

/-- Both ports of an engine turn to its new input. -/
theorem State.failoverPorts_up (h : (s.port p).st = 2) :
    (s.port p).Retrains (((s.each (portsOf (engineOf p)) State.failoverPort)).port p) := by
  have hMem := mem_portsOf p
  generalize hA : (⟨2 * (engineOf p).val, by omega⟩ : PortId) = a
  generalize hB : (⟨2 * (engineOf p).val + 1, by omega⟩ : PortId) = b
  have hPorts : portsOf (engineOf p) = [a, b] := by
    rw [← hA, ← hB]
    rfl
  have hNe : a ≠ b := fun hEq => by
    rw [← hA, ← hB] at hEq
    exact absurd (Fin.mk.inj hEq) (by omega)
  rw [hPorts] at hMem ⊢
  show (s.port p).Retrains (((s.failoverPort a).failoverPort b).port p)
  rcases List.mem_cons.mp hMem with rfl | hMem
  · rw [State.failoverPort_other _ hNe]
    exact State.failoverPort_up h
  · obtain rfl := List.mem_singleton.mp hMem
    have hKept := s.failoverPort_other (Ne.symm hNe)
    rw [← hKept] at h ⊢
    exact State.failoverPort_up h

/-- The input that carried an engine is low. -/
def State.inputLow (s : State) (e : EngineId) (i : EngineIn) : State :=
  s.modEngine e fun x => if x.laser = 0 then { x.take i with l0Ok := false } else { x.take i with l1Ok := false }

theorem State.inputLow_engine {e : EngineId} (i : EngineIn) (h : (s.engine e).laser = 0) :
    (s.inputLow e i).engine e = { (s.engine e).take i with l0Ok := false } := by
  rw [State.inputLow, State.modEngine_engine_same, if_pos h]

theorem exec_laserFailover {e : EngineId} {i : EngineIn} (h : (s.engine e).laser = 0) :
    exec (.laserFailover ⟨e, i⟩) s = .next (
      if i.l1Ok then
        ((((s.inputLow e i).modEngine e fun x => { x with laser := 1, failovers := satAdd x.failovers 1 }).enableLaser e 1).opticsEvent e
          clsCorrected).each (portsOf e) State.failoverPort
      else ((s.inputLow e i).modEngine e fun x => { x with laser := 2 }).toBypass e 5) := by
  have hExec : exec (.laserFailover ⟨e, i⟩) s = execLaserFailover ⟨e, i⟩ s := rfl
  have hInput : ((s.inputLow e i).engine e).inputOk 1 = i.l1Ok := by
    rw [State.inputLow_engine i h]
    rfl
  have hOther : (1 - (s.engine e).laser) = 1 := by
    rw [h]
    rfl
  rw [hExec, execLaserFailover]
  refine congrArg Outcome.next ((if_pos (.inl h)).trans ?_)
  dsimp only
  rw [hOther, ← hInput]
  rfl

theorem State.enableLaser_engine (s : State) (e : EngineId) (i : BitVec 2) (e' : EngineId) :
    (s.enableLaser e i).engine e' = s.engine e' := by
  unfold State.enableLaser
  split <;> rfl

theorem State.enableLaser_port (s : State) (e : EngineId) (i : BitVec 2) (p : PortId) : (s.enableLaser e i).port p = s.port p := by
  unfold State.enableLaser
  split <;> rfl

/-- An event leaves ports and engines. -/
theorem State.opticsEvent_exits (s : State) (e : EngineId) (cls : BitVec 3) :
    (s.opticsEvent e cls).ports = s.ports ∧ (s.opticsEvent e cls).engines = s.engines := by
  obtain ⟨m, w, b, ps, h⟩ := s.raise_shape 0x000F cls (s.srcEngine e) noIds (s.engineOwner? e) []
  rw [State.opticsEvent, h]
  exact ⟨rfl, rfl⟩

/-- The other input takes over. -/
def State.failedOver (s : State) (e : EngineId) (i : EngineIn) : State :=
  (((s.inputLow e i).modEngine e fun x => { x with laser := 1, failovers := satAdd x.failovers 1 }).enableLaser e 1).opticsEvent e
    clsCorrected

theorem State.failedOver_engine {e : EngineId} (i : EngineIn) (h : (s.engine e).laser = 0) : (s.failedOver e i).engine e =
    { (s.engine e).take i with l0Ok := false, laser := 1, failovers := satAdd (s.engine e).failovers 1 } := by
  unfold State.failedOver
  rw [State.engine, (State.opticsEvent_exits ..).2]
  show State.engine _ e = _
  rw [State.enableLaser_engine, State.modEngine_engine_same, State.inputLow_engine i h]
  rfl

theorem State.failedOver_port (e : EngineId) (i : EngineIn) (q : PortId) : (s.failedOver e i).port q = s.port q := by
  unfold State.failedOver
  rw [State.port, (State.opticsEvent_exits ..).1]
  show State.port _ q = _
  rw [State.enableLaser_port]
  rfl

theorem laserFailover_spare {i : EngineIn} (h : (s.engine (engineOf p)).laser = 0) (hSpare : i.l1Ok = true) :
    ∃ s', exec (.laserFailover ⟨engineOf p, i⟩) s = .next s' ∧ (s'.engine (engineOf p)).laser = 1 ∧
      (s'.engine (engineOf p)).l0Ok = false ∧
      (s'.engine (engineOf p)).failovers = satAdd (s.engine (engineOf p)).failovers 1 ∧
      ((s.port p).st = 2 → (s.port p).Retrains (s'.port p)) := by
  have hExec : exec (.laserFailover ⟨engineOf p, i⟩) s =
      .next ((s.failedOver (engineOf p) i).each (portsOf (engineOf p)) State.failoverPort) := by
    rw [exec_laserFailover h, if_pos hSpare]
    rfl
  have hEngine := State.failedOver_engine i h
  have hPort := State.failedOver_port (s := s) (engineOf p) i p
  generalize s.failedOver (engineOf p) i = s1 at hExec hEngine hPort
  have hCounts : (s1.engine (engineOf p)).CountsOnly ((s1.each (portsOf (engineOf p)) State.failoverPort).engine (engineOf p)) :=
    foldl_keeps (P := fun x : State => (s1.engine (engineOf p)).CountsOnly (x.engine (engineOf p))) _ (.refl _)
      fun x q hx => hx.trans (x.failoverPort_engine q _)
  rw [hEngine] at hCounts
  refine ⟨_, hExec, hCounts.proj Engine.laser, hCounts.proj Engine.l0Ok, hCounts.proj Engine.failovers, fun hUp => ?_⟩
  rw [← hPort] at hUp ⊢
  exact State.failoverPorts_up hUp

theorem laserFailover_dark {e : EngineId} {i : EngineIn} (h : (s.engine e).laser = 0) (hNone : i.l1Ok = false)
    (hMode : (s.engine e).ethMode = false) (hHeld : (s.engine e).ethHeld = false) :
    ∃ s', exec (.laserFailover ⟨e, i⟩) s = .next s' ∧ (s'.engine e).laser = 2 ∧ (s'.engine e).bypReason = 5 ∧
      ((s'.engine e).switch = .bypass ∨ (s'.engine e).switch = .toBypass) ∧ ∀ q ∈ portsOf e, (s'.port q).st = 0 := by
  have hEngine : ((s.inputLow e i).modEngine e fun x => { x with laser := 2 }).engine e =
      { (s.engine e).take i with l0Ok := false, laser := 2 } := by
    rw [State.modEngine_engine_same, State.inputLow_engine i h]
  generalize hs1 : ((s.inputLow e i).modEngine e fun x => { x with laser := 2 }) = s1 at hEngine
  have hBypass : s1.Bypassed (s1.toBypass e 5) e 5 :=
    State.toBypass_ronor ((congrArg Engine.ethMode hEngine).trans hMode) ((congrArg Engine.ethHeld hEngine).trans hHeld) 5
  refine ⟨s1.toBypass e 5, ?_, hBypass.laser.trans (congrArg Engine.laser hEngine), hBypass.reason, ?_, hBypass.down⟩
  · rw [exec_laserFailover h, hNone, ← hs1]
    rfl
  · rw [hBypass.switch]
    split
    · exact .inl rfl
    · exact .inr rfl

end

end Sys2Proof.Machine
end

section
/-! ### Link training, capability records and beacons (R285 to R291, R299, R316) -/

namespace Sys2Proof.Machine

open Host (Outcome)

/-! #### Training -/

section
variable {s : State} {p : PortId} {m : Training}

/-- Training begins with the engine's inputs as they stand; a port that carried traffic retrains. -/
def State.heard (s : State) (p : PortId) (m : Training) : State :=
  let s := s.modEngine (engineOf p) fun x => x.take m.inputs
  if (s.port p).st = 2 then s.retrain p 1 else s

theorem State.heard_engine (s : State) (p : PortId) (m : Training) :
    Engine.CountsOnly ((s.engine (engineOf p)).take m.inputs) ((s.heard p m).engine (engineOf p)) := by
  unfold State.heard
  extract_lets s1
  have hs1 : s1.engine (engineOf p) = (s.engine (engineOf p)).take m.inputs := State.modEngine_engine_same ..
  rw [← hs1]
  clear_value s1
  split
  · exact s1.retrain_engine p 1 _
  · exact .refl _

theorem State.heard_port_other {q : PortId} (h : q ≠ p) : (s.heard p m).port q = s.port q := by
  unfold State.heard
  extract_lets s1
  have hs1 : s1.port q = s.port q := rfl
  clear_value s1
  split
  · exact (s1.retrain_port_other h 1).trans hs1
  · exact hs1

/-- What a retrain keeps of its port. -/
theorem State.heard_port (s : State) (p : PortId) (m : Training) : ((s.heard p m).port p).partner = (s.port p).partner ∧
    ((s.heard p m).port p).failures = (s.port p).failures := by
  unfold State.heard
  extract_lets s1
  have hs1 : s1.port p = s.port p := rfl
  rw [← hs1]
  clear_value s1
  split
  · obtain ⟨l, hPort⟩ := s1.retrain_port_same p 1
    rw [hPort]
    exact ⟨rfl, rfl⟩
  · exact ⟨rfl, rfl⟩

theorem oppositePort_ne (p : PortId) : oppositePort p ≠ p := fun h => by
  have hVal : 2 * (p.val / 2) + (1 - p.val % 2) = p.val := congrArg Fin.val h
  omega

/-- The input that a full training of a port finds. -/
def State.fullLaser (s : State) (p : PortId) (m : Training) : BitVec 2 :=
  let y := (s.engine (engineOf p)).take m.inputs
  if (s.port (oppositePort p)).st = 2 ∧ y.inputOk y.laser = true then y.laser else y.pickLaser

theorem State.heard_laser (s : State) (p : PortId) (m : Training) : (s.heard p m).trainLaser p false = s.fullLaser p m := by
  have hCounts := s.heard_engine p m
  have hPick : ((s.heard p m).engine (engineOf p)).pickLaser = ((s.engine (engineOf p)).take m.inputs).pickLaser :=
    hCounts.proj Engine.pickLaser
  have hLaser : ((s.heard p m).engine (engineOf p)).laser = ((s.engine (engineOf p)).take m.inputs).laser :=
    hCounts.proj Engine.laser
  have hOk : ((s.heard p m).engine (engineOf p)).inputOk ((s.heard p m).engine (engineOf p)).laser =
      ((s.engine (engineOf p)).take m.inputs).inputOk ((s.engine (engineOf p)).take m.inputs).laser :=
    hCounts.proj fun x => x.inputOk x.laser
  unfold State.trainLaser State.fullLaser
  dsimp only
  rw [hOk, hPick, hLaser, State.heard_port_other (oppositePort_ne p), Bool.false_or]
  exact if_congr (by rw [Bool.and_eq_true, beq_iff_eq]) rfl rfl

/-- The engine of a port that trains has its input. -/
def State.lit (s : State) (p : PortId) (m : Training) : State :=
  ((s.heard p m).modEngine (engineOf p) fun x => { x with laser := s.fullLaser p m }).enableLaser (engineOf p) (s.fullLaser p m)

theorem State.lit_engine (s : State) (p : PortId) (m : Training) : ((s.lit p m).engine (engineOf p)).laser = s.fullLaser p m := by
  rw [State.lit, State.enableLaser_engine, State.modEngine_engine_same]

theorem State.lit_port (s : State) (p : PortId) (m : Training) : ((s.lit p m).port p).partner = (s.port p).partner ∧
    ((s.lit p m).port p).failures = (s.port p).failures := by
  rw [State.lit, State.enableLaser_port]
  exact s.heard_port p m

/-- The stages of a port whose engine has an input. -/
def State.trainAs (s : State) (p : PortId) (m : Training) (fast eth : Bool) (laser : BitVec 2) : State :=
  let s := (s.modEngine (engineOf p) fun x => { x with laser }).enableLaser (engineOf p) laser
  let early := earlyFailure m laser
  if early ≠ 0 ∧ (early ≠ 5 ∨ (fast = false ∧ eth = false)) then s.modPort p fun x => x.fail (BitVec.ofNat 3 early)
  else if fast = true ∨ eth = true then s.portUp p m.lanesBest.eraseDups eth
  else s.lateStages p m

theorem exec_linkTraining (hSwitch : (s.engine (engineOf p)).switch = .through) (hOn : s.engineOn (engineOf p) = true)
    (hMode : (s.engine (engineOf p)).ethMode = false) (hFull : m.fast = false) :
    exec (.linkTraining p m) s = .next (
      if earlyFailure m (s.fullLaser p m) ≠ 0 then
        (s.lit p m).modPort p fun x => x.fail (BitVec.ofNat 3 (earlyFailure m (s.fullLaser p m)))
      else (s.lit p m).lateStages p m) := by
  have hExec : exec (.linkTraining p m) s = execLinkTraining p m s := rfl
  have hEth : ((s.heard p m).engine (engineOf p)).ethMode = false := ((s.heard_engine p m).proj Engine.ethMode).trans hMode
  have hFast : (m.fast && ((s.heard p m).port p).st == 1 && ((s.heard p m).port p).fast) = false := by rw [hFull]; rfl
  rw [hExec, execLinkTraining]
  refine congrArg Outcome.next ((if_pos ⟨hSwitch, hOn⟩).trans ?_)
  have hAs : (s.heard p m).trainAs p m false false (s.fullLaser p m) =
      if earlyFailure m (s.fullLaser p m) ≠ 0 then
        (s.lit p m).modPort p fun x => x.fail (BitVec.ofNat 3 (earlyFailure m (s.fullLaser p m)))
      else (s.lit p m).lateStages p m := by
    unfold State.trainAs
    refine if_congr (and_iff_left (.inr ⟨rfl, rfl⟩)) rfl (if_neg ?_)
    rintro (h | h)
    · exact Bool.false_ne_true h
    · exact Bool.false_ne_true h
  rw [← hAs, ← s.heard_laser p m]
  refine Eq.trans (b := (s.heard p m).trainAs p m (m.fast && ((s.heard p m).port p).st == 1 && ((s.heard p m).port p).fast)
    ((s.heard p m).engine (engineOf p)).ethMode ((s.heard p m).trainLaser p
      (m.fast && ((s.heard p m).port p).st == 1 && ((s.heard p m).port p).fast))) rfl ?_
  rw [hFast, hEth]

/-! #### Stages that run out -/

theorem earlyFailure_zero {laser : BitVec 2} (hLaser : laser ≠ 2) (hFailed : m.failed.val = 0 ∨ 5 < m.failed.val)
    (hLanes : 8 ≤ m.lanesBest.eraseDups.length) : earlyFailure m laser = 0 := by
  unfold earlyFailure
  rw [if_neg hLaser, if_neg (by omega), if_neg (by omega), if_neg (by omega)]

theorem earlyFailure_failed {laser : BitVec 2} (hLaser : laser ≠ 2) (hFailed : m.failed.val ≠ 0) (hEarly : m.failed.val ≤ 5)
    (hLanes : m.failed.val ≤ 4 ∨ 8 ≤ m.lanesBest.eraseDups.length) : earlyFailure m laser = m.failed.val := by
  unfold earlyFailure
  rw [if_neg hLaser]
  split
  · rfl
  · split
    · omega
    · split
      · omega
      · omega

/-- A port that a stage left down. -/
structure Port.Failed (x : Port) (stage : BitVec 3) (failures : Nat) : Prop where
  st : x.st = 0
  stage : x.stage = stage
  failures : x.failures = failures + 1

theorem State.modPort_fail (s : State) (p : PortId) (stage : BitVec 3) :
    ((s.modPort p fun x => x.fail stage).port p).Failed stage (s.port p).failures := by
  rw [State.modPort_port_same]
  exact ⟨rfl, rfl, rfl⟩

/-- The port has sent its record. -/
def State.recorded (s : State) (p : PortId) (m : Training) : State :=
  let s := s.modPort p fun x => { x with txpwr := m.txpwr }
  s.send (.partner p) (.capability (capBytes (s.ownRecord p (m.lanesBest.eraseDups.length == 9))))

theorem State.recorded_spec (s : State) (p : PortId) (m : Training) :
    ((s.recorded p m).port p).partner = (s.port p).partner ∧ ((s.recorded p m).port p).failures = (s.port p).failures ∧
      (∀ e, ((s.recorded p m).engine e).laser = (s.engine e).laser) ∧
      ∃ r, (Dest.partner p, Msg.capability r) ∈ (s.recorded p m).sent := by
  unfold State.recorded
  extract_lets s1
  have hPort : (s1.port p).partner = (s.port p).partner ∧ (s1.port p).failures = (s.port p).failures := by
    show (State.port (s.modPort p _) p).partner = _ ∧ (State.port (s.modPort p _) p).failures = _
    rw [State.modPort_port_same]
    exact ⟨rfl, rfl⟩
  have hEngine (e : EngineId) : s1.engine e = s.engine e := rfl
  clear_value s1
  generalize capBytes (s1.ownRecord p (m.lanesBest.eraseDups.length == 9)) = r
  have hSend := s1.trafficOnly_send (.partner p) (.capability r)
  refine ⟨(hSend.port_proj p Port.partner).trans hPort.1,
    (hSend.port_proj p Port.failures).trans hPort.2, fun e => ?_, r, ?_⟩
  · rw [← hEngine e]
    exact (Engine.CountsOnly.of_traffic hSend e).proj Engine.laser
  · exact List.mem_append_right _ (List.mem_singleton_self _)

theorem State.lateStages_eq (s : State) (p : PortId) (m : Training) : s.lateStages p m =
    if ((s.recorded p m).port p).partner = none ∨ m.failed.val = 6 then (s.recorded p m).modPort p fun x => x.fail 6
    else if m.failed.val = 7 then (s.recorded p m).modPort p fun x => x.fail 7
    else if marginOf m.rxpwr < 0 then ((s.recorded p m).measure p m).modPort p fun x => x.train 7
    else ((s.recorded p m).measure p m).portUp p m.lanesBest.eraseDups false := rfl

theorem State.lateStages_failed (hFailed : m.failed.val = 6 ∨ m.failed.val = 7 ∧ (s.port p).partner ≠ none) :
    ((s.lateStages p m).port p).Failed (BitVec.ofNat 3 m.failed.val) (s.port p).failures := by
  obtain ⟨hPartner, hCount, -⟩ := s.recorded_spec p m
  rw [State.lateStages_eq, hPartner, ← hCount]
  rcases hFailed with h6 | ⟨h7, hKnown⟩
  · rw [if_pos (.inr h6), h6]
    exact State.modPort_fail ..
  · rw [if_neg (by rw [h7]; simp [hKnown]), if_pos h7, h7]
    exact State.modPort_fail ..

/-- A full training that fails leaves its port down at the stage that ran out. -/
theorem linkTraining_failed (hSwitch : (s.engine (engineOf p)).switch = .through) (hOn : s.engineOn (engineOf p) = true)
    (hMode : (s.engine (engineOf p)).ethMode = false) (hFull : m.fast = false) (hLaser : s.fullLaser p m ≠ 2)
    (hFailed : m.failed.val ≠ 0) (hLanes : m.failed.val ≤ 4 ∨ 8 ≤ m.lanesBest.eraseDups.length)
    (hPartner : m.failed.val = 7 → (s.port p).partner ≠ none) : ∃ s', exec (.linkTraining p m) s = .next s' ∧
      (s'.port p).Failed (BitVec.ofNat 3 m.failed.val) (s.port p).failures := by
  refine ⟨_, exec_linkTraining hSwitch hOn hMode hFull, ?_⟩
  obtain ⟨hKnown, hCount⟩ := s.lit_port p m
  rw [← hCount]
  rcases Nat.lt_or_ge 5 m.failed.val with hLate | hEarly
  · rw [if_neg (not_not_intro (earlyFailure_zero hLaser (.inr hLate) (hLanes.resolve_left (by omega))))]
    refine State.lateStages_failed ?_
    rw [hKnown]
    have hCases : m.failed.val = 6 ∨ m.failed.val = 7 := by omega
    exact hCases.imp id fun h => ⟨h, hPartner h⟩
  · rw [earlyFailure_failed hLaser hFailed hEarly hLanes, if_pos hFailed]
    exact State.modPort_fail ..

/-! #### A port that comes up -/

theorem State.foldl_handOver (l : List WireFrame) (s : State) : s.TrafficOnly (l.foldl State.handOver s) ∧
    (l.foldl State.handOver s).sent = s.sent :=
  foldl_keeps (P := fun x : State => s.TrafficOnly x ∧ x.sent = s.sent) l ⟨.refl s, rfl⟩ fun x f hx => by
    refine ⟨hx.1.trans (x.trafficOnly_handOver f), Eq.trans ?_ hx.2⟩
    unfold State.handOver
    split <;> rfl

theorem State.portUp_port {α : Type} (s : State) (p : PortId) (lanes : List (Fin 9)) (eth : Bool) (g : Port → α)
    (hg : ∀ (x : Port) q b, g { x with queue := q, bytes := b } = g x := by intros; rfl) :
    g ((s.portUp p lanes eth).port p) = g ((s.port p).up lanes eth) := by
  unfold State.portUp
  extract_lets l s1
  have hs1 : g (s1.port p) = g ((s.port p).up lanes eth) := by
    have hHand := ((s.modPort p fun x => { x.up lanes eth with queue := [] }).foldl_handOver l).1
    refine (hHand.port_proj p g hg).trans ?_
    rw [State.modPort_port_same]
    exact hg ((s.port p).up lanes eth) [] _
  clear_value s1
  exact hs1

theorem State.portUp_rest (s : State) (p : PortId) (lanes : List (Fin 9)) (eth : Bool) :
    (s.portUp p lanes eth).sent = s.sent ∧ ∀ e, ((s.portUp p lanes eth).engine e).laser = (s.engine e).laser := by
  unfold State.portUp
  extract_lets l s1
  have hs1 : s1.sent = s.sent ∧ ∀ e, (s1.engine e).laser = (s.engine e).laser := by
    obtain ⟨hHand, hSent⟩ := (s.modPort p fun x => { x.up lanes eth with queue := [] }).foldl_handOver l
    exact ⟨hSent, fun e => (Engine.CountsOnly.of_traffic hHand e).proj Engine.laser⟩
  clear_value s1
  refine ⟨hs1.1, fun e => ?_⟩
  rw [← hs1.2 e]
  by_cases h : e = engineOf p
  · subst h
    rw [State.modEngine_engine_same]
    split
    · rfl
    · split <;> rfl
  · rw [State.modEngine_engine_other _ _ h]

/-- What a full training leaves on a port that is up: the lanes, and what its stages measured. -/
structure Port.Trained (x : Port) (m : Training) : Prop where
  st : x.st = 2
  lanes : x.lanes = 8
  map : x.laneMap = m.lanesBest.eraseDups.take 9
  rtt : x.rtt = m.rtt
  length : 640 ≤ m.rtt.toNat → x.length.toNat = m.rtt.toNat - 640
  margin : 0 ≤ marginOf m.rxpwr → marginOf m.rxpwr ≤ 127 → x.margin.toInt = marginOf m.rxpwr

theorem measured_toNat {v : Nat} (h : v < 65536) (draw : Nat) : (measured 16 0 65535 (v : Int) draw).toNat = v := by
  unfold measured
  rw [if_pos (by omega), BitVec.toNat_ofInt]
  omega

theorem measured_toInt {v : Int} (h0 : 0 ≤ v) (h127 : v ≤ 127) (draw : Nat) : (measured 8 (-128) 127 v draw).toInt = v := by
  unfold measured
  rw [if_pos (by omega), BitVec.toInt_ofInt]
  exact Int.bmod_eq_of_le (by omega) (by omega)

theorem State.measure_port (s : State) (p : PortId) (m : Training) : ∃ (b c : BitVec 8) (d : BitVec 4), (s.measure p m).port p =
    { s.port p with
      rtt := m.rtt, rxpwr := m.rxpwr, length := measured 16 0 65535 ((m.rtt.toNat : Int) - 640) s.freeCtr
      spanLoss := b, rxLoss := c, margin := measured 8 (-128) 127 (marginOf m.rxpwr) (s.freeCtr + 2), bypassMax := d } := by
  unfold State.measure
  extract_lets margin c spanLoss s1
  have hs1 : s1.port p = { s.port p with
    rtt := m.rtt, rxpwr := m.rxpwr, length := measured 16 0 65535 ((m.rtt.toNat : Int) - 640) c
    spanLoss, rxLoss := spanLoss, margin := measured 8 (-128) 127 margin (c + 2)
    bypassMax := measured 4 0 15 (bypassMaxOf margin (s.dval 0x2310 0)) (c + 3) } := State.modPort_port_same ..
  exact ⟨_, _, _, hs1⟩

theorem State.measured_up (s : State) (p : PortId) (m : Training) :
    (((s.measure p m).portUp p m.lanesBest.eraseDups false).port p).Trained m := by
  obtain ⟨b, c, d, hPort⟩ := s.measure_port p m
  have hUp {α : Type} (g : Port → α) (hg : ∀ (x : Port) q b, g { x with queue := q, bytes := b } = g x) :=
    (s.measure p m).portUp_port p m.lanesBest.eraseDups false g hg
  refine ⟨hUp Port.st fun _ _ _ => rfl, hUp Port.lanes fun _ _ _ => rfl, hUp Port.laneMap fun _ _ _ => rfl,
    (hUp Port.rtt fun _ _ _ => rfl).trans ?_, fun hLong => (hUp (fun x => x.length.toNat) fun _ _ _ => rfl).trans ?_,
    fun h0 h127 => (hUp (fun x => x.margin.toInt) fun _ _ _ => rfl).trans ?_⟩
  · exact congrArg Port.rtt hPort
  · refine (congrArg (fun x : Port => x.length.toNat) hPort).trans ?_
    have hLt := m.rtt.isLt
    have hCast : ((m.rtt.toNat : Int) - 640) = ((m.rtt.toNat - 640 : Nat) : Int) := by omega
    show (measured 16 0 65535 ((m.rtt.toNat : Int) - 640) s.freeCtr).toNat = _
    rw [hCast, measured_toNat (by omega)]
  · exact (congrArg (fun x : Port => x.margin.toInt) hPort).trans (measured_toInt h0 h127 _)

/-- A full training whose stages all end brings its port up. -/
theorem linkTraining_up (hSwitch : (s.engine (engineOf p)).switch = .through) (hOn : s.engineOn (engineOf p) = true)
    (hMode : (s.engine (engineOf p)).ethMode = false) (hFull : m.fast = false) (hLaser : s.fullLaser p m ≠ 2)
    (hFailed : m.failed.val = 0) (hLanes : 8 ≤ m.lanesBest.eraseDups.length) (hPartner : (s.port p).partner ≠ none)
    (hMargin : 0 ≤ marginOf m.rxpwr) : ∃ s', exec (.linkTraining p m) s = .next s' ∧ (s'.port p).Trained m ∧
      (s'.engine (engineOf p)).laser = s.fullLaser p m ∧ ∃ r, (Dest.partner p, Msg.capability r) ∈ s'.sent := by
  obtain ⟨hKnown, -, hLit, r, hSent⟩ := (s.lit p m).recorded_spec p m
  rw [(s.lit_port p m).1] at hKnown
  have hLate : (s.lit p m).lateStages p m =
      (((s.lit p m).recorded p m).measure p m).portUp p m.lanesBest.eraseDups false := by
    have hGoes : ¬ ((((s.lit p m).recorded p m).port p).partner = none ∨ m.failed.val = 6) := by
      rw [hKnown, hFailed]
      simp [hPartner]
    rw [State.lateStages_eq, if_neg hGoes, if_neg (by omega), if_neg (not_lt.mpr hMargin)]
  have hExec := exec_linkTraining hSwitch hOn hMode hFull
  rw [if_neg (not_not_intro (earlyFailure_zero hLaser (.inl hFailed) hLanes)), hLate] at hExec
  have hLaser := s.lit_engine p m
  generalize (s.lit p m).recorded p m = s1 at hExec hLit hSent
  have hMeasured (e : EngineId) : ((s1.measure p m).engine e).laser = (s1.engine e).laser := rfl
  have hMeasuredSent : (s1.measure p m).sent = s1.sent := rfl
  have hTrained := s1.measured_up p m
  generalize s1.measure p m = s2 at hExec hMeasured hMeasuredSent hTrained
  obtain ⟨hSentUp, hLaserUp⟩ := s2.portUp_rest p m.lanesBest.eraseDups false
  refine ⟨_, hExec, hTrained, ?_, r, ?_⟩
  · rw [hLaserUp, hMeasured, hLit, hLaser]
  · rw [hSentUp, hMeasuredSent]
    exact hSent

end

end Sys2Proof.Machine
end

section
/-! ### Capability records, beacons, and what an optical engine does (R277 to R295, R316) -/

namespace Sys2Proof.Machine

open Host (Outcome)

section
variable {s : State} {p : PortId}

theorem exec_stageTimeout (hDown : (s.port p).st = 0) (hStage : (s.port p).stage ≠ 0)
    (hSwitch : (s.engine (engineOf p)).switch = .through) (hOn : s.engineOn (engineOf p) = true) :
    exec (.trainingStageTimeout p) s =
      .next (s.modPort p fun x => x.train (if (s.port p).failures % 10 = 0 then 1 else 2)) := by
  have hExec : exec (.trainingStageTimeout p) s = execTrainingStageTimeout p s := rfl
  rw [hExec, execTrainingStageTimeout]
  exact congrArg Outcome.next (if_pos ⟨hDown, hStage, hSwitch, hOn⟩)

/-! #### Capability records -/

/-- The partner of a port speaks another version, or is on the same side of its engine. -/
def capBad (p : PortId) (r : CapRec) : Bool := r.fabver != 1 || r.portid.getLsbD 0 == decide (p.val % 2 = 1)

theorem capBad_iff (p : PortId) (r : CapRec) : capBad p r = true ↔ r.fabver ≠ 1 ∨ r.portid.toNat % 2 = p.val % 2 := by
  have hBit : r.portid.getLsbD 0 = decide (r.portid.toNat % 2 = 1) := by
    rw [BitVec.getLsbD, Nat.testBit_zero]
  unfold capBad
  rw [Bool.or_eq_true, bne_iff_ne, beq_iff_eq, hBit, decide_eq_decide]
  refine or_congr_right ?_
  omega

/-- A port has its partner's record. -/
def State.partnered (s : State) (p : PortId) (r : CapRec) (bad dup : Bool) : State :=
  s.modPort p fun x => { x with partner := some r, miswire := bad, dupnum := dup }

theorem exec_capability {r : CapRec} (hSwitch : (s.engine (engineOf p)).switch = .through)
    (hMode : (s.engine (engineOf p)).ethMode = false) (hClean : r.rsvd = 0) {bad dup : Bool} (hBad : capBad p r = bad)
    (hDup : (r.srcnum.extractLsb' 16 8 == s.devNum) = dup) : exec (.capabilityRecordReceive p r) s = .next (
      (if bad then (if bad || dup then (s.partnered p r bad dup).opticsEvent (engineOf p) clsNone
        else s.partnered p r bad dup).toBypass (engineOf p) 8
      else if bad || dup then (s.partnered p r bad dup).opticsEvent (engineOf p) clsNone
      else s.partnered p r bad dup).reroute.regroup) := by
  have hExec : exec (.capabilityRecordReceive p r) s = execCapabilityRecordReceive p r s := rfl
  subst hBad hDup
  rw [hExec, execCapabilityRecordReceive]
  exact congrArg Outcome.next ((if_pos ⟨hSwitch, hMode⟩).trans (if_neg (not_not_intro hClean)))

theorem exec_capability_good {r : CapRec} (hSwitch : (s.engine (engineOf p)).switch = .through)
    (hMode : (s.engine (engineOf p)).ethMode = false) (hClean : r.rsvd = 0)
    (hGood : ¬ (r.fabver ≠ 1 ∨ r.portid.toNat % 2 = p.val % 2)) (hOther : r.srcnum.extractLsb' 16 8 ≠ s.devNum) :
    exec (.capabilityRecordReceive p r) s = .next (s.partnered p r false false).reroute.regroup := by
  rw [exec_capability hSwitch hMode hClean (Bool.eq_false_iff.mpr fun h => hGood ((capBad_iff p r).mp h))
    (beq_eq_false_iff_ne.mpr hOther)]
  rfl

/-- New routes and groups leave ports and engines. -/
theorem State.regroup_exits (s : State) : s.reroute.regroup.ports = s.ports ∧ s.reroute.regroup.engines = s.engines := by
  have hStart : s.reroute.ports = s.ports ∧ s.reroute.engines = s.engines := ⟨rfl, rfl⟩
  generalize s.reroute = s1 at hStart
  unfold State.regroup
  refine foldl_keeps (P := fun x : State => x.ports = s.ports ∧ x.engines = s.engines) _ hStart fun x g hx => ?_
  unfold State.regroupOne
  extract_lets members leader role g0 g1 g2
  clear_value g2
  split
  · exact hx
  · exact hx

theorem capability_bad {r : CapRec} (hSwitch : (s.engine (engineOf p)).switch = .through)
    (hMode : (s.engine (engineOf p)).ethMode = false) (hClean : r.rsvd = 0)
    (hBad : r.fabver ≠ 1 ∨ r.portid.toNat % 2 = p.val % 2) (hHeld : (s.engine (engineOf p)).ethHeld = false) :
    ∃ s', exec (.capabilityRecordReceive p r) s = .next s' ∧ (s'.port p).miswire = true ∧
      (s'.engine (engineOf p)).bypReason = 8 ∧ (s'.port p).st = 0 := by
  have hExec := exec_capability hSwitch hMode hClean ((capBad_iff p r).mpr hBad) rfl
  generalize (r.srcnum.extractLsb' 16 8 == s.devNum) = dup at hExec
  have hEvent : ((s.partnered p r true dup).opticsEvent (engineOf p) clsNone).ports = (s.partnered p r true dup).ports ∧
      ((s.partnered p r true dup).opticsEvent (engineOf p) clsNone).engines = s.engines := State.opticsEvent_exits ..
  have hWire : ((s.partnered p r true dup).port p).miswire = true := by rw [State.partnered, State.modPort_port_same]
  generalize (s.partnered p r true dup).opticsEvent (engineOf p) clsNone = s1 at hExec hEvent
  obtain ⟨hPorts, hEngines⟩ := hEvent
  have hEngine : s1.engine (engineOf p) = s.engine (engineOf p) := by rw [State.engine, hEngines, State.engine]
  have hBypass : s1.Bypassed (s1.toBypass (engineOf p) 8) (engineOf p) 8 :=
    State.toBypass_ronor ((congrArg Engine.ethMode hEngine).trans hMode) ((congrArg Engine.ethHeld hEngine).trans hHeld) 8
  have hPort : s1.port p = (s.partnered p r true dup).port p := by rw [State.port, hPorts, State.port]
  have hExec' : exec (.capabilityRecordReceive p r) s = .next (s1.toBypass (engineOf p) 8).reroute.regroup := hExec
  generalize s1.toBypass (engineOf p) 8 = s2 at hExec' hBypass
  obtain ⟨hPorts2, hEngines2⟩ := s2.regroup_exits
  refine ⟨_, hExec', ?_, ?_, ?_⟩
  · rw [State.port, hPorts2]
    exact (hBypass.miswire p).trans ((congrArg Port.miswire hPort).trans hWire)
  · rw [State.engine, hEngines2]
    exact hBypass.reason
  · rw [State.port, hPorts2]
    exact hBypass.down p (mem_portsOf p)

/-! #### Beacons -/

theorem exec_beaconSend (hUp : (s.port p).st = 2) (hFabric : (s.port p).eth = false) (hTraced : s.tracing ≠ []) :
    exec (.beaconSend p) s = .next (s.send (.partner p) (.beacon
      { echoTx := (s.port p).lastBeaconTx, echoRx := (s.port p).lastBeaconRx, portid := BitVec.ofNat 8 p.val })) := by
  have hExec : exec (.beaconSend p) s = execBeaconSend p s := rfl
  rw [hExec, execBeaconSend, if_pos ⟨hUp, hFabric, hTraced⟩]

/-- A record for each partition of a list takes one sequence number of each, and leaves the ports. -/
theorem State.offers_seq (kind : Nat) (src : State → BitVec 24) (ts : Stamp) (data : List Byte) (l : List PartId) (hl : l.Nodup)
    (s : State) : (s.each l fun s q => s.offer q kind (src s) ts noIds 0 data).ports = s.ports ∧ ∀ q,
      ((s.each l fun s q => s.offer q kind (src s) ts noIds 0 data).part q).strand.seq =
        (s.part q).strand.seq + (if q ∈ l then 1 else 0) := by
  induction l generalizing s with
  | nil => exact ⟨rfl, fun q => (add_zero _).symm⟩
  | cons p l ih =>
    obtain ⟨hNew, hRest⟩ := List.nodup_cons.mp hl
    obtain ⟨hPorts, hSeq⟩ := ih hRest (s.offer p kind (src s) ts noIds 0 data)
    have hKept : (s.offer p kind (src s) ts noIds 0 data).ports = s.ports := by
      obtain ⟨m, w, b, st, hOffer⟩ := s.offer_shape p kind (src s) ts noIds 0 data
      rw [hOffer]
      rfl
    refine ⟨hPorts.trans hKept, fun q => (hSeq q).trans ?_⟩
    by_cases hq : q = p
    · subst hq
      rw [(s.offer_strand q kind (src s) ts noIds 0 data).1, if_neg hNew, if_pos List.mem_cons_self, add_zero]
    · rw [State.offer_part_other s kind (src s) ts noIds 0 data hq]
      simp only [List.mem_cons, hq, false_or]

theorem exec_beaconReceive (b : Beacon) (ts trx : Stamp) (hUp : (s.port p).st = 2) (hFabric : (s.port p).eth = false)
    (hTraced : s.tracing ≠ []) : ∃ s', exec (.beaconReceive p b ts trx) s = .next s' ∧
      (s'.port p).lastBeaconTx = ts ∧ (s'.port p).lastBeaconRx = trx ∧
      ∀ q, (s'.part q).strand.seq = (s.part q).strand.seq + (if q ∈ s.tracing then 1 else 0) := by
  have hExec : exec (.beaconReceive p b ts trx) s = execBeaconReceive p b ts trx s := rfl
  rw [hExec, execBeaconReceive]
  refine ⟨_, congrArg Outcome.next (if_pos ⟨hUp, hFabric, hTraced⟩), ?_⟩
  extract_lets s1 payload
  have hTracing : s1.tracing = s.tracing := rfl
  have hStamps : (s1.port p).lastBeaconTx = ts ∧ (s1.port p).lastBeaconRx = trx := by
    show (State.port ((s.reach trx).modPort p _) p).lastBeaconTx = ts ∧ (State.port ((s.reach trx).modPort p _) p).lastBeaconRx = trx
    rw [State.modPort_port_same]
    exact ⟨rfl, rfl⟩
  have hParts (q : PartId) : s1.part q = s.part q := rfl
  clear_value s1 payload
  have hNodup : s1.tracing.Nodup := (List.nodup_finRange _).filter _
  obtain ⟨hPorts, hSeq⟩ := State.offers_seq 6 (fun x => x.srcEngine (engineOf p)) trx payload s1.tracing hNodup s1
  generalize s1.each s1.tracing (fun s q => s.offer q 6 (s.srcEngine (engineOf p)) trx noIds 0 payload) = s2 at hPorts hSeq ⊢
  rw [State.port, hPorts]
  refine ⟨hStamps.1, hStamps.2, fun q => ?_⟩
  rw [← hParts q, ← hTracing]
  exact hSeq q

end

/-- Settles O46: lanes, lasers, training, the bypass switch and beacons, each by its command. -/
theorem opticalEnginesTrainAndSwitch : Obligations.OpticalEnginesTrainAndSwitch := by
  unfold Obligations.OpticalEnginesTrainAndSwitch
  refine ⟨fun s p => ⟨fun lane hUp hFabric hMap => ⟨fun hSpare => ?_, fun hUsed => ?_⟩, fun i h => ⟨fun hSpare => ?_, fun hNone hMode hHeld => ?_⟩,
    fun m hSwitch hOn hMode hFull hLaser => ⟨fun hFailed hLanes hPartner hMargin hLong => ?_, fun hFailed hLanes hPartner => ?_⟩,
    exec_stageTimeout, fun r hSwitch hMode hClean => ⟨exec_capability_good hSwitch hMode hClean, capability_bad hSwitch hMode hClean⟩⟩,
    fun s e => ⟨fun i => ⟨fun cause hPresent hMoves => ⟨fun hMode hHeld => ?_, fun hMode => ?_⟩, exec_throughMove,
      exec_throughMove_uncharged⟩, exec_switchMoveDone_bypass, exec_switchMoveDone_through,
      fun p hUp hFabric hTraced => ⟨exec_beaconSend hUp hFabric hTraced, fun b ts trx => exec_beaconReceive b ts trx hUp hFabric hTraced⟩⟩⟩
  · rw [exec_laneSwap lane hUp hFabric, if_pos ⟨hSpare, hMap⟩]
    exact congrArg (fun x : State => Outcome.next (x.opticsEvent (engineOf p) clsCorrected)) (State.modPort_congr _ _ rfl)
  · rw [exec_laneSwap lane hUp hFabric, if_neg fun h => hUsed h.1]
  · obtain ⟨s', hExec, hInput, hLow, hCount, hPort⟩ := laserFailover_spare h hSpare
    exact ⟨s', hExec, hInput, hLow, hCount, fun hUp => ⟨(hPort hUp).st, (hPort hUp).stage, (hPort hUp).counted⟩⟩
  · obtain ⟨s', hExec, hInput, hReason, hMoved, hDown⟩ := laserFailover_dark h hNone hMode hHeld
    exact ⟨s', hExec, hInput, hReason, hMoved, hDown p (mem_portsOf p)⟩
  · obtain ⟨s', hExec, hUp, hInput, hSent⟩ := linkTraining_up hSwitch hOn hMode hFull hLaser hFailed hLanes hPartner hMargin
    exact ⟨s', hExec, hUp.st, hUp.lanes, hUp.map, hUp.rtt, hUp.length hLong, hUp.margin hMargin, hInput, hSent⟩
  · obtain ⟨s', hExec, hDown⟩ := linkTraining_failed hSwitch hOn hMode hFull hLaser hFailed hLanes hPartner
    exact ⟨s', hExec, hDown.st, hDown.stage, hDown.failures⟩
  · have hEngine : (s.modEngine e fun x => x.take i).engine e = (s.engine e).take i := State.modEngine_engine_same ..
    have hBypass := State.toBypass_ronor (s := s.modEngine e fun x => x.take i) ((congrArg Engine.ethMode hEngine).trans hMode)
      ((congrArg Engine.ethHeld hEngine).trans hHeld) cause
    refine ⟨_, exec_bypassMove hPresent hMoves, hBypass.switch.trans ?_, hBypass.reason, hBypass.down⟩
    rw [hEngine]
    rfl
  · have hEngine : (s.modEngine e fun x => x.take i).engine e = (s.engine e).take i := State.modEngine_engine_same ..
    exact (exec_bypassMove hPresent hMoves).trans
      (congrArg Outcome.next (State.toBypass_eth ((congrArg Engine.ethMode hEngine).trans hMode) cause))

end Sys2Proof.Machine
end
